-- ==== Sys2Proof/Word.lean ====
section
/-! DEFINITION. The word types of the block. -/

namespace Sys2Proof

/-- One byte. -/
abbrev Byte := BitVec 8

/-- A 32-bit word: FP32 values, Tenon registers, ring registers. -/
abbrev W32 := BitVec 32

/-- A 64-bit word: descriptors' fields, device memory addresses. -/
abbrev W64 := BitVec 64

/-- A 128-bit sequencer slot (03_benches.md R94). -/
abbrev Slot := BitVec 128

/-- A byte-addressed memory: (address, byte) pairs in one canonical form (Host.Cell is the same pair). -/
abbrev Memory := List (Nat × BitVec 8)

end Sys2Proof
end

