-- ==== Sys2Proof/Config.lean ====
section
/-! DEFINITION. What an implementation fixes and what the manual leaves open: opaque constants without a body, so
that nothing can be proved of their values, and the plain numbers of the part. -/

namespace Sys2Proof.Config

/-- The n-th free value: the manual states that some value results and not which (log 7). -/
opaque freeValue (w : Nat) (n : Nat) : BitVec w

/-- DESIGN CHOICE (log 11): whether the ALU operation of this number sets the flags. R237 says that the flags are
those of the last flag-setting instruction and names CMP and PCMP only as examples. -/
opaque aluSetsFlags (op : Nat) : Bool

/-- DESIGN CHOICE (log 11): carry and overflow left by an ALU operation for which the manual defines neither. -/
opaque aluCarryOverflow (op : Nat) (x y : BitVec 32) : Bool × Bool

/-- DESIGN CHOICE (log 11): SEXT, whose source width no rule states, as a function of both source registers. -/
opaque signExtend (x y : BitVec 32) : BitVec 32

/-- DESIGN CHOICE (log 11): ZEXT, whose source width no rule states. -/
opaque zeroExtend (x y : BitVec 32) : BitVec 32

/-- DESIGN CHOICE (log 11): the bit field that the extract operation reads, from the source, the amount operand and
the unassigned bits [3:0] of the layout of R236. -/
opaque bitFieldExtract (src amount : BitVec 32) (low : BitVec 4) : BitVec 32

/-- DESIGN CHOICE (log 11): the result of the bit-field insert, from the old destination, the source, the amount
operand and bits [3:0]. -/
opaque bitFieldInsert (old src amount : BitVec 32) (low : BitVec 4) : BitVec 32

/-- DESIGN CHOICE (log 11): a shift whose register amount is 32 or more; op numbers the shift operation. -/
opaque wideShift (op : Nat) (x amount : BitVec 32) : BitVec 32

/-- DESIGN CHOICE (log 11): a short ALU immediate whose top bit is set; R236 does not say how imm14 widens. -/
opaque wideImm14 (v : BitVec 14) : BitVec 32

/-- DESIGN CHOICE (log 11): a short PADR immediate whose top bit is set; R236 does not say how imm12 widens. -/
opaque wideImm12 (v : BitVec 12) : BitVec 32

/-- DESIGN CHOICE (log 11): whether DIVS and REMS round toward minus infinity instead of toward zero. -/
opaque divFloor : Bool

/-- DESIGN CHOICE (log 11): whether MIN and MAX compare signed values. -/
opaque minMaxSigned : Bool

/-- DESIGN CHOICE (log 11): whether a CVEC with this op code takes the scalar form; R260 gives the choice no bit. -/
opaque cvecScalar (sub : Nat) : Bool

/-- DESIGN CHOICE (log 11): the compare code of a CVEC compare; R260 gives it no field. -/
opaque cvecCompare : Nat

/-- DESIGN CHOICE (log 11): lane l of a CVEC whose op is a load, store, draw or reduction, of which no rule says what it gives:
a value of its entries and its scalar alone (03_benches.md R104). -/
opaque cvecOther (sub : Nat) (entry entry2 : List (BitVec 32)) (scalar : BitVec 32) (l : Nat) : BitVec 32

/-- The certificate chain of slot 0 (R304), as a function of the DeviceID key and of d_0: its bytes are not stated (log 7). -/
opaque certChain (device d0 : List (BitVec 8)) : List (BitVec 8)

/-- The digest of the security core's ROM, which no rule states (log 7). -/
opaque romDigest : BitVec 384

/-- Whether the system window of a core of an image kind reaches anything at an address. The rule names what each core reaches and
gives it no addresses (09_firmware.md R276; log 30). -/
opaque windowReach (kind addr : Nat) : Bool

/-- What a line whose stored bytes differ in more than two places still differs in after the Reed-Solomon decoder of R210;
none where the decoder finds it uncorrectable. R210 does not state the code's polynomials (DESIGN CHOICE, log 23). -/
opaque rsResidue (flips : List (BitVec 8)) : Option (List (BitVec 8))

/-- Whether a data image lists the parameters that a flash target's parameter page gives (14_shelf.md R378); the layouts of both
are not stated (log 7). -/
opaque listsParams (data page : List (BitVec 8)) : Bool

/-- Ihlangen's vendor identifier in vendor-defined messages (10_tenancy.md R294); its value is not stated (log 12). -/
opaque vendorId : List (BitVec 8)

/-- What the host has programmed at a time into a size field of a function's configuration space, which no command writes: field 0
Max Payload Size, field 1 Max Read Request Size (11_pcie.md R312; log 10). -/
opaque hostSize (fn field now : Nat) : BitVec 3

/-- Energy in uJ that the rails of valley v draw in n ns from time t on outside a run (18_power.md R483; log 24). -/
opaque drawn (v t n : Nat) : Nat

/-- Bytes beside its data that programming number k of the shelf programs into the NAND, and whether it raises the highest erase
count of a block (17_time.md R477; log 28). -/
opaque nandMore (k : Nat) : BitVec 32
/-- The same programming's erase. -/
opaque nandErase (k : Nat) : BitVec 1

end Sys2Proof.Config
end

