-- ==== Sys2Proof/Machine/Bits.lean ====
section
/-! DEFINITION. Tables with a default (the one form in which indexed state is held), bytes and words, bit fields
of registers, and small list helpers. -/

namespace Sys2Proof.Machine

/-! ### Tables -/

/-- A table from numbers to values: the entries whose value differs from the default, keys strictly rising. -/
abbrev Tab (α : Type) := List (Nat × α)

/-- The value at key k; dflt where no entry names k. -/
def Tab.get {α : Type} (dflt : α) : Tab α → Nat → α
  | [], _ => dflt
  | (a, v) :: t, k => if k = a then v else Tab.get dflt t k

/-- The table without key k. -/
def Tab.erase {α : Type} (m : Tab α) (k : Nat) : Tab α := m.filter (fun c => c.1 != k)

/-- The table with value v placed at key k, whatever the default. -/
def Tab.put {α : Type} : Tab α → Nat → α → Tab α
  | [], k, v => [(k, v)]
  | (a, w) :: t, k, v =>
    if k = a then (k, v) :: t else if k < a then (k, v) :: (a, w) :: t else (a, w) :: Tab.put t k v

/-- Writing v at key k; writing the default removes the entry. -/
def Tab.set {α : Type} [DecidableEq α] (dflt : α) (m : Tab α) (k : Nat) (v : α) : Tab α :=
  if v = dflt then Tab.erase m k else Tab.put m k v

/-- Keys rise strictly and no entry holds the default. -/
def Tab.wfFrom {α : Type} [DecidableEq α] (dflt : α) (lo : Nat) : Tab α → Bool
  | [] => true
  | (a, v) :: t => decide (lo ≤ a) && decide (v ≠ dflt) && Tab.wfFrom dflt (a + 1) t

/-- The canonical form of a table. -/
def Tab.wf {α : Type} [DecidableEq α] (dflt : α) (m : Tab α) : Bool := Tab.wfFrom dflt 0 m

/-- Applying f to the value at k. -/
def Tab.modify {α : Type} [DecidableEq α] (dflt : α) (m : Tab α) (k : Nat) (f : α → α) : Tab α :=
  Tab.set dflt m k (f (Tab.get dflt m k))

/-! ### Bytes of a memory; an unlisted byte reads 0x00 (log 6) -/

/-- What an unlisted address reads as (DESIGN CHOICE, log 6). -/
def Memory.unlisted : BitVec 8 := 0

/-- The canonical form of a memory. -/
def Memory.wf (m : Memory) : Bool := Tab.wf Memory.unlisted m

/-- The byte at address a. -/
def Memory.byte (m : Memory) (a : Nat) : Byte := Tab.get Memory.unlisted m a

/-- Writing one byte. -/
def Memory.setByte (m : Memory) (a : Nat) (v : Byte) : Memory := Tab.set Memory.unlisted m a v

/-- The n bytes from address a. -/
def Memory.read (m : Memory) (a : Nat) : Nat → List Byte
  | 0 => []
  | n + 1 => Memory.byte m a :: Memory.read m (a + 1) n

/-- Writing a list of bytes from address a upward. -/
def Memory.write (m : Memory) (a : Nat) : List Byte → Memory
  | [] => m
  | b :: bs => Memory.write (Memory.setByte m a b) (a + 1) bs

/-- Zeroes n bytes from a: every listed entry in the range goes. -/
def Memory.zero (m : Memory) (a n : Nat) : Memory :=
  if Memory.unlisted = 0 then m.filter (fun c => decide (c.1 < a) || decide (a + n ≤ c.1))
  else Memory.write m a (List.replicate n 0)

/-! ### Little-endian words (R8) -/

/-- The number that little-endian bytes spell. -/
def leNat : List Byte → Nat
  | [] => 0
  | b :: bs => b.toNat + 256 * leNat bs

/-- The number that big-endian bytes spell (network headers, R8). -/
def beNat (bs : List Byte) : Nat := bs.foldl (fun acc b => acc * 256 + b.toNat) 0

/-- The n little-endian bytes of a number. -/
def leBytes : Nat → Nat → List Byte
  | 0, _ => []
  | n + 1, v => BitVec.ofNat 8 v :: leBytes n (v / 256)

/-- The n big-endian bytes of a number. -/
def beBytes (n v : Nat) : List Byte := (leBytes n v).reverse

/-- A little-endian number of n bytes read from memory. -/
def Memory.readLE (m : Memory) (a n : Nat) : Nat := leNat (Memory.read m a n)

/-- A number written as n little-endian bytes. -/
def Memory.writeLE (m : Memory) (a n v : Nat) : Memory := Memory.write m a (leBytes n v)

/-- Bits [lsb + width - 1 : lsb] of a number. -/
def bitsOf (v lsb width : Nat) : Nat := v / 2 ^ lsb % 2 ^ width

/-- A number with bits [lsb + width - 1 : lsb] replaced by x. -/
def withBits (v lsb width x : Nat) : Nat :=
  v % 2 ^ lsb + (x % 2 ^ width) * 2 ^ lsb + v / 2 ^ (lsb + width) * 2 ^ (lsb + width)

/-- Bit n of a number. -/
def bitOf (v n : Nat) : Bool := v / 2 ^ n % 2 = 1

/-- Field of a list of little-endian bytes: n bytes at offset o, as a number. -/
def fieldLE (bs : List Byte) (o n : Nat) : Nat := leNat ((bs.drop o).take n)

/-- Field of a list of big-endian bytes. -/
def fieldBE (bs : List Byte) (o n : Nat) : Nat := beNat ((bs.drop o).take n)

/-- A signed number read from w bits. -/
def signed (w v : Nat) : Int := if v % 2 ^ w < 2 ^ (w - 1) then (v % 2 ^ w : Int) else (v % 2 ^ w : Int) - 2 ^ w

/-- A signed number as w bits of two's complement. -/
def unsigned (w : Nat) (v : Int) : Nat := (v % 2 ^ w).toNat

/-! ### Register fields -/

/-- One field of one register: the register's address, lowest bit, width. -/
structure Field where
  addr : Nat
  lsb : Nat
  width : Nat
  deriving DecidableEq, Repr

/-- The access codes of 00_scope.md R11; rwtFw marks the RWT fields that only firmware writes (R373, VLY_STATE,
PWR_VTARGET, SEC_STATUS). -/
inductive Access where
  | rw | ro | wo | w1c | w1s | rwb | rwt | rwtFw | rv
  deriving DecidableEq, Repr

/-! ### Lists -/

/-- The first position at which p holds. -/
def findIdx? {α : Type} (p : α → Bool) (l : List α) : Option Nat :=
  let i := l.findIdx p
  if i < l.length then some i else none

/-- The list without its i-th member. -/
def dropAt {α : Type} (i : Nat) (l : List α) : List α := l.take i ++ l.drop (i + 1)

/-- Members of a list of numbers, no repeats, rising: adding one. -/
def insertNat (k : Nat) : List Nat → List Nat
  | [] => [k]
  | a :: t => if k = a then a :: t else if k < a then k :: a :: t else a :: insertNat k t

/-- Ceiling of a division. -/
def ceilDiv (a b : Nat) : Nat := (a + b - 1) / b

/-- Saturating increment at a field of w bits. -/
def satInc (w v : Nat) : Nat := if v + 1 < 2 ^ w then v + 1 else 2 ^ w - 1

/-- The units named by a mask of n bits. -/
def maskList (n mask : Nat) : List Nat := (List.range n).filter (bitOf mask)

/-- The mask that names the units of a list. -/
def listMask (l : List Nat) : Nat := l.foldl (fun acc k => if bitOf acc k then acc else acc + 2 ^ k) 0

end Sys2Proof.Machine
end

