-- ==== Sys2Proof/Machine/Fp.lean ====
section
/-! DEFINITION. Binary32 and BF16 arithmetic of 02_arithmetic.md: exact values as a sign, a magnitude and a power of
two, one rounding at the end (R44, R53 to R55), and the correctly rounded primitives of R59. -/

namespace Sys2Proof.Machine.Fp

/-- A decoded number: NaN, an infinity, or (-1)^neg * m * 2^e. -/
inductive Val where
  | nan
  | inf (neg : Bool)
  | fin (neg : Bool) (m : Nat) (e : Int)
  deriving DecidableEq, Repr

/-- An output format: precision, exponent of the least subnormal bit, bits. -/
structure Fmt where
  p : Nat
  emin : Int
  bits : Nat
  deriving DecidableEq, Repr

/-- IEEE 754 binary32. -/
def fp32 : Fmt := ⟨24, -149, 32⟩

/-- BF16 (R44): the upper half of binary32. -/
def bf16 : Fmt := ⟨8, -133, 16⟩

/-- The canonical NaN of a format (R44). -/
def Fmt.nan (f : Fmt) : Nat := if f.bits = 32 then 0x7FC00000 else 0x7FC0

/-- The code of an infinity. -/
def Fmt.inf (f : Fmt) (neg : Bool) : Nat := 255 * 2 ^ (f.p - 1) + (if neg then 2 ^ (f.bits - 1) else 0)

/-- The code of a zero. -/
def Fmt.zero (f : Fmt) (neg : Bool) : Nat := if neg then 2 ^ (f.bits - 1) else 0

/-- A magnitude shifted right by sh, rounded to nearest, ties to even. -/
def shiftRne (m sh : Nat) : Nat :=
  let q := m / 2 ^ sh
  let r := m % 2 ^ sh
  if 2 * r > 2 ^ sh ∨ (2 * r = 2 ^ sh ∧ q % 2 = 1) then q + 1 else q

/-- (-1)^neg * m * 2^e rounded once to a format: nearest, ties to even, gradual underflow, overflow to infinity
(R53). A zero magnitude keeps the sign given. -/
def round (f : Fmt) (neg : Bool) (m : Nat) (e : Int) : Nat :=
  if m = 0 then f.zero neg
  else
    let q : Int := max (e + ((Nat.log2 m : Int) + 1 - (f.p : Int))) f.emin
    let n := if q ≤ e then m * 2 ^ (e - q).toNat else shiftRne m (q - e).toNat
    let code := (q - f.emin).toNat * 2 ^ (f.p - 1) + n
    if 255 * 2 ^ (f.p - 1) ≤ code then f.inf neg else code + f.zero neg

/-- The value of a code of a format. -/
def decode (f : Fmt) (v : Nat) : Val :=
  let neg := bitOf v (f.bits - 1)
  let ex := bitsOf v (f.p - 1) 8
  let man := bitsOf v 0 (f.p - 1)
  if ex = 255 then (if man = 0 then .inf neg else .nan)
  else if ex = 0 then .fin neg man f.emin
  else .fin neg (man + 2 ^ (f.p - 1)) (f.emin + (ex : Int) - 1)

/-- The code of a value. -/
def encode (f : Fmt) : Val → Nat
  | .nan => f.nan
  | .inf neg => f.inf neg
  | .fin neg m e => round f neg m e

/-- The FP32 value of a word. -/
def of32 (x : W32) : Val := decode fp32 x.toNat

/-- A value rounded to FP32. -/
def to32 (v : Val) : W32 := BitVec.ofNat 32 (encode fp32 v)

/-- The canonical FP32 NaN. -/
def nan32 : W32 := 0x7FC00000#32

/-- A signed magnitude as an integer at exponent e0 (e0 at most e). -/
def scaled (neg : Bool) (m : Nat) (e e0 : Int) : Int :=
  let v : Int := (m * 2 ^ (e - e0).toNat : Nat)
  if neg then -v else v

/-- The exact sum of two finite values; the sign of a zero sum follows IEEE 754 to nearest. -/
def addFin (n1 : Bool) (m1 : Nat) (e1 : Int) (n2 : Bool) (m2 : Nat) (e2 : Int) : Val :=
  let e := min e1 e2
  let s := scaled n1 m1 e1 e + scaled n2 m2 e2 e
  if s = 0 then .fin (n1 && n2) 0 0 else .fin (decide (s < 0)) s.natAbs e

/-- Exact addition of values, with the special cases of IEEE 754. -/
def addVal : Val → Val → Val
  | .nan, _ | _, .nan => .nan
  | .inf a, .inf b => if a = b then .inf a else .nan
  | .inf a, .fin .. => .inf a
  | .fin .., .inf b => .inf b
  | .fin n1 m1 e1, .fin n2 m2 e2 =>
    -- both zero of one sign keep it; other zero sums are +0
    if m1 = 0 ∧ m2 = 0 then .fin (n1 && n2) 0 0
    else if m1 = 0 then .fin n2 m2 e2
    else if m2 = 0 then .fin n1 m1 e1
    else match addFin n1 m1 e1 n2 m2 e2 with
      | .fin _ 0 _ => .fin false 0 0
      | v => v

/-- Negation. -/
def negVal : Val → Val
  | .nan => .nan
  | .inf a => .inf !a
  | .fin a m e => .fin (!a) m e

/-- Exact multiplication of values. -/
def mulVal : Val → Val → Val
  | .nan, _ | _, .nan => .nan
  | .inf a, .inf b => .inf (a != b)
  | .inf a, .fin b m _ | .fin b m _, .inf a => if m = 0 then .nan else .inf (a != b)
  | .fin a m e, .fin b n k => .fin (a != b) (m * n) (e + k)

/-- FP32 addition (R54). -/
def add (x y : W32) : W32 := to32 (addVal (of32 x) (of32 y))
/-- FP32 subtraction (R54). -/
def sub (x y : W32) : W32 := to32 (addVal (of32 x) (negVal (of32 y)))
/-- FP32 multiplication (R54). -/
def mul (x y : W32) : W32 := to32 (mulVal (of32 x) (of32 y))
/-- FP32 fused multiply-add, rounded once (R54). -/
def fma (x y z : W32) : W32 := to32 (addVal (mulVal (of32 x) (of32 y)) (of32 z))

/-- The quotient of two magnitudes with a sticky bit, rounded. -/
def divFin (neg : Bool) (m1 : Nat) (e1 : Int) (m2 : Nat) (e2 : Int) : W32 :=
  let q := m1 * 2 ^ 80 / m2
  let st := if m1 * 2 ^ 80 % m2 = 0 then 0 else 1
  BitVec.ofNat 32 (round fp32 neg (2 * q + st) (e1 - e2 - 81))

/-- FP32 division (R54). -/
def div (x y : W32) : W32 :=
  match of32 x, of32 y with
  | .nan, _ | _, .nan => nan32
  | .inf _, .inf _ => nan32
  | .inf a, .fin b _ _ => BitVec.ofNat 32 (fp32.inf (a != b))
  | .fin a _ _, .inf b => BitVec.ofNat 32 (fp32.zero (a != b))
  | .fin a m e, .fin b n k =>
    if n = 0 then (if m = 0 then nan32 else BitVec.ofNat 32 (fp32.inf (a != b)))
    else if m = 0 then BitVec.ofNat 32 (fp32.zero (a != b))
    else divFin (a != b) m e n k

/-- The integer square root, one bit of the root at a time from bit n - 1 down. -/
def isqrtFrom : Nat → Nat → Nat → Nat
  | 0, _, r => r
  | n + 1, v, r => isqrtFrom n v (if (r + 2 ^ n) * (r + 2 ^ n) ≤ v then r + 2 ^ n else r)

/-- The integer square root of a number below 2^(2n). -/
def isqrt (n v : Nat) : Nat := isqrtFrom n v 0

/-- FP32 square root (R54). -/
def sqrt (x : W32) : W32 :=
  match of32 x with
  | .nan => nan32
  | .inf a => if a then nan32 else x
  | .fin a m e =>
    if m = 0 then x
    else if a then nan32
    else
      let (m', e') := if e % 2 = 0 then (m, e) else (2 * m, e - 1)
      let v := m' * 2 ^ 60
      let r := isqrt 64 v
      let st := if r * r = v then 0 else 1
      BitVec.ofNat 32 (round fp32 false (2 * r + st) (e' / 2 - 31))

/-- Whether the code is a NaN. -/
def isNan (x : W32) : Bool := decide (of32 x = .nan)

/-- Order of two values that are not NaN: less, equal or greater. -/
def cmpVal : Val → Val → Ordering
  | .inf a, .inf b => compare (if a then 0 else 1) (if b then 0 else 1 : Nat)
  | .inf a, _ => if a then .lt else .gt
  | _, .inf b => if b then .gt else .lt
  | .fin n1 m1 e1, .fin n2 m2 e2 =>
    let e := min e1 e2
    compare (scaled n1 m1 e1 e) (scaled n2 m2 e2 e)
  | _, _ => .eq

/-- Equality of IEEE 754: false with a NaN, true for the two zeros. -/
def eq (x y : W32) : Bool := !isNan x && !isNan y && decide (cmpVal (of32 x) (of32 y) = .eq)
/-- The ordered comparison less-than. -/
def lt (x y : W32) : Bool := !isNan x && !isNan y && decide (cmpVal (of32 x) (of32 y) = .lt)
/-- The ordered comparison at-most. -/
def le (x y : W32) : Bool := !isNan x && !isNan y && decide (cmpVal (of32 x) (of32 y) ≠ .gt)

/-- max of R54: NaN if either is NaN; of the two zeros +0. -/
def max (x y : W32) : W32 :=
  if isNan x || isNan y then nan32
  else match cmpVal (of32 x) (of32 y) with
    | .lt => y
    | .gt => x
    | .eq => if x.msb then y else x

/-- min of R54: NaN if either is NaN; of the two zeros -0. -/
def min (x y : W32) : W32 :=
  if isNan x || isNan y then nan32
  else match cmpVal (of32 x) (of32 y) with
    | .lt => x
    | .gt => y
    | .eq => if x.msb then x else y

/-- BF16 to FP32 (R55). -/
def ofBf16 (x : Nat) : W32 :=
  if decode bf16 x = .nan then nan32 else BitVec.ofNat 32 (x * 65536)

/-- FP32 to BF16 (R55). -/
def toBf16 (x : W32) : Nat := encode bf16 (of32 x)

/-! ### The primitives of R59

Every result is the nearest FP32 value to a fixed-point evaluation with 576 fraction bits, of which the last carries
a sticky one wherever the exact value is irrational: DEDUCED (log 13). -/

/-- Fraction bits of the fixed-point evaluation. -/
def fixP : Nat := 576

/-- One. -/
def fixOne : Nat := 2 ^ fixP

/-- Pi times 2^576, truncated. -/
def fixPi : Nat := 0x3243f6a8885a308d313198a2e03707344a4093822299f31d0082efa98ec4e6c89452821e638d01377be5466cf34e90c6cc0ac29b7c97c50dd3f84d5b5b54709179216d5d98979fb1b

/-- The natural logarithm of 2 times 2^576, truncated. -/
def fixLn2 : Nat := 0xb17217f7d1cf79abc9e3b39803f2f6af40f343267298b62d8a0d175b8baafa2be7b876206debac98559552fb4afa1b10ed2eae35c138214427573b291169b8253e96ca16224ae8c5

/-- n further terms of the exponential series; t the last term, k its number. -/
def expSeries (y : Nat) : Nat → Nat → Nat → Nat → Nat
  | 0, _, _, acc => acc
  | n + 1, k, t, acc =>
    let t' := t * y / fixOne / (k + 1)
    expSeries y n (k + 1) t' (acc + t')

/-- n squarings. -/
def fixSquare : Nat → Nat → Nat
  | 0, v => v
  | n + 1, v => fixSquare n (v * v / fixOne)

/-- e^y for y in [0, 1), both in fixed point. -/
def fixExp (y : Nat) : Nat := fixSquare 8 (expSeries (y / 256) 72 0 fixOne fixOne)

/-- A finite value as an integer number of units 2^-576; its exponent is at least -149. -/
def fixOf (neg : Bool) (m : Nat) (e : Int) : Int := scaled neg m e (-(fixP : Int))

/-- 2^n times a fixed-point significand v in [1, 2), not exact, rounded. -/
def roundFix (neg : Bool) (v : Nat) (n : Int) : W32 := BitVec.ofNat 32 (round fp32 neg (2 * v + 1) (n - fixP - 1))

/-- 2^x. -/
def exp2 (x : W32) : W32 :=
  match of32 x with
  | .nan => nan32
  | .inf neg => if neg then 0 else x
  | .fin neg m e =>
    if 16 ≤ e then (if m = 0 then 0x3F800000#32 else if neg then 0 else 0x7F800000#32)
    else
      let t := fixOf neg m e
      let n := t / fixOne
      let f := (t % fixOne).toNat
      if 200 < n then 0x7F800000#32 else if n < -200 then 0
      else if f = 0 then BitVec.ofNat 32 (round fp32 false 1 n)
      else roundFix false (fixExp (f * fixLn2 / fixOne)) n

/-- e^x. -/
def exp (x : W32) : W32 :=
  match of32 x with
  | .nan => nan32
  | .inf neg => if neg then 0 else x
  | .fin neg m e =>
    if m = 0 then 0x3F800000#32
    else if 16 ≤ e then (if neg then 0 else 0x7F800000#32)
    else
      let t := fixOf neg m e
      let n := t / fixLn2
      if 200 < n then 0x7F800000#32 else if n < -200 then 0
      else roundFix false (fixExp (t % fixLn2).toNat) n

/-- n further terms of the inverse hyperbolic tangent series; p the last odd power, k its exponent. -/
def atanhSeries (s2 : Nat) : Nat → Nat → Nat → Nat → Nat
  | 0, _, _, acc => acc
  | n + 1, k, p, acc =>
    let p' := p * s2 / fixOne
    atanhSeries s2 n (k + 2) p' (acc + p' / (k + 2))

/-- The natural logarithm of m / 2^L for 2^L ≤ m < 2^(L+1), in fixed point. -/
def fixLn (m L : Nat) : Nat :=
  let s := (m - 2 ^ L) * fixOne / (m + 2 ^ L)
  2 * atanhSeries (s * s / fixOne) 190 1 s s

/-- A signed fixed-point number that is not exact, rounded. -/
def roundSigned (r : Int) : W32 := BitVec.ofNat 32 (round fp32 (decide (r < 0)) (2 * r.natAbs + 1) (-(fixP : Int) - 1))

/-- An integer as FP32. -/
def ofInt (k : Int) : W32 := BitVec.ofNat 32 (round fp32 (decide (k < 0)) k.natAbs 0)

/-- Base-2 and natural logarithms share their special cases; f gets the magnitude m 2^e. -/
def logWith (f : Nat → Int → W32) (x : W32) : W32 :=
  match of32 x with
  | .nan => nan32
  | .inf neg => if neg then nan32 else x
  | .fin neg m e => if m = 0 then 0xFF800000#32 else if neg then nan32 else f m e

/-- log2(x). -/
def log2 : W32 → W32 := logWith fun m e =>
  let L := Nat.log2 m
  let k := e + (L : Int)
  if m = 2 ^ L then ofInt k
  else roundSigned ((k * (fixLn2 : Int) + (fixLn m L : Int)) * (fixOne : Int) / (fixLn2 : Int))

/-- The natural logarithm. -/
def log : W32 → W32 := logWith fun m e =>
  let L := Nat.log2 m
  let k := e + (L : Int)
  if m = 2 ^ L ∧ k = 0 then 0
  else roundSigned (k * (fixLn2 : Int) + (fixLn m L : Int))

/-- 1 / x. -/
def rcp (x : W32) : W32 := div 0x3F800000#32 x

/-- 1 / sqrt(x). -/
def rsqrt (x : W32) : W32 :=
  match of32 x with
  | .nan => nan32
  | .inf neg => if neg then nan32 else 0
  | .fin neg m e =>
    if m = 0 then BitVec.ofNat 32 (fp32.inf neg)
    else if neg then nan32
    else
      let (m', e') := if e % 2 = 0 then (m, e) else (2 * m, e - 1)
      let r := isqrt 100 (2 ^ 200 / m')
      let st := if r * r * m' = 2 ^ 200 then 0 else 1
      BitVec.ofNat 32 (round fp32 false (2 * r + st) (-(e' / 2) - 101))

/-- tanh(x). Below 2^-13 the nearest value is x itself, since the cubic term lies under half a step. -/
def tanh (x : W32) : W32 :=
  match of32 x with
  | .nan => nan32
  | .inf neg => if neg then 0xBF800000#32 else 0x3F800000#32
  | .fin neg m e =>
    if m = 0 ∨ e + (Nat.log2 m : Int) < -13 then x
    else if 4 ≤ e + (Nat.log2 m : Int) then (if neg then 0xBF800000#32 else 0x3F800000#32)
    else
      let t := 2 * fixOf false m e
      let ex := fixExp (t % fixLn2).toNat * 2 ^ (t / fixLn2).toNat
      let v := (ex - fixOne) * fixOne / (ex + fixOne)
      BitVec.ofNat 32 (round fp32 neg (2 * v + 1) (-(fixP : Int) - 1))

/-- n further terms of the sine series; t the last term's magnitude, k its exponent, sub its sign. -/
def sinSeries (y2 : Nat) : Nat → Nat → Nat → Bool → Int → Int
  | 0, _, _, _, acc => acc
  | n + 1, k, t, sub, acc =>
    let t' := t * y2 / fixOne / ((k + 1) * (k + 2))
    sinSeries y2 n (k + 2) t' (!sub) (if sub then acc - t' else acc + t')

/-- sin(pi r) rounded, for a turn r in halves: r fixed point in [0, 2); exact zeros and ones apart. -/
def sinTurn (neg : Bool) (r : Nat) (zero : W32) : W32 :=
  let neg' := neg != decide (fixOne ≤ r)
  let r1 := r % fixOne
  let r2 := if fixOne / 2 < r1 then fixOne - r1 else r1
  if r2 = 0 then zero
  else if r2 = fixOne / 2 then (if neg' then 0xBF800000#32 else 0x3F800000#32)
  else
    let y := fixPi * r2 / fixOne
    let v := sinSeries (y * y / fixOne) 64 1 y true (y : Int)
    BitVec.ofNat 32 (round fp32 neg' (2 * v.toNat + 1) (-(fixP : Int) - 1))

/-- sin(pi x). -/
def sinpi (x : W32) : W32 :=
  match of32 x with
  | .nan | .inf _ => nan32
  | .fin neg m e =>
    let z : W32 := BitVec.ofNat 32 (fp32.zero neg)
    if 1 ≤ e then z else sinTurn neg ((fixOf false m e).toNat % (2 * fixOne)) z

/-- cos(pi x). -/
def cospi (x : W32) : W32 :=
  match of32 x with
  | .nan | .inf _ => nan32
  | .fin _ m e =>
    if 1 ≤ e then 0x3F800000#32
    else sinTurn false (((fixOf false m e).toNat + fixOne / 2) % (2 * fixOne)) 0

/-- The primitive of TRN op code n, in the order of R95. -/
def primitive (n : Nat) (x : W32) : W32 :=
  match n with
  | 0 => exp2 x
  | 1 => exp x
  | 2 => log2 x
  | 3 => log x
  | 4 => rcp x
  | 5 => rsqrt x
  | 6 => tanh x
  | 7 => sinpi x
  | _ => cospi x

end Sys2Proof.Machine.Fp
end

