-- ==== Sys2Proof/Machine/Arith.lean ====
section
/-! DEFINITION. The Exact Reduction Contract of 02_arithmetic.md: element types, terms, windows and their rounding,
quantization, the draw generator and sampling. -/

namespace Sys2Proof.Machine

open Fp (Val)

/-! ### Element types (R40 to R43) -/

/-- The constants of one element type. -/
structure ElemType where
  bits : Nat
  ebits : Nat
  bias : Int
  mbits : Nat
  emax : Int
  M : Int
  lam : Int
  maxCode : Nat
  deriving DecidableEq, Repr

/-- The element type of a code of R40; codes 0x6 and above name none. -/
def elemType : Nat → Option ElemType
  | 0 => some ⟨4, 2, 1, 1, 2, 3, -1, 0x7⟩
  | 1 => some ⟨6, 2, 1, 3, 2, 3, -3, 0x1F⟩
  | 2 => some ⟨6, 3, 3, 2, 4, 5, -4, 0x1F⟩
  | 3 => some ⟨8, 4, 7, 3, 8, 9, -9, 0x7E⟩
  | 4 => some ⟨8, 5, 15, 2, 15, 16, -16, 0x7B⟩
  | 5 => some ⟨8, 0, 0, 6, 0, 2, -6, 0x7F⟩
  | _ => none

/-- The value of an element code of type code ty (R41 to R43). -/
def decodeElem (ty code : Nat) : Val :=
  match elemType ty with
  | none => .nan
  | some t =>
    if ty = 5 then
      let n := signed 8 code
      .fin (decide (n < 0)) n.natAbs (-6)
    else
      let neg := bitOf code (t.bits - 1)
      let e := bitsOf code t.mbits t.ebits
      let m := bitsOf code 0 t.mbits
      if ty = 3 ∧ e = 15 ∧ m = 7 then .nan
      else if ty = 4 ∧ e = 31 then (if m = 0 then .inf neg else .nan)
      else if e = 0 then .fin neg m (1 - t.bias - t.mbits)
      else .fin neg (m + 2 ^ t.mbits) ((e : Int) - t.bias - t.mbits)

/-- Element number i of a packed bit stream (R69). -/
def packedElem (bits : Nat) (bs : List Byte) (i : Nat) : Nat :=
  let b := i * bits
  bitsOf (fieldLE bs (b / 8) 2) (b % 8) bits

/-- Packs element codes into a little-endian bit stream (R69). -/
def packElems (bits : Nat) (codes : List Nat) : List Byte :=
  leBytes (ceilDiv (codes.length * bits) 8) (codes.reverse.foldl (fun acc c => acc * 2 ^ bits + c % 2 ^ bits) 0)

/-! ### Terms (R45, R47) -/

/-- One term of a reduction: not a number, an infinity, or a sign, an integer magnitude, its top exponent u and the
exponent l of its lowest bit. -/
inductive Term where
  | nan
  | inf (neg : Bool)
  | fin (neg : Bool) (n : Nat) (u l : Int)
  deriving DecidableEq, Repr

/-- The sign, the magnitude in units of 2^l and the kind of a factor. -/
def magAt (v : Val) (l : Int) : Bool × Nat :=
  match v with
  | .fin neg m e => (neg, if l ≤ e then m * 2 ^ (e - l).toNat else m / 2 ^ (l - e).toNat)
  | .inf neg => (neg, 0)
  | .nan => (false, 0)

/-- A product of two factors with their top exponents and lowest bits; non-finite factors follow R47. -/
def productTerm (a b : Val) (u la lb : Int) : Term :=
  match Fp.mulVal a b with
  | .nan => .nan
  | .inf neg => .inf neg
  | .fin .. =>
    let (na, ma) := magAt a la
    let (nb, mb) := magAt b lb
    .fin (na != nb) (ma * mb) u (la + lb)

/-- An MX product term from the two scale codes, type codes and element codes (R39, R45, R78). -/
def mxTerm (sa ta ea sb tb eb : Nat) : Term :=
  match elemType ta, elemType tb with
  | some A, some B =>
    if sa = 0xFF ∨ sb = 0xFF then .nan
    else
      let xa := (sa : Int) - 127
      let xb := (sb : Int) - 127
      match productTerm (decodeElem ta ea) (decodeElem tb eb) 0 A.lam B.lam with
      | .fin neg n _ _ => .fin neg n (xa + xb + A.M + B.M) (xa + xb + A.lam + B.lam)
      | t => t
  | _, _ => .nan

/-- The unbiased exponent x of an FP32 or BF16 exponent field (R45). -/
def expX (e : Nat) : Int := (max e 1 : Nat) - 127

/-- A BF16 product term (R45). -/
def bf16Term (a b : Nat) : Term :=
  let xa := expX (bitsOf a 7 8)
  let xb := expX (bitsOf b 7 8)
  productTerm (Fp.decode Fp.bf16 a) (Fp.decode Fp.bf16 b) (xa + xb + 2) (xa - 7) (xb - 7)

/-- An FP32 product term (R45). -/
def fp32Term (a b : W32) : Term :=
  let xa := expX (bitsOf a.toNat 23 8)
  let xb := expX (bitsOf b.toNat 23 8)
  productTerm (Fp.of32 a) (Fp.of32 b) (xa + xb + 2) (xa - 23) (xb - 23)

/-- An FP32 single term (R45). -/
def singleTerm (a : W32) : Term :=
  let x := expX (bitsOf a.toNat 23 8)
  match Fp.of32 a with
  | .nan => .nan
  | .inf neg => .inf neg
  | .fin neg m _ => .fin neg m (x + 1) (x - 23)

/-- The top exponent of a finite term (R48). -/
def Term.top : Term → Option Int
  | .fin _ _ u _ => some u
  | _ => none

/-! ### Windows (R50, R71) -/

/-- One window of the window file. -/
structure Window where
  w : BitVec 112
  special : BitVec 8
  anchor : BitVec 16
  deriving DecidableEq, Repr

/-- A window as ACLR leaves it (R73). -/
def Window.clear : Window := ⟨0, 0, 0x8000#16⟩

/-- Merging two special states by R47; reserved codes read as NaN (R51). -/
def mergeSpecial (a b : BitVec 8) : BitVec 8 :=
  if 4 ≤ a.toNat ∨ 4 ≤ b.toNat then 4 else a ||| b

/-- The summand of a finite term at anchor A: zero below the spread limit, truncated toward zero (R49, R50). -/
def termAt (A : Int) (neg : Bool) (n : Nat) (u l : Int) : Int :=
  if u < A - 48 then 0
  else
    let sh := l - (A - 91)
    let mag : Nat := if 0 ≤ sh then n * 2 ^ sh.toNat else n / 2 ^ (-sh).toNat
    if neg then -(mag : Int) else mag

/-- Adding one term to a window. The flag says that a finite term's top exponent lies above the anchor (R75). -/
def Window.addTerm (win : Window) (t : Term) : Window × Bool :=
  match t with
  | .nan => ({ win with special := mergeSpecial win.special 4 }, false)
  | .inf neg => ({ win with special := mergeSpecial win.special (if neg then 2 else 1) }, false)
  | .fin neg n u l =>
    let A := win.anchor.toInt
    if A < u then (win, true)
    else ({ win with w := win.w + BitVec.ofInt 112 (termAt A neg n u l) }, false)

/-- Adding terms in any order; the flag says that one broke the anchor rule. -/
def Window.addTerms (win : Window) (ts : List Term) : Window × Bool :=
  ts.foldl (fun acc t => let (w, f) := acc.1.addTerm t; (w, acc.2 || f)) (win, false)

/-- The one rounding of R53 with the special states of R47. -/
def Window.result (win : Window) (f : Fp.Fmt) : Nat :=
  match win.special.toNat with
  | 0 =>
    let v := win.w.toInt
    Fp.round f (decide (v < 0)) v.natAbs (win.anchor.toInt - 91)
  | 1 => f.inf false
  | 2 => f.inf true
  | _ => f.nan

/-- The 16-byte partial record of R51. -/
def Window.record (win : Window) : List Byte :=
  leBytes 14 win.w.toNat ++ [win.special, 0]

/-- Adding a partial record to a window (R51). -/
def Window.addRecord (win : Window) (r : List Byte) : Window :=
  { win with w := win.w + BitVec.ofNat 112 (fieldLE r 0 14), special := mergeSpecial win.special (r.getD 14 0) }

/-- The exact sum of two partial records (R51, the adder of the cluster mover). -/
def addRecords (x y : List Byte) : List Byte :=
  leBytes 14 ((fieldLE x 0 14 + fieldLE y 0 14) % 2 ^ 112) ++ [mergeSpecial (x.getD 14 0) (y.getD 14 0), 0]

/-! ### Quantization (R56 to R58) -/

/-- The scale exponent X of a block (R56). -/
def scaleExp (t : ElemType) (vs : List Val) : Int :=
  let tops := vs.filterMap (fun v => match v with
    | .fin _ m e => if m = 0 then none else some (e + (Nat.log2 m : Int))
    | _ => none)
  match tops with
  | [] => -127
  | a :: rest => max (-127) (min 127 (rest.foldl max a - t.emax))

/-- One element of a block quantized with scale exponent X (R57, R58). -/
def quantElem (ty : Nat) (t : ElemType) (X : Int) (v : Val) : Nat :=
  match v with
  | .nan => if ty = 3 ∨ ty = 4 then 0x7F else 0
  | .inf neg =>
    if ty = 4 then (if neg then 0xFC else 0x7C)
    else if ty = 5 then (if neg then 0x81 else 0x7F)
    else t.maxCode + (if neg then 2 ^ (t.bits - 1) else 0)
  | .fin neg m e =>
    if ty = 5 then
      let sh := e - X + 6
      let n := min 127 (if 0 ≤ sh then m * 2 ^ (min sh 400).toNat else Fp.shiftRne m (-sh).toNat)
      if neg then (256 - n) % 256 else n
    else if m = 0 then 0
    else
      let emin := 1 - t.bias - (t.mbits : Int)
      let e' := e - X
      let q : Int := max (e' + ((Nat.log2 m : Int) - (t.mbits : Int))) emin
      let n := if q ≤ e' then m * 2 ^ (e' - q).toNat else Fp.shiftRne m (q - e').toNat
      let code := min t.maxCode ((q - emin).toNat * 2 ^ t.mbits + n)
      if code = 0 then 0 else code + (if neg then 2 ^ (t.bits - 1) else 0)

/-- A block of 32 FP32 values quantized: the scale code and the element codes (R56 to R58). -/
def quantBlock (ty : Nat) (xs : List W32) : Nat × List Nat :=
  match elemType ty with
  | none => (0, [])
  | some t =>
    let vs := xs.map Fp.of32
    if vs.contains .nan && !(ty == 3 || ty == 4) then (0xFF, vs.map (fun _ => 0))
    else
      let X := scaleExp t vs
      ((X + 127).toNat, vs.map (quantElem ty t X))

/-! ### Draws and sampling (R61 to R63) -/

/-- The mixing function of R61. -/
def mix (z : BitVec 64) : BitVec 64 :=
  let z := (z ^^^ (z >>> 31)) * 0xA3C59D2E61F74B8D#64
  let z := (z ^^^ (z >>> 29)) * 0xC86B17E4F0A93D25#64
  z ^^^ (z >>> 32)

/-- The draw generator of R61. -/
def draw (seed : BitVec 64) (stream step lane : BitVec 32) : BitVec 64 :=
  let z := mix (seed ^^^ ((stream.setWidth 64 <<< 32) ||| step.setWidth 64))
  mix (z + 0x7F4A7C159E3779B1#64 * (lane.setWidth 64 + 1))

/-- The uniform draw of R62. -/
def uniformDraw (seed : BitVec 64) (stream step lane : BitVec 32) : Nat := ((draw seed stream step lane) >>> 40).toNat

/-- The smallest index at which the running sum of the summands, times 2^24, exceeds the threshold. -/
def firstAbove (threshold : Int) : List Int → Nat → Int → Option Nat
  | [], _, _ => none
  | x :: xs, i, acc =>
    let acc' := acc + x
    if threshold < acc' * 2 ^ 24 then some i else firstAbove threshold xs (i + 1) acc'

/-- Steps 4 to 7 of R63 on an array of FP32 values: the sampled index, or 0xFFFF_FFFF. -/
def sample (ps : List W32) (seed : BitVec 64) (stream step : BitVec 32) : W32 :=
  let ts := ps.map singleTerm
  let tops := ts.filterMap Term.top
  if tops.length < ts.length then 0xFFFFFFFF#32
  else match tops with
    | [] => 0xFFFFFFFF#32
    | a :: rest =>
      let A := rest.foldl max a
      let xs := ts.map (fun t => match t with
        | .fin neg n u l => termAt A neg n u l
        | _ => 0)
      let T := xs.foldl (· + ·) 0
      let d : Int := uniformDraw seed stream step 0
      match firstAbove (d * T) xs 0 0 with
      | some i => BitVec.ofNat 32 i
      | none => 0xFFFFFFFF#32

end Sys2Proof.Machine
end

