-- ==== Sys2Proof/Machine/RegMap.lean ====
section
/-! DEFINITION. The register map of 13_registers.md R362 and of the register tables that close the chapters:
one row per register (its address, its array strides, its width, its block and its fields with their access codes
of R11), and one named field for every field that is not reserved. -/

namespace Sys2Proof.Machine

/-- The base of the ring registers of ring r of function fn (12_rings.md R335): VF BAR0 + 0x1000 for an instance,
the HIF block + 0x4_0000 for the manager. -/
def ringBase (fn r : Nat) : Nat :=
  if fn = 0 then 0x540000 + 0x40 * r else 0x100000000 * fn + 0x1000 + 0x40 * r

/-- BNC_STATUS.present, RO. -/
def F.bncStatusPresent (b : Nat) : Field := ⟨0x1008000 + (b / 10) * 0x100000 + (b % 10) * 0x100, 0, 1⟩
/-- BNC_STATUS.mapped_out, RO. -/
def F.bncStatusMappedOut (b : Nat) : Field := ⟨0x1008000 + (b / 10) * 0x100000 + (b % 10) * 0x100, 1, 1⟩
/-- BNC_STATUS.map_pending, RO. -/
def F.bncStatusMapPending (b : Nat) : Field := ⟨0x1008000 + (b / 10) * 0x100000 + (b % 10) * 0x100, 2, 1⟩
/-- BNC_STATUS.running, RO. -/
def F.bncStatusRunning (b : Nat) : Field := ⟨0x1008000 + (b / 10) * 0x100000 + (b % 10) * 0x100, 3, 1⟩
/-- BNC_STATUS.open, RO. -/
def F.bncStatusOpen (b : Nat) : Field := ⟨0x1008000 + (b / 10) * 0x100000 + (b % 10) * 0x100, 4, 1⟩
/-- BNC_STATUS.cut, RO. -/
def F.bncStatusCut (b : Nat) : Field := ⟨0x1008000 + (b / 10) * 0x100000 + (b % 10) * 0x100, 8, 16⟩
/-- BNC_STATUS.fault, RO. -/
def F.bncStatusFault (b : Nat) : Field := ⟨0x1008000 + (b / 10) * 0x100000 + (b % 10) * 0x100, 24, 8⟩
/-- BNC_STALL.cycles, RO. -/
def F.bncStallCycles (b : Nat) : Field := ⟨0x1008008 + (b / 10) * 0x100000 + (b % 10) * 0x100, 0, 32⟩
/-- BNC_ECC.corrected, W1C. -/
def F.bncEccCorrected (b : Nat) : Field := ⟨0x100800C + (b / 10) * 0x100000 + (b % 10) * 0x100, 0, 16⟩
/-- BNC_ECC.uncorrected, W1C. -/
def F.bncEccUncorrected (b : Nat) : Field := ⟨0x100800C + (b / 10) * 0x100000 + (b % 10) * 0x100, 16, 16⟩
/-- BNC_CTRL.map_out, RWT. -/
def F.bncCtrlMapOut (b : Nat) : Field := ⟨0x1008010 + (b / 10) * 0x100000 + (b % 10) * 0x100, 0, 1⟩
/-- CPX_STATUS.inflight, RO. -/
def F.cpxStatusInflight (c : Nat) : Field := ⟨0x1004000 + c * 0x100000, 0, 5⟩
/-- CPX_STATUS.queued, RO. -/
def F.cpxStatusQueued (c : Nat) : Field := ⟨0x1004000 + c * 0x100000, 6, 6⟩
/-- CPX_STATUS.lockup, RO. -/
def F.cpxStatusLockup (c : Nat) : Field := ⟨0x1004000 + c * 0x100000, 12, 1⟩
/-- CPX_SQUASH.cycles, RO. -/
def F.cpxSquashCycles (c : Nat) : Field := ⟨0x1004008 + c * 0x100000, 0, 32⟩
/-- NST_ECC.corrected, W1C. -/
def F.nstEccCorrected (d : Nat) : Field := ⟨0x10F0000 + d * 0x400000, 0, 16⟩
/-- NST_ECC.uncorrected, W1C. -/
def F.nstEccUncorrected (d : Nat) : Field := ⟨0x10F0000 + d * 0x400000, 16, 16⟩
/-- DVT_PLAIN.formed, RO. -/
def F.dvtPlainFormed : Field := ⟨0xB00000, 0, 1⟩
/-- DVT_PLAIN.forming, RO. -/
def F.dvtPlainForming : Field := ⟨0xB00000, 1, 1⟩
/-- DVT_PLAIN.running, RO. -/
def F.dvtPlainRunning : Field := ⟨0xB00000, 2, 1⟩
/-- DVT_PLAIN.halt_pending, RO. -/
def F.dvtPlainHaltPending : Field := ⟨0xB00000, 3, 1⟩
/-- DVT_PLAIN.diameter, RO. -/
def F.dvtPlainDiameter : Field := ⟨0xB00000, 4, 5⟩
/-- DVT_PLAIN.plain_size, RO. -/
def F.dvtPlainPlainSize : Field := ⟨0xB00000, 9, 10⟩
/-- DVT_PLAIN.member_index, RO. -/
def F.dvtPlainMemberIndex : Field := ⟨0xB00000, 19, 10⟩
/-- DVT_LINK_STATUS.state, RO. -/
def F.dvtLinkStatusState (j : Nat) : Field := ⟨0xB00100 + j * 0x40, 0, 3⟩
/-- DVT_LINK_STATUS.map_pending, RO. -/
def F.dvtLinkStatusMapPending (j : Nat) : Field := ⟨0xB00100 + j * 0x40, 3, 1⟩
/-- DVT_LINK_STATUS.peer_member, RO. -/
def F.dvtLinkStatusPeerMember (j : Nat) : Field := ⟨0xB00100 + j * 0x40, 16, 10⟩
/-- DVT_LINK_FEC.corrected, RO. -/
def F.dvtLinkFecCorrected (j : Nat) : Field := ⟨0xB00108 + j * 0x40, 0, 32⟩
/-- DVT_LINK_ERR.lost, W1C. -/
def F.dvtLinkErrLost (j : Nat) : Field := ⟨0xB0010C + j * 0x40, 0, 16⟩
/-- DVT_LINK_ERR.failures, W1C. -/
def F.dvtLinkErrFailures (j : Nat) : Field := ⟨0xB0010C + j * 0x40, 16, 8⟩
/-- DVT_LINK_OFFSET.theta, RO. -/
def F.dvtLinkOffsetTheta (j : Nat) : Field := ⟨0xB00110 + j * 0x40, 0, 32⟩
/-- DVT_LINK_CTRL.map_out, RWT. -/
def F.dvtLinkCtrlMapOut (j : Nat) : Field := ⟨0xB00114 + j * 0x40, 0, 1⟩
/-- MEM_STATUS.present, RO. -/
def F.memStatusPresent (k : Nat) : Field := ⟨0x2000000 + k * 0x100000, 0, 1⟩
/-- MEM_STATUS.mapped_out, RO. -/
def F.memStatusMappedOut (k : Nat) : Field := ⟨0x2000000 + k * 0x100000, 1, 1⟩
/-- MEM_STATUS.map_pending, RO. -/
def F.memStatusMapPending (k : Nat) : Field := ⟨0x2000000 + k * 0x100000, 2, 1⟩
/-- MEM_STATUS.band, RO. -/
def F.memStatusBand (k : Nat) : Field := ⟨0x2000000 + k * 0x100000, 3, 2⟩
/-- MEM_STATUS.self_refresh, RO. -/
def F.memStatusSelfRefresh (k : Nat) : Field := ⟨0x2000000 + k * 0x100000, 5, 1⟩
/-- MEM_STATUS.keyed, RO. -/
def F.memStatusKeyed (k : Nat) : Field := ⟨0x2000000 + k * 0x100000, 6, 1⟩
/-- MEM_TEMP.current, RO. -/
def F.memTempCurrent (k : Nat) : Field := ⟨0x2000004 + k * 0x100000, 0, 8⟩
/-- MEM_TEMP.peak, RO. -/
def F.memTempPeak (k : Nat) : Field := ⟨0x2000004 + k * 0x100000, 8, 8⟩
/-- MEM_ECC.corrected, W1C. -/
def F.memEccCorrected (k : Nat) : Field := ⟨0x2000008 + k * 0x100000, 0, 16⟩
/-- MEM_ECC.uncorrected, W1C. -/
def F.memEccUncorrected (k : Nat) : Field := ⟨0x2000008 + k * 0x100000, 16, 16⟩
/-- MEM_INTEG.tag_fail, W1C. -/
def F.memIntegTagFail (k : Nat) : Field := ⟨0x200000C + k * 0x100000, 0, 16⟩
/-- MEM_INTEG.poison_write, W1C. -/
def F.memIntegPoisonWrite (k : Nat) : Field := ⟨0x200000C + k * 0x100000, 16, 16⟩
/-- MEM_CTRL.map_out, RWT. -/
def F.memCtrlMapOut (k : Nat) : Field := ⟨0x2000010 + k * 0x100000, 0, 1⟩
/-- FWC_CTRL.op, RWB. -/
def F.fwcCtrlOp : Field := ⟨0xE00000, 0, 4⟩
/-- FWC_CTRL.cores, RWB. -/
def F.fwcCtrlCores : Field := ⟨0xE00000, 8, 21⟩
/-- FWC_SRC_LO.addr, RWB. -/
def F.fwcSrcLoAddr : Field := ⟨0xE00008, 0, 32⟩
/-- FWC_SRC_HI.addr, RWB. -/
def F.fwcSrcHiAddr : Field := ⟨0xE0000C, 0, 32⟩
/-- FWC_LEN.bytes, RWB. -/
def F.fwcLenBytes : Field := ⟨0xE00010, 0, 32⟩
/-- FWC_STATUS.busy_op, RO. -/
def F.fwcStatusBusyOp : Field := ⟨0xE00014, 0, 4⟩
/-- FWC_STATUS.result, RO. -/
def F.fwcStatusResult : Field := ⟨0xE00014, 4, 8⟩
/-- FWC_STATUS.bank_a, RO. -/
def F.fwcStatusBankA : Field := ⟨0xE00014, 12, 3⟩
/-- FWC_STATUS.bank_b, RO. -/
def F.fwcStatusBankB : Field := ⟨0xE00014, 15, 3⟩
/-- FWC_STATUS.booted, RO. -/
def F.fwcStatusBooted : Field := ⟨0xE00014, 18, 1⟩
/-- FWC_STATUS.progress, RO. -/
def F.fwcStatusProgress : Field := ⟨0xE00014, 19, 7⟩
/-- FWC_BOOT.stage, RO. -/
def F.fwcBootStage : Field := ⟨0xE00018, 0, 4⟩
/-- FWC_BOOT.fused_svn, RO. -/
def F.fwcBootFusedSvn : Field := ⟨0xE00018, 4, 8⟩
/-- SEC_STATUS.state, RWT. -/
def F.secStatusState : Field := ⟨0x300000, 0, 3⟩
/-- SEC_STATUS.debug, RWT. -/
def F.secStatusDebug : Field := ⟨0x300000, 3, 1⟩
/-- SEC_STATUS.result, RO. -/
def F.secStatusResult : Field := ⟨0x300000, 4, 8⟩
/-- SEC_STATUS.bindings, RO. -/
def F.secStatusBindings : Field := ⟨0x300000, 12, 13⟩
/-- SEC_CTRL.op, RWB. -/
def F.secCtrlOp : Field := ⟨0x300004, 0, 4⟩
/-- SEC_SRC_LO.addr, RWB. -/
def F.secSrcLoAddr : Field := ⟨0x300008, 0, 32⟩
/-- SEC_SRC_HI.addr, RWB. -/
def F.secSrcHiAddr : Field := ⟨0x30000C, 0, 32⟩
/-- SEC_NONCE.word, RO. -/
def F.secNonceWord (k : Nat) : Field := ⟨0x300010 + k * 4, 0, 32⟩
/-- SEC_VIOL.count, W1C. -/
def F.secViolCount (i : Nat) : Field := ⟨0x301000 + i * 4, 0, 32⟩
/-- CPH_STATUS.pairs, RO. -/
def F.cphStatusPairs : Field := ⟨0x400000, 0, 8⟩
/-- CPH_MISMATCH.count, W1C. -/
def F.cphMismatchCount : Field := ⟨0x400004, 0, 16⟩
/-- CPH_KEYMISS.misses, RO. -/
def F.cphKeymissMisses : Field := ⟨0x400008, 0, 32⟩
/-- HIF_LINK.up, RO. -/
def F.hifLinkUp : Field := ⟨0x500000, 0, 1⟩
/-- HIF_LINK.rate, RO. -/
def F.hifLinkRate : Field := ⟨0x500000, 1, 3⟩
/-- HIF_LINK.width, RO. -/
def F.hifLinkWidth : Field := ⟨0x500000, 4, 5⟩
/-- HIF_LINK.flit, RO. -/
def F.hifLinkFlit : Field := ⟨0x500000, 9, 1⟩
/-- HIF_STATUS.rt_ready, RO. -/
def F.hifStatusRtReady : Field := ⟨0x500004, 0, 1⟩
/-- HIF_STATUS.alloc_error, W1C. -/
def F.hifStatusAllocError : Field := ⟨0x500004, 1, 1⟩
/-- HIF_STATUS.lowpower, RO. -/
def F.hifStatusLowpower : Field := ⟨0x500004, 2, 1⟩
/-- HIF_RT_GEN.generation, RO. -/
def F.hifRtGenGeneration : Field := ⟨0x500008, 0, 32⟩
/-- HIF_WAKE_CAUSE.rtc_alarm, W1C. -/
def F.hifWakeCauseRtcAlarm : Field := ⟨0x500020, 0, 1⟩
/-- HIF_WAKE_CAUSE.mgmt_request, W1C. -/
def F.hifWakeCauseMgmtRequest : Field := ⟨0x500020, 1, 1⟩
/-- HIF_WAKE_CAUSE.net_wake, W1C. -/
def F.hifWakeCauseNetWake : Field := ⟨0x500020, 2, 1⟩
/-- HIF_WAKE_CAUSE.shelf_done, W1C. -/
def F.hifWakeCauseShelfDone : Field := ⟨0x500020, 3, 1⟩
/-- HIF_WAKE_CAUSE.plain_halt, W1C. -/
def F.hifWakeCausePlainHalt : Field := ⟨0x500020, 4, 1⟩
/-- HIF_WAKE_CAUSE.event, W1C. -/
def F.hifWakeCauseEvent : Field := ⟨0x500020, 5, 1⟩
/-- HIF_WAKE_CAUSE.thermal, W1C. -/
def F.hifWakeCauseThermal : Field := ⟨0x500020, 6, 1⟩
/-- HIF_WAKE_EN.enable, RWB. -/
def F.hifWakeEnEnable : Field := ⟨0x500024, 0, 7⟩
/-- HIF_MSIX_ALLOC.count, RWB. -/
def F.hifMsixAllocCount (i : Nat) : Field := ⟨0x500100 + i * 4, 0, 9⟩
/-- RNG_BASE_LO.addr, RWB. -/
def F.rngBaseLoAddr (fn : Nat) (r : Nat) : Field := ⟨ringBase fn r + 0x0, 0, 32⟩
/-- RNG_BASE_HI.addr, RWB. -/
def F.rngBaseHiAddr (fn : Nat) (r : Nat) : Field := ⟨ringBase fn r + 0x4, 0, 32⟩
/-- RNG_CFG.log2_size, RWB. -/
def F.rngCfgLog2Size (fn : Nat) (r : Nat) : Field := ⟨ringBase fn r + 0x8, 0, 5⟩
/-- RNG_CFG.kind, RWB. -/
def F.rngCfgKind (fn : Nat) (r : Nat) : Field := ⟨ringBase fn r + 0x8, 8, 4⟩
/-- RNG_CFG.cpl, RWB. -/
def F.rngCfgCpl (fn : Nat) (r : Nat) : Field := ⟨ringBase fn r + 0x8, 12, 8⟩
/-- RNG_CFG.vector, RWB. -/
def F.rngCfgVector (fn : Nat) (r : Nat) : Field := ⟨ringBase fn r + 0x8, 20, 8⟩
/-- RNG_MOD.count, RWB. -/
def F.rngModCount (fn : Nat) (r : Nat) : Field := ⟨ringBase fn r + 0xC, 0, 9⟩
/-- RNG_MOD.time, RWB. -/
def F.rngModTime (fn : Nat) (r : Nat) : Field := ⟨ringBase fn r + 0xC, 16, 10⟩
/-- RNG_CTRL.enable, RWB. -/
def F.rngCtrlEnable (fn : Nat) (r : Nat) : Field := ⟨ringBase fn r + 0x10, 0, 1⟩
/-- RNG_CTRL.reset, W1S. -/
def F.rngCtrlReset (fn : Nat) (r : Nat) : Field := ⟨ringBase fn r + 0x10, 1, 1⟩
/-- RNG_STATUS.state, RO. -/
def F.rngStatusState (fn : Nat) (r : Nat) : Field := ⟨ringBase fn r + 0x14, 0, 2⟩
/-- RNG_STATUS.error, RO. -/
def F.rngStatusError (fn : Nat) (r : Nat) : Field := ⟨ringBase fn r + 0x14, 8, 4⟩
/-- RNG_HEAD.count, RO. -/
def F.rngHeadCount (fn : Nat) (r : Nat) : Field := ⟨ringBase fn r + 0x18, 0, 32⟩
/-- RNG_TAIL.count, RO. -/
def F.rngTailCount (fn : Nat) (r : Nat) : Field := ⟨ringBase fn r + 0x1C, 0, 32⟩
/-- RNG_ERR.bad_doorbell, W1C. -/
def F.rngErrBadDoorbell (fn : Nat) (r : Nat) : Field := ⟨ringBase fn r + 0x20, 0, 16⟩
/-- INS_STATUS.state, RO. -/
def F.insStatusState (i : Nat) : Field := ⟨0x100000000 * i + 0x0, 0, 3⟩
/-- INS_STATUS.tag, RO. -/
def F.insStatusTag (i : Nat) : Field := ⟨0x100000000 * i + 0x0, 8, 8⟩
/-- INS_STATUS.partitions, RO. -/
def F.insStatusPartitions (i : Nat) : Field := ⟨0x100000000 * i + 0x0, 16, 4⟩
/-- INS_UPDATE.apply, WO. -/
def F.insUpdateApply (i : Nat) : Field := ⟨0x100000000 * i + 0x8, 0, 1⟩
/-- INS_MBX_ACK.seq, WO. -/
def F.insMbxAckSeq (i : Nat) : Field := ⟨0x100000000 * i + 0x10, 0, 32⟩
/-- GLB_ID.variant, RO. -/
def F.glbIdVariant : Field := ⟨0x0, 0, 8⟩
/-- GLB_ID.silicon, RO. -/
def F.glbIdSilicon : Field := ⟨0x0, 8, 8⟩
/-- GLB_ID.device, RO. -/
def F.glbIdDevice : Field := ⟨0x0, 16, 16⟩
/-- GLB_STATUS.busy, RO. -/
def F.glbStatusBusy : Field := ⟨0x4, 0, 1⟩
/-- GLB_STATUS.e7_drop, W1C. -/
def F.glbStatusE7Drop : Field := ⟨0x4, 1, 1⟩
/-- GLB_UPDATE.blocks, WO. -/
def F.glbUpdateBlocks : Field := ⟨0x8, 0, 15⟩
/-- GLB_UPDATE.dies, WO. -/
def F.glbUpdateDies : Field := ⟨0x8, 16, 4⟩
/-- GLB_UPDATE.stacks, WO. -/
def F.glbUpdateStacks : Field := ⟨0x8, 20, 12⟩
/-- GLB_PENDING.mask, RO. -/
def F.glbPendingMask : Field := ⟨0xC, 0, 32⟩
/-- GLB_DISCARD.mask, WO. -/
def F.glbDiscardMask : Field := ⟨0x10, 0, 32⟩
/-- GLB_EPOCH.applied, RO. -/
def F.glbEpochApplied : Field := ⟨0x14, 0, 32⟩
/-- GLB_COMPAT.e7, RW. -/
def F.glbCompatE7 : Field := ⟨0x18, 0, 1⟩
/-- GLB_VOTE.corrected, W1C. -/
def F.glbVoteCorrected : Field := ⟨0x1C, 0, 16⟩
/-- GLB_VOTE.lost, W1C. -/
def F.glbVoteLost : Field := ⟨0x1C, 16, 16⟩
/-- GLB_RVERR.count, W1C. -/
def F.glbRverrCount : Field := ⟨0x20, 0, 16⟩
/-- VLY_STATE.enable, RWT. -/
def F.vlyStateEnable (v : Nat) : Field := ⟨0x100000 + v * 4, 0, 1⟩
/-- VLY_STATE.powered, RO. -/
def F.vlyStatePowered (v : Nat) : Field := ⟨0x100000 + v * 4, 1, 1⟩
/-- VLY_STATE.isolated, RO. -/
def F.vlyStateIsolated (v : Nat) : Field := ⟨0x100000 + v * 4, 2, 1⟩
/-- VLY_STATE.fenced, RWT. -/
def F.vlyStateFenced (v : Nat) : Field := ⟨0x100000 + v * 4, 3, 1⟩
/-- VLY_STATE.mapped_out, RO. -/
def F.vlyStateMappedOut (v : Nat) : Field := ⟨0x100000 + v * 4, 4, 1⟩
/-- VLY_STATE.clock_mhz, RO. -/
def F.vlyStateClockMhz (v : Nat) : Field := ⟨0x100000 + v * 4, 16, 12⟩
/-- VLY_ISO.count, W1C. -/
def F.vlyIsoCount (v : Nat) : Field := ⟨0x100100 + v * 4, 0, 32⟩
/-- SHF_STATUS.state, RO. -/
def F.shfStatusState : Field := ⟨0x600000, 0, 3⟩
/-- SHF_STATUS.rebuild, RO. -/
def F.shfStatusRebuild : Field := ⟨0x600000, 3, 1⟩
/-- SHF_STATUS.power, RO. -/
def F.shfStatusPower : Field := ⟨0x600000, 4, 2⟩
/-- SHF_STATUS.result, RO. -/
def F.shfStatusResult : Field := ⟨0x600000, 8, 8⟩
/-- SHF_STATUS.spare, RO. -/
def F.shfStatusSpare : Field := ⟨0x600000, 16, 8⟩
/-- SHF_CTRL.op, RWB. -/
def F.shfCtrlOp : Field := ⟨0x600004, 0, 4⟩
/-- SHF_CTRL.ns, RWB. -/
def F.shfCtrlNs : Field := ⟨0x600004, 8, 8⟩
/-- SHF_ARG.size_gib, RWB. -/
def F.shfArgSizeGib : Field := ⟨0x600008, 0, 16⟩
/-- SHF_SANITIZE.percent, RO. -/
def F.shfSanitizePercent : Field := ⟨0x60000C, 0, 7⟩
/-- SHF_SANITIZE.active, RO. -/
def F.shfSanitizeActive : Field := ⟨0x60000C, 7, 1⟩
/-- SHF_SANITIZE.journal, RO. -/
def F.shfSanitizeJournal : Field := ⟨0x60000C, 8, 16⟩
/-- SHF_PWR.max, RWB. -/
def F.shfPwrMax : Field := ⟨0x600010, 0, 2⟩
/-- SHF_PWR.idle_ms, RWB. -/
def F.shfPwrIdleMs : Field := ⟨0x600010, 16, 16⟩
/-- SHF_ARB.high, RWB. -/
def F.shfArbHigh : Field := ⟨0x600014, 0, 8⟩
/-- SHF_ARB.medium, RWB. -/
def F.shfArbMedium : Field := ⟨0x600014, 8, 8⟩
/-- SHF_ARB.low, RWB. -/
def F.shfArbLow : Field := ⟨0x600014, 16, 8⟩
/-- SHF_DUP.count, W1C. -/
def F.shfDupCount : Field := ⟨0x600018, 0, 32⟩
/-- SHF_QP_CFG.class, RWB. -/
def F.shfQpCfgClass (n : Nat) : Field := ⟨0x601000 + n * 4, 0, 2⟩
/-- SHF_QP_CFG.remote, RWB. -/
def F.shfQpCfgRemote (n : Nat) : Field := ⟨0x601000 + n * 4, 2, 1⟩
/-- SHF_CHAN.map_out, RWT. -/
def F.shfChanMapOut (c : Nat) : Field := ⟨0x602000 + c * 4, 0, 1⟩
/-- SHF_CHAN.in_service, RO. -/
def F.shfChanInService (c : Nat) : Field := ⟨0x602000 + c * 4, 1, 1⟩
/-- SHF_CHAN.failures, W1C. -/
def F.shfChanFailures (c : Nat) : Field := ⟨0x602000 + c * 4, 16, 8⟩
/-- ETH_PORT_CFG.mode, RWB. -/
def F.ethPortCfgMode (p : Nat) : Field := ⟨0x700000 + p * 0x1000, 0, 2⟩
/-- ETH_PORT_CFG.enable, RWB. -/
def F.ethPortCfgEnable (p : Nat) : Field := ⟨0x700000 + p * 0x1000, 2, 1⟩
/-- ETH_PORT_CFG.autoneg, RWB. -/
def F.ethPortCfgAutoneg (p : Nat) : Field := ⟨0x700000 + p * 0x1000, 3, 1⟩
/-- ETH_PORT_CFG.max_frame, RWB. -/
def F.ethPortCfgMaxFrame (p : Nat) : Field := ⟨0x700000 + p * 0x1000, 8, 14⟩
/-- ETH_PORT_STATUS.up, RO. -/
def F.ethPortStatusUp (p : Nat) : Field := ⟨0x700004 + p * 0x1000, 0, 1⟩
/-- ETH_PORT_STATUS.mode, RO. -/
def F.ethPortStatusMode (p : Nat) : Field := ⟨0x700004 + p * 0x1000, 1, 2⟩
/-- ETH_PORT_STATUS.lanes, RO. -/
def F.ethPortStatusLanes (p : Nat) : Field := ⟨0x700004 + p * 0x1000, 3, 4⟩
/-- ETH_PORT_STATUS.an_fail, RO. -/
def F.ethPortStatusAnFail (p : Nat) : Field := ⟨0x700004 + p * 0x1000, 16, 16⟩
/-- ETH_LANE_CTRL.map_out, RWT. -/
def F.ethLaneCtrlMapOut (p : Nat) : Field := ⟨0x700008 + p * 0x1000, 0, 4⟩
/-- ETH_RX_ERR.fcs, W1C. -/
def F.ethRxErrFcs (p : Nat) : Field := ⟨0x700010 + p * 0x1000, 0, 16⟩
/-- ETH_RX_ERR.length, W1C. -/
def F.ethRxErrLength (p : Nat) : Field := ⟨0x700010 + p * 0x1000, 16, 16⟩
/-- ETH_RX_DROP.nomatch, W1C. -/
def F.ethRxDropNomatch (p : Nat) : Field := ⟨0x700014 + p * 0x1000, 0, 16⟩
/-- ETH_RX_DROP.integ, W1C. -/
def F.ethRxDropInteg (p : Nat) : Field := ⟨0x700014 + p * 0x1000, 16, 16⟩
/-- ETH_RX_CTRL.pause, W1C. -/
def F.ethRxCtrlPause (p : Nat) : Field := ⟨0x700018 + p * 0x1000, 0, 16⟩
/-- ETH_RX_CTRL.slow, W1C. -/
def F.ethRxCtrlSlow (p : Nat) : Field := ⟨0x700018 + p * 0x1000, 16, 16⟩
/-- ETH_RS_ADDR_LO.addr, RWB. -/
def F.ethRsAddrLoAddr (p : Nat) : Field := ⟨0x700020 + p * 0x1000, 0, 32⟩
/-- ETH_RS_ADDR_HI.addr, RWB. -/
def F.ethRsAddrHiAddr (p : Nat) : Field := ⟨0x700024 + p * 0x1000, 0, 32⟩
/-- ETH_RS_CTRL.commit, RWB. -/
def F.ethRsCtrlCommit (p : Nat) : Field := ⟨0x700028 + p * 0x1000, 0, 1⟩
/-- ETH_RS_STATUS.version, RO. -/
def F.ethRsStatusVersion (p : Nat) : Field := ⟨0x70002C + p * 0x1000, 0, 16⟩
/-- ETH_RS_STATUS.result, RO. -/
def F.ethRsStatusResult (p : Nat) : Field := ⟨0x70002C + p * 0x1000, 16, 8⟩
/-- ETH_RS_STATUS.busy, RO. -/
def F.ethRsStatusBusy (p : Nat) : Field := ⟨0x70002C + p * 0x1000, 24, 1⟩
/-- ETH_QMAP.port, RWB. -/
def F.ethQmapPort (n : Nat) : Field := ⟨0x740000 + n * 4, 0, 1⟩
/-- ETH_QMAP.subscriber, RWB. -/
def F.ethQmapSubscriber (n : Nat) : Field := ⟨0x740000 + n * 4, 1, 11⟩
/-- ETH_RXDROP_NOBUF.count, W1C. -/
def F.ethRxdropNobufCount (n : Nat) : Field := ⟨0x750000 + n * 4, 0, 32⟩
/-- ETH_NODE_SEL.port, RW. -/
def F.ethNodeSelPort : Field := ⟨0x760000, 0, 1⟩
/-- ETH_NODE_SEL.level, RW. -/
def F.ethNodeSelLevel : Field := ⟨0x760000, 1, 2⟩
/-- ETH_NODE_SEL.index, RW. -/
def F.ethNodeSelIndex : Field := ⟨0x760000, 3, 11⟩
/-- ETH_NODE_RATE.mbps, RWB. -/
def F.ethNodeRateMbps : Field := ⟨0x760004, 0, 20⟩
/-- ETH_NODE_SHAPE.burst_kib, RWB. -/
def F.ethNodeShapeBurstKib : Field := ⟨0x760008, 0, 15⟩
/-- ETH_NODE_SHAPE.weight, RWB. -/
def F.ethNodeShapeWeight : Field := ⟨0x760008, 16, 8⟩
/-- ETH_NODE_SHAPE.overhead, RWB. -/
def F.ethNodeShapeOverhead : Field := ⟨0x760008, 24, 8⟩
/-- ETH_NODE_TREE.parent, RWB. -/
def F.ethNodeTreeParent : Field := ⟨0x76000C, 0, 6⟩
/-- ETH_NODE_TREE.level, RWB. -/
def F.ethNodeTreeLevel : Field := ⟨0x76000C, 8, 3⟩
/-- ETH_NODE_TOKENS.tokens, RO. -/
def F.ethNodeTokensTokens : Field := ⟨0x760010, 0, 32⟩
/-- RMA_CC.ai_mbps, RWB. -/
def F.rmaCcAiMbps : Field := ⟨0x800000, 0, 16⟩
/-- RMA_CC.min_mbps, RWB. -/
def F.rmaCcMinMbps : Field := ⟨0x800000, 16, 16⟩
/-- RMA_RX_DROP.icrc, W1C. -/
def F.rmaRxDropIcrc : Field := ⟨0x800004, 0, 16⟩
/-- RMA_RX_DROP.noqp, W1C. -/
def F.rmaRxDropNoqp : Field := ⟨0x800004, 16, 16⟩
/-- RMA_RX_DROP2.integ, W1C. -/
def F.rmaRxDrop2Integ : Field := ⟨0x800008, 0, 16⟩
/-- RMA_QP_CFG.port, RWB. -/
def F.rmaQpCfgPort (n : Nat) : Field := ⟨0x810000 + n * 4, 0, 1⟩
/-- RMA_QP_CFG.subscriber, RWB. -/
def F.rmaQpCfgSubscriber (n : Nat) : Field := ⟨0x810000 + n * 4, 1, 11⟩
/-- RMA_QP_STATUS.state, RO. -/
def F.rmaQpStatusState (n : Nat) : Field := ⟨0x820000 + n * 4, 0, 3⟩
/-- RMA_QP_STATUS.sealed, RO. -/
def F.rmaQpStatusSealed (n : Nat) : Field := ⟨0x820000 + n * 4, 3, 1⟩
/-- RMA_QP_STATUS.last_nak, RO. -/
def F.rmaQpStatusLastNak (n : Nat) : Field := ⟨0x820000 + n * 4, 8, 8⟩
/-- RMA_QP_STATUS.retries, RO. -/
def F.rmaQpStatusRetries (n : Nat) : Field := ⟨0x820000 + n * 4, 16, 4⟩
/-- RMA_QP_RATE.mbps, RO. -/
def F.rmaQpRateMbps (n : Nat) : Field := ⟨0x830000 + n * 4, 0, 20⟩
/-- TIM_STATUS.state, RO. -/
def F.timStatusState : Field := ⟨0x900000, 0, 2⟩
/-- TIM_STATUS.ref, RO. -/
def F.timStatusRef : Field := ⟨0x900000, 2, 2⟩
/-- TIM_STATUS.slewing, RO. -/
def F.timStatusSlewing : Field := ⟨0x900000, 4, 1⟩
/-- TIM_STATUS.holding, RO. -/
def F.timStatusHolding : Field := ⟨0x900000, 5, 1⟩
/-- TIM_STATUS.rtc_valid, RO. -/
def F.timStatusRtcValid : Field := ⟨0x900000, 6, 1⟩
/-- TIM_ERROR.ns, RO. -/
def F.timErrorNs : Field := ⟨0x900004, 0, 32⟩
/-- TIM_STEPS.count, RO. -/
def F.timStepsCount : Field := ⟨0x900010, 0, 32⟩
/-- TIM_CFG.role, RWB. -/
def F.timCfgRole : Field := ⟨0x900014, 0, 2⟩
/-- TIM_CFG.two_step, RWB. -/
def F.timCfgTwoStep : Field := ⟨0x900014, 2, 1⟩
/-- TIM_CFG.p2p, RWB. -/
def F.timCfgP2p : Field := ⟨0x900014, 3, 1⟩
/-- TIM_CFG.domain, RWB. -/
def F.timCfgDomain : Field := ⟨0x900014, 4, 8⟩
/-- TIM_CFG.prio0, RWB. -/
def F.timCfgPrio0 : Field := ⟨0x900014, 12, 2⟩
/-- TIM_CFG.prio1, RWB. -/
def F.timCfgPrio1 : Field := ⟨0x900014, 14, 2⟩
/-- TIM_CFG.prio2, RWB. -/
def F.timCfgPrio2 : Field := ⟨0x900014, 16, 2⟩
/-- TIM_CFG.pps_out, RWB. -/
def F.timCfgPpsOut : Field := ⟨0x900014, 18, 1⟩
/-- TIM_CFG.pps_in, RWB. -/
def F.timCfgPpsIn : Field := ⟨0x900014, 19, 1⟩
/-- TIM_UTC.offset, RO. -/
def F.timUtcOffset : Field := ⟨0x900018, 0, 16⟩
/-- TIM_RTC.seconds, RO. -/
def F.timRtcSeconds : Field := ⟨0x90001C, 0, 32⟩
/-- TIM_RTC_ALARM.seconds, RWB. -/
def F.timRtcAlarmSeconds : Field := ⟨0x900020, 0, 32⟩
/-- TIM_NOW.ns, RO. -/
def F.timNowNs : Field := ⟨0x900008, 0, 64⟩
/-- TLM_MBUS.arb_lost, W1C. -/
def F.tlmMbusArbLost : Field := ⟨0xA00000, 0, 16⟩
/-- TLM_MBUS.arb_drop, W1C. -/
def F.tlmMbusArbDrop : Field := ⟨0xA00000, 16, 16⟩
/-- TLM_LOG_ADDR_LO.addr, RWB. -/
def F.tlmLogAddrLoAddr : Field := ⟨0xA00008, 0, 32⟩
/-- TLM_LOG_ADDR_HI.addr, RWB. -/
def F.tlmLogAddrHiAddr : Field := ⟨0xA0000C, 0, 32⟩
/-- TLM_LOG_CTRL.op, RWB. -/
def F.tlmLogCtrlOp : Field := ⟨0xA00010, 0, 2⟩
/-- TLM_LOG_STATUS.result, RO. -/
def F.tlmLogStatusResult : Field := ⟨0xA00014, 0, 8⟩
/-- TLM_LOG_STATUS.busy, RO. -/
def F.tlmLogStatusBusy : Field := ⟨0xA00014, 8, 1⟩
/-- TLM_SENSOR.value, RO. -/
def F.tlmSensorValue (n : Nat) : Field := ⟨0xA00100 + n * 4, 0, 24⟩
/-- TLM_SENSOR.warn, RO. -/
def F.tlmSensorWarn (n : Nat) : Field := ⟨0xA00100 + n * 4, 24, 1⟩
/-- TLM_SENSOR.crit, RO. -/
def F.tlmSensorCrit (n : Nat) : Field := ⟨0xA00100 + n * 4, 25, 1⟩
/-- TLM_THRESH.warn, RWB. -/
def F.tlmThreshWarn (n : Nat) : Field := ⟨0xA00200 + n * 4, 0, 16⟩
/-- TLM_THRESH.crit, RWB. -/
def F.tlmThreshCrit (n : Nat) : Field := ⟨0xA00200 + n * 4, 16, 16⟩
/-- PWR_STATUS.limiter, RO. -/
def F.pwrStatusLimiter : Field := ⟨0x200000, 0, 2⟩
/-- PWR_STATUS.shelf_held, RO. -/
def F.pwrStatusShelfHeld : Field := ⟨0x200000, 2, 1⟩
/-- PWR_STATUS.stretch, RO. -/
def F.pwrStatusStretch : Field := ⟨0x200000, 16, 16⟩
/-- PWR_CAP.watts, RWB. -/
def F.pwrCapWatts : Field := ⟨0x200004, 0, 11⟩
/-- PWR_CAP.shelf_hold, RWB. -/
def F.pwrCapShelfHold : Field := ⟨0x200004, 11, 1⟩
/-- PWR_LIMIT.limit_cap, RO. -/
def F.pwrLimitLimitCap : Field := ⟨0x200008, 0, 11⟩
/-- PWR_LIMIT.request, RO. -/
def F.pwrLimitRequest : Field := ⟨0x200008, 16, 16⟩
/-- PWR_PERIOD.watts, RO. -/
def F.pwrPeriodWatts : Field := ⟨0x200018, 0, 16⟩
/-- PWR_ENERGY.uj, RO. -/
def F.pwrEnergyUj : Field := ⟨0x200010, 0, 64⟩
/-- PWR_VLY_ENERGY.uj, RO. -/
def F.pwrVlyEnergyUj (v : Nat) : Field := ⟨0x200100 + v * 8, 0, 64⟩
/-- PWR_VTARGET.mv, RWT. -/
def F.pwrVtargetMv (v : Nat) : Field := ⟨0x200400 + v * 4, 0, 10⟩
/-- RCV_STATUS.active, RO. -/
def F.rcvStatusActive : Field := ⟨0xC00000, 0, 1⟩
/-- RCV_STATUS.level, RO. -/
def F.rcvStatusLevel : Field := ⟨0xC00000, 1, 3⟩
/-- RCV_STATUS.cause, RO. -/
def F.rcvStatusCause : Field := ⟨0xC00000, 8, 8⟩
/-- RCV_STATUS.seq, RO. -/
def F.rcvStatusSeq : Field := ⟨0xC00000, 16, 16⟩
/-- RCV_CTRL.op, RWB. -/
def F.rcvCtrlOp : Field := ⟨0xC00004, 0, 4⟩
/-- RCV_CTRL.level, RWB. -/
def F.rcvCtrlLevel : Field := ⟨0xC00004, 4, 3⟩
/-- RCV_CTRL.partition, RWB. -/
def F.rcvCtrlPartition : Field := ⟨0xC00004, 8, 2⟩
/-- RCV_CTRL.slot, RWB. -/
def F.rcvCtrlSlot : Field := ⟨0xC00004, 16, 4⟩
/-- RCV_ADDR_LO.addr, RWB. -/
def F.rcvAddrLoAddr : Field := ⟨0xC00008, 0, 32⟩
/-- RCV_ADDR_HI.addr, RWB. -/
def F.rcvAddrHiAddr : Field := ⟨0xC0000C, 0, 32⟩
/-- RCV_RESULT.result, RO. -/
def F.rcvResultResult : Field := ⟨0xC00010, 0, 8⟩
/-- RCV_COUNT.count, W1C. -/
def F.rcvCountCount (l : Nat) : Field := ⟨0xC00020 + l * 4, 0, 32⟩
/-- DBG_STATUS.rights, RO. -/
def F.dbgStatusRights : Field := ⟨0xD00000, 0, 5⟩
/-- DBG_CTRL.sample, RWB. -/
def F.dbgCtrlSample : Field := ⟨0xD00004, 0, 1⟩
/-- DBG_CTRL.period_log2, RWB. -/
def F.dbgCtrlPeriodLog2 : Field := ⟨0xD00004, 1, 5⟩
/-- DBG_CTRL.trace, RWB. -/
def F.dbgCtrlTrace : Field := ⟨0xD00004, 6, 1⟩
/-- DBG_CTRL.counters, RWB. -/
def F.dbgCtrlCounters : Field := ⟨0xD00004, 7, 1⟩
/-- DBG_CTRL.cnt_period, RWB. -/
def F.dbgCtrlCntPeriod : Field := ⟨0xD00004, 8, 8⟩
/-- DBG_CTRL.clusters, RWB. -/
def F.dbgCtrlClusters : Field := ⟨0xD00004, 16, 16⟩
/-- DBG_TRACE.cores, RWB. -/
def F.dbgTraceCores : Field := ⟨0xD00008, 0, 21⟩
/-- DBG_BUF_LO.addr, RWB. -/
def F.dbgBufLoAddr : Field := ⟨0xD00010, 0, 32⟩
/-- DBG_BUF_HI.addr, RWB. -/
def F.dbgBufHiAddr : Field := ⟨0xD00014, 0, 32⟩
/-- DBG_BUF_CFG.log2_size, RWB. -/
def F.dbgBufCfgLog2Size : Field := ⟨0xD00018, 0, 5⟩
/-- DBG_LOST.count, W1C. -/
def F.dbgLostCount : Field := ⟨0xD00028, 0, 32⟩
/-- DBG_ALIGN.offset, RO. -/
def F.dbgAlignOffset : Field := ⟨0xD0002C, 0, 32⟩
/-- DBG_WPTR.bytes, RO. -/
def F.dbgWptrBytes : Field := ⟨0xD00020, 0, 64⟩

/-- One field of a register row: lowest bit, width and access code. -/
structure FieldRow where
  lsb : Nat
  width : Nat
  access : Access
  deriving DecidableEq, Repr

/-- One register or register array: name, address of its first word, two array dimensions (count and stride), width
in bytes, mask bit of its block (the first one, for die and stack arrays), whether its home valley is V32 or V38
(R376), its reset value and its fields. -/
structure RegRow where
  name : String
  base : Nat
  n1 : Nat
  s1 : Nat
  n2 : Nat
  s2 : Nat
  bytes : Nat
  block : Nat
  fast : Bool
  reset : Nat
  fields : List FieldRow
  deriving DecidableEq, Repr

/-- Register rows of BAR0, part 1 (addresses of R362). -/
def regRows1 : List RegRow := [
  ⟨"BNC_STATUS", 0x1008000, 16, 0x100000, 10, 0x100, 4, 16, false, 0x1, [⟨0, 1, .ro⟩, ⟨1, 1, .ro⟩, ⟨2, 1, .ro⟩, ⟨3, 1, .ro⟩, ⟨4, 1, .ro⟩, ⟨5, 3, .rv⟩, ⟨8, 16, .ro⟩, ⟨24, 8, .ro⟩]⟩,
  ⟨"BNC_STALL", 0x1008008, 16, 0x100000, 10, 0x100, 4, 16, false, 0x0, [⟨0, 32, .ro⟩]⟩,
  ⟨"BNC_ECC", 0x100800C, 16, 0x100000, 10, 0x100, 4, 16, false, 0x0, [⟨0, 16, .w1c⟩, ⟨16, 16, .w1c⟩]⟩,
  ⟨"BNC_CTRL", 0x1008010, 16, 0x100000, 10, 0x100, 4, 16, false, 0x0, [⟨0, 1, .rwt⟩, ⟨1, 31, .rv⟩]⟩,
  ⟨"CPX_STATUS", 0x1004000, 16, 0x100000, 1, 0x0, 4, 16, false, 0x0, [⟨0, 5, .ro⟩, ⟨5, 1, .rv⟩, ⟨6, 6, .ro⟩, ⟨12, 1, .ro⟩, ⟨13, 19, .rv⟩]⟩,
  ⟨"CPX_SQUASH", 0x1004008, 16, 0x100000, 1, 0x0, 4, 16, false, 0x0, [⟨0, 32, .ro⟩]⟩,
  ⟨"NST_ECC", 0x10F0000, 4, 0x400000, 1, 0x0, 4, 16, false, 0x0, [⟨0, 16, .w1c⟩, ⟨16, 16, .w1c⟩]⟩,
  ⟨"DVT_PLAIN", 0xB00000, 1, 0x0, 1, 0x0, 4, 11, false, 0x0, [⟨0, 1, .ro⟩, ⟨1, 1, .ro⟩, ⟨2, 1, .ro⟩, ⟨3, 1, .ro⟩, ⟨4, 5, .ro⟩, ⟨9, 10, .ro⟩, ⟨19, 10, .ro⟩, ⟨29, 3, .rv⟩]⟩,
  ⟨"DVT_LINK_STATUS", 0xB00100, 6, 0x40, 1, 0x0, 4, 11, false, 0x0, [⟨0, 3, .ro⟩, ⟨3, 1, .ro⟩, ⟨4, 12, .rv⟩, ⟨16, 10, .ro⟩, ⟨26, 6, .rv⟩]⟩,
  ⟨"DVT_LINK_FEC", 0xB00108, 6, 0x40, 1, 0x0, 4, 11, false, 0x0, [⟨0, 32, .ro⟩]⟩,
  ⟨"DVT_LINK_ERR", 0xB0010C, 6, 0x40, 1, 0x0, 4, 11, false, 0x0, [⟨0, 16, .w1c⟩, ⟨16, 8, .w1c⟩, ⟨24, 8, .rv⟩]⟩,
  ⟨"DVT_LINK_OFFSET", 0xB00110, 6, 0x40, 1, 0x0, 4, 11, false, 0x0, [⟨0, 32, .ro⟩]⟩,
  ⟨"DVT_LINK_CTRL", 0xB00114, 6, 0x40, 1, 0x0, 4, 11, false, 0x0, [⟨0, 1, .rwt⟩, ⟨1, 31, .rv⟩]⟩,
  ⟨"MEM_STATUS", 0x2000000, 12, 0x100000, 1, 0x0, 4, 20, false, 0x1, [⟨0, 1, .ro⟩, ⟨1, 1, .ro⟩, ⟨2, 1, .ro⟩, ⟨3, 2, .ro⟩, ⟨5, 1, .ro⟩, ⟨6, 1, .ro⟩, ⟨7, 25, .rv⟩]⟩,
  ⟨"MEM_TEMP", 0x2000004, 12, 0x100000, 1, 0x0, 4, 20, false, 0x0, [⟨0, 8, .ro⟩, ⟨8, 8, .ro⟩, ⟨16, 16, .rv⟩]⟩,
  ⟨"MEM_ECC", 0x2000008, 12, 0x100000, 1, 0x0, 4, 20, false, 0x0, [⟨0, 16, .w1c⟩, ⟨16, 16, .w1c⟩]⟩,
  ⟨"MEM_INTEG", 0x200000C, 12, 0x100000, 1, 0x0, 4, 20, false, 0x0, [⟨0, 16, .w1c⟩, ⟨16, 16, .w1c⟩]⟩,
  ⟨"MEM_CTRL", 0x2000010, 12, 0x100000, 1, 0x0, 4, 20, false, 0x0, [⟨0, 1, .rwt⟩, ⟨1, 31, .rv⟩]⟩,
  ⟨"FWC_CTRL", 0xE00000, 1, 0x0, 1, 0x0, 4, 14, false, 0x0, [⟨0, 4, .rwb⟩, ⟨4, 4, .rv⟩, ⟨8, 21, .rwb⟩, ⟨29, 3, .rv⟩]⟩,
  ⟨"FWC_SRC_LO", 0xE00008, 1, 0x0, 1, 0x0, 4, 14, false, 0x0, [⟨0, 32, .rwb⟩]⟩]

/-- Register rows of BAR0, part 2 (addresses of R362). -/
def regRows2 : List RegRow := [
  ⟨"FWC_SRC_HI", 0xE0000C, 1, 0x0, 1, 0x0, 4, 14, false, 0x0, [⟨0, 32, .rwb⟩]⟩,
  ⟨"FWC_LEN", 0xE00010, 1, 0x0, 1, 0x0, 4, 14, false, 0x0, [⟨0, 32, .rwb⟩]⟩,
  ⟨"FWC_STATUS", 0xE00014, 1, 0x0, 1, 0x0, 4, 14, false, 0x0, [⟨0, 4, .ro⟩, ⟨4, 8, .ro⟩, ⟨12, 3, .ro⟩, ⟨15, 3, .ro⟩, ⟨18, 1, .ro⟩, ⟨19, 7, .ro⟩, ⟨26, 6, .rv⟩]⟩,
  ⟨"FWC_BOOT", 0xE00018, 1, 0x0, 1, 0x0, 4, 14, false, 0x0, [⟨0, 4, .ro⟩, ⟨4, 8, .ro⟩, ⟨12, 20, .rv⟩]⟩,
  ⟨"SEC_STATUS", 0x300000, 1, 0x0, 1, 0x0, 4, 3, false, 0x0, [⟨0, 3, .rwtFw⟩, ⟨3, 1, .rwtFw⟩, ⟨4, 8, .ro⟩, ⟨12, 13, .ro⟩, ⟨25, 7, .rv⟩]⟩,
  ⟨"SEC_CTRL", 0x300004, 1, 0x0, 1, 0x0, 4, 3, false, 0x0, [⟨0, 4, .rwb⟩, ⟨4, 28, .rv⟩]⟩,
  ⟨"SEC_SRC_LO", 0x300008, 1, 0x0, 1, 0x0, 4, 3, false, 0x0, [⟨0, 32, .rwb⟩]⟩,
  ⟨"SEC_SRC_HI", 0x30000C, 1, 0x0, 1, 0x0, 4, 3, false, 0x0, [⟨0, 32, .rwb⟩]⟩,
  ⟨"SEC_NONCE", 0x300010, 8, 0x4, 1, 0x0, 4, 3, false, 0x0, [⟨0, 32, .ro⟩]⟩,
  ⟨"SEC_VIOL", 0x301004, 63, 0x4, 1, 0x0, 4, 3, false, 0x0, [⟨0, 32, .w1c⟩]⟩,
  ⟨"CPH_STATUS", 0x400000, 1, 0x0, 1, 0x0, 4, 4, false, 0xFF, [⟨0, 8, .ro⟩, ⟨8, 24, .rv⟩]⟩,
  ⟨"CPH_MISMATCH", 0x400004, 1, 0x0, 1, 0x0, 4, 4, false, 0x0, [⟨0, 16, .w1c⟩, ⟨16, 16, .rv⟩]⟩,
  ⟨"CPH_KEYMISS", 0x400008, 1, 0x0, 1, 0x0, 4, 4, false, 0x0, [⟨0, 32, .ro⟩]⟩,
  ⟨"HIF_LINK", 0x500000, 1, 0x0, 1, 0x0, 4, 5, true, 0x0, [⟨0, 1, .ro⟩, ⟨1, 3, .ro⟩, ⟨4, 5, .ro⟩, ⟨9, 1, .ro⟩, ⟨10, 22, .rv⟩]⟩,
  ⟨"HIF_STATUS", 0x500004, 1, 0x0, 1, 0x0, 4, 5, true, 0x0, [⟨0, 1, .ro⟩, ⟨1, 1, .w1c⟩, ⟨2, 1, .ro⟩, ⟨3, 29, .rv⟩]⟩,
  ⟨"HIF_RT_GEN", 0x500008, 1, 0x0, 1, 0x0, 4, 5, true, 0x0, [⟨0, 32, .ro⟩]⟩,
  ⟨"HIF_WAKE_CAUSE", 0x500020, 1, 0x0, 1, 0x0, 4, 5, true, 0x0, [⟨0, 1, .w1c⟩, ⟨1, 1, .w1c⟩, ⟨2, 1, .w1c⟩, ⟨3, 1, .w1c⟩, ⟨4, 1, .w1c⟩, ⟨5, 1, .w1c⟩, ⟨6, 1, .w1c⟩, ⟨7, 25, .rv⟩]⟩,
  ⟨"HIF_WAKE_EN", 0x500024, 1, 0x0, 1, 0x0, 4, 5, true, 0x0, [⟨0, 7, .rwb⟩, ⟨7, 25, .rv⟩]⟩,
  ⟨"HIF_MSIX_ALLOC", 0x500104, 63, 0x4, 1, 0x0, 4, 5, true, 0x1F, [⟨0, 9, .rwb⟩, ⟨9, 23, .rv⟩]⟩,
  ⟨"GLB_ID", 0x0, 1, 0x0, 1, 0x0, 4, 0, true, 0xE9B100, [⟨0, 8, .ro⟩, ⟨8, 8, .ro⟩, ⟨16, 16, .ro⟩]⟩]

/-- Register rows of BAR0, part 3 (addresses of R362). -/
def regRows3 : List RegRow := [
  ⟨"GLB_STATUS", 0x4, 1, 0x0, 1, 0x0, 4, 0, true, 0x0, [⟨0, 1, .ro⟩, ⟨1, 1, .w1c⟩, ⟨2, 30, .rv⟩]⟩,
  ⟨"GLB_UPDATE", 0x8, 1, 0x0, 1, 0x0, 4, 0, true, 0x0, [⟨0, 15, .wo⟩, ⟨15, 1, .rv⟩, ⟨16, 4, .wo⟩, ⟨20, 12, .wo⟩]⟩,
  ⟨"GLB_PENDING", 0xC, 1, 0x0, 1, 0x0, 4, 0, true, 0x0, [⟨0, 32, .ro⟩]⟩,
  ⟨"GLB_DISCARD", 0x10, 1, 0x0, 1, 0x0, 4, 0, true, 0x0, [⟨0, 32, .wo⟩]⟩,
  ⟨"GLB_EPOCH", 0x14, 1, 0x0, 1, 0x0, 4, 0, true, 0x0, [⟨0, 32, .ro⟩]⟩,
  ⟨"GLB_COMPAT", 0x18, 1, 0x0, 1, 0x0, 4, 0, true, 0x0, [⟨0, 1, .rw⟩, ⟨1, 31, .rv⟩]⟩,
  ⟨"GLB_VOTE", 0x1C, 1, 0x0, 1, 0x0, 4, 0, true, 0x0, [⟨0, 16, .w1c⟩, ⟨16, 16, .w1c⟩]⟩,
  ⟨"GLB_RVERR", 0x20, 1, 0x0, 1, 0x0, 4, 0, true, 0x0, [⟨0, 16, .w1c⟩, ⟨16, 16, .rv⟩]⟩,
  ⟨"VLY_STATE", 0x100000, 40, 0x4, 1, 0x0, 4, 1, true, 0x4, [⟨0, 1, .rwtFw⟩, ⟨1, 1, .ro⟩, ⟨2, 1, .ro⟩, ⟨3, 1, .rwtFw⟩, ⟨4, 1, .ro⟩, ⟨5, 11, .rv⟩, ⟨16, 12, .ro⟩, ⟨28, 4, .rv⟩]⟩,
  ⟨"VLY_ISO", 0x100100, 40, 0x4, 1, 0x0, 4, 1, true, 0x0, [⟨0, 32, .w1c⟩]⟩,
  ⟨"SHF_STATUS", 0x600000, 1, 0x0, 1, 0x0, 4, 6, false, 0x640000, [⟨0, 3, .ro⟩, ⟨3, 1, .ro⟩, ⟨4, 2, .ro⟩, ⟨6, 2, .rv⟩, ⟨8, 8, .ro⟩, ⟨16, 8, .ro⟩, ⟨24, 8, .rv⟩]⟩,
  ⟨"SHF_CTRL", 0x600004, 1, 0x0, 1, 0x0, 4, 6, false, 0x0, [⟨0, 4, .rwb⟩, ⟨4, 4, .rv⟩, ⟨8, 8, .rwb⟩, ⟨16, 16, .rv⟩]⟩,
  ⟨"SHF_ARG", 0x600008, 1, 0x0, 1, 0x0, 4, 6, false, 0x0, [⟨0, 16, .rwb⟩, ⟨16, 16, .rv⟩]⟩,
  ⟨"SHF_SANITIZE", 0x60000C, 1, 0x0, 1, 0x0, 4, 6, false, 0x0, [⟨0, 7, .ro⟩, ⟨7, 1, .ro⟩, ⟨8, 16, .ro⟩, ⟨24, 8, .rv⟩]⟩,
  ⟨"SHF_PWR", 0x600010, 1, 0x0, 1, 0x0, 4, 6, false, 0x640002, [⟨0, 2, .rwb⟩, ⟨2, 14, .rv⟩, ⟨16, 16, .rwb⟩]⟩,
  ⟨"SHF_ARB", 0x600014, 1, 0x0, 1, 0x0, 4, 6, false, 0x10408, [⟨0, 8, .rwb⟩, ⟨8, 8, .rwb⟩, ⟨16, 8, .rwb⟩, ⟨24, 8, .rv⟩]⟩,
  ⟨"SHF_DUP", 0x600018, 1, 0x0, 1, 0x0, 4, 6, false, 0x0, [⟨0, 32, .w1c⟩]⟩,
  ⟨"SHF_QP_CFG", 0x601000, 1024, 0x4, 1, 0x0, 4, 6, false, 0x2, [⟨0, 2, .rwb⟩, ⟨2, 1, .rwb⟩, ⟨3, 29, .rv⟩]⟩,
  ⟨"SHF_CHAN", 0x602000, 16, 0x4, 1, 0x0, 4, 6, false, 0x2, [⟨0, 1, .rwt⟩, ⟨1, 1, .ro⟩, ⟨2, 14, .rv⟩, ⟨16, 8, .w1c⟩, ⟨24, 8, .rv⟩]⟩,
  ⟨"ETH_PORT_CFG", 0x700000, 2, 0x1000, 1, 0x0, 4, 7, false, 0x5EE0B, [⟨0, 2, .rwb⟩, ⟨2, 1, .rwb⟩, ⟨3, 1, .rwb⟩, ⟨4, 4, .rv⟩, ⟨8, 14, .rwb⟩, ⟨22, 10, .rv⟩]⟩]

/-- Register rows of BAR0, part 4 (addresses of R362). -/
def regRows4 : List RegRow := [
  ⟨"ETH_PORT_STATUS", 0x700004, 2, 0x1000, 1, 0x0, 4, 7, false, 0x78, [⟨0, 1, .ro⟩, ⟨1, 2, .ro⟩, ⟨3, 4, .ro⟩, ⟨7, 9, .rv⟩, ⟨16, 16, .ro⟩]⟩,
  ⟨"ETH_LANE_CTRL", 0x700008, 2, 0x1000, 1, 0x0, 4, 7, false, 0x0, [⟨0, 4, .rwt⟩, ⟨4, 28, .rv⟩]⟩,
  ⟨"ETH_RX_ERR", 0x700010, 2, 0x1000, 1, 0x0, 4, 7, false, 0x0, [⟨0, 16, .w1c⟩, ⟨16, 16, .w1c⟩]⟩,
  ⟨"ETH_RX_DROP", 0x700014, 2, 0x1000, 1, 0x0, 4, 7, false, 0x0, [⟨0, 16, .w1c⟩, ⟨16, 16, .w1c⟩]⟩,
  ⟨"ETH_RX_CTRL", 0x700018, 2, 0x1000, 1, 0x0, 4, 7, false, 0x0, [⟨0, 16, .w1c⟩, ⟨16, 16, .w1c⟩]⟩,
  ⟨"ETH_RS_ADDR_LO", 0x700020, 2, 0x1000, 1, 0x0, 4, 7, false, 0x0, [⟨0, 32, .rwb⟩]⟩,
  ⟨"ETH_RS_ADDR_HI", 0x700024, 2, 0x1000, 1, 0x0, 4, 7, false, 0x0, [⟨0, 32, .rwb⟩]⟩,
  ⟨"ETH_RS_CTRL", 0x700028, 2, 0x1000, 1, 0x0, 4, 7, false, 0x0, [⟨0, 1, .rwb⟩, ⟨1, 31, .rv⟩]⟩,
  ⟨"ETH_RS_STATUS", 0x70002C, 2, 0x1000, 1, 0x0, 4, 7, false, 0x0, [⟨0, 16, .ro⟩, ⟨16, 8, .ro⟩, ⟨24, 1, .ro⟩, ⟨25, 7, .rv⟩]⟩,
  ⟨"ETH_QMAP", 0x740000, 512, 0x4, 1, 0x0, 4, 7, false, 0x0, [⟨0, 1, .rwb⟩, ⟨1, 11, .rwb⟩, ⟨12, 20, .rv⟩]⟩,
  ⟨"ETH_RXDROP_NOBUF", 0x750000, 512, 0x4, 1, 0x0, 4, 7, false, 0x0, [⟨0, 32, .w1c⟩]⟩,
  ⟨"ETH_NODE_SEL", 0x760000, 1, 0x0, 1, 0x0, 4, 7, false, 0x0, [⟨0, 1, .rw⟩, ⟨1, 2, .rw⟩, ⟨3, 11, .rw⟩, ⟨14, 18, .rv⟩]⟩,
  ⟨"ETH_NODE_RATE", 0x760004, 1, 0x0, 1, 0x0, 4, 7, false, 0x0, [⟨0, 20, .rwb⟩, ⟨20, 12, .rv⟩]⟩,
  ⟨"ETH_NODE_SHAPE", 0x760008, 1, 0x0, 1, 0x0, 4, 7, false, 0x10040, [⟨0, 15, .rwb⟩, ⟨15, 1, .rv⟩, ⟨16, 8, .rwb⟩, ⟨24, 8, .rwb⟩]⟩,
  ⟨"ETH_NODE_TREE", 0x76000C, 1, 0x0, 1, 0x0, 4, 7, false, 0x700, [⟨0, 6, .rwb⟩, ⟨6, 2, .rv⟩, ⟨8, 3, .rwb⟩, ⟨11, 21, .rv⟩]⟩,
  ⟨"ETH_NODE_TOKENS", 0x760010, 1, 0x0, 1, 0x0, 4, 7, false, 0x0, [⟨0, 32, .ro⟩]⟩,
  ⟨"RMA_CC", 0x800000, 1, 0x0, 1, 0x0, 4, 8, false, 0x641388, [⟨0, 16, .rwb⟩, ⟨16, 16, .rwb⟩]⟩,
  ⟨"RMA_RX_DROP", 0x800004, 1, 0x0, 1, 0x0, 4, 8, false, 0x0, [⟨0, 16, .w1c⟩, ⟨16, 16, .w1c⟩]⟩,
  ⟨"RMA_RX_DROP2", 0x800008, 1, 0x0, 1, 0x0, 4, 8, false, 0x0, [⟨0, 16, .w1c⟩, ⟨16, 16, .rv⟩]⟩,
  ⟨"RMA_QP_CFG", 0x810000, 2048, 0x4, 1, 0x0, 4, 8, false, 0x0, [⟨0, 1, .rwb⟩, ⟨1, 11, .rwb⟩, ⟨12, 20, .rv⟩]⟩]

/-- Register rows of BAR0, part 5 (addresses of R362). -/
def regRows5 : List RegRow := [
  ⟨"RMA_QP_STATUS", 0x820000, 2048, 0x4, 1, 0x0, 4, 8, false, 0x0, [⟨0, 3, .ro⟩, ⟨3, 1, .ro⟩, ⟨4, 4, .rv⟩, ⟨8, 8, .ro⟩, ⟨16, 4, .ro⟩, ⟨20, 12, .rv⟩]⟩,
  ⟨"RMA_QP_RATE", 0x830000, 2048, 0x4, 1, 0x0, 4, 8, false, 0x0, [⟨0, 20, .ro⟩, ⟨20, 12, .rv⟩]⟩,
  ⟨"TIM_STATUS", 0x900000, 1, 0x0, 1, 0x0, 4, 9, true, 0x0, [⟨0, 2, .ro⟩, ⟨2, 2, .ro⟩, ⟨4, 1, .ro⟩, ⟨5, 1, .ro⟩, ⟨6, 1, .ro⟩, ⟨7, 25, .rv⟩]⟩,
  ⟨"TIM_ERROR", 0x900004, 1, 0x0, 1, 0x0, 4, 9, true, 0xFFFFFFFF, [⟨0, 32, .ro⟩]⟩,
  ⟨"TIM_STEPS", 0x900010, 1, 0x0, 1, 0x0, 4, 9, true, 0x0, [⟨0, 32, .ro⟩]⟩,
  ⟨"TIM_CFG", 0x900014, 1, 0x0, 1, 0x0, 4, 9, true, 0x39004, [⟨0, 2, .rwb⟩, ⟨2, 1, .rwb⟩, ⟨3, 1, .rwb⟩, ⟨4, 8, .rwb⟩, ⟨12, 2, .rwb⟩, ⟨14, 2, .rwb⟩, ⟨16, 2, .rwb⟩, ⟨18, 1, .rwb⟩, ⟨19, 1, .rwb⟩, ⟨20, 12, .rv⟩]⟩,
  ⟨"TIM_UTC", 0x900018, 1, 0x0, 1, 0x0, 4, 9, true, 0x0, [⟨0, 16, .ro⟩, ⟨16, 16, .rv⟩]⟩,
  ⟨"TIM_RTC", 0x90001C, 1, 0x0, 1, 0x0, 4, 9, true, 0x0, [⟨0, 32, .ro⟩]⟩,
  ⟨"TIM_RTC_ALARM", 0x900020, 1, 0x0, 1, 0x0, 4, 9, true, 0x0, [⟨0, 32, .rwb⟩]⟩,
  ⟨"TIM_NOW", 0x900008, 1, 0x0, 1, 0x0, 8, 9, true, 0x0, [⟨0, 64, .ro⟩]⟩,
  ⟨"TLM_MBUS", 0xA00000, 1, 0x0, 1, 0x0, 4, 10, true, 0x0, [⟨0, 16, .w1c⟩, ⟨16, 16, .w1c⟩]⟩,
  ⟨"TLM_LOG_ADDR_LO", 0xA00008, 1, 0x0, 1, 0x0, 4, 10, true, 0x0, [⟨0, 32, .rwb⟩]⟩,
  ⟨"TLM_LOG_ADDR_HI", 0xA0000C, 1, 0x0, 1, 0x0, 4, 10, true, 0x0, [⟨0, 32, .rwb⟩]⟩,
  ⟨"TLM_LOG_CTRL", 0xA00010, 1, 0x0, 1, 0x0, 4, 10, true, 0x0, [⟨0, 2, .rwb⟩, ⟨2, 30, .rv⟩]⟩,
  ⟨"TLM_LOG_STATUS", 0xA00014, 1, 0x0, 1, 0x0, 4, 10, true, 0x0, [⟨0, 8, .ro⟩, ⟨8, 1, .ro⟩, ⟨9, 23, .rv⟩]⟩,
  ⟨"TLM_SENSOR", 0xA00100, 25, 0x4, 1, 0x0, 4, 10, true, 0x0, [⟨0, 24, .ro⟩, ⟨24, 1, .ro⟩, ⟨25, 1, .ro⟩, ⟨26, 6, .rv⟩]⟩,
  ⟨"TLM_THRESH", 0xA00200, 25, 0x4, 1, 0x0, 4, 10, true, 0x0, [⟨0, 16, .rwb⟩, ⟨16, 16, .rwb⟩]⟩,
  ⟨"PWR_STATUS", 0x200000, 1, 0x0, 1, 0x0, 4, 2, false, 0x0, [⟨0, 2, .ro⟩, ⟨2, 1, .ro⟩, ⟨3, 13, .rv⟩, ⟨16, 16, .ro⟩]⟩,
  ⟨"PWR_CAP", 0x200004, 1, 0x0, 1, 0x0, 4, 2, false, 0x5DC, [⟨0, 11, .rwb⟩, ⟨11, 1, .rwb⟩, ⟨12, 20, .rv⟩]⟩,
  ⟨"PWR_LIMIT", 0x200008, 1, 0x0, 1, 0x0, 4, 2, false, 0x5DC, [⟨0, 11, .ro⟩, ⟨11, 5, .rv⟩, ⟨16, 16, .ro⟩]⟩]

/-- Register rows of BAR0, part 6 (addresses of R362). -/
def regRows6 : List RegRow := [
  ⟨"PWR_PERIOD", 0x200018, 1, 0x0, 1, 0x0, 4, 2, false, 0x0, [⟨0, 16, .ro⟩, ⟨16, 16, .rv⟩]⟩,
  ⟨"PWR_ENERGY", 0x200010, 1, 0x0, 1, 0x0, 8, 2, false, 0x0, [⟨0, 64, .ro⟩]⟩,
  ⟨"PWR_VLY_ENERGY", 0x200100, 40, 0x8, 1, 0x0, 8, 2, false, 0x0, [⟨0, 64, .ro⟩]⟩,
  ⟨"PWR_VTARGET", 0x200400, 40, 0x4, 1, 0x0, 4, 2, false, 0x2EE, [⟨0, 10, .rwtFw⟩, ⟨10, 22, .rv⟩]⟩,
  ⟨"RCV_STATUS", 0xC00000, 1, 0x0, 1, 0x0, 4, 12, false, 0x0, [⟨0, 1, .ro⟩, ⟨1, 3, .ro⟩, ⟨4, 4, .rv⟩, ⟨8, 8, .ro⟩, ⟨16, 16, .ro⟩]⟩,
  ⟨"RCV_CTRL", 0xC00004, 1, 0x0, 1, 0x0, 4, 12, false, 0x0, [⟨0, 4, .rwb⟩, ⟨4, 3, .rwb⟩, ⟨7, 1, .rv⟩, ⟨8, 2, .rwb⟩, ⟨10, 6, .rv⟩, ⟨16, 4, .rwb⟩, ⟨20, 12, .rv⟩]⟩,
  ⟨"RCV_ADDR_LO", 0xC00008, 1, 0x0, 1, 0x0, 4, 12, false, 0x0, [⟨0, 32, .rwb⟩]⟩,
  ⟨"RCV_ADDR_HI", 0xC0000C, 1, 0x0, 1, 0x0, 4, 12, false, 0x0, [⟨0, 32, .rwb⟩]⟩,
  ⟨"RCV_RESULT", 0xC00010, 1, 0x0, 1, 0x0, 4, 12, false, 0x0, [⟨0, 8, .ro⟩, ⟨8, 24, .rv⟩]⟩,
  ⟨"RCV_COUNT", 0xC00020, 6, 0x4, 1, 0x0, 4, 12, false, 0x0, [⟨0, 32, .w1c⟩]⟩,
  ⟨"DBG_STATUS", 0xD00000, 1, 0x0, 1, 0x0, 4, 13, false, 0x0, [⟨0, 5, .ro⟩, ⟨5, 27, .rv⟩]⟩,
  ⟨"DBG_CTRL", 0xD00004, 1, 0x0, 1, 0x0, 4, 13, false, 0x114, [⟨0, 1, .rwb⟩, ⟨1, 5, .rwb⟩, ⟨6, 1, .rwb⟩, ⟨7, 1, .rwb⟩, ⟨8, 8, .rwb⟩, ⟨16, 16, .rwb⟩]⟩,
  ⟨"DBG_TRACE", 0xD00008, 1, 0x0, 1, 0x0, 4, 13, false, 0x0, [⟨0, 21, .rwb⟩, ⟨21, 11, .rv⟩]⟩,
  ⟨"DBG_BUF_LO", 0xD00010, 1, 0x0, 1, 0x0, 4, 13, false, 0x0, [⟨0, 32, .rwb⟩]⟩,
  ⟨"DBG_BUF_HI", 0xD00014, 1, 0x0, 1, 0x0, 4, 13, false, 0x0, [⟨0, 32, .rwb⟩]⟩,
  ⟨"DBG_BUF_CFG", 0xD00018, 1, 0x0, 1, 0x0, 4, 13, false, 0x10, [⟨0, 5, .rwb⟩, ⟨5, 27, .rv⟩]⟩,
  ⟨"DBG_LOST", 0xD00028, 1, 0x0, 1, 0x0, 4, 13, false, 0x0, [⟨0, 32, .w1c⟩]⟩,
  ⟨"DBG_ALIGN", 0xD0002C, 1, 0x0, 1, 0x0, 4, 13, false, 0x0, [⟨0, 32, .ro⟩]⟩,
  ⟨"DBG_WPTR", 0xD00020, 1, 0x0, 1, 0x0, 8, 13, false, 0x0, [⟨0, 64, .ro⟩]⟩]

/-- Every register row of the manager's BAR0 but the ring registers. -/
def regRows : List RegRow := regRows1 ++ regRows2 ++ regRows3 ++ regRows4 ++ regRows5 ++ regRows6

/-- The ring registers of R335, as offsets from the ring's base. -/
def ringRows : List RegRow := [
  ⟨"RNG_BASE_LO", 0x0, 1, 0x0, 1, 0x0, 4, 5, true, 0x0, [⟨0, 32, .rwb⟩]⟩,
  ⟨"RNG_BASE_HI", 0x4, 1, 0x0, 1, 0x0, 4, 5, true, 0x0, [⟨0, 32, .rwb⟩]⟩,
  ⟨"RNG_CFG", 0x8, 1, 0x0, 1, 0x0, 4, 5, true, 0x0, [⟨0, 5, .rwb⟩, ⟨5, 3, .rv⟩, ⟨8, 4, .rwb⟩, ⟨12, 8, .rwb⟩, ⟨20, 8, .rwb⟩, ⟨28, 4, .rv⟩]⟩,
  ⟨"RNG_MOD", 0xC, 1, 0x0, 1, 0x0, 4, 5, true, 0x1, [⟨0, 9, .rwb⟩, ⟨9, 7, .rv⟩, ⟨16, 10, .rwb⟩, ⟨26, 6, .rv⟩]⟩,
  ⟨"RNG_CTRL", 0x10, 1, 0x0, 1, 0x0, 4, 5, true, 0x0, [⟨0, 1, .rwb⟩, ⟨1, 1, .w1s⟩, ⟨2, 30, .rv⟩]⟩,
  ⟨"RNG_STATUS", 0x14, 1, 0x0, 1, 0x0, 4, 5, true, 0x0, [⟨0, 2, .ro⟩, ⟨2, 6, .rv⟩, ⟨8, 4, .ro⟩, ⟨12, 20, .rv⟩]⟩,
  ⟨"RNG_HEAD", 0x18, 1, 0x0, 1, 0x0, 4, 5, true, 0x0, [⟨0, 32, .ro⟩]⟩,
  ⟨"RNG_TAIL", 0x1C, 1, 0x0, 1, 0x0, 4, 5, true, 0x0, [⟨0, 32, .ro⟩]⟩,
  ⟨"RNG_ERR", 0x20, 1, 0x0, 1, 0x0, 4, 5, true, 0x0, [⟨0, 16, .w1c⟩, ⟨16, 16, .rv⟩]⟩]

/-- The instance registers of R352 and R359, as offsets in the instance page. -/
def insRows : List RegRow := [
  ⟨"INS_STATUS", 0x0, 64, 0x100000000, 1, 0x0, 4, 5, true, 0x1, [⟨0, 3, .ro⟩, ⟨3, 5, .rv⟩, ⟨8, 8, .ro⟩, ⟨16, 4, .ro⟩, ⟨20, 12, .rv⟩]⟩,
  ⟨"INS_UPDATE", 0x8, 64, 0x100000000, 1, 0x0, 4, 5, true, 0x0, [⟨0, 1, .wo⟩, ⟨1, 31, .rv⟩]⟩,
  ⟨"INS_MBX_ACK", 0x10, 64, 0x100000000, 1, 0x0, 4, 5, true, 0x0, [⟨0, 32, .wo⟩]⟩]

/-- Reset thresholds of the sensors (17_time.md R469): warning and critical. -/
def threshReset : List (Nat × Nat) := [(100, 110), (100, 110), (100, 110), (100, 110), (100, 110), (95, 105), (95, 105), (95, 105), (95, 105), (95, 105), (95, 105), (95, 105), (95, 105), (95, 105), (95, 105), (95, 105), (95, 105), (70, 80), (80, 90), (45, 55), (50000, 48000), (27000, 29600), (1550, 1650), (3200, 3100), (2000, 1600)]

end Sys2Proof.Machine
end

