-- ==== Sys2Proof/Syntax.lean ====
section
/-! DEFINITION. The commands of the block and their operands. Unit numbers are bounded by their types; the fields of
sequencer and core instructions are bit vectors of their encoded widths. -/

namespace Sys2Proof

/-! ### Units -/

/-- Benches B000 to B159 (00_scope.md R9). -/
abbrev BenchId := Fin 160
/-- Clusters K00 to K15. -/
abbrev ClusterId := Fin 16
/-- Tenon cores by COREID (08_tenon.md, table after R258): 5 + k is the control core of cluster k. -/
abbrev CoreId := Fin 21
/-- HBM stacks S0 to S11. -/
abbrev StackId := Fin 12
/-- Compute dies C0 to C3. -/
abbrev DieId := Fin 4
/-- Dovetail links D0 to D5. -/
abbrev LinkId := Fin 6
/-- Ethernet ports E0 and E1. -/
abbrev PortId := Fin 2
/-- Valleys V00 to V39. -/
abbrev ValleyId := Fin 40
/-- PCIe functions: 0 the manager, 1 to 63 the instances. -/
abbrev FnId := Fin 64
/-- Rings of a function. -/
abbrev RingId := Fin 256
/-- Shelf channels. -/
abbrev ChanId := Fin 16
/-- Store queue pairs (14_shelf.md R386). -/
abbrev SqpId := Fin 1024
/-- Remote-memory queue pairs (16_rdma.md R439). -/
abbrev QpId := Fin 2048
/-- SPDM sessions (10_tenancy.md R304: at most 4). -/
abbrev SessId := Fin 4

/-! ### Sequencer instructions (03_benches.md R94) -/

/-- The slot of a sequencer instruction without its class and op: wait, split, bf, the two reserved bits and the
operand words a, b and c. -/
structure SeqWords where
  wait : BitVec 16
  split : Bool
  bf : Bool
  rsv : BitVec 2
  a : BitVec 32
  b : BitVec 32
  c : BitVec 32
  deriving DecidableEq, Repr

/-! ### Tenon operands (08_tenon.md R229 to R236) -/

/-- A general register number. -/
abbrev Gn := BitVec 4
/-- A pointer register number. -/
abbrev Pn := BitVec 3
/-- An accumulator number. -/
abbrev Cn := BitVec 2

/-- The ALU operations that take an immediate second operand (R236, class 0x1). -/
inductive AluOp where
  | add | addc | sub | subc | and | or | xor | not | neg | min | max | cmp | mov | mul
  | divs | divu | rems | remu | sext | zext
  deriving DecidableEq, Repr

/-- The second operand of class 0x1: imm14 of the short form or the second word of the long form. -/
inductive Imm where
  | short (v : BitVec 14)
  | long (v : BitVec 32)
  deriving DecidableEq, Repr

/-- A displacement: signed 12 bits or the second word of the long form (R235). -/
inductive Disp where
  | short (v : BitVec 12)
  | long (v : BitVec 32)
  deriving DecidableEq, Repr

/-- The target of class 0x8: a word offset of 19 bits, or of 32 bits in the long form. -/
inductive Target where
  | short (v : BitVec 19)
  | long (v : BitVec 32)
  deriving DecidableEq, Repr

/-- The fields of a shift (R236, class 0x2). -/
structure ShiftFields where
  gd : Gn
  gs : Gn
  gn : Gn
  amount : BitVec 5
  byReg : Bool
  low : BitVec 4
  deriving DecidableEq, Repr

/-- The address operand of a load or store (R235). In mode 4 and 5 gi and k take the place of the displacement. -/
structure MemOp where
  pn : Pn
  mode : BitVec 3
  gi : Gn
  k : BitVec 2
  d : Disp
  deriving DecidableEq, Repr

/-- The younger side-effect-free CPX operations that had begun at D when this command squashes them, and the bench
cycles they occupied (R264, R265). How far the pipeline had run ahead is timing, so the command brings it. -/
structure Squash where
  ops : BitVec 4
  cycles : BitVec 16
  deriving DecidableEq, Repr

/-- The fields of a CPX instruction (R260) but op. -/
structure CpxFields where
  unit : BitVec 4
  entry : BitVec 3
  dn : BitVec 4
  entry2 : BitVec 3
  sub : BitVec 7
  notify : Bool
  deriving DecidableEq, Repr

/-! ### Schedule, Plain and power operands -/

/-- What the power core measured over the cut and kerf that end (R480, R483): the valleys whose monitors all
reported at least 6% slack, and the energy of each valley in uJ. -/
structure KerfPower where
  ample : BitVec 40
  energy : List Nat
  deriving DecidableEq, Repr

/-- What the power core measured for a stretch latch (R484 to R486): draw outside the array and in stretch ticks,
in W, mean draw of the last period in W, and whether every limit sensor
stayed clear of its warning threshold by the margins of R485 throughout that period. -/
structure PowerSample where
  restW : Nat
  idleW : Option Nat
  periodW : Nat
  clear : Bool
  deriving DecidableEq, Repr

/-- Who stayed silent at a cut deadline (R194). -/
inductive Silent where
  | neighbour (j : LinkId)
  | valley (v : ValleyId)
  deriving DecidableEq, Repr

/-- The content of a seal flit (R189). Times are in 1/64 tick. -/
structure SealFlit where
  sealVal : BitVec 64
  kerf : BitVec 64
  arrival : Int
  rPeer : Int
  coeff : BitVec 32
  stretch : BitVec 16
  vote : Option (BitVec 64)
  stopCount : Option (BitVec 64)
  offset : Int
  fixed : Bool
  deriving DecidableEq, Repr

/-- A start record (R187); hashes holds the cutlist_hash of partition p in bits 384 p + 383 to 384 p, 0 where the member's
set does not name it. -/
structure StartRec where
  member : BitVec 16
  family : BitVec 384
  drawing : BitVec 384
  cutRun : BitVec 384
  hashes : BitVec 1536
  runId : BitVec 64
  ready : BitVec 64
  deriving DecidableEq, Repr

/-- A halt report (R193): the member, the cause and detail it raised, whether it differs from most neighbours. -/
structure HaltRep where
  member : BitVec 16
  cause : BitVec 8
  detail : BitVec 8
  faulting : Bool
  deriving DecidableEq, Repr

/-! ### Other operands -/

/-- What the medium gave for a shelf command: the pages that LDPC could not correct, as 16 times the stripe plus the channel
(R379), the spare blocks left in percent where blocks were retired (R405), and whether a cipher pair disagreed (R301). -/
structure MediaResult where
  unread : List Nat
  spare : Option (BitVec 7)
  mismatch : Bool
  deriving DecidableEq, Repr

/-- A RoCE v2 packet as the remote memory engine sees it (R436): ICRC good, ECN marked CE, destination queue pair,
opcode, AckReq, PSN, the RETH (address, rkey, length), the AETH syndrome and message number, the seal header's sender and counter, the pad count and
the tag of a sealed packet (R452), whether the cipher pair that opens it disagrees (10_tenancy.md R301), and the payload, which is
ciphertext with its pad where the queue pair is sealed. -/
structure RocePkt where
  icrcOk : Bool
  ce : Bool
  qp : BitVec 24
  opcode : BitVec 8
  ackReq : Bool
  psn : BitVec 24
  va : W64
  rkey : W32
  len : W32
  syndrome : BitVec 8
  msn : BitVec 24
  sender : W32
  counter : W64
  pad : BitVec 2
  tag : BitVec 128
  mismatch : Bool
  payload : List Byte
  deriving DecidableEq, Repr

/-- The reference sources of R460. -/
inductive RefSource where
  | ptpE0 | ptpE1 | ppsIn
  deriving DecidableEq, Repr

/-- The bindings of the management transport (R472): SMBus and I3C with the device's address there, or the address that a message
goes to (R534), and PCIe VDM. -/
inductive MgmtBus where
  | smbus (addr : BitVec 7)
  | i3c (addr : BitVec 7)
  | vdm
  deriving DecidableEq, Repr

/-- What reaches the MCTP endpoint beside PLDM (R472): an endpoint ID to take, a request for it, for the UUID, for the versions of a
message type, for the types taken or for the vendor's identifier, another control command; a message of another type or another
vendor-defined command; on I3C also the assignment of the dynamic address. -/
inductive MctpOp where
  | setEid (eid : BitVec 8)
  | getEid
  | getUuid
  | getVersion (type : BitVec 8)
  | getTypes
  | getVendor
  | control (cmd : BitVec 8)
  | other (type : BitVec 8)
  | i3cAddress (addr : BitVec 7)
  deriving DecidableEq, Repr

/-- A PLDM type 0 command (17_time.md R472): its code, and the PLDM type that it asks about. -/
structure PldmAsk where
  cmd : BitVec 8
  asked : BitVec 6
  deriving DecidableEq, Repr

/-- How a boot goes (09_firmware.md R273, R274): the step, 2 to 7, in which a core fails to start, and the units that fail
memory training or their tests and that step 8 maps out. -/
structure BootRun where
  failAt : Option (BitVec 3)
  badBenches : List BenchId
  badStacks : BitVec 12
  deriving DecidableEq, Repr

/-- A boot in which nothing fails. -/
def BootRun.good : BootRun := ⟨none, [], 0⟩

/-- The commands of the block: one constructor per row of the opcode table. -/
inductive Instr where
  /-- NOP (R95): Sequencer CTL instruction that does nothing when its wait expires. -/
  | nop (b : BenchId) (i : SeqWords)
  /-- END (R98): Ends the cut program; the bench then waits for the next cut start. -/
  | endProg (b : BenchId) (i : SeqWords)
  /-- LOOP (R97): Repeats the following 1 to 255 slots a stated number of times, without nesting. -/
  | loop (b : BenchId) (i : SeqWords)
  /-- WAITM (R543): Stalls the sequencer until the mover token counter reaches the stated value. -/
  | waitm (b : BenchId) (i : SeqWords)
  /-- SYNC (R543): Adds an increment to a cluster synchronization counter, then stalls until the counter reaches the target. -/
  | sync (b : BenchId) (i : SeqWords)
  /-- OPEN (R103): Starts an open window of L cycles that lends the vector, transcendental, ASAMP and CPX port to the control core. -/
  | openWin (b : BenchId) (i : SeqWords)
  /-- OPEN_WINDOW_END (R103): L cycles after OPEN the window ends and the sequencer resumes, or faults if no release has arrived. -/
  | openWindowEnd (b : BenchId)
  /-- MMT (R67): Tile-mode matrix multiply that adds a 16 x 64 output tile into one window set. -/
  | mmt (b : BenchId) (i : SeqWords)
  /-- MMS (R67): Stream-mode matrix multiply that adds one row against 64 columns into 64 windows. -/
  | mms (b : BenchId) (i : SeqWords)
  /-- ACLR (R73): Clears a range of windows to zero with special state 0 and anchor -32,768. -/
  | aclr (b : BenchId) (i : SeqWords)
  /-- AANC (R74): Loads window anchors from the prescan and a supplied anchor, under the split rule. -/
  | aanc (b : BenchId) (i : SeqWords)
  /-- AWB (R53): Rounds windows once to FP32 or BF16 and writes them to the bench store. -/
  | awb (b : BenchId) (i : SeqWords)
  /-- AEXP (R73): Writes windows as 16-byte partial records to the bench store. -/
  | aexp (b : BenchId) (i : SeqWords)
  /-- AIMP (R51): Adds partial records from the bench store into windows exactly and merges special states. -/
  | aimp (b : BenchId) (i : SeqWords)
  /-- ABIAS (R73): Adds one FP32 value per window as a term of kind FP32 single. -/
  | abias (b : BenchId) (i : SeqWords)
  /-- ASAMP (R63): Samples one token from up to 2^20 FP32 values with the draw generator. -/
  | asamp (b : BenchId) (i : SeqWords)
  /-- SPRE (R77): Prescans scales or exponents and writes the largest top exponent per window to the prescan buffer. -/
  | spre (b : BenchId) (i : SeqWords) (x : Slot)
  /-- SQNT (R56): Quantizes FP32 values from the bench store to an MX format, scale first. -/
  | sqnt (b : BenchId) (i : SeqWords)
  /-- SXCH (R77): Writes prescan results to the bench store as 16-bit anchors for an anchor exchange. -/
  | sxch (b : BenchId) (i : SeqWords)
  /-- VEC_ADD (R545): Adds two vector registers lane by lane in binary32. -/
  | vecAdd (b : BenchId) (i : SeqWords)
  /-- VEC_SUB (R545): Subtracts two vector registers lane by lane. -/
  | vecSub (b : BenchId) (i : SeqWords)
  /-- VEC_MUL (R545): Multiplies two vector registers lane by lane. -/
  | vecMul (b : BenchId) (i : SeqWords)
  /-- VEC_FMA (R545): Fused multiply-add of three vector registers, rounded once. -/
  | vecFma (b : BenchId) (i : SeqWords)
  /-- VEC_DIV (R545): Divides two vector registers lane by lane. -/
  | vecDiv (b : BenchId) (i : SeqWords)
  /-- VEC_SQRT (R545): Square root of each lane of a vector register. -/
  | vecSqrt (b : BenchId) (i : SeqWords)
  /-- VEC_MAX (R545): Lane-wise maximum under the NaN and signed-zero rules of R54. -/
  | vecMax (b : BenchId) (i : SeqWords)
  /-- VEC_MIN (R545): Lane-wise minimum under the NaN and signed-zero rules of R54. -/
  | vecMin (b : BenchId) (i : SeqWords)
  /-- VEC_CMP (R545): Lane-wise comparison writing 1 or 0 by compare code. -/
  | vecCmp (b : BenchId) (i : SeqWords)
  /-- VEC_SEL (R545): Lane-wise select between two registers by a third. -/
  | vecSel (b : BenchId) (i : SeqWords)
  /-- LDF (R545): Loads 512 FP32 values from the bench store into a vector register. -/
  | ldf (b : BenchId) (i : SeqWords)
  /-- STF (R545): Stores a vector register as 512 FP32 values to the bench store. -/
  | stf (b : BenchId) (i : SeqWords)
  /-- VEC_LDB (R545): Loads 512 BF16 values and converts them to FP32. -/
  | vecLdb (b : BenchId) (i : SeqWords)
  /-- VEC_STB (R545): Converts a register to BF16 and stores 1 KiB to the bench store. -/
  | vecStb (b : BenchId) (i : SeqWords)
  /-- VEC_MOVE (R545): Copies one vector register to another. -/
  | vecMove (b : BenchId) (i : SeqWords)
  /-- BCST (R545): Broadcasts an immediate to every lane of a vector register. -/
  | bcst (b : BenchId) (i : SeqWords)
  /-- VDRAW (R61): Evaluates the draw generator for 512 lanes into two registers. -/
  | vdraw (b : BenchId) (i : SeqWords)
  /-- VRED (R545): Sends 512 FP32 terms into one window of the accumulator tree. -/
  | vred (b : BenchId) (i : SeqWords)
  /-- TRN_EXP2 (R59): Transcendental primitive exp2 on 512 lanes. -/
  | trnExp2 (b : BenchId) (i : SeqWords)
  /-- TRN_EXP (R59): Transcendental primitive exp on 512 lanes. -/
  | trnExp (b : BenchId) (i : SeqWords)
  /-- TRN_LOG2 (R59): Transcendental primitive log2 on 512 lanes. -/
  | trnLog2 (b : BenchId) (i : SeqWords)
  /-- TRN_LOG (R59): Transcendental primitive log on 512 lanes. -/
  | trnLog (b : BenchId) (i : SeqWords)
  /-- TRN_RCP (R59): Transcendental primitive rcp on 512 lanes. -/
  | trnRcp (b : BenchId) (i : SeqWords)
  /-- TRN_RSQRT (R59): Transcendental primitive rsqrt on 512 lanes. -/
  | trnRsqrt (b : BenchId) (i : SeqWords)
  /-- TRN_TANH (R59): Transcendental primitive tanh on 512 lanes. -/
  | trnTanh (b : BenchId) (i : SeqWords)
  /-- TRN_SINPI (R59): Transcendental primitive sinpi on 512 lanes. -/
  | trnSinpi (b : BenchId) (i : SeqWords)
  /-- TRN_COSPI (R59): Transcendental primitive cospi on 512 lanes. -/
  | trnCospi (b : BenchId) (i : SeqWords)
  /-- MNS (R86): Mover transfer between bench store and near store. -/
  | mns (b : BenchId) (i : SeqWords) (x1 : Slot) (x2 : Slot)
  /-- MHB (R547): Mover transfer between bench store and HBM in a stack reservation. -/
  | mhb (b : BenchId) (i : SeqWords) (x1 : Slot) (x2 : Slot)
  /-- MBB (R546): Mover transfer from bench store to another bench's store over fabric or spline. -/
  | mbb (b : BenchId) (i : SeqWords) (x1 : Slot) (x2 : Slot)
  /-- MLK (R546): Mover transfer between bench store and a Dovetail slot. -/
  | mlk (b : BenchId) (i : SeqWords) (x1 : Slot) (x2 : Slot)
  /-- MAX (R546): Anchor exchange that sends an anchor array; the receiver keeps the element-wise maximum. -/
  | maxAnchors (b : BenchId) (i : SeqWords) (x1 : Slot) (x2 : Slot)
  /-- MOVER_TRANSFER_DONE (R87): A mover transfer completes and increments the mover token counter. -/
  | moverTransferDone (b : BenchId)
  /-- CUT_START (R96): At a cut's start tick each sequencer starts the cut program from its entry table. -/
  | cutStart
  /-- KERF_START (R114): At a cut's end tick the kerf begins with the Drain phase. -/
  | kerfStart
  /-- KERF_SEAL (R181): At kerf tick 4 each member launches its seal flit on every link in service. -/
  | kerfSeal
  /-- KERF_SERVICE (R114): From kerf tick 12 link replays, refresh and stretch ticks run. -/
  | kerfService
  /-- KERF_COMMIT (R114): Commit phase of the kerf applies swap, epoch and checkpoint stop, then the next cut starts. -/
  | kerfCommit (p : KerfPower)
  /-- CONFIG_EPOCH_APPLY (R368): A pending apply group takes effect at its kerf point or within 10 us when no partition runs. -/
  | configEpochApply
  /-- CUT_DEADLINE_EXPIRY (R194): A missing seal by kerf tick 256 or a missing Commit report raises a halt with cause HANG. -/
  | cutDeadlineExpiry (w : Silent)
  /-- STRETCH_LATCH (R196): At kerf 32(p-1) each member latches its power core's stretch request for period p. -/
  | stretchLatch (p : PowerSample)
  /-- FLIT_RELEASE (R172): A received flit is released 450 ns after its send tick and written to the bench store. -/
  | flitRelease (j : LinkId) (index : BitVec 16) (payload : List Byte) (fixed : Bool)
  /-- FLIT_LOST (R175): A codeword that does not correct is lost; lines are poisoned and a loss notice is sent. -/
  | flitLost (j : LinkId) (index : BitVec 16)
  /-- LOSS_NOTICE_RECEIVED (R176): The sender holds the named flit for replay in the kerf. -/
  | lossNoticeReceived (j : LinkId) (index : BitVec 16) (fixed : Bool)
  /-- REPLAY_FLIT_RECEIVED (R176): The receiver writes the first correctable replay copy whole and clears poison. -/
  | replayFlitReceived (j : LinkId) (index : BitVec 16) (payload : List Byte) (corrects fixed : Bool)
  /-- LINK_FAILURE (R178): At kerf tick 123 a link with unrestored losses or lost lock declares failure. -/
  | linkFailure (j : LinkId)
  /-- SEAL_FLIT_RECEIVED (R191): A neighbour's seal flit is compared and its votes, stretch, stop count and offsets are merged. -/
  | sealFlitReceived (j : LinkId) (f : SealFlit)
  /-- HALT_NOTICE_RECEIVED (R192): A member adopts the earliest halt kerf and forwards the notice. -/
  | haltNoticeReceived (j : LinkId) (value : BitVec 16) (fixed : Bool)
  /-- CHECKPOINT_NOTICE_RECEIVED (R511): A member with a pending demand TAKE adopts the earliest stop kerf, or halts if none is pending. -/
  | checkpointNoticeReceived (j : LinkId) (value : BitVec 16) (fixed : Bool)
  /-- LINK_IDENTITY (R184): Link identity control flit checks that the peer on Dj is the expected neighbour. -/
  | linkIdentity (j : LinkId) (formation : W64) (member : BitVec 16) (peerLink : BitVec 3) (fixed : Bool)
  /-- MUSTER_RECORD (R186): A Muster record is forwarded and compared with the member's own record. -/
  | musterRecord (j : LinkId) (record : List Byte) (fixed : Bool)
  /-- START_RECORD (R187): A start record is compared; when all agree the first cut's start tick is computed. -/
  | startRecord (j : LinkId) (record : StartRec) (fixed : Bool)
  /-- HALT_REPORT (R193): Halt reports are exchanged and the faulting member is named. -/
  | haltReport (j : LinkId) (report : HaltRep) (fixed : Bool)
  /-- MUSTER_TIMEOUT (R184): Formation not finished at the timeout ends with LINK_FAILED. -/
  | musterTimeout
  /-- RUN_START (R188): At the computed start tick the first cut of a run begins. -/
  | runStart
  /-- REFRESH_STEP (R220): At a refresh opportunity the controller runs a per-bank refresh step if its band requires it. -/
  | refreshStep (s : StackId)
  /-- STACK_TEMP_READ (R222): The controller reads its stack temperature at every kerf or every 1 ms. -/
  | stackTempRead (s : StackId) (temp : BitVec 8)
  /-- SELF_REFRESH_ENTRY (R223): An unnamed stack re-enters self-refresh after 1 ms without access. -/
  | selfRefreshEntry (s : StackId)
  /-- HBM_ECC_WRITE_BACK (R210): A corrected HBM line is written back as unscheduled traffic. -/
  | hbmEccWriteBack (s : StackId) (line : BitVec 30)
  /-- NST_ECC_WRITE_BACK (R205): A corrected or poisoned near-store line is rewritten as unscheduled traffic. -/
  | nstEccWriteBack (d : DieId) (line : BitVec 25)
  /-- SLOT_ZERO_REWRITE_DONE (R219): Rewriting a freed slot's lines completes and lets waiting commits to FILLING apply. -/
  | slotZeroRewriteDone (s : StackId) (granule : BitVec 20)
  /-- STACK_INTERFACE_FAILURE (R228): A failed stack interface leaves service and faults every partition with a region on it. -/
  | stackInterfaceFailure (s : StackId)
  /-- STACK_MAP_OUT_APPLY (R227): A pending stack map-out applies once no loaded cutlist names the stack. -/
  | stackMapOutApply (s : StackId)
  /-- BENCH_MAP_OUT_APPLY (R105): A pending bench map-out applies once no loaded cutlist schedules the bench. -/
  | benchMapOutApply (b : BenchId)
  /-- LINK_MAP_OUT_APPLY (R198): A pending link map-out applies when the Plain dissolves. -/
  | linkMapOutApply (j : LinkId)
  /-- ALU_ADD (R236): Tenon ALU add of two general registers. -/
  | aluAdd (k : CoreId) (gd : Gn) (gs1 : Gn) (gs2 : Gn)
  /-- ALU_ADDC (R236): Tenon ALU add with carry. -/
  | aluAddc (k : CoreId) (gd : Gn) (gs1 : Gn) (gs2 : Gn)
  /-- ALU_SUB (R236): Tenon ALU subtract. -/
  | aluSub (k : CoreId) (gd : Gn) (gs1 : Gn) (gs2 : Gn)
  /-- ALU_SUBC (R236): Tenon ALU subtract with borrow. -/
  | aluSubc (k : CoreId) (gd : Gn) (gs1 : Gn) (gs2 : Gn)
  /-- ALU_AND (R236): Tenon ALU bitwise and. -/
  | aluAnd (k : CoreId) (gd : Gn) (gs1 : Gn) (gs2 : Gn)
  /-- ALU_OR (R236): Tenon ALU bitwise or. -/
  | aluOr (k : CoreId) (gd : Gn) (gs1 : Gn) (gs2 : Gn)
  /-- ALU_XOR (R236): Tenon ALU bitwise xor. -/
  | aluXor (k : CoreId) (gd : Gn) (gs1 : Gn) (gs2 : Gn)
  /-- ALU_NOT (R236): Tenon ALU bitwise not. -/
  | aluNot (k : CoreId) (gd : Gn) (gs1 : Gn) (gs2 : Gn)
  /-- ALU_NEG (R236): Tenon ALU negate. -/
  | aluNeg (k : CoreId) (gd : Gn) (gs1 : Gn) (gs2 : Gn)
  /-- ALU_MIN (R236): Tenon ALU minimum. -/
  | aluMin (k : CoreId) (gd : Gn) (gs1 : Gn) (gs2 : Gn)
  /-- ALU_MAX (R236): Tenon ALU maximum. -/
  | aluMax (k : CoreId) (gd : Gn) (gs1 : Gn) (gs2 : Gn)
  /-- ALU_CMP (R237): Tenon ALU compare that sets the flags of SW. -/
  | aluCmp (k : CoreId) (gd : Gn) (gs1 : Gn) (gs2 : Gn)
  /-- ALU_MOV (R236): Tenon ALU register move. -/
  | aluMov (k : CoreId) (gd : Gn) (gs1 : Gn) (gs2 : Gn)
  /-- ALU_MUL (R236): Tenon ALU multiply, low 32 bits. -/
  | aluMul (k : CoreId) (gd : Gn) (gs1 : Gn) (gs2 : Gn)
  /-- DIVS (R238): Signed divide with defined results for zero divisor and overflow. -/
  | divs (k : CoreId) (gd : Gn) (gs1 : Gn) (gs2 : Gn)
  /-- DIVU (R238): Unsigned divide. -/
  | divu (k : CoreId) (gd : Gn) (gs1 : Gn) (gs2 : Gn)
  /-- REMS (R238): Signed remainder. -/
  | rems (k : CoreId) (gd : Gn) (gs1 : Gn) (gs2 : Gn)
  /-- REMU (R238): Unsigned remainder. -/
  | remu (k : CoreId) (gd : Gn) (gs1 : Gn) (gs2 : Gn)
  /-- SEXT (R236): Sign extension. -/
  | sext (k : CoreId) (gd : Gn) (gs1 : Gn) (gs2 : Gn)
  /-- ZEXT (R236): Zero extension. -/
  | zext (k : CoreId) (gd : Gn) (gs1 : Gn) (gs2 : Gn)
  /-- ALU_IMMEDIATE (R236): ALU operation with an immediate second operand, short or long form. -/
  | aluImmediate (k : CoreId) (op : Option AluOp) (gd : Gn) (gs : Gn) (imm : Imm)
  /-- MOVI (R236): Moves an immediate into a general register. -/
  | movi (k : CoreId) (gd : Gn) (imm : Imm)
  /-- SHL (R236): Shift left. -/
  | shl (k : CoreId) (f : ShiftFields)
  /-- SHR (R236): Logical shift right. -/
  | shr (k : CoreId) (f : ShiftFields)
  /-- SAR (R236): Arithmetic shift right. -/
  | sar (k : CoreId) (f : ShiftFields)
  /-- ROL (R236): Rotate left. -/
  | rol (k : CoreId) (f : ShiftFields)
  /-- ROR (R236): Rotate right. -/
  | ror (k : CoreId) (f : ShiftFields)
  /-- BIT_FIELD_EXTRACT (R236): Extracts a bit field. -/
  | bitFieldExtract (k : CoreId) (f : ShiftFields)
  /-- BIT_FIELD_INSERT (R236): Inserts a bit field. -/
  | bitFieldInsert (k : CoreId) (f : ShiftFields)
  /-- MAC (R240): Adds a signed 64-bit product into an accumulator. -/
  | mac (k : CoreId) (cn : Cn) (gx : Gn) (gy : Gn)
  /-- MSU (R240): Subtracts a signed product from an accumulator. -/
  | msu (k : CoreId) (cn : Cn) (gx : Gn) (gy : Gn)
  /-- MACU (R240): Adds an unsigned product into an accumulator. -/
  | macu (k : CoreId) (cn : Cn) (gx : Gn) (gy : Gn)
  /-- MSUU (R240): Subtracts an unsigned product from an accumulator. -/
  | msuu (k : CoreId) (cn : Cn) (gx : Gn) (gy : Gn)
  /-- MULC (R240): Writes a product to an accumulator. -/
  | mulc (k : CoreId) (cn : Cn) (gx : Gn) (gy : Gn) (unsigned : Bool)
  /-- ACL (R241): Clears an accumulator. -/
  | acl (k : CoreId) (cn : Cn)
  /-- CMOV (R241): Copies one accumulator to another. -/
  | cmov (k : CoreId) (cn : Cn) (src : Cn)
  /-- MVC (R241): Shifts an accumulator and moves it to a general register, saturating or wrapping. -/
  | mvc (k : CoreId) (gd : Gn) (cn : Cn) (sh : BitVec 6)
  /-- MVGC (R241): Loads an accumulator from two general registers. -/
  | mvgc (k : CoreId) (cn : Cn) (gx : Gn) (gy : Gn)
  /-- LDB (R234): Loads a signed byte. -/
  | ldb (k : CoreId) (gd : Gn) (m : MemOp)
  /-- LDBU (R234): Loads an unsigned byte. -/
  | ldbu (k : CoreId) (gd : Gn) (m : MemOp)
  /-- LDH (R234): Loads a signed halfword. -/
  | ldh (k : CoreId) (gd : Gn) (m : MemOp)
  /-- LDHU (R234): Loads an unsigned halfword. -/
  | ldhu (k : CoreId) (gd : Gn) (m : MemOp)
  /-- LDW (R235): Loads a word using one of eight address modes. -/
  | ldw (k : CoreId) (gd : Gn) (m : MemOp)
  /-- LDP (R234): Loads a pointer register. -/
  | ldp (k : CoreId) (pd : Pn) (m : MemOp)
  /-- LDC (R234): Loads an accumulator from 16 bytes. -/
  | ldc (k : CoreId) (cn : Cn) (m : MemOp)
  /-- STB (R234): Stores a byte. -/
  | stb (k : CoreId) (gs : Gn) (m : MemOp)
  /-- STH (R234): Stores a halfword. -/
  | sth (k : CoreId) (gs : Gn) (m : MemOp)
  /-- STW (R234): Stores a word. -/
  | stw (k : CoreId) (gs : Gn) (m : MemOp)
  /-- STP (R234): Stores a pointer register. -/
  | stp (k : CoreId) (ps : Pn) (m : MemOp)
  /-- STC (R234): Stores an accumulator as 16 bytes with sign-extended guard bits. -/
  | stc (k : CoreId) (cn : Cn) (m : MemOp)
  /-- PADR (R236): Computes Ps plus imm12 into Pd. -/
  | padr (k : CoreId) (pd : Pn) (ps : Pn) (imm : Disp)
  /-- PADD (R236): Pointer add. -/
  | padd (k : CoreId) (pd : Pn) (ps : Pn) (gi : Gn)
  /-- PSUB (R236): Pointer subtract. -/
  | psub (k : CoreId) (pd : Pn) (ps : Pn) (gi : Gn)
  /-- PMOV (R236): Pointer move. -/
  | pmov (k : CoreId) (pd : Pn) (ps : Pn)
  /-- PGET (R229): Moves a pointer register to a general register. -/
  | pget (k : CoreId) (ps : Pn) (gi : Gn)
  /-- PPUT (R229): Moves a general register to a pointer register. -/
  | pput (k : CoreId) (pd : Pn) (gi : Gn)
  /-- PCMP (R237): Pointer compare that sets flags. -/
  | pcmp (k : CoreId) (pd : Pn) (ps : Pn)
  /-- BRANCH (R243): Conditional or unconditional branch with static prediction. -/
  | branch (k : CoreId) (cond : BitVec 4) (off : BitVec 24) (sq : Squash)
  /-- CALL (R245): Pushes the return address and jumps. -/
  | call (k : CoreId) (off : Target)
  /-- CALLP (R245): Calls through a pointer register. -/
  | callp (k : CoreId) (pn : Pn)
  /-- JMP (R236): Jumps by offset. -/
  | jmp (k : CoreId) (off : Target)
  /-- JMPP (R236): Jumps through a pointer register. -/
  | jmpp (k : CoreId) (pn : Pn)
  /-- MFS (R239): Reads a system register, subject to privilege. -/
  | mfs (k : CoreId) (gd : Gn) (sr : BitVec 10)
  /-- MTS (R239): Writes a system register, subject to privilege. -/
  | mts (k : CoreId) (gs : Gn) (sr : BitVec 10)
  /-- RET (R245): Returns from a call. -/
  | ret (k : CoreId)
  /-- RETI (R246): Restores SW and PC from the exception frame. -/
  | reti (k : CoreId) (sq : Squash)
  /-- TRAP (R248): Raises exception TRAP. -/
  | trap (k : CoreId) (sq : Squash)
  /-- FENCE (R244): Waits until posted stores and side-effecting CPX operations are accepted. -/
  | fence (k : CoreId)
  /-- WAIT (R251): Stops issue until an interrupt qualifies or WDT arrives. -/
  | wait (k : CoreId)
  /-- HALT (R239): Privileged halt of the core. -/
  | halt (k : CoreId)
  /-- REP (R252): Repeats the next instruction n times, interruptibly. -/
  | rep (k : CoreId) (n : BitVec 16)
  /-- REPG (R252): Repeats the next instruction a count taken from a general register. -/
  | repg (k : CoreId) (gn : Gn)
  /-- REPN (R254): Non-interruptible repeat of up to 64 iterations. -/
  | repn (k : CoreId) (n : BitVec 16)
  /-- INTERRUPT_ASSERT (R249): An interrupt line asserts and is taken when it qualifies. -/
  | interruptAssert (k : CoreId) (line : BitVec 5) (sq : Squash)
  /-- WDT_EXPIRY (R258): Watchdog expiry raises WDT first and resets the core on the second. -/
  | wdtExpiry (k : CoreId) (sq : Squash)
  /-- SYSTEM_WINDOW_TIMEOUT (R233): A system-window access unanswered for 2 us raises BUS. -/
  | systemWindowTimeout (k : CoreId) (addr : W32) (sq : Squash)
  /-- CLD (R261): CPX load of bench-store lines into a result buffer entry. -/
  | cld (k : CoreId) (x : CpxFields)
  /-- CVEC (R261): CPX vector operation into a result buffer entry. -/
  | cvec (k : CoreId) (x : CpxFields)
  /-- CTRN (R261): CPX transcendental primitive into a result buffer entry. -/
  | ctrn (k : CoreId) (x : CpxFields)
  /-- CDRAW (R261): CPX draw generator into two result buffer entries. -/
  | cdraw (k : CoreId) (x : CpxFields)
  /-- CSAMP (R261): CPX sampling into lane 0 of an entry. -/
  | csamp (k : CoreId) (x : CpxFields)
  /-- CRD (R261): Reads a lane of an entry into a general register. -/
  | crd (k : CoreId) (x : CpxFields)
  /-- CWR (R261): Writes a general register into a lane of an entry. -/
  | cwr (k : CoreId) (x : CpxFields)
  /-- CWAIT (R261): Stalls until earlier CPX operations for the unit complete. -/
  | cwait (k : CoreId) (x : CpxFields)
  /-- CWB (R261): Writes entry lines to the bench store at retire. -/
  | cwb (k : CoreId) (x : CpxFields)
  /-- CMOVC (R261): Cluster mover copy between bench stores. -/
  | cmovc (k : CoreId) (x : CpxFields)
  /-- CROUTE (R136): Runs the bounded exchange routing step for a descriptor. -/
  | croute (k : CoreId) (x : CpxFields)
  /-- CSYNC (R261): Adds to a cluster synchronization counter. -/
  | csync (k : CoreId) (x : CpxFields)
  /-- CREL (R103): Releases the bench's open window. -/
  | crel (k : CoreId) (x : CpxFields)
  /-- CPX_OP_COMPLETE (R259): A CPX operation retires, its entry becomes visible and notify raises line 2. -/
  | cpxOpComplete (c : ClusterId) (unit : BitVec 4)
  /-- LOAD (R128): Fits and commits a member set of cutlists to its partitions. -/
  | load (i : FnId) (r : RingId) (commits : Bool)
  /-- START (R132): Starts or resumes a run after the start round. -/
  | start (i : FnId) (r : RingId)
  /-- STAGE (R140): Fits a successor member set and names a swap point. -/
  | stage (i : FnId) (r : RingId) (commits : Bool)
  /-- STOP (R133): Fixes the stop count and halts the member set at its stop kerf. -/
  | stop (i : FnId) (r : RingId)
  /-- UNLOAD (R126): Releases a partition's cutlist and returns it to EMPTY. -/
  | unload (i : FnId) (r : RingId)
  /-- MUSTER (R184): Requests formation of a Plain with its shape and timeout. -/
  | muster (i : FnId) (r : RingId)
  /-- DISSOLVE (R183): Ends a formed Plain. -/
  | dissolve (i : FnId) (r : RingId)
  /-- PAGE_COMMIT (R160): Requests a state change of a range of page slots. -/
  | pageCommit (i : FnId) (r : RingId)
  /-- CHECKPOINT_TAKE (R508): Schedules a checkpoint at a stop kerf and writes shards and manifest. -/
  | checkpointTake (i : FnId) (r : RingId)
  /-- MANIFEST_COMMIT (R514): After the last shard acknowledge the signed manifest is written and committed. mismatch: a cipher pair disagrees (R301). -/
  | manifestCommit (mismatch : Bool)
  /-- CHECKPOINT_RESTORE (R520): Verifies and restores a checkpoint onto loaded or halted partitions. mismatch: a cipher pair disagrees (R301). -/
  | checkpointRestore (i : FnId) (r : RingId) (mismatch : Bool)
  /-- ASSIGN (R351): Assigns a partition with a cluster mask and role mask to an instance. -/
  | assign (r : RingId)
  /-- RELEASE (R351): Releases an EMPTY partition from its instance. -/
  | release (r : RingId)
  /-- GRANT (R351): Grants a range of device units to an instance's local indices. -/
  | grant (r : RingId)
  /-- REVOKE (R351): Revokes granted units; operations in flight complete with QUEUE_RESET. -/
  | revoke (r : RingId)
  /-- FREEZE (R354): Stops an instance's partitions and drains its rings to FROZEN. -/
  | freeze (r : RingId)
  /-- SAVE (R355): Writes an encrypted migration image of a frozen instance. mismatch: a cipher pair disagrees (R301). -/
  | save (r : RingId) (mismatch : Bool)
  /-- RESTORE (R356): Restores a migration image into a target instance. mismatch: a cipher pair disagrees (R301). -/
  | restoreImage (r : RingId) (mismatch : Bool)
  /-- THAW (R351): Moves an instance from FROZEN to ACTIVE. -/
  | thaw (r : RingId)
  /-- MBX_SEND (R358): An instance sends a mailbox message to the manager. -/
  | mbxSend (i : FnId) (r : RingId)
  /-- RECV_BUF (R359): The manager posts a 4 KiB mailbox receive buffer. -/
  | recvBuf (r : RingId)
  /-- MANAGER_MBX_SEND (R359): The manager delivers a message into an instance's mailbox slot. -/
  | managerMbxSend (r : RingId)
  /-- INS_MBX_ACK (R359): An instance acknowledges a mailbox slot by sequence. -/
  | insMbxAck (i : FnId) (seq : W32)
  /-- INS_UPDATE (R335): Applies the instance's buffered RWB fields within 1 us. -/
  | insUpdate (i : FnId) (v : W32)
  /-- DOORBELL (R338): A producer or consumed count written to BAR2 is accepted or ignored. -/
  | doorbell (i : FnId) (r : RingId) (v : W64)
  /-- QUEUE_RESET (R345): Stops fetching, completes unstarted descriptors and disables the ring. -/
  | queueReset (i : FnId) (r : RingId)
  /-- DESCRIPTOR_FETCH (R339): The device fetches descriptors a doorbell covers. -/
  | descriptorFetch (i : FnId) (r : RingId) (err : Bool)
  /-- COMPLETION_WRITE (R342): A waiting completion is written once the CPL ring has room. -/
  | completionWrite (i : FnId) (r : RingId) (err : Bool)
  /-- MSIX_MESSAGE (R343): An EVT or CPL ring signals its vector by count, moderation time or now flag. -/
  | msixMessage (i : FnId) (r : RingId)
  /-- GLB_UPDATE (R367): Moves the named blocks' buffers into pending apply groups. -/
  | glbUpdate (v : W32)
  /-- GLB_DISCARD (R370): Empties the named blocks' write buffers. -/
  | glbDiscard (v : W32)
  /-- GLB_COMPAT (R377): Enters or leaves AQ-E7 compatibility mode at once, unless refused. -/
  | glbCompat (v : W32)
  /-- REGISTER_WRITE (R367): Write to a register without a row of its own: buffered, immediate, W1C, W1S or posted. -/
  | registerWrite (i : FnId) (addr : BitVec 28) (wide : Bool) (v : W64)
  /-- RWT_SCRUB (R373): Each home valley scrubs its triple-stored fields at least every 1 us. -/
  | rwtScrub (v : ValleyId)
  /-- DOWNLOAD (R280): Writes and verifies a firmware bundle in the bank not booted. -/
  | download
  /-- ACTIVATE (R281): Moves selected cores to the staged bundle at their quiet points. -/
  | activate
  /-- COMMIT (R282): Fuses the bundle's svn and marks the ATTEMPT bank COMMITTED. -/
  | commit
  /-- ABANDON (R283): Rejects the TRIAL or ATTEMPT bank and returns cores to old images. -/
  | abandon
  /-- BOOT (R273): From security core reset release, the ROM selects a bank and boots every core. -/
  | boot (r : BootRun)
  /-- ARM (R286): Moves the binding state from UNBOUND to ARMED. -/
  | arm
  /-- DISARM (R286): Moves the binding state from ARMED to UNBOUND. -/
  | disarm
  /-- SEC_CTRL_UNBIND (R298): The manager's route to unbind and crypto-erase the module. steps: steps of the unbind done when the next command comes, at least one (log 12). -/
  | secCtrlUnbind (steps : BitVec 4)
  /-- DEBUG_TICKET (R310): Checks a debug consent ticket and grants its rights. -/
  | debugTicket
  /-- DEBUG_LOCK (R310): Ends every debug right. -/
  | debugLock
  /-- DEBUG_RIGHTS_EXPIRY (R524): When not_after passes the debug rights end and V39 powers off. -/
  | debugRightsExpiry
  /-- BIND_NONCE (R294): Returns a fresh device nonce in the SPDM session. vendor: the message carries the Ihlangen vendor identifier. -/
  | bindNonce (n : SessId) (vendor : Bool)
  /-- BIND (R296): Checks a signed binding request, keys the line ciphers and zeroizes HBM. vendor: the message carries the Ihlangen vendor identifier; steps: steps of R296 done when the next command comes, at least
  one (log 12). -/
  | bind (n : SessId) (vendor : Bool) (req : List Byte) (steps : BitVec 4)
  /-- UNBIND (R298): Tenant-signed unbind that zeroizes and crypto-erases the module. vendor: the message carries the Ihlangen vendor identifier; steps: steps of the unbind done when the next command comes, at
  least one (log 12). -/
  | unbind (n : SessId) (vendor : Bool) (sig : List Byte) (nonce : List Byte) (steps : BitVec 4)
  /-- GET_VERSION (R304): SPDM request answered with version 1.2. -/
  | getVersion (i : FnId)
  /-- GET_CAPABILITIES (R304): SPDM capabilities request. -/
  | getCapabilities (i : FnId) (unsupported : Bool)
  /-- NEGOTIATE_ALGORITHMS (R304): SPDM algorithm negotiation. -/
  | negotiateAlgorithms (i : FnId) (offered : Bool)
  /-- GET_DIGESTS (R304): SPDM certificate chain digests. -/
  | getDigests (i : FnId)
  /-- GET_CERTIFICATE (R304): SPDM certificate chain of slot 0. -/
  | getCertificate (i : FnId) (slot : BitVec 8)
  /-- CHALLENGE (R304): SPDM challenge signed by the alias key. -/
  | challenge (i : FnId) (slot : BitVec 8) (nonce : List Byte)
  /-- GET_MEASUREMENTS (R304): SPDM measurement blocks of the running images and binding. -/
  | getMeasurements (i : FnId) (index : BitVec 8)
  /-- KEY_EXCHANGE (R304): Opens an SPDM session, at most 4 at once. -/
  | keyExchange (i : FnId) (mutualAuth : Bool)
  /-- FINISH (R304): SPDM session handshake finish. -/
  | finish (n : SessId) (ok : Bool)
  /-- HEARTBEAT (R304): SPDM session heartbeat. -/
  | heartbeat (n : SessId)
  /-- KEY_UPDATE (R304): SPDM session key update. -/
  | keyUpdate (n : SessId)
  /-- END_SESSION (R304): Ends an SPDM session. -/
  | endSession (n : SessId)
  /-- DOE_OBJECT (R313): A DOE object of an unsupported protocol is answered with Discovery and discarded. -/
  | doeObject (i : FnId) (protocol : BitVec 8)
  /-- ATOMICOP_REQUEST (R313): An AtomicOp to any BAR completes with Unsupported Request. -/
  | atomicopRequest (i : FnId) (addr : W64)
  /-- PERST_N_ASSERT (R327): Fundamental reset performs an L4 of the whole device. -/
  | perstNAssert
  /-- PERST_N_DEASSERT (R537): Releases the security core reset and starts boot. -/
  | perstNDeassert
  /-- FLR (R325): Function Level Reset of an instance fences its partitions and resets its state. -/
  | flr (i : FnId)
  /-- MANAGER_FLR (R326): FLR of the manager performs an L3 and resets every instance. -/
  | managerFlr
  /-- VF_ENABLE (R323): Setting VF Enable creates the instances with their vector counts. -/
  | vfEnable
  /-- D3HOT_ENTRY (R329): Manager enters D3hot; endpoint answers configuration only. -/
  | d3hotEntry (pme : Bool)
  /-- LOWPOWER_ENTRY (R329): 50 ms after idle conditions hold in D3hot, the draw is lowered. -/
  | lowpowerEntry
  /-- D0_ENTRY (R330): Manager returns to D0 and services any pending wake. -/
  | d0Entry
  /-- INSTANCE_D3HOT (R328): An instance in D3hot stops its rings and DMA. -/
  | instanceD3hot (i : FnId)
  /-- PME_RESEND (R332): PM_PME is resent every 100 ms while PME_Status stays set in D3hot. -/
  | pmeResend
  /-- NS_CREATE (R383): Creates a thin shelf namespace. -/
  | nsCreate
  /-- NS_DELETE (R383): Unmaps and removes a namespace. -/
  | nsDelete
  /-- NS_FORMAT (R384): Unmaps every LBA of a namespace in one journalled step. -/
  | nsFormat
  /-- NS_FORMAT_DONE (R384): A format completes, waiting commands start and shelf_done is set. -/
  | nsFormatDone (ns : BitVec 8)
  /-- SANITIZE (R407): Erases every block of the shelf and resets the mapping table. -/
  | sanitize
  /-- SANITIZE_DONE (R407): A sanitize finishes and sets shelf_done. -/
  | sanitizeDone (spare : BitVec 7)
  /-- SHELF_READ (R390): Reads shelf blocks to a host or device address. -/
  | shelfRead (q : SqpId) (slot : BitVec 12)
  /-- SHELF_WRITE (R394): Writes shelf blocks from a host or device address. -/
  | shelfWrite (q : SqpId) (slot : BitVec 12)
  /-- SHELF_FLUSH (R394): Barrier for earlier writes and trims of its queue pair. -/
  | shelfFlush (q : SqpId) (slot : BitVec 12)
  /-- SHELF_TRIM (R390): Unmaps shelf blocks. -/
  | shelfTrim (q : SqpId) (slot : BitVec 12)
  /-- SHELF_STATUS (R390): Reports shelf state, sanitize and spare percent and namespace size. -/
  | shelfStatus (q : SqpId) (slot : BitVec 12)
  /-- SHELF_COMMAND_DONE (R393): A shelf command completes and overlapping waiters may start. -/
  | shelfCommandDone (q : SqpId) (slot : BitVec 12) (m : MediaResult)
  /-- CHANNEL_FAILURE (R381): A channel leaves service and the shelf rebuilds on the remaining channels. -/
  | channelFailure (ch : ChanId)
  /-- REBUILD_DONE (R381): A stripe rebuild completes. -/
  | rebuildDone
  /-- SHELF_IDLE_TIMEOUT (R409): After idle_ms without commands the shelf enters SP2 or SP3. -/
  | shelfIdleTimeout
  /-- DATA_REFRESH (R406): Background rewrite of aged or error-prone blocks. -/
  | dataRefresh (ns : BitVec 8) (lba : BitVec 40)
  /-- FRAME_RECEIVED (R420): A received frame is parsed, classified and acted on. -/
  | frameReceived (p : PortId) (bytes : List Byte) (fcsOk : Bool) (mismatch : Bool)
  /-- SLOW_PATH_SERVICE (R416): Service core 1 answers ARP, ND and echo or drops a held frame. -/
  | slowPathService (p : PortId)
  /-- POST (R427): Posts a receive buffer to an Ethernet queue. -/
  | post (i : FnId) (r : RingId)
  /-- ETH_SEND (R430): Queues a frame for transmit with optional tag, checksum and seal. -/
  | ethSend (i : FnId) (r : RingId) (mismatch : Bool)
  /-- SET_FLOW_KEY (R425): Binds a flow label and sender identifier to a flow key slot. -/
  | setFlowKey (i : FnId) (r : RingId)
  /-- TX_FRAME_START (R433): At each frame start the port chooses a frame and charges the node tokens. -/
  | txFrameStart (p : PortId)
  /-- FRAME_TRANSMITTED (R431): A frame's last byte is on the line and its SEND completes. -/
  | frameTransmitted (p : PortId)
  /-- PORT_UP (R411): Auto-negotiation brings the port up in the highest common mode. -/
  | portUp (p : PortId) (peerModes : BitVec 4)
  /-- PORT_DOWN (R414): A port goes down; waiting SENDs complete with LINK_FAILED. -/
  | portDown (p : PortId)
  /-- LANE_LOSS_OF_LOCK (R413): A lane loses lock; repeated losses map it out and the port retrains. -/
  | laneLossOfLock (p : PortId) (lane : BitVec 2)
  /-- RULE_SET_COMMIT (R422): Reads and checks a new classifier rule set. -/
  | ruleSetCommit (p : PortId)
  /-- RULE_SET_SWITCH (R422): Switches to the checked rule set between frames and increments the version. -/
  | ruleSetSwitch (p : PortId)
  /-- RMA_WRITE (R444): Remote-memory WRITE work request. mismatch: a cipher pair disagrees (R301). -/
  | rmaWrite (i : FnId) (r : RingId) (mismatch : Bool)
  /-- RMA_READ (R444): Remote-memory READ work request. mismatch: a cipher pair disagrees (R301). -/
  | rmaRead (i : FnId) (r : RingId) (mismatch : Bool)
  /-- QP_MODIFY (R441): Moves a queue pair between states. -/
  | qpModify (i : FnId) (r : RingId)
  /-- PEER_RESOLVE_TIMEOUT (R441): A peer address unresolved in 1 s completes the move to RTR with LINK_FAILED. -/
  | peerResolveTimeout (q : QpId)
  /-- REG (R442): Registers device memory for peers and returns an rkey. -/
  | reg (i : FnId) (r : RingId)
  /-- DEREG (R443): Ends a registration after its accesses finish. -/
  | dereg (i : FnId) (r : RingId)
  /-- QP_SEAL (R452): Seals a queue pair in INIT with a purpose 0x08 label. -/
  | qpSeal (i : FnId) (r : RingId)
  /-- ATTACH (R454): Joins a store queue pair to a remote-memory queue pair. -/
  | attach (i : FnId) (r : RingId)
  /-- RDMA_WRITE_PACKET (R447): A peer's RDMA WRITE packet is checked and executed by PSN. -/
  | rdmaWritePacket (p : RocePkt)
  /-- RDMA_READ_REQUEST (R447): A peer's RDMA READ Request is checked and answered. -/
  | rdmaReadRequest (p : RocePkt)
  /-- RDMA_READ_RESPONSE (R445): A read response packet writes data to local memory. -/
  | rdmaReadResponse (p : RocePkt)
  /-- ACKNOWLEDGE (R445): An acknowledge advances the oldest unacknowledged PSN and completes WRITEs. -/
  | acknowledge (p : RocePkt)
  /-- NAK_RECEIVED (R448): A NAK fails the named work request or starts go-back-N. -/
  | nakReceived (p : RocePkt)
  /-- CNP_RECEIVED (R453): A CNP lowers the queue pair's current rate. -/
  | cnpReceived (p : RocePkt)
  /-- RETRANSMIT_TIMEOUT (R450): No progress within T retransmits go-back-N or fails the queue pair. -/
  | retransmitTimeout (q : QpId)
  /-- RATE_DECAY_TIMER (R453): Every 55 us without CNP the fraction a decays. -/
  | rateDecayTimer (q : QpId)
  /-- RATE_INCREASE_TIMER (R453): Every 300 us without CNP the rate rises toward the target. -/
  | rateIncreaseTimer (q : QpId)
  /-- PTP_SYNC (R462): A PTP Sync message updates the offset measurement. -/
  | ptpSync (p : PortId) (offset : Int)
  /-- PTP_ANNOUNCE (R462): A PTP Announce message keeps a source alive. -/
  | ptpAnnounce (p : PortId)
  /-- REFERENCE_LOSS (R461): Announce, Sync or PPS_IN timeout loses a source; device switches or enters HOLDOVER. -/
  | referenceLoss (src : RefSource)
  /-- REFERENCE_QUALIFIED (R464): A source qualifies; the device slews, steps or stands still to reach it. -/
  | referenceQualified (src : RefSource) (d : Int)
  /-- PPS_IN_EDGE (R460): A PPS_IN rising edge gives phase to the time unit. -/
  | ppsInEdge (d : Int)
  /-- SECOND_BOUNDARY (R466): At each second boundary PPS_OUT rises and the RTC takes device time. -/
  | secondBoundary
  /-- HOLDOVER_EXPIRY (R464): After 24 h of HOLDOVER the state becomes FREERUN. -/
  | holdoverExpiry
  /-- RTC_ALARM (R468): The real-time clock reaches the alarm and sets rtc_alarm. -/
  | rtcAlarm
  /-- SUPERCAP_EMPTY (R467): The RTC loses its supercapacitor, restarts at 0 and becomes invalid. -/
  | supercapEmpty
  /-- SENSOR_SAMPLE (R469): V38 samples every sensor at least every 10 ms. -/
  | sensorSample (vals : List Int)
  /-- MCTP_CONTROL (R472): MCTP control message on SMBus, I3C or PCIe VDM. -/
  | mctpControl (bus : MgmtBus) (op : MctpOp)
  /-- PLDM_DISCOVERY (R472): PLDM type 0 discovery command. -/
  | pldmDiscovery (bus : MgmtBus) (type : BitVec 6) (ask : PldmAsk)
  /-- GET_TID (R472): PLDM GetTID. -/
  | getTid (bus : MgmtBus)
  /-- SET_EVENT_RECEIVER (R472): PLDM SetEventReceiver. -/
  | setEventReceiver (bus : MgmtBus) (eid : Option (BitVec 8))
  /-- GET_PDR_REPOSITORY_INFO (R472): PLDM GetPDRRepositoryInfo. -/
  | getPdrRepositoryInfo (bus : MgmtBus)
  /-- GET_PDR (R472): PLDM GetPDR. -/
  | getPdr (bus : MgmtBus) (record : W32)
  /-- GET_SENSOR_READING (R472): PLDM GetSensorReading. -/
  | getSensorReading (bus : MgmtBus) (id : BitVec 16)
  /-- SET_NUMERIC_SENSOR_ENABLE (R472): PLDM SetNumericSensorEnable. -/
  | setNumericSensorEnable (bus : MgmtBus) (id : BitVec 16) (op : BitVec 8)
  /-- GET_SENSOR_THRESHOLDS (R472): PLDM GetSensorThresholds. -/
  | getSensorThresholds (bus : MgmtBus) (id : BitVec 16)
  /-- HOST_ATTENTION (R472): Vendor command that sets mgmt_request. -/
  | hostAttention (bus : MgmtBus)
  /-- SMBUS_ARBITRATION_LOST (R473): The device loses SMBus arbitration and releases the bus. -/
  | smbusArbitrationLost
  /-- SMBUS_RETRY (R473): After the back-off the device retries, dropping after 8 losses. -/
  | smbusRetry (lost : Bool)
  /-- LOG_READ (R478): Copies the lifetime log to manager memory. -/
  | logRead
  /-- HOURLY_SAVE (R477): Counters and the open calendar day are saved hourly. -/
  | hourlySave
  /-- DAY_BOUNDARY (R476): A calendar record closes at each TAI day boundary. -/
  | dayBoundary
  /-- SLACK_LOW (R480): A monitor below 4% slack raises the target or faults the valley at 900 mV. -/
  | slackLow (v : ValleyId)
  /-- RCV_REQUEST (R497): The manager requests L2, L3, L4 or L5. -/
  | rcvRequest
  /-- RCV_COPY (R502): Copies a recovery record and its capture to manager memory. -/
  | rcvCopy
  /-- LEVEL_TIMEOUT (R497): A recovery level over its bound escalates to the next level. -/
  | levelTimeout
  /-- FENCE_DRAIN_TIMEOUT (R498): Operations still outstanding 50 us into a fence complete with FENCED. -/
  | fenceDrainTimeout
  /-- ENGINE_HEARTBEAT_TIMEOUT (R492): A ring engine silent for 50 us is reset at L1. -/
  | engineHeartbeatTimeout (kind : BitVec 4)
  /-- PASS_ACK_TIMEOUT (R492): A pass acknowledge missing after 1 us faults the destination valley. -/
  | passAckTimeout (v : ValleyId)
  /-- PWRCYC_TIMEOUT (R503): If 54 V has not fallen 10 s after a power-cycle request, V38 runs an L4. -/
  | pwrcycTimeout
  /-- PC_SAMPLE (R527): Every 2^period_log2 ticks each selected bench's sequencer state is sampled. -/
  | pcSample
  /-- BYPASS (R531): JTAG BYPASS instruction. -/
  | bypass
  /-- IDCODE (R531): JTAG IDCODE instruction. -/
  | idcode
  /-- SAMPLE_PRELOAD (R531): JTAG SAMPLE/PRELOAD with right 3. -/
  | samplePreload
  /-- DBGREG (R531): JTAG access to the DBG block with right 3. -/
  | dbgreg (off : BitVec 8) (write : Bool) (v : W64)
  /-- EXTEST (R531): JTAG EXTEST, only while UNBOUND with right 3. -/
  | extest
  /-- AUX_3V3_APPLY (R537): AUX_3V3 enters range; V38 leaves reset and samples straps. -/
  | aux3v3Apply (straps : BitVec 3)
  /-- AUX_3V3_LOSS (R538): Loss of AUX_3V3 turns every rail off within 1 ms. -/
  | aux3v3Loss
  /-- P54V_APPLY (R537): P54V applied; rails soft-start and PERST_N may be honoured. -/
  | p54vApply
  /-- P54V_LOSS (R538): Loss of P54V enters D3cold. -/
  | p54vLoss
  /-- THERMAL_TRIP (R540): A die or stack at its trip temperature turns the rails off and asserts THERMTRIP_N. -/
  | thermalTrip (sensor : BitVec 5)
  /-- DOVETAIL_LOSS_OF_LOCK (R178): The lanes of a Dovetail link lose lock, so the link fails and leaves service. -/
  | dovetailLossOfLock (j : LinkId)
  /-- DOVETAIL_TRAINING_DONE (R495): A Dovetail link that was DOWN after an L1 or a peer return finishes training and becomes READY. -/
  | dovetailTrainingDone (j : LinkId)
  /-- INSTANCE_D0_ENTRY (R328): The host writes D0 to an instance's PowerState, and its rings fetch and its DMA resume. -/
  | instanceD0Entry (i : FnId)
  /-- VF_ENABLE_CLEAR (R350): The host clears VF Enable, and every instance becomes ABSENT. -/
  | vfEnableClear
  /-- MSIX_VECTOR_UNMASK (R324): Unmasking a vector, or clearing Function Mask, sends one message for a set pending bit. -/
  | msixVectorUnmask (i : FnId) (vec : Option (BitVec 8))
  /-- PME_STATUS_CLEAR (R333): The host writes 1 to PME_Status, which clears it and stops PM_PME resends. -/
  | pmeStatusClear
  deriving DecidableEq, Repr

end Sys2Proof
end

