-- ==== Sys2Proof/Machine/State.lean ====
section
/-! DEFINITION. The state of the block as plain data, one sub-structure per part of the device, and State.reset.
Registers of the manager's BAR0, of the instance pages and of the rings live in State.regs under their addresses. -/

namespace Sys2Proof.Machine

/-! ### Outcomes -/

/-- Why a run stops with a fault: never. No command of this block ends in a fault: an event that cannot occur in the
present state leaves it as it is (log 2), and every error the manual names is a change of the state. -/
inductive Fault where
  deriving DecidableEq, Repr

/-- Why a command is refused. -/
inductive Refusal where
  /-- Raised by an arm of exec whose command has no meaning yet. Safe: nothing is claimed of it. -/
  | notModelled (mnemonic : String)
  deriving DecidableEq, Repr

/-! ### Small shared pieces -/

/-- A field that is stored three times (13_registers.md R373). -/
structure Rwt (α : Type) where
  a : α
  b : α
  c : α
  deriving DecidableEq, Repr

/-- A field written by software or firmware: all three copies. -/
def Rwt.of {α : Type} (v : α) : Rwt α := ⟨v, v, v⟩

/-- The descriptor an operation belongs to: function, ring and fetch number. -/
structure OpRef where
  fn : Nat
  ring : Nat
  num : Nat
  deriving DecidableEq, Repr

/-- A message that leaves the block, in the order of sending. -/
inductive Out where
  /-- An MSI-X message (R324, R343). -/
  | msix (fn vec : Nat) (addr data : Nat)
  /-- A PM_PME message (R332). -/
  | pme
  /-- An Ethernet frame (R431). -/
  | frame (port : Nat) (bytes : List Byte)
  /-- A Dovetail flit: kind, aux, value and payload (R169). -/
  | flit (link kind aux value : Nat) (payload : List Byte)
  /-- A Dovetail control flit: type, the notice in aux and value, and content (R169, R170). -/
  | control (link type aux value : Nat) (content : List Byte)
  /-- A DOE response: SPDM or DOE Discovery (R304, R313). -/
  | doe (fn code : Nat) (bytes : List Byte)
  /-- A management message: bus, code and bytes (R472). -/
  | mgmt (bus : MgmtBus) (code : Nat) (bytes : List Byte)
  /-- A completion with Unsupported Request (R313). -/
  | unsupported (fn : Nat)
  /-- A configuration request of a function completes with Request Retry Status (R320). -/
  | retry (fn : Nat)
  /-- Bits shifted out of the JTAG port (R531). -/
  | jtag (bits : List Byte)
  /-- A pulse or level on a module pin, by name (R533). -/
  | pin (name : String) (level : Bool)
  deriving DecidableEq, Repr

/-! ### Registers (13_registers.md) -/

/-- One buffered field write (R367), and what ETH_NODE_SEL names when its strobe arrives (15_ethernet.md R435). -/
structure FieldWrite where
  fn : Nat
  block : Nat
  field : Field
  value : Nat
  sel : Nat
  deriving DecidableEq, Repr

/-- One apply group (R368). -/
structure ApplyGroup where
  blocks : List Nat
  sets : List FieldWrite
  strobe : Nat
  posted : Bool
  deriving DecidableEq, Repr

/-- The register file, its write buffers and pending sets. -/
structure Regs where
  /-- Values by register address; copy A of an RWT field. -/
  val : Tab Nat
  /-- What copy B of each register differs in from copy A (R373). -/
  cpB : Tab Nat
  /-- What copy C of each register differs in from copy A. -/
  cpC : Tab Nat
  /-- The write buffers of R367, in the order of the writes. -/
  buf : List FieldWrite
  /-- The pending groups of R368, oldest first. -/
  pend : List ApplyGroup
  /-- The operation that an applied op field asks for, by block, until its command runs (log 9). -/
  req : Tab Nat
  /-- Voltage targets that were last voted unanimously (R374), by valley. -/
  unanimous : Tab Nat
  deriving DecidableEq, Repr

/-! ### Host side (11_pcie.md, 12_rings.md) -/

/-- A fetched descriptor that has not started (R339, R340), with its place in the order of fetching (04_cutlists.md R127; 14_shelf.md
R388). -/
structure Desc where
  num : Nat
  bytes : List Byte
  stamp : Nat
  deriving DecidableEq, Repr

/-- A started operation whose completion has not been handed to the CPL ring (R341). -/
structure Flight where
  num : Nat
  tag : Nat
  now : Bool
  op : Nat
  done : Option (Nat × Nat)
  /-- Partitions whose memory or schedule the operation needs (R498). -/
  needs : Nat
  deriving DecidableEq, Repr

/-- A completion entry that waits to be written (R342). -/
structure Cpl where
  status : Nat
  index : Nat
  tag : Nat
  ring : Nat
  result : Nat
  now : Bool
  deriving DecidableEq, Repr

/-- A receive buffer that is posted and not used (R359, R427). -/
structure Buf where
  num : Nat
  devmem : Bool
  addr : Nat
  len : Nat
  deriving DecidableEq, Repr

/-- What the block holds of one ring beside its registers. -/
structure Ring where
  fetched : List Desc
  flight : List Flight
  waiting : List Cpl
  unsignalled : Nat
  firstAt : Nat
  nowDue : Bool
  /-- Events dropped for want of room (R361). -/
  lost : Nat
  /-- Receive buffers posted and not used, in fetch order. -/
  bufs : List Buf
  deriving DecidableEq, Repr

/-- A ring with nothing in it. -/
def Ring.init : Ring := ⟨[], [], [], 0, 0, false, 0, []⟩

/-- One MSI-X table entry (R324); masked at reset (PRESUMED, log 10). -/
structure MsixEntry where
  addr : Nat
  data : Nat
  masked : Bool
  pending : Bool
  deriving DecidableEq, Repr

/-- An MSI-X entry at reset. -/
def MsixEntry.init : MsixEntry := ⟨0, 0, true, false⟩

/-- A grant of a device unit to an instance (R351, R352). -/
structure Grant where
  kind : Nat
  unit : Nat
  localIdx : Nat
  deriving DecidableEq, Repr

/-- One slot of an instance's mailbox window (R359). -/
structure MboxSlot where
  seq : Nat
  full : Bool
  payload : List Byte
  deriving DecidableEq, Repr

/-- A mailbox slot at reset. -/
def MboxSlot.init : MboxSlot := ⟨0, false, []⟩

/-- What the endpoint holds of one function. -/
structure Fn where
  d3hot : Bool
  pmeEn : Bool
  pmeStatus : Bool
  fmask : Bool
  /-- MSI-X vectors of the function (R323). -/
  vectors : Nat
  msix : Tab MsixEntry
  rings : Tab Ring
  /-- The tag binding of R352: instance and incarnation, triple stored. -/
  binding : Rwt Nat
  grants : List Grant
  /-- Last sequence delivered to the instance and by the instance (R357). -/
  lastIn : Nat
  lastOut : Nat
  mbox : Tab MboxSlot
  /-- The manager's FREEZE of the instance that has not finished (R354). -/
  freeze : Option OpRef
  /-- The uncorrectable error status of the AER capability (R312). -/
  aer : Nat
  deriving DecidableEq, Repr

/-- A function at reset. -/
def Fn.init : Fn := ⟨false, false, false, false, 0, [], [], Rwt.of 0, [], 0, 0, [], none, 0⟩

/-- The host and the endpoint. -/
structure HostSide where
  /-- Host memory at the far end of the link, reached by DMA (R321). -/
  mem : Memory
  fns : Tab Fn
  vfEnable : Bool
  /-- The Resource Table is published (R320). -/
  published : Bool
  /-- BAR0 answers only the GLB and FWC blocks (R272, R320). -/
  imageless : Bool
  /-- The full view of the Resource Table, and the instance views (R317, R318). -/
  table : List Byte
  views : Tab (List Byte)
  /-- Enabled rings of all functions (R334). -/
  enabled : Nat
  /-- Descriptors fetched so far: the place of the next one in the order of fetching. -/
  fetchSeq : Nat
  /-- Memory of the peers that checkpoints are written to and read from (20_checkpoint.md R514, R520). -/
  far : Memory
  /-- The draw is lowered in D3hot (R329). -/
  lowPower : Bool
  /-- The wake that PME_Status stands for has been serviced by a transition to D0 (R333). -/
  serviced : Bool
  deriving DecidableEq, Repr

/-! ### Benches (03_benches.md) -/

/-- One mover transfer in flight (R86, R546). -/
structure Transfer where
  op : Nat
  toLocal : Bool
  route : Bool
  dovetail : Bool
  line : Nat
  far : Nat
  run : Nat
  runs1 : Nat
  runs2 : Nat
  far1 : Nat
  far2 : Nat
  loc1 : Nat
  loc2 : Nat
  /-- Lines that have moved (R87), and whether one of them was a violation (R89). -/
  moved : Nat
  violated : Bool
  deriving DecidableEq, Repr

/-- One bench. -/
structure Bench where
  store : Memory
  /-- Poisoned lines, 8-byte words with an uncorrectable error and with a single-bit error (R84, R204). -/
  poison : List Nat
  ue : List Nat
  ce : List Nat
  /-- Vector registers F0 to F31, 512 lanes each (R545). -/
  vreg : Tab (List W32)
  /-- Windows: set s, window w under 1024 s + w (R71). -/
  wins : Tab Window
  /-- The prescan result buffer (R77). -/
  prescan : Tab (BitVec 16)
  /-- The mover token counter (R87). -/
  tokens : W32
  flight : List Transfer
  /-- The active and the staging half of the program memory (R92). -/
  prog : Memory
  staging : Memory
  /-- The slot of the next instruction (R96). -/
  slot : Nat
  /-- First slot, last slot and repetitions left of the loop (R97). -/
  loop : Option (Nat × Nat × Nat)
  /-- The sequencer stalls: on WAITM or SYNC with its counter number (16 for the mover token) and target, on the ninth
  transfer with number 17 (R87, R96). -/
  stall : Option (Nat × W32)
  /-- The open window's length, while it is open, and whether it has been released (R103). -/
  window : Option Nat
  released : Bool
  /-- The routine that served the open window has raised an exception (09_firmware.md R277). -/
  abandoned : Bool
  /-- Result buffer E0 to E7 and the cause codes of entries that hold a fault (08_tenon.md R259, R263). -/
  entries : Tab (List W32)
  entryFault : Tab Nat
  /-- Anchor fault of R74: no result of the cut program is written any more. -/
  mute : Bool
  /-- Debug counters since the last snapshot (21_debug.md R529). -/
  ctrs : Tab Nat
  deriving DecidableEq, Repr

/-- 512 lanes of zero. -/
def lanes0 : List W32 := List.replicate 512 0

/-- A bench at reset. -/
def Bench.init : Bench :=
  { store := [], poison := [], ue := [], ce := [], vreg := [], wins := [], prescan := [], tokens := 0, flight := [],
    prog := [], staging := [], slot := 0, loop := none, stall := none, window := none, released := false, abandoned := false,
    entries := [], entryFault := [], mute := false, ctrs := [] }

/-! ### Clusters and the coprocessor (08_tenon.md R259 to R266) -/

/-- One accepted CPX operation (R262). -/
structure CpxOp where
  kind : Nat
  unit : Nat
  entry : Nat
  entry2 : Nat
  sub : Nat
  notify : Bool
  tag : Nat
  /-- Operand values read at acceptance. -/
  args : List W32
  deriving DecidableEq, Repr

/-- One cluster. -/
structure Cluster where
  /-- Synchronization counters 0 to 15 (R543). -/
  sync : Tab W32
  queue : List CpxOp
  nextTag : Nat
  deriving DecidableEq, Repr

/-- A cluster at reset. -/
def Cluster.init : Cluster := ⟨[], [], 0⟩

/-! ### Memories (07_memory.md) -/

/-- One 64 KiB granule: its owner, whether it lies in a page pool, and the page slot's state, generation and
unfinished rewrite (R159, R201, R219). -/
structure Granule where
  owner : Option Nat
  pool : Bool
  pstate : Nat
  gen : Nat
  rewriting : Bool
  deriving DecidableEq, Repr

/-- A granule at reset. -/
def Granule.init : Granule := ⟨none, false, 0, 0, false⟩

/-- The near store of a die (units 0 to 3) or an HBM stack (units 4 to 15). -/
structure MemUnit where
  bytes : Memory
  poison : List Nat
  /-- Near store: 8-byte words with a single-bit error and with an uncorrectable one (R204; log 23). -/
  ce : List Nat
  ue : List Nat
  /-- HBM: what the 72 stored bytes of a line (64 data, 4 tag, 4 check bytes) differ in from those that the controller
  last wrote (R210 to R213). -/
  flips : Tab (List Byte)
  /-- Lines to rewrite with poison in the next Service phase, and lines to write back corrected. -/
  repoison : List Nat
  writeback : List Nat
  gran : Tab Granule
  /-- Tick of the last refresh step's start (R220). -/
  refreshAt : Nat
  /-- Since when the temperature has allowed band 0, and band 1, in ns (R222). -/
  cool0 : Option Nat
  cool1 : Option Nat
  /-- Time of the last access, in ns (R223). -/
  accessAt : Nat
  /-- Page-pool lines that scheduled work has written in the current cut, with their bytes and poison before it (05_roles.md
  R162). -/
  before : Tab (List Byte × Bool)
  /-- Firmware's count of uncorrectable lines with their times, in ns (R227). -/
  ueTimes : List Nat
  deriving DecidableEq, Repr

/-- A memory unit at reset. -/
def MemUnit.init : MemUnit := ⟨[], [], [], [], [], [], [], [], 0, none, none, 0, [], []⟩

/-! ### Cutlists, partitions and the run (04_cutlists.md) -/

/-- A cut run (R112). -/
structure CutRun where
  count : Nat
  length : Nat
  kerf : Nat
  slotTable : Nat
  hint : Nat
  refresh : Bool
  ckpt : Bool
  swapOk : Bool
  openOk : Bool
  exchange : Nat
  deriving DecidableEq, Repr

/-- A link slot entry (R121). -/
structure LinkSlot where
  start : Nat
  ticks : Nat
  link : Nat
  rx : Bool
  kind : Nat
  bench : Nat
  line : Nat
  bytes : Nat
  tag : Nat
  deriving DecidableEq, Repr

/-- A region (R123). -/
structure Region where
  id : Nat
  hbm : Bool
  unit : Nat
  init : Nat
  addr : Nat
  size : Nat
  deriving DecidableEq, Repr

/-- A MEMSLOTS entry (R224). -/
structure MemSlot where
  first : Nat
  last : Nat
  step : Nat
  start : Nat
  ticks : Nat
  kind : Nat
  spline : Nat
  deriving DecidableEq, Repr

/-- A bounded exchange descriptor with its destination table (R134). -/
structure Exchange where
  experts : Nat
  tokens : Nat
  k : Nat
  spill : Bool
  spillExpert : Nat
  capacity : Nat
  spillCapacity : Nat
  rowLines : Nat
  choiceLine : Nat
  routeLine : Nat
  routeBench : Nat
  dest : List (Nat × Nat × Nat)
  deriving DecidableEq, Repr

/-- A fitted cutlist (R109 to R124). -/
structure Cutlist where
  roles : Nat
  partition : Nat
  ckptCapable : Bool
  plainSize : Nat
  memberIndex : Nat
  diameter : Nat
  cutCount : Nat
  loopStart : Nat
  clusterMask : Nat
  stackMask : Nat
  linkMask : Nat
  hash : List Byte
  family : List Byte
  drawing : List Byte
  cutRunHash : List Byte
  runs : List CutRun
  benches : List (Nat × List Byte)
  tables : List (List LinkSlot)
  regions : List Region
  memslots : List (Nat × List MemSlot)
  windows : List (Nat × List Byte)
  exchange : List Exchange
  images : List (Nat × List Byte)
  deriving DecidableEq, Repr

/-- The states of R126. -/
inductive PState where
  | empty | loaded | running | staged | stopped
  deriving DecidableEq, Repr

/-- One partition slot. -/
structure Part where
  state : PState
  owner : Option Nat
  clusters : Nat
  roles : Nat
  /-- The partitions of the member set that its cutlist was loaded with, itself among them (R108). -/
  mates : Nat
  fence : Rwt Bool
  halted : Bool
  list : Option Cutlist
  staged : Option Cutlist
  retained : List Region
  /-- Page-miss count (05_roles.md R163). -/
  misses : Nat
  deriving DecidableEq, Repr

/-- A partition at reset. -/
def Part.init : Part := ⟨.empty, none, 0, 0, 0, Rwt.of false, false, none, none, [], 0⟩

/-- Where the member set stands. -/
inductive RunPhase where
  /-- No run. -/
  | idle
  /-- The start round of R187 runs. -/
  | round
  /-- The first cut's start tick is fixed (R188). -/
  | armed
  /-- The next cut's start tick comes. -/
  | start
  /-- Inside a cut. -/
  | cut
  /-- Inside the kerf after a cut: before the seal, sealed, in Service. -/
  | drain
  | sealed
  | service
  deriving DecidableEq, Repr

/-- A page commit that has been fetched and not applied (R160). -/
structure PageCommit where
  op : OpRef
  part : Nat
  unit : Nat
  first : Nat
  count : Nat
  target : Nat
  /-- Kerf count of the first kerf at which it may apply. -/
  kerf : Nat
  deriving DecidableEq, Repr

/-- A checkpoint TAKE that is pending or being written (20_checkpoint.md R508). -/
structure Take where
  op : OpRef
  mask : Nat
  trigger : Nat
  resume : Bool
  id : Nat
  area : Nat
  rkey : Nat
  target : Nat
  label : List Byte
  qps : List Nat
  /-- The stop kerf of a demand TAKE, once known. -/
  stopKerf : Option Nat
  /-- Kerf count and time in ns of the stop, once stopped. -/
  stopped : Option (Nat × Nat)
  /-- The manifest's entries, once every shard has been handed to its queue pair; the status of a failed WRITE of the area (R514,
  R519). -/
  shards : Option (List Byte)
  failed : Option Nat
  /-- The signed manifest has gone to its queue pair (R514 step 4). -/
  written : Bool
  deriving DecidableEq, Repr

/-- A staged swap (R140, R141). -/
structure Swap where
  op : OpRef
  pass : Nat
  cut : Nat
  no : Bool
  /-- This member fitted the successor. -/
  fitted : Bool
  /-- A refused fit's status and result. -/
  refusal : Option (Nat × Nat)
  deriving DecidableEq, Repr

/-- What a fault or a recovery level covers (R492, R495). -/
inductive Scope where
  | nothing
  /-- A neighbour that differs or is silent: nothing of this member is reset at L0. -/
  | peer (m : Nat)
  | bench (b : Nat)
  /-- The CPX stream of the control core of cluster c. -/
  | cpx (c : Nat)
  | link (j : Nat)
  | valley (v : Nat)
  | core (k : Nat)
  /-- The ring engine of a kind of R334. -/
  | engine (kind : Nat)
  /-- Every unit of the clusters of the partitions of a mask. -/
  | parts (mask : Nat)
  /-- The whole of what L3, L4 or L5 covers. -/
  | device
  deriving DecidableEq, Repr

/-- A fault that recovery serves (R491, R492): the first level, cause, cause detail, what it covers and the aux word of
R500. -/
structure Trouble where
  level : Nat
  cause : Nat
  detail : Nat
  scope : Scope
  aux : Nat
  deriving DecidableEq, Repr

/-- A fault with the time and schedule position of its detection (R500). -/
structure Seen where
  trouble : Trouble
  time : Nat
  pass : Nat
  cut : Nat
  epoch : Nat
  haltKerf : Option Nat
  /-- The time of detection, and of the start of the halt kerf where there is one, in the model's time base, ns (R493, R497). -/
  at_ : Nat
  haltAt : Nat
  deriving DecidableEq, Repr

/-- A raised halt (06_plain.md R192): the kerf count at which it takes place, the fault behind it, and the further faults
raised before it takes place; a halt that a notice brought names no cause until a halt report arrives. -/
structure Halt where
  kerf : Nat
  seen : Seen
  more : List Seen
  deriving DecidableEq, Repr

/-- A kerf that has begun: its kerf count, its start tick, and this member's seal once it is formed. -/
structure KerfMark where
  kerf : Nat
  start : Nat
  own : Option Nat
  deriving DecidableEq, Repr

/-- The run of the device's member set and its schedule position. -/
structure Run where
  /-- The partitions of the member set (R108); 0 where there is none. -/
  parts : Nat
  phase : RunPhase
  id : Nat
  passes : Nat
  pass : Nat
  cut : Nat
  /-- Kerf count since the run started. -/
  kerfs : Nat
  epoch : Nat
  /-- Plain tick at which the current cut or kerf started. -/
  since : Nat
  /-- Time in ns at which the current kerf's Drain phase started (R368). -/
  drainAt : Nat
  /-- The last kerfs that began, newest first (R191, R194). -/
  marks : List KerfMark
  firstTick : Nat
  /-- Start tick of the run's first cut, which a resume does not change (20_checkpoint.md R508, R510). -/
  origin : Option Nat
  readyTick : Nat
  /-- The running START, and whether it was detached (R345). -/
  start : Option OpRef
  /-- The stop count and the STOP operations waiting for it (R133). -/
  stopCount : Option Nat
  stops : List OpRef
  swap : Option Swap
  halt : Option Halt
  commits : List PageCommit
  take : Option Take
  /-- A resumed run starts again at the stop position (R132). -/
  resuming : Bool
  /-- Kerf count and start tick of the last kerf passed at which a checkpoint may stop (20_checkpoint.md R509). -/
  ckptAt : Option (Nat × Nat)
  /-- Start records of the other members in a start round (R187), and those that the run started with. -/
  startRecs : List StartRec
  members : List StartRec
  /-- Halt reports received, and the sequence number of the last recovery record before the halt (R193). -/
  reports : List HaltRep
  haltSeq : Nat
  /-- Halt and checkpoint notices of the run that this member has sent or received: aux and kerf count (R192, R511). -/
  noticed : List (Nat × Nat)
  deriving DecidableEq, Repr

/-- No run. -/
def Run.init : Run :=
  { parts := 0, phase := .idle, id := 0, passes := 0, pass := 0, cut := 0, kerfs := 0, epoch := 0, since := 0, drainAt := 0, marks := [], firstTick := 0, origin := none,
    readyTick := 0, start := none, stopCount := none, stops := [], swap := none, halt := none, commits := [],
    take := none, resuming := false, ckptAt := none, startRecs := [], members := [],
    reports := [], haltSeq := 0, noticed := [] }

/-! ### The Plain and its links (06_plain.md) -/

/-- One Dovetail link. -/
structure Link where
  /-- Stream bytes of flits released in this cut: flit index and payload (R168, R172). -/
  rx : List (Nat × List Byte)
  /-- Lost flits of the cut, and of them those that no replay has restored (R175, R176). -/
  lost : List Nat
  unrestored : List Nat
  /-- The tick at which the losses of an earlier cut make the link declare failure (R178). -/
  failAt : Option Nat
  /-- Flits the sender holds for replay (R176). -/
  held : List Nat
  /-- Flits launched in this cut: index and payload (R176). -/
  sent : List (Nat × List Byte)
  /-- Tags of the transmit slots whose bytes have entered the stream in this cut. -/
  filled : List Nat
  /-- Notices that the next data flits, or the seal flit, take along: aux and value (R169, R175, R192). -/
  notices : List (Nat × Nat)
  /-- This end's r of the last kerf, and the peer's (R181), in 1/64 tick. -/
  rHere : Int
  rPeer : Int
  /-- Control flits that wait for the kerf, or the run's end: type and content (R170). -/
  control : List (Nat × List Byte)
  /-- Kerf counts of the last seals received, newest first; the seals that wait for this member's own (R191, R194). -/
  seals : List Nat
  early : List SealFlit
  /-- Kerf counts whose seal did not come by its deadline (R194). -/
  missed : List Nat
  /-- The peer's coefficient requests, each with the first kerf whose Commit phase may apply it, and the coefficients in
  force (R171). -/
  coeffReq : List (Nat × W32)
  coeff : W32
  lockLost : Bool
  /-- A seal of this run differed (R193). -/
  diverged : Bool
  /-- Times of declared failures, ns (R198). -/
  failTimes : List Nat
  trained : Bool
  answered : Bool
  deriving DecidableEq, Repr

/-- A link at reset. -/
def Link.init : Link :=
  { rx := [], lost := [], unrestored := [], failAt := none, held := [], sent := [], filled := [], notices := [], rHere := 0, rPeer := 0,
    control := [], seals := [], early := [], missed := [], coeffReq := [], coeff := 0, lockLost := false, diverged := false, failTimes := [], trained := false,
    answered := false }

/-- The Plain: formation, ticks and stretch. -/
structure Plain where
  /-- The Plain's tick (R180). -/
  tick : Nat
  formation : Nat
  dimX : Nat
  dimY : Nat
  dimZ : Nat
  deadline : Nat
  op : Option OpRef
  /-- Muster records, the member's own first once it is sent (R184), and those that came before it with their links. -/
  records : List (List Byte)
  early : List (Nat × List Byte)
  /-- The stretch in force, and the running maximum of the period for the next one, this member's latched request among it (R196). -/
  stretch : Nat
  stretchMax : Nat
  /-- The link to the tick parent (R180). -/
  parent : Option Nat
  /-- Accumulated tick offset to member 0 in 1/64 tick (R530), and the phase left to slew (R182). -/
  offset : Int
  slew : Int
  deriving DecidableEq, Repr

/-- No Plain. -/
def Plain.init : Plain := ⟨0, 0, 0, 0, 0, 0, none, [], [], 0, 0, none, 0, 0⟩

/-! ### Tenon cores (08_tenon.md) -/

/-- One core. -/
structure Core where
  p : Tab W32
  g : Tab W32
  c : Tab (BitVec 72)
  pc : W32
  sw : W32
  lc : W32
  vtb : W32
  splim : W32
  cfg : W32
  fcause : W32
  faddr : W32
  /-- CYCLE and CYCLEH together. -/
  cycle : BitVec 64
  cpxsq : W32
  ipend : W32
  ien : W32
  ipri : Tab W32
  mpuBase : Tab W32
  mpuLim : Tab W32
  wdtLoad : W32
  /-- Microseconds left of the watchdog, in ns, and WDT_STATUS (R258). -/
  wdtLeft : Nat
  wdtFirst : Bool
  /-- Tightly coupled memory and its 8-byte words with an uncorrectable error (R233). -/
  tcm : Memory
  tcmUe : List Nat
  /-- Stores to the system window that have not been accepted, oldest first (R244). -/
  posted : List (Nat × List Byte)
  lockup : Bool
  halted : Bool
  waiting : Bool
  /-- In reset: not booted, or stopped for a restart. -/
  held : Bool
  /-- A repeat prefix has retired and no iteration has run (R252): LC before the prefix. -/
  fresh : Option W32
  /-- REPG with a count of 0 skips the next instruction (R252). -/
  skip : Bool
  /-- A watchdog expiry waits for the end of a non-interruptible repeat (R254). -/
  wdtPend : Bool
  /-- Instructions retired since the last sync record (R528). -/
  retired : Nat
  /-- The digest d_k of the running image (09_firmware.md R275). -/
  digest : List Byte
  /-- A control core's tenant region holds what a load put there; a restart loses it (R277, R279). -/
  tenant : Bool
  deriving DecidableEq, Repr

/-- A core at core reset (R230, R257). -/
def Core.init : Core :=
  { p := [], g := [], c := [], pc := 0, sw := 0x80#32, lc := 0, vtb := 0, splim := 0, cfg := 0x7#32, fcause := 0,
    faddr := 0, cycle := 0, cpxsq := 0, ipend := 0, ien := 0, ipri := [], mpuBase := [], mpuLim := [], wdtLoad := 0,
    wdtLeft := 0, wdtFirst := false, tcm := [], tcmUe := [], posted := [], lockup := false, halted := false,
    waiting := false, held := true, fresh := none, skip := false, wdtPend := false, retired := 0, digest := [], tenant := false }

/-! ### Debug (21_debug.md) -/

/-- What the debug unit holds beside its registers. -/
structure Dbg where
  /-- Records dropped since the last loss record (R526). -/
  dropped : Nat
  /-- Cluster counters since the last snapshot: counter 8 to 11 of cluster k under 16 k + sub (R529). -/
  cluster : Tab Nat
  /-- Stall cycles of benches that time has counted since the last snapshot, under 16 b + sub. -/
  stalls : Tab Nat
  /-- Records that wait for the buffer, oldest first: of cluster k under k, of core k under 16 + k (R526). -/
  fifo : Tab (List (List Byte))
  deriving DecidableEq, Repr

/-- Debug at reset. -/
def Dbg.init : Dbg := ⟨0, [], [], []⟩

/-! ### Recovery (19_recovery.md) -/

/-- A recovery level that runs (R495, R498). -/
structure Level where
  level : Nat
  seen : Seen
  /-- Start of its bound, in ns. -/
  start : Nat
  escalated : Bool
  /-- seq of the record that this one escalates, or 0. -/
  prev : Nat
  /-- The partition that its record names, the owning instance and the cutlist hash, as they were before the reset (R500). -/
  part : Option Nat
  inst : Nat
  hash : List Byte
  /-- The capture (R501). -/
  cap : List Byte
  /-- An L4 that has failed its bound (R503). -/
  overdue : Bool
  deriving DecidableEq, Repr

/-- A finished level with the time of its fault's detection, for the rule of two faults within 1 s (R497). -/
structure LevelDone where
  level : Nat
  scope : Scope
  time : Nat
  seq : Nat
  deriving DecidableEq, Repr

/-- Recovery: the running levels, the last 16 records with their captures, and the power-cycle request. -/
structure Rcv where
  levels : List Level
  seq : Nat
  records : List (List Byte × List Byte)
  done : List LevelDone
  /-- Times of L4s that failed their bound, and of L5 requests, ns (R503). -/
  l4Failed : List Nat
  l5Times : List Nat
  /-- Faults that have been detected and not yet served (R492). -/
  faults : List Seen
  /-- An L5 request waits for 54 V to fall. -/
  l5Pending : Bool
  /-- After the last request every function stays fenced (R503). -/
  fencedForGood : Bool
  /-- The fence of the engine of a ring kind, triple stored: one in an L1 refuses what is new (R373, R498). -/
  engineFence : Tab (Rwt Bool)
  /-- The fences of single benches, streams, cores and links, triple stored (R373, R498). -/
  unitFence : List (Scope × Rwt Bool)
  deriving DecidableEq, Repr

/-- Recovery at reset. -/
def Rcv.init : Rcv := ⟨[], 0, [], [], [], [], [], false, false, [], []⟩

/-! ### Security (10_tenancy.md) -/

/-- The binding of the module (R295, R296): the request, its nonce and the generation g. -/
structure BindRec where
  request : List Byte
  nonce : List Byte
  g : Nat
  deriving DecidableEq, Repr

/-- An SPDM session (R304). -/
structure Session where
  opened : Bool
  established : Bool
  fn : Nat
  nonce : Option (List Byte)
  deriving DecidableEq, Repr

/-- A closed session. -/
def Session.init : Session := ⟨false, false, 0, none⟩

/-- What the SPDM negotiation of a function has reached (R304). -/
inductive Negotiated where
  | none | version | caps | algos
  deriving DecidableEq, Repr

/-- Who gets the answer of a bind or an unbind. -/
inductive BindReply where
  | nobody | manager
  | session (n : Nat)
  deriving DecidableEq, Repr

/-- A bind or an unbind that is under way (R296, R298). -/
structure BindWork where
  unbind : Bool
  /-- The last step that is done. -/
  step : Nat
  /-- The binding request of a bind. -/
  request : List Byte
  reply : BindReply
  deriving DecidableEq, Repr

/-- The security core. -/
structure Sec where
  /-- The binding record of the lifetime log; none once void. -/
  record : Option BindRec
  /-- Journal points of an unbind that has started and is not void (R298). -/
  journal : List Nat
  /-- Labels in the derived-key cache halves, most recently used first (R292). -/
  cache36 : List (List Byte)
  cache37 : List (List Byte)
  /-- Mismatches of a cipher pair with their times, ns (R301). -/
  mismatches : List (Nat × Nat)
  sessions : Tab Session
  negotiated : Tab Negotiated
  /-- Expiry of the debug rights, seconds of the real-time clock (R310). -/
  notAfter : Nat
  work : Option BindWork
  deriving DecidableEq, Repr

/-- The security core at reset. -/
def Sec.init : Sec := ⟨none, [], [], [], [], [], [], 0, none⟩

/-! ### Firmware (09_firmware.md) -/

/-- Flash banks, the one-time counter and the image cache. -/
structure Fw where
  /-- The NOR flash: bank A at 0x0000_0000, bank B at 0x0200_0000 (R267). -/
  flash : Memory
  /-- Blown bits of the one-time counter (R271). -/
  fused : Nat
  /-- The image in the image cache on which core k restarts, and the bank it came from: 1 A, 2 B (R273, R281). -/
  cache : Tab (List Byte)
  source : Tab Nat
  /-- WDT_LOAD of core k's directory entry (R279). -/
  wdt : Tab Nat
  /-- The data image in force: the tables of the PHYs, the shelf channels and the sensors (R269, R273). -/
  data : List Byte
  /-- The cores that the operation in progress was written with (R281, R284). -/
  askCores : Nat
  /-- Cores whose switch waits for their quiet points, as a mask (R281). -/
  hold : Nat
  deriving DecidableEq, Repr

/-- Firmware storage as this model's part leaves manufacture: both banks empty, nothing blown (log 5). -/
def Fw.init : Fw := ⟨[], 0, [], [], [], [], 0, 0⟩

/-! ### Telemetry and the lifetime log (17_time.md R469 to R478) -/

/-- What runs of a calendar day (R476). -/
structure Day where
  number : Nat
  powered : Nat
  /-- In uJ. -/
  energy : Nat
  peakDie : Nat
  peakHbm : Nat
  peakInlet : Nat
  bins : Tab Nat
  critical : Nat
  deriving DecidableEq, Repr

/-- An empty day. -/
def Day.init : Day := ⟨0, 0, 0, 0, 0, 0, [], 0⟩

/-- The lifetime log beside its bytes, which lie in the flash at 0x03C0_0000. -/
structure Log where
  /-- The counters of R477. -/
  counters : Tab Nat
  /-- Sequence number of the last saved copy. -/
  saved : Nat
  /-- Event and calendar records written so far. -/
  events : Nat
  days : Nat
  day : Day
  /-- Energy in uJ since the counters were read (R476, R477). -/
  uj : Nat
  /-- Programmings of the shelf, NAND bytes that they programmed, and how often they raised the highest erase count (R477). -/
  programs : Nat
  nand : Nat
  erases : Nat
  deriving DecidableEq, Repr

/-- An empty lifetime log (log 5). -/
def Log.init : Log := ⟨[], 0, 0, 0, Day.init, 0, 0, 0, 0⟩

/-! ### Power (18_power.md) -/

/-- What the power core keeps. -/
structure Pwr where
  /-- Energy in uJ of each cut index with its kerf, measured in the current run (R483, R484). -/
  energy : Tab Nat
  /-- Energy in uJ that each valley has drawn outside runs since the last L4, in the valleys' order (R483). -/
  drawn : List Nat
  /-- Plain tick of the run's last latch and the effective cap in force since (R486). -/
  latch : Option (Nat × Nat)
  /-- 65,535 is requested until the sensors are back (R485). -/
  hold : Bool
  deriving DecidableEq, Repr

/-- The power core at reset. -/
def Pwr.init : Pwr := ⟨[], [], none, false⟩

/-! ### Manufacture (00_scope.md R1, R3; log 5) -/

/-- What manufacture fixes, and the one-time binding counter. -/
structure Mfg where
  /-- 0 AQ-E9, 1 AQ-E9S. -/
  variant : Nat
  /-- The disabled bench of each cluster of an AQ-E9S. -/
  disabled : Tab Nat
  serial : Nat
  /-- Device Unique Secret (R287). -/
  dus : List Byte
  /-- The public keys of firmware signing, of debug tickets and of the DeviceID, 97 bytes each (R268, R310, R295). -/
  signer : List Byte
  debugKey : List Byte
  deviceKey : List Byte
  /-- Blown bits of the binding counter (R293). -/
  bindings : Nat
  /-- Reserved bits that manufacture set, by register address (R375). -/
  rvBits : Tab Nat
  /-- The MAC, IPv4 and IPv6 address of each Ethernet port (15_ethernet.md R416 names them; no rule gives them). -/
  mac : Tab (List Byte)
  ip4 : Tab (List Byte)
  ip6 : Tab (List Byte)
  /-- The parameter pages of the flash targets of each shelf channel (14_shelf.md R378). -/
  params : Tab (List (List Byte))
  deriving DecidableEq, Repr

/-- The part of this model: an AQ-E9 with nothing disabled, no reserved bit set and zero identities (log 5). -/
def Mfg.init : Mfg := ⟨0, [], 0, List.replicate 32 0, List.replicate 97 0, List.replicate 97 0, List.replicate 97 0, 0, [], [], [], [], []⟩

/-- Parameter pages of the targets of channel c: one target with an empty page where manufacture names none (log 5). -/
def Mfg.pages (m : Mfg) (c : Nat) : List (List Byte) := Tab.get [[]] m.params c

/-! ### The shelf (14_shelf.md) -/

/-- A shelf command that has been accepted and has not completed (R393). Without op it came from a peer through an
attached queue pair (R387). -/
structure ShelfCmd where
  op : Option OpRef
  q : Nat
  slot : Nat
  tag : Nat
  opcode : Nat
  /-- Device namespace; none where the local index is not mapped (R392). -/
  ns : Option Nat
  lba : Nat
  count : Nat
  devmem : Bool
  addr : Nat
  nonce : Nat
  label : Option (List Byte)
  started : Bool
  /-- Its requests carry the tag of an incarnation that an FLR has ended (12_rings.md R352). -/
  old : Bool
  deriving DecidableEq, Repr

/-- The shelf's arbitration (R388): the class whose turn runs, and by class the queue pair of its last turn plus 1, the
descriptors fetched in that turn, and the turns left in the round. -/
structure Turns where
  cls : Nat
  last : Tab Nat
  served : Tab Nat
  credit : Tab Nat
  deriving DecidableEq, Repr

/-- The shelf. -/
structure Shelf where
  /-- Mapped blocks by namespace and LBA, under 2^40 ns + lba; 4,096 bytes each. -/
  blocks : Tab (List Byte)
  /-- The page that holds each mapped block, under its block key: 16 times the stripe, plus the channel, plus 1 (R379). -/
  page : Tab Nat
  /-- The stripe that is being programmed, and the data pages of it that are (R379). -/
  stripe : Nat
  slot : Nat
  /-- Pages that LDPC cannot correct, as 16 times the stripe plus the channel (R379). -/
  unread : List Nat
  /-- The first stripe that a channel out of service does not touch (R381). -/
  left : Tab Nat
  /-- Namespace sizes in GiB, 0 where absent, and incarnations (R383, R385). -/
  size : Tab Nat
  inc : Tab Nat
  /-- Namespaces whose format runs, once for each NS_FORMAT (R384). -/
  formatting : List Nat
  /-- The next expected sequence of each store queue pair (R391). -/
  expected : Tab Nat
  cmds : List ShelfCmd
  /-- Times of channel failures, ns (R381). -/
  failTimes : Tab (List Nat)
  /-- Time of the last command, ns (R409). -/
  lastCmd : Nat
  /-- Whose turn it is to be fetched from (R388). -/
  turns : Turns
  /-- GiB that a sanitize has erased, and whether the shelf was READ_ONLY or FAILED when it started, 2 or 4 (R405, R408). -/
  erased : Nat
  before : Nat
  /-- A rebuild is unfinished (R381). -/
  rebuilding : Bool
  /-- Namespace and size of the operation that SHF_CTRL has asked for (R383). -/
  askNs : Nat
  askSize : Nat
  deriving DecidableEq, Repr

/-- The shelf at reset: no namespace (R382), nothing written. -/
def Shelf.init : Shelf := ⟨[], [], 0, 0, [], [], [], [], [], [], [], [], 0, ⟨0, [], [], []⟩, 0, 0, false, 0, 0⟩

/-! ### Ethernet (15_ethernet.md) -/

/-- A frame that waits for the line (R431, R433). -/
structure TxFrame where
  /-- Device Ethernet queue, or 4096 + queue pair of the remote-memory engine. -/
  queue : Nat
  op : Option OpRef
  /-- From the destination address to the last byte before the FCS. -/
  bytes : List Byte
  stamp : Bool
  /-- Status of its completion: OK, or INTEGRITY where its source was poisoned. -/
  status : Nat
  deriving DecidableEq, Repr

/-- A flow key slot (R425, R426). -/
structure FlowKey where
  label : List Byte
  sender : Nat
  counter : Nat
  deriving DecidableEq, Repr

/-- A shaping node: parameters, tokens in 1/256 byte, time of the last refill, its deficit, and the member beneath it that was
served last (R433, R434). -/
structure Node where
  rate : Nat
  burst : Nat
  weight : Nat
  overhead : Int
  parent : Nat
  level : Nat
  tokens : Int
  at_ : Nat
  deficit : Int
  last : Nat
  deriving DecidableEq, Repr

/-- A node at reset; the port's overhead is 20. -/
def Node.init (port : Bool) : Node := ⟨0, 64, 1, if port then 20 else 0, 0, 7, 64 * 1024 * 256, 0, 0, 0⟩

/-- One Ethernet port. -/
structure Port where
  /-- The rule set in force and the one that has been checked and waits for its switch (R418, R422). -/
  rules : List Byte
  next : Option (List Byte)
  /-- Frames held for service core 1 (R417). -/
  slow : List (List Byte)
  /-- Frames that go ahead of every service, frames that wait, and the frame on the line. -/
  ahead : List (List Byte)
  waiting : List TxFrame
  line : Option TxFrame
  /-- Device time at which the frame on the line started (17_time.md R463). -/
  lineAt : Nat
  /-- The service of each priority level that was served last (R433). -/
  lastService : Tab Nat
  /-- Model time from which the next frame may go ahead of every service (R432). -/
  aheadAt : Nat
  /-- Frames that a rule has handed to the remote memory engine or the time unit, actions 3 and 4, oldest first (R421). -/
  handed : List (Nat × List Byte)
  /-- Lanes that firmware has mapped out, by bit (R413). -/
  failed : Nat
  /-- Times of losses of lock by lane, ns (R413). -/
  lockTimes : Tab (List Nat)
  deriving DecidableEq, Repr

/-- A port at reset: the empty rule set with default 0. -/
def Port.init : Port := ⟨[], none, [], [], [], none, 0, [], 0, [], 0, []⟩

/-- Ethernet. -/
structure Eth where
  ports : Tab Port
  /-- Shaping nodes: 4096 port + subscriber, 4096 port + 2048 + service, 4096 port + 2112. -/
  nodes : Tab Node
  keys : Tab FlowKey
  deriving DecidableEq, Repr

/-- An unbound flow key slot. -/
def FlowKey.init : FlowKey := ⟨[], 0, 0⟩

/-- Ethernet at reset. -/
def Eth.init : Eth := ⟨[], [], []⟩

/-! ### Remote memory (16_rdma.md) -/

/-- A work request in flight: its kind (0 one that was refused, 1 WRITE, 2 READ, 3 a completion for an attached shelf queue, 4 part
of a checkpoint area, R455, 5 a READ of one, R520), first PSN, packets, bytes of a WRITE, whether its source was poisoned or a READ's violation has been
counted, what a READ has received (R444 to R446), whether a READ wrote part of a poisoned line (07_memory.md R205, R216), and the
status of a refused one, which completes in its turn (R445). -/
structure Wqe where
  op : Option OpRef
  kind : Nat
  psn : Nat
  pkts : Nat
  devmem : Bool
  laddr : Nat
  raddr : Nat
  rkey : Nat
  len : Nat
  data : List Byte
  bad : Bool
  got : Nat
  spoilt : Bool
  refused : Option Nat
  deriving DecidableEq, Repr

/-- A store queue pair joined to a remote-memory queue pair (R454). -/
structure Attach where
  sqp : Nat
  log2 : Nat
  cplAddr : Nat
  cplKey : Nat
  winKey : Nat
  ring : Memory
  tail : Nat
  head : Nat
  written : Nat
  consumed : Nat
  waiting : List Cpl
  deriving DecidableEq, Repr

/-- One queue pair. -/
structure Qp where
  ipv6 : Bool
  mtu : Nat
  peerQp : Nat
  dscp : Nat
  peerIp : List Byte
  /-- Next PSN expected from the peer, next PSN to send, oldest unacknowledged PSN. -/
  rxPsn : Nat
  txPsn : Nat
  una : Nat
  retryCount : Nat
  timeout : Nat
  /-- A move to RTR that waits for the peer's address (R441), and the address once it is known. -/
  resolving : Option OpRef
  peerMac : Option (List Byte)
  wqes : List Wqe
  /-- The peer's WRITE message in progress: address, rkey and bytes left. -/
  msg : Option (Nat × Nat × Nat)
  nakSent : Bool
  unacked : Nat
  lastCnp : Option Nat
  /-- Seal label, local and peer sender, counter (R452). -/
  sealing : Option (List Byte × Nat × Nat)
  sealCtr : Nat
  /-- Rate control (R453): rc and rt in Mb/s, a, and increases since the last CNP. -/
  rc : Rat
  rt : Rat
  frac : Rat
  incs : Nat
  /-- Tokens of the shaped leaf in 1/256 byte and the time of their last refill (R453). -/
  tokens : Int
  tokAt : Nat
  /-- Requests served as responder, modulo 2^24, for the AETH. -/
  msn : Nat
  attach : Option Attach
  deriving DecidableEq, Repr

/-- A queue pair at reset. -/
def Qp.init : Qp :=
  { ipv6 := false, mtu := 0, peerQp := 0, dscp := 0, peerIp := [], rxPsn := 0, txPsn := 0, una := 0, retryCount := 0,
    timeout := 0, resolving := none, peerMac := none, wqes := [], msg := none, nakSent := false, unacked := 0,
    lastCnp := none, sealing := none, sealCtr := 0, rc := 0, rt := 0, frac := 1, incs := 0,
    tokens := 64 * 1024 * 256, tokAt := 0, msn := 0, attach := none }

/-- A registration (R442): owner, range, rights and check value. -/
structure Registration where
  inst : Nat
  addr : Nat
  len : Nat
  read : Bool
  write : Bool
  check : Nat
  deriving DecidableEq, Repr

/-- An unused registration. -/
def Registration.init : Registration := ⟨0, 0, 0, false, false, 0⟩

/-- The remote memory engine. -/
structure Rma where
  qps : Tab Qp
  regs : Tab Registration
  deriving DecidableEq, Repr

/-- The engine at reset. -/
def Rma.init : Rma := ⟨[], []⟩

/-! ### Time and telemetry (17_time.md) -/

/-- The time unit. -/
structure Tim where
  /-- Good intervals in a row of each source, and the qualified ones (R460). -/
  good : Tab Nat
  qualified : List Nat
  /-- The last 16 offsets, absolute, in ns. -/
  offsets : List Nat
  /-- Whether a reference has been held; estimate and device time at entry into HOLDOVER (R459). -/
  held : Bool
  e0 : Nat
  since : Nat
  /-- A step or stand-still that waits for its second boundary, and what is left of a slew (R464). -/
  step : Option Int
  slew : Int
  /-- The real-time clock's fraction of a second, in ns. -/
  rtcFrac : Nat
  /-- The last offset that each source gave, reference less device time, in ns. -/
  last : Tab Int
  /-- What the servo has still to correct, its corrections of the last 64 s of LOCKED by second of the model's time base, and the
  frequency that HOLDOVER holds, in ns per 64 s (R458, R464). -/
  servo : Int
  trims : Tab Int
  freq : Int
  /-- The data set of the last Announce of each port, and the sequence number of the messages sent (R462). -/
  sets : Tab (List Byte)
  /-- How the last message on each port came: 0 EtherType 0x88F7, 4 UDP over IPv4, 6 over IPv6 (R462). -/
  via : Tab Nat
  seq : Nat
  deriving DecidableEq, Repr

/-- The time unit at reset. -/
def Tim.init : Tim := ⟨[], [], [], false, 0, 0, none, 0, 0, [], 0, [], 0, [], [], 0⟩

/-- The management endpoint (R472, R473). -/
structure Mgmt where
  /-- The endpoint ID of the one endpoint. -/
  eid : Nat
  /-- The event receiver and the bus on which it was set. -/
  receiver : Option (MgmtBus × Nat)
  /-- Sensors that SetNumericSensorEnable has disabled, by operational state. -/
  enables : Tab Nat
  /-- The last transaction sent on the SMBus, code and bytes, and how often it has lost arbitration. -/
  smbus : Option (Nat × List Byte)
  lost : Nat
  /-- Transactions that wait behind one that has lost, oldest first (R473). -/
  queue : List (Nat × List Byte)
  /-- The dynamic address of the I3C target, once the bus has assigned it (R472). -/
  i3cAddr : Option (BitVec 7)
  deriving DecidableEq, Repr

/-- Management at reset. -/
def Mgmt.init : Mgmt := ⟨0, none, [], none, 0, [], none⟩

/-! ### Module pins and supplies (22_module.md) -/

/-- Supplies, straps and pins. -/
structure Pins where
  aux : Bool
  p54v : Bool
  /-- PERST_N is high. -/
  perst : Bool
  straps : Nat
  /-- A thermal trip holds the rails off (R540). -/
  tripped : Bool
  /-- The security core has left reset and the ROM has not booted yet (R537). -/
  released : Bool
  /-- WAKE_N is asserted (11_pcie.md R332). -/
  wakeN : Bool
  /-- Since when TRAY_PWRCYC_N is low, ns (19_recovery.md R503). -/
  pwrcyc : Option Nat
  deriving DecidableEq, Repr

/-- Pins in the state of reset: both supplies in range, PERST_N high, the security core just released (log 4). -/
def Pins.init : Pins := ⟨true, true, true, 7, false, true, false, none⟩

/-! ### What a checkpoint or a migration image holds beside its stated layout -/

/-- The items of shard 0 (20_checkpoint.md R506, R515) and of a migration image (12_rings.md R355). The manual lists them
and gives their bytes no layout, so their plaintext is a free value and the model keeps the items it stands for (log 16). -/
structure Saved where
  benches : List (Nat × Bench)
  clusters : List (Nat × Tab W32)
  /-- Tenant regions of control cores. -/
  tenants : List (Nat × List Byte)
  /-- Page slots: memory unit, granule, state, generation. -/
  slots : List (Nat × Nat × Nat × Nat)
  pass : Nat
  cut : Nat
  epoch : Nat
  kerfs : Nat
  stretch : Nat
  runId : Nat
  passes : Nat
  /-- Ring positions: ring, head, tail, state. -/
  rings : List (Nat × Nat × Nat × Nat)
  /-- The binding digest of the module that made it (10_tenancy.md R306). -/
  digest : List Byte
  /-- Of an image: ring registers by address, what the rings hold, grants, set and cutlist by partition, and regions with
  their bytes and poisoned lines. -/
  regs : Tab Nat
  held : Tab Ring
  grants : List Grant
  lists : List (Nat × Nat × Option Cutlist × List Region)
  memory : List (Nat × Nat × List Byte × List Nat)
  /-- Positions of the instance's member sets. -/
  runs : List Run
  deriving DecidableEq, Repr, Inhabited

end Sys2Proof.Machine

namespace Sys2Proof.Config

/-- What a shard 0 or an image that another device has made stands for, by its plaintext: the manual gives these bytes no layout
(log 16). -/
opaque foreignItems (plain : List (BitVec 8)) : Machine.Saved

end Sys2Proof.Config

namespace Sys2Proof.Machine

/-! ### The state of the block -/

/-- A RESTORE in flight, which reads its checkpoint from the peer (20_checkpoint.md R520). -/
structure Restore where
  op : OpRef
  mask : Nat
  id : Nat
  area : Nat
  rkey : Nat
  label : List Byte
  qps : List Nat
  /-- The pairs of the cipher engine disagree over it. -/
  mismatch : Bool
  /-- The manifest, once it has passed its checks, and the shard that is being read. -/
  man : Option (List Byte)
  shard : Nat
  /-- Pieces of the area to ask for: queue pair, offset, length; and what has arrived, by offset. -/
  todo : List (Nat × Nat × Nat)
  buf : Memory
  /-- Clusters whose bench stores it has written, and the items of shard 0. -/
  wrote : List Nat
  items : List Saved
  failed : Option Nat
  deriving DecidableEq, Repr

/-- The state of the block. -/
structure State where
  /-- The commands that wait, first in first out. -/
  pending : List Instr
  /-- How many free values have been drawn (log 7). -/
  freeCtr : Nat
  /-- Time since the block's reset in ns, the model's time base (log 1). -/
  now : Nat
  /-- What has left the block, in order. -/
  out : List Out
  regs : Regs
  host : HostSide
  benches : Tab Bench
  clusters : Tab Cluster
  cores : Tab Core
  mems : Tab MemUnit
  parts : Tab Part
  run : Run
  /-- The positions of member sets that are STOPPED while another one is the device's current set. -/
  stowed : List Run
  restores : List Restore
  plain : Plain
  links : Tab Link
  rcv : Rcv
  sec : Sec
  dbg : Dbg
  fw : Fw
  log : Log
  pwr : Pwr
  shelf : Shelf
  eth : Eth
  rma : Rma
  tim : Tim
  mgmt : Mgmt
  pins : Pins
  mfg : Mfg
  /-- Plaintexts of shards 0 and images with the items they stand for (log 16). -/
  saved : List (List Byte × Saved)
  deriving DecidableEq, Repr

/-- The host side at reset: an empty host memory, no instance, the function of the manager with its 64 vectors (R323), no
Resource Table. -/
def HostSide.init : HostSide :=
  { mem := [], fns := [(0, { Fn.init with vectors := 64 })], vfEnable := false, published := false, imageless := false,
    table := [], views := [], enabled := 0, fetchSeq := 0, far := [], lowPower := false, serviced := false }

/-- The machine right after reset (R372, R537; log 4): every register at its reset value, every memory empty, every unit
as its reset states, nothing waiting. -/
def State.reset : State :=
  { pending := [], freeCtr := 0, now := 0, out := [], regs := ⟨[], [], [], [], [], [], []⟩, host := HostSide.init,
    benches := [], clusters := [], cores := [], mems := [], parts := [], run := Run.init, stowed := [], restores := [], plain := Plain.init, links := [],
    rcv := Rcv.init, sec := Sec.init, dbg := Dbg.init, fw := Fw.init, log := Log.init, pwr := Pwr.init,
    shelf := Shelf.init, eth := Eth.init, rma := Rma.init, tim := Tim.init, mgmt := Mgmt.init, pins := Pins.init,
    mfg := Mfg.init, saved := [] }

end Sys2Proof.Machine
end

