-- ==== Sys2Proof/Machine/Ops.lean ====
section
/-! DEFINITION. The named operations over registers, free values, messages, sub-structures, rings, completions and
events that every meaning is written with. -/

namespace Sys2Proof.Machine

/-! ### Register rows and reset values -/

/-- Whether the row covers address a; if so, the address of the row's register that holds byte a. -/
def RegRow.covers (r : RegRow) (a : Nat) : Option Nat :=
  if a < r.base then none
  else
    let off := a - r.base
    let i := if r.s1 = 0 then 0 else off / r.s1
    let rem := if r.s1 = 0 then off else off % r.s1
    let j := if r.s2 = 0 then 0 else rem / r.s2
    let rest := if r.s2 = 0 then rem else rem % r.s2
    if i < r.n1 ∧ j < r.n2 ∧ rest < r.bytes then some (a - rest) else none

/-- The first row of a list that covers address a, with the register's address. -/
def findRow : List RegRow → Nat → Option (RegRow × Nat)
  | [], _ => none
  | r :: t, a => match r.covers a with
    | some b => some (r, b)
    | none => findRow t a

/-- The row of register address a in the block's one numbering: BAR0 below 2^32, instance page i at 2^32 i. -/
def rowAt (a : Nat) : Option (RegRow × Nat) :=
  if a < 0x100000000 then
    if 0x540000 ≤ a ∧ a < 0x544000 then
      (findRow ringRows ((a - 0x540000) % 0x40)).map (fun p => (p.1, a - (a - 0x540000) % 0x40 + p.2))
    else findRow regRows a
  else
    let off := a % 0x100000000
    if 0x1000 ≤ off ∧ off < 0x5000 then
      (findRow ringRows ((off - 0x1000) % 0x40)).map (fun p => (p.1, a - (off - 0x1000) % 0x40 + p.2))
    else findRow insRows a

/-- A signed threshold pair as the register's 32 bits. -/
def threshWord (k : Nat) : Nat :=
  let p := threshReset.getD k (0, 0)
  p.1 % 65536 + p.2 % 65536 * 65536

/-- The reset value of register address a: the row's, the sensor thresholds of 17_time.md R469, VLY_STATE of V38, which is
enabled, and the tag of R352. -/
def regReset (a : Nat) : Nat :=
  if 0xA00200 ≤ a ∧ a < 0xA00264 then threshWord ((a - 0xA00200) / 4)
  else if 0x100000000 ≤ a ∧ a % 0x100000000 = 0 then 1 + a / 0x100000000 * 256
  else if a = 0x100098 then 5
  else match rowAt a with
    | some (r, _) => r.reset
    | none => 0

/-! ### Reading and writing fields -/

/-- The register's value, copy A. -/
def Regs.word (r : Regs) (a : Nat) : Nat := Tab.get (regReset a) r.val a

/-- A 2-of-3 vote; none where no two copies agree (R373, R374). -/
def vote {α : Type} [DecidableEq α] (a b c : α) : Option α :=
  if a = b ∨ a = c then some a else if b = c then some b else none

/-- The value used where a vote is lost (R374). -/
def lostValue (r : Regs) (f : Field) : Nat :=
  if f = F.secStatusState then 4
  else if f = F.secStatusDebug then 0
  else if 0x100000 ≤ f.addr ∧ f.addr < 0x100100 then (if f.lsb = 3 then 1 else 0)
  else if 0x200400 ≤ f.addr ∧ f.addr < 0x2004A0 then Tab.get 750 r.unanimous ((f.addr - 0x200400) / 4)
  else 2 ^ f.width - 1

/-- The value of a field: the vote over its three copies (R373). -/
def Regs.fld (r : Regs) (f : Field) : Nat :=
  let a := bitsOf (r.word f.addr) f.lsb f.width
  let db := bitsOf (Tab.get 0 r.cpB f.addr) f.lsb f.width
  let dc := bitsOf (Tab.get 0 r.cpC f.addr) f.lsb f.width
  (vote a (a ^^^ db) (a ^^^ dc)).getD (lostValue r f)

/-- The register file with field f at value v in all three copies. -/
def Regs.setFld (r : Regs) (f : Field) (v : Nat) : Regs :=
  { r with
    val := Tab.set (regReset f.addr) r.val f.addr (withBits (r.word f.addr) f.lsb f.width v)
    cpB := Tab.set 0 r.cpB f.addr (withBits (Tab.get 0 r.cpB f.addr) f.lsb f.width 0)
    cpC := Tab.set 0 r.cpC f.addr (withBits (Tab.get 0 r.cpC f.addr) f.lsb f.width 0) }

/-- The value of a register field. -/
def State.fld (s : State) (f : Field) : Nat := s.regs.fld f

/-- A one-bit field as a truth value. -/
def State.flag (s : State) (f : Field) : Bool := s.fld f != 0

/-- The state with a register field written. -/
def State.setFld (s : State) (f : Field) (v : Nat) : State := { s with regs := s.regs.setFld f v }

/-- A one-bit field written with a truth value. -/
def State.setFlag (s : State) (f : Field) (v : Bool) : State := s.setFld f (if v then 1 else 0)

/-- A counter that saturates at its field's largest value, raised by n. -/
def State.count (s : State) (f : Field) (n : Nat) : State := s.setFld f (min (2 ^ f.width - 1) (s.fld f + n))

/-- A counter that wraps, raised by n. -/
def State.wrapAdd (s : State) (f : Field) (n : Nat) : State := s.setFld f ((s.fld f + n) % 2 ^ f.width)

/-! ### Free values and messages -/

/-- The next free value of w bits (log 7). -/
def State.freeBits (s : State) (w : Nat) : BitVec w := Config.freeValue w s.freeCtr

/-- Passing on to the next free value. -/
def State.bumpFree (s : State) : State := { s with freeCtr := s.freeCtr + 1 }

/-- A message leaves the block. -/
def State.emit (s : State) (m : Out) : State := { s with out := s.out ++ [m] }

/-! ### Sub-structures by number -/

/-- Bench b. -/
def State.bench (s : State) (b : Nat) : Bench := Tab.get Bench.init s.benches b
/-- Replacing bench b. -/
def State.setBench (s : State) (b : Nat) (x : Bench) : State := { s with benches := Tab.set Bench.init s.benches b x }
/-- Cluster k. -/
def State.cluster (s : State) (k : Nat) : Cluster := Tab.get Cluster.init s.clusters k
/-- Replacing cluster k. -/
def State.setCluster (s : State) (k : Nat) (x : Cluster) : State :=
  { s with clusters := Tab.set Cluster.init s.clusters k x }
/-- Core k. -/
def State.core (s : State) (k : Nat) : Core := Tab.get Core.init s.cores k
/-- Replacing core k. -/
def State.setCore (s : State) (k : Nat) (x : Core) : State := { s with cores := Tab.set Core.init s.cores k x }
/-- Line n of core k is pending and taken at the next boundary where it qualifies; a core in reset sees none. -/
def State.markLine (s : State) (k line : Nat) : State :=
  let x := s.core k
  if x.held then s else s.setCore k { x with ipend := x.ipend ||| (1#32 <<< line) }
/-- Memory unit u: die u, or stack u - 4. -/
def State.memUnit (s : State) (u : Nat) : MemUnit := Tab.get MemUnit.init s.mems u
/-- Replacing memory unit u. -/
def State.setMemUnit (s : State) (u : Nat) (x : MemUnit) : State := { s with mems := Tab.set MemUnit.init s.mems u x }
/-- Partition p. -/
def State.part (s : State) (p : Nat) : Part := Tab.get Part.init s.parts p
/-- Replacing partition p. -/
def State.setPart (s : State) (p : Nat) (x : Part) : State := { s with parts := Tab.set Part.init s.parts p x }
/-- Link j. -/
def State.link (s : State) (j : Nat) : Link := Tab.get Link.init s.links j
/-- Replacing link j. -/
def State.setLink (s : State) (j : Nat) (x : Link) : State := { s with links := Tab.set Link.init s.links j x }
/-- Function i: 0 the manager, 1 to 63 the instances. -/
def State.fn (s : State) (i : Nat) : Fn := Tab.get Fn.init s.host.fns i
/-- Replacing function i. -/
def State.setFn (s : State) (i : Nat) (x : Fn) : State :=
  { s with host := { s.host with fns := Tab.set Fn.init s.host.fns i x } }
/-- Ring r of function i. -/
def State.ring (s : State) (i r : Nat) : Ring := Tab.get Ring.init (s.fn i).rings r
/-- Replacing ring r of function i. -/
def State.setRing (s : State) (i r : Nat) (x : Ring) : State :=
  s.setFn i { s.fn i with rings := Tab.set Ring.init (s.fn i).rings r x }
/-- Replacing host memory. -/
def State.setHostMem (s : State) (m : Memory) : State := { s with host := { s.host with mem := m } }

/-! ### Numbers of units (00_scope.md R9, 01_architecture.md R14, R18) -/

/-- The cluster of bench b. -/
def clusterOf (b : Nat) : Nat := b / 10
/-- The compute die of cluster k. -/
def dieOf (k : Nat) : Nat := k / 4
/-- The valley of cluster k (R18). -/
def valleyOf (k : Nat) : Nat := 5 * (k / 4) + k % 4
/-- The cluster in valley v, for cluster valleys. -/
def valleyCluster (v : Nat) : Option Nat := if v < 20 ∧ v % 5 < 4 then some (4 * (v / 5) + v % 5) else none
/-- The memory unit of stack s. -/
def stackUnit (s : Nat) : Nat := 4 + s

/-- The benches of the clusters of a mask. -/
def maskBenches (mask : Nat) : List Nat := (maskList 16 mask).flatMap (fun k => (List.range 10).map (fun i => 10 * k + i))

/-! ### Status codes (R344) -/

namespace Status
def ok : Nat := 0x00
def queueReset : Nat := 0x01
def badDescriptor : Nat := 0x02
def doesNotFit : Nat := 0x03
def versionMismatch : Nat := 0x04
def fenced : Nat := 0x05
def integrity : Nat := 0x06
def noSpace : Nat := 0x07
def mediaWorn : Nat := 0x08
def mediaError : Nat := 0x09
def remoteAccess : Nat := 0x0A
def linkFailed : Nat := 0x0B
def notBound : Nat := 0x0C
def internal : Nat := 0xFF
end Status

/-! ### The binding state (10_tenancy.md R286) -/

/-- SEC_STATUS.state. -/
def State.secState (s : State) : Nat := s.fld F.secStatusState

/-- A tenant is bound. -/
def State.bound (s : State) : Bool := s.secState == 3

/-- What an operation that touches tenant data meets: none while BOUND, FENCED while UNBINDING, else NOT_BOUND. -/
def State.boundStatus (s : State) : Option Nat :=
  if s.secState = 3 then none else if s.secState = 4 then some Status.fenced else some Status.notBound

/-! ### Silent violations (R305) -/

/-- One more silent violation of instance i. The manager has no count. -/
def State.violate (s : State) (i : Nat) : State := if i = 0 then s else s.count (F.secViolCount i) 1

/-- One silent violation of instance i where the flag is set. -/
def State.violateIf (s : State) (b : Bool) (i : Nat) : State := if b then s.violate i else s

/-! ### Instances (R350) -/

/-- The state of instance i: ABSENT while VF Enable is clear. -/
def State.insState (s : State) (i : Nat) : Nat := if s.host.vfEnable then s.fld (F.insStatusState i) else 0

/-- Function i may issue DMA: the device is published after its boot, neither the function nor the manager is in D3hot, and
an instance exists (R320, R328, R329). -/
def State.dmaOk (s : State) (i : Nat) : Bool :=
  s.host.published && !(s.fn 0).d3hot && (i == 0 || (!(s.fn i).d3hot && s.insState i != 0))

/-- Function i fetches and starts descriptors: it may issue DMA and is not FREEZING, FROZEN or RESETTING (R353). -/
def State.fetches (s : State) (i : Nat) : Bool := s.dmaOk i && (i == 0 || s.insState i == 1)

/-- A configuration request before the Resource Table is published completes with Request Retry Status (R320); one of a function
that is not there goes to no one. -/
def State.retryConfig (s : State) (i : Nat) : State := if s.host.published then s else s.emit (.retry i)

/-! ### Rings (R334 to R343) -/

/-- Entries of ring r of function i. -/
def State.ringSize (s : State) (i r : Nat) : Nat := 2 ^ s.fld (F.rngCfgLog2Size i r)
/-- The host address of the ring. -/
def State.ringAddr (s : State) (i r : Nat) : Nat := s.fld (F.rngBaseLoAddr i r) + s.fld (F.rngBaseHiAddr i r) * 2 ^ 32
/-- The ring is ACTIVE. -/
def State.ringActive (s : State) (i r : Nat) : Bool := s.fld (F.rngStatusState i r) == 1
/-- The ring's kind code (R334). -/
def State.ringKind (s : State) (i r : Nat) : Nat := s.fld (F.rngCfgKind i r)
/-- Completions of this kind are written in fetch order (R341). -/
def orderedKind (k : Nat) : Bool := k == 1 || k == 6
/-- The kind is one of submission rings (R334). -/
def submissionKind (k : Nat) : Bool := decide (1 ≤ k ∧ k ≤ 6)

/-- The rails derived from P54V are good (22_module.md R537, R540); without them the module is in D3cold. -/
def State.railsGood (s : State) : Bool := s.pins.aux && s.pins.p54v && !s.pins.tripped

/-- The wake causes that reach D3cold: the alarm, the management request and the thermal warning. -/
def coldCause (bit : Nat) : Bool := bit == 0 || bit == 1 || bit == 6

/-- A wake cause is recorded (R332): its bit in HIF_WAKE_CAUSE. A cause that was not recorded yet, with its enable and PME_En
set, sets PME_Status, once: in D3hot with a PM_PME message, in D3cold, for the causes that reach it, with WAKE_N asserted
(R333). -/
def State.wake (s : State) (bit : Nat) : State :=
  let cause : Field := ⟨(F.hifWakeCauseRtcAlarm).addr, bit, 1⟩
  let known := s.flag cause
  let s := s.setFld cause 1
  let m := s.fn 0
  if ¬ known ∧ bitOf (s.fld F.hifWakeEnEnable) bit ∧ m.pmeEn ∧ ¬ m.pmeStatus then
    if ¬ s.railsGood ∧ ¬ coldCause bit then s
    else if ¬ s.railsGood then
      let s := s.setFn 0 { m with pmeStatus := true }
      ({ s with pins := { s.pins with wakeN := true } }).emit (.pin "WAKE_N" false)
    else if m.d3hot then (s.setFn 0 { m with pmeStatus := true }).emit .pme
    else s
  else s

/-- A completion entry's 16 bytes (R342) with the phase of entry number n of a ring of the given size. -/
def Cpl.entry (c : Cpl) (n size : Nat) : List Byte :=
  let phase := if n / size % 2 = 0 then 0x80 else 0
  leBytes 1 c.status ++ leBytes 1 phase ++ leBytes 2 c.index ++ leBytes 2 c.tag ++ leBytes 1 c.ring ++ leBytes 1 0
    ++ leBytes 8 c.result

/-- An event entry's 16 bytes (R360). -/
def eventEntry (code subject detail time n size : Nat) : List Byte :=
  let phase := if n / size % 2 = 0 then 0x80 else 0
  leBytes 1 code ++ leBytes 1 phase ++ leBytes 2 subject ++ leBytes 4 detail ++ leBytes 8 time

/-- Entries of a device-written ring that the host has not consumed (R342). -/
def State.ringUsed (s : State) (i r : Nat) : Nat :=
  (s.fld (F.rngHeadCount i r) + 2 ^ 32 - s.fld (F.rngTailCount i r)) % 2 ^ 32

/-- A device-written ring has room for one more entry. -/
def State.ringRoom (s : State) (i r : Nat) : Bool := decide (s.ringUsed i r < s.ringSize i r)

/-- Writing an entry into slot HEAD mod size of an EVT or CPL ring: the bytes go to host memory, RNG_HEAD advances and
the entry is unsignalled (R342, R343). -/
def State.ringPut (s : State) (i r : Nat) (bytes : List Byte) (now : Bool) : State :=
  let n := s.fld (F.rngHeadCount i r)
  let size := s.ringSize i r
  let s := s.setHostMem (Memory.write s.host.mem (s.ringAddr i r + 16 * (n % size)) bytes)
  let s := s.setFld (F.rngHeadCount i r) ((n + 1) % 2 ^ 32)
  let q := s.ring i r
  s.setRing i r { q with
    unsignalled := q.unsignalled + 1
    firstAt := if q.unsignalled = 0 then s.now else q.firstAt
    nowDue := q.nowDue || now }

/-- The MAC address of port p. -/
def State.macOf (s : State) (p : Nat) : List Byte := (Tab.get [] s.mfg.mac p ++ List.replicate 6 0).take 6
/-- Device time in ns, TIM_NOW (17_time.md R457). -/
def State.deviceTime (s : State) : Nat := s.fld F.timNowNs

/-- Writing the OVERFLOW entry that reports lost events, where there is room (R361). -/
def State.reportLost (s : State) (i r : Nat) : State :=
  let q := s.ring i r
  if q.lost = 0 ∨ ¬ s.ringRoom i r ∨ ¬ s.dmaOk i then s
  else
    let n := s.fld (F.rngHeadCount i r)
    (s.setRing i r { q with lost := 0 }).ringPut i r
      (eventEntry 0x02 0 (q.lost % 2 ^ 32) s.deviceTime n (s.ringSize i r)) false

/-- The enabled EVT ring of function i. -/
def State.evtRing (s : State) (i : Nat) : Option Nat :=
  (List.range 256).find? (fun r => s.ringActive i r && s.ringKind i r == 7)

/-- An event for function i (R360, R361): written to its EVT ring, counted and dropped when the ring is full or the
function may not issue DMA (DESIGN CHOICE, log 10), dropped uncounted without an enabled ring. A manager event records the
wake cause event. -/
def State.event (s : State) (i code subject detail : Nat) : State :=
  let s := if i = 0 then s.wake 5 else s
  match s.evtRing i with
  | none => s
  | some r =>
    let s := s.reportLost i r
    if s.ringRoom i r ∧ s.dmaOk i then
      s.ringPut i r (eventEntry code subject (detail % 2 ^ 32) s.deviceTime (s.fld (F.rngHeadCount i r)) (s.ringSize i r)) false
    else s.setRing i r { s.ring i r with lost := (s.ring i r).lost + 1 }

/-- An event for the manager and for an owning instance. -/
def State.eventBoth (s : State) (owner : Option Nat) (code subject detail : Nat) : State :=
  let s := s.event 0 code subject detail
  match owner with
  | none => s
  | some i => s.event i code subject detail

/-! ### Starting and completing descriptors (R339 to R342) -/

/-- Field of a descriptor: n bytes at offset o, little-endian. -/
def Desc.le (d : Desc) (o n : Nat) : Nat := fieldLE d.bytes o n
/-- Bits of word 0 of a descriptor. -/
def Desc.w0 (d : Desc) (lsb width : Nat) : Nat := bitsOf (d.le 0 8) lsb width
/-- The descriptor's opcode. -/
def Desc.opcode (d : Desc) : Nat := d.le 0 1
/-- Bytes 32 to 63. -/
def Desc.label (d : Desc) : List Byte := (d.bytes.drop 32).take 32
/-- Bit 8 of word 0: bytes 32 to 63 hold a label. -/
def Desc.labelled (d : Desc) : Bool := bitOf (d.le 0 2) 8

/-- The descriptor without its label and the bit that says that it has one. -/
def Desc.unlabelled (d : Desc) : Desc :=
  { d with bytes := d.bytes.take 1 ++ leBytes 1 (d.le 1 1 / 2 * 2) ++ (d.bytes.drop 2).take 30 ++ List.replicate 32 0 }

/-- The bits of v lie within a mask. -/
def within (v mask : Nat) : Bool := v &&& mask == v

/-- What a descriptor may carry in bytes 32 to 63. -/
inductive LabelUse where
  | none | required | optional
  deriving DecidableEq, Repr

/-- The format of R340: reserved bits of word 0, the bits that the operation uses of word 0 [63:32] and of the operands,
and the label; bytes 32 to 63 are zero without one. -/
def Desc.good (d : Desc) (w0 w1 w2 w3 : Nat) (label : LabelUse) : Bool :=
  bitsOf (d.le 0 2) 11 5 == 0 && within (d.le 4 4) w0 && within (d.le 8 8) w1 && within (d.le 16 8) w2 && within (d.le 24 8) w3
    && (match label with
      | .none => !d.labelled
      | .required => d.labelled
      | .optional => true)
    && (d.labelled || d.label.all (· == 0))

/-- 64 bits set. -/
def allBits : Nat := 2 ^ 64 - 1

/-- The completion that a finished flight gives. -/
def State.cplOf (s : State) (i r : Nat) (f : Flight) : Cpl :=
  let d := f.done.getD (0, 0)
  ⟨d.1, f.num % s.ringSize i r, f.tag, r, d.2 % 2 ^ 64, f.now⟩

/-- The completion is handed to the CPL ring that ring r reports to. -/
def State.handOver (s : State) (i r : Nat) (c : Cpl) : State :=
  let q := s.fld (F.rngCfgCpl i r)
  s.setRing i q { s.ring i q with waiting := (s.ring i q).waiting ++ [c] }

/-- Finished flights leave: in order for CMP and MBX rings, each as it finishes for the other kinds (R341). -/
def popFinished (ordered : Bool) : List Flight → List Flight × List Flight
  | [] => ([], [])
  | f :: t =>
    if f.done.isSome then
      let (a, b) := popFinished ordered t
      (f :: a, b)
    else if ordered then ([], f :: t)
    else
      let (a, b) := popFinished ordered t
      (a, f :: b)

/-- A ring that is RESETTING and has nothing left in flight returns its counts to 0 and becomes DISABLED (R345). RNG_CTRL.reset
reads 1 until then, and 0 where it is written on a DISABLED ring (DESIGN CHOICE, log 27). -/
def State.settleReset (s : State) (i r : Nat) : State :=
  let q := s.ring i r
  if s.fld (F.rngStatusState i r) = 2 ∧ q.flight = [] ∧ q.waiting = [] then
    let s := s.setFld (F.rngHeadCount i r) 0
    let s := s.setFld (F.rngTailCount i r) 0
    let s := s.setFld (F.rngStatusState i r) 0
    let s := s.setFlag (F.rngCtrlReset i r) false
    let s := s.setRing i r Ring.init
    { s with host := { s.host with enabled := s.host.enabled - 1 } }
  else s

/-- Handing over every finished completion of ring r in its order. -/
def State.flush (s : State) (i r : Nat) : State :=
  let q := s.ring i r
  let (out, rest) := popFinished (orderedKind (s.ringKind i r)) q.flight
  let s := s.setRing i r { q with flight := rest }
  let s := out.foldl (fun s f => s.handOver i r (s.cplOf i r f)) s
  s.settleReset i r

/-- An entry can be written to CPL ring r of function i (R342, R345). -/
def State.cplOpen (s : State) (i r : Nat) : Bool :=
  s.ringKind i r == 8 && (s.ringActive i r || s.fld (F.rngStatusState i r) == 2) && s.dmaOk i && s.ringRoom i r

/-- The first entry that waits for CPL ring r of function i is written where it can be. -/
def State.writeCpl (s : State) (i r : Nat) : State :=
  let q := s.ring i r
  match q.waiting with
  | [] => s
  | c :: t =>
    if s.cplOpen i r then
      ((s.setRing i r { q with waiting := t }).ringPut i r (c.entry (s.fld (F.rngHeadCount i r)) (s.ringSize i r)) c.now).settleReset i r
    else s

/-- Every entry that waits for a CPL ring is written, as far as the rings have room. -/
def State.writeCpls (s : State) : State :=
  s.host.fns.foldl (fun s f => f.2.rings.foldl (fun s q => q.2.waiting.foldl (fun s _ => s.writeCpl f.1 q.1) s) s) s

/-- The operation of a descriptor finishes with a status and a result. An operation whose ring has been reset by an
FLR has no flight and writes nothing (R347). -/
def State.complete (s : State) (o : OpRef) (status result : Nat) : State :=
  let q := s.ring o.fn o.ring
  let fl := q.flight.map (fun f => if f.num = o.num ∧ f.done = none then { f with done := some (status, result) } else f)
  (s.setRing o.fn o.ring { q with flight := fl }).flush o.fn o.ring

/-- The descriptor with which ring r of function i starts next, if it is one of this kind and opcode and may start: the
ring is ACTIVE, the function fetches, and with the fence bit nothing of the ring is outstanding (R340, R341). -/
def State.next? (s : State) (i r kind opcode : Nat) : Option Desc :=
  match (s.ring i r).fetched with
  | [] => none
  | d :: _ =>
    if s.ringActive i r ∧ s.fetches i ∧ s.ringKind i r = kind ∧ d.opcode = opcode
        ∧ (bitOf (d.le 0 2) 9 → (s.ring i r).flight = []) then some d
    else none

/-- The descriptor d, the first of its ring, starts: it leaves the fetched list and is in flight. -/
def State.launch (s : State) (i r : Nat) (d : Desc) : State :=
  let q := s.ring i r
  s.setRing i r { q with
    fetched := q.fetched.drop 1
    flight := q.flight ++ [⟨d.num, d.le 2 2, bitOf (d.le 0 2) 10, d.opcode, none, 0⟩] }

/-- An operation that belongs to no ring any more: its completion goes nowhere (R347). -/
def OpRef.dead : OpRef := ⟨64, 0, 0⟩

/-- Noting the partitions that an operation in flight needs (R498). -/
def State.setNeeds (s : State) (o : OpRef) (mask : Nat) : State :=
  let q := s.ring o.fn o.ring
  s.setRing o.fn o.ring { q with flight := q.flight.map (fun f => if f.num = o.num then { f with needs := mask } else f) }

/-- An operation is in flight and has not finished. -/
def State.outstanding (s : State) (o : OpRef) : Bool :=
  (s.ring o.fn o.ring).flight.any (fun f => f.num == o.num && f.done.isNone)

/-- The engine of a ring kind is fenced; a lost vote counts as fenced (R374, R498). -/
def Rcv.engineFenced (x : Rcv) (kind : Nat) : Bool :=
  let b := Tab.get (Rwt.of false) x.engineFence kind
  (vote b.a b.b b.c).getD true

/-- The fence of one bench, stream, core or link; a lost vote counts as fenced (R374, R498). -/
def Rcv.unitFenced (x : Rcv) (sc : Scope) : Bool :=
  match x.unitFence.find? (fun f => f.1 == sc) with
  | none => false
  | some (_, b) => (vote b.a b.b b.c).getD true

/-- Registers return to their reset values; the reserved bits that manufacture set stay (R375). -/
def State.dropRegs (s : State) (gone : Nat → Bool) : State :=
  let keep : Nat × Nat → Bool := fun p => !gone p.1
  let made := s.mfg.rvBits.filter (fun p => gone p.1)
  { s with regs := { s.regs with
      val := made.foldl (fun t (a, v) => Tab.set (regReset a) t a (regReset a ||| v)) (s.regs.val.filter keep)
      cpB := s.regs.cpB.filter keep, cpC := s.regs.cpC.filter keep } }

/-- Runs the operation body on the next descriptor of ring r where it is of this kind and opcode; otherwise the
command has nothing to do and the state stays (log 2). An engine in an L1 and a device after its last power-cycle request
answer FENCED (19_recovery.md R498, R503). -/
def State.withOp (s : State) (i r kind opcode : Nat) (body : State → OpRef → Desc → State) : State :=
  match s.next? i r kind opcode with
  | none => s
  | some d =>
    if s.rcv.fencedForGood ∨ s.rcv.engineFenced kind then
      (s.launch i r d).complete ⟨i, r, d.num⟩ Status.fenced 0
    else body (s.launch i r d) ⟨i, r, d.num⟩ d

/-! ### Requested operations of op fields (log 9) -/

/-- The operation that block b's applied op field asks for. -/
def State.request (s : State) (b : Nat) : Nat := Tab.get 0 s.regs.req b
/-- Writing the asked operation of block b. -/
def State.setRequest (s : State) (b v : Nat) : State := { s with regs := { s.regs with req := Tab.set 0 s.regs.req b v } }

end Sys2Proof.Machine
end

