-- ==== Sys2Proof/Machine/Operands.lean ====
section
/-! DEFINITION. Operand forms of the sequencer instructions (03_benches.md R94, R95, R542 to R546): the fields of
their operand words, and which words the manual allows for each operation. -/

namespace Sys2Proof.Machine

/-! ### Slots and words (R94, R95) -/

/-- The operations of R95 by class and op code. -/
inductive SeqOp where
  | nop | endProg | loop | waitm | sync | openWin
  | mmt | mms
  | aclr | aanc | awb | aexp | aimp | abias | asamp
  | vec (op : Nat)
  | vdraw | vred
  | trn (op : Nat)
  | spre | sqnt | sxch
  | mov (op : Nat)
  deriving DecidableEq, Repr

/-- The operation of a class and op code; none where R95 defines none. -/
def seqOp (cls op : Nat) : Option SeqOp :=
  match cls with
  | 0 => [SeqOp.nop, .endProg, .loop, .waitm, .sync, .openWin][op]?
  | 1 => [SeqOp.mmt, .mms][op]?
  | 2 => [SeqOp.aclr, .aanc, .awb, .aexp, .aimp, .abias, .asamp][op]?
  | 3 => if op < 0x10 then some (.vec op) else if op = 0x10 then some .vdraw else if op = 0x11 then some .vred else none
  | 4 => if op < 9 then some (.trn op) else none
  | 5 => [SeqOp.spre, .sqnt, .sxch][op]?
  | 6 => if op < 5 then some (.mov op) else none
  | _ => none

/-- The class of an operation, for the issue limits of R96. -/
def SeqOp.cls : SeqOp → Nat
  | .nop | .endProg | .loop | .waitm | .sync | .openWin => 0
  | .mmt | .mms => 1
  | .aclr | .aanc | .awb | .aexp | .aimp | .abias | .asamp => 2
  | .vec _ | .vdraw | .vred => 3
  | .trn _ => 4
  | .spre | .sqnt | .sxch => 5
  | .mov _ => 6

/-- The extension slots that follow an operation (R544). -/
def SeqOp.ext : SeqOp → Nat
  | .spre => 1
  | .mov _ => 2
  | _ => 0

/-- The words of a 128-bit slot (R94). -/
def slotWords (v : Nat) : SeqWords :=
  { wait := BitVec.ofNat 16 (bitsOf v 12 16), split := bitOf v 28, bf := bitOf v 29, rsv := BitVec.ofNat 2 (bitsOf v 30 2),
    a := BitVec.ofNat 32 (bitsOf v 32 32), b := BitVec.ofNat 32 (bitsOf v 64 32), c := BitVec.ofNat 32 (bitsOf v 96 32) }

/-- The operation of a 128-bit slot. -/
def slotOp (v : Nat) : Option SeqOp := seqOp (bitsOf v 0 4) (bitsOf v 4 8)

/-! ### Fields of the operand words (R543) -/

end Sys2Proof.Machine

namespace Sys2Proof

/-- Bits of word a. -/
def SeqWords.fa (i : SeqWords) (lsb w : Nat) : Nat := i.a.toNat / 2 ^ lsb % 2 ^ w
/-- Bits of word b. -/
def SeqWords.fb (i : SeqWords) (lsb w : Nat) : Nat := i.b.toNat / 2 ^ lsb % 2 ^ w
/-- Bits of word c. -/
def SeqWords.fc (i : SeqWords) (lsb w : Nat) : Nat := i.c.toNat / 2 ^ lsb % 2 ^ w
/-- The window range of R543: set, first window and count. -/
def SeqWords.winSet (i : SeqWords) : Nat := i.fc 0 2
def SeqWords.winFirst (i : SeqWords) : Nat := i.fc 2 10
def SeqWords.winCount (i : SeqWords) : Nat := i.fc 12 11
/-- Vector registers of c. -/
def SeqWords.vd (i : SeqWords) : Nat := i.fc 0 5
def SeqWords.vs1 (i : SeqWords) : Nat := i.fc 5 5
def SeqWords.vs2 (i : SeqWords) : Nat := i.fc 10 5
def SeqWords.vs3 (i : SeqWords) : Nat := i.fc 15 5

end Sys2Proof

namespace Sys2Proof.Machine

/-- Bits of an extension slot. -/
def slotBits (x : Slot) (lsb w : Nat) : Nat := bitsOf x.toNat lsb w

/-- An access of n bytes from the start of a line stays inside the bench store (R82). -/
def inStore (line n : Nat) : Bool := decide (64 * line + n ≤ 0x400000)

/-! ### Matrix shapes (R67, R68) -/

/-- Bits per element of a type code: 0 to 5 of R40, 8 for BF16, 9 and 15 for FP32. -/
def typeBits (t : Nat) : Nat :=
  match t with
  | 0 => 4
  | 1 | 2 => 6
  | 3 | 4 | 5 => 8
  | 8 => 16
  | _ => 32

/-- A pair of type codes that an MMA takes (R68, R543). -/
def mmaTypes (ta tb : Nat) : Bool := (decide (ta ≤ 5) && decide (tb ≤ 5)) || (ta == 8 && tb == 8)

/-- Reduction depth of one MMT for a pair of types: that of the wider type (R67, R68). -/
def tileK (ta tb : Nat) : Nat :=
  let w := max (typeBits ta) (typeBits tb)
  if w = 4 then 64 else if w ≤ 8 then 32 else 16

/-- Reduction depth of one issue. -/
def issueK (stream : Bool) (ta tb : Nat) : Nat := if stream then 16 * tileK ta tb else tileK ta tb

/-- Rows of the output of one issue. -/
def issueM (stream : Bool) : Nat := if stream then 1 else 16

/-- Lines that K elements of a type take. -/
def rowLines (k t : Nat) : Nat := ceilDiv (k * typeBits t) 512

/-- Bytes of the scale operand of one MX issue (R543). -/
def scaleBytes (stream : Bool) (ta tb : Nat) : Nat := (64 + issueM stream) * (issueK stream ta tb / 32)

/-! ### Allowed operands (R542 to R546) -/

/-- A window range inside its set. -/
def winRange (i : SeqWords) : Bool := decide (i.winFirst + i.winCount ≤ 1024)

/-- MMT and MMS. -/
def goodMma (stream : Bool) (i : SeqWords) : Bool :=
  let ta := i.fc 16 4
  let tb := i.fc 20 4
  let k := issueK stream ta tb
  let sa := i.fa 16 16
  let sb := i.fb 16 16
  mmaTypes ta tb && i.fc 30 2 == 0 && (stream || i.fc 26 4 == 0)
    && (if stream then sa == 0 else decide (rowLines k ta ≤ sa)) && decide (rowLines k tb ≤ sb)
    && inStore (i.fa 0 16 + (issueM stream - 1) * sa) (64 * rowLines k ta)
    && inStore (i.fb 0 16 + 63 * sb) (64 * rowLines k tb)
    && (if ta = 8 then i.fc 0 16 == 0 else inStore (i.fc 0 16) (scaleBytes stream ta tb))

/-- An ACC instruction over a window range with a line in word a and n bytes for each window. -/
def goodRange (i : SeqWords) (n : Nat) : Bool :=
  winRange i && i.fa 16 16 == 0 && i.b == 0 && i.fc 23 9 == 0 && inStore (i.fa 0 16) (n * i.winCount)

/-- AANC. -/
def goodAanc (i : SeqWords) : Bool :=
  winRange i && i.fa 16 16 == 0 && i.fb 16 16 == 0 && i.fc 25 7 == 0 && i.fc 23 2 != 3
    && (i.fc 23 2 != 2 || inStore (i.fa 0 16) (2 * i.winCount))

/-- ASAMP. -/
def goodAsamp (i : SeqWords) : Bool :=
  i.fa 16 16 == 0 && i.fb 16 16 == 0 && i.fc 21 11 == 0 && decide (i.fc 0 21 ≤ 2 ^ 20)
    && inStore (i.fa 0 16) (4 * i.fc 0 21)

/-- What an SPRE covers. -/
inductive SpreKind where
  | mx | bf16 | product | single
  deriving DecidableEq, Repr

/-- The kind of an SPRE from its type codes (R543). Terms of kind product in FP32 have 0x9 as B type too (DESIGN CHOICE, log 30). -/
def spreKind (i : SeqWords) : Option SpreKind :=
  let ta := i.fc 16 4
  let tb := i.fc 20 4
  if ta ≤ 5 ∧ tb ≤ 5 then some .mx
  else if ta = 8 ∧ tb = 8 then some .bf16
  else if ta = 9 ∧ tb = 9 then some .product
  else if ta = 9 ∧ tb = 15 then some .single
  else none

/-- SPRE with its extension slot (R544). -/
def goodSpre (i : SeqWords) (x : Slot) : Bool :=
  let stream := bitOf i.c.toNat 30
  let n := slotBits x 64 16 + 1
  let aLine := slotBits x 0 16
  let bLine := slotBits x 16 16
  let aStep := slotBits x 32 16
  let bStep := slotBits x 48 16
  let wins := if stream then 64 else 1024
  i.a == 0 && i.b == 0 && i.fc 0 16 == 0 && slotBits x 97 3 == 0 && slotBits x 124 4 == 0
    && (stream || i.fc 26 4 == 0)
    && (match spreKind i with
      | none => false
      | some .mx =>
        let ta := i.fc 16 4
        let tb := i.fc 20 4
        bLine == 0 && bStep == 0 && slotBits x 100 12 == 0 && slotBits x 112 12 == 0
          && inStore (aLine + (n - 1) * aStep) (scaleBytes stream ta tb)
          && (slotBits x 96 1 == 0 || inStore (slotBits x 80 16) (4 * wins))
      | some .bf16 =>
        let k := issueK stream 8 8
        let sa := slotBits x 100 12
        let sb := slotBits x 112 12
        (if stream then sa == 0 else decide (rowLines k 8 ≤ sa)) && decide (rowLines k 8 ≤ sb)
          && inStore (aLine + (n - 1) * aStep + (issueM stream - 1) * sa) (64 * rowLines k 8)
          && inStore (bLine + (n - 1) * bStep + 63 * sb) (64 * rowLines k 8)
          && (slotBits x 96 1 == 0 || inStore (slotBits x 80 16) (4 * wins))
      | some .product =>
        !stream && aStep == 0 && bStep == 0 && slotBits x 110 2 == 0 && slotBits x 112 12 == 0
          && inStore aLine (2048 * n) && inStore bLine (2048 * n)
          && (slotBits x 96 1 == 0 || inStore (slotBits x 80 16) 4)
      | some .single =>
        !stream && aStep == 0 && bStep == 0 && bLine == 0 && slotBits x 110 2 == 0 && slotBits x 112 12 == 0
          && inStore aLine (2048 * n)
          && (slotBits x 96 1 == 0 || inStore (slotBits x 80 16) 4))

/-- SQNT. -/
def goodSqnt (i : SeqWords) : Bool :=
  let ty := i.fc 0 4
  let n := i.fc 4 12
  i.fa 16 16 == 0 && i.fb 16 16 == 0 && decide (ty ≤ 5) && inStore (i.fa 0 16) (128 * n)
    && inStore (i.fb 0 16) (4 * typeBits ty * n) && inStore (i.fc 16 16) n

/-- VEC operations 0x00 to 0x0F, with the bytes that loads and stores move (R545). -/
def goodVec (op : Nat) (i : SeqWords) : Bool :=
  i.fa 16 16 == 0 && i.fc 26 6 == 0 && (op != 8 || decide (i.fc 20 3 ≤ 5))
    && ((op != 0x0A && op != 0x0B) || inStore (i.fa 0 16) 2048)
    && ((op != 0x0C && op != 0x0D) || inStore (i.fa 0 16) 1024)

/-- VDRAW. -/
def goodVdraw (i : SeqWords) : Bool := i.fa 16 16 == 0 && i.fc 26 6 == 0 && decide (i.vd ≤ 30)

/-- VRED. The row VEC of R543 names every bit of b, so the bits above VRED's window are free (log 21). -/
def goodVred (i : SeqWords) : Bool := i.fa 16 16 == 0 && i.fc 26 6 == 0

/-- The places of an MOV's shape (R546): run, groups of runs and strides, the far strides in bytes. -/
def movShape (op : Nat) (i : SeqWords) (x1 x2 : Slot) : Transfer :=
  { op := op, toLocal := bitOf i.c.toNat 0, route := bitOf i.c.toNat 1, dovetail := op == 3 || bitOf i.c.toNat 2,
    line := i.fa 0 16, far := slotBits x1 0 64, run := slotBits x1 64 16 + 1, runs1 := slotBits x1 80 16 + 1,
    runs2 := slotBits x1 96 16 + 1, far1 := slotBits x2 0 32, far2 := slotBits x2 32 32, loc1 := slotBits x2 64 16,
    loc2 := slotBits x2 80 16, moved := 0, violated := false }

/-- Lines of a transfer. -/
def Transfer.lines (t : Transfer) : Nat := t.run * t.runs1 * t.runs2

/-- Ring distance two on the compute dies: neither the same die nor a neighbour (R15, R16). -/
def farDies (b c : Nat) : Bool := (b / 40 + 2) % 4 == c / 40

/-- MOV of bench b with its extension slots (R86, R546). -/
def goodMov (b op : Nat) (i : SeqWords) (x1 x2 : Slot) : Bool :=
  let t := movShape op i x1 x2
  let peer := slotBits x1 16 8
  let fabric := op == 2 || (op == 4 && !t.dovetail)
  i.fa 16 16 == 0 && i.b == 0 && i.fc 3 29 == 0 && slotBits x1 112 16 == 0 && slotBits x2 96 32 == 0
    && (op == 4 || !bitOf i.c.toNat 2) && (op != 4 || !t.toLocal)
    && (!t.route || (fabric && farDies b peer))
    && t.far1 % 64 == 0 && t.far2 % 64 == 0 && decide (t.lines ≤ 65536)
    && decide (t.line + (t.runs2 - 1) * t.loc2 + (t.runs1 - 1) * t.loc1 + t.run ≤ 65536)
    && (if fabric then
          slotBits x1 24 40 == 0 && decide (peer < 160)
            && decide (slotBits x1 0 16 + (t.runs2 - 1) * (t.far2 / 64) + (t.runs1 - 1) * (t.far1 / 64) + t.run ≤ 65536)
        else if t.dovetail then slotBits x1 3 13 == 0 && slotBits x1 32 32 == 0 && decide (slotBits x1 0 3 < 6)
        else t.far % 64 == 0 && bitsOf t.far 44 4 == (if op = 0 then 1 else 2))

/-- The operand rule of each operation on bench b: words, and the extension slots that follow. -/
def goodSlot (b : Nat) (op : SeqOp) (i : SeqWords) (x1 x2 : Slot) : Bool :=
  i.rsv == 0 &&
  (match op with
   | .nop | .endProg => i.a == 0 && i.b == 0 && i.c == 0
   | .loop => decide (1 ≤ i.fa 0 8) && i.fa 8 24 == 0 && decide (1 ≤ i.fb 0 16) && i.fb 16 16 == 0 && i.c == 0
   | .waitm => i.b == 0 && i.c == 0
   | .sync => i.fb 16 16 == 0 && i.fc 4 28 == 0
   | .openWin => decide (33 ≤ i.a.toNat) && i.b == 0 && i.c == 0
   | .mmt => goodMma false i
   | .mms => goodMma true i
   | .aclr => goodRange i 0 && i.a == 0
   | .aanc => goodAanc i
   | .awb => goodRange i (if i.bf then 2 else 4)
   | .aexp | .aimp => goodRange i 16
   | .abias => goodRange i 4
   | .asamp => goodAsamp i
   | .vec n => goodVec n i
   | .vdraw => goodVdraw i
   | .vred => goodVred i
   | .trn _ => i.a == 0 && i.b == 0 && i.fc 10 22 == 0
   | .spre => goodSpre i x1
   | .sqnt => goodSqnt i
   | .sxch => goodRange i 2
   | .mov n => goodMov b n i x1 x2)

end Sys2Proof.Machine
end

