-- ==== Sys2Proof/Decode.lean ====
section
/-! DEFINITION. The words that the manual encodes. The word decoder the host asks for answers none: no row of the opcode table
gives bits, as the block takes commands, not words. The encoded words whose every bit the manual states are read here: a
sequencer slot (03_benches.md R94, R95), and the Branch and CPX words of a Tenon core (08_tenon.md R236, R237, R260, R261). -/

namespace Sys2Proof

/-- The command that a word of nbits bits spells by the opcode table's bits: none, as no row has bits. -/
def decodeTableWord (_nbits _w : Nat) : Option Instr := none

/-! ### Sequencer slots (R94, R95, R544) -/

/-- The command of an operation of R95 with its slot's words and its extension slots. -/
def seqCommand (b : BenchId) (i : SeqWords) (x1 x2 : Slot) : Machine.SeqOp → Option Instr
  | .nop => some (.nop b i)
  | .endProg => some (.endProg b i)
  | .loop => some (.loop b i)
  | .waitm => some (.waitm b i)
  | .sync => some (.sync b i)
  | .openWin => some (.openWin b i)
  | .mmt => some (.mmt b i)
  | .mms => some (.mms b i)
  | .aclr => some (.aclr b i)
  | .aanc => some (.aanc b i)
  | .awb => some (.awb b i)
  | .aexp => some (.aexp b i)
  | .aimp => some (.aimp b i)
  | .abias => some (.abias b i)
  | .asamp => some (.asamp b i)
  | .vec n => [Instr.vecAdd b i, .vecSub b i, .vecMul b i, .vecFma b i, .vecDiv b i, .vecSqrt b i, .vecMax b i, .vecMin b i,
      .vecCmp b i, .vecSel b i, .ldf b i, .stf b i, .vecLdb b i, .vecStb b i, .vecMove b i, .bcst b i][n]?
  | .vdraw => some (.vdraw b i)
  | .vred => some (.vred b i)
  | .trn n => [Instr.trnExp2 b i, .trnExp b i, .trnLog2 b i, .trnLog b i, .trnRcp b i, .trnRsqrt b i, .trnTanh b i,
      .trnSinpi b i, .trnCospi b i][n]?
  | .spre => some (.spre b i x1)
  | .sqnt => some (.sqnt b i)
  | .sxch => some (.sxch b i)
  | .mov n => [Instr.mns b i x1 x2, .mhb b i x1 x2, .mbb b i x1 x2, .mlk b i x1 x2, .maxAnchors b i x1 x2][n]?

/-- The command of bench b that a 128-bit slot with the two slots after it spells; none where the class or the op code is not
defined. -/
def decodeSlot (b : BenchId) (v : Nat) (x1 x2 : Slot) : Option Instr :=
  (Machine.slotOp v).bind (seqCommand b (Machine.slotWords v) x1 x2)

/-! ### Tenon words (R236) -/

/-- The class of a word. -/
def tenonClass (w : W32) : Nat := (w.extractLsb' 28 4).toNat

/-- The class has a long form. -/
def longClass (c : Nat) : Bool := [1, 4, 5, 6, 8].contains c

/-- What makes a word ILLEGAL by its class alone: an unused class code, or op bit 27 in a class, other than Branch, without a long
form. -/
def badClass (w : W32) : Bool :=
  decide (0xC ≤ tenonClass w) || (tenonClass w != 7 && !longClass (tenonClass w) && w.getLsbD 27)

/-- A Branch word on core k (R237); the reserved condition is ILLEGAL. sq is what the branch squashes, which the pipeline brings. -/
def decodeBranch (k : CoreId) (w : W32) (sq : Squash) : Option Instr :=
  if tenonClass w = 7 ∧ w.extractLsb' 24 4 ≠ 0xF then some (.branch k (w.extractLsb' 24 4) (w.extractLsb' 0 24) sq) else none

/-- The fields of a CPX word (R260). -/
def cpxFields (w : W32) : CpxFields :=
  ⟨w.extractLsb' 18 4, w.extractLsb' 15 3, w.extractLsb' 11 4, w.extractLsb' 8 3, w.extractLsb' 1 7, w.getLsbD 0⟩

/-- A CPX word on core k (R260, R261); an op code that R261 does not define is ILLEGAL. -/
def decodeCpx (k : CoreId) (w : W32) : Option Instr :=
  let x := cpxFields w
  if tenonClass w = 0xB then
    match (w.extractLsb' 22 6).toNat with
    | 0x00 => some (.cld k x)
    | 0x01 => some (.cvec k x)
    | 0x02 => some (.ctrn k x)
    | 0x03 => some (.cdraw k x)
    | 0x04 => some (.csamp k x)
    | 0x05 => some (.crd k x)
    | 0x06 => some (.cwr k x)
    | 0x07 => some (.cwait k x)
    | 0x10 => some (.cwb k x)
    | 0x11 => some (.cmovc k x)
    | 0x12 => some (.croute k x)
    | 0x13 => some (.csync k x)
    | 0x14 => some (.crel k x)
    | _ => none
  else none

end Sys2Proof
end

