-- ==== Sys2Proof/Machine/Crypto.lean ====
section
/-! DEFINITION. The cryptographic functions that the manual takes by name from their standards (10_tenancy.md R287,
R300, R304; 04_cutlists.md R109; 11_pcie.md R317): SHA-384, AES-256, CMAC and the counter-mode KDF, GCM, CRC-32 and
ECDSA P-384 verification. PRESUMED (log 12): the standards' own text is not in the spec. -/

namespace Sys2Proof.Machine.Crypto

/-! ### SHA-384 (FIPS 180-4) -/

/-- The round constants of SHA-384. -/
def shaK : List (BitVec 64) :=
  [0x428A2F98D728AE22#64, 0x7137449123EF65CD#64, 0xB5C0FBCFEC4D3B2F#64, 0xE9B5DBA58189DBBC#64] ++
  [0x3956C25BF348B538#64, 0x59F111F1B605D019#64, 0x923F82A4AF194F9B#64, 0xAB1C5ED5DA6D8118#64] ++
  [0xD807AA98A3030242#64, 0x12835B0145706FBE#64, 0x243185BE4EE4B28C#64, 0x550C7DC3D5FFB4E2#64] ++
  [0x72BE5D74F27B896F#64, 0x80DEB1FE3B1696B1#64, 0x9BDC06A725C71235#64, 0xC19BF174CF692694#64] ++
  [0xE49B69C19EF14AD2#64, 0xEFBE4786384F25E3#64, 0x0FC19DC68B8CD5B5#64, 0x240CA1CC77AC9C65#64] ++
  [0x2DE92C6F592B0275#64, 0x4A7484AA6EA6E483#64, 0x5CB0A9DCBD41FBD4#64, 0x76F988DA831153B5#64] ++
  [0x983E5152EE66DFAB#64, 0xA831C66D2DB43210#64, 0xB00327C898FB213F#64, 0xBF597FC7BEEF0EE4#64] ++
  [0xC6E00BF33DA88FC2#64, 0xD5A79147930AA725#64, 0x06CA6351E003826F#64, 0x142929670A0E6E70#64] ++
  [0x27B70A8546D22FFC#64, 0x2E1B21385C26C926#64, 0x4D2C6DFC5AC42AED#64, 0x53380D139D95B3DF#64] ++
  [0x650A73548BAF63DE#64, 0x766A0ABB3C77B2A8#64, 0x81C2C92E47EDAEE6#64, 0x92722C851482353B#64] ++
  [0xA2BFE8A14CF10364#64, 0xA81A664BBC423001#64, 0xC24B8B70D0F89791#64, 0xC76C51A30654BE30#64] ++
  [0xD192E819D6EF5218#64, 0xD69906245565A910#64, 0xF40E35855771202A#64, 0x106AA07032BBD1B8#64] ++
  [0x19A4C116B8D2D0C8#64, 0x1E376C085141AB53#64, 0x2748774CDF8EEB99#64, 0x34B0BCB5E19B48A8#64] ++
  [0x391C0CB3C5C95A63#64, 0x4ED8AA4AE3418ACB#64, 0x5B9CCA4F7763E373#64, 0x682E6FF3D6B2B8A3#64] ++
  [0x748F82EE5DEFB2FC#64, 0x78A5636F43172F60#64, 0x84C87814A1F0AB72#64, 0x8CC702081A6439EC#64] ++
  [0x90BEFFFA23631E28#64, 0xA4506CEBDE82BDE9#64, 0xBEF9A3F7B2C67915#64, 0xC67178F2E372532B#64] ++
  [0xCA273ECEEA26619C#64, 0xD186B8C721C0C207#64, 0xEADA7DD6CDE0EB1E#64, 0xF57D4F7FEE6ED178#64] ++
  [0x06F067AA72176FBA#64, 0x0A637DC5A2C898A6#64, 0x113F9804BEF90DAE#64, 0x1B710B35131C471B#64] ++
  [0x28DB77F523047D84#64, 0x32CAAB7B40C72493#64, 0x3C9EBE0A15C9BEBC#64, 0x431D67C49C100D4C#64] ++
  [0x4CC5D4BECB3E42B6#64, 0x597F299CFC657E2A#64, 0x5FCB6FAB3AD6FAEC#64, 0x6C44198C4A475817#64]

/-- The initial hash value of SHA-384. -/
def shaInit : List (BitVec 64) :=
  [0xCBBB9D5DC1059ED8#64, 0x629A292A367CD507#64, 0x9159015A3070DD17#64, 0x152FECD8F70E5939#64] ++
  [0x67332667FFC00B31#64, 0x8EB44A8768581511#64, 0xDB0C2E0D64F98FA7#64, 0x47B5481DBEFA4FA4#64]

/-- The next word of the message schedule from the sixteen before it, latest first. -/
def shaSchedWord (w : List (BitVec 64)) : BitVec 64 :=
  let w2 := w.getD 1 0
  let w15 := w.getD 14 0
  let s1 := (w2.rotateRight 19) ^^^ (w2.rotateRight 61) ^^^ (w2 >>> 6)
  let s0 := (w15.rotateRight 1) ^^^ (w15.rotateRight 8) ^^^ (w15 >>> 7)
  s1 + w.getD 6 0 + s0 + w.getD 15 0

/-- n further schedule words, newest first. -/
def shaSched : Nat → List (BitVec 64) → List (BitVec 64)
  | 0, w => w
  | n + 1, w => shaSched n (shaSchedWord w :: w)

/-- One round over the working variables a..h. -/
def shaRound (v : List (BitVec 64)) (kw : BitVec 64 × BitVec 64) : List (BitVec 64) :=
  match v with
  | [a, b, c, d, e, f, g, h] =>
    let t1 := h + ((e.rotateRight 14) ^^^ (e.rotateRight 18) ^^^ (e.rotateRight 41)) + ((e &&& f) ^^^ (~~~e &&& g))
      + kw.1 + kw.2
    let t2 := ((a.rotateRight 28) ^^^ (a.rotateRight 34) ^^^ (a.rotateRight 39)) + ((a &&& b) ^^^ (a &&& c) ^^^ (b &&& c))
    [t1 + t2, a, b, c, d + t1, e, f, g]
  | _ => v

/-- The 64-bit big-endian words of n times eight bytes. -/
def beWords : Nat → List Byte → List (BitVec 64)
  | 0, _ => []
  | n + 1, bs => BitVec.ofNat 64 (beNat (bs.take 8)) :: beWords n (bs.drop 8)

/-- One 128-byte block. -/
def shaBlock (h : List (BitVec 64)) (blk : List Byte) : List (BitVec 64) :=
  let w := (shaSched 64 (beWords 16 blk).reverse).reverse
  List.zipWith (· + ·) h ((shaK.zip w).foldl shaRound h)

/-- n blocks. -/
def shaBlocks : Nat → List (BitVec 64) → List Byte → List (BitVec 64)
  | 0, h, _ => h
  | n + 1, h, bs => shaBlocks n (shaBlock h (bs.take 128)) (bs.drop 128)

/-- SHA-384 of a message: 48 bytes. -/
def sha384 (msg : List Byte) : List Byte :=
  let len := msg.length
  let pad := (128 - (len + 17) % 128) % 128
  let m := msg ++ [0x80#8] ++ List.replicate pad 0#8 ++ beBytes 16 (8 * len)
  ((shaBlocks (m.length / 128) shaInit m).take 6).flatMap (fun w => beBytes 8 w.toNat)

/-! ### AES-256 (FIPS 197) -/

/-- The S-box. -/
def aesSbox : List Byte :=
  [0x63#8, 0x7C#8, 0x77#8, 0x7B#8, 0xF2#8, 0x6B#8, 0x6F#8, 0xC5#8, 0x30#8, 0x01#8, 0x67#8, 0x2B#8, 0xFE#8, 0xD7#8, 0xAB#8, 0x76#8] ++
  [0xCA#8, 0x82#8, 0xC9#8, 0x7D#8, 0xFA#8, 0x59#8, 0x47#8, 0xF0#8, 0xAD#8, 0xD4#8, 0xA2#8, 0xAF#8, 0x9C#8, 0xA4#8, 0x72#8, 0xC0#8] ++
  [0xB7#8, 0xFD#8, 0x93#8, 0x26#8, 0x36#8, 0x3F#8, 0xF7#8, 0xCC#8, 0x34#8, 0xA5#8, 0xE5#8, 0xF1#8, 0x71#8, 0xD8#8, 0x31#8, 0x15#8] ++
  [0x04#8, 0xC7#8, 0x23#8, 0xC3#8, 0x18#8, 0x96#8, 0x05#8, 0x9A#8, 0x07#8, 0x12#8, 0x80#8, 0xE2#8, 0xEB#8, 0x27#8, 0xB2#8, 0x75#8] ++
  [0x09#8, 0x83#8, 0x2C#8, 0x1A#8, 0x1B#8, 0x6E#8, 0x5A#8, 0xA0#8, 0x52#8, 0x3B#8, 0xD6#8, 0xB3#8, 0x29#8, 0xE3#8, 0x2F#8, 0x84#8] ++
  [0x53#8, 0xD1#8, 0x00#8, 0xED#8, 0x20#8, 0xFC#8, 0xB1#8, 0x5B#8, 0x6A#8, 0xCB#8, 0xBE#8, 0x39#8, 0x4A#8, 0x4C#8, 0x58#8, 0xCF#8] ++
  [0xD0#8, 0xEF#8, 0xAA#8, 0xFB#8, 0x43#8, 0x4D#8, 0x33#8, 0x85#8, 0x45#8, 0xF9#8, 0x02#8, 0x7F#8, 0x50#8, 0x3C#8, 0x9F#8, 0xA8#8] ++
  [0x51#8, 0xA3#8, 0x40#8, 0x8F#8, 0x92#8, 0x9D#8, 0x38#8, 0xF5#8, 0xBC#8, 0xB6#8, 0xDA#8, 0x21#8, 0x10#8, 0xFF#8, 0xF3#8, 0xD2#8] ++
  [0xCD#8, 0x0C#8, 0x13#8, 0xEC#8, 0x5F#8, 0x97#8, 0x44#8, 0x17#8, 0xC4#8, 0xA7#8, 0x7E#8, 0x3D#8, 0x64#8, 0x5D#8, 0x19#8, 0x73#8] ++
  [0x60#8, 0x81#8, 0x4F#8, 0xDC#8, 0x22#8, 0x2A#8, 0x90#8, 0x88#8, 0x46#8, 0xEE#8, 0xB8#8, 0x14#8, 0xDE#8, 0x5E#8, 0x0B#8, 0xDB#8] ++
  [0xE0#8, 0x32#8, 0x3A#8, 0x0A#8, 0x49#8, 0x06#8, 0x24#8, 0x5C#8, 0xC2#8, 0xD3#8, 0xAC#8, 0x62#8, 0x91#8, 0x95#8, 0xE4#8, 0x79#8] ++
  [0xE7#8, 0xC8#8, 0x37#8, 0x6D#8, 0x8D#8, 0xD5#8, 0x4E#8, 0xA9#8, 0x6C#8, 0x56#8, 0xF4#8, 0xEA#8, 0x65#8, 0x7A#8, 0xAE#8, 0x08#8] ++
  [0xBA#8, 0x78#8, 0x25#8, 0x2E#8, 0x1C#8, 0xA6#8, 0xB4#8, 0xC6#8, 0xE8#8, 0xDD#8, 0x74#8, 0x1F#8, 0x4B#8, 0xBD#8, 0x8B#8, 0x8A#8] ++
  [0x70#8, 0x3E#8, 0xB5#8, 0x66#8, 0x48#8, 0x03#8, 0xF6#8, 0x0E#8, 0x61#8, 0x35#8, 0x57#8, 0xB9#8, 0x86#8, 0xC1#8, 0x1D#8, 0x9E#8] ++
  [0xE1#8, 0xF8#8, 0x98#8, 0x11#8, 0x69#8, 0xD9#8, 0x8E#8, 0x94#8, 0x9B#8, 0x1E#8, 0x87#8, 0xE9#8, 0xCE#8, 0x55#8, 0x28#8, 0xDF#8] ++
  [0x8C#8, 0xA1#8, 0x89#8, 0x0D#8, 0xBF#8, 0xE6#8, 0x42#8, 0x68#8, 0x41#8, 0x99#8, 0x2D#8, 0x0F#8, 0xB0#8, 0x54#8, 0xBB#8, 0x16#8]

/-- The substitution of one byte. -/
def aesSub (b : Byte) : Byte := aesSbox.getD b.toNat 0

/-- Multiplication by x in the field of AES. -/
def aesXtime (b : Byte) : Byte := (b <<< 1) ^^^ (if b.msb then 0x1B#8 else 0#8)

/-- The key schedule, word by word: words newest first, i the index of the next word. -/
def aesExpand : Nat → Nat → Byte → List (List Byte) → List (List Byte)
  | 0, _, _, w => w
  | n + 1, i, rc, w =>
    let last := w.headD []
    let prev8 := w.getD 7 []
    let t := if i % 8 = 0 then
        match (last.drop 1 ++ last.take 1).map aesSub with
        | x :: xs => (x ^^^ rc) :: xs
        | [] => []
      else if i % 8 = 4 then last.map aesSub else last
    aesExpand n (i + 1) (if i % 8 = 0 then aesXtime rc else rc) (List.zipWith (· ^^^ ·) prev8 t :: w)

/-- The first eight words of the schedule, newest first. -/
def aesKeyWords : Nat → List Byte → List (List Byte) → List (List Byte)
  | 0, _, w => w
  | n + 1, bs, w => aesKeyWords n (bs.drop 4) (bs.take 4 :: w)

/-- The fifteen round keys. -/
def aesRoundKeys (key : List Byte) : List (List Byte) :=
  let w := (aesExpand 52 8 1#8 (aesKeyWords 8 key [])).reverse
  (List.range 15).map (fun r => ((w.drop (4 * r)).take 4).flatten)

/-- ShiftRows on the column-major state. -/
def aesShiftRows (s : List Byte) : List Byte :=
  (List.range 16).map (fun i => s.getD ((i + 4 * (i % 4)) % 16) 0)

/-- MixColumns of one column. -/
def aesMixColumn (c : List Byte) : List Byte :=
  match c with
  | [a, b, d, e] =>
    [aesXtime a ^^^ aesXtime b ^^^ b ^^^ d ^^^ e, a ^^^ aesXtime b ^^^ aesXtime d ^^^ d ^^^ e,
     a ^^^ b ^^^ aesXtime d ^^^ aesXtime e ^^^ e, aesXtime a ^^^ a ^^^ b ^^^ d ^^^ aesXtime e]
  | _ => c

/-- MixColumns of the state. -/
def aesMixColumns (s : List Byte) : List Byte :=
  (List.range 4).flatMap (fun c => aesMixColumn ((s.drop (4 * c)).take 4))

/-- AES-256 of one 16-byte block under a 32-byte key. -/
def aesEncrypt (key block : List Byte) : List Byte :=
  let rk := aesRoundKeys key
  let s0 := List.zipWith (· ^^^ ·) block (rk.getD 0 [])
  let s13 := (List.range 13).foldl (fun s r =>
    List.zipWith (· ^^^ ·) (aesMixColumns (aesShiftRows (s.map aesSub))) (rk.getD (r + 1) [])) s0
  List.zipWith (· ^^^ ·) (aesShiftRows (s13.map aesSub)) (rk.getD 14 [])

/-- The inverse substitution of one byte. -/
def aesInvSub (b : Byte) : Byte := BitVec.ofNat 8 (aesSbox.findIdx (· == b))

/-- The inverse of ShiftRows. -/
def aesInvShiftRows (s : List Byte) : List Byte :=
  (List.range 16).map (fun i => s.getD ((i + 16 - 4 * (i % 4)) % 16) 0)

/-- The products of a byte with 9, 11, 13 and 14 in the field of AES. -/
def aesInvMul (b : Byte) : Byte × Byte × Byte × Byte :=
  let x2 := aesXtime b
  let x4 := aesXtime x2
  let x8 := aesXtime x4
  (x8 ^^^ b, x8 ^^^ x2 ^^^ b, x8 ^^^ x4 ^^^ b, x8 ^^^ x4 ^^^ x2)

/-- The inverse of MixColumns of one column. -/
def aesInvMixColumn (c : List Byte) : List Byte :=
  match c.map aesInvMul with
  | [(a9, a11, a13, a14), (b9, b11, b13, b14), (d9, d11, d13, d14), (e9, e11, e13, e14)] =>
    [a14 ^^^ b11 ^^^ d13 ^^^ e9, a9 ^^^ b14 ^^^ d11 ^^^ e13, a13 ^^^ b9 ^^^ d14 ^^^ e11, a11 ^^^ b13 ^^^ d9 ^^^ e14]
  | _ => c

/-- The inverse of MixColumns of the state. -/
def aesInvMixColumns (s : List Byte) : List Byte :=
  (List.range 4).flatMap (fun c => aesInvMixColumn ((s.drop (4 * c)).take 4))

/-- The inverse cipher of AES-256 on one 16-byte block. -/
def aesDecrypt (key block : List Byte) : List Byte :=
  let rk := aesRoundKeys key
  let undo := fun s => (aesInvShiftRows s).map aesInvSub
  let s0 := List.zipWith (· ^^^ ·) block (rk.getD 14 [])
  let s13 := (List.range 13).foldl (fun s r => aesInvMixColumns (List.zipWith (· ^^^ ·) (undo s) (rk.getD (13 - r) []))) s0
  List.zipWith (· ^^^ ·) (undo s13) (rk.getD 0 [])

/-! ### XTS-AES-256 (IEEE 1619) -/

/-- The tweak of the next block: multiplication by alpha, bytes little-endian. -/
def xtsNext (t : List Byte) : List Byte :=
  let d := leNat t * 2
  leBytes 16 (if bitOf d 128 then (BitVec.ofNat 128 d ^^^ 0x87#128).toNat else d)

/-- n blocks of one data unit under a tweak, with the cipher of the direction. -/
def xtsBlocks (cipher : List Byte → List Byte) : Nat → List Byte → List Byte → List Byte
  | 0, _, _ => []
  | n + 1, t, bs =>
    List.zipWith (· ^^^ ·) (cipher (List.zipWith (· ^^^ ·) (bs.take 16) t)) t ++ xtsBlocks cipher n (xtsNext t) (bs.drop 16)

/-- Encryption of a data unit of whole blocks under a data key, a tweak key and a data unit number. -/
def xtsEncrypt (data tweak : List Byte) (unit : Nat) (pt : List Byte) : List Byte :=
  xtsBlocks (aesEncrypt data) (pt.length / 16) (aesEncrypt tweak (leBytes 16 unit)) pt

/-- Decryption of a data unit of whole blocks. -/
def xtsDecrypt (data tweak : List Byte) (unit : Nat) (ct : List Byte) : List Byte :=
  xtsBlocks (aesDecrypt data) (ct.length / 16) (aesEncrypt tweak (leBytes 16 unit)) ct

/-! ### CMAC (SP 800-38B) and the KDF of R287 (SP 800-108) -/

/-- Doubling in GF(2^128) for the CMAC subkeys. -/
def cmacDouble (b : List Byte) : List Byte :=
  let v := beNat b
  let d := v * 2 % 2 ^ 128
  beBytes 16 (if bitOf v 127 then (BitVec.ofNat 128 d ^^^ 0x87#128).toNat else d)

/-- n full blocks of the CBC-MAC chain. -/
def cmacChain (key : List Byte) : Nat → List Byte → List Byte → List Byte
  | 0, x, _ => x
  | n + 1, x, m => cmacChain key n (aesEncrypt key (List.zipWith (· ^^^ ·) x (m.take 16))) (m.drop 16)

/-- CMAC-AES-256. -/
def cmac (key msg : List Byte) : List Byte :=
  let k1 := cmacDouble (aesEncrypt key (List.replicate 16 0))
  let k2 := cmacDouble k1
  let n := max 1 (ceilDiv msg.length 16)
  let last := msg.drop (16 * (n - 1))
  let lastBlk := if last.length = 16 then List.zipWith (· ^^^ ·) last k1
    else List.zipWith (· ^^^ ·) (last ++ [0x80#8] ++ List.replicate (15 - last.length) 0) k2
  let x := cmacChain key (n - 1) (List.replicate 16 0) msg
  aesEncrypt key (List.zipWith (· ^^^ ·) x lastBlk)

/-- The bytes of an ASCII label. -/
def ascii (s : String) : List Byte := s.toList.map (fun c => BitVec.ofNat 8 c.toNat)

/-- The KDF of R287: len output bits from a key, a label and a context. -/
def kdf (key : List Byte) (label : String) (context : List Byte) (len : Nat) : List Byte :=
  ((List.range (ceilDiv len 128)).flatMap (fun i =>
    cmac key (beBytes 4 (i + 1) ++ ascii label ++ [0#8] ++ context ++ beBytes 4 len))).take (len / 8)

/-! ### GCM (SP 800-38D) -/

/-- Multiplication in GF(2^128) as GHASH orders bits: n bits of y still to take. -/
def gfMulFrom : Nat → BitVec 128 → BitVec 128 → BitVec 128 → BitVec 128
  | 0, _, _, z => z
  | n + 1, v, y, z =>
    gfMulFrom n ((v >>> 1) ^^^ (if v.getLsbD 0 then 0xE1000000000000000000000000000000#128 else 0)) (y <<< 1)
      (if y.msb then z ^^^ v else z)

/-- The GHASH product. -/
def gfMul (x y : BitVec 128) : BitVec 128 := gfMulFrom 128 x y 0

/-- GHASH over n 16-byte blocks. -/
def ghashBlocks (h : BitVec 128) : Nat → BitVec 128 → List Byte → BitVec 128
  | 0, y, _ => y
  | n + 1, y, bs => ghashBlocks h n (gfMul (y ^^^ BitVec.ofNat 128 (beNat (bs.take 16))) h) (bs.drop 16)

/-- A byte string filled to whole blocks with zeros. -/
def padBlocks (bs : List Byte) : List Byte := bs ++ List.replicate ((16 - bs.length % 16) % 16) 0

/-- GHASH of additional data and ciphertext with their length block. -/
def ghash (h : BitVec 128) (aad ct : List Byte) : BitVec 128 :=
  let m := padBlocks aad ++ padBlocks ct ++ beBytes 8 (8 * aad.length) ++ beBytes 8 (8 * ct.length)
  ghashBlocks h (m.length / 16) 0 m

/-- The counter-mode keystream applied to n blocks, from counter value c. -/
def ctrBlocks (key iv : List Byte) : Nat → Nat → List Byte → List Byte
  | 0, _, _ => []
  | n + 1, c, bs =>
    List.zipWith (· ^^^ ·) (bs.take 16) (aesEncrypt key (iv ++ beBytes 4 c)) ++ ctrBlocks key iv n (c + 1) (bs.drop 16)

/-- The GCM tag of a ciphertext, under a 96-bit IV. -/
def gcmTag (key iv aad ct : List Byte) : List Byte :=
  let h := BitVec.ofNat 128 (beNat (aesEncrypt key (List.replicate 16 0)))
  List.zipWith (· ^^^ ·) (beBytes 16 (ghash h aad ct).toNat) (aesEncrypt key (iv ++ beBytes 4 1))

/-- AES-256-GCM encryption: ciphertext and 16-byte tag. -/
def gcmSeal (key iv aad pt : List Byte) : List Byte × List Byte :=
  let ct := ctrBlocks key iv (ceilDiv pt.length 16) 2 pt
  (ct, gcmTag key iv aad ct)

/-- AES-256-GCM decryption: the plaintext where the tag holds. -/
def gcmOpen (key iv aad ct tag : List Byte) : Option (List Byte) :=
  if gcmTag key iv aad ct = tag then some (ctrBlocks key iv (ceilDiv ct.length 16) 2 ct) else none

/-! ### CRC-32 -/

/-- Eight steps of the reflected CRC-32. -/
def crcBits : Nat → BitVec 32 → BitVec 32
  | 0, c => c
  | n + 1, c => crcBits n ((c >>> 1) ^^^ (if c.getLsbD 0 then 0xEDB88320#32 else 0))

/-- CRC-32 of a byte string. -/
def crc32 (bs : List Byte) : Nat :=
  (bs.foldl (fun c b => crcBits 8 (c ^^^ b.setWidth 32)) 0xFFFFFFFF#32 ^^^ 0xFFFFFFFF#32).toNat

/-! ### ECDSA P-384 -/

/-- The prime of P-384. -/
def p384 : Nat := 2 ^ 384 - 2 ^ 128 - 2 ^ 96 + 2 ^ 32 - 1
/-- The order of P-384. -/
def n384 : Nat := 0xffffffffffffffffffffffffffffffffffffffffffffffffc7634d81f4372ddf581a0db248b0a77aecec196accc52973
/-- The coefficient b of P-384. -/
def b384 : Nat := 0xb3312fa7e23ee7e4988e056be3f82d19181d9c6efe8141120314088f5013875ac656398d8a2ed19d2a85c8edd3ec2aef
/-- The base point of P-384. -/
def g384 : Nat × Nat := (0xaa87ca22be8b05378eb1c71ef320ad746e1d3b628ba79b9859f741e082542a385502f25dbf55296c3a545e3872760ab7,
  0x3617de4a96262c6f5d9e98bf9292dc29f8f41dbd289a147ce9da3113b5f0b8c00a60b1ce1d7e819d7a431d7c90ea0e5f)

/-- x^e mod m, over n digits of e in base 64. -/
def powMod (m : Nat) : Nat → Nat → Nat → Nat
  | 0, _, _ => 1
  | n + 1, x, e => powMod m n x (e / 64) ^ 64 * x ^ (e % 64) % m

/-- The inverse modulo a prime below 2^384. -/
def invMod (m x : Nat) : Nat := powMod m 64 (x % m) (m - 2)

/-- Point addition on P-384; none is the point at infinity. -/
def ecAdd (a b : Option (Nat × Nat)) : Option (Nat × Nat) :=
  match a, b with
  | none, q => q
  | p, none => p
  | some (x1, y1), some (x2, y2) =>
    if x1 = x2 ∧ (y1 + y2) % p384 = 0 then none
    else
      let l := if x1 = x2 then (3 * x1 * x1 + p384 - 3) * invMod p384 (2 * y1) % p384
        else (y2 + p384 - y1) * invMod p384 (x2 + p384 - x1) % p384
      let x3 := (l * l + 2 * p384 - x1 - x2) % p384
      some (x3, (l * (x1 + p384 - x3) + p384 - y1) % p384)

/-- Scalar multiplication over n bits of k. -/
def ecMulFrom : Nat → Nat → Option (Nat × Nat) → Option (Nat × Nat) → Option (Nat × Nat)
  | 0, _, _, acc => acc
  | n + 1, k, p, acc => ecMulFrom n (k / 2) (ecAdd p p) (if k % 2 = 1 then ecAdd acc p else acc)

/-- k times a point. -/
def ecMul (k : Nat) (p : Option (Nat × Nat)) : Option (Nat × Nat) := ecMulFrom 384 k p none

/-- Whether a pair of coordinates lies on the curve. -/
def ecOnCurve (p : Nat × Nat) : Bool :=
  decide (p.1 < p384) && decide (p.2 < p384) &&
    (p.2 * p.2 % p384 == (p.1 * p.1 * p.1 + (p384 - 3) * p.1 + b384) % p384)

/-- The uncompressed public key of 97 bytes as a point. -/
def ecPoint (bs : List Byte) : Option (Nat × Nat) :=
  let p := (fieldBE bs 1 48, fieldBE bs 49 48)
  if bs.length = 97 ∧ bs.getD 0 0 = 4#8 ∧ ecOnCurve p then some p else none

/-- ECDSA P-384 with SHA-384: whether the 96-byte signature (r, s) over msg verifies under a 97-byte key. r and s are big-endian, in
structures in memory too (00_scope.md R8; PRESUMED, log 12). -/
def ecdsaVerify (key msg sig : List Byte) : Bool :=
  let r := fieldBE sig 0 48
  let s := fieldBE sig 48 48
  match ecPoint key with
  | none => false
  | some q =>
    if sig.length = 96 ∧ 0 < r ∧ r < n384 ∧ 0 < s ∧ s < n384 then
      let e := beNat (sha384 msg) % n384
      let w := invMod n384 s
      match ecAdd (ecMul (e * w % n384) (some g384)) (ecMul (r * w % n384) (some q)) with
      | none => false
      | some (x, _) => x % n384 == r
    else false

/-- The 97-byte public key of a private scalar. -/
def ecPublic (d : Nat) : List Byte :=
  match ecMul d (some g384) with
  | none => []
  | some (x, y) => [4#8] ++ beBytes 48 x ++ beBytes 48 y

/-- The ECDSA signature over msg with private scalar d and per-signature secret k. -/
def ecdsaSign (d k : Nat) (msg : List Byte) : List Byte :=
  let r := match ecMul k (some g384) with
    | none => 0
    | some (x, _) => x % n384
  let e := beNat (sha384 msg) % n384
  beBytes 48 r ++ beBytes 48 (invMod n384 k * ((e + r * d) % n384) % n384)

end Sys2Proof.Machine.Crypto
end

