-- ==== Sys2Proof/Machine/OpsSec.lean ====
section
/-! DEFINITION. Keys, labels and the binding digest (10_tenancy.md R287 to R297). -/

namespace Sys2Proof.Machine

/-! ### The binding request's fields (R295) -/

/-- n bytes at offset o. -/
def bytesAt (bs : List Byte) (o n : Nat) : List Byte := (bs.drop o).take n

/-- The tenant's public key. -/
def BindRec.tenantKey (r : BindRec) : List Byte := bytesAt r.request 0x58 97
/-- The policy word. -/
def BindRec.policy (r : BindRec) : Nat := fieldLE r.request 6 2
/-- The tenant secret TS. -/
def BindRec.secret (r : BindRec) : List Byte := bytesAt r.request 0xC0 32
/-- The tenant identifier (R289). -/
def BindRec.tenantId (r : BindRec) : List Byte := (Crypto.sha384 r.tenantKey).take 16

/-! ### Keys (R287) -/

/-- K_bind. -/
def State.kBind (s : State) : List Byte := Crypto.kdf s.mfg.dus "AQE9-BIND" [] 256

/-- TR_d of a binding. -/
def State.rootDevice (s : State) (r : BindRec) : List Byte :=
  Crypto.kdf s.kBind "AQE9-DROOT" (Crypto.sha384 r.request ++ r.nonce ++ beBytes 4 r.g) 256

/-- TR_t of a binding. -/
def BindRec.rootTenant (r : BindRec) : List Byte := Crypto.kdf r.secret "AQE9-TROOT" r.tenantId 256

/-- A 32-byte context label (R289). -/
def mkLabel (tenant : List Byte) (inst purpose scope index gen : Nat) : List Byte :=
  tenant ++ leBytes 2 inst ++ leBytes 1 purpose ++ leBytes 1 scope ++ leBytes 4 index ++ leBytes 4 gen ++ leBytes 4 0

/-- The working key of a label. -/
def State.workingKey (s : State) (r : BindRec) (label : List Byte) : List Byte :=
  let root := if fieldLE label 19 1 = 0 then s.rootDevice r else r.rootTenant
  Crypto.kdf root "AQE9-KEY" label (if fieldLE label 18 1 = 0x0A then 448 else 256)

/-- A device-scope label of the binding r, which only the device forms (R289 to R291). -/
def BindRec.deviceLabel (r : BindRec) (purpose index : Nat) : List Byte := mkLabel r.tenantId 0xFFFF purpose 0 index r.g

/-- The label of the binding check (R290). -/
def BindRec.checkLabel (r : BindRec) : List Byte := mkLabel r.tenantId 0xFFFF 0x0C 1 0 0

/-- The label of the shards of a checkpoint (20_checkpoint.md R515). -/
def BindRec.shardLabel (r : BindRec) (id gen : Nat) : List Byte := mkLabel r.tenantId 0xFFFF 0x09 1 (id % 2 ^ 32) gen

/-- The binding digest (R297). -/
def BindRec.digest (r : BindRec) : List Byte :=
  let check := Crypto.kdf r.rootTenant "AQE9-KEY" r.checkLabel 256
  Crypto.sha384 (r.tenantId ++ r.tenantKey ++ leBytes 2 r.policy ++ check)

/-- The digest of the binding in force; zero without one. -/
def State.bindingDigest (s : State) : List Byte :=
  match s.sec.record with
  | some r => r.digest
  | none => List.replicate 48 0

/-! ### Labels on descriptors (R291) -/

/-- What the check of a label gives. -/
inductive LabelCheck where
  | good | bad | violation
  deriving DecidableEq, Repr

/-- The instance field that a purpose of scope 1 requires for function i. -/
def labelInstance (purpose i : Nat) : Nat := if purpose = 0x06 then i else 0xFFFF

/-- The check of a label of function i against the purposes its ring kind uses, in the order of R291. -/
def State.checkLabel (s : State) (i : Nat) (purposes : List Nat) (label : List Byte) : LabelCheck :=
  let purpose := fieldLE label 18 1
  if fieldLE label 28 4 ≠ 0 ∨ fieldLE label 19 1 ≠ 1 ∨ ¬ (0x06 ≤ purpose ∧ purpose ≤ 0x0C) ∨ ¬ purposes.contains purpose then .bad
  else
    match s.sec.record with
    | none => .violation
    | some r =>
      if label.take 16 ≠ r.tenantId ∨ fieldLE label 16 2 ≠ labelInstance purpose i ∨ i = 0 then .violation else .good

/-! ### The derived-key cache (R292) -/

/-- A half of the cache after a use of a label: most recently used first, at most 256; a full half loses its least recently
used entry that no operation in flight holds. -/
def useLabel (held cache : List (List Byte)) (label : List Byte) : List (List Byte) :=
  let rest := cache.filter (· != label)
  if rest.length < 256 then label :: rest
  else match rest.reverse.find? (fun l => !held.contains l) with
    | some l => label :: rest.erase l
    | none => label :: rest.take 255

/-- Labels that operations in flight hold: those of shelf commands that have started, of sealed queue pairs with work requests in
flight, and of a checkpoint that is being written. -/
def State.heldLabels (s : State) : List (List Byte) :=
  let cmds := s.shelf.cmds.filter (fun c => c.started)
  let own := match s.sec.record with
    | none => []
    | some r => (cmds.filterMap ShelfCmd.ns).flatMap (fun n => [r.deviceLabel 0x04 n, r.deviceLabel 0x05 n])
  let sealed := (s.rma.qps.filter (fun p => p.2.wqes != [])).filterMap (fun p => p.2.sealing.map (fun x => x.1))
  let take := match s.run.take, s.sec.record with
    | some t, some r => if t.stopped.isSome then [t.label, r.shardLabel t.id (fieldLE t.label 24 4)] else []
    | _, _ => []
  cmds.filterMap ShelfCmd.label ++ own ++ sealed ++ take

/-- The use of a label's key: the cache half that R290 names, and CPH_KEYMISS on a miss. -/
def State.useKey (s : State) (label : List Byte) : State :=
  let purpose := fieldLE label 18 1
  if purpose = 0x0A ∨ purpose = 0x0C then
    let s := if s.sec.cache37.contains label then s else s.wrapAdd F.cphKeymissMisses 1
    { s with sec := { s.sec with cache37 := useLabel s.heldLabels s.sec.cache37 label } }
  else
    let s := if s.sec.cache36.contains label then s else s.wrapAdd F.cphKeymissMisses 1
    { s with sec := { s.sec with cache36 := useLabel s.heldLabels s.sec.cache36 label } }

/-- The use of several labels' keys in turn. -/
def State.useKeys (s : State) (labels : List (List Byte)) : State := labels.foldl State.useKey s

/-- The use of the binding in force's labels. -/
def State.useBound (s : State) (labels : BindRec → List (List Byte)) : State :=
  match s.sec.record with
  | none => s
  | some r => s.useKeys (labels r)

end Sys2Proof.Machine
end

