-- ==== Sys2Proof/Machine/LineCipher.lean ====
section
/-! DEFINITION. The line cipher, the integrity tag and the side band of an HBM line (07_memory.md R210 to R213). State
holds the plaintext of a line and what its stored bytes differ in from those that the controller wrote, so the stored form
is worked out where a line has been damaged. -/

namespace Sys2Proof.Machine

/-- The keys that a line cipher's key slots hold: XTS data key, XTS tweak key and tag key (10_tenancy.md R290). -/
structure LineKeys where
  data : List Byte
  tweak : List Byte
  tag : List Byte
  deriving DecidableEq, Repr

/-- The keys of stack k's line cipher under the binding in force (R212). -/
def State.lineKeys (s : State) (k : Nat) : Option LineKeys :=
  s.sec.record.map (fun r =>
    let key := fun purpose => s.workingKey r (r.deviceLabel purpose k)
    ⟨key 0x01, key 0x02, key 0x03⟩)

/-- The data unit number of a line of stack k with its slot generation (R212). -/
def dataUnit (k line gen : Nat) : Nat := line % 2 ^ 30 + gen % 256 * 2 ^ 32 + k % 16 * 2 ^ 40

/-- The tag of a line from its ciphertext (R213); the integer of step 2 enters the cipher big-endian (DESIGN CHOICE,
log 23). -/
def LineKeys.tagOf (x : LineKeys) (unit : Nat) (ct : List Byte) : List Byte :=
  let h := BitVec.ofNat 128 (beNat (Crypto.aesEncrypt x.tag (List.replicate 16 0)))
  let j := Crypto.aesEncrypt x.tag (beBytes 16 (BitVec.ofNat 128 unit ^^^ BitVec.ofNat 128 (2 ^ 127)).toNat)
  (List.zipWith (· ^^^ ·) (beBytes 16 (Crypto.ghash h [] ct).toNat) j).take 4

/-- The 68 message bytes that stand for a line: ciphertext and tag (R210). -/
def LineKeys.stored (x : LineKeys) (unit : Nat) (pt : List Byte) : List Byte :=
  let ct := Crypto.xtsEncrypt x.data x.tweak unit pt
  ct ++ x.tagOf unit ct

/-- What the check bytes of a poisoned line differ in from the right ones (R211). -/
def poisonFlips : List Byte := List.replicate 68 0 ++ [0x5A#8, 0x5A#8, 0x5A#8, 0x5A#8]

/-- What a reader finds at a line: the bytes it gets, whether they are poisoned, the errors corrected, and whether the line
failed correction or its tag. -/
structure LineLook where
  data : List Byte
  poisoned : Bool
  fixed : Nat
  lost : Bool
  tagFail : Bool
  deriving DecidableEq, Repr

/-- A line that gives no data. -/
def LineLook.none (fixed : Nat) (lost tagFail : Bool) : LineLook := ⟨List.replicate 64 0, true, fixed, lost, tagFail⟩

/-- What is left of more than two wrong bytes once the decoder has corrected a line to another codeword, which it leaves as it is;
none where it finds the line uncorrectable (R210). -/
def rsRest (flips : List Byte) : Option (List Byte) :=
  (Config.rsResidue flips).bind (fun r =>
    if 2 < (r.filter (· != 0)).length ∧ Config.rsResidue r = some r then some r else none)

/-- What the controller finds at a line with plaintext pt whose stored bytes have been changed: the poison code's syndrome
is recognised first; up to two wrong bytes are corrected; then the tag is checked, and only then is the line decrypted
(R210, R211, R213). -/
def lookFlipped (keys : Option LineKeys) (unit : Nat) (pt flips : List Byte) : LineLook :=
  if flips = poisonFlips then .none 0 false false
  else if (flips.filter (· != 0)).length ≤ 2 then ⟨pt, false, 1, false, false⟩
  else match rsRest flips, keys with
    | some rest, some x =>
      let now := List.zipWith (· ^^^ ·) (x.stored unit pt) (rest.take 68)
      let fixed := if rest = flips then 0 else 1
      if x.tagOf unit (now.take 64) = now.drop 64 then
        ⟨Crypto.xtsDecrypt x.data x.tweak unit (now.take 64), false, fixed, false, false⟩
      else .none fixed false true
    | _, _ => .none 0 true false

/-- The changes that are left in a line once its corrected form has been written back (R210). -/
def flipsLeft (flips : List Byte) : List Byte :=
  if (flips.filter (· != 0)).length ≤ 2 then [] else (rsRest flips).getD flips

end Sys2Proof.Machine
end

