-- ==== Sys2Proof/Machine/OpsLog.lean ====
section
/-! DEFINITION. The named operations over the lifetime log (17_time.md R474 to R477) and critical events (R471). -/

namespace Sys2Proof.Machine

/-- Start of the lifetime-log region in the flash (R474). -/
def logBase : Nat := 0x03C00000

/-- Bytes written to the flash; the NOR controller's line asserts (09_firmware.md R276). -/
def State.flashWrite (s : State) (a : Nat) (bs : List Byte) : State :=
  ({ s with fw := { s.fw with flash := Memory.write s.fw.flash a bs } }).markLine 0 3

/-- Adding to counter i of R477, modulo 2^64. -/
def State.logCount (s : State) (i n : Nat) : State :=
  { s with log := { s.log with counters := Tab.modify 0 s.log.counters i (fun v => (v + n) % 2 ^ 64) } }

/-- uJ in a watt-hour. -/
def wattHour : Nat := 3600000000

/-- Counter i: what is kept of it, and for NAND bytes, the highest erase count and energy what has come since the counters were read
(R477). -/
def State.logCounter (s : State) (i : Nat) : Nat :=
  let more := if i = 10 then s.log.nand else if i = 11 then s.log.erases else if i = 12 then s.log.uj / wattHour else 0
  (Tab.get 0 s.log.counters i + more) % 2 ^ 64

/-- n bytes of data are programmed into the NAND; what is programmed beside them, and whether a block is erased more often than
every other was, are free values (R477). -/
def State.program (s : State) (n : Nat) : State :=
  let x := s.log
  { s with log := { x with
    programs := x.programs + 1, nand := x.nand + n + (Config.nandMore x.programs).toNat
    erases := x.erases + (Config.nandErase x.programs).toNat } }

/-- A 64-byte record into ring slot n mod size at a region offset; a slot that opens a 64 KiB sector erases it first
(R474). -/
def State.logRing (s : State) (off size n : Nat) (bs : List Byte) : State :=
  let slot := n % size
  let s := if slot % 1024 = 0 then
      { s with fw := { s.fw with flash := Memory.zero s.fw.flash (logBase + off + 64 * slot) 65536 } } else s
  s.flashWrite (logBase + off + 64 * slot) bs

/-- An event record (R475). -/
def State.logEvent (s : State) (code subject : Nat) (detail : List Byte) : State :=
  let bs := leBytes 8 s.deviceTime ++ leBytes 1 (s.fld F.timStatusState) ++ leBytes 2 code ++ leBytes 2 subject
    ++ leBytes 3 0 ++ (detail ++ List.replicate 32 0).take 32 ++ leBytes 16 0
  let s := s.logRing 0x100000 49152 s.log.events bs
  { s with log := { s.log with events := s.log.events + 1 } }

/-- n uJ of energy go to counter 12 and to the open day (R476, R477). -/
def State.logEnergy (s : State) (n : Nat) : State :=
  { s with log := { s.log with uj := s.log.uj + n, day := { s.log.day with energy := s.log.day.energy + n } } }

/-! ### Critical events (R471) -/

/-- The device's address on the SMBus and its static address on I3C: 0x48 and the straps that V38 sampled (22_module.md R534). -/
def State.strapAddr (s : State) : BitVec 7 := BitVec.ofNat 7 (0x48 + s.pins.straps)

/-- A message is a PlatformEventMessage of the device: a response under the same code holds a completion code alone. -/
def isEvent (m : Nat × List Byte) : Bool := m.1 == 0x0A && decide (1 < m.2.length)

/-- An event awaits the SMBus host: one that has lost arbitration, or that waits behind such a transaction (22_module.md R533; DEDUCED,
log 21). -/
def Mgmt.awaits (m : Mgmt) : Bool := m.lost != 0 && (m.smbus.toList ++ m.queue).any isEvent

/-- SMBALERT_N follows whether an event awaits the SMBus host. -/
def State.alert (s : State) (body : State → State) : State :=
  let t := body s
  if t.mgmt.awaits = s.mgmt.awaits then t else t.emit (.pin "SMBALERT_N" (!t.mgmt.awaits))

/-- A management message goes out; on the SMBus it is a transaction that may lose arbitration, and it waits behind one that has
lost (R473). -/
def State.sendMgmt (s : State) (bus : MgmtBus) (code : Nat) (bytes : List Byte) : State :=
  match bus with
  | .smbus _ =>
    if s.mgmt.lost ≠ 0 then s.alert (fun s => { s with mgmt := { s.mgmt with queue := s.mgmt.queue ++ [(code, bytes)] } })
    else
      let s := s.emit (.mgmt (.smbus s.strapAddr) code bytes)
      { s with mgmt := { s.mgmt with smbus := some (code, bytes) } }
  | _ => s.emit (.mgmt bus code bytes)

/-- The SMBus is free of a transaction that has lost: those that waited behind it go out (R473). -/
def State.drainMgmt (s : State) : State :=
  let q := s.mgmt.queue
  let s : State := { s with mgmt := { s.mgmt with lost := 0, queue := [] } }
  q.foldl (fun s m => s.sendMgmt (.smbus s.strapAddr) m.1 m.2) s

/-- A PLDM PlatformEventMessage goes to the event receiver where one is set. -/
def State.platformEvent (s : State) (code : Nat) (bytes : List Byte) : State :=
  match s.mgmt.receiver with
  | none => s
  | some (bus, eid) => s.sendMgmt bus 0x0A (leBytes 1 eid ++ leBytes 1 code ++ bytes)

/-- A critical event: TELEMETRY event, lifetime-log record, PLDM PlatformEventMessage, and the day's count. -/
def State.critical (s : State) (code detail : Nat) : State :=
  let s := s.event 0 0x0A (0x8000 + code) detail
  let s := s.logEvent code 0 (leBytes 4 detail)
  let s := { s with log := { s.log with day := { s.log.day with critical := s.log.day.critical + 1 } } }
  s.platformEvent code (leBytes 4 detail)

end Sys2Proof.Machine
end

