-- ==== Sys2Proof/Machine/OpsMem.lean ====
section
/-! DEFINITION. The named operations over memories (07_memory.md) and bench stores (03_benches.md R82 to R84):
addresses, ownership, line reads and writes with poison, integrity and ECC, zeroization. -/

namespace Sys2Proof.Machine

/-! ### Device memory addresses (R200) -/

/-- Memory unit and offset of a device memory address; none for a reserved space or bits, an absent unit number or an
offset out of range. -/
def devAddr (a : Nat) : Option (Nat × Nat) :=
  let off := bitsOf a 0 36
  let unit := bitsOf a 40 4
  let space := bitsOf a 44 4
  if bitsOf a 36 4 ≠ 0 ∨ bitsOf a 48 16 ≠ 0 then none
  else if space = 1 ∧ unit < 4 ∧ off < 2 ^ 31 then some (unit, off)
  else if space = 2 ∧ unit < 12 then some (stackUnit unit, off)
  else none

/-- The device memory address of an offset in a memory unit. -/
def devAddrOf (u off : Nat) : Nat :=
  if u < 4 then off + u * 2 ^ 40 + 1 * 2 ^ 44 else off + (u - 4) * 2 ^ 40 + 2 * 2 ^ 44

/-- Unit u is an HBM stack. -/
def isHbm (u : Nat) : Bool := decide (4 ≤ u)

/-- Unit u is present: every near store, and a stack that is not mapped out (R227). -/
def State.unitPresent (s : State) (u : Nat) : Bool := !isHbm u || s.flag (F.memStatusPresent (u - 4))

/-- The line cipher of unit u holds keys (R214); the near store needs none. -/
def State.unitKeyed (s : State) (u : Nat) : Bool := !isHbm u || s.flag (F.memStatusKeyed (u - 4))

/-- Granule g of unit u. -/
def State.granule (s : State) (u g : Nat) : Granule := Tab.get Granule.init (s.memUnit u).gran g
/-- Replacing granule g of unit u. -/
def State.setGranule (s : State) (u g : Nat) (x : Granule) : State :=
  let m := s.memUnit u
  s.setMemUnit u { m with gran := Tab.set Granule.init m.gran g x }

/-! ### Who may reach what (R159, R202, R203) -/

/-- A requester. -/
inductive Who where
  /-- Scheduled work of a partition. -/
  | sched (p : Nat)
  /-- Host DMA, a shelf command or Ethernet receive of an instance, or a peer through an instance's registration. -/
  | inst (i : Nat)
  /-- Firmware that loads, checkpoints, restores or zeroizes. -/
  | firmware
  deriving DecidableEq, Repr

/-- The access to granule g of unit u is served. -/
def State.mayReach (s : State) (w : Who) (write : Bool) (u g : Nat) : Bool :=
  s.unitPresent u &&
  (let x := s.granule u g
   match w with
   | .firmware => true
   | .sched p => x.owner == some p && (!x.pool || x.pstate == 2)
   | .inst i =>
     (match x.owner with
      | none => false
      | some p => (s.part p).owner == some i) &&
     (!x.pool || (if write then x.pstate == 1 else decide (1 ≤ x.pstate))))

/-- Whether an address run of n bytes is served throughout. -/
def State.runServed (s : State) (w : Who) (write : Bool) (a n : Nat) : Bool :=
  match devAddr a with
  | none => false
  | some (u, off) =>
    decide (off + n ≤ (if isHbm u then 2 ^ 36 else 2 ^ 31)) &&
    ((List.range (ceilDiv (off % 65536 + n) 65536)).all (fun k => s.mayReach w write u (off / 65536 + k)))

/-- The partitions that own granules of an address run of n bytes, as a mask; the fence checks of R499 ask for them. -/
def State.runParts (s : State) (a n : Nat) : Nat :=
  match devAddr a with
  | none => 0
  | some (u, off) =>
    listMask (((List.range (ceilDiv (off % 65536 + max 1 n) 65536)).filterMap (fun k => (s.granule u (off / 65536 + k)).owner)).eraseDups)

/-! ### Lines of a memory unit -/

/-- The 8-byte words of a line. -/
def lineWords (line : Nat) : List Nat := (List.range 8).map (fun k => 8 * line + k)

/-- The line has a marked word. -/
def lineMarked (l : List Nat) (line : Nat) : Bool := (lineWords line).any l.contains

/-- Removing a line's marks from a list of words. -/
def unmark (l : List Nat) (line : Nat) : List Nat := l.filter (fun w => w / 8 != line)

/-- The count of a line's marks. -/
def markCount (l : List Nat) (line : Nat) : Nat := ((lineWords line).filter l.contains).length

/-- Corrected errors of a read counted in the unit's register (R205, R210). -/
def State.countCorrected (s : State) (u n : Nat) : State :=
  if n = 0 then s
  else if isHbm u then s.count (F.memEccCorrected (u - 4)) n else s.count (F.nstEccCorrected u) n

/-- An uncorrectable line counted in the unit's register, and of a stack in the lifetime log (17_time.md R477). -/
def State.countUncorrected (s : State) (u : Nat) : State :=
  if isHbm u then (s.count (F.memEccUncorrected (u - 4)) 1).logCount 14 1 else s.count (F.nstEccUncorrected u) 1

/-- An access to a stack in self-refresh makes it leave self-refresh, and is its last access (R223). -/
def State.touch (s : State) (u : Nat) : State :=
  if isHbm u then
    (s.setFld (F.memStatusSelfRefresh (u - 4)) 0).setMemUnit u { s.memUnit u with accessAt := s.now }
  else s

/-- The valley of memory unit u (01_architecture.md R18). -/
def unitValley (u : Nat) : Nat := if isHbm u then 16 + u else 5 * u + 4

/-- The fabric valley of die d. -/
def fabricValley (d : Nat) : Nat := 5 * d + 4

/-- The compute die of memory unit u. -/
def unitDie (u : Nat) : Nat := if isHbm u then (u - 4) / 3 else u

/-- The fabrics that a transfer crosses from compute die d to die e: those of both, and where the dies are no ring
neighbours that of die d + 1, or with route of die d + 3 (01_architecture.md R15 to R17; 03_benches.md R546). -/
def dieFabrics (d e : Nat) (route : Bool) : List Nat :=
  if d = e then [fabricValley d]
  else if (d + 2) % 4 = e then [fabricValley d, fabricValley ((d + (if route then 3 else 1)) % 4), fabricValley e]
  else [fabricValley d, fabricValley e]

/-- The way on which a transfer reaches a memory unit (01_architecture.md R17, R29). -/
inductive Via where
  /-- From a bench, over its own die's fabric; between opposite dies through die d + 1 (DESIGN CHOICE, log 24: no field of
  MNS and MHB names the route). -/
  | bench (b : Nat)
  /-- From the IO die, through these valleys and the unit's fabric. -/
  | io (vs : List Nat)
  /-- Inside the unit's own valley. -/
  | home
  deriving DecidableEq, Repr

/-- Host DMA and firmware: no valley before the unit's fabric. -/
def Via.host : Via := .io []
/-- Through the cipher engine in V36: shelf data, and sealed host DMA and network flows where sealed holds. -/
def Via.cipher (sealed : Bool) : Via := .io (if sealed then [36] else [])

/-- The valleys that a transfer on a way to unit u enters, in order (01_architecture.md R29). -/
def Via.path (v : Via) (u : Nat) : List Nat :=
  match v with
  | .bench b => dieFabrics (b / 40) (unitDie u) false ++ (if isHbm u then [unitValley u] else [])
  | .io vs => vs ++ [fabricValley (unitDie u)] ++ (if isHbm u then [unitValley u] else [])
  | .home => []

/-- The first isolated valley of a path: its near-side cell answers (01_architecture.md R24). -/
def State.cutOff (s : State) (path : List Nat) : Option Nat := path.find? (fun v => s.flag (F.vlyStateIsolated v))

/-- An isolation cell toward valley v answers one transfer; each line of an access counts as one (DESIGN CHOICE, log 24). -/
def State.countIsolated (s : State) (v : Nat) : State := s.count (F.vlyIsoCount v) 1

/-- The valleys of a way beside the unit's own fabric and valley: those between the host, the shelf or the network and the fabric. -/
def Via.gates : Via → List Nat
  | .io vs => vs
  | _ => []

/-- How many lines n bytes from an address on touch. -/
def lineCount (a n : Nat) : Nat := if n = 0 then 0 else (a + n - 1) / 64 + 1 - a / 64

/-- n bytes of host memory read on a way: zero behind isolation (01_architecture.md R24, R29). -/
def State.hostRead (s : State) (via : Via) (a n : Nat) : List Byte × State :=
  match s.cutOff via.gates with
  | some v => (List.replicate n 0, s.count (F.vlyIsoCount v) (lineCount a n))
  | none => (Memory.read s.host.mem a n, s)

/-- Bytes written to host memory on a way: discarded behind isolation (01_architecture.md R24, R29). -/
def State.hostWrite (s : State) (via : Via) (a : Nat) (bs : List Byte) : State :=
  match s.cutOff via.gates with
  | some v => s.count (F.vlyIsoCount v) (lineCount a bs.length)
  | none => s.setHostMem (Memory.write s.host.mem a bs)

/-- What a reader finds at a line of unit u (R204, R205, R210, R211, R213). -/
def State.lookLine (s : State) (u line : Nat) : LineLook :=
  let m := s.memUnit u
  if m.poison.contains line then .none 0 false false
  else
    let data := Memory.read m.bytes (64 * line) 64
    if isHbm u then
      match m.flips.find? (fun p => p.1 == line) with
      | none => ⟨data, false, 0, false, false⟩
      | some (_, f) => lookFlipped (s.lineKeys (u - 4)) (dataUnit (u - 4) line (s.granule u (line / 1024)).gen) data f
    else
      let n := markCount m.ce line
      if lineMarked m.ue line then .none n true false else ⟨data, false, n, false, false⟩

/-- The errors that a look at a line met, counted and with their times (R205, R210, R215, R227). Each failing look at a line
counts toward the 64 of R227, the same line again too (DESIGN CHOICE, log 27). -/
def State.countLook (s : State) (u : Nat) (k : LineLook) : State :=
  let s := s.countCorrected u k.fixed
  let s := if k.tagFail then s.count (F.memIntegTagFail (u - 4)) 1 else s
  if k.lost then
    let s := s.countUncorrected u
    let m := s.memUnit u
    s.setMemUnit u { m with ueTimes := s.now :: m.ueTimes }
  else s

/-- Reading one line of a present unit: its 64 bytes, whether it is poisoned, and the state with the errors counted and
the write-backs and poison rewrites noted (R205, R210, R211, R213 to R215); zero behind isolation. -/
def State.readLine (s : State) (via : Via) (u line : Nat) : List Byte × Bool × State :=
  match s.cutOff (via.path u) with
  | some v => (List.replicate 64 0, false, s.countIsolated v)
  | none =>
    let s := s.touch u
    if ¬ s.unitKeyed u then (List.replicate 64 0, false, s)
    else
      let k := s.lookLine u line
      let s := s.countLook u k
      let m := s.memUnit u
      (k.data, k.poisoned, s.setMemUnit u { m with
        repoison := if k.lost ∨ k.tagFail then insertNat line m.repoison else m.repoison
        writeback := if k.fixed ≠ 0 ∧ ¬ k.poisoned then insertNat line m.writeback else m.writeback })

/-- The unit with one whole line written: data or poison (R204, R211, R217). Every mark of the line goes. -/
def MemUnit.putLine (m : MemUnit) (line : Nat) (bytes : List Byte) (poisoned : Bool) : MemUnit :=
  { m with
    bytes := if poisoned then Memory.zero m.bytes (64 * line) 64 else Memory.write m.bytes (64 * line) bytes
    poison := if poisoned then insertNat line m.poison else m.poison.filter (· != line)
    ce := unmark m.ce line
    ue := unmark m.ue line
    flips := Tab.erase m.flips line
    repoison := m.repoison.filter (· != line)
    writeback := m.writeback.filter (· != line) }

/-- The unit with a line's corrected form written back (R205, R210). -/
def MemUnit.writeBack (m : MemUnit) (line : Nat) : MemUnit :=
  { m with
    ce := unmark m.ce line
    flips := Tab.set [] m.flips line (flipsLeft (Tab.get [] m.flips line))
    writeback := m.writeback.filter (· != line) }

/-- Writing one whole line. Without keys a stack discards it (R214), and so does an isolation cell. -/
def State.writeLine (s : State) (via : Via) (u line : Nat) (bytes : List Byte) (poisoned : Bool) : State :=
  match s.cutOff (via.path u) with
  | some v => s.countIsolated v
  | none =>
    let s := s.touch u
    if s.unitKeyed u then s.setMemUnit u ((s.memUnit u).putLine line bytes poisoned) else s

/-- Writing part of a line, n bytes at byte o: read, corrected, merged, written whole; a line that is poisoned or fails
its check is rewritten poisoned and the flag says INTEGRITY (R205, R216). The read counts as any read (R215). -/
def State.mergeLine (s : State) (via : Via) (u line o : Nat) (bytes : List Byte) : Bool × State :=
  match s.cutOff (via.path u) with
  | some v => (false, s.countIsolated v)
  | none =>
    let s := s.touch u
    if ¬ s.unitKeyed u then (false, s)
    else
      let k := s.lookLine u line
      if k.poisoned then
        let s := if isHbm u then (s.countLook u k).count (F.memIntegPoisonWrite (u - 4)) 1
          else (s.countCorrected u k.fixed).count (F.nstEccUncorrected u) 1
        (true, s.setMemUnit u ((s.memUnit u).putLine line [] true))
      else
        let s := s.countLook u k
        (false, s.setMemUnit u ((s.memUnit u).putLine line (k.data.take o ++ bytes ++ k.data.drop (o + bytes.length)) false))

/-! ### Runs of bytes -/

/-- n lines of unit u from a line on, read on a way: their bytes, the poisoned lines among them, and the state. -/
def State.readLines (s : State) (via : Via) (u : Nat) : Nat → Nat → List Byte × List Nat × State
  | _, 0 => ([], [], s)
  | line, n + 1 =>
    let (bytes, poisoned, s) := s.readLine via u line
    let (rest, bad, s) := s.readLines via u (line + 1) n
    (bytes ++ rest, if poisoned then line :: bad else bad, s)

/-- Lines of unit u from a line on, written on a way; those of a list are written poisoned. -/
def State.writeLines (s : State) (via : Via) (u : Nat) (bad : List Nat) : Nat → Nat → List Byte → State
  | _, 0, _ => s
  | line, n + 1, bytes =>
    (s.writeLine via u line (bytes.take 64) (bad.contains line)).writeLines via u bad (line + 1) n (bytes.drop 64)

/-- What a run's transfer met: an access not served, a poisoned line. -/
structure Met where
  violated : Bool
  integrity : Bool
  deriving DecidableEq, Repr

/-- Nothing met. -/
def Met.none : Met := ⟨false, false⟩

/-- Reading n bytes from device memory address a on a way, line by line, on behalf of w: lines that are not served read zero and
are violations; poisoned lines read zero and are integrity failures. fuel bounds the lines. -/
def State.readRun (s : State) (via : Via) (w : Who) : Nat → Nat → Nat → List Byte × Met × State
  | 0, _, _ => ([], .none, s)
  | fuel + 1, a, n =>
    if n = 0 then ([], .none, s)
    else
      let o := a % 64
      let k := min n (64 - o)
      match devAddr a with
      | none =>
        let (bs, m, s) := s.readRun via w fuel (a + k) (n - k)
        (List.replicate k 0 ++ bs, { m with violated := true }, s)
      | some (u, off) =>
        if s.mayReach w false u (off / 65536) then
          let (line, poisoned, s) := s.readLine via u (off / 64)
          let (bs, m, s) := s.readRun via w fuel (a + k) (n - k)
          ((line.drop o).take k ++ bs, { m with integrity := m.integrity || poisoned }, s)
        else
          let (bs, m, s) := s.readRun via w fuel (a + k) (n - k)
          (List.replicate k 0 ++ bs, { m with violated := true }, s)

/-- Reading n bytes from device memory address a. -/
def State.devRead (s : State) (via : Via) (w : Who) (a n : Nat) : List Byte × Met × State :=
  s.readRun via w (n / 64 + 2) a n

/-- Writing bytes to device memory address a on a way, line by line, on behalf of w: lines that are not served are discarded and
are violations; a partial write to a poisoned line is an integrity failure. -/
def State.writeRun (s : State) (via : Via) (w : Who) : Nat → Nat → List Byte → Met × State
  | 0, _, _ => (.none, s)
  | fuel + 1, a, bs =>
    if bs = [] then (.none, s)
    else
      let o := a % 64
      let k := min bs.length (64 - o)
      match devAddr a with
      | none =>
        let (m, s) := s.writeRun via w fuel (a + k) (bs.drop k)
        ({ m with violated := true }, s)
      | some (u, off) =>
        if s.mayReach w true u (off / 65536) then
          let (bad, s) := if k = 64 then (false, s.writeLine via u (off / 64) (bs.take k) false)
            else s.mergeLine via u (off / 64) o (bs.take k)
          let (m, s) := s.writeRun via w fuel (a + k) (bs.drop k)
          ({ m with integrity := m.integrity || bad }, s)
        else
          let (m, s) := s.writeRun via w fuel (a + k) (bs.drop k)
          ({ m with violated := true }, s)

/-- Writing bytes to device memory address a. -/
def State.devWrite (s : State) (via : Via) (w : Who) (a : Nat) (bs : List Byte) : Met × State :=
  s.writeRun via w (bs.length / 64 + 2) a bs

/-- A unit with n bytes from off zeroized: zero lines, no poison, no marks, and nothing kept of what they held (R218; 05_roles.md
R161). -/
def MemUnit.zeroRange (m : MemUnit) (off n : Nat) : MemUnit :=
  let inLine := fun l => decide (off / 64 ≤ l ∧ l < (off + n) / 64)
  { m with
    bytes := Memory.zero m.bytes off n
    poison := m.poison.filter (fun l => !inLine l)
    ce := m.ce.filter (fun w => !inLine (w / 8))
    ue := m.ue.filter (fun w => !inLine (w / 8))
    flips := m.flips.filter (fun p => !inLine p.1)
    repoison := m.repoison.filter (fun l => !inLine l)
    writeback := m.writeback.filter (fun l => !inLine l)
    before := m.before.filter (fun p => !inLine p.1) }

/-- Zeroizing n bytes of unit u from off (R218): an access, for which a stack leaves self-refresh (R223). -/
def State.zeroRange (s : State) (u off n : Nat) : State :=
  let s := s.touch u
  s.setMemUnit u ((s.memUnit u).zeroRange off n)

/-- Zeroizing unit u whole; ownership and page slots stay. -/
def State.zeroUnit (s : State) (u : Nat) : State :=
  s.zeroRange u 0 (if isHbm u then 2 ^ 36 else 2 ^ 31)

/-! ### Regions (R123, R201) -/

/-- The memory unit of a region. -/
def Region.memUnit (r : Region) : Nat := if r.hbm then stackUnit r.unit else r.unit

/-- The granules of a region. -/
def Region.granules (r : Region) : List Nat := (List.range (r.size / 65536)).map (fun k => r.addr / 65536 + k)

/-- The region is a page pool of a cutlist with these roles (R148). -/
def Region.isPool (r : Region) (roles : Nat) : Bool := bitOf roles 2 && r.hbm && decide (0xF000 ≤ r.id)

/-- Setting the granules of a region. -/
def State.setGranules (s : State) (r : Region) (f : Granule → Granule) : State :=
  r.granules.foldl (fun s g => s.setGranule r.memUnit g (f (s.granule r.memUnit g))) s

/-- Marking a region held by partition p (R201); fresh page slots are FREE with generation 0 (R159). -/
def State.holdRegion (s : State) (p : Nat) (pool keep : Bool) (r : Region) : State :=
  s.setGranules r (fun g => { g with
    owner := some p
    pool := pool
    pstate := if keep then g.pstate else 0
    gen := if keep then g.gen else 0
    rewriting := if keep then g.rewriting else false })

/-- Giving a region up: no owner, no pool. -/
def State.dropRegion (s : State) (r : Region) : State := s.setGranules r (fun _ => Granule.init)

/-- Registrations end when a granule of theirs has left the owner's partitions (16_rdma.md R443); a window of R454 names
address 0 and stays. -/
def State.pruneRegs (s : State) : State :=
  let held := fun (x : Registration) =>
    x.addr == 0 || (match devAddr x.addr with
      | none => false
      | some (u, off) => (List.range (ceilDiv (off % 65536 + x.len) 65536)).all (fun k =>
          match (s.granule u (off / 65536 + k)).owner with
          | none => false
          | some p => (s.part p).owner == some x.inst))
  { s with rma := { s.rma with regs := s.rma.regs.filter (fun p => held p.2) } }

/-- Zeroizing a region. -/
def State.zeroRegion (s : State) (r : Region) : State := s.zeroRange r.memUnit r.addr r.size

/-! ### Bench stores (R82 to R84) -/

/-- What an operand read of a bench store meets, as a fault code of R99. A line whose poison bit is set is poisoned whatever
its check bits say (R204), so it is no uncorrectable one. -/
def Bench.operandFault (x : Bench) (lines : List Nat) : Option Nat :=
  if lines.any (fun l => lineMarked x.ue l && !x.poison.contains l) then some 4
  else if lines.any x.poison.contains then some 3
  else none

/-- The lines that n bytes from byte address a touch. -/
def linesOf (a n : Nat) : List Nat := (List.range (ceilDiv (a % 64 + n) 64)).map (fun k => a / 64 + k)

/-- Counting a unit's read of lines of bench b that are not poisoned: corrected words, and uncorrectable lines (R84, R204). -/
def State.benchCountRead (s : State) (b : Nat) (lines : List Nat) : State :=
  let x := s.bench b
  let lines := lines.filter (fun l => !x.poison.contains l)
  let n := (lines.map (markCount x.ce)).foldl (· + ·) 0
  let s := if n = 0 then s else s.count (F.bncEccCorrected b) n
  let m := (lines.filter (lineMarked x.ue)).length
  if m = 0 then s else s.count (F.bncEccUncorrected b) m

/-- The bench store lines that a whole read of it delivers poisoned. -/
def Bench.badLines (x : Bench) : List Nat := (x.ue.map (· / 8)).foldl (fun l k => insertNat k l) x.poison

/-- The valleys between the cipher engine and the store of bench b (01_architecture.md R29). -/
def storePath (b : Nat) : List Nat := [36, fabricValley (b / 40), valleyOf (clusterOf b)]

/-- The whole store of bench b read for a shard or an image: its bytes with poisoned lines as zero, those lines, and the state
with errors counted (R84, R215); behind isolation each of its lines reads zero (01_architecture.md R24). -/
def State.storeOut (s : State) (b : Nat) : Memory × List Nat × State :=
  match s.cutOff (storePath b) with
  | some v => ([], [], s.count (F.vlyIsoCount v) 65536)
  | none =>
    let x := s.bench b
    (x.badLines.foldl (fun m l => Memory.zero m (64 * l) 64) x.store, x.badLines,
      s.benchCountRead b ((x.ce.map (· / 8)).foldl (fun l k => insertNat k l) x.badLines))

/-- The whole store of bench b written from a shard or an image; isolation discards it. -/
def State.storeIn (s : State) (b : Nat) (store : Memory) (bad : List Nat) : State :=
  match s.cutOff (storePath b) with
  | some v => s.count (F.vlyIsoCount v) 65536
  | none => s.setBench b { s.bench b with store := store, poison := bad, ue := [], ce := [] }

/-- The bench with one line written whole, data or poison. -/
def Bench.putLine (x : Bench) (line : Nat) (bytes : List Byte) (poisoned : Bool) : Bench :=
  { x with
    store := Memory.write x.store (64 * line) bytes
    poison := if poisoned then insertNat line x.poison else x.poison.filter (· != line)
    ce := unmark x.ce line
    ue := unmark x.ue line }

/-- The bench with bytes written from byte address a. Lines that are covered whole lose their poison and their error
marks; other lines keep their poison, and words written whole lose their error marks (R84, R204). -/
def Bench.writeBytes (x : Bench) (a : Nat) (bs : List Byte) : Bench :=
  let whole := fun l => decide (a ≤ 64 * l ∧ 64 * l + 64 ≤ a + bs.length)
  let word := fun w => decide (a ≤ 8 * w ∧ 8 * w + 8 ≤ a + bs.length)
  { x with
    store := Memory.write x.store a bs
    poison := x.poison.filter (fun l => !whole l)
    ce := x.ce.filter (fun w => !word w)
    ue := x.ue.filter (fun w => !word w) }

/-- A mover's read of one line of bench b: bytes, poison, and the state with errors counted. An uncorrectable line
travels on poisoned and raises no fault (R84). -/
def State.benchMoverLine (s : State) (b line : Nat) : List Byte × Bool × State :=
  let x := s.bench b
  let s := s.benchCountRead b [line]
  (Memory.read x.store (64 * line) 64, x.poison.contains line || lineMarked x.ue line, s)

/-- Bench stores of a list of benches zeroized, and their result buffers with them (R218; 08_tenon.md R259). -/
def State.zeroBenchStores (s : State) (bs : List Nat) : State :=
  bs.foldl (fun s b => s.setBench b { s.bench b with store := [], poison := [], ue := [], ce := [], entries := [], entryFault := [] }) s

end Sys2Proof.Machine
end

