-- ==== Sys2Proof/Machine/OpsRun.lean ====
section
/-! DEFINITION. The named operations over the schedule (04_cutlists.md R112 to R114), halts (06_plain.md R192) and
bench faults (03_benches.md R99). -/

namespace Sys2Proof.Machine

/-! ### The schedule -/

/-- A cut run of a cutlist that no table describes: one tick, the shortest kerf. -/
def CutRun.none : CutRun := ⟨1, 1, 16, 0xFFFF, 0, false, false, false, false, 0xFFFFFFFF⟩

/-- The cut run of cut index c (R112). -/
def cutRunOf : List CutRun → Nat → CutRun
  | [], _ => .none
  | r :: t, c => if c < r.count then r else cutRunOf t (c - r.count)

/-- The cut run of cut c of a cutlist. -/
def Cutlist.cutRun (l : Cutlist) (c : Nat) : CutRun := cutRunOf l.runs c

/-- The position after (pass, cut): the next cut, or loop_start of the next pass. -/
def Cutlist.nextPos (l : Cutlist) (pass cut : Nat) : Nat × Nat :=
  if cut + 1 < l.cutCount then (pass, cut + 1) else (pass + 1, l.loopStart)

/-- The partitions of the device. -/
def allParts : List Nat := [0, 1, 2, 3]

/-- A partition runs scheduled work. -/
def Part.runs (p : Part) : Bool := p.state == .running || p.state == .staged

/-- Partitions that are RUNNING or STAGED. -/
def State.runningParts (s : State) : List Nat := allParts.filter (fun p => (s.part p).runs)

/-- A partition of the device is RUNNING or STAGED, so kerfs occur. -/
def State.scheduled (s : State) : Bool := s.runningParts != []

/-- The partitions of the device's current member set (R108): the one that runs, or that was loaded or started last. -/
def State.setParts (s : State) : List Nat := (maskList 4 s.run.parts).filter (fun p => (s.part p).list.isSome)

/-- RUN_END goes to the owner of every partition of the set (12_rings.md R360). -/
def State.runEnds (s : State) : State :=
  s.setParts.foldl (fun s p => match (s.part p).owner with
    | none => s
    | some i => s.event i 0x04 p (s.run.id % 2 ^ 32)) s

/-- The end of a run whose START was detached posts RUN_END (12_rings.md R345). -/
def State.detachedEnds (s : State) : State := if s.run.start.isNone then s.runEnds else s

/-- The mask of the current member set. -/
def State.setMask (s : State) : Nat := listMask s.setParts

/-- The mask names exactly the partitions of a loaded member set (12_rings.md R349). -/
def State.isSet (s : State) (mask : Nat) : Bool :=
  mask % 16 != 0 && (maskList 4 mask).all (fun p => (s.part p).list.isSome && (s.part p).mates == mask % 16)

/-- The run, or the position, of the member set of a mask. -/
def State.runOf (s : State) (mask : Nat) : Run :=
  if s.run.parts = mask then s.run else (s.stowed.find? (fun r => r.parts == mask)).getD { Run.init with parts := mask }

/-- A START or a restore makes the member set of a mask the current one. The position of the set that was current is kept
where it has stopped; a checkpoint that is being written, start records of other members and page commits that wait stay in
hand. -/
def State.bringSet (s : State) (mask : Nat) : State :=
  if s.run.parts = mask then s
  else
    let r := s.runOf mask
    let others := s.stowed.filter (fun x => x.parts != mask)
    let old := s.run
    let gone : Run := { old with take := none, startRecs := [], commits := [] }
    { s with
      run := { r with take := old.take, startRecs := old.startRecs, commits := old.commits.map (fun c => { c with kerf := 0 }) }
      stowed := if s.setParts.any (fun p => (s.part p).state == .stopped) then gone :: others else others }

/-- The partitions of a mask leave their member sets: positions of sets with one of them are gone, and a checkpoint of one
of them that is being written fails with FENCED (DESIGN CHOICE, log 19). -/
def State.dropSets (s : State) (mask : Nat) : State :=
  let s := { s with stowed := s.stowed.filter (fun r => r.parts &&& mask == 0) }
  let s := match s.run.take with
    | none => s
    | some t => if t.mask &&& mask = 0 then s else ({ s with run := { s.run with take := none } }).complete t.op Status.fenced 0
  if s.run.parts &&& mask = 0 then s
  else ({ s with run := { Run.init with startRecs := s.run.startRecs, take := s.run.take, commits := s.run.commits } }).setFlag F.dvtPlainHaltPending false

/-- The cutlist whose cut-run table the schedule units hold; every cutlist of the set has the same table (R107). -/
def State.schedule (s : State) : Option Cutlist := s.setParts.findSome? (fun p => (s.part p).list)

/-- A Plain of more than one member is formed. -/
def State.inPlain (s : State) : Bool := s.flag F.dvtPlainFormed && decide (1 < s.fld F.dvtPlainPlainSize)

/-- The diameter that R133 and R192 use: 0 where no Plain of more than one member is formed. -/
def State.diameter (s : State) : Nat := if s.inPlain then s.fld F.dvtPlainDiameter else 0

/-- The Dovetail links in service (state code 3). -/
def State.serviceLinks (s : State) : List Nat := (List.range 6).filter (fun j => s.fld (F.dvtLinkStatusState j) == 3)

/-- The device is inside a kerf. -/
def RunPhase.inKerf : RunPhase → Bool
  | .drain | .sealed | .service => true
  | _ => false

/-- The kerf length of the current cut, stretch included (R114). -/
def State.kerfLength (s : State) : Nat :=
  match s.schedule with
  | none => 16
  | some l => (l.cutRun s.run.cut).kerf + s.plain.stretch

/-- Cuts from the one at (pass, cut) to the one at (pass', cut') of a run, where that is not behind it (R112). A pass that has begun
under a cutlist with a lower loop_start may stand below this one's (R140). -/
def Cutlist.cutsTo (l : Cutlist) (pass cut pass' cut' : Nat) : Option Nat :=
  if pass' = pass then (if cut ≤ cut' then some (cut' - cut) else none)
  else if pass < pass' ∧ l.loopStart ≤ cut' then
    some ((l.cutCount - cut) + (pass' - pass - 1) * (l.cutCount - l.loopStart) + (cut' - l.loopStart))
  else none

/-- Kerf count of the swap kerf (R142). -/
def State.swapKerf (s : State) : Option Nat :=
  match s.run.swap, s.schedule with
  | some w, some l => (l.cutsTo s.run.pass s.run.cut w.pass w.cut).map (fun n => s.run.kerfs + n - 1)
  | _, _ => none

/-- The staged cutlist of the set; every cutlist of the set has the same cut-run table (R107). -/
def State.successor (s : State) : Option Cutlist := s.setParts.findSome? (fun p => (s.part p).staged)

/-- The cutlist of the cut before kerf k: past the swap kerf of a successor that this member votes for, the successor's
(R142). -/
def State.listOf (s : State) (l : Cutlist) (k : Nat) : Cutlist :=
  match s.run.swap, s.swapKerf, s.successor with
  | some w, some sk, some n => if w.fitted && !w.no && decide (sk < k) then n else l
  | _, _, _ => l

/-- The stretch of kerf k: the one in force in the current stretch period, and after it the running maximum, as far as this
member knows it (R195, R196; DEDUCED, log 27). -/
def State.stretchOf (s : State) (k : Nat) : Nat := if k / 32 ≤ s.run.kerfs / 32 then s.plain.stretch else s.plain.stretchMax

/-- The first kerf, counted from kerf number k that starts at tick t after cut (pass, cut), that starts at or after a
tick. -/
def State.kerfFrom (s : State) (l : Cutlist) (target : Nat) : Nat → Nat → Nat → Nat → Nat → Nat
  | 0, k, _, _, _ => k
  | fuel + 1, k, t, pass, cut =>
    if target ≤ t then k
    else
      let here := s.listOf l k
      let (pass', cut') := here.nextPos pass cut
      let next := t + (here.cutRun cut).kerf + s.stretchOf k + ((s.listOf l (k + 1)).cutRun cut').length
      s.kerfFrom l target fuel (k + 1) next pass' cut'

/-- Kerf count of the first kerf that starts at or after a Plain tick (R192, R510). The current or next kerf is number
run.kerfs. -/
def State.kerfAtOrAfter (s : State) (target : Nat) : Nat :=
  match s.schedule with
  | none => s.run.kerfs
  | some l =>
    let start := if s.run.phase.inKerf then s.run.since else s.run.since + (l.cutRun s.run.cut).length
    s.kerfFrom l target 4096 s.run.kerfs start s.run.pass s.run.cut

/-! ### Dovetail stream positions (R168, R172, R173) -/

/-- The receive slots of link j in the current cut. -/
def State.rxSlots (s : State) (j : Nat) : List LinkSlot :=
  match s.schedule with
  | none => []
  | some l => (l.tables.getD (l.cutRun s.run.cut).slotTable []).filter (fun e => e.rx && e.link == j)

/-- The transmit slots of link j in the current cut. -/
def State.txSlots (s : State) (j : Nat) : List LinkSlot :=
  match s.schedule with
  | none => []
  | some l => (l.tables.getD (l.cutRun s.run.cut).slotTable []).filter (fun e => !e.rx && e.link == j)

/-- The part of a slot's bytes that flit f of a stream carries: first slot byte, first payload byte, count. A slot that
starts at tick t on the sender claims stream bytes from 400 t (R168). -/
def flitPart (t bytes f : Nat) : Nat × Nat × Nat :=
  let lo := max (400 * t) (640 * f)
  let hi := min (400 * t + bytes) (640 * f + 640)
  (lo - 400 * t, lo - 640 * f, hi - lo)

/-- The transmit slots of link j that flit f carries bytes of. -/
def State.flitSlots (s : State) (j f : Nat) : List LinkSlot :=
  (s.txSlots j).filter (fun e => (flitPart e.start e.bytes f).2.2 != 0)

/-! ### Halts (R192) -/

/-- The flit q places ahead on link j is a data flit that has not left yet, or in the Drain phase the seal flit of kerf tick
4; every other flit is idle. Flit boundaries fall every 1.6 ticks from the cut start (R167, R168, R189). -/
def State.flitDue (s : State) (j q : Nat) : Bool :=
  match s.schedule with
  | none => false
  | some l =>
    let len := (l.cutRun s.run.cut).length
    let start := if s.run.phase.inKerf then s.run.since - len else s.run.since
    let f := (10 * (s.plain.tick - start) + 15) / 16 + q
    match s.run.phase with
    | .cut => (s.flitSlots j f).any (fun e => !(s.link j).filled.contains e.tag)
    | .drain => s.inPlain && decide (10 * (len + 4) ≤ 16 * f ∧ 16 * f < 10 * (len + 4) + 16)
    | _ => false

/-- A notice goes out on links: the notice kind in aux and the value, in the next two flits (R169, R175, R192). An idle
flit leaves with it at once; a data flit or a seal flit takes it along. -/
def State.notice (s : State) (links : List Nat) (aux value : Nat) : State :=
  links.foldl (fun s j => [0, 1].foldl (fun s q =>
    if s.flitDue j q then s.setLink j { s.link j with notices := (s.link j).notices ++ [(aux, value % 65536)] }
    else s.emit (.flit j 0 aux (value % 65536) [])) s) s

/-- The notice that the next data or control flit of link j takes along; none is (0, 0). -/
def Link.nextNotice (l : Link) : Nat × Nat := l.notices.headD (0, 0)

/-- A data flit leaves on link j. -/
def State.sendData (s : State) (j : Nat) (payload : List Byte) : State :=
  let (aux, value) := (s.link j).nextNotice
  (s.setLink j { s.link j with notices := (s.link j).notices.drop 1 }).emit (.flit j 1 aux value payload)

/-- A control flit leaves on link j; within a cut of a run it waits (R170). -/
def State.sendControl (s : State) (j type : Nat) (content : List Byte) : State :=
  if s.run.phase = .cut then s.setLink j { s.link j with control := (s.link j).control ++ [(type, content)] }
  else
    let (aux, value) := (s.link j).nextNotice
    (s.setLink j { s.link j with notices := (s.link j).notices.drop 1 }).emit (.control j type aux value content)

/-- The control flits of link j that have waited for a kerf, or for the run's end, leave (R170). -/
def State.flushControl (s : State) (j : Nat) : State :=
  let cs := (s.link j).control
  cs.foldl (fun s c => s.sendControl j c.1 c.2) (s.setLink j { s.link j with control := [] })

/-- A control flit leaves on each of a list of links. -/
def State.flood (s : State) (links : List Nat) (type : Nat) (content : List Byte) : State :=
  links.foldl (fun s j => s.sendControl j type content) s

/-- The notices of link j that no data flit and no seal flit has taken along leave in idle flits. -/
def State.flushNotices (s : State) (j : Nat) : State :=
  let ns := (s.link j).notices
  ns.foldl (fun s n => s.emit (.flit j 0 n.1 n.2 [])) (s.setLink j { s.link j with notices := [] })

/-! ### Partitions, clusters and benches -/

/-- The partition that owns cluster k. -/
def State.clusterPart (s : State) (k : Nat) : Option Nat :=
  allParts.find? (fun p => (s.part p).owner.isSome && bitOf (s.part p).clusters k)

/-- The partition of bench b. -/
def State.benchPart (s : State) (b : Nat) : Option Nat := s.clusterPart (clusterOf b)

/-- The instance that owns the partition of cluster k. -/
def State.clusterOwner (s : State) (k : Nat) : Nat :=
  match s.clusterPart k with
  | none => 0
  | some p => (s.part p).owner.getD 0

/-- What a scope covers touches scheduled work of a RUNNING or STAGED partition (19_recovery.md R493). -/
def State.touches (s : State) (sc : Scope) : Bool :=
  let runs := fun (c : Nat) => ((s.clusterPart c).map s.runningParts.contains).getD false
  s.scheduled &&
    (match sc with
     | .engine _ => false
     | .bench b => runs (clusterOf b)
     | .cpx c => runs c
     | .core k => decide (5 ≤ k) && runs (k - 5)
     | .parts m => s.runningParts.any (bitOf m)
     | .valley v =>
       (match valleyCluster v with
        | some c => runs c
        | none => decide (v < 20) || (v == 34 && s.inPlain) || (decide (20 ≤ v ∧ v < 32) && s.runningParts.any (fun p =>
            ((s.part p).list.map (fun l => bitOf l.stackMask (v - 20))).getD false)))
     | _ => true)

/-! ### Raising a halt -/

/-- The halt kerf set: DVT_PLAIN.halt_pending, and the earliest halt kerf stays (R192). -/
def State.setHalt (s : State) (h : Halt) : State :=
  let s := s.setFlag F.dvtPlainHaltPending true
  let s := { s with run := { s.run with noticed := (2, h.kerf) :: s.run.noticed } }
  match s.run.halt with
  | none => { s with run := { s.run with halt := some h } }
  | some old =>
    let (first, later) := if h.kerf < old.kerf then (h, old) else (old, h)
    let known := (first.seen :: first.more).map Seen.trouble
    let add := (later.seen :: later.more).filter (fun x => x.trouble.cause != 0 && !known.contains x.trouble)
    { s with run := { s.run with halt := some { first with more := first.more ++ add } } }

/-- A fault as it is detected now (19_recovery.md R500). -/
def State.see (s : State) (t : Trouble) : Seen := ⟨t, s.deviceTime, s.run.pass, s.run.cut, s.run.epoch, none, s.now, 0⟩

/-- A fault waits for recovery (19_recovery.md R492). -/
def State.addFault (s : State) (t : Trouble) : State := { s with rcv := { s.rcv with faults := s.rcv.faults ++ [s.see t] } }

/-- Raising a halt (R192): the halt kerf is the first that starts at least 64 (diameter + 1) ticks after the raise; notices with
the low 16 bits of its kerf count go out on every link in service (R169 calls it the cut count; DEDUCED, log 27); the wake cause
plain_halt is recorded and line 3 of the scheduler core asserts (09_firmware.md R276). -/
def State.haltNow (s : State) (t : Trouble) : State :=
  let k := s.kerfAtOrAfter (s.plain.tick + 64 * (s.diameter + 1))
  let s := s.setHalt ⟨k, s.see t, []⟩
  let s := if s.inPlain then s.notice s.serviceLinks 2 k else s
  (s.wake 4).markLine 2 3

/-- A fault (R192, R493): one that touches scheduled work raises a halt; the others wait for recovery. -/
def State.raiseHalt (s : State) (t : Trouble) : State := if s.touches t.scope then s.haltNow t else s.addFault t

/-! ### Where flits land (R172 to R174) -/

/-- Where flit f of link j's receive stream lands: slot entry, slot byte, payload byte and count. -/
def State.flitTargets (s : State) (j f : Nat) : List (LinkSlot × Nat × Nat × Nat) :=
  (s.rxSlots j).filterMap (fun e =>
    let (a, o, n) := flitPart (e.start - 113) e.bytes f
    if n = 0 then none else some (e, a, o, n))

/-- A transmit slot of another link that takes the receive slot e onward (R174). -/
def State.forwardOf (s : State) (e : LinkSlot) : Option LinkSlot :=
  (List.range 6).findSome? (fun j =>
    if j = e.link then none
    else (s.txSlots j).find? (fun t => t.tag == e.tag && t.start == e.start && t.ticks == e.ticks))

/-- The link and flit whose unrestored loss poisoned a line of bench b (R179). -/
def State.lostFlitOf (s : State) (b : Nat) (lines : List Nat) : Option (Nat × Nat) :=
  (List.range 6).findSome? (fun j =>
    ((s.link j).unrestored.find? (fun f =>
      (s.flitTargets j f).any (fun (e, a, _, n) => e.bench == b && (linesOf (64 * e.line + a) n).any lines.contains))).map
      (fun f => (j, f)))

/-! ### Bench faults (R99) -/

/-- A bench fault: the code goes to BNC_STATUS.fault, the cut program stops and no further instruction issues, and a
halt with cause BENCH is raised (R98, R99, R192). A POISON fault on a line of a lost flit names the link (R179). The window of an
abandoned routine is a fault of its CPX stream (19_recovery.md R492). -/
def State.benchFault (s : State) (b code : Nat) (lines : List Nat) : State :=
  let s := s.setFld (F.bncStatusFault b) code
  let s := s.setFlag (F.bncStatusRunning b) false
  match if code = 3 then s.lostFlitOf b lines else none with
  | some (j, f) => s.raiseHalt ⟨0, 0x02, j, .bench b, f⟩
  | none => s.raiseHalt ⟨0, 0x01, code, if code = 5 ∧ (s.bench b).abandoned then .cpx (clusterOf b) else .bench b, 0⟩

/-! ### Issue (R96, R103) -/

/-- Bench b issues instructions: it is present, its cut program runs, no fault has stopped it, no stall holds it and no
open window is open. A fenced bench takes nothing new (19_recovery.md R498). -/
def State.issues (s : State) (b : Nat) : Bool :=
  !s.rcv.unitFenced (.bench b) && s.flag (F.bncStatusPresent b) && s.flag (F.bncStatusRunning b) && !s.flag (F.bncStatusOpen b)
    && (s.bench b).stall.isNone

/-- The slot after an instruction of n slots, with the loop of R97. -/
def Bench.advance (x : Bench) (n : Nat) : Bench :=
  let next := x.slot + n
  match x.loop with
  | none => { x with slot := next }
  | some (first, last, left) =>
    if next ≤ last then { x with slot := next }
    else if 1 < left then { x with slot := first, loop := some (first, last, left - 1) }
    else { x with slot := next, loop := none }

/-- Bench b's sequencer passes to its next slot. -/
def State.advance (s : State) (b n : Nat) : State := s.setBench b ((s.bench b).advance n)

/-- One more stalled cycle of bench b (R96). -/
def State.stalled (s : State) (b : Nat) : State := s.wrapAdd (F.bncStallCycles b) 1

end Sys2Proof.Machine
end

