-- ==== Sys2Proof/Machine/OpsCore.lean ====
section
/-! DEFINITION. The named operations over Tenon cores (08_tenon.md R229 to R258): registers, the status word, the MPU,
memory, exception entry and return, lockup, interrupt lines; and the debug records of 21_debug.md R526. -/

namespace Sys2Proof.Machine

/-! ### Debug records (R526) -/

/-- The aligned tick of R530 in 1/64 tick: the V34 tick with its part of a tick, of which the model's time base knows whole ns and
the rest is a free value (log 30), less the offset. -/
def State.alignedTick (s : State) : Nat :=
  unsigned 64 (((s.plain.tick * 64 + s.now % 4 * 16 + (s.freeBits 4).toNat : Nat) : Int) - s.plain.offset)

/-- One 32-byte record. The start round is no part of the run yet. -/
def State.dbgBytes (s : State) (type sub unit payload : Nat) : List Byte :=
  let cut := if s.run.phase = .idle ∨ s.run.phase = .round ∨ s.run.phase = .armed then 0xFFFFFFFF else s.run.cut
  leBytes 1 type ++ leBytes 1 sub ++ leBytes 2 unit ++ leBytes 4 cut ++ leBytes 8 s.alignedTick ++ leBytes 8 s.deviceTime
    ++ leBytes 8 payload

/-- Writing 32 bytes at DBG_WPTR mod size. -/
def State.dbgPut (s : State) (bytes : List Byte) : State :=
  let base := s.fld F.dbgBufLoAddr + s.fld F.dbgBufHiAddr * 2 ^ 32
  let w := s.fld F.dbgWptrBytes
  (s.setHostMem (Memory.write s.host.mem (base + w % 2 ^ s.fld F.dbgBufCfgLog2Size) bytes)).setFld F.dbgWptrBytes (w + 32)

/-- The FIFO of a record: that of its cluster, or of its core (R526). -/
def dbgSource (type sub unit : Nat) : Nat :=
  if type = 2 then 16 + unit else if type = 1 ∨ sub < 8 then clusterOf unit else unit

/-- A debug record is produced: it enters the FIFO of its cluster or core; where that holds 256, or the manager is in D3hot, it is
dropped and counted (R526). -/
def State.dbgRecord (s : State) (type sub unit payload : Nat) : State :=
  let k := dbgSource type sub unit
  let q := Tab.get [] s.dbg.fifo k
  if (s.fn 0).d3hot ∨ 256 ≤ q.length then
    { s.count F.dbgLostCount 1 with dbg := { s.dbg with dropped := s.dbg.dropped + 1 } }
  else { s.bumpFree with dbg := { s.dbg with fifo := Tab.set [] s.dbg.fifo k (q ++ [s.dbgBytes type sub unit payload]) } }

/-- The buffer takes the oldest record of every FIFO, and a loss record where records were lost, since there is space now. How
fast the FIFOs drain the manual does not state: one record of each in a tick of the idle block (DESIGN CHOICE, log 30). -/
def State.dbgDrain (s : State) : State :=
  if ¬ s.dmaOk 0 then s
  else
    let s := s.dbg.fifo.foldl (fun s p => match p.2 with
      | [] => s
      | bs :: t => { s.dbgPut bs with dbg := { s.dbg with fifo := Tab.set [] s.dbg.fifo p.1 t } }) s
    if s.dbg.dropped = 0 then s
    else { (s.dbgPut (s.dbgBytes 4 0 0 s.dbg.dropped)).bumpFree with dbg := { s.dbg with dropped := 0 } }

/-- A debug right holds (R309). -/
def State.hasRight (s : State) (n : Nat) : Bool := s.flag F.secStatusDebug && bitOf (s.fld F.dbgStatusRights) n

/-- Core k is traced (R528); the security core never is. -/
def State.traced (s : State) (k : Nat) : Bool :=
  k != 0 && s.hasRight 1 && s.flag F.dbgCtrlTrace && bitOf (s.fld F.dbgTraceCores) k

/-- A trace record of core k where it is traced. -/
def State.traceRec (s : State) (k sub pc high : Nat) : State :=
  if s.traced k then s.dbgRecord 2 sub k (pc + high * 2 ^ 32) else s

/-- A bench's debug counter, while counters are on (R529). -/
def State.benchCtr (s : State) (b sub n : Nat) : State :=
  if s.hasRight 2 ∧ s.flag F.dbgCtrlCounters then
    let x := s.bench b
    s.setBench b { x with ctrs := Tab.modify 0 x.ctrs sub (· + n) }
  else s

/-- A cluster's debug counter, while counters are on. -/
def State.clusterCtr (s : State) (k sub n : Nat) : State :=
  if s.hasRight 2 ∧ s.flag F.dbgCtrlCounters then
    { s with dbg := { s.dbg with cluster := Tab.modify 0 s.dbg.cluster (16 * k + sub) (· + n) } }
  else s

end Sys2Proof.Machine

namespace Sys2Proof.Machine

/-! ### The status word (R231) -/

namespace Sw
def z : Nat := 0
def n : Nat := 1
def c : Nat := 2
def v : Nat := 3
def sat : Nat := 4
def sv : Nat := 5
def ie : Nat := 6
def priv : Nat := 7
def plev : Nat := 8
def rp : Nat := 12
def rn : Nat := 13
end Sw

/-- A bit of SW. -/
def Core.bit (x : Core) (i : Nat) : Bool := x.sw.getLsbD i

/-- SW with one bit written. -/
def swSet (w : W32) (i : Nat) (v : Bool) : W32 := if v then w ||| (1#32 <<< i) else w &&& ~~~(1#32 <<< i)

/-- The core with one bit of SW written. -/
def Core.setBit (x : Core) (i : Nat) (v : Bool) : Core := { x with sw := swSet x.sw i v }

/-- SW.plev. -/
def Core.plev (x : Core) : Nat := bitsOf x.sw.toNat 8 4

/-! ### Registers (R229) -/

def Core.gr (x : Core) (i : Nat) : W32 := Tab.get 0 x.g i
def Core.setG (x : Core) (i : Nat) (v : W32) : Core := { x with g := Tab.set 0 x.g i v }
def Core.pr (x : Core) (i : Nat) : W32 := Tab.get 0 x.p i
def Core.setP (x : Core) (i : Nat) (v : W32) : Core := { x with p := Tab.set 0 x.p i v }
def Core.cr (x : Core) (i : Nat) : BitVec 72 := Tab.get 0 x.c i
def Core.setC (x : Core) (i : Nat) (v : BitVec 72) : Core := { x with c := Tab.set 0 x.c i v }

/-! ### Faults of an access -/

/-- A core exception with the address it reports. -/
structure CoreFault where
  vector : Nat
  addr : Option Nat
  detail : Nat
  deriving DecidableEq, Repr

/-- A fault without an address. -/
def CoreFault.plain (v : Nat) : CoreFault := ⟨v, none, 0⟩

/-! ### Protection (R255 to R257) -/

/-- CFG.protect: 0b00 is treated as 0b11. -/
def Core.protect (x : Core) : Nat := let p := bitsOf x.cfg.toNat 0 2; if p = 0 then 3 else p

/-- The MPU checks accesses: not with protect 0b01. -/
def Core.mpuOn (x : Core) : Bool := x.protect != 1

/-- The lowest-numbered enabled region that contains an address. -/
def Core.region (x : Core) (a : Nat) : Option Nat :=
  (List.range 16).find? (fun i =>
    (Tab.get 0 x.mpuBase i).getLsbD 0 &&
      decide ((Tab.get 0 x.mpuBase i).toNat / 64 ≤ a / 64 ∧ a / 64 ≤ (Tab.get 0 x.mpuLim i).toNat / 64))

/-- An access is allowed: kind 0 read, 1 write, 2 execute (R256). -/
def Core.allowed (x : Core) (kind a : Nat) : Bool :=
  if x.mpuOn then
    match x.region a with
    | some i => (Tab.get 0 x.mpuLim i).getLsbD (kind + (if x.bit Sw.priv then 3 else 0))
    | none => x.bit Sw.priv && x.cfg.getLsbD 2
  else true

/-! ### Memory (R233, R234) -/

/-- What an address of the core's space holds. -/
inductive Space where
  | tcm | window | nothing
  deriving DecidableEq, Repr

/-- The space of an address (R233). -/
def spaceOf (a : Nat) : Space :=
  if a < 0x20000 then .tcm else if 0x40000000 ≤ a ∧ a < 0x80000000 then .window else .nothing

/-- The checks of a data access of n bytes at address a: alignment, MPU, what is there, ECC of a read. inRepn keeps the
accesses of REPN inside the tightly coupled memory (R254). -/
def Core.access (x : Core) (write inRepn : Bool) (a n : Nat) : Option CoreFault :=
  if a % n ≠ 0 then some ⟨3, some a, 0⟩
  else if ¬ x.allowed (if write then 1 else 0) a then some ⟨5, some a, 0⟩
  else match spaceOf a with
    | .nothing => some ⟨7, some a, 0⟩
    | .window => if inRepn then some ⟨7, some a, 0⟩ else none
    | .tcm =>
      if !write && (List.range (ceilDiv n 8)).any (fun k => x.tcmUe.contains (a / 8 + k)) then some ⟨11, some a, 0⟩
      else none

/-- The core with n bytes stored: into the tightly coupled memory, or posted to the system window (R244). A word of 8
bytes that is written whole loses its error mark. -/
def Core.store (x : Core) (a : Nat) (bs : List Byte) : Core :=
  match spaceOf a with
  | .window => { x with posted := x.posted ++ [(a, bs)] }
  | _ => { x with
      tcm := Memory.write x.tcm a bs
      tcmUe := x.tcmUe.filter (fun w => !decide (a ≤ 8 * w ∧ 8 * w + 8 ≤ a + bs.length)) }

/-! ### Lockup (R247) -/

/-- The interrupt line of the core that watches core k (09_firmware.md R276): line 1 of the scheduler core for a control
core, line 0 of the security core for the others; the security core itself is watched in V38. -/
def State.markWatcher (s : State) (k : Nat) : State :=
  if 5 ≤ k then s.markLine 2 1 else if k = 0 then s else s.markLine 0 0

/-- A lockup or a second watchdog expiry of core k is reported (R247, R258, R492): L2 of the partition that holds a
control core's cluster, L1 of another core, L4 for the security core. A control core outside every partition is
restarted at L1. -/
def State.report (s : State) (k : Nat) : State :=
  let pc := (s.core k).pc.toNat
  let s := s.markWatcher k
  if k = 0 then s.addFault ⟨4, 0x05, k, .device, pc⟩
  else if k < 5 then s.addFault ⟨1, 0x05, k, .core k, pc⟩
  else match s.clusterPart (k - 5) with
    | some p => s.raiseHalt ⟨2, 0x05, k, .parts (2 ^ p), pc⟩
    | none => s.addFault ⟨1, 0x05, k, .core k, pc⟩

/-- Core k stops in lockup and is reported; a control core's lockup shows in CPX_STATUS, and the lifetime log counts it
(17_time.md R477). -/
def State.lockup (s : State) (k : Nat) : State :=
  let s := ((s.setCore k { s.core k with lockup := true }).logCount 7 1).report k
  if 5 ≤ k then s.setFlag (F.cpxStatusLockup (k - 5)) true else s

/-! ### Exception entry and return (R245, R246) -/

/-- A push of one word at P7 - 4: the fault it meets, or the core after it. A P7 below 4, from which it would wrap, is STACK
(DESIGN CHOICE, log 30). -/
def Core.push (x : Core) (v : W32) : Except CoreFault Core :=
  let sp := x.pr 7
  let a := sp - 4
  if sp.toNat % 4 ≠ 0 then .error ⟨3, some sp.toNat, 0⟩
  else if a < x.splim ∨ sp.toNat < 4 then .error ⟨6, some a.toNat, 0⟩
  else match x.access true false a.toNat 4 with
    | some f => .error f
    | none => .ok ((x.store a.toNat (leBytes 4 v.toNat)).setP 7 a)

/-- The address of a vector's word. -/
def Core.vectorAt (x : Core) (vector : Nat) : Nat := (x.vtb + BitVec.ofNat 32 (4 * vector)).toNat

/-- Entry with a vector and a resume PC: the frame is pushed, SW changes, PC comes from the vector table, always a multiple
of 4 (R229). An exception clears ie, an interrupt of priority p sets plev, and FCAUSE takes its vector (R248). answer is
what the system window gives where the table lies there, a value the manual does not state (log 7). A fault during entry is
none: the core locks up (R247). -/
def Core.enter (x : Core) (vector : Nat) (resume : W32) (prio : Option Nat) (answer : W32) : Option Core :=
  match x.push resume with
  | .error _ => none
  | .ok y =>
    match y.push x.sw with
    | .error _ => none
    | .ok y =>
      let sw := swSet (swSet (swSet y.sw Sw.priv true) Sw.rp false) Sw.rn false
      let sw := match prio with
        | some p => (sw &&& ~~~0xF00#32) ||| (BitVec.ofNat 32 p <<< 8)
        | none => swSet sw Sw.ie false
      let cause := if prio.isSome then BitVec.ofNat 32 vector else y.fcause
      let y := { y with sw := sw, fcause := cause, waiting := false, fresh := none }
      let a := y.vectorAt vector
      match y.access false false a 4 with
      | some _ => none
      | none =>
        let target := if spaceOf a = .window then answer else BitVec.ofNat 32 (Memory.readLE y.tcm a 4)
        some { y with pc := target &&& ~~~3#32 }

/-- The kill of the operations that a squash at core k reaches (R264, R265): CPXSQ and CPX_SQUASH.cycles grow, the
killed operations' tags are spent, and the operations leave no other trace. -/
def State.squash (s : State) (k : Nat) (q : Squash) : State :=
  if k < 5 ∨ q.ops = 0 then s
  else
    let c := k - 5
    let x := s.core k
    let s := s.setCore k { x with cpxsq := x.cpxsq + q.ops.zeroExtend 32 }
    let s := s.wrapAdd (F.cpxSquashCycles c) q.cycles.toNat
    let y := s.cluster c
    let s := s.traceRec k 5 x.pc.toNat y.nextTag
    (s.setCluster c { y with nextTag := (y.nextTag + q.ops.toNat) % 64 }).clusterCtr c 10 q.ops.toNat

namespace CpxKind
def cld : Nat := 0x00
def cvec : Nat := 0x01
def ctrn : Nat := 0x02
def cdraw : Nat := 0x03
def csamp : Nat := 0x04
def crd : Nat := 0x05
def cwr : Nat := 0x06
def cwait : Nat := 0x07
def cwb : Nat := 0x10
def cmovc : Nat := 0x11
def croute : Nat := 0x12
def csync : Nat := 0x13
def crel : Nat := 0x14
end CpxKind

/-- The operation holds its core until it completes: CRD and CWAIT (R261). -/
def CpxOp.holds (o : CpxOp) : Bool := o.kind == CpxKind.crd || o.kind == CpxKind.cwait

/-- The cluster's queue changes, and CPX_STATUS shows its length. -/
def State.setQueue (s : State) (c : Nat) (q : List CpxOp) : State :=
  let s := s.setCluster c { s.cluster c with queue := q }
  (s.setFld (F.cpxStatusInflight c) q.length).setFld (F.cpxStatusQueued c) q.length

/-- A CRD or CWAIT that waits is killed with its instruction: it leaves the queue and CPXSQ grows (R264, R265). -/
def State.dropHeld (s : State) (k : Nat) : State :=
  match if k < 5 then none else (s.cluster (k - 5)).queue.find? CpxOp.holds with
  | none => s
  | some o =>
    let x := s.core k
    let s := (s.setCore k { x with cpxsq := x.cpxsq + 1 }).traceRec k 5 x.pc.toNat o.tag
    (s.setQueue (k - 5) ((s.cluster (k - 5)).queue.filter (fun o => !o.holds))).clusterCtr (k - 5) 10 1

/-- The CPX stream of cluster c is killed and its queue emptied (19_recovery.md R495): CPXSQ grows by the operations in it, and
CPX_SQUASH.cycles by the bench cycles that they occupied, a free value (R265; log 7). -/
def State.killStream (s : State) (c : Nat) : State :=
  match (s.cluster c).queue with
  | [] => s
  | o :: t =>
    let x := s.core (5 + c)
    let n := t.length + 1
    let s := (s.setCore (5 + c) { x with cpxsq := x.cpxsq + BitVec.ofNat 32 n }).traceRec (5 + c) 5 x.pc.toNat o.tag
    let s := (s.wrapAdd (F.cpxSquashCycles c) (s.freeBits 16).toNat).bumpFree
    (s.setQueue c []).clusterCtr c 10 n

/-- The kill that goes with an exception or interrupt of core k. Where the command does not bring it, how many of the at most
three younger instructions had begun a CPX operation, and for how long, is a free value (R265; log 7). -/
def State.kill (s : State) (k : Nat) (q : Option Squash) : State :=
  let s := s.dropHeld k
  match q with
  | some q => s.squash k q
  | none => if k < 5 then s else (s.squash k ⟨(s.freeBits 2).zeroExtend 4, s.freeBits 16⟩).bumpFree

/-- Core k takes an exception or interrupt and squashes what is younger, or locks up where entry faults. -/
def State.enterVector (s : State) (k vector : Nat) (resume : W32) (prio : Option Nat) (q : Option Squash) : State :=
  let x := s.core k
  match x.enter vector resume prio (s.freeBits 32) with
  | none => (s.kill k q).lockup k
  | some y =>
    let s := if spaceOf (x.vectorAt vector) = .window then s.bumpFree else s
    let s := (s.traceRec k 2 x.pc.toNat vector).kill k q
    s.setCore k { y with cpxsq := (s.core k).cpxsq }

/-- A window routine runs in component mode; where it raises an exception it is abandoned, and its windows are not released
(09_firmware.md R277). -/
def State.abandonRoutine (s : State) (k : Nat) : State :=
  if 5 ≤ k ∧ ¬ (s.core k).bit Sw.priv then
    (List.range 10).foldl (fun s i =>
      let b := 10 * (k - 5) + i
      if (s.bench b).window.isSome ∧ ¬ (s.bench b).released then s.setBench b { s.bench b with abandoned := true } else s) s
  else s

/-- Core k takes a synchronous exception with the given resume PC; FCAUSE and FADDR are written (R248). -/
def State.takeException (s : State) (k : Nat) (f : CoreFault) (resume : W32) (q : Option Squash := none) : State :=
  let s := s.abandonRoutine k
  let x := s.core k
  let x := { x with
    fcause := BitVec.ofNat 32 (f.vector + f.detail * 256)
    faddr := match f.addr with
      | some a => BitVec.ofNat 32 a
      | none => x.faddr }
  (s.setCore k x).enterVector k f.vector resume none q

/-! ### Interrupts (R249) -/

/-- The priority of a line. -/
def Core.prio (x : Core) (line : Nat) : Nat := bitsOf (Tab.get 0 x.ipri (line / 8)).toNat (4 * (line % 8)) 4

/-- A line interrupts now. -/
def Core.qualifies (x : Core) (line : Nat) : Bool :=
  x.ipend.getLsbD line && x.ien.getLsbD line && x.bit Sw.ie && decide (x.plev < x.prio line)

/-- The line that is taken: highest priority, at equal priority the lowest line. -/
def Core.bestLine (x : Core) : Option Nat :=
  (List.range 32).foldl (fun best l =>
    if x.qualifies l then
      match best with
      | none => some l
      | some b => if x.prio b < x.prio l then some l else some b
    else best) none

/-- The core runs: neither held in reset, nor locked up, nor halted. -/
def Core.alive (x : Core) : Bool := !x.held && !x.lockup && !x.halted

/-- The core accepts an interrupt at this boundary: it runs, no non-interruptible repeat is in progress (R254), and the
instruction that a repeat prefix belongs to has been checked, since its ILLEGAL is raised at the prefix (R252; log 11). -/
def Core.boundary (x : Core) : Bool := x.alive && !(x.bit Sw.rp && x.bit Sw.rn) && !x.skip && x.fresh.isNone

/-- At an instruction boundary core k takes the best qualifying interrupt; its line is no longer pending. -/
def State.pollInterrupt (s : State) (k : Nat) (q : Option Squash := none) : State :=
  let x := s.core k
  if x.boundary then
    match x.bestLine with
    | none => s
    | some l =>
      let s := s.setCore k { x with ipend := x.ipend &&& ~~~(1#32 <<< l) }
      s.enterVector k (16 + l) x.pc (some (x.prio l)) q
  else s

/-- Line l of core k asserts, and is taken at the next boundary where it qualifies. -/
def State.raiseLine (s : State) (k line : Nat) (q : Option Squash := none) : State :=
  let x := s.core k
  (s.setCore k { x with ipend := x.ipend ||| (1#32 <<< line) }).pollInterrupt k q

/-- Line l of the control core of cluster k (R250). -/
def State.raiseCluster (s : State) (k line : Nat) : State := s.raiseLine (5 + k) line

/-- Line n of every control core (R250). -/
def State.raiseControl (s : State) (line : Nat) : State :=
  (List.range 16).foldl (fun s c => if (s.core (5 + c)).alive then s.raiseCluster c line else s) s

/-- Line n of core k, where it runs (09_firmware.md R276). -/
def State.raiseFw (s : State) (k line : Nat) : State := if (s.core k).alive then s.raiseLine k line else s

/-- A bench fault with line 0 of the control core (R99, R250). -/
def State.faultBench (s : State) (b code : Nat) (lines : List Nat) : State :=
  (s.benchFault b code lines).raiseCluster (clusterOf b) 0

/-! ### Core reset and watchdog (R230, R258) -/

/-- A core that restarts from an image (R230, R279): the image lies at 0 of a memory that holds nothing else. -/
def Core.restarted (x : Core) (image : List Byte) (wdt : Nat) : Core :=
  { Core.init with
    tcm := Memory.write [] 0 image, digest := x.digest, held := false, wdtLoad := BitVec.ofNat 32 wdt
    wdtLeft := 1000 * wdt }

/-- Core k resets and restarts on its verified image from the image cache (R279). -/
def State.restartCore (s : State) (k : Nat) : State :=
  let s := s.setCore k ((s.core k).restarted (Tab.get [] s.fw.cache k) (Tab.get 0 s.fw.wdt k))
  if 5 ≤ k then s.setFlag (F.cpxStatusLockup (k - 5)) false else s

/-- The watchdog counts (R247, R257). -/
def Core.wdtCounts (x : Core) : Bool := x.alive && x.protect != 2 && x.wdtLoad != 0

/-! ### Issue on a bench (R96, R84) -/

/-- What an instruction of n slots does on bench b. Where the bench does not issue, nothing happens (the cycles of a stall
count as time passes, State.passStall); an instruction that breaks R542 raises BAD_INSTRUCTION; otherwise the sequencer
passes on and the body runs. -/
def State.issue (s : State) (b n : Nat) (good : Bool) (body : State → State) : State :=
  if s.issues b then
    if good then body (s.advance b n) else s.faultBench b 6 []
  else s

/-- An operand read of lines of bench b: the errors are counted; an uncorrectable or a poisoned line gives the fault of
R84, otherwise the body runs. -/
def State.withLines (s : State) (b : Nat) (lines : List Nat) (body : State → State) : State :=
  match (s.bench b).operandFault lines with
  | some code => (s.benchCountRead b lines).faultBench b code lines
  | none => body (s.benchCountRead b lines)

/-- Reading n bytes of bench b's store from byte a as an operand: the errors are counted; an uncorrectable or poisoned
line gives the fault of R84, otherwise the bytes go to the body. -/
def State.withOperand (s : State) (b a n : Nat) (body : List Byte → State → State) : State :=
  let lines := linesOf a n
  match (s.bench b).operandFault (if n = 0 then [] else lines) with
  | some code => (s.benchCountRead b lines).faultBench b code lines
  | none =>
    let s := s.benchCountRead b lines
    body (Memory.read (s.bench b).store a n) s

end Sys2Proof.Machine
end

