-- ==== Sys2Proof/Machine/BenchCtl.lean ====
section
/-! DEFINITION. The CTL class of the sequencer (03_benches.md R95 to R98, R103, R543) and the end of an open window. -/

namespace Sys2Proof.Machine

/-- Issue of one sequencer operation on bench b: its operands are checked by R542 to R546. -/
def State.seq (s : State) (b : Nat) (op : SeqOp) (i : SeqWords) (x1 x2 : Slot) (body : State → State) : State :=
  s.issue b (1 + op.ext) (goodSlot b op i x1 x2) body

/-- The target has not been reached: (target - counter) mod 2^32 lies in 1 to 2^31 (R543). -/
def notReached (target counter : W32) : Bool :=
  let d := (target - counter).toNat
  decide (1 ≤ d ∧ d ≤ 2 ^ 31)

/-- The stall of bench b ends where its counter has reached the target, or a transfer has completed (R87, R96). Counter 16 is
the token counter, and 17 stands for the ninth transfer. -/
def State.resume (s : State) (b : Nat) : State :=
  let x := s.bench b
  match x.stall with
  | none => s
  | some (c, target) =>
    let counter := if c = 16 then x.tokens else Tab.get 0 (s.cluster (clusterOf b)).sync c
    if (c ≠ 17 ∧ notReached target counter) ∨ (c = 17 ∧ 8 ≤ x.flight.length) then s else s.setBench b { x with stall := none }

/-- Every bench of cluster k whose SYNC has been reached goes on. -/
def State.resumeCluster (s : State) (k : Nat) : State :=
  (List.range 10).foldl (fun s i => s.resume (10 * k + i)) s

/-- Adding to synchronization counter c of cluster k (R543, R261). -/
def State.addSync (s : State) (k c : Nat) (n : W32) : State :=
  let x := s.cluster k
  (s.setCluster k { x with sync := Tab.modify 0 x.sync c (· + n) }).resumeCluster k

/-- NOP (R95). -/
def execNop (b : BenchId) (i : SeqWords) (s : State) : Host.Outcome State Fault Refusal :=
  .next (s.seq b .nop i 0 0 id)

/-- END (R98): the cut program ends; the bench waits for the next cut start. -/
def execEndProg (b : BenchId) (i : SeqWords) (s : State) : Host.Outcome State Fault Refusal :=
  .next (s.seq b .endProg i 0 0 (fun s => s.setFlag (F.bncStatusRunning b) false))

/-- LOOP (R97): the next len slots run count times. A loop inside a loop is a bad instruction. -/
def execLoop (b : BenchId) (i : SeqWords) (s : State) : Host.Outcome State Fault Refusal :=
  .next (s.issue b 1 (goodSlot b .loop i 0 0 && (s.bench b).loop.isNone) (fun s =>
    let x := s.bench b
    s.setBench b { x with loop := some (x.slot, x.slot + i.fa 0 8 - 1, i.fb 0 16) }))

/-- WAITM (R543): stalls while (value - token counter) mod 2^32 lies in 1 to 2^31. -/
def execWaitm (b : BenchId) (i : SeqWords) (s : State) : Host.Outcome State Fault Refusal :=
  .next (s.seq b .waitm i 0 0 (fun s =>
    (s.setBench b { s.bench b with stall := some (16, i.a) }).resume b))

/-- SYNC (R543): adds its increment to the counter, then stalls until the counter reaches the target. -/
def execSync (b : BenchId) (i : SeqWords) (s : State) : Host.Outcome State Fault Refusal :=
  .next (s.seq b .sync i 0 0 (fun s =>
    let s := s.addSync (clusterOf b) (i.fc 0 4) (BitVec.ofNat 32 (i.fb 0 16))
    (s.setBench b { s.bench b with stall := some (i.fc 0 4, i.a) }).resume b))

/-- OPEN (R103): an open window of L cycles starts; line 1 of the control core asserts (R250). -/
def execOpenWin (b : BenchId) (i : SeqWords) (s : State) : Host.Outcome State Fault Refusal :=
  .next (s.seq b .openWin i 0 0 (fun s =>
    let s := s.setBench b { s.bench b with window := some i.a.toNat, released := false, abandoned := false }
    (s.setFlag (F.bncStatusOpen b) true).raiseCluster (clusterOf b) 1))

/-- OPEN_WINDOW_END (R103): L cycles after OPEN the window ends. With a release the sequencer resumes; without one the
bench takes the units back and raises WINDOW_OVERRUN. -/
def execOpenWindowEnd (b : BenchId) (s : State) : Host.Outcome State Fault Refusal :=
  let x := s.bench b
  .next (match x.window with
    | none => s
    | some _ =>
      let t := (s.setBench b { x with window := none, released := false }).setFlag (F.bncStatusOpen b) false
      let t := if x.released then t else t.faultBench b 5 []
      t.setBench b { t.bench b with abandoned := false })

end Sys2Proof.Machine
end

