-- ==== Sys2Proof/Machine/BenchMma.lean ====
section
/-! DEFINITION. The MMA, ACC and SCL classes of the sequencer (03_benches.md R67 to R79, R543, R544). -/

namespace Sys2Proof.Machine

/-! ### Windows of a bench (R71) -/

/-- Window n: set n / 1024, window n mod 1024. -/
def Bench.win (x : Bench) (n : Nat) : Window := Tab.get Window.clear x.wins n

/-- Writing windows in order from number n. -/
def Bench.setWins (x : Bench) (n : Nat) : List Window → Bench
  | [] => x
  | w :: ws => ({ x with wins := Tab.set Window.clear x.wins n w }).setWins (n + 1) ws

/-- Windows n to n + k - 1. -/
def Bench.getWins (x : Bench) (n k : Nat) : List Window := (List.range k).map (fun j => x.win (n + j))

/-- First window of an instruction's range. -/
def rangeStart (i : SeqWords) : Nat := 1024 * i.winSet + i.winFirst

/-- Windows with terms added; none where a finite term's top exponent lies above its anchor (R75). -/
def addAll (ws : List Window) (ts : List (List Term)) : Option (List Window) :=
  let rs := List.zipWith (fun w t => w.addTerms t) ws ts
  if rs.any (·.2) then none else some (rs.map (·.1))

/-- Adding term lists to the windows of bench b from window n: ANCHOR where the anchor rule breaks, and then no window
changes (R75). -/
def State.accumulate (s : State) (b n : Nat) (ts : List (List Term)) : State :=
  let x := s.bench b
  match addAll (x.getWins n ts.length) ts with
  | none => s.faultBench b 2 []
  | some ws => s.setBench b (x.setWins n ws)

/-! ### MMT and MMS (R67 to R72) -/

/-- Operand bytes of row r of an element array. -/
def rowBytes (m : Memory) (line stride r k t : Nat) : List Byte :=
  Memory.read m (64 * (line + r * stride)) (ceilDiv (k * typeBits t) 8)

/-- Lines that rows 0 to n - 1 of an element array take. -/
def arrayLines (line stride n k t : Nat) : List Nat :=
  (List.range n).flatMap (fun r => (List.range (rowLines k t)).map (fun j => line + r * stride + j))

/-- The terms of one output: row bytes of A and column bytes of B with their scales (R45, R69, R78). -/
def outputTerms (ta tb k : Nat) (ra rb sa sb : List Byte) : List Term :=
  (List.range k).map (fun e =>
    if ta = 8 then bf16Term (fieldLE ra (2 * e) 2) (fieldLE rb (2 * e) 2)
    else mxTerm (sa.getD (e / 32) 0).toNat ta (packedElem (typeBits ta) ra e) (sb.getD (e / 32) 0).toNat tb
      (packedElem (typeBits tb) rb e))

/-- The terms of every output of one MMA issue, row by row. -/
def mmaTerms (m : Memory) (stream : Bool) (i : SeqWords) : List (List Term) :=
  let ta := i.fc 16 4
  let tb := i.fc 20 4
  let k := issueK stream ta tb
  let blocks := k / 32
  let scales := 64 * i.fc 0 16
  let rows := (List.range (issueM stream)).map (fun r =>
    (rowBytes m (i.fa 0 16) (i.fa 16 16) r k ta, Memory.read m (scales + 64 * blocks + r * blocks) blocks))
  let cols := (List.range 64).map (fun c =>
    (rowBytes m (i.fb 0 16) (i.fb 16 16) c k tb, Memory.read m (scales + c * blocks) blocks))
  rows.flatMap (fun (ra, sa) => cols.map (fun (rb, sb) => outputTerms ta tb k ra rb sa sb))

/-- Lines that one MMA issue reads. -/
def mmaLines (stream : Bool) (i : SeqWords) : List Nat :=
  let ta := i.fc 16 4
  let tb := i.fc 20 4
  let k := issueK stream ta tb
  arrayLines (i.fa 0 16) (i.fa 16 16) (issueM stream) k ta ++ arrayLines (i.fb 0 16) (i.fb 16 16) 64 k tb
    ++ (if ta = 8 then [] else linesOf (64 * i.fc 0 16) (scaleBytes stream ta tb))

/-- Lines that operand A's port reads for one MMA issue: its elements and its scales (R83). -/
def mmaPortA (stream : Bool) (i : SeqWords) : List Nat :=
  let ta := i.fc 16 4
  let k := issueK stream ta (i.fc 20 4)
  arrayLines (i.fa 0 16) (i.fa 16 16) (issueM stream) k ta
    ++ (if ta = 8 then [] else linesOf (64 * i.fc 0 16 + 64 * (k / 32)) (issueM stream * (k / 32)))

/-- Lines that operand B's port reads. -/
def mmaPortB (stream : Bool) (i : SeqWords) : List Nat :=
  let ta := i.fc 16 4
  let tb := i.fc 20 4
  let k := issueK stream ta tb
  arrayLines (i.fb 0 16) (i.fb 16 16) 64 k tb ++ (if ta = 8 then [] else linesOf (64 * i.fc 0 16) (64 * (k / 32)))

/-- Operand A waits a cycle for a bank: the two ports address one bank (line bits [9:0], R82) at different lines (R83). -/
def bankWait (as bs : List Nat) : Bool := as.any (fun l => bs.any (fun k => l != k && l % 1024 == k % 1024))

/-- One MMA issue on bench b; a cycle in which operand A waits for a bank is a stalled one (R83, R96). -/
def State.mma (s : State) (b : Nat) (stream : Bool) (i : SeqWords) : State :=
  let s := if bankWait (mmaPortA stream i) (mmaPortB stream i) then (s.stalled b).benchCtr b 2 1 else s
  s.withLines b (mmaLines stream i) (fun s =>
    let first := 1024 * i.fc 24 2 + (if stream then 64 * i.fc 26 4 else 0)
    ((s.accumulate b first (mmaTerms (s.bench b).store stream i)).benchCtr b 0 1).benchCtr b 1 1)

/-- MMT (R67): adds a 16 x 64 output tile into one window set. -/
def execMmt (b : BenchId) (i : SeqWords) (s : State) : Host.Outcome State Fault Refusal :=
  .next (s.seq b .mmt i 0 0 (fun s => s.mma b false i))

/-- MMS (R67): adds one row against 64 columns into 64 windows. -/
def execMms (b : BenchId) (i : SeqWords) (s : State) : Host.Outcome State Fault Refusal :=
  .next (s.seq b .mms i 0 0 (fun s => s.mma b true i))

/-! ### ACC (R73) -/

/-- ACLR: W to 0, special to 0, A to -32,768 for a range. -/
def execAclr (b : BenchId) (i : SeqWords) (s : State) : Host.Outcome State Fault Refusal :=
  .next (s.seq b .aclr i 0 0 (fun s =>
    s.setBench b ((s.bench b).setWins (rangeStart i) (List.replicate i.winCount Window.clear))))

/-- The anchors that an AANC names (R74, R543): none reads as -32,768. -/
def suppliedAnchors (m : Memory) (i : SeqWords) : List (BitVec 16) :=
  match i.fc 23 2 with
  | 1 => List.replicate i.winCount (BitVec.ofNat 16 (i.fb 0 16))
  | 2 => (List.range i.winCount).map (fun j => BitVec.ofNat 16 (Memory.readLE m (64 * i.fa 0 16 + 2 * j) 2))
  | _ => List.replicate i.winCount 0x8000#16

/-- The larger of two signed anchors. -/
def anchorMax (a b : BitVec 16) : BitVec 16 := if a.toInt < b.toInt then b else a

/-- Prescan entries n to n + k - 1 (R77). -/
def Bench.prescans (x : Bench) (n k : Nat) : List (BitVec 16) :=
  (List.range k).map (fun j => Tab.get 0x8000#16 x.prescan (n + j))

/-- AANC (R74): with split clear the larger of prescan entry and supplied anchor; with split set the supplied anchor,
and ANCHOR where a prescan entry of the range exceeds it, after which the cut program writes no result. -/
def execAanc (b : BenchId) (i : SeqWords) (s : State) : Host.Outcome State Fault Refusal :=
  .next (s.seq b .aanc i 0 0 (fun s =>
    s.withLines b (if i.fc 23 2 = 2 then linesOf (64 * i.fa 0 16) (2 * i.winCount) else []) (fun s =>
      let x := s.bench b
      let n := rangeStart i
      let sup := suppliedAnchors x.store i
      let pre := x.prescans n i.winCount
      let ws := x.getWins n i.winCount
      if i.split then
        if (List.zipWith (fun (p a : BitVec 16) => decide (a.toInt < p.toInt)) pre sup).any id then
          (s.setBench b { x with mute := true }).faultBench b 2 []
        else s.setBench b (x.setWins n (List.zipWith (fun w a => { w with anchor := a }) ws sup))
      else s.setBench b (x.setWins n (List.zipWith (fun w a => { w with anchor := a }) ws (List.zipWith anchorMax pre sup))))))

/-- AWB (R53): windows rounded once to FP32, or to BF16 with bf, and written from the destination line. -/
def execAwb (b : BenchId) (i : SeqWords) (s : State) : Host.Outcome State Fault Refusal :=
  .next (s.seq b .awb i 0 0 (fun s =>
    let x := s.bench b
    let ws := x.getWins (rangeStart i) i.winCount
    let bytes := ws.flatMap (fun w => if i.bf then leBytes 2 (w.result Fp.bf16) else leBytes 4 (w.result Fp.fp32))
    s.setBench b (x.writeBytes (64 * i.fa 0 16) bytes)))

/-- AEXP (R73): windows written as 16-byte partial records. -/
def execAexp (b : BenchId) (i : SeqWords) (s : State) : Host.Outcome State Fault Refusal :=
  .next (s.seq b .aexp i 0 0 (fun s =>
    let x := s.bench b
    let ws := x.getWins (rangeStart i) i.winCount
    s.setBench b (x.writeBytes (64 * i.fa 0 16) (ws.flatMap Window.record))))

/-- AIMP (R51): partial records added into windows exactly, special states merged. -/
def execAimp (b : BenchId) (i : SeqWords) (s : State) : Host.Outcome State Fault Refusal :=
  .next (s.seq b .aimp i 0 0 (fun s =>
    s.withOperand b (64 * i.fa 0 16) (16 * i.winCount) (fun bs s =>
      let x := s.bench b
      let n := rangeStart i
      let recs := (List.range i.winCount).map (fun j => (bs.drop (16 * j)).take 16)
      s.setBench b (x.setWins n (List.zipWith Window.addRecord (x.getWins n i.winCount) recs)))))

/-- The FP32 values of a byte list. -/
def words32 (bs : List Byte) (n : Nat) : List W32 := (List.range n).map (fun j => BitVec.ofNat 32 (fieldLE bs (4 * j) 4))

/-- ABIAS (R73): one FP32 value per window as a term of kind FP32 single. -/
def execAbias (b : BenchId) (i : SeqWords) (s : State) : Host.Outcome State Fault Refusal :=
  .next (s.seq b .abias i 0 0 (fun s =>
    s.withOperand b (64 * i.fa 0 16) (4 * i.winCount) (fun bs s =>
      s.accumulate b (rangeStart i) ((words32 bs i.winCount).map (fun v => [singleTerm v])))))

/-- ASAMP (R63, R543): one token sampled from the values of line a with the sampling record of line b; the sample goes
to bytes 16 to 19 of the record's line. -/
def execAsamp (b : BenchId) (i : SeqWords) (s : State) : Host.Outcome State Fault Refusal :=
  .next (s.seq b .asamp i 0 0 (fun s =>
    let n := i.fc 0 21
    s.withLines b (linesOf (64 * i.fa 0 16) (4 * n) ++ [i.fb 0 16]) (fun s =>
      let x := s.bench b
      let r := Memory.read x.store (64 * i.fb 0 16) 16
      let v := sample (words32 (Memory.read x.store (64 * i.fa 0 16) (4 * n)) n) (BitVec.ofNat 64 (fieldLE r 0 8))
        (BitVec.ofNat 32 (fieldLE r 8 4)) (BitVec.ofNat 32 (fieldLE r 12 4))
      s.setBench b (x.writeBytes (64 * i.fb 0 16 + 16) (leBytes 4 v.toNat)))))

/-! ### SCL (R77) -/

/-- The largest of the top exponents, as an anchor; -32,768 where no finite term exists. -/
def topMax (ts : List Int) : BitVec 16 := BitVec.ofInt 16 (ts.foldl max (-32768))

/-- Top exponent of a pair of E8M0 scale codes of MX types; none for the NaN code (R45, R48). -/
def scaleTop (ta tb sa sb : Nat) : Option Int :=
  match elemType ta, elemType tb with
  | some A, some B =>
    if sa = 0xFF ∨ sb = 0xFF then none else some ((sa : Int) - 127 + ((sb : Int) - 127) + A.M + B.M)
  | _, _ => none

/-- The top exponents that an SPRE finds for row r and column c over its issues (R544). -/
def spreTops (m : Memory) (i : SeqWords) (x : Slot) (r c : Nat) : List Int :=
  let stream := bitOf i.c.toNat 30
  let ta := i.fc 16 4
  let tb := i.fc 20 4
  let k := issueK stream ta tb
  (List.range (slotBits x 64 16 + 1)).flatMap (fun j =>
    let aLine := slotBits x 0 16 + j * slotBits x 32 16
    if ta = 8 then
      let bLine := slotBits x 16 16 + j * slotBits x 48 16
      let ra := rowBytes m aLine (slotBits x 100 12) r k 8
      let rb := rowBytes m bLine (slotBits x 112 12) c k 8
      (List.range k).filterMap (fun e => (bf16Term (fieldLE ra (2 * e) 2) (fieldLE rb (2 * e) 2)).top)
    else
      let blocks := k / 32
      (List.range blocks).filterMap (fun q =>
        scaleTop ta tb (Memory.byte m (64 * aLine + 64 * blocks + r * blocks + q)).toNat
          (Memory.byte m (64 * aLine + c * blocks + q)).toNat))

/-- The top exponents of an SPRE of FP32 terms. -/
def spreFpTops (m : Memory) (single : Bool) (x : Slot) : List Int :=
  (List.range (512 * (slotBits x 64 16 + 1))).filterMap (fun j =>
    let a := BitVec.ofNat 32 (Memory.readLE m (64 * slotBits x 0 16 + 4 * j) 4)
    if single then (singleTerm a).top
    else (fp32Term a (BitVec.ofNat 32 (Memory.readLE m (64 * slotBits x 16 16 + 4 * j) 4))).top)

/-- First window, number of windows and number of columns of an SPRE. -/
def spreWindows (i : SeqWords) (x : Slot) : Nat × Nat :=
  let stream := bitOf i.c.toNat 30
  let base := 1024 * i.fc 24 2
  match spreKind i with
  | some .product | some .single => (base + slotBits x 100 10, 1)
  | _ => if stream then (base + 64 * i.fc 26 4, 64) else (base, 1024)

/-- Lines that an SPRE reads. -/
def spreLines (i : SeqWords) (x : Slot) : List Nat :=
  let stream := bitOf i.c.toNat 30
  let ta := i.fc 16 4
  let tb := i.fc 20 4
  let n := slotBits x 64 16 + 1
  let add := if slotBits x 96 1 = 1 then linesOf (64 * slotBits x 80 16) (4 * (spreWindows i x).2) else []
  add ++ (match spreKind i with
    | none => []
    | some .mx => (List.range n).flatMap (fun j => linesOf (64 * (slotBits x 0 16 + j * slotBits x 32 16)) (scaleBytes stream ta tb))
    | some .bf16 =>
      let k := issueK stream 8 8
      (List.range n).flatMap (fun j =>
        arrayLines (slotBits x 0 16 + j * slotBits x 32 16) (slotBits x 100 12) (issueM stream) k 8
          ++ arrayLines (slotBits x 16 16 + j * slotBits x 48 16) (slotBits x 112 12) 64 k 8)
    | some .product => linesOf (64 * slotBits x 0 16) (2048 * n) ++ linesOf (64 * slotBits x 16 16) (2048 * n)
    | some .single => linesOf (64 * slotBits x 0 16) (2048 * n))

/-- The prescan results of an SPRE, one for each window it covers. -/
def spreResults (m : Memory) (i : SeqWords) (x : Slot) : List (BitVec 16) :=
  (List.range (spreWindows i x).2).map (fun w =>
    let tops := match spreKind i with
      | some .product => spreFpTops m false x
      | some .single => spreFpTops m true x
      | _ => spreTops m i x (w / 64) (w % 64)
    let add := if slotBits x 96 1 = 1 then
        (singleTerm (BitVec.ofNat 32 (Memory.readLE m (64 * slotBits x 80 16 + 4 * w) 4))).top.toList
      else []
    topMax (tops ++ add))

/-- Writing prescan entries in order from number n; with accumulate the larger of result and entry. -/
def Bench.setPrescan (x : Bench) (n : Nat) (acc : Bool) : List (BitVec 16) → Bench
  | [] => x
  | v :: vs =>
    let v' := if acc then anchorMax (Tab.get 0x8000#16 x.prescan n) v else v
    ({ x with prescan := Tab.set 0x8000#16 x.prescan n v' }).setPrescan (n + 1) acc vs

/-- SPRE (R77, R544). -/
def execSpre (b : BenchId) (i : SeqWords) (x : Slot) (s : State) : Host.Outcome State Fault Refusal :=
  .next (s.seq b .spre i x 0 (fun s =>
    s.withLines b (spreLines i x) (fun s =>
      let y := s.bench b
      s.setBench b (y.setPrescan (spreWindows i x).1 (bitOf i.c.toNat 31) (spreResults y.store i x)))))

/-- SQNT (R56 to R58, R543): blocks of 32 FP32 values to elements and scales. The control bit bf has no effect, since R77 gives
SQNT no BF16 or FP32 output (DESIGN CHOICE, log 27). -/
def execSqnt (b : BenchId) (i : SeqWords) (s : State) : Host.Outcome State Fault Refusal :=
  .next (s.seq b .sqnt i 0 0 (fun s =>
    let n := i.fc 4 12
    let ty := i.fc 0 4
    s.withOperand b (64 * i.fa 0 16) (128 * n) (fun bs s =>
      let blocks := (List.range n).map (fun j => quantBlock ty (words32 (bs.drop (128 * j)) 32))
      let x := s.bench b
      let x := x.writeBytes (64 * i.fb 0 16) (packElems (typeBits ty) (blocks.flatMap (·.2)))
      s.setBench b (x.writeBytes (64 * i.fc 16 16) (blocks.map (fun q => BitVec.ofNat 8 q.1))))))

/-- SXCH (R77): prescan entries of the range written as 16-bit anchors. -/
def execSxch (b : BenchId) (i : SeqWords) (s : State) : Host.Outcome State Fault Refusal :=
  .next (s.seq b .sxch i 0 0 (fun s =>
    let x := s.bench b
    s.setBench b (x.writeBytes (64 * i.fa 0 16) ((x.prescans (rangeStart i) i.winCount).flatMap (fun a => leBytes 2 a.toNat)))))

end Sys2Proof.Machine
end

