-- ==== Sys2Proof/Machine/BenchVec.lean ====
section
/-! DEFINITION. The VEC and TRN classes of the sequencer (03_benches.md R80, R81, R545; arithmetic R54, R55, R59). -/

namespace Sys2Proof.Machine

/-- Vector register n: 512 lanes. -/
def Bench.vr (x : Bench) (n : Nat) : List W32 := Tab.get lanes0 x.vreg n

/-- Writing vector register n. -/
def Bench.setVr (x : Bench) (n : Nat) (v : List W32) : Bench := { x with vreg := Tab.set lanes0 x.vreg n v }

/-- The comparison of a compare code (R545). -/
def compareLane (code : Nat) (x y : W32) : Bool :=
  match code with
  | 0 => Fp.eq x y
  | 1 => !Fp.eq x y
  | 2 => Fp.lt x y
  | 3 => Fp.le x y
  | 4 => Fp.lt y x
  | _ => Fp.le y x

/-- A VEC operation on registers: vd from f of the lanes of vs1, vs2 and vs3. -/
def State.vec3 (s : State) (b op : Nat) (i : SeqWords) (f : W32 → W32 → W32 → W32) : State :=
  s.seq b (.vec op) i 0 0 (fun s =>
    let x := s.bench b
    let v := List.zipWith (fun (p : W32 × W32) z => f p.1 p.2 z) (List.zip (x.vr i.vs1) (x.vr i.vs2)) (x.vr i.vs3)
    (s.setBench b (x.setVr i.vd v)).benchCtr b 6 1)

/-- VEC_ADD (R545). -/
def execVecAdd (b : BenchId) (i : SeqWords) (s : State) : Host.Outcome State Fault Refusal :=
  .next (s.vec3 b 0x00 i (fun x y _ => Fp.add x y))
/-- VEC_SUB (R545). -/
def execVecSub (b : BenchId) (i : SeqWords) (s : State) : Host.Outcome State Fault Refusal :=
  .next (s.vec3 b 0x01 i (fun x y _ => Fp.sub x y))
/-- VEC_MUL (R545). -/
def execVecMul (b : BenchId) (i : SeqWords) (s : State) : Host.Outcome State Fault Refusal :=
  .next (s.vec3 b 0x02 i (fun x y _ => Fp.mul x y))
/-- VEC_FMA (R545): rounded once. -/
def execVecFma (b : BenchId) (i : SeqWords) (s : State) : Host.Outcome State Fault Refusal :=
  .next (s.vec3 b 0x03 i Fp.fma)
/-- VEC_DIV (R545). -/
def execVecDiv (b : BenchId) (i : SeqWords) (s : State) : Host.Outcome State Fault Refusal :=
  .next (s.vec3 b 0x04 i (fun x y _ => Fp.div x y))
/-- VEC_SQRT (R545). -/
def execVecSqrt (b : BenchId) (i : SeqWords) (s : State) : Host.Outcome State Fault Refusal :=
  .next (s.vec3 b 0x05 i (fun x _ _ => Fp.sqrt x))
/-- VEC_MAX (R54, R545). -/
def execVecMax (b : BenchId) (i : SeqWords) (s : State) : Host.Outcome State Fault Refusal :=
  .next (s.vec3 b 0x06 i (fun x y _ => Fp.max x y))
/-- VEC_MIN (R54, R545). -/
def execVecMin (b : BenchId) (i : SeqWords) (s : State) : Host.Outcome State Fault Refusal :=
  .next (s.vec3 b 0x07 i (fun x y _ => Fp.min x y))
/-- VEC_CMP (R545): 1 where the comparison holds, else 0. -/
def execVecCmp (b : BenchId) (i : SeqWords) (s : State) : Host.Outcome State Fault Refusal :=
  .next (s.vec3 b 0x08 i (fun x y _ => if compareLane (i.fc 20 3) x y then 1 else 0))
/-- VEC_SEL (R545): the lane of vs1 where the lane of vs3 has any bit set, else the lane of vs2. -/
def execVecSel (b : BenchId) (i : SeqWords) (s : State) : Host.Outcome State Fault Refusal :=
  .next (s.vec3 b 0x09 i (fun x y z => if z = 0 then y else x))
/-- VEC_MOVE (R545). -/
def execVecMove (b : BenchId) (i : SeqWords) (s : State) : Host.Outcome State Fault Refusal :=
  .next (s.vec3 b 0x0E i (fun x _ _ => x))
/-- BCST (R545): every lane of vd becomes b. -/
def execBcst (b : BenchId) (i : SeqWords) (s : State) : Host.Outcome State Fault Refusal :=
  .next (s.vec3 b 0x0F i (fun _ _ _ => i.b))

/-- LDF (R545): 512 FP32 values from line a. -/
def execLdf (b : BenchId) (i : SeqWords) (s : State) : Host.Outcome State Fault Refusal :=
  .next (s.seq b (.vec 0x0A) i 0 0 (fun s =>
    s.withOperand b (64 * i.fa 0 16) 2048 (fun bs s =>
      (s.setBench b ((s.bench b).setVr i.vd (words32 bs 512))).benchCtr b 6 1)))

/-- STF (R545): 2 KiB from line a receive vs1. -/
def execStf (b : BenchId) (i : SeqWords) (s : State) : Host.Outcome State Fault Refusal :=
  .next (s.seq b (.vec 0x0B) i 0 0 (fun s =>
    let x := s.bench b
    (s.setBench b (x.writeBytes (64 * i.fa 0 16) ((x.vr i.vs1).flatMap (fun v => leBytes 4 v.toNat)))).benchCtr b 6 1))

/-- VEC_LDB (R55, R545): 512 BF16 values converted to FP32. -/
def execVecLdb (b : BenchId) (i : SeqWords) (s : State) : Host.Outcome State Fault Refusal :=
  .next (s.seq b (.vec 0x0C) i 0 0 (fun s =>
    s.withOperand b (64 * i.fa 0 16) 1024 (fun bs s =>
      (s.setBench b ((s.bench b).setVr i.vd ((List.range 512).map (fun j => Fp.ofBf16 (fieldLE bs (2 * j) 2))))).benchCtr b 6 1)))

/-- VEC_STB (R55, R545): vs1 converted to BF16, 1 KiB from line a. -/
def execVecStb (b : BenchId) (i : SeqWords) (s : State) : Host.Outcome State Fault Refusal :=
  .next (s.seq b (.vec 0x0D) i 0 0 (fun s =>
    let x := s.bench b
    (s.setBench b (x.writeBytes (64 * i.fa 0 16) ((x.vr i.vs1).flatMap (fun v => leBytes 2 (Fp.toBf16 v))))).benchCtr b 6 1))

/-- VDRAW (R61, R545): lane arguments b + i mod 2^32, low words to vd, high words to vd + 1; seed, stream and step come
from the record at line a. -/
def execVdraw (b : BenchId) (i : SeqWords) (s : State) : Host.Outcome State Fault Refusal :=
  .next (s.seq b .vdraw i 0 0 (fun s =>
    s.withOperand b (64 * i.fa 0 16) 16 (fun r s =>
      let ds := (List.range 512).map (fun l => draw (BitVec.ofNat 64 (fieldLE r 0 8)) (BitVec.ofNat 32 (fieldLE r 8 4))
        (BitVec.ofNat 32 (fieldLE r 12 4)) (i.b + BitVec.ofNat 32 l))
      let x := (s.bench b).setVr i.vd (ds.map (fun (d : W64) => d.setWidth 32))
      (s.setBench b (x.setVr (i.vd + 1) (ds.map (fun (d : W64) => (d >>> 32).setWidth 32)))).benchCtr b 6 1)))

/-- VRED (R80, R545): 512 terms into one window, products of vs1 and vs2, or with c[23] single values of vs1. -/
def execVred (b : BenchId) (i : SeqWords) (s : State) : Host.Outcome State Fault Refusal :=
  .next (s.seq b .vred i 0 0 (fun s =>
    let x := s.bench b
    let ts := if bitOf i.c.toNat 23 then (x.vr i.vs1).map singleTerm
      else List.zipWith fp32Term (x.vr i.vs1) (x.vr i.vs2)
    (s.accumulate b (1024 * i.fc 24 2 + i.fb 0 10) [ts]).benchCtr b 6 1))

/-- A TRN primitive on bench b: vd from the primitive of each lane of vs1 (R59). -/
def State.trn (s : State) (b n : Nat) (i : SeqWords) : State :=
  s.seq b (.trn n) i 0 0 (fun s =>
    let x := s.bench b
    (s.setBench b (x.setVr i.vd ((x.vr i.vs1).map (Fp.primitive n)))).benchCtr b 6 1)

/-- TRN_EXP2 (R59). -/
def execTrnExp2 (b : BenchId) (i : SeqWords) (s : State) : Host.Outcome State Fault Refusal := .next (s.trn b 0 i)
/-- TRN_EXP (R59). -/
def execTrnExp (b : BenchId) (i : SeqWords) (s : State) : Host.Outcome State Fault Refusal := .next (s.trn b 1 i)
/-- TRN_LOG2 (R59). -/
def execTrnLog2 (b : BenchId) (i : SeqWords) (s : State) : Host.Outcome State Fault Refusal := .next (s.trn b 2 i)
/-- TRN_LOG (R59). -/
def execTrnLog (b : BenchId) (i : SeqWords) (s : State) : Host.Outcome State Fault Refusal := .next (s.trn b 3 i)
/-- TRN_RCP (R59). -/
def execTrnRcp (b : BenchId) (i : SeqWords) (s : State) : Host.Outcome State Fault Refusal := .next (s.trn b 4 i)
/-- TRN_RSQRT (R59). -/
def execTrnRsqrt (b : BenchId) (i : SeqWords) (s : State) : Host.Outcome State Fault Refusal := .next (s.trn b 5 i)
/-- TRN_TANH (R59). -/
def execTrnTanh (b : BenchId) (i : SeqWords) (s : State) : Host.Outcome State Fault Refusal := .next (s.trn b 6 i)
/-- TRN_SINPI (R59). -/
def execTrnSinpi (b : BenchId) (i : SeqWords) (s : State) : Host.Outcome State Fault Refusal := .next (s.trn b 7 i)
/-- TRN_COSPI (R59). -/
def execTrnCospi (b : BenchId) (i : SeqWords) (s : State) : Host.Outcome State Fault Refusal := .next (s.trn b 8 i)

end Sys2Proof.Machine
end

