-- ==== Sys2Proof/Machine/BenchMov.lean ====
section
/-! DEFINITION. The MOV class (03_benches.md R86 to R89, R546) and the completion of a mover transfer. A transfer is in
flight from its issue to its completion; its lines move one by one while time passes, the rest at its completion (log 8). -/

namespace Sys2Proof.Machine

/-- Issue of an MOV on bench b: one that would make a ninth transfer in flight stalls the sequencer until one completes
(R87). -/
def State.mov (s : State) (b op : Nat) (i : SeqWords) (x1 x2 : Slot) : State :=
  if s.issues b ∧ 8 ≤ (s.bench b).flight.length then s.setBench b { s.bench b with stall := some (17, 0) }
  else s.seq b (.mov op) i x1 x2 (fun s =>
    let x := s.bench b
    s.setBench b { x with flight := x.flight ++ [movShape op i x1 x2] })

/-- MNS (R86): bench store to near store or back. -/
def execMns (b : BenchId) (i : SeqWords) (x1 x2 : Slot) (s : State) : Host.Outcome State Fault Refusal :=
  .next (s.mov b 0 i x1 x2)
/-- MHB (R86, R547): bench store to HBM or back. -/
def execMhb (b : BenchId) (i : SeqWords) (x1 x2 : Slot) (s : State) : Host.Outcome State Fault Refusal :=
  .next (s.mov b 1 i x1 x2)
/-- MBB (R86, R546): bench store to another bench's store. -/
def execMbb (b : BenchId) (i : SeqWords) (x1 x2 : Slot) (s : State) : Host.Outcome State Fault Refusal :=
  .next (s.mov b 2 i x1 x2)
/-- MLK (R86, R546): bench store to a Dovetail transmit slot, or a receive slot to the bench store. -/
def execMlk (b : BenchId) (i : SeqWords) (x1 x2 : Slot) (s : State) : Host.Outcome State Fault Refusal :=
  .next (s.mov b 3 i x1 x2)
/-- MAX (R86, R546): anchor exchange. -/
def execMaxAnchors (b : BenchId) (i : SeqWords) (x1 x2 : Slot) (s : State) : Host.Outcome State Fault Refusal :=
  .next (s.mov b 4 i x1 x2)

/-! ### Moving the lines -/

/-- The lines of a transfer, r2 outermost and k innermost: local line and far byte offset (R546). -/
def Transfer.steps (t : Transfer) : List (Nat × Nat) :=
  (List.range t.runs2).flatMap (fun r2 => (List.range t.runs1).flatMap (fun r1 => (List.range t.run).map (fun k =>
    (t.line + r2 * t.loc2 + r1 * t.loc1 + k, r2 * t.far2 + r1 * t.far1 + 64 * k))))

/-- Element-wise signed maximum of the 16-bit anchors of two lines. -/
def maxLine (x y : List Byte) : List Byte :=
  (List.range 32).flatMap (fun j =>
    leBytes 2 (anchorMax (BitVec.ofNat 16 (fieldLE x (2 * j) 2)) (BitVec.ofNat 16 (fieldLE y (2 * j) 2))).toNat)

/-- Zeros arrive at a line of bench b where a transfer brings lines in: what a read gives that nobody serves. -/
def State.zeroIn (s : State) (b : Nat) (toLocal : Bool) (line : Nat) : State :=
  if toLocal then s.setBench b ((s.bench b).putLine line (List.replicate 64 0) false) else s

/-- Scheduled work is about to write a line of a page slot: what the line holds before the cut is kept, so that a reader of
the slot in this cut finds no mixture (05_roles.md R162). -/
def State.keepBefore (s : State) (u line : Nat) : State :=
  let m := s.memUnit u
  if (s.granule u (line / 1024)).pool ∧ ¬ m.before.any (fun p => p.1 == line) then
    s.setMemUnit u { m with before := (line, Memory.read m.bytes (64 * line) 64, m.poison.contains line) :: m.before }
  else s

/-- The memories with every line that scheduled work has written in this cut as it was before the cut. -/
def State.asBefore (s : State) : State :=
  { s with mems := s.mems.map (fun p => (p.1, p.2.before.foldl (fun m (l, bs, bad) => m.putLine l bs bad) p.2)) }

/-- The cut and its transfers are over. -/
def State.endBefore (s : State) : State := { s with mems := s.mems.map (fun p => (p.1, { p.2 with before := [] })) }

/-- One line between bench b and device memory (R89, R211, R215): the flag says a violation. -/
def State.memLine (s : State) (b : Nat) (who : Option Who) (toLocal : Bool) (local_ addr : Nat) : Bool × State :=
  match devAddr addr, who with
  | some (u, off), some w =>
    if s.mayReach w (!toLocal) u (off / 65536) then
      if toLocal then
        let (bytes, poisoned, s) := s.readLine (.bench b) u (off / 64)
        (false, s.setBench b ((s.bench b).putLine local_ bytes poisoned))
      else
        let (bytes, poisoned, s) := s.benchMoverLine b local_
        (false, (s.keepBefore u (off / 64)).writeLine (.bench b) u (off / 64) bytes poisoned)
    else (true, s.zeroIn b toLocal local_)
  | _, _ => (true, s.zeroIn b toLocal local_)

/-- One line between two bench stores; with max the receiver keeps the larger anchors. -/
def State.benchLine (s : State) (src dst srcLine dstLine : Nat) (max : Bool) : State :=
  let (bytes, poisoned, s) := s.benchMoverLine src srcLine
  if max then
    let (old, p2, s) := s.benchMoverLine dst dstLine
    s.setBench dst ((s.bench dst).putLine dstLine (maxLine bytes old) (poisoned || p2))
  else s.setBench dst ((s.bench dst).putLine dstLine bytes poisoned)

/-- The valleys that a transfer of bench b to bench c enters: the fabrics on its route, and c's valley where it is another
one (01_architecture.md R16, R21). -/
def benchPath (b c : Nat) (route : Bool) : List Nat :=
  dieFabrics (b / 40) (c / 40) route ++ (if clusterOf b = clusterOf c then [] else [valleyOf (clusterOf c)])

/-- One line of a bench-to-bench transfer or an anchor exchange over the fabric: behind isolation it reads zero, or takes
nothing, and counts (01_architecture.md R24); the flag says that the peer is absent, a violation. -/
def State.fabricLine (s : State) (b : Nat) (t : Transfer) (st : Nat × Nat) : Bool × State :=
  let peer := bitsOf t.far 16 8
  let far := bitsOf t.far 0 16 + st.2 / 64
  if s.flag (F.bncStatusPresent peer) then
    match s.cutOff (benchPath b peer t.route) with
    | some v => (false, (s.countIsolated v).zeroIn b t.toLocal st.1)
    | none =>
      (false, if t.toLocal then s.benchLine peer b far st.1 false else s.benchLine b peer st.1 far (t.op == 4))
  else (true, s.zeroIn b t.toLocal st.1)

/-- The transmit slot that a Dovetail transfer names (R546). -/
def State.movTxSlot (s : State) (t : Transfer) : Option LinkSlot :=
  (s.txSlots (bitsOf t.far 0 3)).find? (fun e => e.tag == bitsOf t.far 16 16)

/-- A flit's 640 bytes with a slot's part filled in. -/
def fillFlit (old : List Byte) (o : Nat) (part : List Byte) : List Byte :=
  old.take o ++ part ++ old.drop (o + part.length)

/-- The payload of flit f that link j has gathered so far. -/
def Link.payload (l : Link) (f : Nat) : List Byte :=
  match l.sent.find? (fun p => p.1 == f) with
  | some p => p.2
  | none => List.replicate 640 0

/-- Bytes of transmit slot e from its byte k on enter the link's stream (R168): they fill their part of the flits that carry
the slot. -/
def State.fillSlot (s : State) (e : LinkSlot) (k : Nat) (bytes : List Byte) : State :=
  let first := (400 * e.start + k) / 640
  let last := (400 * e.start + k + bytes.length - 1) / 640
  (List.range (last + 1 - first)).foldl (fun s q =>
    let f := first + q
    let (a, o, n) := flitPart e.start e.bytes f
    let lo := max a k
    let hi := min (a + n) (k + bytes.length)
    let l := s.link e.link
    let p := fillFlit (l.payload f) (o + (lo - a)) ((bytes.drop (lo - k)).take (hi - lo))
    s.setLink e.link { l with sent := l.sent.filter (fun x => x.1 != f) ++ [(f, p)] }) s

/-- Every byte of transmit slot e has entered the stream: a flit goes out as a data flit once every slot it carries has filled
its part. -/
def State.sendSlot (s : State) (e : LinkSlot) : State :=
  let first := 400 * e.start / 640
  let last := (400 * e.start + e.bytes - 1) / 640
  let s := s.setLink e.link { s.link e.link with filled := (s.link e.link).filled ++ [e.tag] }
  (List.range (last + 1 - first)).foldl (fun s q =>
    let f := first + q
    if (s.flitSlots e.link f).all (fun x => (s.link e.link).filled.contains x.tag) then s.sendData e.link ((s.link e.link).payload f) else s) s

/-- The valleys between bench b and the Dovetail links. -/
def linkPath (b : Nat) : List Nat := [fabricValley (b / 40), 34]

/-- One line of a transfer to a Dovetail transmit slot, through the bench's fabric and V34; a transfer from a receive slot moves
nothing more, since R172 has written the bytes (log 8). The stored bytes of a poisoned or uncorrectable line leave as they
are, since flits carry no marker (DESIGN CHOICE, log 24). -/
def State.linkLine (s : State) (b : Nat) (t : Transfer) (st : Nat × Nat) : State :=
  if t.toLocal then s
  else match s.movTxSlot t, s.cutOff (linkPath b) with
    | none, _ => s
    | some _, some v => s.countIsolated v
    | some e, none =>
      (s.benchCountRead b [st.1]).fillSlot e st.2 (Memory.read (s.bench b).store (64 * st.1) (min 64 (e.bytes - st.2)))

/-- A transfer to a Dovetail transmit slot has moved its lines: its slot is full. -/
def State.moveLink (s : State) (b : Nat) (t : Transfer) : State :=
  match s.movTxSlot t with
  | none => s
  | some e => if t.toLocal ∨ (s.cutOff (linkPath b)).isSome then s else s.sendSlot e

/-- One line of a transfer: to or from a memory (MNS, MHB), a bench (MBB, MAX) or a link. -/
def State.moveLine (s : State) (b : Nat) (t : Transfer) (st : Nat × Nat) : Bool × State :=
  if t.dovetail then (false, s.linkLine b t st)
  else if t.op ≤ 1 then s.memLine b ((s.benchPart b).map Who.sched) t.toLocal st.1 (t.far + st.2) else s.fabricLine b t st

/-- A line is the first line of a miss page: count 0, flags.miss set, and zero outside layer, head, first_position, stream and
model (05_roles.md R157, R158). -/
def missHeader (l : List Byte) : Bool :=
  fieldLE l 0 2 == 0 && fieldLE l 5 3 == 0x100 && fieldLE l 12 4 == 0 && fieldLE l 32 32 == 0

/-- A line leaves a bench of a Cache partition in place of a page's first line: where it begins a miss page the event counts in
the partition's page-miss count (05_roles.md R163; that the reply is what counts, and that a page begins every 1,024 lines of
a transfer, is DEDUCED, log 25). -/
def State.noteMiss (s : State) (b : Nat) (t : Transfer) (n line : Nat) : State :=
  match s.benchPart b with
  | none => s
  | some p =>
    let x := s.part p
    if n % 1024 = 0 ∧ ¬ t.toLocal ∧ t.op ≤ 3 ∧ ((x.list.map (fun l => bitOf l.roles 2)).getD false)
        ∧ missHeader (Memory.read (s.bench b).store (64 * line) 64) then
      s.setPart p { x with misses := x.misses + 1 }
    else s

/-- Lines of transfer t of bench b move, the first of them its line number n; the flag says whether one met a violation. -/
def State.moveEach (s : State) (b : Nat) (t : Transfer) : Nat → List (Nat × Nat) → Bool × State
  | _, [] => (false, s)
  | n, st :: rest =>
    let (v, s) := (s.noteMiss b t n st.1).moveLine b t st
    let (w, s) := s.moveEach b t (n + 1) rest
    (v || w, s)

/-- The next n lines of transfer t of bench b move, in the order of its shape (R87). After an ANCHOR fault of its cut
program nothing is written (R74). A transfer adds one to its instance with the first violation that it meets (R89, R305). -/
def State.moveSome (s : State) (b : Nat) (t : Transfer) (n : Nat) : Transfer × State :=
  let t' := { t with moved := t.moved + n }
  if (s.bench b).mute then (t', s)
  else
    let (v, s) := (s.benchCtr b 7 (64 * n)).moveEach b t t.moved ((t.steps.drop t.moved).take n)
    ({ t' with violated := t.violated || v }, s.violateIf (v && !t.violated) (s.clusterOwner (clusterOf b)))

/-- What has not moved of transfer t of bench b moves; one to a transmit slot has filled it. -/
def State.moveLines (s : State) (b : Nat) (t : Transfer) : State :=
  let (t, s) := s.moveSome b t (t.lines - t.moved)
  if t.dovetail ∧ ¬ (s.bench b).mute then s.moveLink b t else s

/-- While time passes every transfer in flight of bench b goes on by lines, the oldest first (R87); how many is a free value
(log 8). -/
def State.moveOn (s : State) (b : Nat) : State :=
  (List.range (s.bench b).flight.length).foldl (fun s k =>
    match (s.bench b).flight[k]? with
    | none => s
    | some t =>
      let (t, s) := s.bumpFree.moveSome b t ((s.freeBits 32).toNat % (t.lines - t.moved + 1))
      s.setBench b { s.bench b with flight := (s.bench b).flight.set k t }) s

/-- MOVER_TRANSFER_DONE (R87): the oldest transfer of bench b completes; its lines have moved, the token counter
advances, and a WAITM it satisfies goes on. -/
def execMoverTransferDone (b : BenchId) (s : State) : Host.Outcome State Fault Refusal :=
  .next (match (s.bench b).flight with
    | [] => s
    | t :: rest =>
      let s := s.setBench b { s.bench b with flight := rest }
      let s := s.moveLines b t
      let x := s.bench b
      (s.setBench b { x with tokens := x.tokens + 1 }).resume b)

end Sys2Proof.Machine
end

