-- ==== Sys2Proof/Machine/FitIssue.lean ====
section
/-! DEFINITION. The static checks of a BENCH section (03_benches.md R76, R96 to R98, R100, R542; 04_cutlists.md R118,
R120). -/

namespace Sys2Proof.Machine

/-- Slot n of a section, as a number. -/
def sectSlot (bs : List Byte) (n : Nat) : Nat := fieldLE bs (16 * n) 16

/-- Slots of a section. -/
def sectSlots (bs : List Byte) : Nat := bs.length / 16

/-- The entry count. -/
def sectEntries (bs : List Byte) : Nat := fieldLE bs 0 2

/-- Entry k: first cut, last cut, step, start slot. -/
def sectEntry (bs : List Byte) (k : Nat) : Nat × Nat × Nat × Nat :=
  let v := sectSlot bs (k + 1)
  (bitsOf v 0 32, bitsOf v 32 32, bitsOf v 64 16, bitsOf v 80 12)

/-- The entry table obeys R118. An entry that starts at or past the section's end is refused here, at step 7, and not as a
program of step 8 (DESIGN CHOICE, log 25). Reserved bits of an entry are ignored (00_scope.md R9). -/
def goodEntries (bs : List Byte) : Bool :=
  let e := sectEntries bs
  decide (1 ≤ sectSlots bs) && decide (e ≤ 256) && decide (e < sectSlots bs) && sectSlot bs 0 == e &&
    (List.range e).all (fun k =>
      let (first, last, step, start) := sectEntry bs k
      decide (first ≤ last) && decide (1 ≤ step) && decide (e < start) && decide (start < sectSlots bs))

/-- One instruction of a program: its slot, operation, words and first extension slot. -/
structure Ins where
  slot : Nat
  op : SeqOp
  w : SeqWords
  x : Slot
  deriving DecidableEq, Repr

/-- The instruction at a slot; none where R95 does not define it or its extension slots run past the section. -/
def insAt (bs : List Byte) (n : Nat) : Option Ins :=
  match slotOp (sectSlot bs n) with
  | none => none
  | some op =>
    if n + op.ext < sectSlots bs then
      some ⟨n, op, slotWords (sectSlot bs n), BitVec.ofNat 128 (sectSlot bs (n + 1))⟩
    else none

/-- Slot n breaks R542 by itself: an undefined instruction, extension slots past the section or a bad operand. -/
def slotFault (b : Nat) (bs : List Byte) (n : Nat) : Bool :=
  match insAt bs n with
  | none => true
  | some i => !goodSlot b i.op i.w i.x (BitVec.ofNat 128 (sectSlot bs (n + 2)))

/-- Slots that the instruction at slot n takes; an undefined slot counts as one. -/
def slotWidth (bs : List Byte) (n : Nat) : Nat :=
  match insAt bs n with
  | none => 1
  | some i => 1 + i.op.ext

/-- The slot after the program from slot n: after its END, or the section's end. -/
def programEnd (bs : List Byte) : Nat → Nat → Nat
  | 0, n => n
  | fuel + 1, n =>
    if sectSlots bs ≤ n then sectSlots bs
    else if (insAt bs n).any (fun i => i.op == .endProg) then n + 1
    else programEnd bs fuel (n + slotWidth bs n)

/-- The slots from n below stop at which instructions begin. -/
def insSlots (bs : List Byte) (stop : Nat) : Nat → Nat → List Nat
  | 0, _ => []
  | fuel + 1, n => if stop ≤ n then [] else n :: insSlots bs stop fuel (n + slotWidth bs n)

/-- The body of a LOOP: its instructions in order, none where it breaks R97. -/
def loopBody (bs : List Byte) (last : Nat) : Nat → Nat → Option (List Ins)
  | 0, _ => none
  | fuel + 1, n =>
    if n = last + 1 then some []
    else if last < n then none
    else match insAt bs n with
      | none => none
      | some i =>
        if i.op = .loop ∨ i.op = .endProg then none
        else (loopBody bs last fuel (n + 1 + i.op.ext)).map (fun t => i :: t)

/-- One instruction of a program, with the body that a LOOP repeats. -/
structure ProgStep where
  ins : Ins
  body : List Ins
  deriving DecidableEq, Repr

/-- The instructions of the program from slot n to END, each LOOP with its body; .error names the slot that breaks R97 or
the end without END (R98). -/
def program (bs : List Byte) : Nat → Nat → Except Nat (List ProgStep)
  | 0, n => .error n
  | fuel + 1, n =>
    match (if n < sectSlots bs then insAt bs n else none) with
    | none => .error n
    | some i =>
      if i.op = .endProg then .ok [⟨i, []⟩]
      else if i.op = .loop then
        let last := n + i.w.fa 0 8
        match loopBody bs last 256 (n + 1) with
        | none => .error n
        | some body =>
          match program bs fuel (last + 1) with
          | .error e => .error e
          | .ok rest => .ok (⟨i, body⟩ :: rest)
      else match program bs fuel (n + 1 + i.op.ext) with
        | .error e => .error e
        | .ok rest => .ok (⟨i, []⟩ :: rest)

/-- Cycles for which an instruction occupies its unit (R100). -/
def Ins.occupies (i : Ins) : Nat :=
  let per := fun n size => max 1 (ceilDiv n size)
  match i.op with
  | .awb | .aexp | .aimp | .abias => per i.w.winCount 64
  | .asamp => max 1 (2 * ceilDiv (i.w.fc 0 21) 512)
  | .sqnt => per (i.w.fc 4 12) 16
  | .spre =>
    let ta := i.w.fc 16 4
    let tb := i.w.fc 20 4
    let n := slotBits i.x 64 16 + 1
    let stream := bitOf i.w.c.toNat 30
    if ta = 9 then n
    else
      let pairs := n * issueM stream * 64 * issueK stream ta tb
      if ta = 8 then per pairs 16384 else per (pairs / 32) 4096
  | .vec op => if op = 4 ∨ op = 5 then 8 else 1
  | .trn _ => 4
  | _ => 1

/-- The set and the landing latency of an instruction that writes windows (R76, R100). One with a count of 0 acts on
nothing, so it lands no write (DEDUCED, log 24). -/
def Ins.lands (i : Ins) : Option (Nat × Nat) :=
  match i.op with
  | .mmt | .mms => some (i.w.fc 24 2, if i.w.fc 16 4 = 8 then 14 else 12)
  | .aclr | .aanc => if i.w.winCount = 0 then none else some (i.w.winSet, 1)
  | .aimp => if i.w.winCount = 0 then none else some (i.w.winSet, 6)
  | .abias => if i.w.winCount = 0 then none else some (i.w.winSet, 4)
  | .vred => some (i.w.fc 24 2, 10)
  | _ => none

/-- Where the issue check stands, counted from the cycle of the last issue. -/
structure IssueState where
  /-- Cycles that the next wait counts from later: the length of an OPEN. -/
  hold : Nat
  /-- Classes issued in this cycle. -/
  inCycle : List Nat
  /-- Cycles for which each class's unit is still busy. -/
  busy : Tab Nat
  /-- Landings to come: set, and cycles until then. -/
  landings : List (Nat × Nat)
  deriving DecidableEq, Repr

/-- w cycles later. -/
def IssueState.after (t : IssueState) (w : Nat) : IssueState :=
  if w = 0 then t
  else { t with
    hold := 0
    inCycle := []
    busy := (t.busy.filter (fun p => decide (w < p.2))).map (fun p => (p.1, p.2 - w))
    landings := (t.landings.filter (fun p => decide (w < p.2))).map (fun p => (p.1, p.2 - w)) }

/-- One more instruction issues as written; the slot where it breaks R76 or R96. -/
def IssueState.step (t : IssueState) (i : Ins) : Except Nat IssueState :=
  let t := t.after (i.w.wait.toNat + t.hold)
  let cls := i.op.cls
  let lands := match i.lands with
    | none => []
    | some (set, lat) => (List.range i.occupies).map (fun k => (set, k + lat))
  if 4 ≤ t.inCycle.length ∨ t.inCycle.contains cls ∨ (cls ≠ 0 ∧ 0 < Tab.get 0 t.busy cls) ∨ lands.any t.landings.contains then
    .error i.slot
  else .ok
    { hold := if i.op = .openWin then i.w.a.toNat else 0
      inCycle := t.inCycle ++ [cls]
      busy := if cls = 0 then t.busy else Tab.set 0 t.busy cls i.occupies
      landings := t.landings ++ lands }

/-- Instructions that issue one after another. -/
def issueRun : List Ins → IssueState → Except Nat IssueState
  | [], t => .ok t
  | i :: rest, t =>
    match t.step i with
    | .error n => .error n
    | .ok t => issueRun rest t

/-- A loop body issued n times. Once an iteration ends as it began, so does every later one. -/
def issueLoop (body : List Ins) : Nat → IssueState → Except Nat IssueState
  | 0, t => .ok t
  | n + 1, t =>
    match issueRun body t with
    | .error e => .error e
    | .ok u => if u = t then .ok u else issueLoop body n u

/-- The issue of a whole program, every iteration of its loops included. -/
def issueCheck : List ProgStep → IssueState → Option Nat
  | [], _ => none
  | p :: rest, t =>
    match t.step p.ins with
    | .error n => some n
    | .ok t =>
      match issueLoop p.body (if p.body = [] then 0 else p.ins.w.fb 0 16) t with
      | .error n => some n
      | .ok t => issueCheck rest t

/-- Cut runs with the first cut index of each. -/
def withFirst : Nat → List CutRun → List (Nat × CutRun)
  | _, [] => []
  | n, r :: t => (n, r) :: withFirst (n + r.count) t

/-- A progression first, first + step, … up to last has a member in [lo, hi): the smallest. -/
def progHit (first last step lo hi : Nat) : Option Nat :=
  let st := max step 1
  let m := if lo ≤ first then first else first + ceilDiv (lo - first) st * st
  if m ≤ last ∧ m < hi then some m else none

/-- The span of entry k's program: its start slot and the slot after its END. -/
def entrySpan (bs : List Byte) (k : Nat) : Nat × Nat :=
  let (_, _, _, start) := sectEntry bs k
  (start, programEnd bs (sectSlots bs + 1) start)

/-- Entry k covers a cut. -/
def entryCovers (bs : List Byte) (k c : Nat) : Bool :=
  let (first, last, step, _) := sectEntry bs k
  decide (first ≤ c ∧ c ≤ last ∧ (c - first) % max step 1 = 0)

/-- Entry k is the first that covers a cut, so it gives the program (R119). -/
def entryServes (bs : List Byte) (k c : Nat) : Bool := entryCovers bs k c && !(List.range k).any (fun j => entryCovers bs j c)

/-- Entry k gives the program of one of n cuts from lo on. -/
def entryRuns (bs : List Byte) (k lo n : Nat) : Bool :=
  let (first, last, step, _) := sectEntry bs k
  (progHit first last step lo (lo + n)).isSome && (List.range n).any (fun x => entryServes bs k (lo + x))

/-- The first fault of entry k's program: a slot by itself, loops and END (R97, R98), issue and landings (R76, R96), an
OPEN in a cut whose run has the open flag clear (R120), among those that the entry serves (R119). -/
def entryFault (b : Nat) (bs : List Byte) (runs : List CutRun) (k : Nat) : Option Nat :=
  let (_, _, _, start) := sectEntry bs k
  match (insSlots bs (entrySpan bs k).2 (sectSlots bs + 1) start).find? (slotFault b bs) with
  | some n => some n
  | none =>
    match program bs (sectSlots bs + 1) start with
    | .error n => some (min n (sectSlots bs - 1))
    | .ok is =>
      match issueCheck is ⟨0, [], [], []⟩ with
      | some n => some n
      | none =>
        if (withFirst 0 runs).any (fun (n, r) => !r.openOk && entryRuns bs k n r.count) then
          ((is.flatMap (fun p => p.ins :: p.body)).find? (fun i => i.op == .openWin)).map (fun i => i.slot)
        else none

/-- The slots from n that no entry's program holds and at which instructions begin, read one after another. -/
def strayFrom (bs : List Byte) (held : Nat → Bool) : Nat → Nat → List Nat
  | 0, _ => []
  | fuel + 1, n =>
    if sectSlots bs ≤ n then []
    else if held n then strayFrom bs held fuel (n + 1)
    else n :: strayFrom bs held fuel (n + slotWidth bs n)

/-- A stray slot breaks R542 by itself, or is a LOOP whose body breaks R97. -/
def strayFault (b : Nat) (bs : List Byte) (n : Nat) : Bool :=
  slotFault b bs n ||
    match insAt bs n with
    | none => true
    | some i => i.op == .loop && (loopBody bs (n + i.w.fa 0 8) 256 (n + 1)).isNone

/-- What step 8 finds in a section: the faulty slot. Programs are checked in the order of their entries, then the slots
that no program holds (R118, R542). -/
def badProgramSlot (b : Nat) (bs : List Byte) (runs : List CutRun) : Option Nat :=
  let es := List.range (sectEntries bs)
  match es.findSome? (entryFault b bs runs) with
  | some n => some n
  | none =>
    let spans := es.map (entrySpan bs)
    (strayFrom bs (fun n => spans.any (fun p => decide (p.1 ≤ n ∧ n < p.2))) (sectSlots bs + 1) (sectEntries bs + 1)).find?
      (strayFault b bs)

/-- The cut that R541 names for a faulty slot: the first cut of the first entry whose program holds it. -/
def slotCut (bs : List Byte) (n : Nat) : Nat :=
  ((List.range (sectEntries bs)).findSome? (fun k =>
    let (lo, hi) := entrySpan bs k
    if lo ≤ n ∧ n < hi then some (sectEntry bs k).1 else none)).getD 0xFFFFFFFF

/-- The instructions of a section after its entries, in slot order. -/
def sectIns (bs : List Byte) : List Ins :=
  (insSlots bs (sectSlots bs) (sectSlots bs + 1) (sectEntries bs + 1)).filterMap (insAt bs)

/-- The peer benches that MBB and MAX name (R546); a number above 159 is an instruction fault (R542). -/
def peerBenches (bs : List Byte) : List Nat :=
  ((sectIns bs).filterMap (fun i =>
    match i.op with
    | .mov 2 => some (slotBits i.x 16 8)
    | .mov 4 => if bitOf i.w.c.toNat 2 then none else some (slotBits i.x 16 8)
    | _ => none)).filter (· < 160)

end Sys2Proof.Machine
end

