-- ==== Sys2Proof/Machine/Frames.lean ====
section
/-! DEFINITION. Ethernet frames (15_ethernet.md R415, R416): parsing, checksums, and the answers of the slow path. A frame
is its bytes from the destination address to the last byte before the FCS. -/

namespace Sys2Proof.Machine

/-! ### Checksums -/

/-- Sum of big-endian 16-bit words. -/
def wordSum : List Byte → Nat
  | [] => 0
  | [a] => a.toNat * 256
  | a :: b :: t => a.toNat * 256 + b.toNat + wordSum t

/-- A sum folded to 16 bits with end-around carry. -/
def fold16 (n : Nat) : Nat :=
  let n := n % 65536 + n / 65536
  let n := n % 65536 + n / 65536
  n % 65536 + n / 65536

/-- The Internet checksum of bytes. -/
def inetSum (bs : List Byte) : Nat := 65535 - fold16 (wordSum bs)

/-- Bytes that carry their own checksum are good. -/
def inetGood (bs : List Byte) : Bool := fold16 (wordSum bs) == 65535

/-- Bytes replaced from offset o. -/
def setBytes (f : List Byte) (o : Nat) (bs : List Byte) : List Byte := f.take o ++ bs ++ f.drop (o + bs.length)

/-- Bytes from o up to e. -/
def span (f : List Byte) (o e : Nat) : List Byte := (f.drop o).take (e - o)

/-! ### Parsing (R415) -/

/-- What the parser found. -/
structure Parsed where
  /-- The cases of R416. -/
  slow : Bool
  etherType : Nat
  /-- Offset of the EtherType, and the tags: TCI of the innermost and the outer one. -/
  typeAt : Nat
  vlan : Option Nat
  outer : Option Nat
  /-- 4, 6, or 0 without an IP header. -/
  ipVer : Nat
  proto : Nat
  src : List Byte
  dst : List Byte
  dscp : Nat
  ttl : Nat
  ipAt : Nat
  l4At : Nat
  /-- Bytes of the UDP or TCP part, as the IP header states. -/
  l4Len : Nat
  ports : Option (Nat × Nat)
  l3ok : Bool
  /-- None where UDP over IPv4 carries no checksum. -/
  l4ok : Option Bool
  deriving DecidableEq, Repr

/-- Next-header codes of IPv6 extension headers (PRESUMED, log 15). -/
def extHeaders : List Nat := [0, 43, 44, 50, 51, 60, 135, 139, 140]

/-- The pseudo-header of an L4 checksum. -/
def pseudo (ver : Nat) (src dst : List Byte) (proto len : Nat) : List Byte :=
  if ver = 4 then src.take 4 ++ dst.take 4 ++ beBytes 2 proto ++ beBytes 2 len
  else src ++ dst ++ beBytes 4 len ++ beBytes 4 proto

/-- A frame without an IP header. -/
def bareFrame (slow : Bool) (etherType typeAt : Nat) (vlan outer : Option Nat) : Parsed :=
  { slow := slow, etherType := etherType, typeAt := typeAt, vlan := vlan, outer := outer, ipVer := 0, proto := 0, src := []
    dst := [], dscp := 0, ttl := 0, ipAt := 0, l4At := 0, l4Len := 0, ports := none, l3ok := false, l4ok := some false }

/-- The L4 part of an IP frame. -/
def parseL4 (f : List Byte) (p : Parsed) : Parsed :=
  let udp := p.proto == 17 && decide (p.l4At + 8 ≤ f.length)
  let tcp := p.proto == 6 && decide (p.l4At + 20 ≤ f.length)
  if ¬ udp ∧ ¬ tcp then p
  else
    let len := if udp then fieldBE f (p.l4At + 4) 2 else p.l4Len
    let body := span f p.l4At (p.l4At + len)
    let good := decide (len ≤ p.l4Len ∧ p.l4At + len ≤ f.length) && inetGood (pseudo p.ipVer p.src p.dst p.proto len ++ body)
    let tcpEnd := p.l4At + 4 * (fieldBE f (p.l4At + 12) 1 / 16)
    { p with
      slow := p.slow || (tcp && decide (256 < tcpEnd))
      ports := some (fieldBE f p.l4At 2, fieldBE f (p.l4At + 2) 2)
      l4ok := if udp ∧ p.ipVer = 4 ∧ fieldBE f (p.l4At + 6) 2 = 0 then none else some good }

/-- The headers of a frame (R415) and whether it takes the slow path (R416). -/
def parseFrame (f : List Byte) : Parsed :=
  let t1 := fieldBE f 12 2
  let tag1 := t1 == 0x8100 || t1 == 0x88A8
  let tag2 := tag1 && fieldBE f 16 2 == 0x8100
  let at_ := if tag2 then 20 else if tag1 then 16 else 12
  let ty := fieldBE f at_ 2
  let outer := if tag1 then some (fieldBE f 14 2) else none
  let vlan := if tag2 then some (fieldBE f 18 2) else outer
  let base := bareFrame (!(ty == 0x0800 || ty == 0x86DD || ty == 0x88F7)) ty at_ vlan outer
  let ip := at_ + 2
  if ty = 0x0800 ∧ ip + 20 ≤ f.length then
    let frag := fieldBE f (ip + 6) 2
    let p := { base with
      ipVer := 4, ipAt := ip, l4At := ip + 20, l4Len := fieldBE f (ip + 2) 2 - 20, proto := fieldBE f (ip + 9) 1
      src := span f (ip + 12) (ip + 16) ++ List.replicate 12 0, dst := span f (ip + 16) (ip + 20) ++ List.replicate 12 0
      dscp := fieldBE f (ip + 1) 1 / 4, ttl := fieldBE f (ip + 8) 1, l3ok := inetGood (span f ip (ip + 20))
      slow := fieldBE f ip 1 % 16 != 5 || decide (0 < frag % 16384) }
    if p.slow then p else parseL4 f p
  else if ty = 0x86DD ∧ ip + 40 ≤ f.length then
    let p := { base with
      ipVer := 6, ipAt := ip, l4At := ip + 40, l4Len := fieldBE f (ip + 4) 2, proto := fieldBE f (ip + 6) 1
      src := span f (ip + 8) (ip + 24), dst := span f (ip + 24) (ip + 40)
      dscp := fieldBE f ip 2 / 64 % 64, ttl := fieldBE f (ip + 7) 1, l3ok := true
      slow := extHeaders.contains (fieldBE f (ip + 6) 1) }
    if p.slow then p else parseL4 f p
  else base

/-- The header after the IPv6 extension headers that start at offset at_ with this code, and where it starts; none at a fragment
or an encrypted part. -/
def walk6 (f : List Byte) : Nat → Nat → Nat → Option (Nat × Nat)
  | 0, _, _ => none
  | fuel + 1, code, at_ =>
    let size := fieldBE f (at_ + 1) 1
    if code = 44 ∨ code = 50 ∨ f.length < at_ then none
    else if code = 51 then walk6 f fuel (fieldBE f at_ 1) (at_ + 4 * (size + 2))
    else if extHeaders.contains code then walk6 f fuel (fieldBE f at_ 1) (at_ + 8 * (size + 1))
    else some (code, at_)

/-- Bytes of the IPv4 header at an offset. -/
def ip4Len (f : List Byte) (ip : Nat) : Nat := 4 * (fieldBE f ip 1 % 16)

/-- The IPv4 packet at an offset is a fragment. -/
def ip4Frag (f : List Byte) (ip : Nat) : Bool := decide (0 < fieldBE f (ip + 6) 2 % 16384)

/-- A frame's headers through IPv4 options and IPv6 extension headers, which R415 leaves to the slow path and R430 does not. -/
def parseWhole (f : List Byte) : Parsed :=
  let p := parseFrame f
  let hl := ip4Len f p.ipAt
  if p.ipVer = 4 then
    if hl < 20 ∨ ip4Frag f p.ipAt then p
    else parseL4 f { p with l4At := p.ipAt + hl, l4Len := fieldBE f (p.ipAt + 2) 2 - hl }
  else if p.ipVer = 6 then
    match walk6 f 64 (fieldBE f (p.ipAt + 6) 1) (p.ipAt + 40) with
    | some (code, at_) => parseL4 f { p with proto := code, l4At := at_, l4Len := fieldBE f (p.ipAt + 4) 2 - (at_ - (p.ipAt + 40)) }
    | none => p
  else p

/-! ### Filling checksums and sealing (R430) -/

/-- The IPv4 header checksum and the UDP or TCP checksum filled. -/
def fillSums (f : List Byte) : List Byte :=
  let p := parseWhole f
  let f := if p.ipVer = 4 then
      let f := setBytes f (p.ipAt + 10) [0, 0]
      setBytes f (p.ipAt + 10) (beBytes 2 (inetSum (span f p.ipAt (p.ipAt + max 20 (ip4Len f p.ipAt)))))
    else f
  match p.ports with
  | none => f
  | some _ =>
    let at_ := p.l4At + (if p.proto = 17 then 6 else 16)
    let len := if p.proto = 17 then fieldBE f (p.l4At + 4) 2 else p.l4Len
    let f := setBytes f at_ [0, 0]
    let v := inetSum (pseudo p.ipVer p.src p.dst p.proto len ++ span f p.l4At (p.l4At + len))
    setBytes f at_ (beBytes 2 (if v = 0 ∧ p.proto = 17 then 65535 else v))

/-- The IP and UDP lengths of a UDP frame raised by n. -/
def raiseLengths (f : List Byte) (n : Nat) : List Byte :=
  let p := parseWhole f
  let ipLen := p.ipAt + (if p.ipVer = 4 then 2 else 4)
  let f := setBytes f ipLen (beBytes 2 (fieldBE f ipLen 2 + n))
  setBytes f (p.l4At + 4) (beBytes 2 (fieldBE f (p.l4At + 4) 2 + n))

/-- A 0x8100 tag after the source address. -/
def addVlan (f : List Byte) (tci : Nat) : List Byte := f.take 12 ++ beBytes 2 0x8100 ++ beBytes 2 tci ++ f.drop 12

/-- Zeros up to 60 bytes. -/
def pad60 (f : List Byte) : List Byte := f ++ List.replicate (60 - f.length) 0

/-! ### Answers of the slow path (R416); their formats are those of the Internet standards (PRESUMED, log 15) -/

/-- The Ethernet header of an answer: the sender's address, the port's, and the tags and EtherType of the frame. -/
def answerHead (f : List Byte) (p : Parsed) (mac : List Byte) : List Byte := span f 6 12 ++ mac ++ span f 12 (p.typeAt + 2)

/-- The ARP reply to a request for the port's address. -/
def arpReply (f : List Byte) (p : Parsed) (mac ip4 : List Byte) : Option (List Byte) :=
  let a := p.typeAt + 2
  if p.etherType = 0x0806 ∧ a + 28 ≤ f.length ∧ fieldBE f a 4 = 0x00010800 ∧ fieldBE f (a + 4) 4 = 0x06040001
      ∧ span f (a + 24) (a + 28) = ip4 then
    some (pad60 (answerHead f p mac ++ beBytes 4 0x00010800 ++ beBytes 4 0x06040002 ++ mac ++ ip4 ++ span f (a + 8) (a + 18)))
  else none

/-- The sender's hardware and IPv4 address of an ARP reply. -/
def arpAnswer (f : List Byte) (p : Parsed) : Option (List Byte × List Byte) :=
  let a := p.typeAt + 2
  if p.etherType = 0x0806 ∧ a + 28 ≤ f.length ∧ fieldBE f (a + 4) 4 = 0x06040002 then
    some (span f (a + 8) (a + 14), span f (a + 14) (a + 18))
  else none

/-- An ICMP echo reply over IPv4, behind options too; the reply has none, and a fragment is not answered. -/
def echo4 (f : List Byte) (p : Parsed) (mac ip4 : List Byte) : Option (List Byte) :=
  let at_ := p.ipAt + ip4Len f p.ipAt
  if p.ipVer = 4 ∧ p.proto = 1 ∧ p.dst.take 4 = ip4 ∧ ip4Frag f p.ipAt = false ∧ fieldBE f at_ 1 = 8 then
    let e := p.ipAt + fieldBE f (p.ipAt + 2) 2
    let body := setBytes (span f at_ e) 0 [0, 0, 0, 0]
    let body := setBytes body 2 (beBytes 2 (inetSum body))
    let head := setBytes (span f p.ipAt (p.ipAt + 20)) 0 [0x45]
    let head := setBytes (setBytes (setBytes head 2 (beBytes 2 (20 + body.length))) 10 [0, 0]) 12 (ip4 ++ p.src.take 4)
    let head := setBytes head 10 (beBytes 2 (inetSum head))
    some (pad60 (answerHead f p mac ++ head ++ body))
  else none

/-- An ICMPv6 message in a frame of its own. -/
def icmp6 (dstMac mac src dst body : List Byte) : List Byte :=
  let sum := inetSum (pseudo 6 src dst 58 body.length ++ setBytes body 2 [0, 0])
  pad60 (dstMac ++ mac ++ beBytes 2 0x86DD ++ beBytes 4 0x60000000 ++ beBytes 2 body.length ++ [58, 255] ++ src ++ dst
    ++ setBytes body 2 (beBytes 2 sum))

/-- The ICMPv6 message of a frame, behind extension headers too. -/
def icmp6Of (f : List Byte) (p : Parsed) : Option (List Byte) :=
  if p.ipVer = 6 then
    match walk6 f 64 (fieldBE f (p.ipAt + 6) 1) (p.ipAt + 40) with
    | some (58, at_) => some (span f at_ (p.ipAt + 40 + fieldBE f (p.ipAt + 4) 2))
    | _ => none
  else none

/-- An ICMPv6 echo reply, or the advertisement that answers a neighbour solicitation for the port's address. -/
def answer6 (f : List Byte) (p : Parsed) (mac ip6 : List Byte) : Option (List Byte) :=
  match icmp6Of f p with
  | none => none
  | some body =>
  if fieldBE body 0 1 = 128 ∧ p.dst = ip6 then some (icmp6 (span f 6 12) mac ip6 p.src (setBytes body 0 [129, 0]))
  else if fieldBE body 0 1 = 135 ∧ span body 8 24 = ip6 then
    some (icmp6 (span f 6 12) mac ip6 p.src (beBytes 4 0x88000000 ++ beBytes 4 0x60000000 ++ ip6 ++ [2, 1] ++ mac))
  else none

/-- The hardware and IPv6 address that a neighbour advertisement names. -/
def ndAnswer (f : List Byte) (p : Parsed) : Option (List Byte × List Byte) :=
  (icmp6Of f p).bind (fun body => if fieldBE body 0 1 = 136 then some (span body 26 32, span body 8 24) else none)

/-- The ARP request or neighbour solicitation for a peer's address. -/
def resolveRequest (ipv6 : Bool) (mac ip4 ip6 peer : List Byte) : List Byte :=
  if ipv6 then
    let dst := beBytes 8 0xFF02000000000000 ++ beBytes 5 0x01FF ++ span peer 13 16
    icmp6 (beBytes 2 0x3333 ++ dst.drop 12) mac ip6 dst (beBytes 4 0x87000000 ++ beBytes 4 0 ++ peer ++ [1, 1] ++ mac)
  else
    pad60 (List.replicate 6 0xFF#8 ++ mac ++ beBytes 2 0x0806 ++ beBytes 4 0x00010800 ++ beBytes 4 0x06040001 ++ mac ++ ip4
      ++ List.replicate 6 0 ++ peer.take 4)

end Sys2Proof.Machine
end

