-- ==== Sys2Proof/Machine/Ptp.lean ====
section
/-! DEFINITION. IEEE 1588 messages (17_time.md R462): where a frame carries one, and the ones that the time unit sends. Message layouts
are those of IEEE 1588-2019 (PRESUMED, log 29). -/

namespace Sys2Proof.Machine

/-- Message types. -/
def ptpSyncType : Nat := 0
def ptpDelayReq : Nat := 1
def ptpPdelayReq : Nat := 2
def ptpPdelayResp : Nat := 3
def ptpFollowUp : Nat := 8
def ptpDelayResp : Nat := 9
def ptpPdelayFollowUp : Nat := 10
def ptpAnnounceType : Nat := 11

/-- The message that a frame carries: EtherType 0x88F7, or UDP to port 319 or 320 (R462). -/
def ptpOf (f : List Byte) : Option (List Byte) :=
  let h := parseWhole f
  let udp := h.proto == 17 && h.ports.any (fun x => x.2 == 319 || x.2 == 320)
  let m := f.drop (if h.etherType = 0x88F7 then h.typeAt + 2 else h.l4At + 8)
  if (h.etherType == 0x88F7 || udp) && decide (34 ≤ m.length) && fieldBE m 1 1 % 16 == 2 then some (m.take (fieldBE m 2 2)) else none

/-- How a frame carries a message: 0 EtherType 0x88F7, 4 or 6 UDP over IPv4 or IPv6. -/
def ptpVia (f : List Byte) : Nat := let h := parseWhole f; if h.etherType = 0x88F7 then 0 else h.ipVer

/-- A message's correction field. -/
def ptpCorrection (m : List Byte) : List Byte := span m 8 16

/-- A message's type, domain and the identity of its sender with the sequence number. -/
def ptpType (m : List Byte) : Nat := fieldBE m 0 1 % 16
def ptpDomain (m : List Byte) : Nat := fieldBE m 4 1
def ptpSender (m : List Byte) : List Byte := span m 20 30
def ptpSeq (m : List Byte) : Nat := fieldBE m 30 2

/-- The data set of an Announce: priority 1, clock quality, priority 2 and identity of the grandmaster, steps removed, and the
time source; of the first 16 bytes the lower ones are the better (default BMCA). -/
def announceSet (m : List Byte) : List Byte := span m 47 64
def setRank (d : List Byte) : Nat := beNat (d.take 16)

/-- The UTC offset of an Announce. -/
def announceUtc (m : List Byte) : Nat := fieldBE m 44 2

/-- A device's clock identity: its EUI-64. -/
def clockIdentity (mac : List Byte) : List Byte := mac.take 3 ++ [0xFF, 0xFE] ++ mac.drop 3

/-- The data set of the device itself: clockClass 248 and clockAccuracy 0xFE (R462), priorities 128. -/
def ownSet (id : List Byte) : List Byte := [0x80, 0xF8, 0xFE, 0xFF, 0xFF, 0x80] ++ id ++ [0, 0, 0xA0]

/-- A data set one step further. -/
def stepSet (d : List Byte) : List Byte := d.take 14 ++ beBytes 2 (fieldBE d 14 2 + 1) ++ d.drop 16

/-- A timestamp: seconds and nanoseconds. -/
def ptpStamp (t : Nat) : List Byte := beBytes 6 (t / 1000000000) ++ beBytes 4 (t % 1000000000)

/-- The common header with its correction field, and the body of a message. -/
def ptpMessage (kind domain flags : Nat) (corr id : List Byte) (seq : Nat) (body : List Byte) : List Byte :=
  let control := if kind = ptpSyncType then 0 else if kind = ptpDelayReq then 1 else if kind = ptpFollowUp then 2
    else if kind = ptpDelayResp then 3 else 5
  let interval := if kind = ptpSyncType ∨ kind = ptpFollowUp ∨ kind = ptpAnnounceType then 0 else 0x7F
  beBytes 1 kind ++ [0x12] ++ beBytes 2 (34 + body.length) ++ beBytes 1 domain ++ [0] ++ beBytes 2 flags
    ++ corr ++ List.replicate 4 0 ++ id ++ beBytes 2 seq ++ beBytes 1 control ++ beBytes 1 interval ++ body

/-- The frame of a message over a transport, to the group address, that of peer delay for its messages: EtherType 0x88F7, or UDP to
port 319 for event messages and 320 for the others. -/
def ptpFrame (via : Nat) (mac ip4 ip6 : List Byte) (m : List Byte) : List Byte :=
  let peer := [ptpPdelayReq, ptpPdelayResp, ptpPdelayFollowUp].contains (ptpType m)
  let port := if ptpType m < 4 then 319 else 320
  let udp := beBytes 2 port ++ beBytes 2 port ++ beBytes 2 (8 + m.length) ++ [0, 0] ++ m
  let ttl : Byte := if peer then 1 else 64
  if via = 4 then
    pad60 (fillSums ([0x01, 0x00, 0x5E, 0x00] ++ (if peer then [0x00, 0x6B] else [0x01, 0x81]) ++ mac ++ [0x08, 0x00]
      ++ [0x45, 0] ++ beBytes 2 (20 + udp.length) ++ [0, 0, 0x40, 0, ttl, 17, 0, 0] ++ ip4
      ++ (if peer then [224, 0, 0, 107] else [224, 0, 1, 129]) ++ udp))
  else if via = 6 then
    pad60 (fillSums ([0x33, 0x33, 0x00, 0x00] ++ (if peer then [0x00, 0x6B] else [0x01, 0x81]) ++ mac ++ [0x86, 0xDD]
      ++ [0x60, 0, 0, 0] ++ beBytes 2 udp.length ++ [17, ttl] ++ ip6
      ++ (if peer then [0xFF, 0x02] else [0xFF, 0x0E]) ++ List.replicate 12 0 ++ (if peer then [0x00, 0x6B] else [0x01, 0x81]) ++ udp))
  else pad60 ((if peer then [0x01, 0x80, 0xC2, 0, 0, 0x0E] else [0x01, 0x1B, 0x19, 0, 0, 0]) ++ mac ++ [0x88, 0xF7] ++ m)

end Sys2Proof.Machine
end

