-- ==== Sys2Proof/Machine/OpsClock.lean ====
section
/-! DEFINITION. Device time's states, error estimate and references (17_time.md R459 to R464). -/

namespace Sys2Proof.Machine

/-! ### The states and the error estimate (R459) -/

namespace TimeState
def freerun : Nat := 0
def locked : Nat := 1
def holdover : Nat := 2
end TimeState

/-- ns in a second. -/
def secondNs : Nat := 1000000000

/-- The formula of HOLDOVER: e0 + t + t²/100,000 ns, t whole seconds since entry, the fraction rounded up. -/
def holdoverError (e0 t : Nat) : Nat := e0 + t + ceilDiv (t * t) 100000

/-- The error estimate now: of the slew's rest, of the last measurements, or of the holdover. A mean is rounded up. -/
def State.errorNow (s : State) : Nat :=
  let x := s.tim
  let e :=
    if s.fld F.timStatusState = TimeState.locked then
      (if s.flag F.timStatusSlewing then x.slew.natAbs else ceilDiv (x.offsets.foldl (· + ·) 0) (max 1 x.offsets.length)) + 8
    else holdoverError x.e0 ((s.now - x.since) / secondNs)
  if s.fld F.timStatusState ≠ TimeState.locked ∧ ¬ x.held then 0xFFFFFFFF else min e 0xFFFFFFFE

/-- TIM_ERROR shows the estimate. -/
def State.showError (s : State) : State := s.setFld F.timErrorNs s.errorNow

/-! ### References (R460, R461) -/

/-- The code of a source in TIM_STATUS.ref. -/
def refCode : RefSource → Nat
  | .ptpE0 => 1
  | .ptpE1 => 2
  | .ppsIn => 3

/-- The PTP source of a port. -/
def ptpCode (p : Nat) : Nat := p + 1

/-- The data set of the last Announce on port p (R462). -/
def State.announced (s : State) (p : Nat) : List Byte := Tab.get [] s.tim.sets p

/-- The clock identity of the device (R462; PRESUMED, log 29). -/
def State.clockId (s : State) : List Byte := clockIdentity (s.macOf 0)

/-- The slave port: of an ordinary clock the port that TIM_CFG lists first (DESIGN CHOICE, log 29); of a boundary clock the port
with the better announced data set, where it is better than the device's own (R462, default BMCA). -/
def State.slavePort (s : State) : Option Nat :=
  if s.fld F.timCfgRole = 1 then
    some (if ([s.fld F.timCfgPrio0, s.fld F.timCfgPrio1, s.fld F.timCfgPrio2].find? (fun c => c == 1 || c == 2)) = some 2 then 1 else 0)
  else if s.fld F.timCfgRole = 2 then
    let good := fun p => s.announced p != [] && decide (setRank (s.announced p) < setRank (ownSet s.clockId))
    if good 1 ∧ (good 0 → setRank (s.announced 1) < setRank (s.announced 0)) then some 1
    else if good 0 then some 0 else none
  else none

/-- The source is heard: PTP on a port of the role, PPS_IN where it is enabled (R462, R466). -/
def State.sourceOn (s : State) (c : Nat) : Bool :=
  if c = 3 then s.flag F.timCfgPpsIn
  else decide (1 ≤ c ∧ c ≤ 2) && (s.fld F.timCfgRole == 2 || s.fld F.timCfgRole == 1 && s.slavePort == some (c - 1))

/-- The source may be selected: PTP on the slave port alone. -/
def State.sourceUsed (s : State) (c : Nat) : Bool :=
  s.tim.qualified.contains c && s.sourceOn c && (c == 3 || s.slavePort == some (c - 1))

/-- The first listed source that is qualified; 0 where none is. -/
def State.bestSource (s : State) : Nat :=
  ([s.fld F.timCfgPrio0, s.fld F.timCfgPrio1, s.fld F.timCfgPrio2].find? s.sourceUsed).getD 0

/-- An offset to the nearest second boundary. -/
def wrapSecond (d : Int) : Int := (d + 500000000) % 1000000000 - 500000000

/-- The offset of source c that gave d: PPS_IN gives phase only, and the second count comes from a qualified PTP source, or from
device time (R460). -/
def State.offsetOf (s : State) (c : Nat) (d : Int) : Int :=
  if c = 3 then
    let base := (([1, 2].find? s.sourceUsed).map (Tab.get 0 s.tim.last)).getD 0
    base + wrapSecond (d - base)
  else d

/-- The return rule of R464 for an offset d, reference less device time: a slew to 1 ms, else a step. -/
def State.approach (s : State) (d : Int) : State :=
  let small := decide (d.natAbs ≤ 1000000)
  let s : State := { s with tim := { s.tim with
    slew := if small then d else 0, step := if small then none else some d, servo := 0, offsets := [d.natAbs] } }
  (s.setFlag F.timStatusSlewing (small && d != 0)).setFlag F.timStatusHolding false

/-- Source c is selected with the offset d: the state is LOCKED (R459, R464). -/
def State.selectSource (s : State) (c : Nat) (d : Int) : State :=
  let s := (s.setFld F.timStatusState TimeState.locked).setFld F.timStatusRef c
  let s : State := { s with tim := { s.tim with held := true } }
  (s.approach d).showError

/-- HOLDOVER begins: the estimate at entry is kept, and the mean of the servo's corrections of the last 64 s; a slew or step that
waits is given up (R459, R464). -/
def State.enterHoldover (s : State) : State :=
  let s : State := { s with tim := { s.tim with
    e0 := s.fld F.timErrorNs, since := s.now, slew := 0, step := none, servo := 0, offsets := []
    freq := (s.tim.trims.filter (fun p => decide (s.now / secondNs < p.1 + 64))).foldl (fun a p => a + p.2) 0, trims := [] } }
  let s := ((s.setFld F.timStatusState TimeState.holdover).setFld F.timStatusRef 0).setFlag F.timStatusSlewing false
  (s.setFlag F.timStatusHolding false).showError

/-- One more good interval of source c, or the first of a new row. -/
def State.goodInterval (s : State) (c : Nat) (good : Bool) (d : Int) : State :=
  { s with tim := { s.tim with
    good := Tab.set 0 s.tim.good c (if good then min 4 (Tab.get 0 s.tim.good c + 1) else 1)
    last := Tab.set 0 s.tim.last c d } }

/-- A measurement of the selected source joins the last 16; where no slew runs and no step waits, the servo steers device time by
it (R458, R459). -/
def State.measure (s : State) (c : Nat) (d : Int) : State :=
  if s.fld F.timStatusState = TimeState.locked ∧ s.fld F.timStatusRef = c then
    ({ s with tim := { s.tim with
      offsets := (d.natAbs :: s.tim.offsets).take 16
      servo := if s.tim.slew = 0 ∧ s.tim.step = none then d else 0 } }).showError
  else s

/-- What the priorities, the role, the pins' enables or the slave port have changed: a source that is not heard any more is not
qualified, and its row of good intervals ends, and the first listed qualified source is selected (R460, R462, R466). -/
def State.reselect (s : State) : State :=
  let s : State := { s with tim := { s.tim with qualified := s.tim.qualified.filter s.sourceOn, good := s.tim.good.filter (fun p => s.sourceOn p.1) } }
  let n := s.bestSource
  if n = s.fld F.timStatusRef then s
  else if n = 0 then s.enterHoldover
  else s.selectSource n (Tab.get 0 s.tim.last n)

end Sys2Proof.Machine
end

