-- ==== Sys2Proof/Machine/OpsTime.lean ====
section
/-! DEFINITION. Time passes: device time, the real-time clock, the cores' counters and the Plain tick (17_time.md R457 to R468). -/

namespace Sys2Proof.Machine

/-! ### Time passes -/

/-- The real-time clock counts n ns (R467). -/
def State.passRtc (s : State) (n : Nat) : State :=
  let f := s.tim.rtcFrac + n
  ({ s with tim := { s.tim with rtcFrac := f % secondNs } }).setFld F.timRtcSeconds
    ((s.fld F.timRtcSeconds + f / secondNs) % 2 ^ 32)

/-- What is left of a stand-still, in ns. -/
def Tim.rest (x : Tim) : Nat := match x.step with
  | some d => (-d).toNat
  | none => 0

/-- The correction that n ns from time t carry out of an offset: 100 ppm (R458, R464). -/
def slewPart (slew : Int) (t n : Nat) : Int :=
  let most := min ((t + n) / 10000 - t / 10000) slew.natAbs
  if slew < 0 then -(most : Int) else most

/-- The correction that n ns from time t carry at the frequency that HOLDOVER holds, in ns per 64 s (R464). -/
def heldPart (freq : Int) (t n : Nat) : Int := freq * ((t + n : Nat) : Int) / 64000000000 - freq * (t : Int) / 64000000000

/-- The corrections of the next n ns: of a slew, and of the servo while LOCKED or of the frequency held. A slew has the whole
100 ppm to itself (R458, R464). -/
def State.drift (s : State) (n : Nat) : Int × Int :=
  let x := s.tim
  (slewPart x.slew s.now n,
    if s.fld F.timStatusState ≠ TimeState.locked then heldPart x.freq s.now n
    else if x.slew = 0 ∧ x.step = none then slewPart x.servo s.now n else 0)

/-- The servo's corrections of the last 64 s, by second (R464). -/
def Tim.trim (x : Tim) (second : Nat) (c : Int) : Tab Int :=
  (Tab.modify 0 x.trims second (· + c)).filter (fun p => decide (second < p.1 + 64))

/-- Device time counts n ns: not without V38's supply, not during a stand-still (R458, R464). -/
def State.passDevice (s : State) (n : Nat) : State :=
  let x := s.tim
  let d := s.deviceTime
  if ¬ s.pins.aux then s
  else if s.flag F.timStatusHolding then
    if n < x.rest then { s with tim := { x with step := x.step.map (fun d => d + n) } }
    else
      let s : State := { s with tim := { x with step := none } }
      (s.setFlag F.timStatusHolding false).setFld F.timNowNs ((d + (n - x.rest)) % 2 ^ 64)
  else
    let (c, v) := s.drift n
    let locked := decide (s.fld F.timStatusState = TimeState.locked)
    let s : State := { s with tim := { x with
      slew := x.slew - c, servo := if locked then x.servo - v else 0
      trims := if locked then x.trim (s.now / secondNs) v else [] } }
    (s.setFlag F.timStatusSlewing (x.slew - c != 0)).setFld F.timNowNs (((d : Int) + n + c + v).toNat % 2 ^ 64)

/-- The least number from lo on, below lo + 2^k, from which on p holds. -/
def leastFrom (p : Nat → Bool) : Nat → Nat → Nat
  | 0, lo => lo
  | k + 1, lo => if p (lo + 2 ^ k - 1) then leastFrom p k lo else leastFrom p k (lo + 2 ^ k)

/-- ns until device time has counted r ns more, whatever is corrected meanwhile; what is left of a stand-still goes first. -/
def State.nsFor (s : State) (r : Nat) : Nat :=
  let ahead := fun n => let (c, v) := s.drift n; decide ((r : Int) ≤ (n : Int) + c + v)
  if s.flag F.timStatusHolding then s.tim.rest + r
  else if ahead r ∧ ¬ ahead (r - 1) then r else leastFrom ahead 47 0

/-- n ns pass for the clocks of V38, and the model's time base moves on. -/
def State.passClocks (s : State) (n : Nat) : State :=
  let s := (s.passDevice n).passRtc n
  let s : State := { s with now := s.now + n }
  if s.pins.aux then s.showError else s

/-! ### The other clocks -/

/-- Core clock in MHz (08_tenon.md). -/
def coreMhz (k : Nat) : Nat := if k < 5 then 800 else 875

/-- The cores' cycle counts after n ns from time t. -/
def Core.countCycles (x : Core) (k t n : Nat) : Core :=
  if x.held then x
  else { x with cycle := x.cycle + BitVec.ofNat 64 (coreMhz k * (t + n) / 1000 - coreMhz k * t / 1000) }

/-- The watchdog's count after n ns (08_tenon.md R258); an expiry comes as its command. -/
def Core.countWdt (x : Core) (n : Nat) : Core := if x.wdtCounts then { x with wdtLeft := x.wdtLeft - n } else x

/-- The debug counter of the cause of a stall (21_debug.md R527, R529). -/
def stallSub (counter : Nat) : Nat := if counter = 17 then 5 else if counter = 16 then 3 else 4

/-- From time t on n ns pass for a bench whose sequencer stalls on WAITM, SYNC or the ninth transfer: cycles of its clock
count as stalled (R96). -/
def State.passStall (s : State) (t n b : Nat) : State :=
  match (s.bench b).stall with
  | none => s
  | some (c, _) =>
    if s.flag (F.bncStatusRunning b) then
      let mhz := s.fld (F.vlyStateClockMhz (valleyOf (clusterOf b)))
      let cycles := mhz * (t + n) / 1000 - mhz * t / 1000
      let s := s.wrapAdd (F.bncStallCycles b) cycles
      if s.hasRight 2 ∧ s.flag F.dbgCtrlCounters then
        { s with dbg := { s.dbg with stalls := Tab.modify 0 s.dbg.stalls (16 * b + stallSub c) (· + cycles) } }
      else s
    else s

/-- Outside a run the rails' draw of n ns counts, a free value; the kerfs of a run bring their own measurement (18_power.md R483). -/
def State.passEnergy (s : State) (n : Nat) : State :=
  if s.scheduled ∨ ¬ s.railsGood then s
  else
    let e := (List.range 40).map (fun v => Config.drawn v s.now n)
    ({ s with pwr := { s.pwr with drawn := (List.range 40).map (fun v => s.pwr.drawn.getD v 0 + e.getD v 0) } } : State).logEnergy e.sum

/-- n ns pass: the clocks of V38, the model's time base, the cores' cycle counters and watchdogs and the stalled cycles of
benches and the energy counts move on, and with every 4 ns of the model's time base the group tick (00_scope.md R10). -/
def State.passTime (s : State) (n : Nat) : State :=
  let t := s.now
  let s := (s.passEnergy n).passClocks n
  let s := s.benches.foldl (fun s p => s.passStall t n p.1) s
  { s with
    cores := s.cores.map (fun p => (p.1, (p.2.countCycles p.1 t n).countWdt n))
    plain := { s.plain with tick := s.plain.tick + ((t + n) / 4 - t / 4) } }

/-- n Plain ticks of 4 ns pass. -/
def State.passTicks (s : State) (n : Nat) : State := s.passTime (4 * n)

/-- The Plain tick reaches t where it lies ahead; a schedule event happens at its tick (log 8). -/
def State.reachTick (s : State) (t : Nat) : State := s.passTicks (t - s.plain.tick)

end Sys2Proof.Machine
end

