-- ==== Sys2Proof/Machine/OpsKerf.lean ====
section
/-! DEFINITION. Time, schedule positions, seals, and what a cut start, a kerf start and the Service phase do
(04_cutlists.md R112 to R119, R132, R133, R139 to R143; 06_plain.md R176, R189 to R191). -/

namespace Sys2Proof.Machine

/-! ### Sensors (17_time.md R469) -/

/-- Voltages are crossed from above. -/
def fromAbove (n : Nat) : Bool := n == 20 || n == 23 || n == 24

/-- Value v of sensor n is at or past a threshold. -/
def past (n : Nat) (v : Int) (thresh : Nat) : Bool := if fromAbove n then decide (v ≤ thresh) else decide ((thresh : Int) ≤ v)

/-! ### Positions -/

/-- Kerf count at which the vote closes (R141). -/
def State.voteKerf (s : State) : Option Nat := s.swapKerf.map (fun k => k - (s.diameter + 4))

/-- The seal flit of the kerf at which the vote closes has left, or no kerf of this run was left for it (R141, R189). -/
def State.voteClosed (s : State) : Bool :=
  let next := if s.run.phase = .sealed ∨ s.run.phase = .service then s.run.kerfs + 1 else s.run.kerfs
  (s.swapKerf.map (fun k => decide (k < next + s.diameter + 4))).getD false

/-- The vote of this member: no without a fitted successor (R141). -/
def State.votesNo (s : State) : Bool :=
  match s.run.swap with
  | none => true
  | some w => w.no || !w.fitted

/-- The running vote of this member: the first 8 bytes of the family_hash of the successor that it has fitted, or none for
no (R141). -/
def State.swapVote (s : State) : Option Nat := if s.votesNo then none else s.successor.map (fun l => fieldLE l.family 0 8)

/-- The current kerf is the swap kerf of a vote that has passed (R142). -/
def State.swapsNow (s : State) : Bool := s.swapKerf == some s.run.kerfs && !s.votesNo

/-- The current kerf is a kerf where a stop may take place: not a swap kerf, with the ckpt flag, or the end of a pass
where no cut run has the flag (R133, R143). -/
def State.stopPoint (s : State) : Bool :=
  match s.schedule with
  | none => false
  | some l =>
    !s.swapsNow &&
      (if l.runs.any (fun r => r.ckpt) then (l.cutRun s.run.cut).ckpt else s.run.cut + 1 == l.cutCount)

/-- The position after the current cut. -/
def State.nextPos (s : State) : Nat × Nat :=
  match s.schedule with
  | none => (s.run.pass, s.run.cut)
  | some l => l.nextPos s.run.pass s.run.cut

/-- The result that names the next position (R133, R494). -/
def State.posResult (s : State) : Nat := s.nextPos.1 + s.nextPos.2 * 2 ^ 32

/-! ### The seal (R190) -/

/-- The cut seal of the current kerf. -/
def State.seal (s : State) : Nat :=
  let family := match s.schedule with
    | some l => l.family.take 8
    | none => List.replicate 8 0
  fieldLE (Crypto.sha384 (leBytes 4 s.run.pass ++ leBytes 4 s.run.cut ++ leBytes 4 s.run.epoch ++ leBytes 2 s.plain.stretch
    ++ leBytes 2 0 ++ leBytes 8 s.run.kerfs ++ family)) 0 8

/-! Types of control flits (R170), numbered in the order of that rule (DESIGN CHOICE, log 18). -/
namespace FlitType
def identity : Nat := 0
def muster : Nat := 1
def start : Nat := 2
def sealType : Nat := 3
def haltReport : Nat := 4
end FlitType

/-- The member's seal flit for link j (R189), its items in the rule's order (DESIGN CHOICE, log 18). -/
def State.sealFlit (s : State) (j : Nat) : List Byte :=
  leBytes 8 s.seal ++ leBytes 4 (unsigned 32 (s.link j).rHere) ++ leBytes 4 (s.freeBits 32).toNat
    ++ leBytes 2 s.plain.stretchMax ++ leBytes 1 (if s.swapVote.isSome then 1 else 0) ++ leBytes 8 (s.swapVote.getD 0)
    ++ leBytes 8 (s.run.stopCount.getD (2 ^ 64 - 1)) ++ leBytes 8 (unsigned 64 s.plain.offset)

/-- Every member sends one seal flit on every link in service in every kerf (R189). The coefficients it asks its peer
for are a free value: equalization is not modelled (R171). -/
def State.sendSeals (s : State) : State :=
  s.serviceLinks.foldl (fun s j => ((s.sendControl j FlitType.sealType (s.sealFlit j)).bumpFree).flushNotices j) s

/-! ### The last kerfs (R191, R194) -/

/-- Kerfs that are kept: a seal comes by kerf tick 256, and a cut with its kerf lasts at least 17 ticks. -/
def keptMarks : Nat := 32

/-- The kerf that starts now is kept with its start tick. -/
def State.markKerf (s : State) (start : Nat) : State :=
  { s with run := { s.run with marks := (⟨s.run.kerfs, start, none⟩ :: s.run.marks).take keptMarks } }

/-- This member's seal of the current kerf is kept. -/
def State.markSeal (s : State) (v : Nat) : State :=
  { s with run := { s.run with marks := s.run.marks.map (fun m => if m.kerf = s.run.kerfs then { m with own := some v } else m) } }

/-- This member's seal of kerf k, once formed. -/
def State.sealOf (s : State) (k : Nat) : Option Nat := (s.run.marks.find? (fun m => m.kerf == k)).bind KerfMark.own

/-- The start tick of the last kerf that began. -/
def State.kerfTick (s : State) : Option Nat := s.run.marks.head?.map KerfMark.start

/-- The tick of the next schedule event: a timer that expires later waits for it. -/
def State.nextEventTick (s : State) : Nat :=
  match s.run.phase with
  | .drain => s.run.since + 4
  | .sealed => s.run.since + 12
  | .service => s.run.since + s.kerfLength
  | .start => s.run.since
  | .cut => s.run.since + ((s.schedule.map (fun l => (l.cutRun s.run.cut).length)).getD 0)
  | _ => s.plain.tick

/-- A timer of a kerf expires at tick t before the next schedule event. -/
def State.expiresAt (s : State) (t : Nat) : Bool := decide (t ≤ s.nextEventTick)

/-! ### Entry tables and the cut start (R96, R118, R119) -/

/-- The first entry of the table that covers cut c gives the start slot. -/
def Bench.entryFor (x : Bench) (c : Nat) : Option Nat :=
  (List.range (Memory.readLE x.prog 0 2)).findSome? (fun k =>
    let a := 16 * (k + 1)
    let first := Memory.readLE x.prog a 4
    let last := Memory.readLE x.prog (a + 4) 4
    let step := Memory.readLE x.prog (a + 8) 2
    if first ≤ c ∧ c ≤ last ∧ (c - first) % (max step 1) = 0 then some (Memory.readLE x.prog (a + 10) 2 % 4096) else none)

/-- Benches of the partitions that run. -/
def State.runningBenches (s : State) : List Nat :=
  (s.runningParts.flatMap (fun p => maskBenches (s.part p).clusters)).filter (fun b => s.flag (F.bncStatusPresent b))

/-- Bench b at a cut start: the entry's program, or idle. -/
def State.startBench (s : State) (b : Nat) : State :=
  let x := s.bench b
  let e := x.entryFor s.run.cut
  let s := s.setBench b { x with slot := e.getD 0, loop := none, stall := none, window := none, released := false, abandoned := false, mute := false }
  let s := s.setFlag (F.bncStatusRunning b) e.isSome
  let s := s.setFlag (F.bncStatusOpen b) false
  s.setFld (F.bncStatusCut b) (s.run.cut % 65536)

/-- A cut's losses make the link declare failure: more than 8 flits, or one that no replay has restored (R178). -/
def Link.failing (l : Link) : Bool := decide (8 < l.lost.length) || l.unrestored != []

/-- A link at a cut start after the kerf that started at a tick: a new stream (R168, R176). Where kerf tick 123 is still to come, the
losses of the cut before count at it (R178). -/
def Link.newCut (l : Link) (kerf : Option Nat) : Link :=
  { l with
    rx := [], lost := [], unrestored := [], held := [], sent := [], filled := []
    failAt := l.failAt.or (if l.failing then kerf.map (· + 123) else none) }

/-! ### Poison rewrites (07_memory.md R215) -/

/-- The lines that wait for it are rewritten with poison. -/
def MemUnit.rewritePoison (m : MemUnit) : MemUnit := m.repoison.foldl (fun m l => m.putLine l [] true) m

/-- Every HBM stack rewrites its failed lines. -/
def State.rewritePoison (s : State) : State :=
  (List.range 12).foldl (fun s k => s.setMemUnit (stackUnit k) (s.memUnit (stackUnit k)).rewritePoison) s

/-! ### Replay (R176) -/

/-- Every held flit of link j goes out twice, as attempt 1 and 2. -/
def State.replayLink (s : State) (j : Nat) : State :=
  let l := s.link j
  let s := l.held.foldl (fun s f => (s.emit (.flit j 2 1 f (l.payload f))).emit (.flit j 2 2 f (l.payload f))) s
  s.setLink j { s.link j with held := [] }

end Sys2Proof.Machine
end

