-- ==== Sys2Proof/Machine/OpsValley.lean ====
section
/-! DEFINITION. Valley power and isolation (18_power.md R481, R489; 01_architecture.md R23). -/

namespace Sys2Proof.Machine

/-- The clock of a powered valley in MHz (01_architecture.md R18); of a cluster valley its bench clock at the floor of
1.75 GHz, which State.raiseClock may raise. -/
def valleyMhz (v : Nat) : Nat :=
  if v < 20 then (if v % 5 < 4 then 1750 else 2000)
  else if v < 32 then 1200
  else if v = 32 ∨ v = 35 then 1000
  else if v = 33 ∨ v = 34 then 1500
  else if v = 36 then 2000
  else if v = 38 then 100 else 800

/-- A loaded or staged cutlist names cluster k. -/
def State.clusterNamed (s : State) (k : Nat) : Bool :=
  allParts.any (fun p =>
    (((s.part p).list.map (fun l => bitOf l.clusterMask k)).getD false) || (((s.part p).staged.map (fun l => bitOf l.clusterMask k)).getD false))

/-- A loaded or staged cutlist names stack k. -/
def State.stackNamed (s : State) (k : Nat) : Bool :=
  allParts.any (fun p =>
    (((s.part p).list.map (fun l => bitOf l.stackMask k)).getD false) || (((s.part p).staged.map (fun l => bitOf l.stackMask k)).getD false))

/-- Stack k holds a page pool. -/
def State.holdsPool (s : State) (k : Nat) : Bool := (s.memUnit (stackUnit k)).gran.any (fun g => g.2.pool)

/-- Every unit of valley v is mapped out (13_registers.md, VLY_STATE). -/
def State.valleyOut (s : State) (v : Nat) : Bool :=
  if v < 20 then
    (match valleyCluster v with
     | some k => (List.range 10).all (fun i => s.flag (F.bncStatusMappedOut (10 * k + i)))
     | none => false)
  else if v < 32 then s.flag (F.memStatusMappedOut (v - 20))
  else if v = 34 then (List.range 6).all (fun j => s.fld (F.dvtLinkStatusState j) == 5)
  else if v = 35 then (List.range 16).all (fun c => !s.flag (F.shfChanInService c))
  else false

/-- Some unit of valley v is in use, so that it stays powered (R489). -/
def State.valleyUsed (s : State) (v : Nat) : Bool :=
  if v < 20 then
    (match valleyCluster v with
     | some k => s.clusterNamed k
     | none => true)
  else if v < 32 then s.flag (F.memStatusPresent (v - 20))
  else if v = 33 then s.flag (F.ethPortCfgEnable 0) || s.flag (F.ethPortCfgEnable 1)
  else if v = 34 then s.flag F.dvtPlainForming || s.serviceLinks != []
  else if v = 39 then s.flag F.secStatusDebug
  else true

/-- Before a reset the passes of valley v close and isolation is set (R23). -/
def State.closePasses (s : State) (v : Nat) : State := s.setFlag (F.vlyStateIsolated v) true

/-- The passes of valley v open again where it is powered and not mapped out (R23). -/
def State.openPasses (s : State) (v : Nat) : State :=
  s.setFlag (F.vlyStateIsolated v) (!s.flag (F.vlyStatePowered v) || s.flag (F.vlyStateMappedOut v))

/-- Valley v is powered on or off; its passes close and isolation is set where it is off (R23). A clock that runs keeps its
rate. -/
def State.powerValley (s : State) (v : Nat) (on : Bool) : State :=
  let mhz := if ¬ on then 0 else if s.flag (F.vlyStatePowered v) then s.fld (F.vlyStateClockMhz v) else valleyMhz v
  let s := s.setFlag (F.vlyStatePowered v) on
  let s := s.setFlag (F.vlyStateIsolated v) (!on)
  s.setFld (F.vlyStateClockMhz v) mhz

/-- The power core powers valley v by its use; nothing is powered before step 4 of the boot (R273), and V38 is never off. A
valley whose units are all mapped out is isolated though it stays powered (R23). -/
def State.gateValley (s : State) (v : Nat) : State :=
  if s.flag (F.vlyStateEnable v) then
    let s := (s.powerValley v (s.valleyUsed v)).setFlag (F.vlyStateMappedOut v) (s.valleyOut v)
    if s.flag (F.vlyStateMappedOut v) then s.closePasses v else s
  else s

/-- A stack that no loaded cutlist names and that holds no page pool is in self-refresh, from 1 ms after its last access on
(07_memory.md R223). -/
def State.restStack (s : State) (k : Nat) : State :=
  let a := (s.memUnit (stackUnit k)).accessAt
  if s.flag (F.memStatusPresent k) ∧ s.flag (F.vlyStatePowered (20 + k)) ∧ ¬ s.stackNamed k ∧ ¬ s.holdsPool k
      ∧ (a = 0 ∨ a + 1000000 ≤ s.now) then s.setFlag (F.memStatusSelfRefresh k) true
  else s

/-- The same for every stack. -/
def State.restStacks (s : State) : State := (List.range 12).foldl State.restStack s

/-- Every valley is powered by its use, and every stack rests that is not in use. -/
def State.gateValleys (s : State) : State := ((List.range 40).foldl State.gateValley s).restStacks

/-! ### The lowered draw of D3hot (11_pcie.md R329, R330) -/

/-- Every present stack in self-refresh, or out of it. -/
def State.setSelfRefresh (s : State) (v : Bool) : State :=
  ((List.range 12).filter (fun k => s.flag (F.memStatusPresent k))).foldl (fun s k => s.setFlag (F.memStatusSelfRefresh k) v) s

/-- The lowered draw ends: HBM leaves its self-refresh. -/
def State.leaveLowPower (s : State) : State :=
  let s := if s.host.lowPower then (s.setSelfRefresh false).restStacks else s
  ({ s with host := { s.host with lowPower := false } }).setFlag F.hifStatusLowpower false

/-- What the lowered draw of R329 asks for beside D3hot. -/
def State.mayLower (s : State) : Bool :=
  s.runningParts == [] && !s.inPlain && !s.flag F.shfSanitizeActive

/-- Where a condition of the lowered draw ends, so does the draw. -/
def State.settleLow (s : State) : State := if s.host.lowPower ∧ ¬ s.mayLower then s.leaveLowPower else s

/-- The bench clock of cluster valley v goes above the floor: by how much, at most to 2.0 GHz, is a free value (R482: the
power core may raise it and no rule says how far; DESIGN CHOICE, log 24). It is back at the floor where raised is false. -/
def State.raiseClock (s : State) (v : Nat) (raised : Bool) : State :=
  if (valleyCluster v).isNone ∨ ¬ s.flag (F.vlyStatePowered v) then s
  else if raised then (s.setFld (F.vlyStateClockMhz v) (valleyMhz v + (s.freeBits 8).toNat % 251)).bumpFree
  else s.setFld (F.vlyStateClockMhz v) (valleyMhz v)

/-- The power core sets the voltage target of valley v (R480, R481); above 600 mV no bench clock stays raised (R482). -/
def State.setTarget (s : State) (v mv : Nat) : State :=
  let s := s.setFld (F.pwrVtargetMv v) mv
  let s := if mv = 600 then s else s.raiseClock v false
  { s with regs := { s.regs with unanimous := Tab.set 750 s.regs.unanimous v mv } }

end Sys2Proof.Machine
end

