-- ==== Sys2Proof/Machine/OpsPlain.lean ====
section
/-! DEFINITION. The shape of a Plain, Muster records and the link streams (06_plain.md R165 to R187). -/

namespace Sys2Proof.Machine

/-! ### Shape (R165) -/

/-- The neighbour of member m on link j in a Plain of x by y by z. -/
def neighbour (x y z m j : Nat) : Nat :=
  let a := m % x
  let b := m / x % y
  let c := m / (x * y)
  let step := fun (v n : Nat) (up : Bool) => if up then (v + 1) % n else (v + n - 1) % n
  match j with
  | 0 => step a x true + x * b + x * y * c
  | 1 => step a x false + x * b + x * y * c
  | 2 => a + x * step b y true + x * y * c
  | 3 => a + x * step b y false + x * y * c
  | 4 => a + x * b + x * y * step c z true
  | _ => a + x * b + x * y * step c z false

/-- The peer's link number: D0 meets D1, D2 meets D3, D4 meets D5. -/
def peerOf (j : Nat) : Nat := if j % 2 = 0 then j + 1 else j - 1

/-- The links that a shape uses: those of dimensions above 1. -/
def usedLinks (x y z : Nat) : List Nat :=
  (if 1 < x then [0, 1] else []) ++ (if 1 < y then [2, 3] else []) ++ (if 1 < z then [4, 5] else [])

/-- Links of the formation that are not mapped out. -/
def State.formingLinks (s : State) : List Nat :=
  (usedLinks s.plain.dimX s.plain.dimY s.plain.dimZ).filter (fun j => s.fld (F.dvtLinkStatusState j) != 5)

/-! ### The graph of the links in service (R166, R180) -/

/-- Hop counts from member 0 .. n - 1 to the members reached, by rounds. -/
def hopsFrom (adj : Nat → List Nat) : Nat → Nat → List Nat → Tab Nat → Tab Nat
  | 0, _, _, seen => seen
  | fuel + 1, d, front, seen =>
    match front with
    | [] => seen
    | _ =>
      let next := (front.flatMap adj).foldl (fun (acc : List Nat × Tab Nat) m =>
        if (acc.2.any (fun p => p.1 == m)) then acc else (acc.1 ++ [m], Tab.put acc.2 m d)) ([], seen)
      hopsFrom adj fuel (d + 1) next.1 next.2

/-- Members joined to m: the link maps of both ends have the link. -/
def adjacent (x y z : Nat) (map : Nat → Nat) (m : Nat) : List Nat :=
  ((usedLinks x y z).filter (fun j => bitOf (map m) j && bitOf (map (neighbour x y z m j)) (peerOf j))).map (neighbour x y z m)

/-- The hop counts from member m. -/
def hops (x y z : Nat) (map : Nat → Nat) (m : Nat) : Tab Nat :=
  hopsFrom (adjacent x y z map) (x * y * z + 1) 1 [m] [(m, 0)]

/-- The diameter; none where the graph is disconnected. -/
def graphDiameter (x y z : Nat) (map : Nat → Nat) : Option Nat :=
  let n := x * y * z
  let tables := (List.range n).map (hops x y z map)
  if tables.any (fun t => t.length < n) then none
  else some ((tables.map (fun t => (t.map Prod.snd).foldl max 0)).foldl max 0)

/-- The link to the tick parent of member m: the neighbour with the fewest hops to member 0, on the lowest link. -/
def tickParent (x y z : Nat) (map : Nat → Nat) (m : Nat) : Option Nat :=
  if m = 0 then none
  else
    let t := hops x y z map 0
    let js := (usedLinks x y z).filter (fun j => bitOf (map m) j && bitOf (map (neighbour x y z m j)) (peerOf j))
    js.foldl (fun best j =>
      match best with
      | none => some j
      | some b => if Tab.get 9999 t (neighbour x y z m j) < Tab.get 9999 t (neighbour x y z m b) then some j else some b) none

/-! ### Muster records (R185) -/

/-- The running release (09_firmware.md R275): the lowest release of the bundles whose images the cores run, as major,
minor, patch in one number; 0 with no core running. -/
def State.runningRelease (s : State) : Nat :=
  let banks := s.fw.source.map Prod.snd
  let rel := fun b => beNat (Memory.read s.fw.flash ((b - 1) * 0x02000000 + 8) 3)
  match banks.map rel with
  | [] => 0
  | a :: t => t.foldl min a

/-- The firmware digest of R275. -/
def State.firmwareDigest (s : State) : List Byte :=
  Crypto.sha384 ((List.range 21).flatMap (fun k => ((s.core k).digest ++ List.replicate 48 0).take 48))

/-- The digest of the PWR configuration and GLB_COMPAT: the words of PWR_CAP and GLB_COMPAT, little-endian (DESIGN CHOICE, log 30); the
DVT block's one field that software writes, map_out, is left out (DEDUCED, log 19). -/
def State.configDigest (s : State) : List Byte :=
  Crypto.sha384 (leBytes 4 (s.fld F.pwrCapWatts + s.fld F.pwrCapShelfHold * 2 ^ 11) ++ leBytes 4 (s.fld F.glbCompatE7))

/-- The mask of the links in service. -/
def State.linkMap (s : State) : Nat := listMask s.serviceLinks

/-- The member's own Muster record. -/
def State.musterRecord (s : State) : List Byte :=
  leBytes 8 s.plain.formation ++ leBytes 2 (s.fld F.dvtPlainPlainSize) ++ leBytes 2 (s.fld F.dvtPlainMemberIndex)
    ++ leBytes 1 s.plain.dimX ++ leBytes 1 s.plain.dimY ++ leBytes 1 s.plain.dimZ ++ leBytes 1 s.linkMap
    ++ beBytes 3 s.runningRelease ++ leBytes 1 0 ++ leBytes 12 0 ++ s.firmwareDigest ++ s.configDigest ++ s.bindingDigest
    ++ (List.range 6).flatMap (fun j => leBytes 4 (s.fld (F.dvtLinkOffsetTheta j))) ++ leBytes 56 0

/-- Member index of a record. -/
def recMember (r : List Byte) : Nat := fieldLE r 10 2
/-- Link map of a record. -/
def recLinks (r : List Byte) : Nat := fieldLE r 15 1
/-- Offset of link j in a record. -/
def recOffset (r : List Byte) (j : Nat) : Int := signed 32 (fieldLE r (0xB0 + 4 * j) 4)

/-- The link map of member m in a list of records. -/
def mapOf (rs : List (List Byte)) (m : Nat) : Nat := ((rs.find? (fun r => recMember r == m)).map recLinks).getD 0

/-- The lowest of a list of member indices. -/
def lowest (l : List Nat) : Nat := match l with | [] => 0 | a :: t => t.foldl min a

/-- The fields that all records must share: code, offset and length (R186). -/
def sharedFields : List (Nat × Nat × Nat) :=
  [(0x01, 0x00, 8), (0x02, 0x08, 2), (0x04, 0x0C, 3), (0x06, 0x10, 4), (0x07, 0x20, 48), (0x08, 0x50, 48), (0x09, 0x80, 48)]

/-- The first disagreement of a shared field below code hi. -/
def sharedDiff (own : List Byte) (rs : List (List Byte)) (p : Nat → Bool) : Option Nat :=
  (sharedFields.filter (fun f => p f.1)).findSome? (fun (c, o, n) =>
    match (rs.filter (fun r => bytesAt r o n != bytesAt own o n)).map recMember with
    | [] => none
    | ms => some (c + 0xFF * 256 + lowest ms * 65536))

/-- The result of a refused formation over complete records; none where it agrees (R186). Where several fields differ the lowest code
is named (DESIGN CHOICE, log 30). Where no record differs, for code 0x0F and at a timeout, the member bits are 0 (DESIGN CHOICE, log 27). -/
def musterRefusal (own : List Byte) (x y z : Nat) (rs : List (List Byte)) : Option Nat :=
  let result := fun code link m => code + link * 256 + m * 65536
  let dup := (rs.filter (fun r => decide (1 < (rs.filter (fun q => recMember q == recMember r)).length))).map recMember
  let first := fun (p : List Byte → Option Nat) => (List.range (x * y * z)).findSome? (fun m =>
    ((rs.find? (fun r => recMember r == m)).bind p).map (fun j => (j, m)))
  let maps := first (fun r => (usedLinks x y z).find? (fun j =>
    bitOf (recLinks r) j != bitOf (mapOf rs (neighbour x y z (recMember r) j)) (peerOf j)))
  let offs := first (fun r => (List.range 6).find? (fun j => decide (128 < recOffset r j ∨ recOffset r j < -128)))
  match sharedDiff own rs (· ≤ 0x02) with
  | some v => some v
  | none =>
    if dup ≠ [] then some (result 0x03 0xFF (lowest dup))
    else match sharedDiff own rs (· == 0x04) with
    | some v => some v
    | none => match maps with
      | some (j, m) => some (result 0x05 j m)
      | none => match sharedDiff own rs (fun c => decide (0x06 ≤ c)) with
        | some v => some v
        | none => match offs with
          | some (j, m) => some (result 0x0A j m)
          | none => match graphDiameter x y z (mapOf rs) with
            | some d => if 31 < d then some (result 0x0F 0xFF 0) else none
            | none => some (result 0x0F 0xFF 0)

/-- The accumulated offset of member m to member 0 along the tick tree, from the records (R530). -/
def recOffsetSum (x y z : Nat) (rs : List (List Byte)) : Nat → Nat → Int
  | 0, _ => 0
  | fuel + 1, m =>
    match tickParent x y z (mapOf rs) m with
    | none => 0
    | some j =>
      ((rs.find? (fun r => recMember r == m)).map (fun r => recOffset r j)).getD 0
        + recOffsetSum x y z rs fuel (neighbour x y z m j)

/-- The member's link identity leaves on link j (R184 step 2). -/
def State.sendIdentity (s : State) (j : Nat) : State :=
  s.sendControl j FlitType.identity (leBytes 8 s.plain.formation ++ leBytes 2 (s.fld F.dvtPlainMemberIndex) ++ leBytes 1 j)

/-! ### Formation's end (R184, R186) -/

/-- The formation leaves the device with no Plain. -/
def State.dropPlain (s : State) : State :=
  let s := (s.setFlag F.dvtPlainFormed false).setFlag F.dvtPlainForming false
  let s := ((s.setFld F.dvtPlainDiameter 0).setFld F.dvtPlainPlainSize 0).setFld F.dvtPlainMemberIndex 0
  let s := (List.range 6).foldl (fun s j =>
    let s := s.setLink j { s.link j with answered := false, seals := [], control := [], diverged := false, early := [], notices := [], coeffReq := [] }
    if s.fld (F.dvtLinkStatusState j) = 3 then s.setFld (F.dvtLinkStatusState j) 2 else s) s
  ({ s with plain := { Plain.init with tick := s.plain.tick } }).gateValley 34

/-- A LINK event of link j with its new state (R360). -/
def State.linkEvent (s : State) (j : Nat) : State := s.event 0 0x0C j (s.fld (F.dvtLinkStatusState j))

/-- A link changes its state; every change posts a LINK event (DEDUCED, log 19). -/
def State.setLinkState (s : State) (j v : Nat) : State :=
  if s.fld (F.dvtLinkStatusState j) = v then s else ((s.setFld (F.dvtLinkStatusState j) v).gateValley 34).linkEvent j

/-- The muster operation ends with a refusal. -/
def State.refuseMuster (s : State) (status result : Nat) : State :=
  match s.plain.op with
  | none => s.dropPlain
  | some o => s.dropPlain.complete o status result

/-- All records have come, the member's own among them as its first: the formation is refused, or the Plain is formed (R184
steps 5 and 6). -/
def State.judgeMuster (s : State) : State :=
  let p := s.plain
  if p.records.length < s.fld F.dvtPlainPlainSize then s
  else
    match musterRefusal (p.records.headD []) p.dimX p.dimY p.dimZ p.records with
    | some r => s.refuseMuster Status.versionMismatch r
    | none =>
      let m := s.fld F.dvtPlainMemberIndex
      let d := (graphDiameter p.dimX p.dimY p.dimZ (mapOf p.records)).getD 0
      let off := recOffsetSum p.dimX p.dimY p.dimZ p.records 32 m
      let s := ((s.setFlag F.dvtPlainForming false).setFlag F.dvtPlainFormed true).setFld F.dvtPlainDiameter d
      let s := s.setFld F.dbgAlignOffset (unsigned 32 off)
      let s := { s with plain := { p with op := none, offset := off, parent := tickParent p.dimX p.dimY p.dimZ (mapOf p.records) m } }
      let s := s.settleLow
      match p.op with
      | none => s
      | some o => s.complete o Status.ok 0

/-- A Muster record that came on link j while step 4 runs: a new one is forwarded on every other link and kept. -/
def State.takeRecord (s : State) (j : Nat) (r : List Byte) : State :=
  if s.plain.records.contains r then s
  else
    let s := s.flood (s.serviceLinks.filter (· != j)) FlitType.muster r
    { s with plain := { s.plain with records := s.plain.records ++ [r] } }

/-- Ticks are aligned to within a quarter of a tick (R184 step 3): the offset that remains on a link is a free value within
16/64 tick (log 19). -/
def State.alignLink (s : State) (j : Nat) : State :=
  (s.setFld (F.dvtLinkOffsetTheta j) (unsigned 32 (((s.freeBits 8).toNat % 33 : Nat) - 16))).bumpFree

/-- Every used link has answered: ticks are aligned, the member's own record goes out, and records that came before it are
forwarded and kept (R184 steps 3 and 4). -/
def State.sendRecord (s : State) : State :=
  if s.flag F.dvtPlainForming ∧ s.formingLinks.all (fun j => (s.link j).answered) ∧ s.plain.records = [] then
    let s := (s.serviceLinks.foldl State.alignLink s).useBound (fun r => [r.checkLabel])
    let r := s.musterRecord
    let early := s.plain.early
    let s := s.flood s.serviceLinks FlitType.muster r
    let s : State := { s with plain := { s.plain with records := [r], early := [] } }
    (early.foldl (fun s p => s.takeRecord p.1 p.2) s).judgeMuster
  else s

/-! ### Receive streams (R168, R172, R174) -/

/-- Bytes at slot byte a of transmit slot t enter its link's stream as they are released (R174). -/
def State.forwardPart (s : State) (t : LinkSlot) (a : Nat) (bytes : List Byte) : State :=
  let first := (400 * t.start + a) / 640
  let last := (400 * t.start + a + bytes.length - 1) / 640
  let s := if a + bytes.length = t.bytes then
    s.setLink t.link { s.link t.link with filled := (s.link t.link).filled ++ [t.tag] } else s
  (List.range (last + 1 - first)).foldl (fun s q =>
    let f := first + q
    let (b, o, n) := flitPart t.start t.bytes f
    let skip := b - a
    let at_ := a - b
    let part := (bytes.drop skip).take (n - at_)
    let l := s.link t.link
    let p := fillFlit (l.payload f) (o + at_) part
    let s := s.setLink t.link { l with sent := l.sent.filter (fun x => x.1 != f) ++ [(f, p)] }
    if a + bytes.length ≥ b + n ∧ (s.flitSlots t.link f).all (fun x => x.tag == t.tag || l.filled.contains x.tag) then
      s.sendData t.link p
    else s) s

/-- The valleys that received bytes cross on their way to bench b (01_architecture.md R29). -/
def landPath (b : Nat) : List Nat := [34, fabricValley (b / 40), valleyOf (clusterOf b)]

/-- The part of a flit that lands in receive slot e: in the bench store, or on the transmit link of a forwarding pair;
behind isolation it is discarded and counted (01_architecture.md R24). A slot of kind 1 keeps the larger anchors (R546).
whole rewrites the flit's lines whole (R176). -/
def State.landPart (s : State) (payload : List Byte) (whole : Bool) (e : LinkSlot) (a o n : Nat) : State :=
  let bytes := bytesAt payload o n
  match s.forwardOf e, s.cutOff (landPath e.bench) with
  | some t, _ => if whole then s else s.forwardPart t a bytes
  | none, some v => s.countIsolated v
  | none, none =>
    let x := s.bench e.bench
    let at_ := 64 * e.line + a
    let bytes := if e.kind = 1 then
        (List.range (n / 2)).flatMap (fun i =>
          let v := BitVec.ofNat 16 (fieldLE bytes (2 * i) 2)
          let w := BitVec.ofNat 16 (Memory.readLE x.store (at_ + 2 * i) 2)
          leBytes 2 (anchorMax w v).toNat)
      else bytes
    let y := x.writeBytes at_ bytes
    let lines := linesOf at_ n
    s.setBench e.bench (if whole then
      { y with poison := y.poison.filter (fun l => !lines.contains l), ue := y.ue.filter (fun w => !lines.contains (w / 8)) }
      else y)

/-- A released flit of link j lands (R172). -/
def State.landFlit (s : State) (j f : Nat) (payload : List Byte) (whole : Bool) : State :=
  (s.flitTargets j f).foldl (fun s (e, a, o, n) => s.landPart payload whole e a o n) s

/-- The lines that a lost flit touches are poisoned (R175). A forwarding pair passes zero bytes on for it, and nothing of its
replay (DESIGN CHOICE, log 27). -/
def State.poisonFlit (s : State) (j f : Nat) : State :=
  (s.flitTargets j f).foldl (fun s (e, a, _, n) =>
    match s.forwardOf e, s.cutOff (landPath e.bench) with
    | some t, _ => s.forwardPart t a (List.replicate n 0)
    | none, some v => s.countIsolated v
    | none, none =>
      let x := s.bench e.bench
      s.setBench e.bench { x with poison := (linesOf (64 * e.line + a) n).foldl (fun p l => insertNat l p) x.poison }) s

end Sys2Proof.Machine
end

