-- ==== Sys2Proof/Machine/Fit.lean ====
section
/-! DEFINITION. Cutlist containers (04_cutlists.md R109 to R124, R134) and the checks of steps 1 to 14 of R128 with the
results of R130 and R541. -/

namespace Sys2Proof.Machine

/-! ### Containers -/

/-- A container as its member-table entry gives it. -/
structure Cont where
  bytes : List Byte
  deriving DecidableEq, Repr

/-- A header field: n bytes at offset o. -/
def Cont.le (c : Cont) (o n : Nat) : Nat := fieldLE c.bytes o n
def Cont.roles (c : Cont) : Nat := c.le 0x0D 1
def Cont.part (c : Cont) : Nat := c.le 0x0E 1
def Cont.plainSize (c : Cont) : Nat := c.le 0x1A 2
def Cont.cutCount (c : Cont) : Nat := c.le 0x20 4
def Cont.loopStart (c : Cont) : Nat := c.le 0x24 4
def Cont.clusterMask (c : Cont) : Nat := c.le 0x28 2
def Cont.stackMask (c : Cont) : Nat := c.le 0x2A 2
def Cont.linkMask (c : Cont) : Nat := c.le 0x2C 1

/-- A directory entry (R110). -/
structure Sect where
  idx : Nat
  kind : Nat
  unit : Nat
  off : Nat
  len : Nat
  rsv : Bool
  deriving DecidableEq, Repr

/-- The section directory. -/
def Cont.sects (c : Cont) : List Sect :=
  (List.range (c.le 0x18 2)).map (fun k =>
    let o := 0x100 + 32 * k
    ⟨k, c.le o 2, c.le (o + 2) 2, c.le (o + 8) 8, c.le (o + 16) 8, c.le (o + 4) 4 != 0 || c.le (o + 24) 8 != 0⟩)

/-- The sections of a kind. -/
def Cont.ofKind (c : Cont) (k : Nat) : List Sect := c.sects.filter (fun s => s.kind == k)

/-- A section placed by its unit. -/
def Sect.insert (s : Sect) : List Sect → List Sect
  | [] => [s]
  | t :: ts => if s.unit < t.unit then s :: t :: ts else t :: s.insert ts

/-- The BENCH sections by bench number: the order in which the checks take them (log 8). -/
def Cont.benchSects (c : Cont) : List Sect := (c.ofKind 2).foldl (fun l s => s.insert l) []

/-- The bytes of a section. -/
def Cont.data (c : Cont) (s : Sect) : List Byte := bytesAt c.bytes s.off s.len

/-- The bytes of the one section of a kind; empty without one. -/
def Cont.the (c : Cont) (k : Nat) : List Byte :=
  match c.ofKind k with
  | [] => []
  | s :: _ => c.data s

/-- Cut run k of a CUTS section (R112). -/
def cutRunAt (bs : List Byte) (k : Nat) : CutRun :=
  let v := fieldLE bs (16 * k) 16
  { count := bitsOf v 0 32, length := bitsOf v 32 16 + 1, kerf := bitsOf v 48 13, slotTable := bitsOf v 64 16
    hint := bitsOf v 80 8, refresh := bitOf v 88, ckpt := bitOf v 89, swapOk := bitOf v 90, openOk := bitOf v 91
    exchange := bitsOf v 96 32 }

/-- The reserved bits of cut run k are zero. -/
def cutRunClean (bs : List Byte) (k : Nat) : Bool :=
  let v := fieldLE bs (16 * k) 16
  bitsOf v 61 3 == 0 && bitsOf v 92 4 == 0

/-- The cut runs. -/
def Cont.runs (c : Cont) : List CutRun := (List.range ((c.the 1).length / 16)).map (cutRunAt (c.the 1))

/-- Region k of a MEMPLAN section (R123). -/
def regionAt (bs : List Byte) (k : Nat) : Region :=
  let o := 32 * k
  ⟨fieldLE bs o 2, fieldLE bs (o + 2) 1 == 1, fieldLE bs (o + 3) 1, fieldLE bs (o + 4) 1, fieldLE bs (o + 8) 8, fieldLE bs (o + 16) 8⟩

/-- The regions. -/
def Cont.regions (c : Cont) : List Region := (List.range ((c.the 4).length / 32)).map (regionAt (c.the 4))

/-- Slot entry at byte o of a SLOTS section (R121). -/
def linkSlotAt (bs : List Byte) (o : Nat) : LinkSlot :=
  let v := fieldLE bs o 16
  ⟨bitsOf v 0 16, bitsOf v 16 16 + 1, bitsOf v 32 3, bitOf v 35, bitsOf v 36 4, bitsOf v 40 8, bitsOf v 48 16, bitsOf v 64 32,
    bitsOf v 96 16⟩

/-- Table count of a SLOTS section. -/
def slotTables (bs : List Byte) : Nat := if bs = [] then 0 else fieldLE bs 0 4
/-- Offset of table t. -/
def tableOff (bs : List Byte) (t : Nat) : Nat := fieldLE bs (4 + 4 * t) 4
/-- Entries of table t. -/
def tableCount (bs : List Byte) (t : Nat) : Nat := fieldLE bs (tableOff bs t) 4
/-- Table t. -/
def tableAt (bs : List Byte) (t : Nat) : List LinkSlot :=
  (List.range (tableCount bs t)).map (fun k => linkSlotAt bs (tableOff bs t + 4 + 16 * k))

/-- The slot tables. -/
def Cont.tables (c : Cont) : List (List LinkSlot) := (List.range (slotTables (c.the 3))).map (tableAt (c.the 3))

/-- A SLOTS section obeys the structure of R121. -/
def goodSlots (bs : List Byte) : Bool :=
  let t := slotTables bs
  let span := fun k => (tableOff bs k, tableOff bs k + 4 + 16 * tableCount bs k)
  decide (1 ≤ t ∧ t ≤ 1024 ∧ 4 + 4 * t ≤ bs.length) &&
  (List.range t).all (fun k => decide (tableOff bs k % 4 = 0 ∧ 4 + 4 * t ≤ (span k).1 ∧ (span k).2 ≤ bs.length)) &&
  (List.range t).all (fun k => (List.range k).all (fun m => decide ((span k).2 ≤ (span m).1 ∨ (span m).2 ≤ (span k).1))) &&
  decide (((List.range t).map (tableCount bs)).foldl (· + ·) 0 ≤ 16384)

/-- MEMSLOTS entry k (R224). -/
def memSlotAt (bs : List Byte) (k : Nat) : MemSlot :=
  let o := 32 * k
  ⟨fieldLE bs o 4, fieldLE bs (o + 4) 4, fieldLE bs (o + 8) 2, fieldLE bs (o + 10) 2, fieldLE bs (o + 12) 2 + 1,
    bitsOf (fieldLE bs (o + 14) 1) 0 4, bitsOf (fieldLE bs (o + 14) 1) 4 4⟩

/-- The MEMSLOTS entries of a stack. -/
def Cont.memslots (c : Cont) (stack : Nat) : List MemSlot :=
  match (c.ofKind 5).find? (fun s => s.unit == stack) with
  | none => []
  | some s => (List.range (s.len / 32)).map (memSlotAt (c.data s))

/-- Descriptor count of an EXCHANGE section. -/
def exchanges (bs : List Byte) : Nat := if bs = [] then 0 else fieldLE bs 0 4

/-- Exchange descriptor k (R134). -/
def exchangeAt (bs : List Byte) (k : Nat) : Exchange :=
  let o := 64 + 64 * k
  let n := fieldLE bs o 2
  let d := fieldLE bs (o + 0x14) 4
  { experts := n, tokens := fieldLE bs (o + 2) 2, k := fieldLE bs (o + 4) 1, spill := fieldLE bs (o + 5) 1 == 1
    spillExpert := fieldLE bs (o + 6) 2, capacity := fieldLE bs (o + 8) 2, spillCapacity := fieldLE bs (o + 10) 2
    rowLines := fieldLE bs (o + 12) 2, choiceLine := fieldLE bs (o + 14) 2, routeLine := fieldLE bs (o + 16) 2
    routeBench := fieldLE bs (o + 18) 2
    dest := (List.range n).map (fun e => (fieldLE bs (d + 8 * e) 2, fieldLE bs (d + 8 * e + 2) 1, fieldLE bs (d + 8 * e + 3) 2)) }

/-- An EXCHANGE section obeys the structure of R134. -/
def goodExchange (bs : List Byte) : Bool :=
  let d := exchanges bs
  decide (64 ≤ bs.length) && decide (1 ≤ d ∧ d ≤ 256) && (bytesAt bs 4 60).all (· == 0) && decide (64 + 64 * d ≤ bs.length) &&
  (List.range d).all (fun k =>
    let o := fieldLE bs (64 + 64 * k + 0x14) 4
    decide (64 + 64 * d ≤ o ∧ o + 8 * fieldLE bs (64 + 64 * k) 2 ≤ bs.length))

/-- The values of exchange descriptor k lie in the ranges of R134. -/
def goodDescriptor (bs : List Byte) (k : Nat) : Bool :=
  let e := exchangeAt bs k
  decide (1 ≤ e.experts ∧ e.experts ≤ 1024 ∧ 1 ≤ e.tokens ∧ e.tokens ≤ 4096 ∧ 1 ≤ e.k ∧ e.k ≤ 8) &&
  decide (fieldLE bs (64 + 64 * k + 5) 1 ≤ 1 ∧ e.spillExpert < e.experts ∧ 1 ≤ e.capacity ∧ e.capacity ≤ 4096) &&
  decide (e.spillCapacity ≤ 4096 ∧ 1 ≤ e.rowLines ∧ e.rowLines ≤ 1024 ∧ e.routeBench < 160) &&
  e.dest.all (fun d => decide (d.2.1 < 160))

/-! ### Refusals (R130) -/

/-- A refused fit: status and result. -/
abbrev Misfit := Nat × Nat

/-- The result of R130. -/
def misfit (status item part unit whr : Nat) : Misfit :=
  (status, item % 256 + part % 256 * 256 + unit % 65536 * 65536 + whr % 2 ^ 32 * 2 ^ 32)

/-- The first refusal that a list of checks finds: a truth value says that the check fails. -/
def firstBad : List (Bool × Misfit) → Option Misfit
  | [] => none
  | (b, m) :: t => if b then some m else firstBad t

/-! ### Step 1 (R541) -/

/-- Two sections share a byte. -/
def Sect.meets (a b : Sect) : Bool := decide (a.off < b.off + b.len ∧ b.off < a.off + a.len)

/-- The header and directory rows of R541. -/
def Cont.headerBad (c : Cont) (listed : Nat) : Option Misfit :=
  let at_ := fun o => misfit Status.badDescriptor 0x01 c.part 0 o
  firstBad [
    (c.le 0x10 8 != listed || decide (c.le 0x10 8 < 256 + 32 * c.le 0x18 2), at_ 0x10),
    (c.le 0 4 != 0x4C545543, at_ 0), (c.le 4 2 != 1, at_ 4), (c.le 6 2 != 256, at_ 6),
    (c.roles == 0 || decide (8 ≤ c.roles), at_ 0x0D), (decide (3 < c.part), at_ 0x0E), (decide (2 ≤ c.le 0x0F 1), at_ 0x0F),
    (c.le 0x18 2 == 0 || decide (512 < c.le 0x18 2), at_ 0x18), (c.plainSize == 0 || decide (512 < c.plainSize), at_ 0x1A),
    (decide (c.plainSize ≤ c.le 0x1C 2), at_ 0x1C), (c.cutCount == 0, at_ 0x20), (decide (c.cutCount ≤ c.loopStart), at_ 0x24),
    (decide (4096 ≤ c.stackMask), at_ 0x2A), (decide (64 ≤ c.linkMask), at_ 0x2C), (c.le 0xF0 16 != 0, at_ 0xF0)]

/-- A section's unit breaks R111. -/
def Cont.badUnit (c : Cont) (s : Sect) : Bool :=
  match s.kind with
  | 2 => !(decide (s.unit < 160) && bitOf c.clusterMask (clusterOf s.unit))
  | 5 => !(decide (s.unit < 12) && bitOf c.stackMask s.unit)
  | 6 => !(decide (s.unit < 16) && bitOf c.clusterMask s.unit)
  | 8 => !(c.regions.any (fun r => r.id == s.unit && r.init == 1))
  | _ => s.unit != 0

/-- A section's length or records break R541. -/
def Cont.badLength (c : Cont) (s : Sect) : Bool :=
  match s.kind with
  | 1 => s.len % 16 != 0 || decide (65536 < s.len)
  | 2 => s.len % 16 != 0
  | 3 => !goodSlots (c.data s)
  | 4 => s.len % 32 != 0 || decide (32768 < s.len)
  | 5 => s.len % 32 != 0 || decide (4096 * 32 < s.len)
  | 7 => !goodExchange (c.data s)
  | 8 => decide (2 ^ 32 < s.len)
  | _ => false

/-- The section goes beyond what R111 allows for its kind, or for its kind and unit. -/
def Cont.tooMany (c : Cont) (s : Sect) : Bool :=
  let one := s.kind == 1 || s.kind == 3 || s.kind == 4 || s.kind == 7
  c.sects.any (fun t => decide (t.idx < s.idx) && t.kind == s.kind && (one || t.unit == s.unit))

/-- The section rows of R541. -/
def Cont.sectionsBad (c : Cont) : Option Misfit :=
  let at_ := fun k => misfit Status.badDescriptor 0x02 c.part 0 k
  let total := c.le 0x10 8
  let row := fun (p : Sect → Bool) => (c.sects.find? p).map (fun s => at_ s.idx)
  let missing := fun k => misfit Status.badDescriptor 0x02 c.part k 0xFFFFFFFF
  row (fun s => s.rsv || s.off % 64 != 0 || decide (total < s.off + s.len))
    <|> row (fun s => decide (s.off < 256 + 32 * c.le 0x18 2 ∧ s.len ≠ 0) || c.sects.any (fun t => decide (t.idx < s.idx) && t.meets s))
    <|> row (fun s => s.kind == 0 || decide (8 < s.kind))
    <|> row c.tooMany
    <|> firstBad [((c.ofKind 1) == [], missing 1), ((c.ofKind 4) == [], missing 4), ((c.ofKind 3) == [] && c.linkMask != 0, missing 3)]
    <|> row c.badUnit
    <|> row c.badLength

/-! ### Steps 2 to 4 -/

/-- The container with 48 bytes at 0x30 zeroed. -/
def Cont.unhashed (c : Cont) : List Byte := c.bytes.take 0x30 ++ List.replicate 48 0 ++ c.bytes.drop 0x60

/-- Step 2: the two hashes. -/
def Cont.hashBad (c : Cont) : Option Misfit :=
  let at_ := fun o => misfit Status.integrity 0x01 c.part 0 o
  firstBad [(Crypto.sha384 c.unhashed != bytesAt c.bytes 0x30 48, at_ 0x30),
    (Crypto.sha384 (c.the 1) != bytesAt c.bytes 0xC0 48, at_ 0xC0)]

/-- Step 3: revisions against the running release. -/
def Cont.versionBad (c : Cont) (release : Nat) : Option Misfit :=
  let at_ := fun o => misfit Status.versionMismatch 0x01 c.part 0 o
  firstBad [(c.le 8 2 != 1, at_ 8), (c.le 0x0A 2 != 0xE9, at_ 0x0A), (decide (0xB1 < c.le 0x0C 1), at_ 0x0C),
    (decide (c.le 0x2E 2 < 0x300 ∨ release / 256 < c.le 0x2E 2), at_ 0x2E)]

/-- Step 4 for one container against the first and those before it. -/
def Cont.familyBad (c first : Cont) (before : List Cont) : Option Misfit :=
  let at_ := fun o => misfit Status.versionMismatch 0x01 c.part 0 o
  let differs := fun o => bytesAt c.bytes o 48 != bytesAt first.bytes o 48
  firstBad [(differs 0x60, at_ 0x60), (differs 0x90, at_ 0x90), (differs 0xC0, at_ 0xC0),
    (before.any (fun b => b.part == c.part), at_ 0x0E)]

/-! ### Steps 5 to 12 -/

/-- Population count of a byte's low bits. -/
def bitCount (n v : Nat) : Nat := (maskList n v).length

/-- Step 5: the partition, its clusters and its roles (R126, R147, R148). others names partitions whose Cache bit counts. -/
def State.partitionBad (s : State) (inst : Nat) (c : Cont) (otherCache : Bool) : Option Misfit :=
  let p := c.part
  let no := fun item unit => misfit Status.doesNotFit item p unit 0
  let x := s.part p
  if x.owner ≠ some inst then some (no 0x03 0)
  else match (maskList 16 c.clusterMask).find? (fun k => !bitOf x.clusters k) with
    | some k => some (no 0x05 k)
    | none =>
      if ¬ (maskList 3 c.roles).all (bitOf x.roles) ∨ (2 ≤ bitCount 3 c.roles ∧ 16 < c.plainSize)
          ∨ (bitOf c.roles 2 ∧ (otherCache ∨ ¬ c.regions.any (fun r => r.isPool c.roles))) then some (no 0x04 0)
      else none

/-- Bench b can be scheduled (step 6). -/
def State.benchFits (s : State) (b : Nat) : Bool :=
  s.flag (F.bncStatusPresent b) && !s.flag (F.bncStatusMappedOut b) && !s.flag (F.bncStatusMapPending b)

/-- Step 6: benches with a section and peer benches; the lowest missing one is named. -/
def State.benchesBad (s : State) (c : Cont) : Option Misfit :=
  let need := (c.ofKind 2).flatMap (fun t => t.unit :: peerBenches (c.data t))
  match need.filter (fun b => !s.benchFits b) with
  | [] => none
  | b :: t => some (misfit Status.doesNotFit 0x06 c.part (t.foldl min b) 0)

/-- Step 7: program memory and entry tables (R93, R118). -/
def Cont.programsBad (c : Cont) : Option Misfit :=
  (c.benchSects.find? (fun t => decide (65536 < t.len) || !goodEntries (c.data t))).map (fun t =>
    misfit Status.doesNotFit 0x07 c.part t.unit 0)

/-- Step 8: instructions (R542, R120). -/
def Cont.instructionsBad (c : Cont) : Option Misfit :=
  c.benchSects.findSome? (fun t =>
    (badProgramSlot t.unit (c.data t) c.runs).map (fun n =>
      misfit Status.badDescriptor 0x08 c.part t.unit (slotCut (c.data t) n)))

/-- Region k of a container is well formed: kinds, unit, init, alignment and identifier; reserved bytes are ignored
(00_scope.md R9). R541 has no row for one that is not: step 10 refuses it as a region that does not fit (DESIGN CHOICE,
log 25). -/
def regionClean (bs : List Byte) (k : Nat) (before : List Region) : Bool :=
  let r := regionAt bs k
  decide (fieldLE bs (32 * k + 2) 1 ≤ 1 ∧ r.unit < (if r.hbm then 12 else 4) ∧ r.init ≤ 3) && decide (r.addr % 65536 = 0 ∧ r.size % 65536 = 0 ∧ 65536 ≤ r.size)
    && !before.any (fun q => q.id == r.id)

/-- Two regions share memory. -/
def Region.meets (a b : Region) : Bool :=
  a.hbm == b.hbm && a.unit == b.unit && decide (a.addr < b.addr + b.size ∧ b.addr < a.addr + a.size)

/-- Same kind, unit, address and size. -/
def Region.same (a b : Region) : Bool := a.hbm == b.hbm && a.unit == b.unit && a.addr == b.addr && a.size == b.size

/-- Regions that partition p holds. -/
def State.heldRegions (s : State) (p : Nat) : List Region :=
  let x := s.part p
  (match x.list with
   | some l => l.regions
   | none => []) ++ x.retained

/-- A region fits (R124). stage counts the running set's memory as held. -/
def State.regionFits (s : State) (c : Cont) (stage : Bool) (others : List Region) (r : Region) : Bool :=
  let p := c.part
  decide (r.addr + r.size ≤ (if r.hbm then 2 ^ 36 else 2 ^ 31)) && (!r.hbm || bitOf c.stackMask r.unit)
    && (r.init != 1 || (c.ofKind 8).any (fun t => t.unit == r.id && decide (t.len ≤ r.size)))
    && (r.init != 3 || (s.heldRegions p).any r.same) && !others.any r.meets
    && r.granules.all (fun g =>
        let o := (s.granule r.memUnit g).owner
        o == none || (o == some p && (!stage || r.init == 3)))

/-- Step 10: stacks and regions. -/
def State.memoryBad (s : State) (c : Cont) (stage : Bool) (others : List Region) : Option Misfit :=
  match (maskList 12 c.stackMask).find? (fun k => !s.unitPresent (stackUnit k)) with
  | some k => some (misfit Status.doesNotFit 0x09 c.part k 0)
  | none =>
    let rs := c.regions
    ((List.range rs.length).find? (fun k =>
      !regionClean (c.the 4) k (rs.take k) || !s.regionFits c stage (others ++ rs.take k) (regionAt (c.the 4) k))).map (fun k =>
        let r := regionAt (c.the 4) k
        misfit Status.doesNotFit (if fieldLE (c.the 4) (32 * k + 2) 1 = 0 then 0x0A else 0x0B) c.part r.unit r.id)

/-- Step 11: links in service. -/
def State.linksBad (s : State) (c : Cont) : Option Misfit :=
  ((maskList 6 c.linkMask).find? (fun j => !s.serviceLinks.contains j)).map (fun j => misfit Status.doesNotFit 0x0C c.part j 0)

/-- Step 12: the Plain. -/
def State.plainBad (s : State) (c : Cont) : Option Misfit :=
  let want := if s.flag F.dvtPlainFormed then (s.fld F.dvtPlainPlainSize, s.fld F.dvtPlainMemberIndex, s.fld F.dvtPlainDiameter)
    else (1, 0, 0)
  if (c.plainSize, c.le 0x1C 2, c.le 0x1E 2) = want then none else some (misfit Status.doesNotFit 0x0D c.part 0 0)

/-! ### Step 13 (R112, R116, R226) -/

/-- The cut runs by themselves: counts, kerfs, reserved bits, kerf lengths for replays and refresh, then the sum. -/
def Cont.cutsBad (c : Cont) : Option Misfit :=
  let bs := c.the 1
  let rs := withFirst 0 c.runs
  match (List.range rs.length).find? (fun k =>
      let r := cutRunAt bs k
      r.count == 0 || decide (r.kerf < 16 ∨ 4096 < r.kerf) || !cutRunClean bs k
        || (decide (r.kerf < 128) && (c.tables.getD r.slotTable []) != []) || (decide (r.kerf < 48) && r.refresh)) with
  | some k => some (misfit Status.doesNotFit 0x0E c.part 0 (rs.getD k (0, .none)).1)
  | none =>
    if (c.runs.map (fun r => r.count)).foldl (· + ·) 0 ≠ c.cutCount then some (misfit Status.doesNotFit 0x01 c.part 0 0x20)
    else none

/-- A MEMSLOTS entry covers a cut. -/
def MemSlot.covers (m : MemSlot) (cut : Nat) : Bool :=
  decide (m.first ≤ cut ∧ cut ≤ m.last) && (cut - m.first) % (max m.step 1) == 0

/-- The refresh opportunities of a cut and its kerf: ticks from the cut's start, rising. -/
def opportunities (ms : List MemSlot) (r : CutRun) (cut : Nat) : List Nat :=
  let wins := (ms.filter (fun m => m.kind == 0 && m.covers cut)).foldl (fun l m => insertNat m.start l) []
  wins ++ (if r.refresh then [r.length + 12] else [])

/-- Ticks since the last opportunity at the end of a cut with its kerf, from those at its start; none where the band 2
interval passes inside. -/
def refreshCut (ms : List MemSlot) (r : CutRun) (cut since : Nat) : Option Nat :=
  let opps := opportunities ms r cut
  let walk := opps.foldl (fun (acc : Option (Nat × Nat)) t =>
    match acc with
    | none => none
    | some (base, at_) => if 243 < base + (t - at_) then none else some (0, t)) (some (since, 0))
  match walk with
  | none => none
  | some (base, at_) =>
    let g := base + (r.length + r.kerf - at_)
    if 243 < g then none else some g

/-- The walk over cuts from a position on: the cut in which the limit passes, or what is left at the end. With stop it ends
at the first opportunity. -/
def refreshWalk (ms : List MemSlot) (runs : List CutRun) (stop : Bool) (next : Nat → Nat) : Nat → Nat → Nat → Except Nat Nat
  | 0, _, since => .ok since
  | fuel + 1, cut, since =>
    let r := cutRunOf runs cut
    match refreshCut ms r cut since with
    | none =>
      if stop then
        match opportunities ms r cut with
        | t :: _ => if since + t ≤ 243 then .ok 0 else .error cut
        | [] => .error cut
      else .error cut
    | some g => if stop && opportunities ms r cut != [] then .ok 0 else refreshWalk ms runs stop next fuel (next cut) g

/-- The refresh rule of R116 for one stack: the first cut that breaks it, along the run and across the wrap. Every cut with
its kerf takes a tick at least, so 244 cuts without an opportunity pass the limit. -/
def Cont.refreshBad (c : Cont) (stack : Nat) : Option Nat :=
  let ms := c.memslots stack
  match refreshWalk ms c.runs false (· + 1) c.cutCount 0 0 with
  | .error cut => some cut
  | .ok g => match refreshWalk ms c.runs true (fun k => if k + 1 = c.cutCount then c.loopStart else k + 1) 244 c.loopStart g with
    | .error cut => some cut
    | .ok _ => none

/-- MEMSLOTS entry m breaks R224 or R226 in a cut: it is too short, runs past the cut, or is malformed (DESIGN CHOICE, log
25: refused like the others). -/
def memSlotBad (runs : List (Nat × CutRun)) (m : MemSlot) : Option Nat :=
  if m.last < m.first ∨ m.step = 0 ∨ 2 < m.kind ∨ (m.kind = 0 ∧ m.ticks < 32) ∨ (if m.kind = 2 then 7 < m.spline else m.spline ≠ 0) then
    some m.first
  else runs.findSome? (fun (n, r) => if r.length < m.start + m.ticks then progHit m.first m.last m.step n (n + r.count) else none)

/-- The first cut below n that both entries cover: their progressions meet within the step of b. -/
def MemSlot.share (a b : MemSlot) (n : Nat) : Option Nat :=
  let lo := max a.first b.first
  let c0 := a.first + ceilDiv (lo - a.first) (max a.step 1) * max a.step 1
  ((List.range (max b.step 1)).map (fun j => c0 + j * max a.step 1)).find? (fun cut => decide (cut < n) && a.covers cut && b.covers cut)

/-- A refresh window overlaps a stack reservation in a cut (R226). -/
def windowClash (ms : List MemSlot) (n : Nat) : Option Nat :=
  (ms.filter (fun m => m.kind == 0)).findSome? (fun a =>
    (ms.filter (fun m => m.kind == 1)).findSome? (fun b =>
      if a.start < b.start + b.ticks ∧ b.start < a.start + a.ticks then a.share b n else none))

/-- Step 13 for MEMSLOTS. -/
def Cont.memslotsBad (c : Cont) : Option Misfit :=
  let eachStack := fun (f : Nat → Option Nat) =>
    (maskList 12 c.stackMask).findSome? (fun k => (f k).map (fun cut => misfit Status.doesNotFit 0x0F c.part k cut))
  eachStack (fun k => (c.memslots k).findSome? (memSlotBad (withFirst 0 c.runs)) <|> windowClash (c.memslots k) c.cutCount)
    <|> eachStack c.refreshBad

/-! ### Step 14 (R121, R122, R134, R138, R173, R546) -/

/-- Cut runs that use table t. -/
def Cont.usesTable (c : Cont) (t : Nat) : List CutRun := c.runs.filter (fun r => r.slotTable == t)

/-- Slot entry e of a table by itself, given the lengths of the cuts that use the table; the bench and line of a forwarding
pair are ignored (06_plain.md R174). -/
def linkSlotGood (links : Nat) (lengths : List Nat) (forwards : Bool) (e : LinkSlot) : Bool :=
  decide (e.link < 6) && bitOf links e.link && decide (e.kind ≤ 3 ∧ e.bytes ≤ 400 * e.ticks ∧ (forwards ∨ e.bench < 160))
    && (if e.rx then decide (113 ≤ e.start) else true)
    && lengths.all (fun n => decide (e.start + e.ticks + (if e.rx then 0 else 113) ≤ n))

/-- Two slots of a table are a forwarding pair (06_plain.md R174). -/
def forwardsWith (a b : LinkSlot) : Bool :=
  a.rx != b.rx && a.link != b.link && a.tag == b.tag && a.start == b.start && a.ticks == b.ticks

/-- A fault of table t: the lowest link that an entry breaks. -/
def Cont.tableBad (c : Cont) (t : Nat) : Option Nat :=
  let bs := c.the 3
  let es := tableAt bs t
  let lens := (c.usesTable t).map (fun r => r.length)
  let bad := (List.range es.length).filter (fun k =>
    let e := es.getD k ⟨0, 1, 7, false, 15, 0, 0, 0, 0⟩
    !linkSlotGood c.linkMask lens (es.any (forwardsWith e)) e
      || (es.take k).any (fun q => q.link == e.link && q.rx == e.rx
            && decide (q.start < e.start + e.ticks ∧ e.start < q.start + q.ticks)))
  match bad.map (fun k => (es.getD k ⟨0, 1, 7, false, 15, 0, 0, 0, 0⟩).link) with
  | [] => none
  | j :: js => some (js.foldl min j)

/-- A Dovetail MOV of bench b matches a slot of the table. -/
def movMatches (b : Nat) (es : List LinkSlot) (i : Ins) (x2 : Slot) : Bool :=
  let t := movShape 3 i.w i.x x2
  es.any (fun e => e.link == slotBits i.x 0 3 && e.tag == slotBits i.x 16 16 && e.rx == t.toLocal && e.bench == b && e.line == t.line
    && t.run == ceilDiv e.bytes 64 && t.runs1 == 1 && t.runs2 == 1 && t.far1 == 0 && t.far2 == 0)

/-- A Dovetail MOV that matches no slot of its cut's table (R546): the link and the table. -/
def Cont.movBad (c : Cont) : Option (Nat × Nat) :=
  (c.ofKind 2).findSome? (fun t =>
    let bs := c.data t
    (List.range (sectEntries bs)).findSome? (fun k =>
      let (_, _, _, start) := sectEntry bs k
      let is : List Ins := match program bs (sectSlots bs + 1) start with
        | .ok is => is.flatMap (fun p => p.ins :: p.body)
        | .error _ => []
      let dove := is.filter (fun i =>
        match i.op with
        | .mov 3 => true
        | .mov 4 => bitOf i.w.c.toNat 2
        | _ => false)
      (withFirst 0 c.runs).findSome? (fun (n, r) =>
        if ¬ entryRuns bs k n r.count then none
        else
          (dove.find? (fun i => !movMatches t.unit (c.tables.getD r.slotTable []) i (BitVec.ofNat 128 (sectSlot bs (i.slot + 2))))).map
            (fun i => (slotBits i.x 0 3, r.slotTable)))))

/-- The lines that the slots of expert e fill, full or empty (R138). -/
def Exchange.lines (x : Exchange) (e : Nat) : Nat :=
  (x.capacity + (if e = x.spillExpert then x.spillCapacity else 0)) * x.rowLines

/-- An exchange descriptor whose rows for other members do not fit the transmit slots of kind 3 in the slot table of a cut
run that uses it (R138; how they are held against each other is DEDUCED, log 25). -/
def Cont.rowsBad (c : Cont) : Option Nat :=
  (c.runs.find? (fun r => r.exchange != 0xFFFFFFFF &&
    (let x := exchangeAt (c.the 7) r.exchange
     let need : List Nat := (List.range x.experts).map (fun e => if (x.dest.getD e (0, 0, 0)).1 = c.le 0x1C 2 then 0 else 64 * x.lines e)
     let held : List Nat := ((c.tables.getD r.slotTable []).filter (fun t => !t.rx && t.kind == 3)).map LinkSlot.bytes
     decide (held.sum < need.sum)))).map CutRun.exchange

/-- Step 14. -/
def Cont.step14Bad (c : Cont) : Option Misfit :=
  let no := fun item unit whr => misfit Status.doesNotFit item c.part unit whr
  let nt := slotTables (c.the 3)
  let nx := exchanges (c.the 7)
  (c.runs.find? (fun r => r.slotTable != 0xFFFF && decide (nt ≤ r.slotTable))).map (fun r => no 0x10 0 r.slotTable)
    <|> (List.range nt).findSome? (fun t => (c.tableBad t).map (fun j => no 0x10 j t))
    <|> c.movBad.map (fun p => no 0x10 p.1 p.2)
    <|> (c.runs.find? (fun r => r.exchange != 0xFFFFFFFF && decide (nx ≤ r.exchange))).map (fun r => no 0x11 0 r.exchange)
    <|> ((List.range nx).find? (fun k => !goodDescriptor (c.the 7) k)).map (fun k => no 0x11 0 k)
    <|> c.rowsBad.map (fun k => no 0x11 0 k)
    <|> ((c.ofKind 6).find? (fun t => decide (49152 < t.len))).map (fun t => no 0x12 t.unit 0)

/-! ### The fit -/

/-- A fitted container. -/
def Cont.cutlist (c : Cont) : Cutlist :=
  let pairs := fun k => (c.ofKind k).map (fun t => (t.unit, c.data t))
  { roles := c.roles, partition := c.part, ckptCapable := bitOf (c.le 0x0F 1) 0, plainSize := c.plainSize
    memberIndex := c.le 0x1C 2, diameter := c.le 0x1E 2, cutCount := c.cutCount, loopStart := c.loopStart
    clusterMask := c.clusterMask, stackMask := c.stackMask, linkMask := c.linkMask, hash := bytesAt c.bytes 0x30 48
    family := bytesAt c.bytes 0x60 48, drawing := bytesAt c.bytes 0x90 48, cutRunHash := bytesAt c.bytes 0xC0 48
    runs := c.runs, benches := pairs 2, tables := c.tables, regions := c.regions
    memslots := (c.ofKind 5).map (fun t => (t.unit, c.memslots t.unit)), windows := pairs 6
    exchange := (List.range (exchanges (c.the 7))).map (exchangeAt (c.the 7)), images := pairs 8 }

/-- The Cache bit is set in a cutlist of a partition other than p: earlier in the set, or on the device (05_roles.md
R147), loaded or staged; what a LOAD replaces does not count. -/
def State.otherCache (s : State) (stage : Bool) (named : List Nat) (before : List Cont) (p : Nat) : Bool :=
  before.any (fun c => bitOf c.roles 2) ||
  allParts.any (fun q => q != p && (stage || !named.contains q) && match (s.part q).list with
    | some l => bitOf l.roles 2
    | none => false)
  || allParts.any (fun q => q != p && match (s.part q).staged with
    | some l => bitOf l.roles 2
    | none => false)

/-- Applies a check to each container with those before it. -/
def eachCont (f : List Cont → Cont → Option Misfit) : List Cont → List Cont → Option Misfit
  | _, [] => none
  | before, c :: t =>
    match f before c with
    | some m => some m
    | none => eachCont f (before ++ [c]) t

/-- The checks of steps 1 to 14, each over the whole member set; listed gives the lengths of the member table. The set
of partitions must be one that mask permits; where it is not, the operation meets a state that does not accept it
(R126), which is found with the partitions in step 5. -/
def State.fit (s : State) (inst : Nat) (stage : Bool) (cs : List Cont) (listed : List Nat) (accept : List Nat → Bool) : Option Misfit :=
  let all := fun (f : Cont → Option Misfit) => eachCont (fun _ c => f c) [] cs
  let first := cs.getD 0 ⟨[]⟩
  eachCont (fun b c => c.headerBad (listed.getD b.length 0) <|> c.sectionsBad) [] cs
    <|> all Cont.hashBad
    <|> all (fun c => c.versionBad s.runningRelease)
    <|> eachCont (fun b c => c.familyBad first b) [] cs
    <|> eachCont (fun b c => s.partitionBad inst c (s.otherCache stage (cs.map Cont.part) b c.part)) [] cs
    <|> (if accept (cs.map Cont.part) then none else some (Status.badDescriptor, 0))
    <|> all s.benchesBad
    <|> all Cont.programsBad
    <|> all Cont.instructionsBad
    <|> all (fun c => if 20 < c.le 0x2D 1 then some (misfit Status.badDescriptor 0x13 c.part 0 0) else none)
    <|> eachCont (fun b c => s.memoryBad c stage (b.flatMap Cont.regions)) [] cs
    <|> all s.linksBad
    <|> all s.plainBad
    <|> all (fun c => c.cutsBad <|> c.memslotsBad)
    <|> all Cont.step14Bad

/-! ### Commit (step 15; R125, R159, R201; 09_firmware.md R277) -/

/-- The tenant region of a control core: the WINDOW section over zeroes. -/
def State.loadWindow (s : State) (c : Nat) (bytes : List Byte) : State :=
  let x := s.core (5 + c)
  s.setCore (5 + c) { x with
    tcm := Memory.write (Memory.zero x.tcm 0x14000 0xC000) 0x14000 bytes
    tcmUe := x.tcmUe.filter (fun w => !decide (0x14000 ≤ 8 * w ∧ 8 * w < 0x20000)), tenant := true }

/-- A region that was a page pool of the cutlist p held, or is retained as one. -/
def State.wasPool (s : State) (p : Nat) (r : Region) : Bool :=
  r.hbm && r.granules.all (fun g => (s.granule r.memUnit g).pool && (s.granule r.memUnit g).owner == some p)

/-- What a region holds at the start of its cutlist: zeros for init 0, its image for init 1 (R125). -/
def State.fillRegion (s : State) (images : List (Nat × List Byte)) (r : Region) : State :=
  if r.init = 0 then s.zeroRegion r
  else if r.init = 1 then
    let s := s.zeroRegion r
    let img := ((images.find? (fun x => x.1 == r.id)).map Prod.snd).getD []
    let pad := img ++ List.replicate ((64 - img.length % 64) % 64) 0
    (s.devWrite .host .firmware (devAddrOf r.memUnit r.addr) pad).2
  else s

/-- The regions of a cutlist at its start (R125). -/
def State.fillList (s : State) (l : Cutlist) : State := l.regions.foldl (fun s r => s.fillRegion l.images r) s

/-- One region of a new cutlist is taken, and filled once already when it is committed (DESIGN CHOICE, log 25). -/
def State.takeRegion (s : State) (p roles : Nat) (images : List (Nat × List Byte)) (r : Region) : State :=
  let pool := r.isPool roles
  let keep := pool && r.init == 3 && s.wasPool p r
  (s.holdRegion p pool keep r).fillRegion images r

/-- The memory of partition p that the new regions do not name is zeroized and given up. -/
def State.dropOld (s : State) (old new : List Region) : State :=
  (old.foldl (fun s r =>
    r.granules.foldl (fun s g =>
      if new.any (fun n => n.memUnit == r.memUnit && decide (n.addr ≤ 65536 * g ∧ 65536 * g < n.addr + n.size)) then s
      else (s.zeroRange r.memUnit (65536 * g) 65536).setGranule r.memUnit g Granule.init) s) s).pruneRegs

/-- Bench programs of a cutlist; a bench without a section holds no entry (R119). -/
def State.loadPrograms (s : State) (clusters : Nat) (l : Cutlist) : State :=
  (maskBenches clusters).foldl (fun s b =>
    s.setBench b { s.bench b with prog := Memory.write [] 0 (((l.benches.find? (fun x => x.1 == b)).map Prod.snd).getD []) }) s

/-- Window routines of a cutlist. -/
def State.loadWindows (s : State) (clusters : Nat) (l : Cutlist) : State :=
  (maskList 16 clusters).foldl (fun s c => s.loadWindow c (((l.windows.find? (fun x => x.1 == c)).map Prod.snd).getD [])) s

/-- The memory of partition p goes over to a cutlist's regions. -/
def State.takeMemory (s : State) (p : Nat) (l : Cutlist) : State :=
  let s := s.dropOld (s.heldRegions p) l.regions
  l.regions.foldl (fun s r => s.takeRegion p l.roles l.images r) s

/-- The stacks that a cutlist names leave self-refresh (07_memory.md R223). -/
def State.wakeStacks (s : State) (l : Cutlist) : State :=
  (maskList 12 l.stackMask).foldl (fun s k => s.setFlag (F.memStatusSelfRefresh k) false) s

/-- Committing one fitted cutlist to its partition in place of what it held. -/
def State.commitList (s : State) (l : Cutlist) : State :=
  let p := l.partition
  let s := (s.wakeStacks l).takeMemory p l
  let s := s.loadPrograms (s.part p).clusters l
  let s := s.loadWindows (s.part p).clusters l
  s.setPart p { s.part p with state := .loaded, list := some l, staged := none, retained := [], halted := false }

/-- A staged cutlist's programs lie in the staging halves, and its regions are held (R140). -/
def State.stageList (s : State) (l : Cutlist) : State :=
  let p := l.partition
  let s := (maskBenches (s.part p).clusters).foldl (fun s b =>
    s.setBench b { s.bench b with
      staging := Memory.write [] 0 (((l.benches.find? (fun x => x.1 == b)).map Prod.snd).getD []) }) s
  let s := (l.regions.filter (fun r => r.init != 3)).foldl (fun s r => s.takeRegion p l.roles l.images r) (s.wakeStacks l)
  s.setPart p { s.part p with state := .staged, staged := some l }

/-- A staging is given up: the regions that only it holds are zeroized and free again (R142). -/
def State.unstage (s : State) (p : Nat) : State :=
  match (s.part p).staged with
  | none => s
  | some l =>
    let s := (l.regions.filter (fun r => r.init != 3)).foldl (fun s r => (s.zeroRegion r).dropRegion r) s
    let s := s.pruneRegs
    let s := (maskBenches (s.part p).clusters).foldl (fun s b => s.setBench b { s.bench b with staging := [] }) s
    s.setPart p { s.part p with state := if (s.part p).state = .staged then .running else (s.part p).state, staged := none }

/-- A partition gives its cutlist up (R126, R201, R277): its memory is unowned, and zeroized at once, which no one can
tell from later (DEDUCED, log 8); programs and window routines are gone. -/
def State.unloadPart (s : State) (p : Nat) : State :=
  let s := s.unstage p
  let s := s.dropOld (s.heldRegions p) []
  let cl := (s.part p).clusters
  let s := (maskBenches cl).foldl (fun s b => s.setBench b { s.bench b with prog := [] }) s
  let s := (maskList 16 cl).foldl (fun s c => s.loadWindow c []) s
  s.setPart p { s.part p with state := .empty, mates := 0, list := none, staged := none, retained := [], halted := false }

end Sys2Proof.Machine
end

