-- ==== Sys2Proof/Machine/OpsPages.lean ====
section
/-! DEFINITION. Page pools (05_roles.md R159 to R161; 07_memory.md R219): what a page commit changes and when it applies. -/

namespace Sys2Proof.Machine

/-- Kerf count of the first kerf after this moment (R133, R160). -/
def State.nextKerf (s : State) : Nat :=
  if s.run.phase.inKerf then s.run.kerfs + 1
  else if s.run.phase = .armed ∧ ¬ s.run.resuming then 0
  else s.run.kerfs

/-- The region of a commit's pool as the partition's cutlist holds it. -/
def State.poolRegion (s : State) (p id : Nat) : Option Region :=
  match (s.part p).list with
  | none => none
  | some l => l.regions.find? (fun r => r.id == id && r.isPool l.roles)

/-- The granules of a commit. -/
def PageCommit.granules (c : PageCommit) : List Nat := (List.range c.count).map (fun i => c.first + i)

/-- The permitted transitions of R160. -/
def goodMove (old new : Nat) : Bool :=
  (old == 0 && new == 1) || (old == 1 && new == 2) || (old == 1 && new == 0) || (old == 2 && new == 0)

/-- One slot changes its state; a slot that becomes FREE takes a new generation, reads as zero and is rewritten (R161,
R219). -/
def State.moveSlot (s : State) (u g new : Nat) : State :=
  let x := s.granule u g
  if new = 0 then
    (s.zeroRange u (65536 * g) 65536).setGranule u g { x with pstate := 0, gen := (x.gen + 1) % 256, rewriting := true }
  else s.setGranule u g { x with pstate := new }

/-- Applying one commit: BAD_DESCRIPTOR where a slot does not permit the move, or is no page slot any more because its pool
has been given up meanwhile (DESIGN CHOICE, log 25), otherwise OK. -/
def State.applyCommit (s : State) (c : PageCommit) : State :=
  if c.granules.all (fun g => (s.granule c.unit g).pool && goodMove (s.granule c.unit g).pstate c.target) then
    (c.granules.foldl (fun s g => s.moveSlot c.unit g c.target) s).complete c.op Status.ok 0
  else s.complete c.op Status.badDescriptor 0

/-- A commit to FILLING waits for a rewrite of one of its slots (R219). -/
def State.waitsRewrite (s : State) (c : PageCommit) : Bool :=
  c.target == 1 && c.granules.any (fun g => (s.granule c.unit g).pstate == 0 && (s.granule c.unit g).rewriting)

/-- A commit waits: for its first kerf where kerfs occur, for a rewrite, or while its partition is STOPPED (R160, R219). -/
def State.commitWaits (s : State) (c : PageCommit) : Bool :=
  (s.scheduled && decide (s.run.kerfs < c.kerf)) || s.waitsRewrite c || (s.part c.part).state == .stopped

/-- The fetched commits apply in fetch order (R160); those that wait stay, and later commits to their slots behind
them. -/
def applyCommits : List PageCommit → List (Nat × Nat) → State → List PageCommit × State
  | [], _, s => ([], s)
  | c :: t, held, s =>
    let mine := c.granules.map (fun g => (c.unit, g))
    if s.commitWaits c ∨ mine.any held.contains then
      let (rest, s) := applyCommits t (held ++ mine) s
      (c :: rest, s)
    else applyCommits t held (s.applyCommit c)

/-- Every commit that may apply now applies. -/
def State.runCommits (s : State) : State :=
  let (rest, s) := applyCommits s.run.commits [] s
  { s with run := { s.run with commits := rest } }

end Sys2Proof.Machine
end

