-- ==== Sys2Proof/Machine/Kerf.lean ====
section
/-! DEFINITION. The schedule events up to the Commit phase (04_cutlists.md R114; 06_plain.md R181, R188, R194), and the
stretch latch (06_plain.md R196; 18_power.md R485 to R488). -/

namespace Sys2Proof.Machine

/-- A link at the start of a run from LOADED: no flit is lost, no seal has come and none has differed (R191, R193). -/
def Link.newRun (l : Link) : Link :=
  { l with seals := [], early := [], missed := [], lost := [], unrestored := [], failAt := none, diverged := false, coeffReq := l.coeffReq.map (fun p => (0, p.2)) }

/-- RUN_START (R188, R132): at the computed tick the partitions of the member set become RUNNING and the first cut is
due. At a start from LOADED the pass, cut, kerf and epoch counts and the mover token and synchronization counters are
0, the result buffers are zero (R87, R139, R259), and the regions hold what their init codes say (R125). Every named stack is out of self-refresh (07_memory.md R223),
and one refresh step on it has just ended (R220). -/
def execRunStart (s : State) : Host.Outcome State Fault Refusal :=
  .next (
    if s.run.phase = .armed then
      let s := s.reachTick s.run.firstTick
      let fresh := !s.run.resuming
      let parts := s.setParts
      let s := if fresh then
          (parts.flatMap (fun p => maskBenches (s.part p).clusters)).foldl (fun s b =>
            s.setBench b { s.bench b with tokens := 0, prescan := [], entries := [], entryFault := [], flight := [] }) s
        else s
      let s := if fresh then
          (parts.flatMap (fun p => maskList 16 (s.part p).clusters)).foldl (fun s c => s.setCluster c { s.cluster c with sync := [] }) s
        else s
      let s := if fresh then (parts.filterMap (fun p => (s.part p).list)).foldl State.fillList s else s
      let s := parts.foldl (fun s p => s.setPart p { s.part p with state := .running }) s
      let s := (List.range 12).foldl (fun s k =>
        if s.setParts.any (fun p => ((s.part p).list.map (fun l => bitOf l.stackMask k)).getD false) then
          (s.setFlag (F.memStatusSelfRefresh k) false).setMemUnit (stackUnit k) { s.memUnit (stackUnit k) with refreshAt := s.run.firstTick - 30 }
        else s) s
      let r := s.run
      let s := { s with
        run := { r with
          phase := .start, since := r.firstTick, resuming := false
          pass := if fresh then 0 else r.pass, cut := if fresh then 0 else r.cut
          kerfs := if fresh then 0 else r.kerfs, epoch := if fresh then 0 else r.epoch
          marks := if fresh then [] else r.marks, ckptAt := if fresh then none else r.ckptAt
          origin := if fresh then some r.firstTick else r.origin.or (some r.firstTick)
          commits := if fresh then r.commits.map (fun (c : PageCommit) => { c with kerf := 0 }) else r.commits }
        pwr := { s.pwr with energy := if fresh then [] else s.pwr.energy, latch := none }
        plain := if fresh then { s.plain with stretch := 0, stretchMax := 0 } else s.plain }
      let s := if fresh then (List.range 6).foldl (fun s j => s.setLink j (s.link j).newRun) s else s
      (s.setFlag F.dvtPlainRunning true).settleLow
    else s)

/-- CUT_START (R96, R119): each sequencer of the running partitions starts the cut's program; line 3 of the control
cores asserts (R250). -/
def execCutStart (s : State) : Host.Outcome State Fault Refusal :=
  .next (
    if s.run.phase = .start then
      let s := s.reachTick s.run.since
      let s := s.runningBenches.foldl State.startBench s
      let s := (List.range 6).foldl (fun s j => s.setLink j ((s.link j).newCut s.kerfTick)) s
      let s := { s with run := { s.run with phase := .cut } }
      s.raiseControl 3
    else s)

/-- KERF_START (R114, R98): the cut ends; a bench that still runs its program raises CUT_OVERRUN. Lines of the control,
power and scheduler cores assert (R250, R276). -/
def execKerfStart (s : State) : Host.Outcome State Fault Refusal :=
  .next (
    match s.run.phase, s.schedule with
    | .cut, some l =>
      let at_ := s.run.since + (l.cutRun s.run.cut).length
      let s := s.reachTick at_
      let s := s.serviceLinks.foldl State.flushNotices s
      let s := ({ s with run := { s.run with phase := .drain, since := at_, drainAt := s.now } } : State).markKerf at_
      let s := s.serviceLinks.foldl State.flushControl s
      let s := s.runningBenches.foldl (fun s b => if s.flag (F.bncStatusRunning b) then s.faultBench b 1 [] else s) s
      ((s.raiseControl 4).raiseFw 1 0).raiseFw 2 2
    | _, _ => s)

/-- The member's tick phase moves toward its parent's by at most 1/16 tick, 4/64 (R182). -/
def slewStep (x : Int) : Int := if 4 < x then x - 4 else if x < -4 then x + 4 else 0

/-- A fault that names the neighbour on link j. -/
def State.peerTrouble (s : State) (cause detail j : Nat) : Trouble :=
  let m := s.fld (F.dvtLinkStatusPeerMember j)
  ⟨0, cause, detail, .peer m, m⟩

/-- The neighbour on link j differs, in its seal or by more than 2 ticks (R182, R191): cause DIVERGE. -/
def State.differs (s : State) (j : Nat) : State :=
  (s.setLink j { s.link j with diverged := true }).raiseHalt (s.peerTrouble 0x04 0 j)

/-- A seal of link j is compared with the member's own (R191): a mismatch is DIVERGE. -/
def State.compareSeal (s : State) (j : Nat) (own : Nat) (f : SealFlit) : State :=
  if f.sealVal.toNat = own then s else s.differs j

/-- KERF_SEAL (R181, R189): at kerf tick 4 the seal flits leave; seals that came early are compared; the tick phase is
slewed. -/
def execKerfSeal (s : State) : Host.Outcome State Fault Refusal :=
  .next (
    if s.run.phase = .drain then
      let s := s.reachTick (s.run.since + 4)
      let own := s.seal
      let s := if s.inPlain then s.sendSeals else s
      let s := { s with
        run := { s.run with phase := .sealed }
        plain := { s.plain with slew := slewStep s.plain.slew } }
      (List.range 6).foldl (fun s j =>
        let (now, later) := (s.link j).early.partition (fun f => f.kerf.toNat == s.run.kerfs)
        now.foldl (fun s f => s.compareSeal j own f) (s.setLink j { s.link j with early := later })) (s.markSeal own).endBefore
    else s)

/-- KERF_SERVICE (R114): replays of held flits leave and failed HBM lines are rewritten with poison (R176, R215). -/
def execKerfService (s : State) : Host.Outcome State Fault Refusal :=
  .next (
    if s.run.phase = .sealed then
      let s := s.reachTick (s.run.since + 12)
      let s := s.serviceLinks.foldl State.replayLink s
      let s := s.rewritePoison
      { s with run := { s.run with phase := .service } }
    else s)

/-- The earliest kerf whose seal has not come on link j and whose deadline, kerf tick 256, has not expired (R194). -/
def State.sealDeadline (s : State) (j : Nat) : Option (Nat × Nat) :=
  (s.run.marks.reverse.find? (fun m => !(s.link j).seals.contains m.kerf && !(s.link j).missed.contains m.kerf)).map (fun m => (m.kerf, m.start + 256))

/-- CUT_DEADLINE_EXPIRY (R194): a seal has not come by kerf tick 256, which may lie behind the kerf's end, or a valley's
Commit report by the kerf's last tick: cause HANG with the silent neighbour or valley. The kerf may be the last of a run that has
ended. -/
def execCutDeadlineExpiry (w : Silent) (s : State) : Host.Outcome State Fault Refusal :=
  .next (
    match w with
    | .neighbour j =>
      (match s.sealDeadline j with
      | none => s
      | some (k, t) =>
        if s.serviceLinks.contains j ∧ s.inPlain ∧ (¬ s.scheduled ∨ s.expiresAt t) then
          let s := s.reachTick t
          (s.setLink j { s.link j with missed := (k :: (s.link j).missed).take keptMarks }).raiseHalt
            (s.peerTrouble 0x03 0xFF j)
        else s)
    | .valley v =>
      let t := s.run.since + s.kerfLength - 1
      if s.scheduled ∧ s.run.phase.inKerf ∧ s.expiresAt t then (s.reachTick t).raiseHalt ⟨1, 0x03, v, .valley v, 0⟩ else s)

/-! ### The stretch latch -/

/-- The sensors of R485. -/
def limitSensors : List Nat := List.range 20 ++ [21, 22]

/-- Array power in W (R484). -/
def State.arrayWatts (s : State) : Nat := if s.fld F.glbIdVariant = 1 then 594 else 660

/-- Mean voltage target in mV of the cluster valleys (R484). -/
def State.meanTarget (s : State) : Rat :=
  (((List.range 16).map (fun c => s.fld (F.pwrVtargetMv (valleyOf c)))).sum : Nat) / 16

/-- Predicted energy in uJ of the cut at (pass, cut), as a rational (R484). -/
def State.cutEnergy (s : State) (l : Cutlist) (p : PowerSample) (cut : Nat) : Rat :=
  match Tab.get 0 s.pwr.energy cut with
  | 0 =>
    let r := l.cutRun cut
    let v : Rat := s.meanTarget / 750
    ((p.restW : Rat) + (s.arrayWatts : Rat) * (r.hint : Rat) / 255 * v * v) * (r.length : Rat) / 250
  | e => (e : Rat)

/-- Energy and ticks of n cuts with their kerfs from a position. -/
def State.aheadEnergy (s : State) (l : Cutlist) (p : PowerSample) : Nat → Nat → Nat → Rat × Nat
  | 0, _, _ => (0, 0)
  | n + 1, pass, cut =>
    let (pass', cut') := l.nextPos pass cut
    let (e, t) := s.aheadEnergy l p n pass' cut'
    (e + s.cutEnergy l p cut, t + (l.cutRun cut).length + (l.cutRun cut).kerf)

/-- The position n cuts later. -/
def Cutlist.ahead (l : Cutlist) : Nat → Nat → Nat → Nat × Nat
  | 0, pass, cut => (pass, cut)
  | n + 1, pass, cut => let (p, c) := l.nextPos pass cut; l.ahead n p c

/-- The energy in uJ by which the period since the run's last latch lay above the cap that was in force (R486). -/
def State.excess (s : State) (p : PowerSample) : Rat :=
  match s.pwr.latch with
  | none => 0
  | some (t, cap) => ((p.periodW - cap : Nat) : Rat) * ((s.plain.tick - t : Nat) : Rat) / 250

/-- The request of R486 for the period that starts 32 kerfs ahead: the smallest s for which the predicted average draw
is at most the cap. -/
def State.stretchRequest (s : State) (l : Cutlist) (p : PowerSample) (cap : Nat) : Nat :=
  let (pass, cut) := l.ahead 32 s.run.pass s.run.cut
  let (e, t) := s.aheadEnergy l p 32 pass cut
  let idle := p.idleW.getD p.restW
  let num : Rat := (e + s.excess p) * 250 - (cap : Rat) * (t : Rat)
  if cap ≤ idle then 65535
  else if num ≤ 0 then 0
  else min 65535 (num / (32 * ((cap - idle : Nat) : Rat))).ceil.toNat

/-- The last sample of a sensor of R485 is at or past a threshold. -/
def State.anyPast (s : State) (thresh : Nat → Field) : Bool :=
  limitSensors.any (fun n => past n (signed 24 (s.fld (F.tlmSensorValue n))) (s.fld (thresh n)))

/-- The new limit cap (R485). -/
def State.newLimitCap (s : State) (p : PowerSample) : Nat :=
  let cap := s.fld F.pwrLimitLimitCap
  if s.anyPast F.tlmThreshWarn then max 300 (cap - 75)
  else if p.clear then min 1500 (cap + 15) else cap

/-- The stretch in force shows in PWR_STATUS; the shelf is held at SP1 while it is above 0 and shelf_hold permits, and a hold that
ends takes it back to SP0 (R488, 14_shelf.md R409). -/
def State.showStretch (s : State) : State :=
  let held := s.flag F.pwrCapShelfHold && decide (0 < s.plain.stretch)
  let was := s.flag F.pwrStatusShelfHeld
  let s := (s.setFld F.pwrStatusStretch s.plain.stretch).setFlag F.pwrStatusShelfHeld held
  if held = was then s else s.setFld F.shfStatusPower (if held then 1 else 0)

/-- STRETCH_LATCH (R196, R485, R486): at a kerf whose count is a multiple of 32, before the seal flit of kerf tick 4 that
carries it, the power core's request for the next period is latched into the running maximum; line 2 of the power core asserts (R276). -/
def execStretchLatch (p : PowerSample) (s : State) : Host.Outcome State Fault Refusal :=
  .next (
    match s.schedule with
    | none => s
    | some l =>
      if s.run.phase = .drain ∧ s.run.kerfs % 32 = 0 then
        let limit := s.newLimitCap p
        let s := s.setFld F.pwrLimitLimitCap limit
        let hold := s.anyPast F.tlmThreshCrit || (s.pwr.hold && s.anyPast F.tlmThreshWarn)
        let capW := s.fld F.pwrCapWatts
        let cap := min capW limit
        let req := if hold then 65535 else s.stretchRequest l p cap
        let s := s.setFld F.pwrLimitRequest req
        let s := s.setFld F.pwrPeriodWatts p.periodW
        let s := s.setFld F.pwrStatusLimiter (if req = 0 then 0 else if capW < limit then 1 else if limit < capW then 2 else 3)
        let s := { s with
          pwr := { s.pwr with latch := some (s.plain.tick, cap), hold := hold }
          plain := { s.plain with stretchMax := max s.plain.stretchMax req } }
        s.showStretch.raiseFw 1 2
      else s)

end Sys2Proof.Machine
end

