-- ==== Sys2Proof/Machine/OpsTable.lean ====
section
/-! DEFINITION. The Resource Table (11_pcie.md R317 to R320) and map-outs. -/

namespace Sys2Proof.Machine

/-! ### The Resource Table -/

/-- One entry: type, unit, data. -/
def rtEntry (type unit data : Nat) : List Byte := leBytes 1 type ++ leBytes 1 unit ++ leBytes 6 0 ++ leBytes 8 data

/-- The mask of present benches of cluster k. -/
def State.benchMask (s : State) (k : Nat) : Nat :=
  listMask ((List.range 10).filter (fun i => s.flag (F.bncStatusPresent (10 * k + i))))

/-- The highest mode of R410 that a number of lanes allows. -/
def modeOfLanes (n : Nat) : Nat := if 4 ≤ n then 3 else if 2 ≤ n then 2 else n

/-- Lanes of port p in service. -/
def State.portLanes (s : State) (p : Nat) : Nat := s.fld (F.ethPortStatusLanes p)

/-- Shelf channels in service. -/
def State.shelfChannels (s : State) : Nat := listMask ((List.range 16).filter (fun c => s.flag (F.shfChanInService c)))

/-- Entries of types 0x01 to 0x04 for a set of clusters. -/
def State.rtUnits (s : State) (clusters : List Nat) : List (List Byte) :=
  (clusters.filter (fun k => s.benchMask k != 0)).map (fun k => rtEntry 0x01 k (s.benchMask k))
    ++ (List.range 4).map (fun d => rtEntry 0x02 d (2 ^ 31))
    ++ ((List.range 12).filter (fun k => s.flag (F.memStatusPresent k))).map (fun k => rtEntry 0x03 k (2 ^ 36))
    ++ ((List.range 6).filter (fun j => s.fld (F.dvtLinkStatusState j) != 5)).map (fun j => rtEntry 0x04 j 4)

/-- Every entry of the full view. -/
def State.rtFull (s : State) : List (List Byte) :=
  s.rtUnits (List.range 16)
    ++ ((List.range 2).filter (fun p => s.portLanes p != 0)).map (fun p =>
        let n := (maskList 4 (s.portLanes p)).length
        rtEntry 0x05 p (n + modeOfLanes n * 16))
    ++ [rtEntry 0x06 0 (s.shelfChannels + 24576 * 65536), rtEntry 0x07 0 (s.fld F.cphStatusPairs),
        rtEntry 0x08 0 (s.fld F.hifLinkRate + s.fld F.hifLinkWidth * 8 + s.fld F.hifLinkFlit * 256),
        rtEntry 0x09 0 (63 + 2048 * 64)]

/-- Partitions of instance i. -/
def State.ownedParts (s : State) (i : Nat) : List Nat := allParts.filter (fun p => (s.part p).owner == some i)

/-- Entries of the view of instance i: the units of types 0x01 to 0x04 are those of its clusters, and every memory and
link, which its regions and slots may use (DEDUCED, log 21). -/
def State.rtView (s : State) (i : Nat) : List (List Byte) :=
  match s.ownedParts i with
  | [] => []
  | ps => s.rtUnits ((List.range 16).filter (fun k => ps.any (fun p => bitOf (s.part p).clusters k)))
      ++ ps.map (fun p => rtEntry 0x0A p ((s.part p).clusters + (s.part p).roles * 65536))

/-- A table with its header (R317). -/
def State.rtBytes (s : State) (entries : List (List Byte)) (generation : Nat) : List Byte :=
  let n := entries.length
  let head := fun crc => leBytes 4 0x4C425452 ++ leBytes 2 1 ++ leBytes 2 64 ++ leBytes 4 (64 + 16 * n) ++ leBytes 2 n
    ++ leBytes 1 s.mfg.variant ++ leBytes 1 0xB1 ++ beBytes 3 s.runningRelease ++ leBytes 1 0 ++ leBytes 4 generation
    ++ leBytes 8 s.mfg.serial ++ leBytes 4 crc ++ leBytes 28 0
  let body := entries.flatten
  head (Crypto.crc32 (head 0 ++ body)) ++ body

/-- Both views are rebuilt (R319): a new generation and an event on the manager's ring. Before the first publication and
in image-less service nothing is rebuilt. -/
def State.rebuildTable (s : State) : State :=
  if s.host.published ∧ ¬ s.host.imageless then
    let g := (s.fld F.hifRtGenGeneration + 1) % 2 ^ 32
    let s := s.setFld F.hifRtGenGeneration g
    let views := (List.range 64).foldl (fun m i => if i = 0 then m else Tab.set [] m i (s.rtBytes (s.rtView i) g)) []
    let s := { s with host := { s.host with table := s.rtBytes s.rtFull g, views := views } }
    s.event 0 0x07 0 g
  else s

/-! ### Map-outs of benches and stacks (03_benches.md R105; 07_memory.md R227) -/

/-- A loaded or staged cutlist schedules bench b. -/
def State.benchScheduled (s : State) (b : Nat) : Bool :=
  allParts.any (fun p =>
    let uses := fun (l : Cutlist) => l.benches.any (fun x => x.1 == b || (peerBenches x.2).contains b)
    (((s.part p).list.map uses).getD false) || (((s.part p).staged.map uses).getD false))

/-- Bench b leaves the present benches. -/
def State.dropBench (s : State) (b : Nat) : State :=
  let s := s.setFlag (F.bncStatusPresent b) false
  let s := s.setFlag (F.bncStatusMappedOut b) true
  ((s.setFlag (F.bncStatusMapPending b) false).gateValley (valleyOf (clusterOf b))).rebuildTable

/-- The disabled bench of an AQ-E9S. -/
def State.benchDisabled (s : State) (b : Nat) : Bool :=
  s.mfg.variant == 1 && Tab.get 0 s.mfg.disabled (clusterOf b) == b % 10

/-- The value of BNC_CTRL.map_out of bench b has applied: the map-out waits for loaded cutlists, or is withdrawn by a
value of 0 (DESIGN CHOICE, log 30). A value of 0 makes a bench that is mapped out present again at once, in a new Resource
Table (DESIGN CHOICE, log 25). -/
def State.benchMapOut (s : State) (b : Nat) : State :=
  if s.benchDisabled b then s.setFld (F.bncCtrlMapOut b) 1
  else if s.flag (F.bncCtrlMapOut b) then
    if s.flag (F.bncStatusMappedOut b) then s
    else if s.benchScheduled b then s.setFlag (F.bncStatusMapPending b) true
    else s.dropBench b
  else
    let s := s.setFlag (F.bncStatusMapPending b) false
    if s.flag (F.bncStatusMappedOut b) then
      (((s.setFlag (F.bncStatusPresent b) true).setFlag (F.bncStatusMappedOut b) false).gateValley
        (valleyOf (clusterOf b))).rebuildTable
    else s

/-- Stack k leaves the present stacks: its contents and keys are lost and its ownership map is cleared (R227); registrations of its granules end (16_rdma.md R443). -/
def State.dropStack (s : State) (k : Nat) : State :=
  let s := s.setMemUnit (stackUnit k) MemUnit.init
  let s := s.setFlag (F.memStatusPresent k) false
  let s := ((s.setFlag (F.memStatusMappedOut k) true).setFlag (F.memStatusKeyed k) false).setFlag (F.memStatusSelfRefresh k) false
  ((s.setFlag (F.memStatusMapPending k) false).gateValley (20 + k)).pruneRegs.rebuildTable

/-- Firmware maps out a stack with 64 uncorrectable lines within 24 h (R227): at once, or once no loaded cutlist names it;
critical event 0x03 (17_time.md R471). MEM_CTRL.map_out shows it (DEDUCED, log 21). -/
def State.firmwareMapOut (s : State) (k : Nat) : State :=
  let bad := ((s.memUnit (stackUnit k)).ueTimes.filter (fun t => decide (s.now ≤ t + 86400000000000))).length
  if bad < 64 ∨ s.flag (F.memStatusMappedOut k) ∨ s.flag (F.memStatusMapPending k) then s
  else
    let s := (s.setFld (F.memCtrlMapOut k) 1).critical 0x03 k
    if s.stackNamed k then s.setFlag (F.memStatusMapPending k) true else s.dropStack k

/-- The value of MEM_CTRL.map_out of stack k has applied. A map-out that waits can be withdrawn; a stack that is mapped out
stays off until an L4 (18_power.md R489). -/
def State.stackMapOut (s : State) (k : Nat) : State :=
  if s.flag (F.memCtrlMapOut k) then
    if s.flag (F.memStatusMappedOut k) then s
    else if s.stackNamed k then s.setFlag (F.memStatusMapPending k) true
    else s.dropStack k
  else s.setFlag (F.memStatusMapPending k) false

end Sys2Proof.Machine
end

