-- ==== Sys2Proof/Machine/PlainEv.lean ====
section
/-! DEFINITION. The events of the Dovetail links and of formation (06_plain.md R170 to R199). -/

namespace Sys2Proof.Machine

/-- Streams run on link j: it is in service and a cut runs, or its last flits arrive in the kerf's Drain and Seal
phases. -/
def State.streams (s : State) (j : Nat) : Bool :=
  s.fld (F.dvtLinkStatusState j) == 3 && (s.run.phase == .cut || s.run.phase == .drain || s.run.phase == .sealed)

/-- The codeword of a flit that came on link j had symbols corrected: it counts in DVT_LINK_FEC (R175). -/
def State.countFixed (s : State) (j : Nat) (fixed : Bool) : State :=
  if fixed then s.wrapAdd (F.dvtLinkFecCorrected j) 1 else s

/-- FLIT_RELEASE (R172): the flit's bytes land at its release time; fixed says that its codeword was corrected (R175). -/
def execFlitRelease (j : LinkId) (index : BitVec 16) (payload : List Byte) (fixed : Bool) (s : State) :
    Host.Outcome State Fault Refusal :=
  .next (
    if s.streams j then
      let s := s.countFixed j fixed
      let p := (payload ++ List.replicate 640 0).take 640
      let s := s.setLink j { s.link j with rx := (s.link j).rx ++ [(index.toNat, p)] }
      s.landFlit j index.toNat p false
    else s)

/-- FLIT_LOST (R175): the lines are poisoned, two loss notices leave, the loss is counted. A flit that is lost in the kerf is one of
its cut's; with no run it is noticed and counted, and waits for no replay (DESIGN CHOICE, log 30). -/
def execFlitLost (j : LinkId) (index : BitVec 16) (s : State) : Host.Outcome State Fault Refusal :=
  .next (
    if s.fld (F.dvtLinkStatusState j) = 3 then
      let f := index.toNat
      let s := if s.scheduled then
          let s := s.poisonFlit j f
          s.setLink j { s.link j with lost := (s.link j).lost ++ [f], unrestored := (s.link j).unrestored ++ [f] }
        else s
      let s := s.notice [j] 1 f
      s.count (F.dvtLinkErrLost j) 1
    else s)

/-- LOSS_NOTICE_RECEIVED (R176): the sender holds the named flit for the kerf. -/
def execLossNoticeReceived (j : LinkId) (index : BitVec 16) (fixed : Bool) (s : State) : Host.Outcome State Fault Refusal :=
  .next (
    let s := s.countFixed j fixed
    let l := s.link j
    if s.streams j ∧ ¬ l.held.contains index.toNat then s.setLink j { l with held := l.held ++ [index.toNat] } else s)

/-- REPLAY_FLIT_RECEIVED (R176, R177): the first copy that corrects is written whole; at most 8 flits of a cut are
restored. fixed says that the codeword of a copy that corrects had symbols corrected. -/
def execReplayFlitReceived (j : LinkId) (index : BitVec 16) (payload : List Byte) (corrects fixed : Bool) (s : State) :
    Host.Outcome State Fault Refusal :=
  .next (
    let s := s.countFixed j (corrects && fixed)
    let l := s.link j
    let f := index.toNat
    if s.fld (F.dvtLinkStatusState j) = 3 ∧ s.run.phase = .service ∧ corrects ∧ l.unrestored.contains f
        ∧ l.lost.length - l.unrestored.length < 8 then
      let p := (payload ++ List.replicate 640 0).take 640
      let s := s.landFlit j f p true
      s.setLink j { s.link j with unrestored := (s.link j).unrestored.filter (· != f) }
    else s)

/-- Link j declares failure (R178, R198): it leaves service at once; at the third failure within an hour firmware maps it
out, which waits for nothing. -/
def State.failLink (s : State) (j : Nat) : State :=
  let s := s.count (F.dvtLinkErrFailures j) 1
  let s := s.logCount (15 + j) 1
  let times := s.now :: (s.link j).failTimes.filter (fun t => decide (s.now ≤ t + 3600000000000))
  let s := s.setLink j { s.link j with failTimes := times, failAt := none }
  let s := s.setLinkState j 4
  let s := if 3 ≤ times.length then
      let s := (s.setFld (F.dvtLinkCtrlMapOut j) 1).critical 0x03 j
      (s.setLinkState j 5).rebuildTable
    else s
  s.raiseHalt ⟨1, 0x02, j, .link j, 0⟩

/-- The tick at which link j declares failure: kerf tick 123 of the kerf that its cut's losses are replayed in, for lost lock
alone of the next kerf that reaches it (R178); of an earlier cut's kerf that was shorter, where its losses are open. -/
def State.failTick (s : State) (j : Nat) : Option Nat :=
  let l := s.link j
  let after := s.schedule.map (fun c => s.run.since + (c.cutRun s.run.cut).length)
  match l.failAt with
  | some t => some t
  | none =>
  let marks := if l.lost = [] then s.run.marks.reverse else if s.run.phase = .cut then [] else s.run.marks.take 1
  match (marks.map KerfMark.start).find? (fun t => decide (s.plain.tick ≤ t + 123)) with
  | some t => some (t + 123)
  | none => if s.run.phase = .cut then after.map (· + 123) else s.kerfTick.map (· + 123)

/-- LINK_FAILURE (R178): at kerf tick 123 of a link with more than 8 lost flits, an unrestored one, or lost lock. With no
schedule there is no kerf to wait for (DEDUCED, log 19). -/
def execLinkFailure (j : LinkId) (s : State) : Host.Outcome State Fault Refusal :=
  .next (
    let l := s.link j
    if s.fld (F.dvtLinkStatusState j) = 3 ∧ (l.failing ∨ l.lockLost ∨ l.failAt.isSome) then
      if s.scheduled then
        match s.failTick j with
        | none => s
        | some t => if s.expiresAt t then (s.reachTick t).failLink j else s
      else s.failLink j
    else s)

/-- DOVETAIL_LOSS_OF_LOCK (R178): the lanes lose lock; a link in service fails, at the next kerf tick 123 where kerfs
occur. -/
def execDovetailLossOfLock (j : LinkId) (s : State) : Host.Outcome State Fault Refusal :=
  .next (
    let st := s.fld (F.dvtLinkStatusState j)
    if st = 3 then
      let s := s.setLink j { s.link j with lockLost := true, trained := false }
      if s.scheduled then s else s.failLink j
    else if st = 1 ∨ st = 2 then (s.setLink j { s.link j with trained := false, answered := false }).setLinkState j 0
    else s)

/-- DOVETAIL_TRAINING_DONE (R184, R495): a link that was DOWN or training is READY. -/
def execDovetailTrainingDone (j : LinkId) (s : State) : Host.Outcome State Fault Refusal :=
  .next (
    let st := s.fld (F.dvtLinkStatusState j)
    if st = 0 ∨ st = 1 then
      let s := (s.setLink j { s.link j with trained := true, lockLost := false }).setLinkState j 2
      if s.flag F.dvtPlainForming ∧ s.formingLinks.contains j then
        s.sendIdentity j
      else s
    else s)

/-- The merge of a seal flit's running values (R189, R196, R141, R133). A stretch value belongs to the period of its
kerf, and a vote for another successor family is a no. -/
def State.mergeSeal (s : State) (f : SealFlit) : State :=
  let s := if f.kerf.toNat / 32 = s.run.kerfs / 32 then
      { s with plain := { s.plain with stretchMax := max s.plain.stretchMax f.stretch.toNat } }
    else s
  let s := match s.run.swap, s.voteKerf with
    | some w, some k => if f.vote.map BitVec.toNat ≠ s.swapVote ∧ k ≤ f.kerf.toNat then { s with run := { s.run with swap := some { w with no := true } } } else s
    | _, _ => s
  match f.stopCount with
  | none => s
  | some n =>
    let old := s.run.stopCount.getD (2 ^ 64 - 1)
    if n.toNat < old then { s with run := { s.run with stopCount := some n.toNat } } else s

/-- The peer's offset (R181): half the difference of both ends' r, stored in DVT_LINK_OFFSET; from the parent it is what
the tick phase is slewed by and what the accumulated offset grows by (R182, R530). Beyond 2 ticks it raises a halt. An odd
difference is halved rounding down to 1/64 tick (DESIGN CHOICE, log 27). -/
def State.takeOffset (s : State) (j : Nat) (f : SealFlit) : State :=
  let l := s.link j
  let theta := (l.rHere - f.rPeer) / 2
  let s := s.setFld (F.dvtLinkOffsetTheta j) (unsigned 32 theta)
  let s := if s.plain.parent = some j then
      let off := f.offset + theta
      ({ s with plain := { s.plain with slew := theta, offset := off } }).setFld F.dbgAlignOffset (unsigned 32 off)
    else s
  if 128 < theta ∨ theta < -128 then s.differs j else s

/-- SEAL_FLIT_RECEIVED (R191): compared with the member's seal for the same kerf, at once or when it is formed, also
after the run's end; its running values are merged. A coefficient word of 0 asks for no change (DESIGN CHOICE, log 30). -/
def execSealFlitReceived (j : LinkId) (f : SealFlit) (s : State) : Host.Outcome State Fault Refusal :=
  .next (
    let s := s.countFixed j f.fixed
    if s.serviceLinks.contains j ∧ s.inPlain then
      let k := f.kerf.toNat
      let first := (s.link j).seals.isEmpty
      let s := if first then s else s.takeOffset j f
      let s := s.setLink j { s.link j with
        seals := (k :: (s.link j).seals).take (2 * keptMarks), rHere := f.arrival - 256, rPeer := f.rPeer
        coeffReq := if f.coeff = 0 then (s.link j).coeffReq else (s.link j).coeffReq ++ [(k + 1, f.coeff)] }
      let s := if s.scheduled then s.mergeSeal f else s
      match s.sealOf k with
      | some own => s.compareSeal j own f
      | none => if s.scheduled ∧ s.run.kerfs ≤ k then s.setLink j { s.link j with early := (s.link j).early ++ [f] } else s
    else s)

/-- The count nearest ahead of the current kerf whose low 16 bits are v. -/
def State.kerfOf16 (s : State) (v : Nat) : Nat := s.run.kerfs + (v + 65536 - s.run.kerfs % 65536) % 65536

/-- HALT_NOTICE_RECEIVED (R192): a new notice, of a halt kerf that no notice has named, is forwarded on every other link, and
the earliest halt kerf stays. Its cause is not known here (log 19). -/
def execHaltNoticeReceived (j : LinkId) (value : BitVec 16) (fixed : Bool) (s : State) : Host.Outcome State Fault Refusal :=
  .next (
    let s := s.countFixed j fixed
    if s.serviceLinks.contains j ∧ s.inPlain ∧ s.scheduled then
      let k := s.kerfOf16 value.toNat
      if ¬ s.run.noticed.contains (2, k) then
        let s := s.setHalt ⟨k, s.see ⟨0, 0, 0, .nothing, 0⟩, []⟩
        (s.notice (s.serviceLinks.filter (· != (j : Nat))) 2 k).wake 4
      else s
    else s)

/-- CHECKPOINT_NOTICE_RECEIVED (R511, R512): a new notice is forwarded as a halt notice is (R192). A demand TAKE that is pending
adopts the earliest stop kerf; with none the member raises a halt with cause DIVERGE. -/
def execCheckpointNoticeReceived (j : LinkId) (value : BitVec 16) (fixed : Bool) (s : State) : Host.Outcome State Fault Refusal :=
  .next (
    let s := s.countFixed j fixed
    let k := s.kerfOf16 value.toNat
    if s.serviceLinks.contains j ∧ s.inPlain ∧ s.scheduled ∧ ¬ s.run.noticed.contains (3, k) then
      let s := { s with run := { s.run with noticed := (3, k) :: s.run.noticed } }
      let s := s.notice (s.serviceLinks.filter (· != (j : Nat))) 3 k
      match s.run.take with
      | some t =>
        if t.trigger ≠ 0 ∨ t.stopped.isSome then s.raiseHalt (s.peerTrouble 0x04 0 j)
        else { s with run := { s.run with take := some { t with stopKerf := some ((t.stopKerf.map (min k)).getD k) } } }
      | none => s.raiseHalt (s.peerTrouble 0x04 0 j)
    else s)

/-- LINK_IDENTITY (R184 step 2): the peer on Dj must be the neighbour of R165; a wrong peer refuses the formation
(DEDUCED, log 19). -/
def execLinkIdentity (j : LinkId) (formation : W64) (member : BitVec 16) (peerLink : BitVec 3) (fixed : Bool) (s : State) :
    Host.Outcome State Fault Refusal :=
  .next (
    let s := s.countFixed j fixed
    let p := s.plain
    if s.flag F.dvtPlainForming ∧ s.formingLinks.contains j ∧ s.fld (F.dvtLinkStatusState j) = 2 then
      let want := neighbour p.dimX p.dimY p.dimZ (s.fld F.dvtPlainMemberIndex) j
      if formation.toNat ≠ p.formation then s.refuseMuster Status.versionMismatch (0x01 + j * 256 + member.toNat * 65536)
      else if member.toNat ≠ want ∨ peerLink.toNat ≠ peerOf j then
        s.refuseMuster Status.versionMismatch (0x03 + j * 256 + member.toNat * 65536)
      else
        let s := s.setFld (F.dvtLinkStatusPeerMember j) member.toNat
        ((s.setLink j { s.link j with answered := true }).setLinkState j 3).sendRecord
    else s)

/-- MUSTER_RECORD (R184 step 4, R186): a new record is forwarded and kept, one that comes before the member's own is sent
waits for it, and one that comes while no formation runs is discarded. -/
def execMusterRecord (j : LinkId) (record : List Byte) (fixed : Bool) (s : State) : Host.Outcome State Fault Refusal :=
  .next (
    let s := s.countFixed j fixed
    let r := (record ++ List.replicate 256 0).take 256
    if s.flag F.dvtPlainForming then
      if s.plain.records = [] then { s with plain := { s.plain with early := s.plain.early ++ [(j.toNat, r)] } }
      else if s.plain.records.contains r then s
      else (s.takeRecord j r).judgeMuster
    else s)

/-- MUSTER_TIMEOUT (R184): at the timeout, LINK_FAILED names the first link whose peer never answered, with field code 0 (DESIGN
CHOICE, log 30), or field 0x02. -/
def execMusterTimeout (s : State) : Host.Outcome State Fault Refusal :=
  .next (
    if s.flag F.dvtPlainForming then
      let s := s.passTime (s.plain.deadline - s.now)
      match s.formingLinks.find? (fun j => !(s.link j).answered) with
      | some j => s.refuseMuster Status.linkFailed (j * 256)
      | none => s.refuseMuster Status.linkFailed (0x02 + 0xFF * 256)
    else s)

/-- The member's own start record (R187). -/
def State.startRecord (s : State) : StartRec :=
  match s.schedule with
  | none => ⟨0, 0, 0, 0, 0, 0, 0⟩
  | some l =>
    let hash := fun p => if s.setParts.contains p then (((s.part p).list.map (fun l => leNat l.hash)).getD 0) else 0
    ⟨BitVec.ofNat 16 (s.fld F.dvtPlainMemberIndex), BitVec.ofNat 384 (leNat l.family), BitVec.ofNat 384 (leNat l.drawing),
      BitVec.ofNat 384 (leNat l.cutRunHash),
      BitVec.ofNat 1536 (hash 0 + hash 1 * 2 ^ 384 + hash 2 * 2 ^ 768 + hash 3 * 2 ^ 1152), BitVec.ofNat 64 s.run.id, BitVec.ofNat 64 s.run.readyTick⟩

/-- A start record as bytes, its items in the rule's order (DESIGN CHOICE, log 18). -/
def startBytes (r : StartRec) : List Byte :=
  leBytes 2 r.member.toNat ++ leBytes 48 r.family.toNat ++ leBytes 48 r.drawing.toNat ++ leBytes 48 r.cutRun.toNat
    ++ leBytes 192 r.hashes.toNat ++ leBytes 8 r.runId.toNat ++ leBytes 8 r.ready.toNat

/-- The lowest field code in which start records differ from the member's own (R187), with the member. -/
def startDiff (own : StartRec) (rs : List StartRec) : Option Nat :=
  let pick := fun (code : Nat) (p : StartRec → Bool) =>
    match (rs.filter p).map (fun r => r.member.toNat) with
    | [] => none
    | ms => some (code + 0xFF * 256 + lowest ms * 65536)
  match pick 0x0B (fun r => r.family != own.family) with
  | some v => some v
  | none => match pick 0x0C (fun r => r.drawing != own.drawing) with
    | some v => some v
    | none => match pick 0x0D (fun r => r.cutRun != own.cutRun) with
      | some v => some v
      | none => pick 0x0E (fun r => r.runId != own.runId)

/-- The start round ends without a run: the START completes with a status, and a detached run that was to go on has ended. -/
def State.endRound (s : State) (status result : Nat) : State :=
  let s := if s.run.resuming then s.detachedEnds else s
  let o := s.run.start
  let s := { s with run := { s.run with phase := .idle, start := none, startRecs := [], resuming := false } }
  match o with
  | none => s
  | some o => s.complete o status result

/-- All start records have come (R187, R188): a difference completes the START with VERSION_MISMATCH; otherwise the
first cut's start tick is fixed. -/
def State.judgeStart (s : State) : State :=
  let n := if s.inPlain then s.fld F.dvtPlainPlainSize else 1
  let own := s.startRecord
  if s.run.startRecs.length + 1 < n then s
  else
    match startDiff own s.run.startRecs with
    | some r => s.endRound Status.versionMismatch r
    | none =>
      let ready := s.run.startRecs.foldl (fun m r => max m r.ready.toNat) s.run.readyTick
      let t := (ready + 64 * (s.diameter + 1) + 4095) / 4096 * 4096
      { s with run := { s.run with phase := .armed, firstTick := t, startRecs := [], members := s.run.startRecs } }

/-- START_RECORD (R187): a new record is forwarded and kept, and compared once the member's own round runs. A record that
comes before the member's own START waits for it (DEDUCED, log 19). -/
def execStartRecord (j : LinkId) (record : StartRec) (fixed : Bool) (s : State) : Host.Outcome State Fault Refusal :=
  .next (
    let s := s.countFixed j fixed
    if (s.run.phase = .round ∨ s.run.phase = .idle) ∧ s.inPlain ∧ s.serviceLinks.contains j
        ∧ record.member.toNat ≠ s.fld F.dvtPlainMemberIndex ∧ ¬ s.run.startRecs.contains record then
      let s := s.flood (s.serviceLinks.filter (· != (j : Nat))) FlitType.start (startBytes record)
      let s := { s with run := { s.run with
        startRecs := s.run.startRecs.filter (fun r => r.member != record.member) ++ [record] } }
      if s.run.phase = .round then s.judgeStart else s
    else s)

/-- A halt report as bytes. -/
def haltBytes (r : HaltRep) : List Byte :=
  leBytes 2 r.member.toNat ++ leBytes 1 r.cause.toNat ++ leBytes 1 r.detail.toNat ++ leBytes 1 (if r.faulting then 1 else 0)

end Sys2Proof.Machine
end

