-- ==== Sys2Proof/Machine/ComputeRing.lean ====
section
/-! DEFINITION. The operations of an instance's CMP ring (12_rings.md R349): LOAD, START, STAGE, STOP, UNLOAD, MUSTER,
DISSOLVE and PAGE_COMMIT (04_cutlists.md R126 to R143, 05_roles.md R160, 06_plain.md R183 to R188). -/

namespace Sys2Proof.Machine

/-! ### What every operation checks -/

/-- The partition is fenced (R498); a lost vote counts as fenced. -/
def Part.fenced (p : Part) : Bool := (vote p.fence.a p.fence.b p.fence.c).getD true

/-- The refusal that names a partition as missing (R126). -/
def noPartition (p : Nat) : Nat := (misfit 0 0x03 p 0 0).2

/-- No LOAD or STAGE that was fetched before stamp n waits on another compute ring that is fetched from (R127). One that a fence bit
holds behind operations of its own ring lets the others pass (DESIGN CHOICE, log 30). -/
def State.loadTurn (s : State) (i r n : Nat) : Bool :=
  s.host.fns.all (fun f => f.2.rings.all (fun q =>
    (f.1 == i && q.1 == r) || !(s.ringActive f.1 q.1 && s.ringKind f.1 q.1 == 1 && s.fetches f.1)
      || ((if q.2.flight = [] then q.2.fetched else q.2.fetched.takeWhile (fun d => !bitOf (d.le 0 2) 9)).all
        (fun d => (d.opcode != 0x01 && d.opcode != 0x03) || decide (n < d.stamp)))))

/-- LOAD and STAGE run in the order of fetching across all compute rings (R127). -/
def State.inLoadTurn (s : State) (i r opcode : Nat) (op : State → State) : State :=
  match s.next? i r 1 opcode with
  | none => s
  | some d => if s.loadTurn i r d.stamp then op s else s

/-- An operation of function i on ring r: while no tenant is bound it completes with NOT_BOUND, while UNBINDING with
FENCED (R126, R286); a format fault, or a manager's ring, is BAD_DESCRIPTOR (R334, R340). -/
def State.computeOp (s : State) (i r opcode : Nat) (good : Desc → Bool) (body : State → OpRef → Desc → State) : State :=
  s.withOp i r 1 opcode (fun s o d =>
    match s.boundStatus with
    | some st => s.complete o st 0
    | none => if i ≠ 0 ∧ good d then body s o d else s.complete o Status.badDescriptor 0)

/-- The two checks of a partition mask (R349); where they pass the body runs. -/
def State.withMask (s : State) (o : OpRef) (mask : Nat) (body : State → State) : State :=
  match (maskList 4 mask).find? (fun p => (s.part p).owner != some o.fn) with
  | some p => s.complete o Status.doesNotFit (noPartition p)
  | none => if s.isSet mask then body s else s.complete o Status.badDescriptor 0

/-- A partition of the mask is fenced. -/
def State.anyFenced (s : State) (mask : Nat) : Bool := (maskList 4 mask).any (fun p => (s.part p).fenced)

/-- The run goes on once the checkpoint that stopped it is written (20_checkpoint.md R518). -/
def State.resumeWaits (s : State) : Bool := s.run.take.any (fun t => t.stopped.isSome && t.resume && t.mask == s.run.parts)

/-- A RESTORE that is reading its checkpoint covers a partition of a mask (20_checkpoint.md R520). -/
def State.restoring (s : State) (mask : Nat) : Bool := s.restores.any (fun x => x.mask &&& mask != 0)

/-- A start round, or the wait for one, is cancelled (06_plain.md R188; 20_checkpoint.md R518): a detached run ends with it. -/
def State.cancelStart (s : State) : State :=
  let s := if s.resumeWaits then s.detachedEnds else s
  ({ s with run := { s.run with take := s.run.take.map (fun (t : Take) => { t with resume := false }) } }).endRound Status.queueReset 0

/-- A START is pending, its run has not ended, or it goes on after a checkpoint. -/
def State.startPending (s : State) : Bool := s.run.phase != .idle || s.run.start.isSome || s.resumeWaits

/-- The START that is pending, or the run, is that of the mask's member set. -/
def State.startedSet (s : State) (mask : Nat) : Bool := s.startPending && s.run.parts == mask

/-- The containers that a member table in host memory names, with their listed lengths. Of a container whose
total_length is not its listed length, which step 1 refuses (R541), the header is read alone. -/
def State.readMembers (s : State) (addr n : Nat) : List (Cont × Nat) :=
  (List.range n).map (fun k =>
    let a := Memory.readLE s.host.mem (addr + 16 * k) 8
    let len := Memory.readLE s.host.mem (addr + 16 * k + 8) 8
    let header := Memory.read s.host.mem a (min len 256)
    (⟨if fieldLE header 0x10 8 = len then Memory.read s.host.mem a len else header⟩, len))

/-- Partitions that a member set names, as its containers give them. -/
def partMask (cs : List (Cont × Nat)) : Nat := listMask ((cs.map (fun c => c.1.part)).filter (· < 4))

/-! ### LOAD and STAGE -/

/-- The states in which LOAD is accepted: every partition EMPTY, LOADED or STOPPED, no START pending for its set, and the
sets that it replaces replaced whole (DESIGN CHOICE, log 19). Other sets of the device stay as they are (R128). -/
def State.acceptsLoad (s : State) (ps : List Nat) : Bool :=
  ps.all (fun p => !(s.part p).runs && ((s.part p).list.isNone || (maskList 4 (s.part p).mates).all ps.contains))
    && !(s.startPending && ps.any (bitOf s.run.parts)) && !s.restoring (listMask ps)

/-- LOAD (R128): the member set is fitted and committed in place of what the partitions held; a page commit that waited while
its partition was STOPPED applies to the slots as it leaves them (DESIGN CHOICE, log 27). A commit step that fails gives
every unit its previous contents back and completes with INTERNAL (R129); what makes it fail is the event's. -/
def State.doLoad (commits : Bool) (s : State) (o : OpRef) (d : Desc) : State :=
  let n := d.w0 32 3
  let cs := s.readMembers (d.le 8 8) n
  let mask := partMask cs
  if n = 0 ∨ 4 < n then s.complete o Status.badDescriptor 0
  else if s.anyFenced mask ∧ (maskList 4 mask).all (fun p => (s.part p).owner == some o.fn) then s.complete o Status.fenced 0
  else match s.fit o.fn false (cs.map Prod.fst) (cs.map Prod.snd) s.acceptsLoad with
    | some (st, res) => s.complete o st res
    | none =>
      if ¬ commits then s.complete o Status.internal 0
      else
      let s := (cs.map (fun c => c.1.cutlist)).foldl State.commitList s
      let s := (maskList 4 mask).foldl (fun s p => s.setPart p { s.part p with mates := mask }) (s.dropSets mask)
      let s := if s.run.parts = 0 then s.bringSet mask else s
      (if s.scheduled then s.gateValleys else s.gateValleys.runCommits).complete o Status.ok 0

/-- LOAD. -/
def execLoad (i : FnId) (r : RingId) (commits : Bool) (s : State) : Host.Outcome State Fault Refusal :=
  .next (s.inLoadTurn i r 0x01 fun s => s.computeOp i r 0x01 (fun d => d.good 7 allBits 0 0 .none) (State.doLoad commits))

/-- The states in which STAGE is accepted: the running member set's partitions, all RUNNING. -/
def State.acceptsStage (s : State) (ps : List Nat) : Bool :=
  listMask ps == s.setMask && ps.all (fun p => (s.part p).state == .running)

/-- The swap point obeys R140 and R141: the boundary belongs to a cut run with swap_ok, lies in the run and is at least
diameter + 4 cuts away. A STAGE that breaks the first two is refused with the status of the third (DESIGN CHOICE, log
27). -/
def State.goodSwapPoint (s : State) (pass cut : Nat) : Bool :=
  match s.schedule with
  | none => false
  | some l =>
    let before := if s.run.pass < pass ∧ cut = l.loopStart then l.cutCount - 1 else cut - 1
    decide (cut < l.cutCount ∧ pass < s.run.passes) && (l.cutRun before).swapOk
      && ((l.cutsTo s.run.pass s.run.cut pass cut).map (fun n => decide (s.diameter + 4 ≤ n))).getD false

/-- The successor is fitted and waits for its swap point; a member that has fitted it after the vote closed votes no (R141). -/
def State.noteSwap (s : State) (o : OpRef) (pass cut : Nat) : State :=
  let s := { s with run := { s.run with swap := some ⟨o, pass, cut, false, true, none⟩ } }
  { s with run := { s.run with swap := some ⟨o, pass, cut, s.inPlain && s.voteClosed, true, none⟩ } }

/-- STAGE (R140): the successor is fitted beside the running set. A refused fit completes at once for a Plain of one
member; otherwise it waits for the vote (R142). A partition that the instance does not own is named as missing in every state
(R126). A commit step that fails leaves the staging halves as they were (R129). BAD_DESCRIPTOR answers a second STAGE while a
refused one waits for the vote, and after a good fit a cut at or past the successor's cut_count (DESIGN CHOICE, log 27). -/
def State.doStage (commits : Bool) (s : State) (o : OpRef) (d : Desc) : State :=
  let n := d.w0 32 3
  let cs := s.readMembers (d.le 8 8) n
  let mask := partMask cs
  let pass := d.le 16 4
  let cut := d.le 20 4
  if n = 0 ∨ 4 < n then s.complete o Status.badDescriptor 0
  else if s.run.swap.isSome ∨ ¬ s.scheduled ∨ ¬ s.goodSwapPoint pass cut then
    match (cs.map (fun c => c.1.part)).find? (fun p => (s.part p).owner != some o.fn) with
    | some p => s.complete o Status.doesNotFit (noPartition p)
    | none => s.complete o Status.badDescriptor 0
  else if s.anyFenced mask ∧ (maskList 4 mask).all (fun p => (s.part p).owner == some o.fn) then s.complete o Status.fenced 0
  else
    let s := s.setNeeds o mask
    match s.fit o.fn true (cs.map Prod.fst) (cs.map Prod.snd) s.acceptsStage with
    | some (st, res) =>
      if s.inPlain ∧ s.acceptsStage (cs.map (fun c => c.1.part)) then
        { s with run := { s.run with swap := some ⟨o, pass, cut, false, false, some (st, res)⟩ } }
      else s.complete o st res
    | none =>
      if cs.any (fun c => decide (c.1.cutCount ≤ cut)) then s.complete o Status.badDescriptor 0
      else if ¬ commits then s.complete o Status.internal 0
      else
        let s := ((cs.map (fun c => c.1.cutlist)).foldl State.stageList s).gateValleys
        s.noteSwap o pass cut

/-- STAGE. -/
def execStage (i : FnId) (r : RingId) (commits : Bool) (s : State) : Host.Outcome State Fault Refusal :=
  .next (s.inLoadTurn i r 0x03 fun s => s.computeOp i r 0x03 (fun d => d.good 7 allBits allBits 0 .none) (State.doStage commits))

/-- The staging of a member set is given up and its STAGE completes (R142, R143). -/
def State.endStage (s : State) (status result : Nat) : State :=
  let s := (allParts.foldl State.unstage s).gateValleys
  match s.run.swap with
  | none => s
  | some w => ({ s with run := { s.run with swap := none } }).complete w.op status result

/-! ### START -/

/-- The start round begins (R187): the member's start record goes out on every link in service, and a lone device fixes
its start tick at once. -/
def State.beginRound (s : State) (resuming : Bool) : State :=
  let s := { s with run := { s.run with phase := .round, resuming := resuming, readyTick := s.plain.tick } }
  let bytes := startBytes s.startRecord
  let s := if s.inPlain then s.flood s.serviceLinks FlitType.start bytes else s
  s.judgeStart

/-- START (R132, R187, R494): a halted partition and a fenced one refuse it; the run identifier of the current run is
OK and changes nothing. While another member set of the device starts or runs it is BAD_DESCRIPTOR (R108; DEDUCED, log
19). The pass count of a resumed run counts its passes from the run's first (DESIGN CHOICE, log 30). While a checkpoint of the set is being written its start round waits (DESIGN CHOICE, log 19). -/
def State.doStart (s : State) (o : OpRef) (d : Desc) : State :=
  let mask := d.w0 32 4
  let id := d.le 8 8
  let passes := d.le 16 4
  s.withMask o mask (fun s =>
    if s.anyFenced mask then s.complete o Status.fenced 0
    else if s.startPending then s.complete o (if s.run.parts = mask ∧ id = s.run.id then Status.ok else Status.badDescriptor) 0
    else if passes = 0 ∨ s.restoring mask then s.complete o Status.badDescriptor 0
    else if (maskList 4 mask).any (fun p => (s.part p).halted) then s.complete o Status.fenced 0
    else
      let resuming := (maskList 4 mask).any (fun p => (s.part p).state == .stopped)
      let s := (s.setNeeds o mask).bringSet mask
      let s := { s with run := { s.run with
        id := id, passes := passes, start := some o, stopCount := none, stops := [], halt := none, reports := [], noticed := [] } }
      if s.run.take.any (fun t => t.mask &&& mask != 0) then s else s.beginRound resuming)

/-- START. -/
def execStart (i : FnId) (r : RingId) (s : State) : Host.Outcome State Fault Refusal :=
  .next (s.computeOp i r 0x02 (fun d => d.good 15 allBits 0xFFFFFFFF 0 .none) State.doStart)

/-! ### STOP -/

/-- A stop is fetched while the set runs (R133, R143): the stop count falls to k + diameter + 1, above the swap kerf where
the vote has passed; before the vote closes the staging is given up with QUEUE_RESET, and a STAGE that this member refused
completes with its own refusal (R142). -/
def State.fetchStop (s : State) : State :=
  let k := s.nextKerf
  let n := k + s.diameter + 1
  let closed := s.voteClosed
  let s := match s.run.swap with
    | some w => if closed then s else
      let (st, res) := w.refusal.getD (Status.queueReset, 0)
      s.endStage st res
    | none => s
  let n := match s.run.swap, s.swapKerf with
    | some w, some sk => if w.fitted ∧ ¬ w.no then max n (sk + 1) else n
    | _, _ => n
  { s with run := { s.run with stopCount := some (match s.run.stopCount with
      | none => n
      | some old => min old n) } }

/-- STOP (R133, R188, R494). -/
def State.doStop (s : State) (o : OpRef) (d : Desc) : State :=
  let mask := d.w0 32 4
  s.withMask o mask (fun s =>
    let pos := (s.runOf mask).pass + (s.runOf mask).cut * 2 ^ 32
    if s.startedSet mask ∧ (s.run.phase = .round ∨ s.run.phase = .idle) then s.cancelStart.complete o Status.ok pos
    else if s.startedSet mask then
      let s := (s.setNeeds o mask).fetchStop
      { s with run := { s.run with stops := s.run.stops ++ [o] } }
    else if (maskList 4 mask).any (fun p => (s.part p).halted) then s.complete o Status.ok pos
    else s.complete o Status.badDescriptor 0)

/-- STOP. -/
def execStop (i : FnId) (r : RingId) (s : State) : Host.Outcome State Fault Refusal :=
  .next (s.computeOp i r 0x04 (fun d => d.good 15 0 0 0 .none) State.doStop)

/-! ### UNLOAD -/

/-- UNLOAD (R126, R499): it waits in its ring while a fence covers a partition of its mask. LOAD, START and UNLOAD of a partition
that a RESTORE is reading for are BAD_DESCRIPTOR (DESIGN CHOICE, log 30). -/
def State.doUnload (s : State) (o : OpRef) (d : Desc) : State :=
  let mask := d.w0 32 4
  s.withMask o mask (fun s =>
    if s.startedSet mask ∨ s.restoring mask then s.complete o Status.badDescriptor 0
    else
      let s := (((maskList 4 mask).foldl State.unloadPart s).dropSets mask).gateValleys
      (if s.scheduled then s else s.runCommits).complete o Status.ok 0)

/-- UNLOAD. -/
def execUnload (i : FnId) (r : RingId) (s : State) : Host.Outcome State Fault Refusal :=
  .next (
    match s.next? i r 1 0x05 with
    | none => s
    | some d => if s.bound ∧ s.anyFenced (d.w0 32 4) then s else s.computeOp i r 0x05 (fun d => d.good 15 0 0 0 .none) State.doUnload)

/-! ### MUSTER and DISSOLVE -/

/-- The instance owns a partition. -/
def State.ownsAny (s : State) (i : Nat) : Bool := allParts.any (fun p => (s.part p).owner == some i)

/-- Formation may change: every partition EMPTY and no formation running (R183). -/
def State.plainIdle (s : State) : Bool :=
  allParts.all (fun p => (s.part p).state == .empty) && !s.flag F.dvtPlainForming

/-- A link begins formation: a trained link that the shape uses sends its identity, and a link that is not trained and not
mapped out trains, used or not (R184 steps 1 and 2). -/
def State.formLink (s : State) (j : Nat) : State :=
  let s := s.setLink j { Link.init with failTimes := (s.link j).failTimes, trained := (s.link j).trained, coeff := (s.link j).coeff }
  if s.fld (F.dvtLinkStatusState j) = 2 then
    if s.formingLinks.contains j then s.sendIdentity j else s
  else if s.fld (F.dvtLinkStatusState j) = 5 then s
  else s.setLinkState j 1

/-- MUSTER (R183, R184). Operands out of the range of R165 or R183 are BAD_DESCRIPTOR (DEDUCED, log 19). -/
def State.doMuster (s : State) (o : OpRef) (d : Desc) : State :=
  let size := d.le 16 2
  let m := d.le 18 2
  let x := d.le 20 1
  let y := d.le 21 1
  let z := d.le 22 1
  let ms := d.le 24 4
  if ¬ s.ownsAny o.fn then s.complete o Status.doesNotFit (noPartition 0)
  else if ¬ s.plainIdle ∨ s.flag F.dvtPlainFormed ∨ size = 0 ∨ 512 < size ∨ size ≤ m ∨ x * y * z ≠ size ∨ 16 < x ∨ 16 < y
      ∨ 16 < z ∨ ms = 0 ∨ 60000 < ms then s.complete o Status.badDescriptor 0
  else
    let s := { s with plain := { Plain.init with
      tick := s.plain.tick, formation := d.le 8 8, dimX := x, dimY := y, dimZ := z, deadline := s.now + ms * 1000000, op := some o } }
    let s := (s.setFlag F.dvtPlainForming true).gateValley 34
    let s := (s.setFld F.dvtPlainPlainSize size).setFld F.dvtPlainMemberIndex m
    ((List.range 6).foldl State.formLink s).sendRecord

/-- MUSTER. -/
def execMuster (i : FnId) (r : RingId) (s : State) : Host.Outcome State Fault Refusal :=
  .next (s.computeOp i r 0x06 (fun d => d.good 0 allBits 0xFFFFFFFFFFFFFF 0xFFFFFFFF .none) State.doMuster)

/-- DISSOLVE (R183): with no Plain formed it is OK and changes nothing (DEDUCED, log 19). -/
def State.doDissolve (s : State) (o : OpRef) (_ : Desc) : State :=
  if ¬ s.ownsAny o.fn then s.complete o Status.doesNotFit (noPartition 0)
  else if ¬ s.plainIdle then s.complete o Status.badDescriptor 0
  else (if s.flag F.dvtPlainFormed then s.dropPlain else s).complete o Status.ok 0

/-- DISSOLVE. -/
def execDissolve (i : FnId) (r : RingId) (s : State) : Host.Outcome State Fault Refusal :=
  .next (s.computeOp i r 0x07 (fun d => d.good 0 0 0 0 .none) State.doDissolve)

/-! ### PAGE_COMMIT -/

/-- PAGE_COMMIT (R160): refused, or noted until it applies; with the partition LOADED and nothing running it applies at
once. -/
def State.doPageCommit (s : State) (o : OpRef) (d : Desc) : State :=
  let p := d.w0 32 2
  let target := d.w0 36 2
  let pool := d.le 8 2
  let first := d.le 16 4
  let count := d.le 20 4
  let no := fun item unit whr => (misfit 0 item p unit whr).2
  if count = 0 ∨ target = 3 then s.complete o Status.badDescriptor 0
  else if (s.part p).owner ≠ some o.fn then s.complete o Status.doesNotFit (noPartition p)
  else if (s.part p).fenced then s.complete o Status.fenced 0
  else match (s.part p).list with
    | none => s.complete o Status.doesNotFit (no 0x04 0 0)
    | some l =>
      if ¬ bitOf l.roles 2 then s.complete o Status.doesNotFit (no 0x04 0 0)
      else match s.poolRegion p pool with
        | none => s.complete o Status.doesNotFit (no 0x0B (((l.regions.find? (fun r => r.id == pool && r.hbm)).map Region.unit).getD 0) pool)
        | some r =>
          if r.size / 65536 < first + count then s.complete o Status.doesNotFit (no 0x0B r.unit pool)
          else
            let c : PageCommit := ⟨o, p, r.memUnit, r.addr / 65536 + first, count, target, s.nextKerf⟩
            let s := s.setNeeds o (2 ^ p)
            let s := { s with run := { s.run with commits := s.run.commits ++ [c] } }
            if s.scheduled then s else s.runCommits

/-- PAGE_COMMIT. -/
def execPageCommit (i : FnId) (r : RingId) (s : State) : Host.Outcome State Fault Refusal :=
  .next (s.computeOp i r 0x08 (fun d => d.good 0x33 0xFFFF allBits 0 .none) State.doPageCommit)

end Sys2Proof.Machine
end

