-- ==== Sys2Proof/Machine/OpsShelf.lean ====
section
/-! DEFINITION. The named operations over the shelf (14_shelf.md): namespaces, commands, overlap, completion, states. -/

namespace Sys2Proof.Machine

/-! ### Grants (12_rings.md R351, R352) -/

/-- The device unit at a local index of a grant kind. -/
def State.unitOf (s : State) (i kind idx : Nat) : Option Nat :=
  ((s.fn i).grants.find? (fun g => g.kind == kind && g.localIdx == idx)).map (fun g => g.unit)

/-- The function that a device unit is granted to. -/
def State.holderOf (s : State) (kind unit : Nat) : Option Nat :=
  (List.range 64).find? (fun i => (s.fn i).grants.any (fun g => g.kind == kind && g.unit == unit))

/-- The function and ring of store queue pair q: the grant's local index is the ring (R386). -/
def State.sqpRing (s : State) (q : Nat) : Option (Nat × Nat) :=
  (s.holderOf 1 q).bind (fun i => ((s.fn i).grants.find? (fun g => g.kind == 1 && g.unit == q)).map (fun g => (i, g.localIdx)))

/-! ### Fenced granules -/

/-- Whether a partition that holds granules of an address run of n bytes is fenced (19_recovery.md R499). -/
def State.addrFenced (s : State) (a n : Nat) : Bool :=
  (maskList 4 (s.runParts a n)).any (fun p => (vote (s.part p).fence.a (s.part p).fence.b (s.part p).fence.c).getD true)

/-! ### The cipher engine's pairs (10_tenancy.md R301) -/

/-- A cipher pair disagreed: the mismatch is counted; the pair's third within an hour takes it out of service. Which
pair it was is a free value among those in service. -/
def State.cipherMismatch (s : State) : State :=
  let pairs := maskList 8 (s.fld F.cphStatusPairs)
  let pair := pairs.getD ((s.freeBits 3).toNat % max 1 pairs.length) 0
  let s := s.bumpFree.count F.cphMismatchCount 1
  let recent := (pair, s.now) :: s.sec.mismatches.filter (fun m => decide (s.now ≤ m.2 + 3600000000000))
  let s := { s with sec := { s.sec with mismatches := recent } }
  if 3 ≤ (recent.filter (fun m => m.1 == pair)).length ∧ pairs.contains pair then
    let s := s.setFld F.cphStatusPairs (listMask (pairs.filter (· != pair)))
    (s.critical 0x04 pair).rebuildTable
  else s

/-- The engine serves: a pair is in service. -/
def State.engineUp (s : State) : Bool := s.fld F.cphStatusPairs != 0

/-! ### Namespaces (R382 to R384) -/

/-- Key of a block. -/
def blockKey (ns lba : Nat) : Nat := ns * 2 ^ 40 + lba
/-- Size of a namespace in GiB; 0 where it is absent. -/
def State.nsSize (s : State) (ns : Nat) : Nat := Tab.get 0 s.shelf.size ns
/-- The 4,096 bytes of a block; an unmapped block reads as zero. -/
def State.block (s : State) (ns lba : Nat) : List Byte :=
  (Tab.get [] s.shelf.blocks (blockKey ns lba) ++ List.replicate 4096 0).take 4096
/-- Unmapping every block of a namespace. -/
def Shelf.unmapNs (x : Shelf) (ns : Nat) : Shelf :=
  { x with
    blocks := x.blocks.filter (fun p => p.1 / 2 ^ 40 != ns)
    page := x.page.filter (fun p => p.1 / 2 ^ 40 != ns) }
/-- One block unmapped. -/
def Shelf.trimBlock (x : Shelf) (ns lba : Nat) : Shelf :=
  { x with blocks := Tab.erase x.blocks (blockKey ns lba), page := Tab.erase x.page (blockKey ns lba) }

/-- The data unit number of a block: its LBA and the incarnation of its namespace (R385). -/
def State.blockUnit (s : State) (ns lba : Nat) : Nat := lba % 2 ^ 40 + Tab.get 0 s.shelf.inc ns % 256 * 2 ^ 40
/-- What the medium holds for a block under the keys of purposes 0x04 and 0x05 (R385). State holds the plaintext, to which a
READ decrypts it, since the block was encrypted under the same keys and data unit number (DEDUCED, log 28). -/
def State.storedBlock (s : State) (r : BindRec) (ns lba : Nat) : List Byte :=
  Crypto.xtsEncrypt (s.workingKey r (r.deviceLabel 0x04 ns)) (s.workingKey r (r.deviceLabel 0x05 ns)) (s.blockUnit ns lba) (s.block ns lba)

/-! ### Stripes (R379, R381)

A page holds one block, the parity page rotates with the stripe's number, and blocks fill a stripe in the order in which they
are written (DESIGN CHOICE, log 28). A stripe's parity page is never read by itself, so only its place is held. -/

/-- The channel of a stripe's parity page, among the channels in service when it is programmed. -/
def parityChannel (chans : List Nat) (stripe : Nat) : Nat := chans.getD (stripe % max 1 chans.length) 0
/-- A block takes the next data page of the stripe that is being programmed; its earlier page is stale. -/
def Shelf.place (x : Shelf) (chans : List Nat) (key : Nat) : Shelf :=
  let data := chans.filter (· != parityChannel chans x.stripe)
  let full := decide (data.length ≤ x.slot + 1)
  { x with
    page := Tab.set 0 x.page key (16 * x.stripe + data.getD x.slot 0 + 1)
    stripe := if full then x.stripe + 1 else x.stripe
    slot := if full then 0 else x.slot + 1 }
/-- One block written. -/
def Shelf.writeBlock (x : Shelf) (chans : List Nat) (ns lba : Nat) (bs : List Byte) : Shelf :=
  ({ x with blocks := Tab.set [] x.blocks (blockKey ns lba) bs }).place chans (blockKey ns lba)
/-- A stripe has a page on channel c: the channel is in service, or left it after the stripe. -/
def Shelf.stripeHas (x : Shelf) (chans : List Nat) (stripe c : Nat) : Bool := chans.contains c || decide (stripe < Tab.get 0 x.left c)
/-- A page cannot be read: LDPC does not correct it, or its channel is out of service. -/
def Shelf.pageBad (x : Shelf) (chans : List Nat) (stripe c : Nat) : Bool := x.unread.contains (16 * stripe + c) || !chans.contains c
/-- The page of a block cannot be read. -/
def Shelf.blockBad (x : Shelf) (chans : List Nat) (key : Nat) : Bool :=
  match Tab.get 0 x.page key with
  | 0 => false
  | p + 1 => x.pageBad chans (p / 16) (p % 16)
/-- The stripe of a block has lost it: its page and another page of the stripe cannot be read. -/
def Shelf.blockLost (x : Shelf) (chans : List Nat) (key : Nat) : Bool :=
  match Tab.get 0 x.page key with
  | 0 => false
  | p + 1 => x.pageBad chans (p / 16) (p % 16)
      && (List.range 16).any (fun c => c != p % 16 && x.stripeHas chans (p / 16) c && x.pageBad chans (p / 16) c)
/-- Blocks whose page cannot be read are rebuilt from their stripe into new pages; a lost one stays where it is. -/
def Shelf.mend (x : Shelf) (chans keys : List Nat) : Shelf :=
  (keys.filter (fun k => x.blockBad chans k && !x.blockLost chans k)).foldl (fun x k => x.place chans k) x
/-- Every stripe that touched a channel out of service is rebuilt on the channels in service. -/
def Shelf.rebuild (x : Shelf) (chans : List Nat) : Shelf :=
  let touched := fun k => match Tab.get 0 x.page k with
    | 0 => false
    | p + 1 => (List.range 16).any (fun c => !chans.contains c && x.stripeHas chans (p / 16) c)
  ((x.page.map Prod.fst).filter (fun k => touched k && !x.blockLost chans k)).foldl (fun x k => x.place chans k) x
/-- Channel c leaves service: the stripe that is being programmed ends. -/
def Shelf.leave (x : Shelf) (c : Nat) : Shelf :=
  let next := if x.slot = 0 then x.stripe else x.stripe + 1
  { x with stripe := next, slot := 0, left := Tab.set 0 x.left c next }
/-- The channels in service. -/
def State.chans (s : State) : List Nat := maskList 16 s.shelfChannels
/-- User blocks: 24 TiB (R380). -/
def userBlocks : Nat := 6442450944
/-- A WRITE of these blocks would take more than the user capacity; blocks that are mapped already take none (R404; DEDUCED, log
28). -/
def Shelf.noRoom (x : Shelf) (ns lba count : Nat) : Bool :=
  decide (userBlocks < x.blocks.length + ((List.range count).filter (fun j => Tab.get [] x.blocks (blockKey ns (lba + j)) == [])).length)

/-! ### States (R403, R405) -/

/-- Instances that hold a namespace. -/
def State.nsHolders (s : State) : List Nat := (List.range 64).filter (fun i => i != 0 && (s.fn i).grants.any (fun g => g.kind == 0))

/-- The shelf enters a state: MEDIA events with the state as detail, and critical events 0x01 and 0x02. -/
def State.setShelfState (s : State) (st : Nat) : State :=
  if s.fld F.shfStatusState = st then s
  else
    let s := s.setFld F.shfStatusState st
    let s := (0 :: s.nsHolders).foldl (fun s i => s.event i 0x0B 0 st) s
    if st = 2 then s.critical 0x01 0 else if st = 4 then s.critical 0x02 0 else s

/-- The state that spare blocks and channels out of service give, when no sanitize runs: READ_ONLY stays (R405). -/
def State.shelfHealth (s : State) : Nat :=
  let out := 16 - (maskList 16 s.shelfChannels).length
  if 3 ≤ out then 4
  else if 2 ≤ out ∨ s.fld F.shfStatusSpare = 0 ∨ s.fld F.shfStatusState = 2 then 2
  else if s.fld F.shfStatusSpare < 10 then 1 else 0

/-- The shelf's state follows its health; FAILED stays, and SANITIZING unless the shelf fails. -/
def State.updateShelf (s : State) : State :=
  if s.fld F.shfStatusState = 4 ∨ (s.fld F.shfStatusState = 3 ∧ s.shelfHealth ≠ 4) then s else s.setShelfState s.shelfHealth

/-- The spare blocks left, in percent, after blocks were retired. -/
def State.retireBlocks (s : State) (spare : Option (BitVec 7)) : State :=
  match spare with
  | none => s
  | some v => (s.setFld F.shfStatusSpare (min v.toNat (s.fld F.shfStatusSpare))).updateShelf

/-- The power state after idling or on a command (R409); SP0 is where commands run. The power core may hold SP1. -/
def State.wakeShelf (s : State) : State :=
  let s := s.setFld F.shfStatusPower (if s.flag F.pwrStatusShelfHeld then 1 else 0)
  { s with shelf := { s.shelf with lastCmd := s.now } }

/-! ### Commands (R389 to R394) -/

/-- The command changes blocks. -/
def ShelfCmd.writes (c : ShelfCmd) : Bool := c.opcode == 2 || c.opcode == 4
/-- The command has an LBA range. -/
def ShelfCmd.ranged (c : ShelfCmd) : Bool := c.opcode == 1 || c.opcode == 2 || c.opcode == 4

/-- Command c must wait for the earlier command e: an overlap with a write (R393), a FLUSH of the same queue pair, or,
for a FLUSH, a WRITE or TRIM of its queue pair (R394). -/
def ShelfCmd.waitsFor (c e : ShelfCmd) : Bool :=
  (c.ranged && e.ranged && c.ns == e.ns && (c.writes || e.writes) && decide (c.lba < e.lba + e.count ∧ e.lba < c.lba + c.count))
    || (c.q == e.q && (e.opcode == 3 || (c.opcode == 3 && e.writes)))

/-- The command may start behind those accepted earlier; a format of its namespace holds it (R384). -/
def State.shelfMayStart (s : State) (before : List ShelfCmd) (c : ShelfCmd) : Bool :=
  !before.any c.waitsFor && !(match c.ns with
    | some ns => s.shelf.formatting.contains ns
    | none => false)

/-- Every waiting command that may start starts, all at one moment: the classes of R388 order none of them behind another
(DEDUCED, log 28). -/
def State.startCmds (s : State) : List ShelfCmd → List ShelfCmd → List ShelfCmd
  | before, [] => before
  | before, c :: t =>
    let c' := if c.started || s.shelfMayStart before c then { c with started := true } else c
    s.startCmds (before ++ [c']) t

/-- Waiting commands start where nothing holds them any more, the switch of service core 0 among it (R401). -/
def State.shelfStart (s : State) : State := if bitOf s.fw.hold 3 then s else { s with shelf := { s.shelf with cmds := s.startCmds [] s.shelf.cmds } }

/-- A completion for an attached queue pair goes to the peer (R454): it waits until the remote-memory engine writes it. -/
def State.peerComplete (s : State) (q slot tag status result : Nat) : State :=
  match (List.range 2048).find? (fun n => ((Tab.get Qp.init s.rma.qps n).attach.map (fun a => a.sqp == q)).getD false) with
  | none => s
  | some n =>
    let x := Tab.get Qp.init s.rma.qps n
    match x.attach with
    | none => s
    | some a =>
      let a := { a with waiting := a.waiting ++ [⟨status, slot, tag, q % 256, result, false⟩] }
      { s with rma := { s.rma with qps := Tab.set Qp.init s.rma.qps n { x with attach := some a } } }

/-- The end of a shelf command. -/
def State.endShelf (s : State) (op : Option OpRef) (q slot tag status result : Nat) : State :=
  match op with
  | some o => s.complete o status result
  | none => s.peerComplete q slot tag status result

/-- A queue reset of store queue pair q (R400): commands that have not started complete with QUEUE_RESET. -/
def State.shelfReset (s : State) (q : Nat) : State :=
  let gone := s.shelf.cmds.filter (fun c => c.q == q && !c.started)
  let s := { s with shelf := { s.shelf with cmds := s.shelf.cmds.filter (fun c => !(c.q == q && !c.started)) } }
  (gone.foldl (fun s c => s.endShelf c.op c.q c.slot c.tag Status.queueReset 0) s).shelfStart

end Sys2Proof.Machine
end

