-- ==== Sys2Proof/Machine/OpsRing.lean ====
section
/-! DEFINITION. The named operations over rings (12_rings.md R334 to R346): enabling, fetching, messages, resets. -/

namespace Sys2Proof.Machine

/-! ### Grants of rings -/

/-- The remote-memory queue pair of RMA ring r of function i (R439). -/
def State.qpOf (s : State) (i r : Nat) : Option Nat := s.unitOf i 2 r
/-- The store queue pair of SHF ring r of function i (R386). -/
def State.sqpOf (s : State) (i r : Nat) : Option Nat := s.unitOf i 1 r
/-- The Ethernet queue of an ETX or ERX ring: rings 2e and 2e + 1 belong to the queue at local index e (DESIGN CHOICE,
log 14: no rule numbers them). -/
def State.ethOf (s : State) (i r : Nat) : Option Nat := s.unitOf i 3 (r / 2)
/-- The ACTIVE ring of a kind, 3 or 4, of Ethernet queue n, with its function. -/
def State.ethRing (s : State) (n kind : Nat) : Option (Nat × Nat) :=
  (s.holderOf 3 n).bind (fun i =>
    ((s.fn i).grants.find? (fun g => g.kind == 3 && g.unit == n)).bind (fun g =>
      ([2 * g.localIdx, 2 * g.localIdx + 1].find? (fun r => s.ringActive i r && s.ringKind i r == kind)).map (fun r => (i, r))))

/-! ### Enabling (R336) -/

/-- The ring takes part in the device: ACTIVE, RESETTING or ERROR. -/
def State.ringEnabled (s : State) (i r : Nat) : Bool := s.fld (F.rngStatusState i r) != 0

/-- Submission rings of function i that report to its CPL ring q. -/
def State.reporting (s : State) (i q : Nat) : List Nat :=
  (List.range 256).filter (fun r => s.ringEnabled i r && submissionKind (s.ringKind i r) && s.fld (F.rngCfgCpl i r) == q)

/-- The function may enable the kind (R334). -/
def kindAllowed (i kind : Nat) : Bool :=
  if i = 0 then kind == 1 || kind == 6 || kind == 7 || kind == 8 else decide (1 ≤ kind ∧ kind ≤ 8)

/-- The log2 sizes that the kind allows: 4 to 16, and 4 to 12 for SHF and RMA rings (R386, R439). -/
def goodSize (kind log2 : Nat) : Bool := decide (4 ≤ log2 ∧ log2 ≤ if kind = 2 ∨ kind = 5 then 12 else 16)

/-- The first check that fails when ring r of function i is enabled; 0 where none does. -/
def State.enableError (s : State) (i r : Nat) : Nat :=
  let kind := s.ringKind i r
  let log2 := s.fld (F.rngCfgLog2Size i r)
  let q := s.fld (F.rngCfgCpl i r)
  if ¬ goodSize kind log2 ∨ s.ringAddr i r % 4096 ≠ 0 then 1
  else if ¬ kindAllowed i kind then 2
  else if 4096 ≤ s.host.enabled ∨ (kind = 7 ∧ (List.range 256).any (fun k => s.ringEnabled i k && s.ringKind i k == 7)) then 3
  else if submissionKind kind ∧ (¬ s.ringEnabled i q ∨ s.ringKind i q ≠ 8 ∨
      s.ringSize i q < ((s.reporting i q).map (s.ringSize i)).foldl (· + ·) (2 ^ log2)) then 4
  else if ¬ submissionKind kind ∧ (s.fn i).vectors ≤ s.fld (F.rngCfgVector i r) then 5
  else if (kind = 5 ∧ (s.qpOf i r).isNone) ∨ (kind = 2 ∧ (s.sqpOf i r).isNone) then 6
  else 0

/-- Enable applies to a DISABLED ring; the expected sequence of an SHF ring's queue pair starts at 0 (14_shelf.md R391). -/
def State.enableRing (s : State) (i r : Nat) : State :=
  if s.ringEnabled i r then s
  else
    let e := s.enableError i r
    let s := s.setFld (F.rngStatusError i r) e
    if e ≠ 0 then s
    else
      let s := (s.setRing i r Ring.init).setFld (F.rngStatusState i r) 1
      let s : State := match (if s.ringKind i r = 2 then s.sqpOf i r else none) with
        | some q => { s with shelf := { s.shelf with expected := Tab.set 0 s.shelf.expected q 0 } }
        | none => s
      { s with host := { s.host with enabled := s.host.enabled + 1 } }

/-! ### Fetching and errors (R339, R346) -/

/-- A PCIe error of ring r: it goes to ERROR with the code, and a RING_ERROR event goes to the owner. -/
def State.ringError (s : State) (i r code : Nat) : State :=
  let s := (s.setFld (F.rngStatusState i r) 3).setFld (F.rngStatusError i r) code
  s.event i 0x01 r code

/-- While the switch of the scheduler core or of service core 0 waits for its quiet point, compute rings or store queue pairs are
not fetched (09_firmware.md R281; 14_shelf.md R401). -/
def State.heldKind (s : State) (kind : Nat) : Bool := (kind == 1 && bitOf s.fw.hold 2) || (kind == 2 && bitOf s.fw.hold 3)

/-- The ring has a descriptor to fetch. -/
def State.canFetch (s : State) (i r : Nat) : Bool :=
  s.ringActive i r && submissionKind (s.ringKind i r) && s.fetches i && !s.heldKind (s.ringKind i r)
    && s.fld (F.rngHeadCount i r) != s.fld (F.rngTailCount i r)

/-- One descriptor is read from host memory. -/
def State.fetchOne (s : State) (i r : Nat) : State :=
  if s.canFetch i r then
    let n := s.fld (F.rngHeadCount i r)
    let bytes := Memory.read s.host.mem (s.ringAddr i r + 64 * (n % s.ringSize i r)) 64
    let q := s.ring i r
    let s := (s.setRing i r { q with fetched := q.fetched ++ [⟨n, bytes, s.host.fetchSeq⟩] }).setFld (F.rngHeadCount i r) ((n + 1) % 2 ^ 32)
    { s with host := { s.host with fetchSeq := s.host.fetchSeq + 1 } }
  else s

/-- The opcodes of a ring kind; MBX and CMP rings of the manager have their own (R349, R351, R358, R359, R389, R427, R430,
R441 to R454). -/
def ringOpcodes (i kind : Nat) : List Nat :=
  match kind with
  | 1 => if i = 0 then [0x20, 0x21, 0x22, 0x23, 0x24, 0x25, 0x26, 0x27] else [1, 2, 3, 4, 5, 6, 7, 8, 9]
  | 2 => [1, 2, 3, 4, 5]
  | 3 => [1, 2]
  | 4 => [1]
  | 5 => [1, 2, 0x10, 0x11, 0x12, 0x13, 0x14]
  | 6 => if i = 0 then [1, 2] else [1]
  | _ => []

/-! ### Completions and messages (R324, R342, R343) -/

/-- A vector of function i has a message: it leaves, or its pending bit is set where the vector or the function is masked. -/
def State.signal (s : State) (i vec : Nat) : State :=
  let f := s.fn i
  let e := Tab.get MsixEntry.init f.msix vec
  if e.masked ∨ f.fmask then s.setFn i { f with msix := Tab.set MsixEntry.init f.msix vec { e with pending := true } }
  else s.emit (.msix i vec e.addr e.data)

/-- A message of ring r is due. -/
def State.messageDue (s : State) (i r : Nat) : Bool :=
  let q := s.ring i r
  let t := s.fld (F.rngModTime i r)
  decide (0 < q.unsignalled) &&
    (q.nowDue || decide (max 1 (s.fld (F.rngModCount i r)) ≤ q.unsignalled) || (t != 0 && decide (q.firstAt + 1000 * t ≤ s.now)))

/-! ### Queue reset (R345) -/

/-- Fetched descriptors that have not started complete with a status. -/
def State.dropFetched (s : State) (i r status : Nat) : State :=
  let q := s.ring i r
  let fl := q.fetched.map (fun d => (⟨d.num, d.le 2 2, bitOf (d.le 0 2) 10, d.opcode, some (status, 0), 0⟩ : Flight))
  s.setRing i r { q with fetched := [], flight := q.flight ++ fl }

/-- Every descriptor of the ring in flight that a predicate names completes with a status. -/
def State.endFlights (s : State) (i r status : Nat) (p : Flight → Bool) : State :=
  ((s.ring i r).flight.filter (fun f => f.done.isNone && p f)).foldl (fun s f => s.complete ⟨i, r, f.num⟩ status 0) s

/-- The running START of ring r is detached with QUEUE_RESET. -/
def State.detachStart (s : State) (i r : Nat) : State :=
  match s.run.start with
  | some o => if o.fn = i ∧ o.ring = r then ({ s with run := { s.run with start := none } }).complete o Status.queueReset 0 else s
  | none => s

/-- Posted receive buffers complete with a status. -/
def State.dropBufs (s : State) (i r status : Nat) : State :=
  let bufs := (s.ring i r).bufs
  let s := s.setRing i r { s.ring i r with bufs := [] }
  bufs.foldl (fun s b => s.complete ⟨i, r, b.num⟩ status 0) s

end Sys2Proof.Machine
end

