-- ==== Sys2Proof/Machine/OpsEth.lean ====
section
/-! DEFINITION. The named operations over Ethernet (15_ethernet.md): ports, rule sets, receive buffers, the transmit
scheduler. -/

namespace Sys2Proof.Machine

/-! ### Ports (R410 to R414) -/

/-- Port p. -/
def State.port (s : State) (p : Nat) : Port := Tab.get Port.init s.eth.ports p
/-- Replacing port p. -/
def State.setPort (s : State) (p : Nat) (x : Port) : State := { s with eth := { s.eth with ports := Tab.set Port.init s.eth.ports p x } }
/-- Port p is up. -/
def State.portUp (s : State) (p : Nat) : Bool := s.flag (F.ethPortStatusUp p)
/-- The port of Ethernet queue n. -/
def State.queuePort (s : State) (n : Nat) : Nat := s.fld (F.ethQmapPort n)
/-- The IPv4 address of port p. -/
def State.ip4Of (s : State) (p : Nat) : List Byte := (Tab.get [] s.mfg.ip4 p ++ List.replicate 4 0).take 4
/-- The IPv6 address of port p. -/
def State.ip6Of (s : State) (p : Nat) : List Byte := (Tab.get [] s.mfg.ip6 p ++ List.replicate 16 0).take 16

/-- Rate of a mode in Mb/s (R410). -/
def modeRate (m : Nat) : Nat := if m = 1 then 200000 else if m = 2 then 400000 else if m = 3 then 800000 else 0

/-- A LINK event of port p (R413). -/
def State.portEvent (s : State) (p : Nat) : State := (s.event 0 0x0C p (s.fld (F.ethPortStatusUp p))).raiseFw 4 2

/-- Port p goes down: frames on the line and frames that wait are lost, their SENDs complete with LINK_FAILED, and
nothing is held (R414). -/
def State.dropPort (s : State) (p : Nat) : State :=
  if s.portUp p then
    let x := s.port p
    let frames := x.line.toList ++ x.waiting
    let s := s.setPort p { x with ahead := [], waiting := [], line := none }
    let s := (s.setFlag (F.ethPortStatusUp p) false).setFld (F.ethPortStatusMode p) 0
    let s := frames.foldl (fun s f => match f.op with
      | some o => s.complete o Status.linkFailed 0
      | none => s) s
    s.portEvent p
  else s

/-- The lanes of port p in service change to a mask: the port retrains and the Resource Table follows (R413). -/
def State.setLanes (s : State) (p lanes : Nat) : State :=
  if s.portLanes p = lanes then s else ((s.dropPort p).setFld (F.ethPortStatusLanes p) lanes).rebuildTable

/-- The lanes in service: those that neither the applied ETH_LANE_CTRL.map_out nor firmware maps out. -/
def State.applyLanes (s : State) (p : Nat) : State :=
  s.setLanes p (listMask ((List.range 4).filter (fun n => !bitOf (s.fld (F.ethLaneCtrlMapOut p)) n && !bitOf (s.port p).failed n)))

/-- Modes 1 to the highest that configuration and lanes allow. -/
def State.ownMode (s : State) (p : Nat) : Nat :=
  min (s.fld (F.ethPortCfgMode p)) (modeOfLanes (maskList 4 (s.portLanes p)).length)

/-! ### Rule sets (R418 to R422) -/

/-- Rules of a rule set. -/
def ruleCount (rs : List Byte) : Nat := fieldLE rs 4 2
/-- Rule k. -/
def ruleAt (rs : List Byte) (k : Nat) : List Byte := (rs.drop (0x240 + 64 * k)).take 64

/-- One rule passes the checks of R422. -/
def State.goodRule (s : State) (p : Nat) (r : List Byte) : Bool :=
  let limit := if fieldLE r 7 1 = 4 then 32 else 128
  fieldLE r 0 2 / 64 == 0 && fieldLE r 4 2 / 4096 == 0 && fieldLE r 0x33 1 / 4 == 0 && fieldLE r 0x38 8 == 0
    && decide (fieldLE r 0x30 1 ≤ limit ∧ fieldLE r 0x31 1 ≤ limit) && decide (fieldLE r 0x32 1 ≤ 4)
    && (fieldLE r 0x32 1 != 1 || (decide (fieldLE r 0x34 2 < 512) && s.queuePort (fieldLE r 0x34 2) == p))

/-- One comparator passes the checks. -/
def goodComparator (v : Nat) : Bool := bitsOf v 4 28 == 0 && decide (bitsOf v 0 4 ≤ 5)

/-- Step 3 of R422 for port p. -/
def State.goodRules (s : State) (p : Nat) (rs : List Byte) : Bool :=
  fieldLE rs 0 4 == 0x53454C52 && decide (ruleCount rs ≤ 4096) && (fieldLE rs 6 1 == 0 || fieldLE rs 6 1 == 2)
    && ((rs.drop 7).take 57).all (· == 0)
    && (List.range 64).all (fun c => goodComparator (fieldLE rs (0x40 + 8 * c) 8))
    && (List.range (ruleCount rs)).all (fun k => s.goodRule p (ruleAt rs k))

/-- The value that a comparator field reads from a frame (R418). -/
def cmpValue (f : List Byte) (p : Parsed) (field : Nat) : Option Nat :=
  match field with
  | 0 => p.ports.map Prod.fst
  | 1 => p.ports.map Prod.snd
  | 2 => some (f.length + 4)
  | 3 => p.outer.map (fun t => t / 8192)
  | 4 => if p.ipVer = 0 then none else some p.dscp
  | 5 => if p.ipVer = 0 then none else some p.ttl
  | _ => none

/-- Comparator c of a rule set is true of a frame. -/
def cmpTrue (rs f : List Byte) (p : Parsed) (c : Nat) : Bool :=
  let v := fieldLE rs (0x40 + 8 * c) 8
  match cmpValue f p (bitsOf v 0 4) with
  | none => false
  | some x => decide (bitsOf v 32 16 ≤ x ∧ x ≤ bitsOf v 48 16)

/-- The leading bits of two addresses are equal. -/
def prefixEq (n : Nat) (a b : List Byte) : Bool := beNat (a ++ [0]) / 2 ^ (136 - n) == beNat (b ++ [0]) / 2 ^ (136 - n)

/-- The frame matches the rule (R420). Byte n of src and dst is byte n of the frame's address, in network order (DESIGN CHOICE beside
00_scope.md R8, log 30). -/
def ruleMatches (rs f : List Byte) (p : Parsed) (r : List Byte) : Bool :=
  let valid := fieldLE r 0 2
  let ip := p.ipVer != 0
  (!bitOf valid 0 || fieldLE r 2 2 == p.etherType)
    && (!bitOf valid 1 || p.vlan.map (· % 4096) == some (fieldLE r 4 2 % 4096))
    && (!bitOf valid 2 || (ip && fieldLE r 7 1 == p.ipVer))
    && (!bitOf valid 3 || (ip && fieldLE r 6 1 == p.proto))
    && (!bitOf valid 4 || (ip && prefixEq (fieldLE r 0x30 1) ((r.drop 8).take 16) p.src))
    && (!bitOf valid 5 || (ip && prefixEq (fieldLE r 0x31 1) ((r.drop 0x18).take 16) p.dst))
    && (maskList 64 (fieldLE r 0x28 8)).all (cmpTrue rs f p)

/-! ### Receive buffers (R427 to R429) -/

/-- POST takes a buffer onto the free list; a format fault completes it with BAD_DESCRIPTOR. -/
def State.doPost (s : State) (o : OpRef) (d : Desc) : State :=
  let addr := d.le 8 8
  let len := d.le 16 4
  match s.boundStatus with
  | some st => s.complete o st 0
  | none =>
    if d.good 0x01000000 allBits 0xFFFFFFFF 0 .none ∧ addr % 64 = 0 ∧ len % 64 = 0 ∧ 256 ≤ len ∧ len ≤ 65536 then
      let q := s.ring o.fn o.ring
      s.setRing o.fn o.ring { q with bufs := q.bufs ++ [⟨d.num, bitOf (d.w0 32 32) 24, addr, len⟩] }
    else s.complete o Status.badDescriptor 0

/-- One buffer that the ring holds is taken onto the free list. -/
def State.takeBuf (s : State) (i r : Nat) : State :=
  let s := if (s.ring i r).fetched = [] then s.fetchOne i r else s
  s.withOp i r 4 1 State.doPost

/-- Bytes of the free list of a ring. -/
def State.freeBytes (s : State) (i r : Nat) : Nat := ((s.ring i r).bufs.map Buf.len).foldl (· + ·) 0

/-- Buffers are taken until n bytes fit or the ring holds no more (R427, R429). -/
def State.takeBufs (s : State) (i r n : Nat) : Nat → State
  | 0 => s
  | fuel + 1 =>
    if n ≤ s.freeBytes i r ∨ 64 ≤ (s.ring i r).bufs.length then s else (s.takeBuf i r).takeBufs i r n fuel

/-- A frame's bytes over buffers: each buffer with its part. -/
def fillBufs : List Buf → List Byte → List (Buf × List Byte)
  | _, [] => []
  | [], _ => []
  | b :: t, bs => (b, bs.take b.len) :: fillBufs t (bs.drop b.len)

/-- The result of one buffer's completion (R428). -/
def rxResult (bytes : Nat) (sof eof sealed l3 l4 : Bool) (rule version : Nat) : Nat :=
  let bit := fun (b : Bool) (k : Nat) => if b then 2 ^ k else 0
  bytes + bit sof 17 + bit eof 18 + bit sealed 19 + bit l3 20 + bit l4 21 + rule * 2 ^ 32 + version * 2 ^ 44

/-- A frame is written to the buffers of ring r of function i, in order, with their completions; a frame that meets violations
counts one (10_tenancy.md R305). Every completion carries OK, as R428 says, also where a partial line write was refused (07_memory.md
R205, R216; DESIGN CHOICE, log 30). -/
def State.writeFrame (s : State) (i r : Nat) (bs : List Byte) (sealed l3 l4 : Bool) (rule version : Nat) : State :=
  let parts := fillBufs (s.ring i r).bufs bs
  let n := parts.length
  let s := s.setRing i r { s.ring i r with bufs := (s.ring i r).bufs.drop n }
  let (bad, s) := parts.foldl (fun (acc : Bool × State) (b, part) =>
    if b.devmem then
      let (m, s) := acc.2.devWrite (.cipher sealed) (.inst i) b.addr part
      (acc.1 || m.violated, s)
    else (acc.1, acc.2.hostWrite (.cipher sealed) b.addr part)) (false, s)
  let s := s.violateIf bad i
  (parts.zip (List.range n)).foldl (fun s ((b, part), k) =>
    s.complete ⟨i, r, b.num⟩ Status.ok (rxResult part.length (k == 0) (k + 1 == n) sealed l3 l4 rule version)) s

/-- The frame finds no buffer: counted for its queue (R424, R429). -/
def State.noBuffer (s : State) (n : Nat) : State := s.count (F.ethRxdropNobufCount n) 1

/-- A frame for a buffer in a fenced partition's granules: the frame is dropped and those buffers complete with FENCED
(19_recovery.md R499). -/
def State.fencedBufs (s : State) (i r n : Nat) (bad : List Buf) : State :=
  let s := (s.noBuffer n).setRing i r { s.ring i r with bufs := (s.ring i r).bufs.filter (fun b => !bad.contains b) }
  bad.foldl (fun s b => s.complete ⟨i, r, b.num⟩ Status.fenced 0) s

/-! ### Sealed flows (R425, R426) -/

/-- The key of flow key slot k; a free value where no label is bound, as the manual names none. -/
def State.flowKey (s : State) (k : Nat) : List Byte × State :=
  let label := (Tab.get FlowKey.init s.eth.keys k).label
  match label, s.sec.record with
  | _ :: _, some r => (s.workingKey r label, s.useKey label)
  | _, _ => (leBytes 32 (s.freeBits 256).toNat, s.bumpFree)

/-- A received sealed frame opened under a key: its headers, its seal header and the plaintext. -/
def openFrame (key f : List Byte) (p : Parsed) : Option (List Byte) :=
  let head := p.l4At + 8
  let e := p.l4At + fieldBE f (p.l4At + 4) 2
  if p.proto ≠ 17 ∨ p.ports = none ∨ e < head + 28 ∨ f.length < e then none
  else
    let iv := span f head (head + 12)
    (Crypto.gcmOpen key iv iv (span f (head + 12) (e - 16)) (span f (e - 16) e)).map (fun pt => f.take (head + 12) ++ pt)

/-- A frame sealed under a key with sender and counter: the seal header, ciphertext and tag after the UDP header, lengths
raised by 28. The tag ends the UDP payload; bytes past it do not leave (DESIGN CHOICE, log 30). -/
def sealFrame (key : List Byte) (sender counter : Nat) (f : List Byte) (head : Nat) : List Byte :=
  let iv := beBytes 4 sender ++ beBytes 8 counter
  let e := head - 8 + fieldBE f (head - 4) 2
  let (ct, tag) := Crypto.gcmSeal key iv iv ((if e < head then f else f.take e).drop head)
  raiseLengths f 28 |>.take head |> (· ++ iv ++ ct ++ tag)

/-- The bytes that a SEND takes from its source, whether a rule was violated and whether a line was poisoned. -/
def State.sendBytes (s : State) (via : Via) (i : Nat) (devmem : Bool) (addr len : Nat) : List Byte × Met × State :=
  if devmem then s.devRead via (.inst i) addr len
  else let (bs, s) := s.hostRead via addr len; (bs, Met.none, s)

/-- Delivery to queue n by rule k (R421, R424 to R429). -/
def State.deliver (s : State) (p n rule : Nat) (sealed : Option Nat) (f : List Byte) (h : Parsed) (mismatch : Bool) : State :=
  match s.ethRing n 4 with
  | none => s.noBuffer n
  | some (i, r) =>
    let need := if sealed.isSome then f.length - 16 else f.length
    let s := s.takeBufs i r need 64
    let used := (fillBufs (s.ring i r).bufs (List.replicate need 0)).map Prod.fst
    let hostBuf := used.any (fun b => !b.devmem)
    let bad := used.filter (fun b => b.devmem && s.addrFenced b.addr b.len)
    if bad ≠ [] then s.fencedBufs i r n bad
    else if s.freeBytes i r < need ∨ need = 0 ∨ (hostBuf ∧ ¬ s.dmaOk i) then s.noBuffer n
    else
      let version := s.fld (F.ethRsStatusVersion p)
      let l4 := h.l4ok.getD (s.freeBits 1 == 1#1)
      let s := if h.l4ok.isNone then s.bumpFree else s
      match sealed with
      | none => s.writeFrame i r f false h.l3ok l4 rule version
      | some k =>
        if ¬ s.engineUp then s
        else if mismatch then s.cipherMismatch
        else
          let (key, s) := s.flowKey k
          match openFrame key f h with
          | none => s.count (F.ethRxDropInteg p) 1
          | some g => s.writeFrame i r g true h.l3ok l4 rule version

/-- The slow path takes a frame, or drops it when 4,096 frames wait (R417). -/
def State.slowFrame (s : State) (p : Nat) (f : List Byte) : State :=
  let x := s.port p
  if 4096 ≤ x.slow.length then s.count (F.ethRxCtrlSlow p) 1 else (s.setPort p { x with slow := x.slow ++ [f] }).raiseFw 4 0

/-- A frame of service core 1 or of the time unit goes ahead of every service (R432). -/
def State.sendAhead (s : State) (p : Nat) (f : List Byte) : State :=
  if s.portUp p then s.setPort p { s.port p with ahead := (s.port p).ahead ++ [f] } else s

/-- A message of the time unit leaves on port p with a correction field, by the transport of the last message that came there (DESIGN
CHOICE, log 29). -/
def State.ptpSend (s : State) (p kind flags : Nat) (corr : List Byte) (seq : Nat) (body : List Byte) : State :=
  s.sendAhead p (ptpFrame (Tab.get 0 s.tim.via p) (s.macOf p) (s.ip4Of p) (s.ip6Of p)
    (ptpMessage kind (s.fld F.timCfgDomain) flags corr (s.clockId ++ beBytes 2 (p + 1)) seq body))

/-- The answer to a request of another clock: a master port answers a delay request, every port of the peer-to-peer profile a peer
delay request, in one step or two, with the request's correction kept (R462). -/
def State.ptpAnswer (s : State) (p : Nat) (m : List Byte) : State :=
  let now := ptpStamp s.deviceTime
  let kept := ptpCorrection m
  let zero := List.replicate 8 0
  if s.flag F.timCfgP2p then
    if ptpType m = ptpPdelayReq then
      if s.flag F.timCfgTwoStep then
        (s.ptpSend p ptpPdelayResp 0x0200 zero (ptpSeq m) (now ++ ptpSender m)).ptpSend p ptpPdelayFollowUp 0 kept (ptpSeq m) (now ++ ptpSender m)
      else s.ptpSend p ptpPdelayResp 0 kept (ptpSeq m) (ptpStamp 0 ++ ptpSender m)
    else s
  else if ptpType m = ptpDelayReq ∧ s.fld F.timCfgRole = 2 ∧ s.slavePort ≠ some p then
    s.ptpSend p ptpDelayResp 0 kept (ptpSeq m) (now ++ ptpSender m)
  else s

/-- A frame goes to the unit of action 3 or 4 (R421). The remote memory engine holds RoCE frames, to UDP port 4791, for its commands.
The time unit takes messages of its domain on the ports of its role: it holds Sync and Announce for its commands and answers
requests; all else is discarded, and what Follow_Up and delay responses say is part of PTP_SYNC's offset (16_rdma.md, 17_time.md
R462). -/
def State.hand (s : State) (p unit : Nat) (f : List Byte) : State :=
  let hold := s.setPort p { s.port p with handed := (s.port p).handed ++ [(unit, f)] }
  if unit = 3 then (if (parseFrame f).proto = 17 ∧ ((parseFrame f).ports.map Prod.snd) = some 4791 then hold else s)
  else match ptpOf f with
    | none => s
    | some m =>
      if ¬ s.pins.aux ∨ ¬ s.sourceOn (ptpCode p) ∨ ptpDomain m ≠ s.fld F.timCfgDomain then s
      else
        let via := Tab.set 0 s.tim.via p (ptpVia f)
        if ptpType m = ptpSyncType ∨ ptpType m = ptpAnnounceType then { hold with tim := { s.tim with via := via } }
        else ({ s with tim := { s.tim with via := via } } : State).ptpAnswer p m

/-- The oldest message of this type and of the device's domain that a rule has handed over on port p, and the state without its
frame (R462). -/
def State.takePtp (s : State) (kind p : Nat) : Option (List Byte × State) :=
  let x := s.port p
  let mine := fun (m : List Byte) => ptpType m == kind && ptpDomain m == s.fld F.timCfgDomain
  if ¬ s.pins.aux ∨ ¬ s.sourceOn (ptpCode p) then none
  else (x.handed.find? (fun u => u.1 == 4 && (ptpOf u.2).any mine)).bind (fun u =>
    (ptpOf u.2).map (fun m => (m, s.setPort p { x with handed := x.handed.erase u })))

/-- What the time unit sends with every second (R462; the interval is a DESIGN CHOICE, log 29): a master port Announce and Sync, of
two steps with Follow_Up, and a slave port its delay request, or each a peer delay request. While LOCKED an
Announce carries the parent data set of the slave port, where it has heard one, else, and in HOLDOVER and FREERUN, the device's own
(that a clock locked to PPS_IN without a slave port does: DESIGN CHOICE, log 29). -/
def State.ptpBeat (s : State) : State :=
  let n := s.tim.seq % 65536
  let now := ptpStamp s.deviceTime
  let zero := List.replicate 8 0
  let heard := (s.slavePort.map s.announced).getD []
  let parent := s.fld F.timStatusState = TimeState.locked ∧ heard ≠ []
  let set := if parent then stepSet heard else ownSet s.clockId
  let s := [0, 1].foldl (fun s p =>
    if ¬ s.sourceOn (ptpCode p) then s
    else
      let s := if s.fld F.timCfgRole = 2 ∧ s.slavePort ≠ some p then
          let s := s.ptpSend p ptpAnnounceType (if parent then 0x000C else 0x0008) zero n
            (ptpStamp 0 ++ beBytes 2 (s.fld F.timUtcOffset) ++ [0] ++ set)
          if s.flag F.timCfgTwoStep then (s.ptpSend p ptpSyncType 0x0200 zero n (ptpStamp 0)).ptpSend p ptpFollowUp 0 zero n now
          else s.ptpSend p ptpSyncType 0 zero n now
        else if s.flag F.timCfgP2p then s else s.ptpSend p ptpDelayReq 0 zero n (ptpStamp 0)
      if s.flag F.timCfgP2p then s.ptpSend p ptpPdelayReq 0 zero n (ptpStamp 0 ++ List.replicate 10 0) else s) s
  { s with tim := { s.tim with seq := s.tim.seq + 1 } }

/-- Classification of a parsed frame (R420, R421). -/
def State.classify (s : State) (p : Nat) (f : List Byte) (h : Parsed) (mismatch : Bool) : State :=
  let rs := (s.port p).rules
  match (List.range (ruleCount rs)).find? (fun k => ruleMatches rs f h (ruleAt rs k)) with
  | none =>
    let s := s.count (F.ethRxDropNomatch p) 1
    if fieldLE rs 6 1 = 2 then s.slowFrame p f else s
  | some k =>
    let r := ruleAt rs k
    let s := if bitOf (fieldLE r 0x33 1) 0 ∧ (s.fn 0).d3hot then s.wake 2 else s
    match fieldLE r 0x32 1 with
    | 1 => s.deliver p (fieldLE r 0x34 2) k (if bitOf (fieldLE r 0x33 1) 1 then some (fieldLE r 0x36 2 % 1024) else none) f h mismatch
    | 2 => s.slowFrame p f
    | 3 => s.hand p 3 f
    | 4 => s.hand p 4 f
    | _ => s

/-! ### The transmit scheduler (R432 to R435) -/

/-- Keys of a port's nodes. -/
def subKey (p n : Nat) : Nat := 4096 * p + n
/-- Service n of port p. -/
def svcKey (p n : Nat) : Nat := 4096 * p + 2048 + n
/-- The port's own node. -/
def portKey (p : Nat) : Nat := 4096 * p + 2112

/-- A node. -/
def State.node (s : State) (k : Nat) : Node := Tab.get (Node.init (k % 4096 == 2112)) s.eth.nodes k
/-- Replacing a node. -/
def State.setNode (s : State) (k : Nat) (x : Node) : State :=
  { s with eth := { s.eth with nodes := Tab.set (Node.init (k % 4096 == 2112)) s.eth.nodes k x } }

/-- Tokens of a bucket after refilling to time t: rate in Mb/s, burst in KiB, tokens in 1/256 byte; a Mb/s is 4/125 of
1/256 byte per ns. An unshaped node holds its burst. -/
def refill (rate burst : Nat) (tokens : Int) (since t : Nat) : Int :=
  let full : Int := (min 16384 (max 1 burst) : Nat) * 262144
  if rate = 0 then full else min full (tokens + ((rate * 4 * (t - since) / 125 : Nat) : Int))

/-- Tokens of node k now. -/
def State.nodeTokens (s : State) (k : Nat) : Int :=
  let x := s.node k
  refill x.rate x.burst x.tokens x.at_ s.now

/-- Queue pair n. -/
def State.qp (s : State) (n : Nat) : Qp := Tab.get Qp.init s.rma.qps n
/-- Replacing queue pair n. -/
def State.setQp (s : State) (n : Nat) (x : Qp) : State := { s with rma := { s.rma with qps := Tab.set Qp.init s.rma.qps n x } }

/-- Tokens of the shaped leaf of queue pair n (R453). -/
def State.qpTokens (s : State) (n : Nat) : Int :=
  let x := s.qp n
  refill x.rc.floor.toNat 64 x.tokens x.tokAt s.now

/-- The subscriber of a frame's queue or queue pair. -/
def State.frameSub (s : State) (f : TxFrame) : Nat :=
  if f.queue < 4096 then s.fld (F.ethQmapSubscriber f.queue) else s.fld (F.rmaQpCfgSubscriber (f.queue - 4096))

/-- The frame's queue may send: a queue pair needs tokens of its own. -/
def State.leafReady (s : State) (f : TxFrame) : Bool := f.queue < 4096 || decide (0 ≤ s.qpTokens (f.queue - 4096))

/-- An earlier SEND of the same ring waits or is on the line at the other port, to which its queue was bound then (R431). -/
def State.later (s : State) (p : Nat) (f : TxFrame) : Bool :=
  let other := s.port (1 - p)
  f.op.any (fun o => (other.line.toList ++ other.waiting).any (fun g => g.op.any (fun q => q.fn == o.fn && q.ring == o.ring && decide (q.num < o.num))))

/-- The first frames of each queue of a port that may send. -/
def State.heads (s : State) (p : Nat) : List TxFrame :=
  let w := (s.port p).waiting
  let firsts := w.foldl (fun (acc : List TxFrame) f => if acc.any (fun g => g.queue == f.queue) then acc else acc ++ [f]) []
  firsts.filter (fun f => s.leafReady f && !s.later p f && decide (0 ≤ s.nodeTokens (subKey p (s.frameSub f)))
    && decide (0 ≤ s.nodeTokens (svcKey p (s.node (subKey p (s.frameSub f))).parent)))

/-- The first member of a list of numbers after k, in circular order. -/
def nextAfter (k : Nat) (l : List Nat) : Option Nat :=
  let sorted := l.foldl (fun acc x => insertNat x acc) []
  match sorted.find? (fun x => decide (k < x)) with
  | some x => some x
  | none => sorted.head?

/-- Bytes of a frame from the destination address to the FCS (R434). -/
def TxFrame.len (f : TxFrame) : Nat := f.bytes.length + 4

/-- Deficit round robin over candidates (key, bytes of its frame), from the one served last: a visit adds the quantum of
256 times the weight; the first whose deficit covers its frame sends (R433). -/
def State.drr (s : State) (key : Nat → Nat) (cands : List (Nat × Nat)) : Nat → Nat → Nat × State
  | 0, last => (last, s)
  | fuel + 1, last =>
    let want := fun k => (((cands.find? (fun c => c.1 == k)).map Prod.snd).getD 0 : Nat)
    if (cands.any (fun c => c.1 == last)) ∧ (want last : Int) ≤ (s.node (key last)).deficit then
      let x := s.node (key last)
      (last, s.setNode (key last) { x with deficit := x.deficit - (want last : Int) })
    else
      match nextAfter last (cands.map Prod.fst) with
      | none => (last, s)
      | some k =>
        let x := s.node (key k)
        (s.setNode (key k) { x with deficit := x.deficit + 256 * (x.weight : Int) }).drr key cands fuel k

/-- Within a subscriber: its queues in round robin. -/
def pickQueue (last : Nat) (fs : List TxFrame) : Option TxFrame :=
  (nextAfter last (fs.map TxFrame.queue)).bind (fun q => fs.find? (fun f => f.queue == q))

/-- Visits of a deficit round robin over n candidates after which one has sent: a quantum is at least 256 bytes, a frame less than
64 quanta. -/
def drrVisits (n : Nat) : Nat := 64 * (n + 1)

/-- The frame of service v among the eligible ones: a subscriber by deficit round robin, its queues in round robin. -/
def State.pickIn (s : State) (p v : Nat) (hs : List TxFrame) : Option TxFrame × State :=
  let of := fun u => pickQueue (s.node (subKey p u)).last (hs.filter (fun f => s.frameSub f == u))
  let subs := (hs.map s.frameSub).eraseDups
  let (sub, s') := s.drr (subKey p) (subs.map (fun u => (u, ((of u).map TxFrame.len).getD 0))) (drrVisits subs.length) (s.node (svcKey p v)).last
  match of sub with
  | none => (none, s')
  | some f =>
    let s := s'.setNode (svcKey p v) { s'.node (svcKey p v) with last := sub }
    (some f, s.setNode (subKey p sub) { s.node (subKey p sub) with last := f.queue })

/-- The frame that port p starts next (R433), with the deficits and places of the round robins: each service of the level is
weighed by the frame that it would send. -/
def State.pickFrame (s : State) (p : Nat) : Option TxFrame × State :=
  let hs := s.heads p
  let svcOf := fun (f : TxFrame) => (s.node (subKey p (s.frameSub f))).parent
  let levels := hs.map (fun f => (s.node (svcKey p (svcOf f))).level)
  match levels with
  | [] => (none, s)
  | l0 :: t =>
    let level := t.foldl min l0
    let hs := hs.filter (fun f => (s.node (svcKey p (svcOf f))).level == level)
    let of := fun v => hs.filter (fun f => svcOf f == v)
    let svcs := (hs.map svcOf).eraseDups
    let (svc, s') := s.drr (svcKey p) (svcs.map (fun v => (v, ((s.pickIn p v (of v)).1.map TxFrame.len).getD 0))) (drrVisits svcs.length)
      (Tab.get 0 (s.port p).lastService level)
    match s'.pickIn p svc (of svc) with
    | (none, s) => (none, s)
    | (some f, s) => (some f, s.setPort p { s.port p with lastService := Tab.set 0 (s.port p).lastService level svc })

/-- Charging a node for L bytes (R434). -/
def State.charge (s : State) (k l : Nat) : State :=
  let x := s.node k
  s.setNode k { x with tokens := s.nodeTokens k - 256 * max ((l : Int) + x.overhead) 1, at_ := s.now }

/-- Charging every node on the path of a frame. -/
def State.chargePath (s : State) (p : Nat) (f : TxFrame) : State :=
  let sub := s.frameSub f
  let svc := (s.node (subKey p sub)).parent
  let s := if f.queue < 4096 then s
    else
      let n := f.queue - 4096
      s.setQp n { s.qp n with tokens := s.qpTokens n - 256 * (f.len : Int), tokAt := s.now }
  ((s.charge (subKey p sub) f.len).charge (svcKey p svc) f.len).charge (portKey p) f.len

/-- A frame joins those that wait at port p; with the port down it is lost (R414). -/
def State.enqueue (s : State) (p : Nat) (f : TxFrame) : State :=
  if s.portUp p then s.setPort p { s.port p with waiting := (s.port p).waiting ++ [f] } else s

/-- What ETH_NODE_SEL holds now. -/
def State.nodeSel (s : State) : Nat := s.fld ⟨F.ethNodeSelPort.addr, 0, 14⟩

/-- The node that a value of ETH_NODE_SEL names. -/
def selKey (v : Nat) : Nat :=
  match bitsOf v F.ethNodeSelLevel.lsb 2 with
  | 0 => subKey (v % 2) (bitsOf v F.ethNodeSelIndex.lsb 11)
  | 1 => svcKey (v % 2) (bitsOf v F.ethNodeSelIndex.lsb 11 % 64)
  | _ => portKey (v % 2)

/-- The most tokens of a burst in KiB. -/
def fullTokens (burst : Nat) : Int := (min 16384 (max 1 burst) : Nat) * 262144

/-- What an ETH_NODE field reads: the selected node's own value (R434). -/
def State.nodeField (s : State) (f : Field) : Option Nat :=
  let x := s.node (selKey s.nodeSel)
  if f = F.ethNodeRateMbps then some x.rate
  else if f = F.ethNodeShapeBurstKib then some x.burst
  else if f = F.ethNodeShapeWeight then some x.weight
  else if f = F.ethNodeShapeOverhead then some (unsigned 8 x.overhead)
  else if f = F.ethNodeTreeParent then some x.parent
  else if f = F.ethNodeTreeLevel then some x.level
  else none

/-- An applied ETH_NODE field changes the node that ETH_NODE_SEL named at the strobe; its tokens stay, clipped to a lowered burst,
and only a change to or from rate 0 refills it (R435). Other fields change no node. -/
def State.applyNode (s : State) (sel : Nat) (f : Field) (v : Nat) : State :=
  let k := selKey sel
  let x := { s.node k with tokens := s.nodeTokens k, at_ := s.now }
  if f = F.ethNodeRateMbps then
    s.setNode k { x with rate := v, tokens := if (v = 0) ≠ (x.rate = 0) then fullTokens x.burst else x.tokens }
  else if f = F.ethNodeShapeBurstKib then
    s.setNode k { x with burst := min 16384 (max 1 v), tokens := min (fullTokens v) x.tokens }
  else if f = F.ethNodeShapeWeight then s.setNode k { x with weight := max 1 v }
  else if f = F.ethNodeShapeOverhead then s.setNode k { x with overhead := signed 8 v }
  else if f = F.ethNodeTreeParent then s.setNode k { x with parent := v }
  else if f = F.ethNodeTreeLevel then s.setNode k { x with level := v }
  else s

/-- A queue reset of an ETX ring (R431): frames not on the line complete with QUEUE_RESET. -/
def State.etxReset (s : State) (i r status : Nat) : State :=
  let mine := fun (f : TxFrame) => (f.op.map (fun o => o.fn == i && o.ring == r)).getD false
  let ops := ([0, 1].flatMap (fun p => (s.port p).waiting.filter mine)).filterMap TxFrame.op
  let s := [0, 1].foldl (fun s p => s.setPort p { s.port p with waiting := (s.port p).waiting.filter (fun f => !mine f) }) s
  ops.foldl (fun s o => s.complete o status 0) s

end Sys2Proof.Machine
end

