-- ==== Sys2Proof/Machine/OpsRma.lean ====
section
/-! DEFINITION. The named operations over remote memory (16_rdma.md): queue pairs, packets, work requests, registrations,
attached store queue pairs. -/

namespace Sys2Proof.Machine

/-! ### Queue pairs (R439, R440) -/

/-- State of queue pair n: 0 RESET, 1 INIT, 2 RTR, 3 RTS, 4 ERROR. -/
def State.qpState (s : State) (n : Nat) : Nat := s.fld (F.rmaQpStatusState n)
/-- The port of queue pair n. -/
def State.qpPort (s : State) (n : Nat) : Nat := s.fld (F.rmaQpCfgPort n)
/-- The instance that holds queue pair n, and its RMA ring. -/
def State.qpHolder (s : State) (n : Nat) : Option (Nat × Nat) :=
  (s.holderOf 2 n).bind (fun i => ((s.fn i).grants.find? (fun g => g.kind == 2 && g.unit == n)).map (fun g => (i, g.localIdx)))
/-- Path MTU in bytes of a queue pair: code 3 is 1,024, 4 is 2,048, 5 is 4,096 (R441). -/
def Qp.mtuBytes (x : Qp) : Nat := if x.mtu = 5 then 4096 else if x.mtu = 4 then 2048 else 1024
/-- Packets of a message of n bytes. -/
def Qp.packets (x : Qp) (n : Nat) : Nat := max 1 (ceilDiv n x.mtuBytes)
/-- The distance from PSN b to PSN a, modulo 2^24. -/
def psnDiff (a b : Nat) : Nat := (a + 2 ^ 24 - b % 2 ^ 24) % 2 ^ 24
/-- PSN a lies at b or within 2^23 after it. -/
def psnAtOrAfter (a b : Nat) : Bool := decide (psnDiff a b < 2 ^ 23)

/-! ### Packets (R436, R438); formats of RoCE v2 beyond the rule's words are that standard's (PRESUMED, log 15) -/

/-- The invariant CRC over a packet from its IP header on, with the changing fields as ones. -/
def icrc (ipv6 : Bool) (pkt : List Byte) : List Byte :=
  let ones := fun o n (f : List Byte) => setBytes f o (List.replicate n 0xFF#8)
  let f := if ipv6 then
      let f := setBytes (ones 1 3 pkt) 0 [BitVec.ofNat 8 (fieldBE pkt 0 1 / 16 * 16 + 15)]
      ones 46 2 (ones 7 1 f)
    else ones 26 2 (ones 10 2 (ones 8 1 (ones 1 1 pkt)))
  let bth := if ipv6 then 48 else 28
  leBytes 4 (Crypto.crc32 (List.replicate 8 0xFF#8 ++ ones (bth + 4) 1 f))

/-- A RoCE packet of queue pair n from its destination address to its ICRC: BTH, extended header, body. -/
def State.roceFrame (s : State) (n opcode : Nat) (ackReq : Bool) (psn pad : Nat) (ext : List Byte) : List Byte :=
  let x := s.qp n
  let p := s.qpPort n
  let bth := beBytes 1 opcode ++ beBytes 1 (16 * pad) ++ beBytes 2 0xFFFF ++ beBytes 1 0 ++ beBytes 3 x.peerQp
    ++ beBytes 1 (if ackReq then 128 else 0) ++ beBytes 3 psn
  let body := bth ++ ext
  let udp := beBytes 2 (0xC000 ^^^ (n % 2 ^ 14)) ++ beBytes 2 4791 ++ beBytes 2 (8 + body.length + 4) ++ [0, 0]
  let tos := 4 * x.dscp + 2
  let ip := if x.ipv6 then
      beBytes 4 (0x60000000 + tos * 2 ^ 20) ++ beBytes 2 (udp.length + body.length + 4) ++ [17, 64] ++ s.ip6Of p ++ x.peerIp
    else
      let h := beBytes 1 0x45 ++ beBytes 1 tos ++ beBytes 2 (20 + udp.length + body.length + 4) ++ beBytes 2 0 ++ beBytes 2 0x4000
        ++ [64, 17, 0, 0] ++ s.ip4Of p ++ x.peerIp.take 4
      setBytes h 10 (beBytes 2 (inetSum h))
  let pkt := ip ++ udp ++ body
  (x.peerMac.getD (List.replicate 6 0)) ++ s.macOf p ++ beBytes 2 (if x.ipv6 then 0x86DD else 0x0800) ++ pkt ++ icrc x.ipv6 pkt

/-- A packet of queue pair n joins the frames of its port. A sealed queue pair inserts the seal header after the RETH or
AETH and encrypts what follows (R452); its counter advances with every packet. Without a pair of the cipher engine in service
nothing leaves (10_tenancy.md R301). -/
def State.sendRoce (s : State) (n opcode : Nat) (ackReq : Bool) (psn : Nat) (ext payload : List Byte) : State :=
  let x := s.qp n
  let pad := (4 - payload.length % 4) % 4
  let payload := payload ++ List.replicate pad 0
  let put := fun (s : State) body =>
    s.enqueue (s.qpPort n) ⟨4096 + n, none, s.roceFrame n opcode ackReq psn pad (ext ++ body), false, Status.ok⟩
  match x.sealing, s.sec.record with
  | some (label, sender, _), some r =>
    if ¬ s.engineUp then s
    else
      let iv := beBytes 4 sender ++ beBytes 8 x.sealCtr
      let bth := beBytes 1 opcode ++ beBytes 1 (16 * pad) ++ beBytes 2 0xFFFF ++ beBytes 1 0 ++ beBytes 3 x.peerQp
        ++ beBytes 1 (if ackReq then 128 else 0) ++ beBytes 3 psn
      let (ct, tag) := Crypto.gcmSeal (s.workingKey r label) iv (bth ++ ext ++ iv) payload
      put ((s.useKey label).setQp n { x with sealCtr := (x.sealCtr + 1) % 2 ^ 64 }) (iv ++ ct ++ tag)
  | _, _ => put s payload

/-- The AETH: syndrome and message sequence number. -/
def aeth (syndrome msn : Nat) : List Byte := beBytes 1 syndrome ++ beBytes 3 msn
/-- The RETH. -/
def reth (va rkey len : Nat) : List Byte := beBytes 8 va ++ beBytes 4 rkey ++ beBytes 4 len

/-- An Acknowledge packet with a syndrome; a plain acknowledge carries 0x1F (PRESUMED, log 15). -/
def State.sendAck (s : State) (n psn syndrome : Nat) : State :=
  let x := s.qp n
  (s.setQp n { x with unacked := 0 }).sendRoce n 0x11 false psn (aeth syndrome x.msn) []

/-! ### Requester (R444 to R451) -/

/-- Opcode of packet k of m of a WRITE. -/
def writeOpcode (k m : Nat) : Nat := if m = 1 then 0x0A else if k = 0 then 0x06 else if k + 1 = m then 0x08 else 0x07

/-- A work request that reads. -/
def Wqe.reads (w : Wqe) : Bool := w.kind == 2 || w.kind == 5

/-- Packets of a work request from packet k on go out. A READ asks for what has not arrived (R450). -/
def State.sendFrom (s : State) (n : Nat) (w : Wqe) (k : Nat) : State :=
  let x := s.qp n
  let mtu := x.mtuBytes
  if w.reads then
    let q := w.got / mtu
    s.sendRoce n 0x0C true ((w.psn + q) % 2 ^ 24) (reth (w.raddr + q * mtu) w.rkey (w.len - q * mtu)) []
  else
    (List.range (w.pkts - k)).foldl (fun s j =>
      let q := k + j
      let op := writeOpcode q w.pkts
      let ext := if q = 0 then reth w.raddr w.rkey w.len else []
      s.sendRoce n op (q + 1 == w.pkts) ((w.psn + q) % 2 ^ 24) ext ((w.data.drop (q * mtu)).take mtu)) s

/-- Go-back-N from the oldest unacknowledged PSN (R450). -/
def State.goBack (s : State) (n : Nat) : State :=
  let x := s.qp n
  x.wqes.foldl (fun s w =>
    let k := if psnAtOrAfter x.una w.psn then min w.pkts (psnDiff x.una w.psn) else 0
    s.sendFrom n w k) s

/-- A work request is accepted behind the others; in RTS its packets leave (R440, R445). -/
def State.addWqe (s : State) (n : Nat) (w : Wqe) : State :=
  let x := s.qp n
  let w := { w with psn := x.txPsn, pkts := x.packets w.len }
  let s := s.setQp n { x with wqes := x.wqes ++ [w], txPsn := (x.txPsn + w.pkts) % 2 ^ 24 }
  if s.qpState n = 3 then s.sendFrom n w 0 else s

/-- READs of queue pair n in flight. -/
def State.readsInFlight (s : State) (n : Nat) : Nat := ((s.qp n).wqes.filter Wqe.reads).length

/-- A READ of a RESTORE has failed: the first status stays (20_checkpoint.md R520; DESIGN CHOICE, log 30). -/
def State.loseRestore (s : State) (o : Option OpRef) (status : Nat) : State :=
  { s with restores := s.restores.map (fun x => if some x.op = o then { x with failed := x.failed.or (some status) } else x) }

/-- A WRITE of the checkpoint area that is being written has failed: the first status stays (20_checkpoint.md R519). -/
def State.loseTake (s : State) (status : Nat) : State :=
  { s with run := { s.run with take := s.run.take.map (fun t => { t with failed := t.failed.or (some status) }) } }

/-- The end of a work request. Part of a checkpoint area lies at the peer once its acknowledge has come (R455, R514), and is lost
otherwise; a READ of a RESTORE completes no operation by itself. -/
def State.endWqe (s : State) (w : Wqe) (status : Nat) : State :=
  let status := w.refused.getD status
  let s := if w.kind ≠ 4 then s
    else if status = Status.ok then { s with host := { s.host with far := Memory.write s.host.far w.raddr w.data } }
    else s.loseTake status
  if w.kind = 5 then (if status = Status.ok then s else s.loseRestore w.op status)
  else match w.op with
    | some o => s.complete o status 0
    | none => s

/-- A request that is refused completes in its turn, behind those before it (R445). -/
def State.refuseWqe (s : State) (n : Nat) (o : OpRef) (status : Nat) : State :=
  let x := s.qp n
  if x.wqes = [] then s.complete o status 0
  else s.setQp n { x with wqes := x.wqes ++ [⟨some o, 0, x.txPsn, 0, false, 0, 0, 0, 0, [], false, 0, false, some status⟩] }

/-- Work requests that are finished leave in ring order: a WRITE once every PSN of it is acknowledged, a READ once every
byte has arrived (R445); a WRITE of a poisoned source, and a READ that wrote part of a
poisoned line, complete with INTEGRITY (R446; 07_memory.md R205, R216). -/
def State.popWqes (s : State) (n : Nat) : Nat → State
  | 0 => s
  | fuel + 1 =>
    let x := s.qp n
    match x.wqes with
    | [] => s
    | w :: t =>
      let done := if w.refused.isSome then true else if w.reads then decide (w.len ≤ w.got)
        else psnAtOrAfter x.una w.psn && decide (w.pkts ≤ psnDiff x.una w.psn)
      if done then
        ((s.setQp n { x with wqes := t }).endWqe w (if w.spoilt ∨ (w.bad ∧ ¬ w.reads) then Status.integrity else Status.ok)).popWqes n fuel
      else s

/-- An acknowledge up to and including a PSN: where it advances, the retries return to 0 and finished requests leave. -/
def State.ackTo (s : State) (n psn : Nat) : State :=
  let x := s.qp n
  let next := (psn + 1) % 2 ^ 24
  if psnAtOrAfter next x.una ∧ next ≠ x.una ∧ psnAtOrAfter x.txPsn next then
    let s := (s.setQp n { x with una := next }).setFld (F.rmaQpStatusRetries n) 0
    s.popWqes n (x.wqes.length + 1)
  else s

/-- The opcode of a frame of the remote memory engine. -/
def TxFrame.roceOp (f : TxFrame) : Nat := fieldBE f.bytes (if fieldBE f.bytes 12 2 = 0x86DD then 62 else 42) 1

/-- Frames of queue pair n that wait and that a predicate on their opcode names leave the port (R440). -/
def State.dropRoce (s : State) (n : Nat) (p : Nat → Bool) : State :=
  [0, 1].foldl (fun s k =>
    let x := s.port k
    if x.waiting.any (fun f => f.queue == 4096 + n && p f.roceOp) then
      s.setPort k { x with waiting := x.waiting.filter (fun f => !(f.queue == 4096 + n && p f.roceOp)) }
    else s) s

/-- Opcodes of requests: the WRITEs and the READ request (R436). -/
def isRequestOp (c : Nat) : Bool := c == 6 || c == 7 || c == 8 || c == 10 || c == 12

/-- Queue pair n enters ERROR: its work requests complete in ring order, each with its own status, and no request of it leaves any
more (R440, R445). -/
def State.qpFail (s : State) (n : Nat) (statusOf : Wqe → Nat) : State :=
  let x := s.qp n
  let s := (s.setQp n { x with wqes := [], msg := none, resolving := none }).setFld (F.rmaQpStatusState n) 4
  let s := ((x.wqes.foldl (fun s w => s.endWqe w (statusOf w)) s).dropRoce n isRequestOp).raiseFw 4 1
  match x.resolving with
  | some o => s.complete o Status.queueReset 0
  | none => s

/-- Queue pair n enters ERROR: its work requests complete with QUEUE_RESET (R440). -/
def State.qpError (s : State) (n : Nat) : State := s.qpFail n (fun _ => Status.queueReset)

/-- The request that names a PSN completes with a status, and the queue pair enters ERROR (R448, R451). -/
def State.failAt (s : State) (n psn status : Nat) : State :=
  match (s.qp n).wqes.find? (fun w => decide (psnDiff psn w.psn < w.pkts)) with
  | none => s.qpError n
  | some w => s.qpFail n (fun y => if y = w then status else Status.queueReset)

/-- The request at the oldest unacknowledged PSN completes with a status, and the queue pair enters ERROR (R451). -/
def State.failOldest (s : State) (n status : Nat) : State :=
  if (s.qp n).wqes.any (fun w => decide (psnDiff (s.qp n).una w.psn < w.pkts)) then s.failAt n (s.qp n).una status
  else match (s.qp n).wqes with
    | [] => s.qpError n
    | w :: _ => s.qpFail n (fun y => if y = w then status else Status.queueReset)

/-! ### Registrations (R442) -/

/-- The registration that an rkey names: entry in [13:0], check in [31:14]. -/
def State.registration (s : State) (rkey : Nat) : Option Registration :=
  let x := Tab.get Registration.init s.rma.regs (rkey % 2 ^ 14)
  if x.len ≠ 0 ∧ x.check = rkey / 2 ^ 14 then some x else none

/-- A free entry takes a registration; its check value is a free value. The rkey, where an entry was free. -/
def State.register (s : State) (x : Registration) : Option Nat × State :=
  match (List.range 16384).find? (fun k => (Tab.get Registration.init s.rma.regs k).len == 0) with
  | none => (none, s)
  | some k =>
    let check := (s.freeBits 18).toNat
    let s := { s.bumpFree with rma := { s.rma with regs := Tab.set Registration.init s.rma.regs k { x with check := check } } }
    (some (k + check * 2 ^ 14), s)

/-! ### Responder (R447, R449) -/

/-- A failed check of R447: a NAK, ERROR, and one entry on the CPL ring of the queue pair's RMA ring. -/
def State.refusePeer (s : State) (n psn rkey syndrome status : Nat) : State :=
  let s := (s.sendAck n psn syndrome).qpError n
  match s.qpHolder n with
  | none => s
  | some (i, r) => s.handOver i r ⟨status, 0xFFFF, 0xFFFF, r, psn + rkey * 2 ^ 32, false⟩

/-- What a peer's access to n bytes at va under an rkey meets: the NAK and report of the first check that fails. -/
def State.peerCheck (s : State) (i : Nat) (write : Bool) (rkey va n : Nat) : Option (Nat × Nat) :=
  match s.registration rkey with
  | none => some (0x62, Status.remoteAccess)
  | some x =>
    if x.inst ≠ i ∨ va < x.addr ∨ x.addr + x.len < va + n ∨ ¬ (if write then x.write else x.read) then
      some (0x62, Status.remoteAccess)
    else none

/-! ### Attached store queue pairs (R454) -/

/-- A peer's write into the window of an attached store queue pair: doorbell, consumed count, descriptor ring. -/
def Attach.put (a : Attach) (off : Nat) (bs : List Byte) : Attach :=
  let size := 2 ^ a.log2
  let into := off - 4096
  let a := if 4096 < off + bs.length then { a with ring := Memory.write a.ring into ((bs.drop (4096 - off)).take (64 * size - into)) } else a
  let bs := bs.take (4096 - off)
  if 4096 ≤ off then a
  else if off = 0 ∧ 8 ≤ bs.length then
    let v := fieldLE bs 0 8
    let a := if v < 2 ^ 32 ∧ (v + 2 ^ 32 - a.tail) % 2 ^ 32 ≤ (a.head + size + 2 ^ 32 - a.tail) % 2 ^ 32 then { a with tail := v } else a
    if 16 ≤ bs.length then
      let c := fieldLE bs 8 8
      if c < 2 ^ 32 ∧ (c + 2 ^ 32 - a.consumed) % 2 ^ 32 ≤ (a.written + 2 ^ 32 - a.consumed) % 2 ^ 32 then { a with consumed := c } else a
    else a
  else if off = 8 ∧ 8 ≤ bs.length then
    let c := fieldLE bs 0 8
    if c < 2 ^ 32 ∧ (c + 2 ^ 32 - a.consumed) % 2 ^ 32 ≤ (a.written + 2 ^ 32 - a.consumed) % 2 ^ 32 then { a with consumed := c } else a
  else a

/-- Completions for the peer of queue pair n leave as WRITEs while its ring has room (R342, R454). -/
def State.flushPeer (s : State) (n : Nat) : Nat → State
  | 0 => s
  | fuel + 1 =>
    let x := s.qp n
    match x.attach with
    | none => s
    | some a =>
      match a.waiting with
      | [] => s
      | c :: t =>
        let size := 2 ^ a.log2
        if s.qpState n = 3 ∧ (a.written + 2 ^ 32 - a.consumed) % 2 ^ 32 < size then
          let s := s.setQp n { x with attach := some { a with waiting := t, written := (a.written + 1) % 2 ^ 32 } }
          (s.addWqe n ⟨none, 3, 0, 0, false, 0, a.cplAddr + 16 * (a.written % size), a.cplKey, 16, c.entry a.written size, false, 0, false, none⟩).flushPeer n fuel
        else s

/-- Completions for every peer leave where they may. -/
def State.flushPeers (s : State) : State :=
  (s.rma.qps.map Prod.fst).foldl (fun s n => s.flushPeer n 4096) s

/-! ### Rate control (R453) -/

/-- A rate within its bounds: at most the port rate while the port is up, and at least RMA_CC.min_mbps. -/
def State.boundRate (s : State) (n : Nat) (r : Rat) : Rat :=
  let top : Rat := (modeRate (s.fld (F.ethPortStatusMode (s.qpPort n))) : Nat)
  let low : Rat := (s.fld F.rmaCcMinMbps : Nat)
  if 0 < top ∧ top < r then top else if r < low then low else r

/-- The current rate of queue pair n shows in RMA_QP_RATE. -/
def State.setRate (s : State) (n : Nat) (rc rt : Rat) : State :=
  let rc := s.boundRate n rc
  (s.setQp n { s.qp n with rc := rc, rt := s.boundRate n rt, tokens := s.qpTokens n, tokAt := s.now }).setFld (F.rmaQpRateMbps n) rc.floor.toNat

/-! ### Resets -/

/-- Queue pair n is in RESET, as it is at its grant (R440). -/
def State.qpClear (s : State) (n : Nat) : State :=
  let s := s.setQp n Qp.init
  ((s.setFld (F.rmaQpStatusState n) 0).setFlag (F.rmaQpStatusSealed n) false).setFld (F.rmaQpRateMbps n) 0

/-- Entry to RESET (R440): PSNs, sealing and rate state are cleared, and no frame of the queue pair leaves any more. -/
def State.qpReset (s : State) (n : Nat) : State :=
  ((s.qpError n).dropRoce n (fun _ => true)).qpClear n

/-- Queue pair n serves no store queue pair any more. -/
def State.detachSqp (s : State) (n : Nat) : State :=
  match (s.qp n).attach with
  | none => s
  | some a => (s.setQp n { s.qp n with attach := none }).setFlag (F.shfQpCfgRemote a.sqp) false

/-- An FLR of function i: registrations and rkeys of the function are cleared (R443), and its queue pairs enter ERROR
(R440). A store queue pair that one of them serves is attached no more: nothing is fetched from it (14_shelf.md R402). -/
def State.rmaOrphan (s : State) (i : Nat) : State :=
  let s := { s with rma := { s.rma with regs := s.rma.regs.filter (fun p => p.2.inst != i) } }
  ((s.fn i).grants.filter (fun g => g.kind == 2)).foldl (fun s g => (s.qpError g.unit).detachSqp g.unit) s

end Sys2Proof.Machine
end

