-- ==== Sys2Proof/Machine/OpsCkpt.lean ====
section
/-! DEFINITION. The named operations over checkpoints (20_checkpoint.md): shards, the manifest, the end of a TAKE, restoring. -/

namespace Sys2Proof.Machine

/-! ### What is saved (R506, R515) -/

/-- Clusters of the partitions of a mask. -/
def State.maskClusters (s : State) (mask : Nat) : List Nat :=
  (List.range 16).filter (fun c => (maskList 4 mask).any (fun p => bitOf (s.part p).clusters c))

/-- Ring positions of function i. -/
def State.ringPositions (s : State) (i : Nat) : List (Nat × Nat × Nat × Nat) :=
  ((List.range 256).filter (s.ringEnabled i)).map (fun r =>
    (r, s.fld (F.rngHeadCount i r), s.fld (F.rngTailCount i r), s.fld (F.rngStatusState i r)))

/-- The items of the partitions of a mask that have no layout of their own. -/
def State.collect (s : State) (i mask : Nat) : Saved :=
  let r := s.runOf mask
  let cl := s.maskClusters mask
  let rs := (maskList 4 mask).flatMap s.heldRegions
  { benches := (cl.flatMap (fun c => (List.range 10).map (fun b => 10 * c + b))).map (fun b => (b, { s.bench b with store := [] }))
    clusters := cl.map (fun c => (c, (s.cluster c).sync))
    tenants := cl.map (fun c => (c, Memory.read (s.core (5 + c)).tcm 0x14000 0xC000))
    slots := rs.flatMap (fun r => (r.granules.filter (fun g => (s.granule r.memUnit g).pool)).map (fun g =>
      (r.memUnit, g, (s.granule r.memUnit g).pstate, (s.granule r.memUnit g).gen)))
    pass := r.pass, cut := r.cut, epoch := r.epoch, kerfs := r.kerfs, stretch := s.plain.stretch, runId := r.id
    passes := r.passes, rings := s.ringPositions i, digest := s.bindingDigest, regs := [], held := [], grants := [], lists := []
    memory := [], runs := [] }

/-- A plaintext for items that have no layout: free bytes of free length, noted with the items (log 16). -/
def State.freePlain (s : State) (x : Saved) : List Byte × State :=
  let n := (s.freeBits 32).toNat + 1
  let s := s.bumpFree
  let pt := leBytes n (s.freeBits (8 * n)).toNat
  (pt, { s.bumpFree with saved := (pt, x) :: s.saved })

/-- A memory of n bytes in canonical form that holds what a list of cells gives. -/
def cleanMemory (n : Nat) (cells : Memory) : Memory :=
  cells.foldl (fun m c => if c.1 < n then Memory.write m c.1 [c.2] else m) []

/-- The items of a foreign bench: its store and its result buffers in the form that this model keeps. -/
def Bench.clean (x : Bench) : Bench :=
  { Bench.init with
    store := cleanMemory 0x400000 x.store, poison := x.poison.filter (fun l => decide (l < 0x10000)), vreg := x.vreg
    wins := x.wins, prescan := x.prescan, tokens := x.tokens
    entries := x.entries.map (fun e => (e.1, (e.2 ++ lanes0).take 512)), entryFault := x.entryFault }

/-- Regions that the cutlists and retained regions of saved items name. -/
def Saved.regions (x : Saved) : List Region :=
  x.lists.flatMap (fun (_, _, l, rs) => ((l.map Cutlist.regions).getD []) ++ rs)

/-- Foreign items as far as they concern the partitions of a mask and the regions that they bring. -/
def State.cleanItems (s : State) (mask : Nat) (x : Saved) : Saved :=
  let cl := s.maskClusters mask
  let lists := x.lists.filter (fun y => bitOf mask y.1)
  let x := { x with lists := lists }
  { x with
    benches := (x.benches.filter (fun p => cl.contains (clusterOf p.1))).map (fun p => (p.1, p.2.clean))
    clusters := x.clusters.filter (fun p => cl.contains p.1)
    tenants := (x.tenants.filter (fun p => cl.contains p.1)).map (fun p => (p.1, p.2.take 0xC000))
    slots := x.slots.filter (fun (u, g, _, _) => ((s.granule u g).owner.map (bitOf mask)).getD false)
    regs := x.regs.filter (fun p => decide (0x1000 ≤ p.1 ∧ p.1 < 0x5000))
    memory := x.memory.filter (fun (u, a, bs, _) => x.regions.any (fun r => r.memUnit == u && r.addr == a && decide (bs.length ≤ r.size)))
    runs := x.runs.filter (fun r => r.parts &&& mask == r.parts) }

/-- The items that a plaintext stands for: those that this device noted, or those of another device (R307 admits no other than
the tenant's own; log 16). -/
def State.itemsOf (s : State) (mask : Nat) (plain : List Byte) : Saved :=
  match s.saved.find? (fun x => x.1 == plain) with
  | some x => x.2
  | none => s.cleanItems mask (Config.foreignItems plain)

/-- What a shard is cut from. -/
inductive ShardSrc where
  | items
  | memory (addr len : Nat)
  | benches (cluster : Nat)
  deriving DecidableEq, Repr

/-- A region's pieces of at most 4 GiB. -/
def Region.shards (r : Region) : List ShardSrc :=
  (List.range (ceilDiv r.size (2 ^ 32))).map (fun k =>
    .memory (devAddrOf r.memUnit (r.addr + k * 2 ^ 32)) (min (2 ^ 32) (r.size - k * 2 ^ 32)))

/-- The shards of a mask in their order. -/
def State.shardList (s : State) (mask : Nat) : List ShardSrc :=
  .items :: ((maskList 4 mask).flatMap s.heldRegions).flatMap Region.shards ++ (s.maskClusters mask).map .benches

/-- The bench stores of a cluster in the order of its benches, whether a line is poisoned, and the state. -/
def State.clusterStores (s : State) (c : Nat) : List Byte × Bool × State :=
  (List.range 10).foldl (fun acc k =>
    let (store, bad, s) := acc.2.2.storeOut (10 * c + k)
    (acc.1 ++ Memory.read store 0 0x400000, acc.2.1 || bad != [], s)) ([], false, s)

/-- The plaintext of a shard, and whether it meets a poisoned line; its bytes cross the cipher engine (01_architecture.md R29). -/
def State.shardPlain (s : State) (items : Saved) (src : ShardSrc) : List Byte × Bool × State :=
  match src with
  | .items => let (pt, s) := s.freePlain items; (pt, false, s)
  | .memory a n => let (bs, m, s) := s.devRead (.cipher true) .firmware a n; (bs, m.integrity, s)
  | .benches c => s.clusterStores c

/-- Chunks of at most 4 MiB, sealed, each followed by its tag. -/
def sealChunks (key : List Byte) (iv : Nat → List Byte) (aad : List Byte) : Nat → Nat → List Byte → List Byte
  | 0, _, _ => []
  | fuel + 1, j, pt =>
    if pt = [] then []
    else
      let (ct, tag) := Crypto.gcmSeal key (iv j) aad (pt.take 0x400000)
      ct ++ tag ++ sealChunks key iv aad fuel (j + 1) (pt.drop 0x400000)

/-- Opening what sealChunks wrote, for n bytes of plaintext; none where a tag fails. -/
def openChunks (key : List Byte) (iv : Nat → List Byte) (aad : List Byte) : Nat → Nat → Nat → List Byte → Option (List Byte)
  | 0, _, _, _ => some []
  | fuel + 1, j, n, ct =>
    if n = 0 then some []
    else
      let k := min n 0x400000
      match Crypto.gcmOpen key (iv j) aad (ct.take k) ((ct.drop k).take 16) with
      | none => none
      | some pt => (openChunks key iv aad fuel (j + 1) (n - k) (ct.drop (k + 16))).map (pt ++ ·)

/-- Chunks of n bytes. -/
def chunksOf (n : Nat) : Nat := ceilDiv n 0x400000

/-- The key of the shards of a checkpoint (R515). -/
def State.shardKey (s : State) (r : BindRec) (id gen : Nat) : List Byte :=
  s.workingKey r (r.shardLabel id gen)

/-- The IV of a chunk. -/
def shardIv (member shard j : Nat) : List Byte := leBytes 2 member ++ leBytes 2 shard ++ leBytes 4 j ++ leBytes 4 0
/-- The AAD of a shard: its identifier and index, 8 and 4 bytes (DEDUCED, log 18). -/
def shardAad (id shard : Nat) : List Byte := leBytes 8 id ++ leBytes 4 shard

/-- The private scalar of a label's signing key (R290). -/
def State.signScalar (s : State) (r : BindRec) (label : List Byte) : Nat := beNat (s.workingKey r label) % (Crypto.n384 - 1) + 1

/-- Member index and size of the Plain; a lone device is member 0 of 1. -/
def State.memberOf (s : State) : Nat × Nat :=
  if s.inPlain then (s.fld F.dvtPlainMemberIndex, s.fld F.dvtPlainPlainSize) else (0, 1)

/-- The hash of the cutlist of each partition slot; zero outside the mask. -/
def State.listHashes (s : State) (mask : Nat) : List Byte :=
  (List.range 4).flatMap (fun p =>
    if bitOf mask p then (((s.part p).list.map Cutlist.hash).getD [] ++ List.replicate 48 0).take 48 else List.replicate 48 0)

/-- The family hash of the member set of a mask. -/
def State.familyHash (s : State) (mask : Nat) : List Byte :=
  ((((maskList 4 mask).findSome? (fun p => (s.part p).list)).map Cutlist.family).getD [] ++ List.replicate 48 0).take 48

/-- A shard entry of the manifest (R516). -/
def shardEntry (src : ShardSrc) (len off : Nat) (digest : List Byte) : List Byte :=
  let addr := match src with
    | .memory a _ => a
    | _ => 0
  let cl := match src with
    | .benches c => c
    | _ => 0
  leBytes 8 addr ++ leBytes 8 len ++ leBytes 8 off ++ digest ++ leBytes 2 cl ++ leBytes 6 0

/-- A WRITE of bytes to an offset of the checkpoint area over queue pair n (R455); one that can send nothing any more loses it
(DESIGN CHOICE, log 30). -/
def State.areaWrite (s : State) (t : Take) (n off : Nat) (bs : List Byte) : State :=
  if s.qpState n ≠ 2 ∧ s.qpState n ≠ 3 then s.loseTake Status.queueReset
  else s.addWqe n ⟨none, 4, 0, 0, false, 0, t.area + off, t.rkey, bs.length, bs, false, 0, false, none⟩

/-- Each chunk of a shard with its tag is one WRITE (R515). -/
def State.writeChunks (s : State) (t : Take) (n : Nat) : Nat → Nat → List Byte → State
  | 0, _, _ => s
  | fuel + 1, off, ct =>
    if ct = [] then s else (s.areaWrite t n off (ct.take 0x400010)).writeChunks t n fuel (off + 0x400010) (ct.drop 0x400010)

/-- The shards go to the queue pairs round robin in shard order: their entries, and whether one met a poisoned line. -/
def State.writeShards (s : State) (t : Take) (key : List Byte) (items : Saved) : Nat → Nat → List ShardSrc → List Byte × Bool × State
  | _, _, [] => ([], false, s)
  | j, off, src :: rest =>
    let (pt, bad, s) := s.shardPlain items src
    if bad then ([], true, s)
    else
      let ct := sealChunks key (shardIv s.memberOf.1 j) (shardAad t.id j) (chunksOf pt.length) 0 pt
      let s := s.writeChunks t (t.qps.getD (j % max 1 t.qps.length) 0) (chunksOf pt.length) off ct
      let (es, bad, s) := s.writeShards t key items (j + 1) (off + ceilDiv ct.length 65536 * 65536) rest
      (shardEntry src pt.length off (Crypto.sha384 ct) ++ es, bad, s)

/-- The manifest without its signature (R516); the stretch period of its position is that of the next cut's kerf (06_plain.md
R195; DEDUCED, log 30). -/
def State.manifestBody (s : State) (t : Take) (kerf : Nat) (items : Saved) (count : Nat) (entries : List Byte) : List Byte :=
  leBytes 4 0x54534B43 ++ leBytes 2 1 ++ leBytes 2 count ++ leBytes 8 t.id ++ leBytes 2 s.memberOf.1 ++ leBytes 2 s.memberOf.2
    ++ bytesAt t.label 24 4 ++ leBytes 8 kerf ++ leBytes 4 items.pass ++ leBytes 4 items.cut ++ leBytes 4 items.epoch
    ++ leBytes 4 (items.kerfs / 32) ++ s.familyHash t.mask ++ s.listHashes t.mask ++ s.bindingDigest ++ List.replicate 48 0
    ++ entries ++ List.replicate (64000 - entries.length) 0 ++ List.replicate 1056 0

/-- The items of shard 0, or of an image, take their places. -/
def State.putItems (s : State) (x : Saved) : State :=
  let s := x.benches.foldl (fun s (b, y) =>
    s.setBench b { s.bench b with
      wins := y.wins, prescan := y.prescan, entries := y.entries, entryFault := y.entryFault, tokens := y.tokens }) s
  let s := x.clusters.foldl (fun s (c, y) => s.setCluster c { s.cluster c with sync := y }) s
  let s := x.tenants.foldl (fun s (c, y) => s.loadWindow c y) s
  x.slots.foldl (fun s (u, g, st, gen) => s.setGranule u g { s.granule u g with pstate := st, gen := gen }) s

/-- The schedule position that a manifest names, for the member set of a mask: its next START resumes at the kerf after the stop
kerf (R516, R520). The stretch in force comes with the items. -/
def State.putPosition (s : State) (mask : Nat) (m : List Byte) (x : Saved) : State :=
  let s := s.dropSets mask
  let r : Run := { Run.init with
    parts := mask, pass := fieldLE m 0x20 4, cut := fieldLE m 0x24 4, epoch := fieldLE m 0x28 4, kerfs := fieldLE m 0x18 8 + 1 }
  if s.startPending then { s with stowed := r :: s.stowed }
  else { s.bringSet mask with run := { r with commits := s.run.commits.map (fun c => { c with kerf := 0 }), startRecs := s.run.startRecs }, plain := { s.plain with stretch := x.stretch, stretchMax := 0 } }

/-! ### The end of a TAKE (R513, R518, R519) -/

/-- A TAKE completes; with resume, or where a START waits, the device enters the start round (R518), with a detached run too. -/
def State.endTake (s : State) (status result : Nat) : State :=
  match s.run.take with
  | none => s
  | some t =>
    let waits := s.run.start.isSome || s.resumeWaits
    let s := ({ s with run := { s.run with take := none } }).complete t.op status result
    if t.stopped.isSome ∧ s.run.phase = .idle ∧ waits ∧ status ≠ Status.fenced then s.beginRound true else s

/-- A checkpoint that is being written fails. -/
def State.failTake (s : State) (status : Nat) : State :=
  match s.run.take with
  | none => s
  | some t => if t.stopped.isSome then s.endTake status 0 else s

/-- The checkpoint that is being written uses queue pair n. -/
def State.takeUses (s : State) (n : Nat) : Bool :=
  match s.run.take with
  | none => false
  | some t => t.stopped.isSome && t.qps.contains n

/-- A WRITE of the area waits for its acknowledge. -/
def State.areaBusy (s : State) (t : Take) : Bool := t.qps.any (fun n => (s.qp n).wqes.any (fun w => w.kind == 4))

/-- A failed WRITE of the area ends the TAKE with its status (R519). -/
def State.settleTake (s : State) : State :=
  match s.run.take.bind Take.failed with
  | some st => s.failTake st
  | none => s

/-- Step 4 of R514: the acknowledge of the manifest commits the checkpoint, and the TAKE completes with its stop kerf and the time
since the stop (R508). -/
def State.commitTake (s : State) : State :=
  match s.run.take with
  | none => s
  | some t => match t.stopped with
    | some (kerf, at_) =>
      if t.written ∧ t.failed = none ∧ ¬ s.areaBusy t then
        s.endTake Status.ok (kerf % 2 ^ 32 + (s.now - at_) / 1000000 % 2 ^ 32 * 2 ^ 32)
      else s
    | none => s

/-- Step 2 of R514: once the zeroed manifest is acknowledged, the shards are read, encrypted and handed to the queue pairs. A
poisoned line, or no pair of the cipher engine, fails the TAKE. -/
def State.postShards (s : State) : State :=
  match s.run.take, s.sec.record with
  | some t, some r =>
    if t.stopped.isNone ∨ t.shards.isSome ∨ t.failed.isSome ∨ s.areaBusy t then s
    else if ¬ s.engineUp then s.failTake Status.internal
    else
      let label := r.shardLabel t.id (fieldLE t.label 24 4)
      let (entries, bad, s) := (s.useKeys [label]).writeShards t (s.shardKey r t.id (fieldLE t.label 24 4)) (s.collect t.op.fn t.mask) 0 65536
        (s.shardList t.mask)
      if bad then s.failTake Status.integrity
      else { s with run := { s.run with take := s.run.take.map (fun t => { t with shards := some entries }) } }
  | _, _ => s

/-- The current kerf is the stop kerf of the pending TAKE (R510); where a later STAGE has made that kerf its swap kerf, the
next kerf whose ckpt flag is set is (04_cutlists.md R143). -/
def State.takeStops (s : State) : Bool :=
  match s.run.take, s.schedule with
  | some t, some l =>
    t.stopped.isNone && (l.cutRun s.run.cut).ckpt && !s.swapsNow &&
      (match t.trigger with
       | 0 => t.stopKerf.any (fun k => decide (k ≤ s.run.kerfs))
       | 1 => decide (t.target ≤ s.run.kerfs)
       | _ => decide (s.run.origin.getD 0 + t.target * 250000 ≤ s.run.since))
  | _, _ => false

/-- The partitions of the set become STOPPED for the checkpoint, and zeros go out over the manifest of the area (R513, R514 step
1). -/
def State.stopForTake (s : State) : State :=
  match s.run.take with
  | none => s
  | some t =>
    let pos := s.posResult
    let s := s.setParts.foldl (fun s p => s.setPart p { s.part p with state := .stopped }) s
    let s : State := { s with run := { s.run with take := some { t with stopped := some (s.run.kerfs, s.now) }, phase := .idle } }
    let s := s.areaWrite t (t.qps.getD 0 0) 0 (List.replicate 65536 0)
    let s := s.setFlag F.dvtPlainRunning false
    if t.resume then s
    else match s.run.start with
      | none => s.runEnds
      | some o => ({ s with run := { s.run with start := none } }).complete o Status.ok pos

end Sys2Proof.Machine
end

