-- ==== Sys2Proof/Machine/OpsRestore.lean ====
section
/-! DEFINITION. The named operations over a RESTORE: the READs of its checkpoint, the manifest's checks, its shards
(20_checkpoint.md R520, R521). -/

namespace Sys2Proof.Machine

/-! ### The manifest's checks -/

/-- Fields of a shard entry: address, plaintext length, area offset, digest, cluster. -/
def manifestEntry (m : List Byte) (j : Nat) : List Byte := (m.drop (0x180 + 80 * j)).take 80

/-- The source that entry j names. -/
def entrySrc (j : Nat) (e : List Byte) : ShardSrc :=
  if j = 0 then .items
  else if fieldLE e 0 8 = 0 then .benches (fieldLE e 72 2 % 16)
  else .memory (fieldLE e 0 8) (fieldLE e 8 8)

/-- What shard j writes belongs to the partitions of the mask. -/
def State.shardFits (s : State) (mask : Nat) (src : ShardSrc) : Bool :=
  match src with
  | .items => true
  | .benches c => (s.maskClusters mask).contains c
  | .memory a n => match devAddr a with
    | none => false
    | some (u, off) => (List.range (ceilDiv (off % 65536 + n) 65536)).all (fun k =>
        match (s.granule u (off / 65536 + k)).owner with
        | none => false
        | some p => bitOf mask p)

/-- The first of checks 1 to 4 that fails. -/
def State.manifestFault (s : State) (r : BindRec) (label m : List Byte) (id mask : Nat) : Option Nat :=
  let n := fieldLE m 6 2
  if fieldLE m 0 4 ≠ 0x54534B43 ∨ fieldLE m 4 2 ≠ 1 ∨ n = 0 ∨ 800 < n then some Status.badDescriptor
  else if ¬ Crypto.ecdsaVerify (Crypto.ecPublic (s.signScalar r label)) (m.take 0xFFA0) (m.drop 0xFFA0) then some Status.integrity
  else if fieldLE m 8 8 ≠ id ∨ bytesAt m 0x30 48 ≠ s.familyHash mask ∨ bytesAt m 0x60 192 ≠ s.listHashes mask
      ∨ bytesAt m 0x120 48 ≠ s.bindingDigest then some Status.versionMismatch
  else if (fieldLE m 0x10 2, fieldLE m 0x12 2) ≠ s.memberOf
      ∨ ¬ (List.range n).all (fun j => s.shardFits mask (entrySrc j (manifestEntry m j))) then some Status.doesNotFit
  else none

/-- Shard j, as it was read, is checked, and what it holds is written; none where its digest or a tag fails. -/
def State.restoreShard (s : State) (mask : Nat) (key m ct : List Byte) (id j : Nat) : Option (Option Saved × State) :=
  let e := manifestEntry m j
  let n := fieldLE e 8 8
  if Crypto.sha384 ct ≠ bytesAt e 24 48 then none
  else match openChunks key (shardIv (fieldLE m 0x10 2) j) (shardAad id j) (chunksOf n) 0 n ct with
  | none => none
  | some pt =>
    match entrySrc j e with
    | .items => some (some (s.itemsOf mask pt), s)
    | .memory a _ => some (none, (s.devWrite (.cipher true) .firmware a pt).2)
    | .benches c => some (none, (List.range 10).foldl (fun s k =>
        s.storeIn (10 * c + k) (Memory.write [] 0 ((pt.drop (0x400000 * k)).take 0x400000)) []) s)

/-- A failed restore leaves nothing: the regions and the bench stores that it has written are zeroized (R521). -/
def State.wipeRestore (s : State) (mask : Nat) (clusters : List Nat) : State :=
  let s := ((maskList 4 mask).flatMap s.heldRegions).foldl State.zeroRegion s
  let s := s.zeroBenchStores (maskBenches (listMask clusters))
  (maskList 4 mask).foldl (fun s p => s.setPart p { s.part p with state := .loaded, halted := false }) s

/-! ### The READs of a checkpoint area -/

/-- A RESTORE of this operation goes on as x. -/
def State.setRestore (s : State) (x : Restore) : State :=
  { s with restores := s.restores.map (fun y => if y.op = x.op then x else y) }

/-- Its operation finishes, and a RESTORE is over. -/
def State.endRestore (s : State) (x : Restore) (status : Nat) : State :=
  ({ s with restores := s.restores.filter (fun y => y.op != x.op) }).complete x.op status 0

/-- A RESTORE that fails leaves nothing (R521). -/
def State.failRestore (s : State) (x : Restore) (status : Nat) : State := (s.wipeRestore x.mask x.wrote).endRestore x status

/-- Pieces are asked for while their queue pair has fewer than 16 READs in flight (16_rdma.md R445); a queue pair that can send
nothing loses them (DESIGN CHOICE, log 30). -/
def State.askPieces (s : State) (x : Restore) : State :=
  let r := x.todo.foldl (fun (acc : State × List (Nat × Nat × Nat)) p =>
    let s := acc.1
    if s.qpState p.1 ≠ 2 ∧ s.qpState p.1 ≠ 3 then (s.loseRestore (some x.op) Status.queueReset, acc.2)
    else if 16 ≤ s.readsInFlight p.1 then (s, acc.2 ++ [p])
    else (s.addWqe p.1 ⟨some x.op, 5, 0, 0, false, p.2.1, x.area + p.2.1, x.rkey, p.2.2, [], false, 0, false, none⟩, acc.2)) (s, [])
  { r.1 with restores := r.1.restores.map (fun y => if y.op = x.op then { y with todo := r.2 } else y) }

/-- Bytes of a READ arrive for the RESTORE that asked for them. -/
def State.arrive (s : State) (o : Option OpRef) (off : Nat) (bs : List Byte) : State :=
  { s with restores := s.restores.map (fun y => if some y.op = o then { y with buf := Memory.write y.buf off bs } else y) }

/-- Bytes of a RESTORE are still to come. -/
def State.reading (s : State) (x : Restore) : Bool :=
  x.todo != [] || x.qps.any (fun n => (s.qp n).wqes.any (fun w => w.kind == 5 && w.op == some x.op))

/-- The place of shard j in the area and its length as written. -/
def shardSpan (m : List Byte) (j : Nat) : Nat × Nat :=
  let n := fieldLE (manifestEntry m j) 8 8
  (fieldLE (manifestEntry m j) 16 8, n + 16 * chunksOf n)

/-- A shard is asked for chunk by chunk with its tags, round robin over the queue pairs (DESIGN CHOICE, log 30). -/
def Restore.shardPieces (x : Restore) (m : List Byte) (j : Nat) : List (Nat × Nat × Nat) :=
  let (off, n) := shardSpan m j
  (List.range (ceilDiv n 0x400010)).map (fun k =>
    (x.qps.getD (k % max 1 x.qps.length) 0, off + k * 0x400010, min 0x400010 (n - k * 0x400010)))

/-- Shard j is asked for; after the last one the partitions are STOPPED at the saved position and any halted condition ends. -/
def State.nextShard (s : State) (x : Restore) (m : List Byte) : State :=
  if x.shard < fieldLE m 6 2 then
    let x := { x with todo := x.shardPieces m x.shard, buf := [] }
    (s.setRestore x).askPieces x
  else match x.items with
    | [] => s.failRestore x Status.integrity
    | i :: _ =>
      let s := (s.putItems i).putPosition x.mask m i
      let s := (maskList 4 x.mask).foldl (fun s p => s.setPart p { s.part p with state := .stopped, halted := false }) s
      (if s.startPending then s else s.setFlag F.dvtPlainHaltPending false).endRestore x Status.ok

/-- What a RESTORE has read is checked in the order of R520, and the next shard is asked for; a cipher pair that disagrees, or none
in service, ends it with INTERNAL (10_tenancy.md R301). -/
def State.checkRestore (s : State) (r : BindRec) (x : Restore) : State :=
  let gen := fieldLE x.label 24 4
  match x.man with
  | none =>
    let m := Memory.read x.buf 0 65536
    let s := s.useKeys [x.label]
    (match s.manifestFault r x.label m x.id x.mask with
     | some st => s.failRestore x st
     | none =>
       if ¬ s.engineUp then s.failRestore x Status.internal
       else if x.mismatch then s.cipherMismatch.failRestore x Status.internal
       else (s.useKeys [r.checkLabel, r.shardLabel x.id gen]).nextShard { x with man := some m } m)
  | some m =>
    if ¬ s.engineUp then s.failRestore x Status.internal
    else
      let (off, n) := shardSpan m x.shard
      match s.restoreShard x.mask (s.shardKey r x.id gen) m (Memory.read x.buf off n) x.id x.shard with
      | none => s.failRestore x Status.integrity
      | some (items, s) =>
        let wrote := match entrySrc x.shard (manifestEntry m x.shard) with
          | .benches c => c :: x.wrote
          | _ => x.wrote
        s.nextShard { x with items := items.toList ++ x.items, wrote := wrote, shard := x.shard + 1 } m

/-- A RESTORE goes on: one whose operation is over is dropped, a failed READ ends it, and once all bytes asked for are here they are
checked. -/
def State.stepRestore (s : State) (x : Restore) : State :=
  if ¬ s.outstanding x.op then { s with restores := s.restores.filter (fun y => y.op != x.op) }
  else match x.failed, s.sec.record with
    | some st, _ => s.failRestore x st
    | none, none => s.failRestore x Status.fenced
    | none, some r => if x.todo ≠ [] then s.askPieces x else if s.reading x then s else s.checkRestore r x

/-- Every RESTORE goes on. -/
def State.stepRestores (s : State) : State := s.restores.foldl State.stepRestore s

/-- What waits for the acknowledges and the bytes of checkpoint areas goes on. -/
def State.areaStep (s : State) : State := s.postShards.commitTake.stepRestores

end Sys2Proof.Machine
end

