-- ==== Sys2Proof/Machine/Checkpoint.lean ====
section
/-! DEFINITION. Checkpoint and restore (20_checkpoint.md R508 to R522). -/

namespace Sys2Proof.Machine

/-! ### The descriptor (R508) -/

/-- The format of a CHECKPOINT descriptor. -/
def goodCheckpoint (d : Desc) : Bool :=
  d.good 0x0FFF03FF allBits allBits allBits .required && decide (1 ≤ d.w0 56 4 ∧ d.w0 56 4 ≤ 8) && d.le 16 8 % 65536 == 0
    && (if d.w0 32 3 = 1 then d.w0 40 2 != 3 && (d.w0 40 2 != 0 || d.le 28 4 == 0)
        else d.w0 35 1 == 0 && d.w0 40 2 == 0 && d.le 28 4 == 0)

/-- The queue pairs that the descriptor names; none where one is not granted or not in RTS (R509). -/
def State.takeQps (s : State) (i : Nat) (d : Desc) : Option (List Nat) :=
  let qs := (List.range (d.w0 56 4)).map (fun k => s.unitOf i 2 (d.w0 48 8 + k))
  if qs.all (fun q => (q.map (fun n => s.qpState n == 3)).getD false) then some (qs.filterMap id) else none

/-- The checks that TAKE and RESTORE share, in order: binding, format, label, then the body. -/
def State.checkpointOp (s : State) (o : OpRef) (d : Desc) (body : State → State) : State :=
  match s.boundStatus with
  | some st => s.complete o st 0
  | none =>
    if ¬ goodCheckpoint d then s.complete o Status.badDescriptor 0
    else match s.checkLabel o.fn [0x0A] d.label with
    | .bad => s.complete o Status.badDescriptor 0
    | .violation => (s.violate o.fn).complete o Status.ok 0
    | .good => body s

/-! ### TAKE -/

/-- A TAKE's stop kerf has already passed (R509): a kerf at which it would have stopped is behind. -/
def State.takePassed (s : State) (trigger target : Nat) : Bool :=
  match s.run.ckptAt with
  | none => false
  | some (k, t) =>
    if trigger = 1 then decide (target ≤ k) else if trigger = 2 then decide (s.run.origin.getD 0 + target * 250000 ≤ t) else false

/-- The position n kerfs after kerf k at (pass, cut), over the cutlist of each (04_cutlists.md R142). -/
def State.posAt (s : State) (l : Cutlist) : Nat → Nat → Nat → Nat → Nat × Nat
  | 0, _, pass, cut => (pass, cut)
  | n + 1, k, pass, cut =>
    let (pass', cut') := (s.listOf l k).nextPos pass cut
    s.posAt l n (k + 1) pass' cut'

/-- Kerf count of the first kerf from number k at position (pass, cut) on at which a checkpoint may stop, past a voted swap kerf
by the successor's cutlist. -/
def State.nextCkpt (s : State) (l : Cutlist) : Nat → Nat → Nat → Nat → Option Nat
  | 0, _, _, _ => none
  | fuel + 1, k, pass, cut =>
    let here := s.listOf l k
    if (here.cutRun cut).ckpt ∧ s.swapKerf ≠ some k then some k
    else
      let (pass', cut') := here.nextPos pass cut
      s.nextCkpt l fuel (k + 1) pass' cut'

/-- The kerf count of the kerf at which a TAKE with trigger 0 stops: the first ckpt kerf, not a swap kerf, at or after the
tick that its notice needs to reach every member (R143, R510, R511); none where the schedule has no such kerf. -/
def State.demandKerf (s : State) : Option Nat :=
  match s.schedule with
  | none => none
  | some l =>
    let k := s.kerfAtOrAfter (s.plain.tick + 64 * (s.diameter + 1))
    let (pass, cut) := s.posAt l (k - s.run.kerfs) s.run.kerfs s.run.pass s.run.cut
    s.nextCkpt l (2 * (l.cutCount + (s.successor.map Cutlist.cutCount).getD 0) + 2) k pass cut

/-- TAKE (R508 to R512): pending until its stop kerf; under trigger 0 a checkpoint notice goes out on every link in
service. -/
def State.doTake (s : State) (o : OpRef) (d : Desc) : State :=
  let mask := d.w0 36 4
  let trigger := d.w0 40 2
  let target := d.le 28 4
  s.checkpointOp o d (fun s => s.withMask o mask (fun s =>
    match s.takeQps o.fn d with
    | none => s.complete o Status.badDescriptor 0
    | some qs =>
      if ¬ s.scheduled ∨ s.run.parts ≠ mask ∨ s.setParts.any (fun p => !(((s.part p).list.map Cutlist.ckptCapable).getD false)) ∨ s.run.take.isSome
          ∨ s.takePassed trigger target then s.complete o Status.badDescriptor 0
      else if 800 < (s.shardList mask).length then s.complete o Status.noSpace 0
      else
        let s := s.setNeeds o mask
        let kerf := if trigger = 0 then s.demandKerf else none
        let t : Take :=
          { op := o, mask := mask, trigger := trigger, resume := d.w0 35 1 == 1, id := d.le 8 8, area := d.le 16 8
            rkey := d.le 24 4, target := target, label := d.label, qps := qs, stopKerf := kerf, stopped := none, shards := none, failed := none, written := false }
        let s := { s with run := { s.run with take := some t, noticed := (kerf.map (fun k => (3, k))).toList ++ s.run.noticed } }
        match kerf with
        | none => s
        | some k => if s.inPlain then s.notice s.serviceLinks 3 k else s))

/-- CHECKPOINT_TAKE: every CHECKPOINT descriptor whose sub is not RESTORE. -/
def execCheckpointTake (i : FnId) (r : RingId) (s : State) : Host.Outcome State Fault Refusal :=
  .next (
    match s.next? i r 1 9 with
    | none => s
    | some d => if d.w0 32 3 = 2 then s
      else s.withOp i r 1 9 (fun s o d => if d.w0 32 3 = 1 then s.doTake o d else s.checkpointOp o d (fun s => s.complete o Status.badDescriptor 0)))

/-- MANIFEST_COMMIT (R514, R516): once every shard is acknowledged the signed manifest goes out as a WRITE on the first queue pair;
its acknowledge commits the checkpoint. No pair of the cipher engine, a pair that disagreed, or a failed WRITE of a shard fails it. -/
def execManifestCommit (mismatch : Bool) (s : State) : Host.Outcome State Fault Refusal :=
  .next (
    match s.run.take, s.sec.record with
    | some t, some r =>
      (match t.stopped with
       | none => s
       | some (kerf, _) =>
         if t.failed.isSome then s.settleTake
         else if t.written then s
         else if ¬ s.engineUp then s.failTake Status.internal
         else if mismatch then s.cipherMismatch.failTake Status.internal
         else match t.shards with
         | none => s
         | some entries =>
           if s.areaBusy t then s
           else
             let s := s.useKeys [r.checkLabel, t.label]
             let body := s.manifestBody t kerf (s.collect t.op.fn t.mask) (s.shardList t.mask).length entries
             let k := (s.freeBits 384).toNat % (Crypto.n384 - 1) + 1
             let sig := Crypto.ecdsaSign (s.signScalar r t.label) k body
             let s : State := { s.bumpFree with run := { s.run with take := some { t with written := true } } }
             (s.areaWrite t (t.qps.getD 0 0) 0 (body ++ sig)).settleTake)
    | _, _ => s)

/-! ### RESTORE -/

/-- RESTORE (R520): the manifest is asked for. The pairs of the cipher engine may disagree over it (10_tenancy.md R301). -/
def State.doRestore (s : State) (mismatch : Bool) (o : OpRef) (d : Desc) : State :=
  let mask := d.w0 36 4
  s.checkpointOp o d (fun s => s.withMask o mask (fun s =>
    match s.takeQps o.fn d with
    | none => s.complete o Status.badDescriptor 0
    | some qs =>
      if s.anyFenced mask then s.complete o Status.fenced 0
      else if s.startedSet mask ∨ s.restoring mask ∨ ¬ (maskList 4 mask).all (fun p =>
          (s.part p).state == .loaded || ((s.part p).state == .stopped && (s.part p).halted)) then s.complete o Status.badDescriptor 0
      else
        let r : Restore :=
          { op := o, mask := mask, id := d.le 8 8, area := d.le 16 8, rkey := d.le 24 4, label := d.label, qps := qs
            mismatch := mismatch, man := none, shard := 0, todo := [(qs.getD 0 0, 0, 65536)], buf := [], wrote := [], items := [], failed := none }
        ({ s.setNeeds o mask with restores := s.restores ++ [r] }).askPieces r))

/-- CHECKPOINT_RESTORE. -/
def execCheckpointRestore (i : FnId) (r : RingId) (mismatch : Bool) (s : State) : Host.Outcome State Fault Refusal :=
  .next (
    match s.next? i r 1 9 with
    | none => s
    | some d => if d.w0 32 3 = 2 then s.withOp i r 1 9 (fun s o d => s.doRestore mismatch o d) else s)

end Sys2Proof.Machine
end

