-- ==== Sys2Proof/Machine/Tenon.lean ====
section
/-! DEFINITION. The instructions and events of the Tenon cores (08_tenon.md R229 to R258). -/

namespace Sys2Proof.Machine

/-! ### One instruction -/

/-- What the body of an instruction gives: a new state with the next PC where it is not the following instruction, a
synchronous exception, one that a CPX instruction meets at its retire in a state of its own, a wait in which nothing
happens, or one that begins in a state of its own. -/
inductive Did where
  | done (s : State) (next : Option W32)
  | fault (f : CoreFault)
  | faultIn (s : State) (f : CoreFault)
  | wait
  | waitIn (s : State)

/-- ILLEGAL (R248). -/
def illegal : CoreFault := .plain 1
/-- PRIVILEGE (R239). -/
def privilege : CoreFault := .plain 2

/-- The fault of an instruction fetch of n bytes at the PC (R233, R256). -/
def Core.fetchFault (x : Core) (n : Nat) : Option CoreFault :=
  (List.range (n / 4)).findSome? (fun i =>
    let a := (x.pc + BitVec.ofNat 32 (4 * i)).toNat
    if ¬ x.allowed 2 a then some ⟨4, some a, 0⟩
    else match spaceOf a with
      | .nothing => some ⟨7, some a, 0⟩
      | .window => none
      | .tcm => if x.tcmUe.contains (a / 8) then some ⟨11, some a, 0⟩ else none)

/-- A synchronization record (R528). -/
def State.syncRec (s : State) (k : Nat) : State :=
  let x := s.core k
  if s.traced k then (s.traceRec k 6 x.pc.toNat x.retired).setCore k { x with retired := 0 } else s

/-- A watchdog expiry that is taken (R258): the first raises WDT, reloads the count and goes to the lifetime log with its PC
(09_firmware.md R279); a second resets the core, which is reported as a lockup is. -/
def State.expire (s : State) (k : Nat) (q : Option Squash) : State :=
  let x := s.core k
  if x.wdtFirst then ((s.kill k q).restartCore k).report k
  else
    let s := s.setCore k { x with wdtFirst := true, wdtLeft := x.wdtLoad.toNat * 1000, wdtPend := false }
    let s := (s.logEvent 0x0106 k (leBytes 4 x.pc.toNat)).logCount 6 1
    s.takeException k (.plain 10) x.pc q

/-- An instruction of len bytes on core k retires (R242): LC counts a repeat down (R253), the PC passes on, events that
wait are taken. -/
def State.retire (s : State) (k len : Nat) (old : Core) (next : Option W32) : State :=
  let x := s.core k
  let x := { x with retired := x.retired + 1, fresh := if old.bit Sw.rp then none else x.fresh }
  let after := next.getD (old.pc + BitVec.ofNat 32 len)
  let again := old.bit Sw.rp && decide (1 < old.lc.toNat)
  let x :=
    if again then { x with lc := old.lc - 1 }
    else if old.bit Sw.rp then { (x.setBit Sw.rp false).setBit Sw.rn false with lc := 0, pc := after &&& ~~~3#32 }
    else { x with pc := after &&& ~~~3#32 }
  let s := s.setCore k x
  let s := if decide (4096 ≤ x.retired) || (old.bit Sw.priv && !x.bit Sw.priv) then s.syncRec k else s
  let s := if x.wdtPend && !(x.bit Sw.rp && x.bit Sw.rn) && x.fresh.isNone then s.expire k none else s
  s.pollInterrupt k

/-- One instruction of len bytes on core k. It does nothing on a core that does not issue. rep says that a repeat prefix
admits it, single that its issue interval is 1 and it is no CPX operation (R252, R254). -/
def State.instr (s : State) (k len : Nat) (rep single : Bool) (body : State → Core → Did) : State :=
  let x := s.core k
  if !x.alive || x.waiting then s
  else if x.skip || (x.bit Sw.rp && x.lc == 0) then
    let y := (x.setBit Sw.rp false).setBit Sw.rn false
    let s := s.setCore k { y with skip := false, fresh := none, pc := x.pc + BitVec.ofNat 32 len }
    if x.wdtPend then s.expire k none else s.pollInterrupt k
  else
    match x.fetchFault len with
    | some f => s.takeException k f x.pc
    | none =>
      if x.bit Sw.rp && (!rep || (x.bit Sw.rn && !single)) then
        match x.fresh with
        | some lc =>
          let y := (x.setBit Sw.rp false).setBit Sw.rn false
          (s.setCore k { y with lc := lc, fresh := none }).takeException k illegal (x.pc - 4)
        | none => s.takeException k illegal x.pc
      else
        match body s x with
        | .done t next => t.retire k len x next
        | .fault f => s.takeException k f x.pc
        | .faultIn t f => t.takeException k f x.pc
        | .wait => s
        | .waitIn t => t

/-- An instruction that a repeat prefix admits and whose body changes only the core. -/
def State.plainInstr (s : State) (k len : Nat) (f : Core → Core) : State :=
  s.instr k len true true (fun s x => .done (s.setCore k (f x)) none)

/-! ### ALU (R236 to R238) -/

/-- Number of an ALU operation, for the open choices of Config. -/
def aluNum : AluOp → Nat
  | .add => 0 | .addc => 1 | .sub => 2 | .subc => 3 | .and => 4 | .or => 5 | .xor => 6 | .not => 7 | .neg => 8
  | .min => 9 | .max => 10 | .cmp => 11 | .mov => 12 | .mul => 13 | .divs => 14 | .divu => 15 | .rems => 16
  | .remu => 17 | .sext => 18 | .zext => 19

/-- A sum with carry in: result, carry and signed overflow. -/
def addWith (x y : W32) (cin : Bool) : W32 × Bool × Bool :=
  let n := x.toNat + y.toNat + (if cin then 1 else 0)
  let r := BitVec.ofNat 32 n
  (r, decide (2 ^ 32 ≤ n), x.msb == y.msb && r.msb != x.msb)

/-- A difference with borrow in: result, borrow and signed overflow. -/
def subWith (x y : W32) (bin : Bool) : W32 × Bool × Bool :=
  let m := y.toNat + (if bin then 1 else 0)
  let r := x - y - (if bin then 1#32 else 0#32)
  (r, decide (x.toNat < m), x.msb != y.msb && r.msb != x.msb)

/-- The signed quotient (R238); rounding is open (log 11). -/
def divSigned (x y : W32) : W32 :=
  if y = 0 then 0xFFFFFFFF#32
  else BitVec.ofInt 32 (if Config.divFloor then x.toInt.fdiv y.toInt else x.toInt.tdiv y.toInt)

/-- The signed remainder (R238). -/
def remSigned (x y : W32) : W32 :=
  if y = 0 then x
  else BitVec.ofInt 32 (if Config.divFloor then x.toInt.fmod y.toInt else x.toInt.tmod y.toInt)

/-- Signed or unsigned order of MIN and MAX (log 11). -/
def minMaxLt (x y : W32) : Bool := if Config.minMaxSigned then x.slt y else x.ult y

/-- The result of an ALU operation with its carry and overflow where the sum or difference defines them. -/
def aluEval (op : AluOp) (x y : W32) (c : Bool) : W32 × Option (Bool × Bool) :=
  match op with
  | .add => let (r, p) := addWith x y false; (r, some p)
  | .addc => let (r, p) := addWith x y c; (r, some p)
  | .sub => let (r, p) := subWith x y false; (r, some p)
  | .subc => let (r, p) := subWith x y c; (r, some p)
  | .cmp => let (r, p) := subWith x y false; (r, some p)
  | .neg => let (r, p) := subWith 0 x false; (r, some p)
  | .and => (x &&& y, none)
  | .or => (x ||| y, none)
  | .xor => (x ^^^ y, none)
  | .not => (~~~x, none)
  | .min => (if minMaxLt x y then x else y, none)
  | .max => (if minMaxLt x y then y else x, none)
  | .mov => (x, none)
  | .mul => (x * y, none)
  | .divs => (divSigned x y, none)
  | .divu => (if y = 0 then 0xFFFFFFFF#32 else x / y, none)
  | .rems => (remSigned x y, none)
  | .remu => (if y = 0 then x else x % y, none)
  | .sext => (Config.signExtend x y, none)
  | .zext => (Config.zeroExtend x y, none)

/-- SW with the four flags of a result. -/
def Core.setFlags (x : Core) (r : W32) (cv : Bool × Bool) : Core :=
  (((x.setBit Sw.z (r == 0)).setBit Sw.n r.msb).setBit Sw.c cv.1).setBit Sw.v cv.2

/-- The core after an ALU operation: Gd, unless it only compares, and the flags where it sets them (log 11). -/
def Core.alu (x : Core) (op : AluOp) (gd : Nat) (a b : W32) : Core :=
  let (r, cv) := aluEval op a b (x.bit Sw.c)
  let y := if op = AluOp.cmp then x else x.setG gd r
  if op = AluOp.cmp ∨ Config.aluSetsFlags (aluNum op) then y.setFlags r (cv.getD (Config.aluCarryOverflow (aluNum op) a b)) else y

/-- An ALU operation on two general registers. -/
def State.aluOp (s : State) (k : Nat) (op : AluOp) (gd gs1 gs2 : Gn) : State :=
  s.instr k 4 true (decide (aluNum op < 14 ∨ 17 < aluNum op)) (fun s x =>
    .done (s.setCore k (x.alu op gd.toNat (x.gr gs1.toNat) (x.gr gs2.toNat))) none)

/-- ALU ADD (R236). -/
def execAluAdd (k : CoreId) (gd gs1 gs2 : Gn) (s : State) : Host.Outcome State Fault Refusal :=
  .next (s.aluOp k .add gd gs1 gs2)

/-- ALU ADDC, with the carry (R236). -/
def execAluAddc (k : CoreId) (gd gs1 gs2 : Gn) (s : State) : Host.Outcome State Fault Refusal :=
  .next (s.aluOp k .addc gd gs1 gs2)

/-- ALU SUB (R236). -/
def execAluSub (k : CoreId) (gd gs1 gs2 : Gn) (s : State) : Host.Outcome State Fault Refusal :=
  .next (s.aluOp k .sub gd gs1 gs2)

/-- ALU SUBC, with the borrow (R236). -/
def execAluSubc (k : CoreId) (gd gs1 gs2 : Gn) (s : State) : Host.Outcome State Fault Refusal :=
  .next (s.aluOp k .subc gd gs1 gs2)

/-- ALU AND (R236). -/
def execAluAnd (k : CoreId) (gd gs1 gs2 : Gn) (s : State) : Host.Outcome State Fault Refusal :=
  .next (s.aluOp k .and gd gs1 gs2)

/-- ALU OR (R236). -/
def execAluOr (k : CoreId) (gd gs1 gs2 : Gn) (s : State) : Host.Outcome State Fault Refusal :=
  .next (s.aluOp k .or gd gs1 gs2)

/-- ALU XOR (R236). -/
def execAluXor (k : CoreId) (gd gs1 gs2 : Gn) (s : State) : Host.Outcome State Fault Refusal :=
  .next (s.aluOp k .xor gd gs1 gs2)

/-- ALU NOT of Gs1 (R236). -/
def execAluNot (k : CoreId) (gd gs1 gs2 : Gn) (s : State) : Host.Outcome State Fault Refusal :=
  .next (s.aluOp k .not gd gs1 gs2)

/-- ALU NEG of Gs1 (R236). -/
def execAluNeg (k : CoreId) (gd gs1 gs2 : Gn) (s : State) : Host.Outcome State Fault Refusal :=
  .next (s.aluOp k .neg gd gs1 gs2)

/-- ALU MIN (R236). -/
def execAluMin (k : CoreId) (gd gs1 gs2 : Gn) (s : State) : Host.Outcome State Fault Refusal :=
  .next (s.aluOp k .min gd gs1 gs2)

/-- ALU MAX (R236). -/
def execAluMax (k : CoreId) (gd gs1 gs2 : Gn) (s : State) : Host.Outcome State Fault Refusal :=
  .next (s.aluOp k .max gd gs1 gs2)

/-- ALU CMP: only the flags (R237). -/
def execAluCmp (k : CoreId) (gd gs1 gs2 : Gn) (s : State) : Host.Outcome State Fault Refusal :=
  .next (s.aluOp k .cmp gd gs1 gs2)

/-- ALU MOV of Gs1 (R236). -/
def execAluMov (k : CoreId) (gd gs1 gs2 : Gn) (s : State) : Host.Outcome State Fault Refusal :=
  .next (s.aluOp k .mov gd gs1 gs2)

/-- ALU MUL, low 32 bits (R236). -/
def execAluMul (k : CoreId) (gd gs1 gs2 : Gn) (s : State) : Host.Outcome State Fault Refusal :=
  .next (s.aluOp k .mul gd gs1 gs2)

/-- DIVS (R238). -/
def execDivs (k : CoreId) (gd gs1 gs2 : Gn) (s : State) : Host.Outcome State Fault Refusal :=
  .next (s.aluOp k .divs gd gs1 gs2)

/-- DIVU (R238). -/
def execDivu (k : CoreId) (gd gs1 gs2 : Gn) (s : State) : Host.Outcome State Fault Refusal :=
  .next (s.aluOp k .divu gd gs1 gs2)

/-- REMS (R238). -/
def execRems (k : CoreId) (gd gs1 gs2 : Gn) (s : State) : Host.Outcome State Fault Refusal :=
  .next (s.aluOp k .rems gd gs1 gs2)

/-- REMU (R238). -/
def execRemu (k : CoreId) (gd gs1 gs2 : Gn) (s : State) : Host.Outcome State Fault Refusal :=
  .next (s.aluOp k .remu gd gs1 gs2)

/-- SEXT (R236). -/
def execSext (k : CoreId) (gd gs1 gs2 : Gn) (s : State) : Host.Outcome State Fault Refusal :=
  .next (s.aluOp k .sext gd gs1 gs2)

/-- ZEXT (R236). -/
def execZext (k : CoreId) (gd gs1 gs2 : Gn) (s : State) : Host.Outcome State Fault Refusal :=
  .next (s.aluOp k .zext gd gs1 gs2)

/-- The second operand of class 0x1 (R236): bytes of the instruction and the value. -/
def immValue : Imm → Nat × W32
  | .short v => (4, if v.msb then Config.wideImm14 v else v.zeroExtend 32)
  | .long v => (8, v)

/-- ALU operation with an immediate second operand; an undefined op raises ILLEGAL (R236). -/
def execAluImmediate (k : CoreId) (op : Option AluOp) (gd gs : Gn) (imm : Imm) (s : State) : Host.Outcome State Fault Refusal :=
  .next (
    match op with
    | none => s.instr k (immValue imm).1 true true (fun _ _ => .fault illegal)
    | some op => s.instr k (immValue imm).1 true (decide (aluNum op < 14 ∨ 17 < aluNum op)) (fun s x =>
        .done (s.setCore k (x.alu op gd.toNat (x.gr gs.toNat) (immValue imm).2)) none))

/-- MOVI (R236): the immediate into Gd. -/
def execMovi (k : CoreId) (gd : Gn) (imm : Imm) (s : State) : Host.Outcome State Fault Refusal :=
  .next (s.instr k (immValue imm).1 true true (fun s x => .done (s.setCore k (x.alu .mov gd.toNat (immValue imm).2 0)) none))

/-! ### Shifts (R236) -/

/-- The shift operations. -/
inductive ShiftOp where
  | shl | shr | sar | rol | ror
  deriving DecidableEq, Repr

/-- Number of a shift operation, for the open choices of Config. -/
def ShiftOp.num : ShiftOp → Nat
  | .shl => 32 | .shr => 33 | .sar => 34 | .rol => 35 | .ror => 36

/-- A shift by n < 32. -/
def ShiftOp.eval (op : ShiftOp) (x : W32) (n : Nat) : W32 :=
  match op with
  | .shl => x <<< n
  | .shr => x >>> n
  | .sar => x.sshiftRight n
  | .rol => x.rotateLeft n
  | .ror => x.rotateRight n

/-- The amount operand: Gn by register, else the amount field. -/
def Core.amount (x : Core) (f : ShiftFields) : W32 := if f.byReg then x.gr f.gn.toNat else f.amount.zeroExtend 32

/-- The core with a shift class result in Gd, flags where the operation sets them (log 11). -/
def Core.shiftResult (x : Core) (num gd : Nat) (a b r : W32) : Core :=
  let y := x.setG gd r
  if Config.aluSetsFlags num then y.setFlags r (Config.aluCarryOverflow num a b) else y

/-- A shift of class 0x2; a register amount of 32 or more is open (log 11). -/
def State.shiftOp (s : State) (k : Nat) (op : ShiftOp) (f : ShiftFields) : State :=
  s.plainInstr k 4 (fun x =>
    let v := x.gr f.gs.toNat
    let n := x.amount f
    x.shiftResult op.num f.gd.toNat v n (if n.toNat < 32 then op.eval v n.toNat else Config.wideShift op.num v n))

/-- SHL (R236). -/
def execShl (k : CoreId) (f : ShiftFields) (s : State) : Host.Outcome State Fault Refusal :=
  .next (s.shiftOp k .shl f)

/-- SHR (R236). -/
def execShr (k : CoreId) (f : ShiftFields) (s : State) : Host.Outcome State Fault Refusal :=
  .next (s.shiftOp k .shr f)

/-- SAR (R236). -/
def execSar (k : CoreId) (f : ShiftFields) (s : State) : Host.Outcome State Fault Refusal :=
  .next (s.shiftOp k .sar f)

/-- ROL (R236). -/
def execRol (k : CoreId) (f : ShiftFields) (s : State) : Host.Outcome State Fault Refusal :=
  .next (s.shiftOp k .rol f)

/-- ROR (R236). -/
def execRor (k : CoreId) (f : ShiftFields) (s : State) : Host.Outcome State Fault Refusal :=
  .next (s.shiftOp k .ror f)

/-- Bit field extract (R236); which field is open (log 11). -/
def execBitFieldExtract (k : CoreId) (f : ShiftFields) (s : State) : Host.Outcome State Fault Refusal :=
  .next (s.plainInstr k 4 (fun x =>
    let v := x.gr f.gs.toNat
    let n := x.amount f
    x.shiftResult 37 f.gd.toNat v n (Config.bitFieldExtract v n f.low)))

/-- Bit field insert (R236); which field is open (log 11). -/
def execBitFieldInsert (k : CoreId) (f : ShiftFields) (s : State) : Host.Outcome State Fault Refusal :=
  .next (s.plainInstr k 4 (fun x =>
    let v := x.gr f.gs.toNat
    let n := x.amount f
    x.shiftResult 38 f.gd.toNat v n (Config.bitFieldInsert (x.gr f.gd.toNat) v n f.low)))

/-! ### Accumulators (R240, R241) -/

/-- The 64-bit product as 72 bits, sign- or zero-extended. -/
def product (u : Bool) (x y : W32) : BitVec 72 :=
  if u then BitVec.ofNat 72 (x.toNat * y.toNat) else BitVec.ofInt 72 (x.toInt * y.toInt)

/-- Adding or subtracting a product. -/
def State.accOp (s : State) (k : Nat) (u sub : Bool) (cn : Cn) (gx gy : Gn) : State :=
  s.plainInstr k 4 (fun x =>
    let p := product u (x.gr gx.toNat) (x.gr gy.toNat)
    x.setC cn.toNat (if sub then x.cr cn.toNat - p else x.cr cn.toNat + p))

/-- MAC (R240). -/
def execMac (k : CoreId) (cn : Cn) (gx gy : Gn) (s : State) : Host.Outcome State Fault Refusal :=
  .next (s.accOp k false false cn gx gy)

/-- MSU (R240). -/
def execMsu (k : CoreId) (cn : Cn) (gx gy : Gn) (s : State) : Host.Outcome State Fault Refusal :=
  .next (s.accOp k false true cn gx gy)

/-- MACU (R240). -/
def execMacu (k : CoreId) (cn : Cn) (gx gy : Gn) (s : State) : Host.Outcome State Fault Refusal :=
  .next (s.accOp k true false cn gx gy)

/-- MSUU (R240). -/
def execMsuu (k : CoreId) (cn : Cn) (gx gy : Gn) (s : State) : Host.Outcome State Fault Refusal :=
  .next (s.accOp k true true cn gx gy)

/-- MULC (R240): the product into Cn. -/
def execMulc (k : CoreId) (cn : Cn) (gx gy : Gn) (unsigned : Bool) (s : State) : Host.Outcome State Fault Refusal :=
  .next (s.plainInstr k 4 (fun x => x.setC cn.toNat (product unsigned (x.gr gx.toNat) (x.gr gy.toNat))))

/-- ACL (R241). -/
def execAcl (k : CoreId) (cn : Cn) (s : State) : Host.Outcome State Fault Refusal :=
  .next (s.plainInstr k 4 (fun x => x.setC cn.toNat 0))

/-- CMOV (R241). -/
def execCmov (k : CoreId) (cn src : Cn) (s : State) : Host.Outcome State Fault Refusal :=
  .next (s.plainInstr k 4 (fun x => x.setC cn.toNat (x.cr src.toNat)))

/-- MVC's value (R241): shifted, clamped with SW.sat; and whether it clamped. -/
def mvcValue (sat : Bool) (c : BitVec 72) (sh : Nat) : W32 × Bool :=
  let v := (c.sshiftRight sh).toInt
  if sat ∧ v < -2147483648 then (0x80000000#32, true)
  else if sat ∧ 2147483647 < v then (0x7FFFFFFF#32, true)
  else (BitVec.ofInt 32 v, false)

/-- MVC (R241). -/
def execMvc (k : CoreId) (gd : Gn) (cn : Cn) (sh : BitVec 6) (s : State) : Host.Outcome State Fault Refusal :=
  .next (s.plainInstr k 4 (fun x =>
    let (v, clamped) := mvcValue (x.bit Sw.sat) (x.cr cn.toNat) sh.toNat
    let y := x.setG gd.toNat v
    if clamped then y.setBit Sw.sv true else y))

/-- MVGC (R241): Gx:Gy, sign-extended, into Cn. -/
def execMvgc (k : CoreId) (cn : Cn) (gx gy : Gn) (s : State) : Host.Outcome State Fault Refusal :=
  .next (s.plainInstr k 4 (fun x => x.setC cn.toNat ((x.gr gx.toNat ++ x.gr gy.toNat).signExtend 72)))

/-! ### Loads and stores (R234, R235) -/

/-- Bytes of a memory instruction. -/
def memLen (m : MemOp) : Nat := match m.d with | .short _ => 4 | .long _ => 8

/-- The displacement. -/
def memDisp (m : MemOp) : W32 := match m.d with | .short v => v.signExtend 32 | .long v => v

/-- The address and the pointer register afterwards, for an access of n bytes; none where the mode is ILLEGAL. -/
def Core.address (x : Core) (m : MemOp) (n : Nat) : Option (W32 × W32) :=
  let p := x.pr m.pn.toNat
  let size := BitVec.ofNat 32 n
  match m.mode.toNat, m.d with
  | 0, _ => some (p + memDisp m, p)
  | 1, _ => some (p, p + size)
  | 2, _ => some (p - size, p - size)
  | 3, _ => some (p, p + memDisp m)
  | 4, _ => some (p + (x.gr m.gi.toNat <<< m.k.toNat), p)
  | 5, _ => some (p, p + x.gr m.gi.toNat)
  | 6, _ => some (x.pc + memDisp m, p)
  | _, .long d => some (d, p)
  | _, .short _ => none

/-- A load of n bytes: the value goes to put after the pointer register's update. The system window answers with a value
the manual does not state (log 7); where it reaches nothing no data arrives, which is BUS (R244; 09_firmware.md R276). -/
def State.loadOp (s : State) (k n : Nat) (m : MemOp) (put : Core → Nat → Core) : State :=
  s.instr k (memLen m) true true (fun s x =>
    match x.address m n with
    | none => .fault illegal
    | some (a, p) =>
      match x.access false (x.bit Sw.rp && x.bit Sw.rn) a.toNat n with
      | some f => .fault f
      | none =>
        let x := x.setP m.pn.toNat p
        match spaceOf a.toNat with
        | .window =>
          if Config.windowReach (min k 5) a.toNat then .done ((s.setCore k (put x (s.freeBits (8 * n)).toNat)).bumpFree) none
          else .fault ⟨7, some a.toNat, 0⟩
        | _ => .done (s.setCore k (put x (Memory.readLE x.tcm a.toNat n))) none)

/-- A store of n bytes of a value; one to the system window goes nowhere where the window reaches nothing (09_firmware.md R276;
DESIGN CHOICE, log 30). -/
def State.storeOp (s : State) (k n : Nat) (m : MemOp) (get : Core → Nat) : State :=
  s.instr k (memLen m) true true (fun s x =>
    match x.address m n with
    | none => .fault illegal
    | some (a, p) =>
      match x.access true (x.bit Sw.rp && x.bit Sw.rn) a.toNat n with
      | some f => .fault f
      | none =>
        let y := if spaceOf a.toNat = .window ∧ ¬ Config.windowReach (min k 5) a.toNat then x else x.store a.toNat (leBytes n (get x))
        .done (s.setCore k (y.setP m.pn.toNat p)) none)

/-- LDB (R234, R235). -/
def execLdb (k : CoreId) (gd : Gn) (m : MemOp) (s : State) : Host.Outcome State Fault Refusal :=
  .next (s.loadOp k 1 m (fun x v => x.setG gd.toNat (BitVec.ofInt 32 (signed 8 v))))

/-- LDBU (R234, R235). -/
def execLdbu (k : CoreId) (gd : Gn) (m : MemOp) (s : State) : Host.Outcome State Fault Refusal :=
  .next (s.loadOp k 1 m (fun x v => x.setG gd.toNat (BitVec.ofNat 32 v)))

/-- LDH (R234, R235). -/
def execLdh (k : CoreId) (gd : Gn) (m : MemOp) (s : State) : Host.Outcome State Fault Refusal :=
  .next (s.loadOp k 2 m (fun x v => x.setG gd.toNat (BitVec.ofInt 32 (signed 16 v))))

/-- LDHU (R234, R235). -/
def execLdhu (k : CoreId) (gd : Gn) (m : MemOp) (s : State) : Host.Outcome State Fault Refusal :=
  .next (s.loadOp k 2 m (fun x v => x.setG gd.toNat (BitVec.ofNat 32 v)))

/-- LDW (R234, R235). -/
def execLdw (k : CoreId) (gd : Gn) (m : MemOp) (s : State) : Host.Outcome State Fault Refusal :=
  .next (s.loadOp k 4 m (fun x v => x.setG gd.toNat (BitVec.ofNat 32 v)))

/-- LDP (R234, R235): into Pd. -/
def execLdp (k : CoreId) (pd : Pn) (m : MemOp) (s : State) : Host.Outcome State Fault Refusal :=
  .next (s.loadOp k 4 m (fun x v => x.setP pd.toNat (BitVec.ofNat 32 v)))

/-- LDC (R234): bytes 0 to 8 of 16 are the accumulator. -/
def execLdc (k : CoreId) (cn : Cn) (m : MemOp) (s : State) : Host.Outcome State Fault Refusal :=
  .next (s.loadOp k 16 m (fun x v => x.setC cn.toNat (BitVec.ofNat 72 v)))

/-- STB (R234, R235). -/
def execStb (k : CoreId) (gs : Gn) (m : MemOp) (s : State) : Host.Outcome State Fault Refusal :=
  .next (s.storeOp k 1 m (fun x => (x.gr gs.toNat).toNat))

/-- STH (R234, R235). -/
def execSth (k : CoreId) (gs : Gn) (m : MemOp) (s : State) : Host.Outcome State Fault Refusal :=
  .next (s.storeOp k 2 m (fun x => (x.gr gs.toNat).toNat))

/-- STW (R234, R235). -/
def execStw (k : CoreId) (gs : Gn) (m : MemOp) (s : State) : Host.Outcome State Fault Refusal :=
  .next (s.storeOp k 4 m (fun x => (x.gr gs.toNat).toNat))

/-- STP (R234, R235): the value of Ps before the address update. -/
def execStp (k : CoreId) (ps : Pn) (m : MemOp) (s : State) : Host.Outcome State Fault Refusal :=
  .next (s.storeOp k 4 m (fun x => (x.pr ps.toNat).toNat))

/-- STC (R234): bits [63:0], then the guard bits sign-extended to 64 bits. -/
def execStc (k : CoreId) (cn : Cn) (m : MemOp) (s : State) : Host.Outcome State Fault Refusal :=
  .next (s.storeOp k 16 m (fun x => ((x.cr cn.toNat).signExtend 128).toNat))

/-! ### Pointers (R236) -/

/-- PADR (R236): Ps + imm12 into Pd. -/
def execPadr (k : CoreId) (pd ps : Pn) (imm : Disp) (s : State) : Host.Outcome State Fault Refusal :=
  let (len, v) : Nat × W32 := match imm with
    | .short v => (4, if v.msb then Config.wideImm12 v else v.zeroExtend 32)
    | .long v => (8, v)
  .next (s.plainInstr k len (fun x => x.setP pd.toNat (x.pr ps.toNat + v)))

/-- PADD (R236). -/
def execPadd (k : CoreId) (pd ps : Pn) (gi : Gn) (s : State) : Host.Outcome State Fault Refusal :=
  .next (s.plainInstr k 4 (fun x => x.setP pd.toNat (x.pr ps.toNat + x.gr gi.toNat)))

/-- PSUB (R236). -/
def execPsub (k : CoreId) (pd ps : Pn) (gi : Gn) (s : State) : Host.Outcome State Fault Refusal :=
  .next (s.plainInstr k 4 (fun x => x.setP pd.toNat (x.pr ps.toNat - x.gr gi.toNat)))

/-- PMOV (R236). -/
def execPmov (k : CoreId) (pd ps : Pn) (s : State) : Host.Outcome State Fault Refusal :=
  .next (s.plainInstr k 4 (fun x => x.setP pd.toNat (x.pr ps.toNat)))

/-- PGET (R229): Ps to Gi. -/
def execPget (k : CoreId) (ps : Pn) (gi : Gn) (s : State) : Host.Outcome State Fault Refusal :=
  .next (s.plainInstr k 4 (fun x => x.setG gi.toNat (x.pr ps.toNat)))

/-- PPUT (R229): Gi to Pd. -/
def execPput (k : CoreId) (pd : Pn) (gi : Gn) (s : State) : Host.Outcome State Fault Refusal :=
  .next (s.plainInstr k 4 (fun x => x.setP pd.toNat (x.gr gi.toNat)))

/-- PCMP (R237): the flags of Pd - Ps. -/
def execPcmp (k : CoreId) (pd ps : Pn) (s : State) : Host.Outcome State Fault Refusal :=
  .next (s.plainInstr k 4 (fun x =>
    let (r, cv) := subWith (x.pr pd.toNat) (x.pr ps.toNat) false
    x.setFlags r cv))

/-! ### Control flow (R237, R243, R245) -/

/-- The condition of R237; none for the reserved code. -/
def Core.cond (x : Core) (c : Nat) : Option Bool :=
  let z := x.bit Sw.z
  let n := x.bit Sw.n
  let cc := x.bit Sw.c
  let v := x.bit Sw.v
  match c with
  | 0 => some true | 1 => some z | 2 => some !z | 3 => some n | 4 => some !n | 5 => some cc | 6 => some !cc
  | 7 => some v | 8 => some !v | 9 => some (n != v) | 10 => some (n == v) | 11 => some (z || n != v)
  | 12 => some (!z && n == v) | 13 => some (cc || z) | 14 => some (!cc && !z) | _ => none

/-- Branch (R237, R243): the target is the branch's address plus the offset in words; a misprediction squashes. -/
def execBranch (k : CoreId) (cond : BitVec 4) (off : BitVec 24) (sq : Squash) (s : State) :
    Host.Outcome State Fault Refusal :=
  .next (s.instr k 4 false false (fun s x =>
    match x.cond cond.toNat with
    | none => .fault illegal
    | some taken =>
      let predicted := cond == 0 || off.msb
      let s := s.traceRec k 1 x.pc.toNat (if taken then 1 else 0)
      let s := if taken == predicted then s else s.squash k sq
      .done s (if taken then some (x.pc + off.signExtend 32 * 4) else none)))

/-- The bytes and the word offset of a class 0x8 target: signed, and like a Branch's from the instruction's own address (DESIGN CHOICE,
log 30). -/
def targetValue : Target → Nat × W32
  | .short v => (4, v.signExtend 32)
  | .long v => (8, v)

/-- A call to a target: the return address is pushed (R245). -/
def State.callTo (s : State) (k len : Nat) (target : Core → W32) : State :=
  s.instr k len false false (fun s x =>
    match x.push (x.pc + BitVec.ofNat 32 len) with
    | .error f => .fault f
    | .ok y => .done (s.setCore k y) (some (target x)))

/-- CALL (R245). -/
def execCall (k : CoreId) (off : Target) (s : State) : Host.Outcome State Fault Refusal :=
  .next (s.callTo k (targetValue off).1 (fun x => x.pc + (targetValue off).2 * 4))

/-- CALLP (R245), through Pn. -/
def execCallp (k : CoreId) (pn : Pn) (s : State) : Host.Outcome State Fault Refusal :=
  .next (s.callTo k 4 (fun x => x.pr pn.toNat))

/-- JMP (R236). -/
def execJmp (k : CoreId) (off : Target) (s : State) : Host.Outcome State Fault Refusal :=
  .next (s.instr k (targetValue off).1 false false (fun s x => .done s (some (x.pc + (targetValue off).2 * 4))))

/-- JMPP (R236), through Pn. -/
def execJmpp (k : CoreId) (pn : Pn) (s : State) : Host.Outcome State Fault Refusal :=
  .next (s.instr k 4 false false (fun s x => .done s (some (x.pr pn.toNat))))

/-- A word popped at address a: the fault, or the value; the system window gives a free value. -/
def State.popWord (s : State) (x : Core) (a : W32) : Except CoreFault (W32 × State) :=
  match x.access false false a.toNat 4 with
  | some f => .error f
  | none =>
    match spaceOf a.toNat with
    | .window => .ok (s.freeBits 32, s.bumpFree)
    | _ => .ok (BitVec.ofNat 32 (Memory.readLE x.tcm a.toNat 4), s)

/-- RET (R245). -/
def execRet (k : CoreId) (s : State) : Host.Outcome State Fault Refusal :=
  .next (s.instr k 4 false false (fun s x =>
    match s.popWord x (x.pr 7) with
    | .error f => .fault f
    | .ok (pc, s) => .done (s.setCore k (x.setP 7 (x.pr 7 + 4))) (some pc)))

/-! ### System registers (R232, R239, R255 to R258) -/

/-- SW keeps its reserved bits at 0. -/
def swMask : W32 := 0x3FFF#32

/-- The value of a system register of core k; none where the number names no register. A write-only
one reads 0 (00_scope.md R11). -/
def Core.sysReg (x : Core) (k n : Nat) : Option W32 :=
  if 0x20 ≤ n ∧ n < 0x40 then
    some (if n % 2 = 0 then Tab.get 0 x.mpuBase ((n - 0x20) / 2) else Tab.get 0 x.mpuLim ((n - 0x20) / 2))
  else if 0x0D ≤ n ∧ n < 0x11 then some (Tab.get 0 x.ipri (n - 0x0D))
  else match n with
    | 0x00 => some x.sw | 0x01 => some x.lc | 0x02 => some x.vtb | 0x03 => some x.splim | 0x04 => some x.cfg
    | 0x05 => some x.fcause | 0x06 => some x.faddr | 0x07 => some (x.cycle.extractLsb' 0 32)
    | 0x08 => some (x.cycle.extractLsb' 32 32) | 0x09 => some x.cpxsq | 0x0A => some (BitVec.ofNat 32 k)
    | 0x0B => some x.ipend | 0x0C => some x.ien | 0x40 => some x.wdtLoad
    | 0x41 => some 0
    | 0x42 => some (if x.wdtFirst then 1 else 0) | _ => none

/-- System registers that component mode may read (R239). -/
def openSysReg (n : Nat) : Bool := n == 0 || n == 1 || n == 7 || n == 8 || n == 0xA

/-- MFS (R239): a number that names no register gives a value the manual does not state (log 11). -/
def execMfs (k : CoreId) (gd : Gn) (sr : BitVec 10) (s : State) : Host.Outcome State Fault Refusal :=
  .next (s.instr k 4 false false (fun s x =>
    if !x.bit Sw.priv && !openSysReg sr.toNat then .fault privilege
    else match x.sysReg k sr.toNat with
      | some v => .done (s.setCore k (x.setG gd.toNat v)) none
      | none => .done ((s.setCore k (x.setG gd.toNat (s.freeBits 32))).bumpFree) none))

/-- The core after MTS to a register other than WDT_KICK; a register marked RO ignores it. -/
def Core.setSysReg (x : Core) (n : Nat) (v : W32) : Core :=
  let locked := x.cfg.getLsbD 3
  if 0x20 ≤ n ∧ n < 0x40 then
    if locked then x
    else if n % 2 = 0 then { x with mpuBase := Tab.set 0 x.mpuBase ((n - 0x20) / 2) (v &&& 0xFFFFFFC1#32) }
    else { x with mpuLim := Tab.set 0 x.mpuLim ((n - 0x20) / 2) v }
  else if 0x0D ≤ n ∧ n < 0x11 then { x with ipri := Tab.set 0 x.ipri (n - 0x0D) v }
  else match n with
    | 0x00 => { x with sw := if x.bit Sw.priv then v &&& swMask else (x.sw &&& ~~~0x3F#32) ||| (v &&& 0x3F#32) }
    | 0x01 => { x with lc := v }
    | 0x02 => { x with vtb := v }
    | 0x03 => { x with splim := v }
    | 0x04 => if locked then x else { x with cfg := v &&& 0xF#32 }
    | 0x0C => { x with ien := v }
    | 0x40 => { x with wdtLoad := v, wdtLeft := v.toNat * 1000 }
    | _ => x

/-- MTS (R232, R239, R258). -/
def execMts (k : CoreId) (gs : Gn) (sr : BitVec 10) (s : State) : Host.Outcome State Fault Refusal :=
  .next (
    let x := s.core k
    let v := x.gr gs.toNat
    let t := s.instr k 4 false false (fun s x =>
      if !x.bit Sw.priv && sr != 0 then .fault privilege
      else if sr = 0x41 then
        .done (s.setCore k (if v = 0xA5C3 then { x with wdtLeft := x.wdtLoad.toNat * 1000, wdtFirst := false } else x)) none
      else .done (s.setCore k (x.setSysReg sr.toNat v)) none)
    if sr = 0x41 ∧ v ≠ 0xA5C3 ∧ x.alive ∧ x.bit Sw.priv ∧ ¬ x.waiting ∧ ¬ x.skip ∧ ¬ x.bit Sw.rp ∧ (x.fetchFault 4).isNone then
      (s.restartCore k).report k
    else t)

/-- RETI (R246): SW and PC from the frame, P7 up by 8; younger instructions are squashed. -/
def execReti (k : CoreId) (sq : Squash) (s : State) : Host.Outcome State Fault Refusal :=
  .next (s.instr k 4 false false (fun s x =>
    if !x.bit Sw.priv then .fault privilege
    else match s.popWord x (x.pr 7) with
      | .error f => .fault f
      | .ok (sw, s) =>
        match s.popWord x (x.pr 7 + 4) with
        | .error f => .fault f
        | .ok (pc, s) =>
          let s := s.setCore k { (x.setP 7 (x.pr 7 + 8)) with sw := sw &&& swMask }
          .done ((s.traceRec k 3 x.pc.toNat 0).squash k sq) (some pc)))

/-- TRAP (R246, R248): exception entry with the next instruction as resume PC. -/
def execTrap (k : CoreId) (sq : Squash) (s : State) : Host.Outcome State Fault Refusal :=
  .next (
    let x := s.core k
    if x.alive && !x.waiting && !x.skip && !x.bit Sw.rp && (x.fetchFault 4).isNone then
      s.takeException k (.plain 8) (x.pc + 4) (some sq)
    else s.instr k 4 false false (fun _ _ => .wait))

/-- FENCE (R244): every posted store has been accepted. -/
def execFence (k : CoreId) (s : State) : Host.Outcome State Fault Refusal :=
  .next (s.instr k 4 false false (fun s x => .done (s.setCore k { x with posted := [] }) none))

/-- WAIT (R251): issue stops until an interrupt qualifies or WDT arrives. -/
def execWait (k : CoreId) (s : State) : Host.Outcome State Fault Refusal :=
  .next (s.instr k 4 false false (fun s x => .done (s.setCore k { x with waiting := true }) none))

/-- HALT (R239): the core stops. -/
def execHalt (k : CoreId) (s : State) : Host.Outcome State Fault Refusal :=
  .next (s.instr k 4 false false (fun s x =>
    if !x.bit Sw.priv then .fault privilege else .done (s.setCore k { x with halted := true }) none))

/-! ### Repeat prefixes (R252 to R254) -/

/-- A repeat of n iterations of the next instruction starts. -/
def Core.startRepeat (x : Core) (n : Nat) (rn : Bool) : Core :=
  { (x.setBit Sw.rp true).setBit Sw.rn rn with lc := BitVec.ofNat 32 n, fresh := some x.lc }

/-- REP (R252): an immediate of 0 is ILLEGAL. -/
def execRep (k : CoreId) (n : BitVec 16) (s : State) : Host.Outcome State Fault Refusal :=
  .next (s.instr k 4 false false (fun s x =>
    if n = 0 then .fault illegal else .done (s.setCore k (x.startRepeat n.toNat false)) none))

/-- REPG (R252): the count is Gn[15:0]; 0 skips the next instruction. -/
def execRepg (k : CoreId) (gn : Gn) (s : State) : Host.Outcome State Fault Refusal :=
  .next (s.instr k 4 false false (fun s x =>
    let n := (x.gr gn.toNat).toNat % 65536
    .done (s.setCore k (if n = 0 then { x with skip := true } else x.startRepeat n false)) none))

/-- REPN (R254): 1 to 64 iterations without interrupts; any other count is taken as ILLEGAL (log 11). -/
def execRepn (k : CoreId) (n : BitVec 16) (s : State) : Host.Outcome State Fault Refusal :=
  .next (s.instr k 4 false false (fun s x =>
    if n = 0 ∨ 64 < n.toNat then .fault illegal else .done (s.setCore k (x.startRepeat n.toNat true)) none))

/-! ### Events of a core (R249, R251, R258, R233) -/

/-- The interrupt lines of core k (R250; 09_firmware.md R276); the others are never raised. -/
def coreLines (k : Nat) : List Nat :=
  if 5 ≤ k then [0, 1, 2, 3, 4, 5, 6]
  else if k = 0 ∨ k = 2 then [0, 1, 2, 3]
  else [0, 1, 2]

/-- An interrupt line of core k asserts (R249); where it is taken, younger instructions are squashed. A line that no
rule names is never raised, so a command for one leaves the state as it is (log 2). -/
def execInterruptAssert (k : CoreId) (line : BitVec 5) (sq : Squash) (s : State) : Host.Outcome State Fault Refusal :=
  .next (if (coreLines k).contains line.toNat then s.raiseLine k line.toNat (some sq) else s)

/-- A watchdog expiry (R258, R254): none while the watchdog does not count; it comes when what is left of the count has passed;
held back by a non-interruptible repeat, by a repeat prefix until its instruction has run once, and by a REPG of count 0 until
the skip that belongs to it is over (R252). -/
def execWdtExpiry (k : CoreId) (sq : Squash) (s : State) : Host.Outcome State Fault Refusal :=
  .next (
    if (s.core k).wdtCounts then
      let s := s.passTime (s.core k).wdtLeft
      let x := s.core k
      if (x.bit Sw.rp && x.bit Sw.rn) || x.skip || x.fresh.isSome then s.setCore k { x with wdtPend := true } else s.expire k (some sq)
    else s)

/-- A system-window access receives no answer within 2 us (R233): BUS with the address. Between a REPG of count 0 and the
skip that belongs to it no access is open (log 2). -/
def execSystemWindowTimeout (k : CoreId) (addr : W32) (sq : Squash) (s : State) : Host.Outcome State Fault Refusal :=
  .next (
    let x := s.core k
    if x.alive && !x.skip && spaceOf addr.toNat = .window then
      s.takeException k ⟨7, some addr.toNat, 0⟩ x.pc (some sq)
    else s)

end Sys2Proof.Machine
end

