-- ==== Sys2Proof/Machine/Cpx.lean ====
section
/-! DEFINITION. The cluster coprocessor (08_tenon.md R259 to R266) and the routing step of bounded exchange
(04_cutlists.md R134 to R138). -/

namespace Sys2Proof.Machine

/-! ### Result buffers (R259) -/

/-- Entry e of a bench's result buffer. -/
def Bench.entry (x : Bench) (e : Nat) : List W32 := Tab.get lanes0 x.entries e

/-- Writing entry e, with the cause code of a fault result or 0 (R263). -/
def Bench.setEntry (x : Bench) (e : Nat) (v : List W32) (fault : Nat) : Bench :=
  { x with entries := Tab.set lanes0 x.entries e v, entryFault := Tab.set 0 x.entryFault e fault }

/-! ### The operations (R261) -/

/-- The entries an operation writes. -/
def CpxOp.writes (o : CpxOp) : List Nat :=
  if o.kind = CpxKind.cdraw then [o.entry, o.entry2]
  else if o.kind ≤ CpxKind.csamp ∨ o.kind = CpxKind.cwr then [o.entry] else []

/-- A waiting operation of unit u writes entry e. -/
def Cluster.writesEntry (x : Cluster) (u e : Nat) : Bool := x.queue.any (fun o => o.unit == u && o.writes.contains e)

/-- Operand j of an operation: the general register n + j read at acceptance. -/
def CpxOp.arg (o : CpxOp) (j : Nat) : Nat := (o.args.getD j 0).toNat

/-- The general register values of an operation with count operands. -/
def Core.cpxArgs (x : Core) (n count : Nat) : List W32 := (List.range count).map (fun j => x.gr (n + j))

/-- CPX_FAULT with its cause (R248, R263). -/
def cpxFault (cause : Nat) : CoreFault := ⟨9, none, cause⟩

/-- What keeps an operation from being accepted: ILLEGAL operands at D (R261), a full queue, an absent bench or lines
past the end at its retire (R263). onBench says that the operation's unit column names a bench. -/
def State.cpxCheck (s : State) (c : Nat) (onBench : Bool) (f : CpxFields) (count : Nat) (good : Bool)
    (lineRuns : List (Nat × Nat)) (benches : List Nat) : Option CoreFault :=
  let u := f.unit.toNat
  if !good || decide (16 < f.dn.toNat + count) then some illegal
  else if onBench && u == 15 then some illegal
  else if decide (10 ≤ u ∧ u < 15) then some (cpxFault 1)
  else if !onBench && u != 15 then some illegal
  else if onBench && !s.flag (F.bncStatusPresent (10 * c + u)) then some (cpxFault 1)
  else if benches.any (fun i => decide (10 ≤ i) || !s.flag (F.bncStatusPresent (10 * c + i))) then some (cpxFault 1)
  else if lineRuns.any (fun p => decide (65536 < p.1 + p.2)) then some (cpxFault 4)
  else none

/-- The next sequence tag of cluster c is spent (R262). -/
def State.spendTag (s : State) (c : Nat) : State :=
  let y := s.cluster c
  s.setCluster c { y with nextTag := (y.nextTag + 1) % 64 }

/-- The cause code of a fault result in an entry of bench b. -/
def State.entryBad (s : State) (b e : Nat) : Option Nat :=
  let n := Tab.get 0 (s.bench b).entryFault e
  if n = 0 then none else some n

/-- The way of a CPX instruction through D and W (R262, R263): ILLEGAL at D; with 16 operations outstanding it stalls;
otherwise it has its tag, and after what it waits for it meets its fault or goes on. -/
def State.cpxGate (s : State) (c : Nat) (check : Option CoreFault) (waits : Bool) (bad : Option Nat) (body : State → Did) : Did :=
  if check = some illegal then .fault illegal
  else if 16 ≤ (s.cluster c).queue.length then .wait
  else match check with
    | some e => .faultIn (s.spendTag c) e
    | none =>
      if waits then .wait
      else match bad with
        | some n => .faultIn (s.spendTag c) (cpxFault n)
        | none => body (s.spendTag c)

/-- A CPX instruction (R236 class 0xB, R262): ILLEGAL on a core that is not a control core; otherwise a tag is spent
and, unless the body does more, the operation joins the cluster's queue. -/
def State.cpx (s : State) (k : Nat) (kind : Nat) (f : CpxFields) (count : Nat) (onBench good : Bool)
    (runs : List W32 → List (Nat × Nat)) (benches : List W32 → List Nat) (entries : List Nat) : State :=
  s.instr k 4 true false (fun s x =>
    if k < 5 then .fault illegal
    else
      let c := k - 5
      let args := x.cpxArgs f.dn.toNat count
      let y := s.cluster c
      s.cpxGate c (s.cpxCheck c onBench f count good (runs args) (benches args)) (entries.any (y.writesEntry f.unit.toNat))
        (if onBench then entries.findSome? (s.entryBad (10 * c + f.unit.toNat)) else none) (fun s =>
          let o : CpxOp := ⟨kind, f.unit.toNat, f.entry.toNat, f.entry2.toNat, f.sub.toNat, f.notify, y.nextTag, args⟩
          let s := (s.traceRec k 4 x.pc.toNat (kind + f.unit.toNat * 64)).clusterCtr c 9 1
          .done (s.setQueue c (y.queue ++ [o])) none))

/-- A CRD or CWAIT: it holds its core until it completes, and while it waits it stands in the cluster's queue with its tag
(03_benches.md R103; R262). -/
def State.cpxHold (s : State) (k : Nat) (x : Core) (kind : Nat) (f : CpxFields) (check : Option CoreFault) (waits : Bool)
    (bad : Option Nat) (body : State → Did) : Did :=
  let c := k - 5
  let q := (s.cluster c).queue
  let here := q.any CpxOp.holds
  let go := if here then s.setQueue c (q.filter (fun o => !o.holds)) else s.spendTag c
  if check = some illegal then .fault illegal
  else if ¬ here ∧ 16 ≤ q.length then .wait
  else match check with
    | some e => .faultIn go e
    | none =>
      if waits then
        if here then .wait
        else
          let o : CpxOp := ⟨kind, f.unit.toNat, f.entry.toNat, f.entry2.toNat, f.sub.toNat, f.notify, (s.cluster c).nextTag, []⟩
          .waitIn ((s.spendTag c).setQueue c (q ++ [o]))
      else match bad with
        | some n => .faultIn go (cpxFault n)
        | none => body (go.traceRec k 4 x.pc.toNat (kind + f.unit.toNat * 64) |>.clusterCtr c 9 1)

/-- Unit u has operations that came before a CRD or CWAIT and have not completed. -/
def Cluster.busy (x : Cluster) (u : Nat) : Bool := x.queue.any (fun o => o.unit == u && !o.holds)

/-- A sub field that counts 1 to 32 lines. -/
def goodLines (f : CpxFields) : Bool := decide (1 ≤ f.sub.toNat ∧ f.sub.toNat ≤ 32)

/-- The bench-store line of an operand: bits [15:0]. -/
def argLine (args : List W32) (j : Nat) : Nat := (args.getD j 0).toNat % 65536

/-- CLD (R261): sub lines from line Gn[15:0] into entry. -/
def execCld (k : CoreId) (x : CpxFields) (s : State) : Host.Outcome State Fault Refusal :=
  .next (s.cpx k CpxKind.cld x 1 true (goodLines x) (fun a => [(argLine a 0, x.sub.toNat)]) (fun _ => []) [])

/-- The VEC op codes of R95. -/
def goodCvec (sub : Nat) : Bool := decide (sub ≤ 0x11)

/-- CVEC (R261). -/
def execCvec (k : CoreId) (x : CpxFields) (s : State) : Host.Outcome State Fault Refusal :=
  .next (s.cpx k CpxKind.cvec x 1 true (goodCvec x.sub.toNat) (fun _ => []) (fun _ => []) [])

/-- CTRN (R261). -/
def execCtrn (k : CoreId) (x : CpxFields) (s : State) : Host.Outcome State Fault Refusal :=
  .next (s.cpx k CpxKind.ctrn x 0 true (decide (x.sub.toNat ≤ 8)) (fun _ => []) (fun _ => []) [])

/-- CDRAW (R261): the two entries differ. -/
def execCdraw (k : CoreId) (x : CpxFields) (s : State) : Host.Outcome State Fault Refusal :=
  .next (s.cpx k CpxKind.cdraw x 4 true (x.entry != x.entry2) (fun _ => []) (fun _ => []) [])

/-- CSAMP (R261, R263): a count above 2^20, or lines past the end, is LENGTH. -/
def execCsamp (k : CoreId) (x : CpxFields) (s : State) : Host.Outcome State Fault Refusal :=
  .next (s.cpx k CpxKind.csamp x 6 true true (fun a =>
    let n := (a.getD 1 0).toNat
    [(argLine a 0, ceilDiv (4 * n) 64), (if n ≤ 2 ^ 20 then 0 else 65537, 0)]) (fun _ => []) [])

/-- CRD (R261): a lane of an entry into Gd, once nothing that waits writes the entry and in an open window; a fault
result is CPX_FAULT (R263). -/
def execCrd (k : CoreId) (x : CpxFields) (s : State) : Host.Outcome State Fault Refusal :=
  .next (s.instr k 4 true false (fun s y =>
    if (k : Nat) < 5 then .fault illegal
    else
      let c := (k : Nat) - 5
      let b := 10 * c + x.unit.toNat
      s.cpxHold k y CpxKind.crd x (s.cpxCheck c true x 1 (decide (x.sub.toNat < 16) && x.entry2 == 0) [] [])
        ((s.cluster c).writesEntry x.unit.toNat x.entry.toNat || !s.flag (F.bncStatusOpen b)) (s.entryBad b x.entry.toNat) (fun s =>
          let v := ((s.bench b).entry x.entry.toNat).getD ((y.gr x.dn.toNat).toNat % 512) 0
          let s := s.setCore k (y.setG (x.sub.toNat % 16) v)
          .done (if x.notify then s.markLine k 2 else s) none)))

/-- CWR (R261): one lane of entry. -/
def execCwr (k : CoreId) (x : CpxFields) (s : State) : Host.Outcome State Fault Refusal :=
  .next (s.cpx k CpxKind.cwr x 2 true true (fun _ => []) (fun _ => []) [])

/-- CWAIT (R261): waits until every earlier operation of the unit has completed, and for a bench's open window (R103); a fault
result in entry is CPX_FAULT (R263). -/
def execCwait (k : CoreId) (x : CpxFields) (s : State) : Host.Outcome State Fault Refusal :=
  .next (s.instr k 4 true false (fun s y =>
    if (k : Nat) < 5 then .fault illegal
    else
      let c := (k : Nat) - 5
      let u := x.unit.toNat
      s.cpxHold k y CpxKind.cwait x (s.cpxCheck c (decide (u < 10)) x 0 true [] [])
        ((s.cluster c).busy u || (decide (u < 10) && !s.flag (F.bncStatusOpen (10 * c + u))))
        (if u < 10 then s.entryBad (10 * c + u) x.entry.toNat else none) (fun s =>
          .done (if x.notify then s.markLine k 2 else s) none)))

/-- CWB (R261, R263): sub lines of entry to line Gn[15:0]; it consumes the entry. -/
def execCwb (k : CoreId) (x : CpxFields) (s : State) : Host.Outcome State Fault Refusal :=
  .next (s.cpx k CpxKind.cwb x 1 true (goodLines x) (fun a => [(argLine a 0, x.sub.toNat)]) (fun _ => []) [x.entry.toNat])

/-- Bench and line of a CMOVC operand: line in [15:0], bench in [23:16] (PRESUMED, log 11). -/
def cmovcPlace (w : W32) : Nat × Nat := (w.toNat / 65536 % 256, w.toNat % 65536)

/-- CMOVC (R261): a copy by the cluster mover. -/
def execCmovc (k : CoreId) (x : CpxFields) (s : State) : Host.Outcome State Fault Refusal :=
  .next (s.cpx k CpxKind.cmovc x 3 false true (fun a =>
    let n := (a.getD 2 0).toNat
    [((cmovcPlace (a.getD 0 0)).2, n), ((cmovcPlace (a.getD 1 0)).2, n)])
    (fun a => [(cmovcPlace (a.getD 0 0)).1, (cmovcPlace (a.getD 1 0)).1]) [])

/-- The exchange descriptor i of the cutlist of cluster c's partition. -/
def State.exchangeOf (s : State) (c i : Nat) : Option Exchange :=
  ((s.clusterPart c).bind (fun p => (s.part p).list)).bind (fun l => l.exchange[i]?)

/-- Bytes of the choice list and of the route result of a descriptor (04_cutlists.md R135, R137). -/
def Exchange.choiceBytes (x : Exchange) : Nat := 2 * x.tokens * x.k
def Exchange.resultBytes (x : Exchange) : Nat := 4 * (x.experts * x.capacity + x.spillCapacity) + 2 * x.tokens * x.k

/-- CROUTE (R261): the routing step for descriptor Gn; a choice list or route result that would run past line 65,535 is LENGTH
(03_benches.md R82), a route_bench that is not there ABSENT (R263). -/
def execCroute (k : CoreId) (x : CpxFields) (s : State) : Host.Outcome State Fault Refusal :=
  .next (s.cpx k CpxKind.croute x 1 false true (fun a =>
    match s.exchangeOf (k - 5) (a.getD 0 0).toNat with
    | none => []
    | some e => [(e.choiceLine, ceilDiv e.choiceBytes 64), (e.routeLine, ceilDiv e.resultBytes 64)]) (fun a => ((s.exchangeOf (k - 5) (a.getD 0 0).toNat).map (fun e => e.routeBench % 10)).toList) [])

/-- CSYNC (R261): adds Gn+1 to synchronization counter Gn[3:0]. -/
def execCsync (k : CoreId) (x : CpxFields) (s : State) : Host.Outcome State Fault Refusal :=
  .next (s.cpx k CpxKind.csync x 2 false true (fun _ => []) (fun _ => []) [])

/-- CREL (R261): releases the bench's open window. -/
def execCrel (k : CoreId) (x : CpxFields) (s : State) : Host.Outcome State Fault Refusal :=
  .next (s.cpx k CpxKind.crel x 0 true true (fun _ => []) (fun _ => []) [])

/-! ### The routing step (R136, R137) -/

/-- Where the routing stands: tokens in each expert's slots, tokens in the extra slots, and the slot taken by each
choice under k t + rank. -/
structure Routing where
  slots : Tab (List Nat)
  extra : List Nat
  map : Tab Nat
  deriving DecidableEq, Repr

/-- One choice: token t, rank r, expert e. -/
def Routing.choose (g : Routing) (x : Exchange) (t r e : Nat) : Routing :=
  if x.experts ≤ e then g
  else
    let own := Tab.get [] g.slots e
    if own.contains t ∨ (e = x.spillExpert ∧ x.spill ∧ g.extra.contains t) then g
    else if own.length < x.capacity then
      { g with slots := Tab.set [] g.slots e (own ++ [t]), map := Tab.put g.map (x.k * t + r) own.length }
    else if x.spill ∧ g.extra.length < x.spillCapacity ∧ ¬ g.extra.contains t
        ∧ ¬ (Tab.get [] g.slots x.spillExpert).contains t then
      { g with extra := g.extra ++ [t], map := Tab.put g.map (x.k * t + r) (x.capacity + g.extra.length) }
    else g

/-- The routing of a choice list (R136): rank by rank, tokens ascending. -/
def route (x : Exchange) (choices : List Byte) : Routing :=
  ((List.range x.k).flatMap (fun r => (List.range x.tokens).map (fun t => (t, r)))).foldl
    (fun g (t, r) => g.choose x t r (fieldLE choices (2 * (x.k * t + r)) 2)) ⟨[], [], []⟩

/-- Entries of 32 bits for n slots: token numbers, then 0xFFFF_FFFF. -/
def slotBytes (n : Nat) (ts : List Nat) : List Byte :=
  (List.range n).flatMap (fun i => leBytes 4 (ts.getD i 0xFFFFFFFF))

/-- The route result (R137): slot map, then token map. -/
def routeResult (x : Exchange) (g : Routing) : List Byte :=
  (List.range x.experts).flatMap (fun e =>
      slotBytes x.capacity (Tab.get [] g.slots e) ++ (if e = x.spillExpert then slotBytes x.spillCapacity g.extra else []))
    ++ (List.range (x.tokens * x.k)).flatMap (fun i => leBytes 2 (Tab.get 0xFFFF g.map i))

/-- The routing step of cluster c for descriptor i of its partition's cutlist; a descriptor the cutlist does not hold
routes nothing. Poison in the choice list passes to the result's lines (log 11). A route_bench of 10 or more is taken
modulo 10 (DESIGN CHOICE, log 25). -/
def State.routeStep (s : State) (c i : Nat) : State :=
  match s.exchangeOf c i with
  | none => s
  | some x =>
    let b := 10 * c + x.routeBench % 10
    let lines := linesOf (64 * x.choiceLine) x.choiceBytes
    let s := s.benchCountRead b lines
    let y := s.bench b
    let out := routeResult x (route x (Memory.read y.store (64 * x.choiceLine) x.choiceBytes))
    let s := s.clusterCtr c 8 (x.choiceBytes + out.length)
    let y' := y.writeBytes (64 * x.routeLine) out
    s.setBench b (if (y.operandFault lines).isSome then
      { y' with poison := (linesOf (64 * x.routeLine) out.length).foldl (fun p l => insertNat l p) y'.poison } else y')

/-! ### Completion (R259, R261) -/

/-- The lanes of a CVEC (R81, R545): on entry and entry2, or on entry2 with the scalar (log 11). -/
def cvecLanes (sub : Nat) (e e2 : List W32) (scalar : W32) : List W32 :=
  let xs := if Config.cvecScalar sub then e2 else e
  let ys := if Config.cvecScalar sub then List.replicate 512 scalar else e2
  let f : W32 → W32 → W32 → W32 := match sub with
    | 0x00 => fun x y _ => Fp.add x y
    | 0x01 => fun x y _ => Fp.sub x y
    | 0x02 => fun x y _ => Fp.mul x y
    | 0x03 => Fp.fma
    | 0x04 => fun x y _ => Fp.div x y
    | 0x05 => fun x _ _ => Fp.sqrt x
    | 0x06 => fun x y _ => Fp.max x y
    | 0x07 => fun x y _ => Fp.min x y
    | 0x08 => fun x y _ => if compareLane Config.cvecCompare x y then 1 else 0
    | 0x09 => fun x y z => if z = 0 then y else x
    | 0x0E => fun x _ _ => x
    | _ => fun _ _ _ => scalar
  List.zipWith (fun (p : W32 × W32) z => f p.1 p.2 z) (List.zip xs ys) e

/-- Whether a CVEC takes entry and entry2 (R263: a fault result is one that the operation consumed). -/
def cvecReads (sub : Nat) : Bool × Bool :=
  if sub = 0x0F then (false, false)
  else if sub = 0x03 ∨ sub = 0x09 then (true, true)
  else if Config.cvecScalar sub then (false, true)
  else if sub = 0x05 ∨ sub = 0x0E then (true, false)
  else (true, true)

/-- VEC operations that work on lanes alone; of the loads, stores, draw and reduction no rule says what a CVEC of one gives
(log 11). -/
def laneCvec (sub : Nat) : Bool := decide (sub ≤ 9) || sub == 0x0E || sub == 0x0F

/-- A bench-store read of an operation: an uncorrectable word gives fault 3, poison fault 2 (R263). No bench fault. -/
def Bench.cpxRead (x : Bench) (lines : List Nat) : Nat :=
  match x.operandFault lines with
  | some 4 => 3
  | some _ => 2
  | none => 0

/-- What a bench operation does when it completes. -/
def State.runBenchOp (s : State) (c : Nat) (o : CpxOp) : State :=
  let b := 10 * c + o.unit
  let x := s.bench b
  let set := fun (s : State) (v : List W32) (fault : Nat) => s.setBench b ((s.bench b).setEntry o.entry v fault)
  let src := fun e => Tab.get 0 x.entryFault e
  if o.kind = CpxKind.cld then
    let lines := (List.range o.sub).map (fun j => argLine o.args 0 + j)
    let s := s.benchCountRead b lines
    let v := words32 (Memory.read x.store (64 * argLine o.args 0) (64 * o.sub)) (16 * o.sub)
    set s (v ++ (x.entry o.entry).drop (16 * o.sub)) (x.cpxRead lines)
  else if o.kind = CpxKind.cvec then
    let fault := max (if (cvecReads o.sub).1 then src o.entry else 0) (if (cvecReads o.sub).2 then src o.entry2 else 0)
    if laneCvec o.sub then set (s.benchCtr b 6 1) (cvecLanes o.sub (x.entry o.entry) (x.entry o.entry2) (o.args.getD 0 0)) fault
    else
      set (s.benchCtr b 6 1) ((List.range 512).map (Config.cvecOther o.sub (x.entry o.entry) (x.entry o.entry2) (o.args.getD 0 0))) fault
  else if o.kind = CpxKind.ctrn then
    set (s.benchCtr b 6 1) ((x.entry o.entry2).map (Fp.primitive o.sub)) (src o.entry2)
  else if o.kind = CpxKind.cdraw then
    let ds := (List.range 512).map (fun l => draw (o.args.getD 0 0 ++ o.args.getD 1 0) (o.args.getD 2 0) (o.args.getD 3 0)
      (BitVec.ofNat 32 l))
    let s := set (s.benchCtr b 6 1) (ds.map (fun (d : W64) => d.setWidth 32)) 0
    s.setBench b ((s.bench b).setEntry o.entry2 (ds.map (fun (d : W64) => (d >>> 32).setWidth 32)) 0)
  else if o.kind = CpxKind.csamp then
    let n := o.arg 1
    let lines := if n = 0 then [] else linesOf (64 * argLine o.args 0) (4 * n)
    let s := s.benchCountRead b lines
    let v := sample (words32 (Memory.read x.store (64 * argLine o.args 0) (4 * n)) n) (o.args.getD 2 0 ++ o.args.getD 3 0)
      (o.args.getD 4 0) (o.args.getD 5 0)
    set s (v :: (x.entry o.entry).drop 1) (x.cpxRead lines)
  else if o.kind = CpxKind.cwr then
    set s ((x.entry o.entry).set (o.arg 1 % 512) (o.args.getD 0 0)) 0
  else if o.kind = CpxKind.cwb then
    s.setBench b (x.writeBytes (64 * argLine o.args 0) (((x.entry o.entry).take (16 * o.sub)).flatMap (fun v => leBytes 4 v.toNat)))
  else if o.kind = CpxKind.crel then
    let s := if (s.core (5 + c)).tenant ∧ ¬ x.abandoned then s.setBench b { x with released := true } else s
    (s.clusterCtr c 11 ((s.freeBits 64).toNat % (x.window.getD 0 + 1))).bumpFree
  else s

/-- What a mover or counter operation does when it completes. -/
def State.runClusterOp (s : State) (c : Nat) (o : CpxOp) : State :=
  if o.kind = CpxKind.cmovc then
    let (sb, sl) := cmovcPlace (o.args.getD 0 0)
    let (db, dl) := cmovcPlace (o.args.getD 1 0)
    let s := (List.range (o.arg 2)).foldl (fun s j => s.benchLine (10 * c + sb % 10) (10 * c + db % 10) (sl + j) (dl + j) false) s
    s.clusterCtr c 8 (64 * o.arg 2)
  else if o.kind = CpxKind.croute then s.routeStep c (o.arg 0)
  else s.addSync c (o.arg 0 % 16) (o.args.getD 1 0)

/-- CPX_OP_COMPLETE (R259, R262): the oldest operation of the unit completes and leaves the queue, but for a CRD or CWAIT, which
completes with its instruction; a bench's operation
only while its window is open (R103); notify raises line 2 (R250). -/
def execCpxOpComplete (c : ClusterId) (unit : BitVec 4) (s : State) : Host.Outcome State Fault Refusal :=
  .next (
    let q := (s.cluster c).queue
    match q.findIdx? (fun o => o.unit == unit.toNat && !o.holds) with
    | none => s
    | some i =>
      match q[i]? with
      | none => s
      | some o =>
        if o.unit < 10 ∧ ¬ s.flag (F.bncStatusOpen (10 * c + o.unit)) then s
        else
          let s := s.setQueue c (dropAt i q)
          let s := if o.unit < 10 then s.runBenchOp c o else s.runClusterOp c o
          if o.notify then s.raiseCluster c 2 else s)

end Sys2Proof.Machine
end

