-- ==== Sys2Proof/Machine/OpsBank.lean ====
section
/-! DEFINITION. The flash banks, their state sectors and bundles, and what a DOWNLOAD checks and leaves (09_firmware.md R267 to
R271, R278, R280, R284). -/

namespace Sys2Proof.Machine

/-! ### Banks (R267 to R271); bank 1 is A, bank 2 is B -/

/-- Start of a bank. -/
def bankBase (b : Nat) : Nat := (b - 1) * 0x02000000

/-- The signed part of a bank's header with the signature. -/
def State.header (s : State) (b : Nat) : List Byte := Memory.read s.fw.flash (bankBase b) 0x260

/-- Slots of a bank's state sector that have been written. -/
def State.recordSlots (s : State) (b : Nat) : List Nat :=
  let base := bankBase b + 0x10000
  ((s.fw.flash.filter (fun c => decide (base ≤ c.1 ∧ c.1 < base + 0x10000))).map (fun c => (c.1 - base) / 64)).eraseDups

/-- The records whose CRC checks, oldest first. -/
def State.bankRecords (s : State) (b : Nat) : List (List Byte) :=
  ((s.recordSlots b).map (fun k => Memory.read s.fw.flash (bankBase b + 0x10000 + 64 * k) 64)).filter (fun r =>
    Crypto.crc32 (r.take 60) == fieldLE r 60 4)

/-- State code and commit sequence of a bank (R270). -/
def State.bankState (s : State) (b : Nat) : Nat × Nat :=
  match (s.bankRecords b).getLast? with
  | none => (0, 0)
  | some r => (fieldLE r 0 1, fieldLE r 4 4)

/-- FWC_STATUS shows both banks, FWC_BOOT the fused version. -/
def State.showBanks (s : State) : State :=
  ((s.setFld F.fwcStatusBankA (s.bankState 1).1).setFld F.fwcStatusBankB (s.bankState 2).1).setFld F.fwcBootFusedSvn s.fw.fused

/-- A record is appended; a full sector is erased first (R270). -/
def State.appendRecord (s : State) (b code seq : Nat) : State :=
  let body := leBytes 4 code ++ leBytes 4 seq ++ List.replicate 52 0
  let rec_ := body ++ leBytes 4 (Crypto.crc32 body)
  let base := bankBase b + 0x10000
  let n := match (s.recordSlots b).getLast? with
    | none => 0
    | some k => k + 1
  let s : State := if n < 1024 then s else { s with fw := { s.fw with flash := Memory.zero s.fw.flash base 0x10000 } }
  (s.flashWrite (base + 64 * (if n < 1024 then n else 0)) rec_).showBanks

/-- The bank that was booted: none in image-less service. -/
def State.bootedBank (s : State) : Option Nat :=
  if s.fld F.fwcBootStage = 8 then some (s.fld F.fwcStatusBooted + 1) else none

/-! ### Bundles (R268, R269) -/

/-- Directory entry of an image kind. -/
def dirEntry (h : List Byte) (kind : Nat) : Option (List Byte) :=
  ((List.range 7).map (fun k => bytesAt h (0x40 + 64 * k) 64)).find? (fun e => fieldLE e 0 1 == kind)

/-- svn of a header. -/
def svnOf (h : List Byte) : Nat := fieldLE h 0x0C 1

/-- The header's signature verifies. -/
def State.fwSigned (s : State) (h : List Byte) : Bool := Crypto.ecdsaVerify s.mfg.signer (h.take 0x200) (bytesAt h 0x200 96)

/-- Target and security version permit the bundle (R271, R272). -/
def State.usable (s : State) (h : List Byte) : Bool := fieldLE h 6 2 == 0x00E9 && decide (s.fw.fused ≤ svnOf h)

/-- The image of a directory entry in a bank. -/
def State.imageOf (s : State) (b : Nat) (e : List Byte) : List Byte :=
  Memory.read s.fw.flash (bankBase b + 0x20000 + fieldLE e 4 4) (fieldLE e 8 4)

/-- The image of a kind in a bank, where its digest is right. -/
def State.goodImageOf (s : State) (b kind : Nat) : Option (List Byte × List Byte) :=
  match dirEntry (s.header b) kind with
  | none => none
  | some e =>
    let img := s.imageOf b e
    if Crypto.sha384 img = bytesAt e 0x10 48 then some (e, img) else none

/-! ### A DOWNLOAD (R280, R284) -/

/-- The bank that a DOWNLOAD writes: the one not booted; bank A in image-less service. -/
def State.downloadBank (s : State) : Nat :=
  match s.bootedBank with
  | some 1 => 2
  | _ => 1

/-- Bytes of the image area from its start to the end of the last image. -/
def areaEnd (h : List Byte) : Nat :=
  (List.range 7).foldl (fun m k => let e := bytesAt h (0x40 + 64 * k) 64; max m (fieldLE e 4 4 + fieldLE e 8 4)) 0

/-- Largest image of a kind. -/
def imageLimit (kind : Nat) : Nat := if kind ≤ 4 then 0x20000 else if kind = 5 then 0x14000 else 0x1800000

/-- The bundle's length and the images' fit it (R267, R269, R280). -/
def goodLength (h : List Byte) (len : Nat) : Bool :=
  decide (0x20000 < len ∧ len ≤ 0x20000 + 28544 * 1024 ∧ areaEnd h + 0x20000 ≤ len)
    && (List.range 7).all (fun k => ((dirEntry h k).map (fun e => decide (fieldLE e 8 4 ≤ imageLimit k))).getD false)

/-- Every core image declares protect 0b11, or debug right 4 holds (R278). -/
def State.goodProtect (s : State) (h : List Byte) : Bool :=
  s.hasRight 4 || (List.range 6).all (fun k => ((dirEntry h k).map (fun e => fieldLE e 1 1 == 3)).getD false)

/-- Step 1: what ends a download before the bank is touched. -/
def State.downloadFault (s : State) (h : List Byte) (len : Nat) : Option Nat :=
  if ¬ s.fwSigned h then some Status.integrity
  else if ¬ s.usable h ∨ ¬ s.goodProtect h then some Status.versionMismatch
  else if ¬ goodLength h len then some Status.badDescriptor
  else none

/-- The state sector of bank b is erased: the bank reads EMPTY. -/
def State.eraseSector (s : State) (b : Nat) : State :=
  ((({ s with fw := { s.fw with flash := Memory.zero s.fw.flash (bankBase b + 0x10000) 0x10000 } }).markLine 0 3)).showBanks

/-- The bank is TRIAL or ATTEMPT, and takes no DOWNLOAD (R280). -/
def State.bankHeld (s : State) (b : Nat) : Bool := (s.bankState b).1 == 2 || (s.bankState b).1 == 3

/-- A DOWNLOAD into bank b is refused: the bank is TRIAL or ATTEMPT, or a recovery level runs (R280; 19_recovery.md R504). -/
def State.downloadRefused (s : State) (b : Nat) : Bool := s.bankHeld b || s.flag F.rcvStatusActive

/-- The source and length that FWC_SRC and FWC_LEN give. -/
def State.downloadSource (s : State) : Nat × Nat :=
  (s.fld F.fwcSrcLoAddr + s.fld F.fwcSrcHiAddr * 2 ^ 32, s.fld F.fwcLenBytes)

/-- A DOWNLOAD that waits is cut off by an FLR of the manager, an L3, an L4 or a power loss: past its first step, the target bank
stays EMPTY (R284). -/
def State.cutDownload (s : State) : State :=
  let b := s.downloadBank
  let (addr, len) := s.downloadSource
  if s.request 14 = 1 ∧ ¬ s.bankHeld b ∧ s.downloadFault (Memory.read s.host.mem addr 0x260) len = none then s.eraseSector b else s

end Sys2Proof.Machine
end

