-- ==== Sys2Proof/Machine/OpsRecord.lean ====
section
/-! DEFINITION. Fences, and the recovery record with its capture (19_recovery.md R498 to R502). -/

namespace Sys2Proof.Machine

/-! ### Scopes -/

/-- The partitions that a scope touches, as a mask. -/
def State.scopeParts (s : State) : Scope → Nat
  | .parts m => m
  | .device => 15
  | .bench b => ((s.benchPart b).map (fun p => 2 ^ p)).getD 0
  | .cpx c => ((s.clusterPart c).map (fun p => 2 ^ p)).getD 0
  | .valley v => (((valleyCluster v).bind s.clusterPart).map (fun p => 2 ^ p)).getD 0
  | .core k => if k < 5 then 0 else ((s.clusterPart (k - 5)).map (fun p => 2 ^ p)).getD 0
  | _ => 0

/-- The valley of a unit. -/
def scopeValley : Scope → Option Nat
  | .bench b => some (valleyOf (clusterOf b))
  | .cpx c => some (valleyOf c)
  | .link _ => some 34
  | .valley v => some v
  | .core k => some (if k < 5 then 37 else valleyOf (k - 5))
  | _ => none

/-- Everything that scope a covers lies in scope b. -/
def State.scopeIn (s : State) (a b : Scope) : Bool :=
  a == b || b == .device || a == .nothing ||
    (match a with
     | .peer _ => true
     | _ => false) ||
    (match b with
     | .valley v => scopeValley a == some v
     | .core k => decide (5 ≤ k) && a == .cpx (k - 5)
     | .parts m =>
       (match a with
        | .bench _ => s.scopeParts a != 0 && within (s.scopeParts a) m
        | .cpx _ => s.scopeParts a != 0 && within (s.scopeParts a) m
        | .parts x => within x m
        | .valley _ => s.scopeParts a != 0 && within (s.scopeParts a) m
        | .core _ => s.scopeParts a != 0 && within (s.scopeParts a) m
        | _ => false)
     | _ => false)

/-! ### Fences (R498) -/

/-- The fence of partition p set or lifted; line 6 of its control cores asserts where it is set (09_firmware.md R276). -/
def State.fencePart (s : State) (v : Bool) (p : Nat) : State :=
  let s := s.setPart p { s.part p with fence := Rwt.of v }
  if v then (maskList 16 (s.part p).clusters).foldl (fun s c => s.raiseFw (5 + c) 6) s else s

/-- The fence of a scope set or lifted. -/
def State.setFence (s : State) (v : Bool) (sc : Scope) : State :=
  match sc with
  | .parts m => (maskList 4 m).foldl (fun s p => s.fencePart v p) s
  | .device => (List.range 20).foldl (fun s k => s.setFlag (F.vlyStateFenced k) v) (allParts.foldl (fun s p => s.fencePart v p) s)
  | .valley k => s.setFlag (F.vlyStateFenced k) v
  | .engine k => { s with rcv := { s.rcv with engineFence := Tab.set (Rwt.of false) s.rcv.engineFence k (Rwt.of v) } }
  | .nothing => s
  | .peer _ => s
  | x =>
    let rest := s.rcv.unitFence.filter (fun f => f.1 != x)
    { s with rcv := { s.rcv with unitFence := if v then (x, Rwt.of true) :: rest else rest } }

/-- Operations in flight that have not finished and meet a predicate over their ring's kind and themselves. -/
def State.flights (s : State) (p : Nat → Flight → Bool) : List OpRef :=
  s.host.fns.flatMap (fun (i, f) => f.rings.flatMap (fun (r, q) =>
    (q.flight.filter (fun x => x.done.isNone && p (s.ringKind i r) x)).map (fun x => (⟨i, r, x.num⟩ : OpRef))))

/-- An address run of n bytes lies in a memory behind valley v. -/
def runIn (v a n : Nat) : Bool :=
  let at_ := fun x => ((devAddr x).map (fun p => unitValley p.1 == v)).getD false
  at_ a || at_ (a + n - 1)

/-- The device memory that operations in flight use: shelf commands, work requests and receive buffers. -/
def State.memOps (s : State) : List (OpRef × Nat × Nat) :=
  (s.shelf.cmds.filter (fun c => c.devmem && (c.opcode == 1 || c.opcode == 2))).filterMap (fun c => c.op.map (fun o => (o, c.addr, 4096 * c.count)))
    ++ s.rma.qps.flatMap (fun q => (q.2.wqes.filter Wqe.devmem).filterMap (fun w => w.op.map (fun o => (o, w.laddr, w.len))))
    ++ s.host.fns.flatMap (fun f => f.2.rings.flatMap (fun q => (q.2.bufs.filter Buf.devmem).map (fun b => (⟨f.1, q.1, b.num⟩, b.addr, b.len))))

/-- The outstanding operations that need something inside a scope: of a valley its memory, and its cluster for a START. A ring
engine reads descriptors and writes completions; started operations run on (DEDUCED, log 20). -/
def State.scopeFlights (s : State) (level : Nat) (sc : Scope) : List OpRef :=
  match sc with
  | .parts m => s.flights (fun _ f => f.needs &&& m != 0)
  | .device => s.flights (fun _ f => level == 4 || f.needs &&& 15 != 0)
  | .valley v =>
    s.flights (fun k f => k == 1 && f.op == 0x02 && f.needs &&& s.scopeParts sc != 0)
      ++ ((s.memOps.filter (fun x => runIn v x.2.1 x.2.2)).map Prod.fst).filter s.outstanding
  | _ => []

/-- The commands of peers on attached queue pairs that need something inside a scope: their device addresses (14_shelf.md R402). -/
def State.scopePeers (s : State) (sc : Scope) : List ShelfCmd :=
  let mine := s.shelf.cmds.filter (fun c => c.op == none && c.devmem && (c.opcode == 1 || c.opcode == 2))
  match sc with
  | .parts m => mine.filter (fun c => s.runParts c.addr (4096 * c.count) &&& m != 0)
  | .device => mine.filter (fun c => s.runParts c.addr (4096 * c.count) != 0)
  | .valley v => mine.filter (fun c => runIn v c.addr (4096 * c.count))
  | _ => []

/-- Nothing outstanding needs anything inside a scope. -/
def State.scopeQuiet (s : State) (level : Nat) (sc : Scope) : Bool := s.scopeFlights level sc == [] && s.scopePeers sc == []

/-- A peer's command completes with FENCED; one that has started runs on without a completion of its own. -/
def State.fencePeer (s : State) (c : ShelfCmd) : State :=
  let cmds := if c.started then s.shelf.cmds.map (fun e => if e = c then { e with op := some OpRef.dead } else e) else s.shelf.cmds.filter (· != c)
  (({ s with shelf := { s.shelf with cmds := cmds } }).peerComplete c.q c.slot c.tag Status.fenced 0).shelfStart

/-- An operation leaves every queue of the device and completes with FENCED. -/
def State.fenceOp (s : State) (o : OpRef) : State :=
  let r := s.run
  let s : State := { s with run := { r with
    commits := r.commits.filter (fun c => c.op != o), stops := r.stops.filter (· != o)
    start := r.start.filter (· != o), take := r.take.filter (fun t => t.op != o) } }
  let s : State := match r.swap with
    | some w => if w.op = o then { allParts.foldl State.unstage s with run := { s.run with swap := none } } else s
    | none => s
  let dead : Option OpRef → Option OpRef := fun x => if x = some o then some OpRef.dead else x
  let killCmd : ShelfCmd → ShelfCmd := fun c => { c with op := dead c.op }
  let killWqe : Wqe → Wqe := fun w => { w with op := dead w.op }
  let killQp : Nat × Qp → Nat × Qp := fun (n, x) => (n, { x with wqes := x.wqes.map killWqe, resolving := dead x.resolving })
  let killFrame : TxFrame → TxFrame := fun f => { f with op := dead f.op }
  let s : State := { s with
    plain := { s.plain with op := s.plain.op.filter (· != o) }
    restores := s.restores.filter (fun x => x.op != o)
    shelf := { s.shelf with cmds := (s.shelf.cmds.filter (fun (c : ShelfCmd) => c.started || c.op != some o)).map killCmd }
    rma := { s.rma with qps := s.rma.qps.map killQp } }
  let s := [0, 1].foldl (fun s p => s.setPort p { s.port p with
    waiting := (s.port p).waiting.map killFrame, line := (s.port p).line.map killFrame }) s
  let s := s.setRing o.fn o.ring { s.ring o.fn o.ring with bufs := (s.ring o.fn o.ring).bufs.filter (fun b => b.num != o.num) }
  (s.complete o Status.fenced 0).shelfStart

/-! ### The capture (R501); its items in the rule's order, at the widths of their fields (DESIGN CHOICE, log 18) -/

/-- Clusters of a scope. -/
def State.scopeClusters (s : State) (sc : Scope) : List Nat :=
  match sc with
  | .bench b => [clusterOf b]
  | .cpx c => [c]
  | .valley v => (valleyCluster v).toList
  | .core k => if 5 ≤ k then [k - 5] else []
  | .nothing => []
  | .peer _ => []
  | .link _ => []
  | .engine _ => []
  | x => (List.range 16).filter (fun k => ((s.clusterPart k).map (bitOf (s.scopeParts x))).getD false)

/-- Benches of a scope. -/
def State.scopeBenches (s : State) (sc : Scope) : List Nat :=
  match sc with
  | .bench b => [b]
  | .cpx _ => []
  | x => (s.scopeClusters x).flatMap (fun k => (List.range 10).map (fun i => 10 * k + i))

/-- What a transfer in flight has come to: lines have moved, and a violation was met. -/
def Transfer.stage (t : Transfer) : Nat := (if t.moved = 0 then 0 else 1) + (if t.violated then 2 else 0)

/-- Positions of one bench. -/
def State.captureBench (s : State) (b : Nat) : List Byte :=
  let x := s.bench b
  leBytes 4 (s.regs.word (F.bncStatusPresent b).addr) ++ leBytes 2 x.slot ++ leBytes 4 x.tokens.toNat
    ++ x.flight.flatMap (fun t => leBytes 1 t.op ++ leBytes 4 t.run ++ leBytes 1 t.stage)

/-- The rings with an operation in the domain of a level: one that needs its partitions or its memory, for a ring engine those of
its kind, for the whole device every one. -/
def State.scopeRings (s : State) (level : Nat) (sc : Scope) : List (Nat × Nat) :=
  let ops := match sc with
    | .engine k => s.flights (fun kind _ => kind == k)
    | _ => s.scopeFlights level sc ++ s.flights (fun _ f => f.needs &&& s.scopeParts sc != 0)
  (ops.map (fun o => (o.fn, o.ring))).eraseDups

/-- The capture of a scope: positions and counters only; of each link the replay buffer indices with their count. -/
def State.capture (s : State) (level : Nat) (sc : Scope) : List Byte :=
  let cl := s.scopeClusters sc
  let tick := if s.run.phase.inKerf then s.plain.tick - s.run.since else 0
  ((s.scopeRings level sc).flatMap (fun (i, r) => leBytes 1 i ++ leBytes 1 r ++ leBytes 4 (s.fld (F.rngHeadCount i r))
      ++ leBytes 4 (s.fld (F.rngTailCount i r)) ++ leBytes 1 (s.fld (F.rngStatusState i r)))
    ++ cl.flatMap (fun k => (List.range 16).flatMap (fun n => leBytes 4 (Tab.get 0 (s.cluster k).sync n).toNat))
    ++ (s.scopeBenches sc).flatMap s.captureBench
    ++ cl.flatMap (fun k => (s.cluster k).queue.flatMap (fun o => leBytes 1 o.tag))
    ++ leBytes 4 s.run.pass ++ leBytes 4 s.run.cut ++ leBytes 4 tick
    ++ (List.range 6).flatMap (fun j => leBytes 1 (s.link j).held.length ++ (s.link j).held.flatMap (leBytes 2))).take 0x40000

/-! ### The record (R500) -/

/-- The partition that a record names: that of the scope, or the lowest of the set that halted; none for the whole device. -/
def State.recordPart (s : State) (x : Seen) : Option Nat :=
  if x.trouble.scope = .device then none
  else match maskList 4 (s.scopeParts x.trouble.scope) with
    | p :: _ => some p
    | [] => if x.haltKerf.isSome then s.setParts.head? else none

/-- The start of a level's bound: that of the halt kerf where a halt applies, otherwise the detection (R493). -/
def Seen.boundAt (x : Seen) : Nat := if x.haltKerf.isSome then x.haltAt else x.at_

/-- A level over a scope as it begins, with what its record names and no capture yet. -/
def State.newLevel (s : State) (level : Nat) (seen : Seen) (sc : Scope) (escalated : Bool) (prev : Nat) : Level :=
  let seen := { seen with trouble := { seen.trouble with scope := sc } }
  let t := seen.trouble
  let p := s.recordPart seen
  { level := level, seen := seen, start := seen.boundAt, escalated := escalated, prev := prev, part := p
    inst := if t.cause = 0x0A ∨ t.cause = 0x0C then t.detail else (p.bind (fun p => (s.part p).owner)).getD 0xFFFF
    hash := ((p.bind (fun p => (s.part p).list)).map Cutlist.hash).getD [], cap := [], overdue := false }

/-- The 128 bytes of a record. -/
def State.recordBytes (s : State) (l : Level) (seq : Nat) : List Byte :=
  let t := l.seen.trouble
  let flags := (if l.escalated then 1 else 0) + (if l.seen.haltKerf.isSome then 2 else 0)
    + (if l.level = 3 ∧ allParts.any (fun p => (s.part p).retained != []) then 4 else 0) + (if l.cap = [] then 0 else 8)
  let cluster := match t.scope with
    | .bench b => clusterOf b
    | .cpx c => c
    | .valley v => (valleyCluster v).getD 0xFF
    | .core k => if 5 ≤ k then k - 5 else 0xFF
    | _ => 0xFF
  let bench := match t.scope with
    | .bench b => b
    | _ => 0xFFFF
  let link := match t.scope with
    | .link j => j
    | _ => if t.cause = 0x02 then t.detail else 0xFF
  leBytes 4 seq ++ leBytes 1 l.level ++ leBytes 1 t.cause ++ leBytes 1 t.detail ++ leBytes 1 flags ++ leBytes 8 l.seen.time
    ++ leBytes 2 l.inst ++ leBytes 1 (l.part.getD 0xFF) ++ leBytes 1 cluster ++ leBytes 2 bench ++ leBytes 1 0xFF ++ leBytes 1 link
    ++ leBytes 4 l.seen.pass ++ leBytes 4 l.seen.cut ++ leBytes 4 l.seen.epoch ++ leBytes 4 t.aux
    ++ leBytes 8 (l.seen.haltKerf.getD 0) ++ (l.hash ++ List.replicate 48 0).take 48 ++ leBytes 4 l.prev
    ++ leBytes 4 ((s.now - l.start) / 1000) ++ leBytes 8 l.cap.length ++ leBytes 16 0

/-- A complete record is reported: RECOVERY events to the manager and to the owner of its partition (R491, R502). -/
def State.recoveryEvent (s : State) (bs : List Byte) : State :=
  let p := fieldLE bs 0x12 1
  s.eventBoth (if p < 4 then (s.part p).owner else none) 0x06 (fieldLE bs 4 1) (fieldLE bs 5 1 + 256 * fieldLE bs 6 1)

/-- A record names its cause, and for DIVERGE its member (R193, R491). -/
def recordNamed (bs : List Byte) : Bool := fieldLE bs 5 1 != 0 && !(fieldLE bs 5 1 == 0x04 && fieldLE bs 0x24 4 == 2 ^ 32 - 1)

/-- A level's record is written (R500, R502): the last 16 are kept; RECOVERY events go out when it is complete; an L3, L4 or L5
also writes the lifetime log. -/
def State.writeRecord (s : State) (l : Level) : State :=
  let seq := s.rcv.seq + 1
  let t := l.seen.trouble
  let bytes := s.recordBytes l seq
  let s := { s with rcv := { s.rcv with seq := seq, records := ((bytes, l.cap) :: s.rcv.records).take 16 } }
  let s := s.setFld F.rcvStatusSeq (seq % 65536)
  let s := if recordNamed bytes then s.recoveryEvent bytes else s
  if 3 ≤ l.level then (s.logEvent 0x0106 l.level (leBytes 4 (t.cause + 256 * t.detail))).logCount (l.level - 1) 1 else s

end Sys2Proof.Machine
end

