-- ==== Sys2Proof/Machine/Shelf.lean ====
section
/-! DEFINITION. The shelf's commands (14_shelf.md): namespace operations, sanitize, the store queue pairs' READ, WRITE,
FLUSH, TRIM and STATUS, channels and power states. A command is checked and accepted by its own row and takes effect
when SHELF_COMMAND_DONE completes it. -/

namespace Sys2Proof.Machine

/-! ### SHF_CTRL operations (R383) -/

/-- An SHF_CTRL operation ends: its result, and a MEDIA event with the namespace and the shelf state. -/
def State.endNsOp (s : State) (ns status : Nat) : State :=
  let s := s.setFld F.shfStatusResult status
  (0 :: s.nsHolders).foldl (fun s i => s.event i 0x0B ns (s.fld F.shfStatusState)) s

/-- SHF_CTRL asked for operation op; its body runs on the namespace that it was asked with. -/
def State.shfOp (s : State) (op : Nat) (body : State → Nat → State) : State :=
  if s.request 6 = op then body (s.setRequest 6 0) s.shelf.askNs else s

/-- NS_CREATE (R383). -/
def execNsCreate (s : State) : Host.Outcome State Fault Refusal :=
  .next (s.shfOp 1 (fun s ns =>
    let size := s.shelf.askSize
    let total := (s.shelf.size.map Prod.snd).foldl (· + ·) 0
    if ¬ s.bound then s.endNsOp ns Status.notBound
    else if s.fld F.shfStatusState = 2 then s.endNsOp ns Status.mediaWorn
    else if s.nsSize ns ≠ 0 ∨ size = 0 ∨ 49152 < total + size ∨ s.flag F.shfSanitizeActive then s.endNsOp ns Status.badDescriptor
    else
      let x := s.shelf.unmapNs ns
      let x := { x with size := Tab.set 0 x.size ns size, inc := Tab.modify 0 x.inc ns (fun v => (v + 1) % 256) }
      ({ s with shelf := x }).endNsOp ns Status.ok))

/-- NS_DELETE (R383). -/
def execNsDelete (s : State) : Host.Outcome State Fault Refusal :=
  .next (s.shfOp 2 (fun s ns =>
    if s.nsSize ns = 0 ∨ (s.holderOf 0 ns).isSome then s.endNsOp ns Status.badDescriptor
    else
      let x := s.shelf.unmapNs ns
      ({ s with shelf := { x with size := Tab.set 0 x.size ns 0 } }).endNsOp ns Status.ok))

/-- NS_FORMAT (R384): the shelf leaves a lower power state, and commands to the namespace wait until NS_FORMAT_DONE. -/
def execNsFormat (s : State) : Host.Outcome State Fault Refusal :=
  .next (s.shfOp 3 (fun s ns =>
    if s.nsSize ns = 0 then s.endNsOp ns Status.badDescriptor
    else
      let s := s.wakeShelf
      { s with shelf := { s.shelf with formatting := s.shelf.formatting ++ [ns] } }))

/-- NS_FORMAT_DONE (R384): every LBA is unmapped, the wake cause shelf_done is set, waiting commands start. -/
def execNsFormatDone (ns : BitVec 8) (s : State) : Host.Outcome State Fault Refusal :=
  .next (
    if s.shelf.formatting.contains ns.toNat then
      let x := s.shelf.unmapNs ns.toNat
      let s := { s with shelf := { x with formatting := x.formatting.erase ns.toNat } }
      ((s.endNsOp ns.toNat Status.ok).wake 3).shelfStart
    else s)

/-- GiB that a sanitize erases: 2,048 on each channel in service (32 TiB raw on 16 channels; DEDUCED, log 28). -/
def State.sanitizeGib (s : State) : Nat := 2048 * s.chans.length

/-- SHF_SANITIZE shows how far the sanitize has come (R407, R408). -/
def State.showSanitize (s : State) : State :=
  (s.setFld F.shfSanitizePercent (min 100 (s.shelf.erased * 100 / max 1 s.sanitizeGib))).setFld F.shfSanitizeJournal (s.shelf.erased % 65536)

/-- SANITIZE (R407): refused while a namespace exists; the shelf leaves a lower power state and is SANITIZING until SANITIZE_DONE.
A FAILED shelf stays FAILED (R405; DEDUCED, log 28). -/
def execSanitize (s : State) : Host.Outcome State Fault Refusal :=
  .next (s.shfOp 4 (fun s ns =>
    if s.shelf.size ≠ [] ∨ s.flag F.shfSanitizeActive then s.endNsOp ns Status.badDescriptor
    else
      let st := s.fld F.shfStatusState
      let s := s.wakeShelf
      let s : State := { s with shelf := { s.shelf with erased := 0, before := st } }
      let s := (s.setFlag F.shfSanitizeActive true).showSanitize.settleLow
      if st = 4 then s else s.setShelfState 3))

/-- SANITIZE_DONE (R405, R407): every block is erased, those that fail to erase are retired, and the spare blocks left decide the
state. READ_ONLY ends only with spares above 10% and at most one channel out of service. -/
def execSanitizeDone (spare : BitVec 7) (s : State) : Host.Outcome State Fault Refusal :=
  .next (
    if s.flag F.shfSanitizeActive then
      let s : State := { s with shelf := { s.shelf with
        blocks := [], page := [], stripe := 0, slot := 0, unread := [], left := [], erased := s.sanitizeGib } }
      let s := (s.setFlag F.shfSanitizeActive false).showSanitize
      let s := s.setFld F.shfStatusSpare (min 100 spare.toNat)
      let st := if s.fld F.shfStatusState = 4 then 4
        else if s.shelf.before = 2 ∧ s.fld F.shfStatusSpare ≤ 10 then max 2 s.shelfHealth else s.shelfHealth
      ((s.setShelfState st).endNsOp s.shelf.askNs Status.ok).wake 3
    else s)

/-! ### Accepting a command (R389 to R392) -/

/-- A shelf descriptor's command, with the namespace that function i's grants map. -/
def State.shelfCmd (s : State) (i : Nat) (op : Option OpRef) (q slot : Nat) (d : Desc) : ShelfCmd :=
  let w := d.le 8 8
  { op := op, q := q, slot := slot, tag := d.le 2 2, opcode := d.opcode, ns := s.unitOf i 0 (d.w0 48 8), lba := bitsOf w 0 40
    count := bitsOf w 40 10 + 1, devmem := bitOf (d.w0 32 32) 24, addr := d.le 16 8, nonce := d.le 24 8
    label := if d.labelled then some d.label else none, started := false, old := false }

/-- The format of R340, R389 and R390; a peer's descriptor sets devmem and carries no label (R454). -/
def goodShelf (remote : Bool) (d : Desc) : Bool :=
  let devmem := bitOf (d.w0 32 32) 24
  match d.opcode with
  | 1 | 2 | 4 => d.good 0x01FFFFFF (2 ^ 50 - 1) allBits (if d.labelled then allBits else 0) .optional && d.le 16 8 % 64 == 0
      && !(d.labelled && devmem) && (!remote || devmem)
  | 3 | 5 => d.good 0x01FFFFFF 0 0 0 .optional && !(d.labelled && devmem) && (!remote || devmem)
  | _ => false

/-- What a command that is not served completes with: FENCED, MEDIA_ERROR or MEDIA_WORN (R403). -/
def State.shelfServes (s : State) (opcode : Nat) : Option Nat :=
  let st := s.fld F.shfStatusState
  if opcode = 5 then none
  else if st = 3 then some Status.fenced
  else if st = 4 then some Status.mediaError
  else if st = 2 ∧ (opcode = 2 ∨ opcode = 4) then some Status.mediaWorn
  else none

/-- A READ that changed nothing still has its result (R390). -/
def shelfOk (opcode : Nat) : Nat := if opcode = 1 then 0xFFFFFFFF else 0

/-- A command of the expected sequence: refused, completed at once, or kept until it completes (R392). -/
def State.shelfCheck (s : State) (i : Nat) (remote : Bool) (c : ShelfCmd) (d : Desc) : State :=
  let fin := fun (s : State) st res => s.endShelf c.op c.q c.slot c.tag st res
  if s.rcv.fencedForGood ∨ s.rcv.engineFenced 2 then fin s Status.fenced 0
  else match s.boundStatus with
  | some st => fin s st 0
  | none =>
    if ¬ goodShelf remote d then fin s Status.badDescriptor 0
    else
      let check := match c.label with
        | none => LabelCheck.good
        | some l => s.checkLabel i [0x06] l
      match check with
      | .bad => fin s Status.badDescriptor 0
      | .violation => fin (s.violate i) Status.ok (shelfOk c.opcode)
      | .good =>
        match s.shelfServes c.opcode with
        | some st => fin s st 0
        | none =>
          match c.ns with
          | none => if c.opcode = 5 then let s := s.violate i; { s with shelf := { s.shelf with cmds := s.shelf.cmds ++ [c] } }
            else fin (s.violate i) Status.ok (shelfOk c.opcode)
          | some ns =>
            if c.ranged ∧ s.nsSize ns * 262144 < c.lba + c.count then fin s Status.badDescriptor 0
            else if c.devmem ∧ (c.opcode = 1 ∨ c.opcode = 2) ∧ s.addrFenced c.addr (4096 * c.count) = true then fin s Status.fenced 0
            else
              let s := match c.op with
                | some o => if c.devmem then s.setNeeds o (s.runParts c.addr (4096 * c.count)) else s
                | none => s
              { s with shelf := { s.shelf with cmds := s.shelf.cmds ++ [c] } }

/-- The sequence rule of R391: some b says whether the command runs, none that it is a repeat. -/
def State.shelfSeq (s : State) (q seq : Nat) : Option Bool × State :=
  let e := Tab.get 0 s.shelf.expected q
  if seq = e then (some true, { s with shelf := { s.shelf with expected := Tab.set 0 s.shelf.expected q ((e + 1) % 65536) } })
  else if (e + 2 * 65536 - 1 - seq) % 65536 < 32768 then (none, s.count F.shfDupCount 1)
  else (some false, s)

/-- A repeat leaves its ring without a completion. -/
def State.dropFlight (s : State) (o : OpRef) : State :=
  let q := s.ring o.fn o.ring
  (s.setRing o.fn o.ring { q with flight := q.flight.filter (fun f => f.num != o.num) }).flush o.fn o.ring

/-- The queue pair that a store queue pair is attached to. -/
def State.attachOf (s : State) (q : Nat) : Option (Nat × Attach) :=
  (List.range 2048).findSome? (fun n =>
    match (Tab.get Qp.init s.rma.qps n).attach with
    | some a => if a.sqp = q then some (n, a) else none
    | none => none)

/-- The next descriptor of a peer's ring at a slot (R454). -/
def Attach.next? (a : Attach) (slot : Nat) : Option Desc :=
  let n := a.head % 2 ^ a.log2
  if a.head ≠ a.tail ∧ n = slot then some ⟨a.head, Memory.read a.ring (64 * n) 64, 0⟩ else none

/-! ### Whose command is fetched (R388) -/

/-- A queue pair q of a class whose turn goes on: it had the last turn, holds descriptors and has had fewer than 8. -/
def Turns.goesOn (t : Turns) (c : Nat) (qs : List Nat) : Option Nat :=
  match Tab.get 0 t.last c with
  | 0 => none
  | q + 1 => if qs.contains q ∧ Tab.get 0 t.served c < 8 then some q else none

/-- The next queue pair of a class in round robin. -/
def Turns.nextOf (t : Turns) (c : Nat) (qs : List Nat) : Option Nat :=
  (qs.find? (fun q => decide (Tab.get 0 t.last c ≤ q))).or qs.head?

/-- A descriptor of queue pair q is fetched, in a new turn or in the one that goes on. -/
def Turns.fetch (t : Turns) (c q : Nat) (new : Bool) : Turns :=
  { t with
    last := Tab.set 0 t.last c (q + 1)
    served := if new then Tab.set 0 t.served c 1 else Tab.modify 0 t.served c (· + 1) }

/-- The queue pair to fetch from among those that hold descriptors: URGENT ones first, then the turn that runs, then the classes
by weighted round robin. A weight counts turns of a round (DESIGN CHOICE, log 28). -/
def Turns.pick (t : Turns) (weight classOf : Nat → Nat) (ready : List Nat) : Option (Nat × Turns) :=
  let of := fun c => ready.filter (fun q => classOf q == c)
  match t.goesOn 0 (of 0), t.nextOf 0 (of 0) with
  | some q, _ => some (q, t.fetch 0 q false)
  | none, some q => some (q, t.fetch 0 q true)
  | none, none =>
    match (if t.cls = 0 then none else t.goesOn t.cls (of t.cls)) with
    | some q => some (q, t.fetch t.cls q false)
    | none =>
      let open' := fun (t : Turns) c => of c != [] && decide (0 < Tab.get 0 t.credit c)
      let t := if [1, 2, 3].any (open' t) then t else { t with credit := [1, 2, 3].map (fun c => (c, max 1 (weight c))) }
      match [1, 2, 3].find? (open' t) with
      | none => none
      | some c => (t.nextOf c (of c)).map (fun q =>
          (q, { t.fetch c q true with cls := c, credit := Tab.modify 0 t.credit c (· - 1) }))

/-- Nothing of an attached queue pair is outstanding where its next descriptor has the fence bit (R340, R387). -/
def State.peerMay (s : State) (q : Nat) (d : Desc) : Bool := !bitOf (d.le 0 2) 9 || !s.shelf.cmds.any (fun c => c.q == q)

/-- A store queue pair holds a descriptor that the shelf can fetch. -/
def State.sqpReady (s : State) (q : Nat) : Bool :=
  match s.sqpRing q with
  | none => false
  | some (i, r) =>
    match s.attachOf q with
    | some (_, a) => ((a.next? (a.head % 2 ^ a.log2)).map (s.peerMay q)).getD false
    | none => s.ringKind i r == 2 && s.canFetch i r

/-- The weight of a class: SHF_ARB. -/
def State.classWeight (s : State) (c : Nat) : Nat :=
  match c with
  | 1 => s.fld F.shfArbHigh
  | 2 => s.fld F.shfArbMedium
  | _ => s.fld F.shfArbLow

/-- Store queue pairs that a function holds. -/
def State.sqps (s : State) : List Nat :=
  (s.host.fns.flatMap (fun p => (p.2.grants.filter (fun g => g.kind == 1)).map (fun g => g.unit))).foldl (fun l q => insertNat q l) []

/-- The queue pair that the shelf fetches from, and the turns after it; none while the switch of service core 0 holds fetching
(R401). -/
def State.shelfPick (s : State) : Option (Nat × Turns) :=
  if bitOf s.fw.hold 3 then none
  else s.shelf.turns.pick s.classWeight (fun q => s.fld (F.shfQpCfgClass q)) (s.sqps.filter s.sqpReady)

/-- One descriptor of an SHF ring is fetched where the turn is that of its store queue pair. -/
def State.fetchTurn (s : State) (i r : Nat) : State :=
  match s.sqpOf i r with
  | none => s.fetchOne i r
  | some q =>
    match s.shelfPick with
    | none => s
    | some (p, turns) => if p = q then ({ s with shelf := { s.shelf with turns := turns } }).fetchOne i r else s

/-- A fetched command of store queue pair q that can be taken up, by its place in the order of fetching; a peer's descriptor is
fetched when it is taken up, so its place is the last. -/
def State.sqpStamp (s : State) (q : Nat) : Option Nat :=
  match s.sqpRing q, s.attachOf q with
  | none, _ => none
  | some _, some _ => if s.shelfPick.map Prod.fst = some q then some s.host.fetchSeq else none
  | some (i, r), none =>
    match (s.ring i r).fetched with
    | [] => none
    | d :: _ => if 1 ≤ d.opcode ∧ d.opcode ≤ 5 then (s.next? i r 2 d.opcode).map Desc.stamp else none

/-- The queue pair whose command is taken up next: of class URGENT first, then in fetch order (R388). -/
def State.shelfNext (s : State) : Option Nat :=
  let key : Nat × Nat → Nat × Nat := fun x => (if s.fld (F.shfQpCfgClass x.1) = 0 then 0 else 1, x.2)
  let first : Option (Nat × Nat) → Nat × Nat → Option (Nat × Nat) := fun o x =>
    match o with
    | none => some x
    | some y => if (key x).1 < (key y).1 ∨ ((key x).1 = (key y).1 ∧ (key x).2 < (key y).2) then some x else some y
  ((s.sqps.filterMap (fun q => (s.sqpStamp q).map (fun n => (q, n)))).foldl first none).map Prod.fst

/-- Descriptor a.head of the peer of queue pair n is fetched, and the turns pass on. -/
def State.takePeer (s : State) (n : Nat) (a : Attach) : State :=
  let x := Tab.get Qp.init s.rma.qps n
  let turns := (s.shelfPick.map Prod.snd).getD s.shelf.turns
  { s with
    rma := { s.rma with qps := Tab.set Qp.init s.rma.qps n { x with attach := some { a with head := (a.head + 1) % 2 ^ 32 } } }
    shelf := { s.shelf with turns := turns } }

/-- Peers' descriptors with an opcode that no shelf command has, as their turns come: the sequence rule, then BAD_DESCRIPTOR (R340,
R387, R388, R391). -/
def State.rejectPeersFor (s : State) : Nat → State
  | 0 => s
  | fuel + 1 =>
    match s.shelfPick with
    | none => s
    | some (q, _) =>
      match s.attachOf q with
      | none => s
      | some (n, a) =>
        let slot := a.head % 2 ^ a.log2
        match a.next? slot with
        | none => s
        | some d =>
          if 1 ≤ d.opcode ∧ d.opcode ≤ 5 then s
          else
            let s := match (s.takePeer n a).shelfSeq q (d.w0 32 16) with
              | (none, s) => s
              | (some _, s) => s.peerComplete q slot (d.le 2 2) Status.badDescriptor 0
            s.rejectPeersFor fuel

/-- Every such descriptor; a queue pair holds at most 4,096. -/
def State.rejectPeers (s : State) : State := s.rejectPeersFor 4096

/-- The command at a slot of store queue pair q is taken up by the shelf where it is the next one and has this opcode (R388,
R391). -/
def State.shelfTake (s : State) (q slot opcode : Nat) : State :=
  if s.shelfNext ≠ some q then s else
  match s.sqpRing q with
  | none => s
  | some (i, r) =>
    match s.attachOf q with
    | some (n, a) =>
      (match a.next? slot with
       | none => s
       | some d =>
         if d.opcode ≠ opcode then s
         else
           match ((s.takePeer n a).wakeShelf).shelfSeq q (d.w0 32 16) with
           | (none, s) => s.rejectPeers
           | (some false, s) => (s.peerComplete q slot (d.le 2 2) Status.badDescriptor 0).rejectPeers
           | (some true, s) => ((s.shelfCheck i true (s.shelfCmd i none q slot d) d).shelfStart).rejectPeers)
    | none =>
      (match s.next? i r 2 opcode with
       | none => s
       | some d =>
         if d.num % s.ringSize i r ≠ slot then s
         else
           let o : OpRef := ⟨i, r, d.num⟩
           let s := (s.launch i r d).wakeShelf
           match s.shelfSeq q (d.w0 32 16) with
           | (none, s) => s.dropFlight o
           | (some false, s) => s.complete o Status.badDescriptor 0
           | (some true, s) => (s.shelfCheck i false (s.shelfCmd i (some o) q slot d) d).shelfStart)

/-- SHELF_READ (R390). -/
def execShelfRead (q : SqpId) (slot : BitVec 12) (s : State) : Host.Outcome State Fault Refusal := .next (s.shelfTake q slot.toNat 1).rejectPeers.flushPeers
/-- SHELF_WRITE (R390). -/
def execShelfWrite (q : SqpId) (slot : BitVec 12) (s : State) : Host.Outcome State Fault Refusal := .next (s.shelfTake q slot.toNat 2).rejectPeers.flushPeers
/-- SHELF_FLUSH (R394). -/
def execShelfFlush (q : SqpId) (slot : BitVec 12) (s : State) : Host.Outcome State Fault Refusal := .next (s.shelfTake q slot.toNat 3).rejectPeers.flushPeers
/-- SHELF_TRIM (R390). -/
def execShelfTrim (q : SqpId) (slot : BitVec 12) (s : State) : Host.Outcome State Fault Refusal := .next (s.shelfTake q slot.toNat 4).rejectPeers.flushPeers
/-- SHELF_STATUS (R390). -/
def execShelfStatus (q : SqpId) (slot : BitVec 12) (s : State) : Host.Outcome State Fault Refusal := .next (s.shelfTake q slot.toNat 5).rejectPeers.flushPeers

/-! ### Completing a command (R393 to R399) -/

/-- IV of sealed block j (R397). -/
def shelfIv (nonce j : Nat) : List Byte := leBytes 8 nonce ++ leBytes 4 j

/-- One block of a READ goes to its place: data, or zeros and poison where it is lost (R397, R399). -/
def State.readOut (s : State) (i : Nat) (c : ShelfCmd) (key : List Byte) (j : Nat) (lost : Bool) : Met × State :=
  let ns := c.ns.getD 0
  let data := if lost then List.replicate 4096 0 else s.block ns (c.lba + j)
  if c.devmem then
    let a := c.addr + 4096 * j
    if lost then
      (List.range 64).foldl (fun acc k =>
        match devAddr (a + 64 * k) with
        | none => ({ acc.1 with violated := true }, acc.2)
        | some (u, off) =>
          if acc.2.mayReach (.inst i) true u (off / 65536) then (acc.1, acc.2.writeLine (.cipher true) u (off / 64) (List.replicate 64 0) true)
          else ({ acc.1 with violated := true }, acc.2)) (Met.none, s)
    else s.devWrite (.cipher true) (.inst i) a data
  else
    match c.label with
    | none => (Met.none, s.hostWrite (.cipher true) (c.addr + 4096 * j) data)
    | some _ =>
      let (ct, tag) := Crypto.gcmSeal key (shelfIv c.nonce j) (leBytes 8 (c.lba + j)) data
      (Met.none, s.hostWrite (.cipher true) (c.addr + 4112 * j) (ct ++ tag))

/-- The blocks of a READ. -/
def State.readBlocks (s : State) (i : Nat) (c : ShelfCmd) (key : List Byte) (lost : List Nat) : Nat → Bool × State
  | 0 => (false, s)
  | n + 1 =>
    let (v, s) := s.readBlocks i c key lost n
    let (m, s) := s.readOut i c key n (lost.contains n)
    (v || m.violated, s)

/-- What a WRITE's block j takes from its source: bytes, whether a rule was violated, whether it failed. -/
def State.writeIn (s : State) (i : Nat) (c : ShelfCmd) (key : List Byte) (j : Nat) : List Byte × Met × State :=
  if c.devmem then
    let (bs, m, _) := s.asBefore.devRead (.cipher true) (.inst i) (c.addr + 4096 * j) 4096
    let (_, _, s) := s.devRead (.cipher true) (.inst i) (c.addr + 4096 * j) 4096
    (bs, m, s)
  else
    match c.label with
    | none =>
      let (bs, s) := s.hostRead (.cipher true) (c.addr + 4096 * j) 4096
      (bs, Met.none, s)
    | some _ =>
      let (x, s) := s.hostRead (.cipher true) (c.addr + 4112 * j) 4112
      match Crypto.gcmOpen key (shelfIv c.nonce j) (leBytes 8 (c.lba + j)) (x.take 4096) (x.drop 4096) with
      | some pt => (pt, Met.none, s)
      | none => ([], ⟨false, true⟩, s)

/-- The blocks of a WRITE from block j on: their bytes, whether a rule was violated, the first failed block. -/
def State.gather (s : State) (i : Nat) (c : ShelfCmd) (key : List Byte) : Nat → Nat → List (List Byte) × Bool × Option Nat × State
  | 0, _ => ([], false, none, s)
  | n + 1, j =>
    let (bs, m, s) := s.writeIn i c key j
    let (rest, v, bad, s) := s.gather i c key n (j + 1)
    (bs :: rest, m.violated || v, if m.integrity then some j else bad, s)

/-! ### Incomplete commands (R395, R402) -/

/-- A block of an incomplete command holds its old data, or its new data, or is unmapped by a TRIM: a free value (log 7). -/
def State.tearBlock (s : State) (c : ShelfCmd) (j : Nat) (new : List Byte) : State :=
  let done := s.freeBits 1 == 1#1
  let k := c.ns.getD 0
  let s := s.bumpFree
  if done then { s with shelf := if c.opcode = 4 then s.shelf.trimBlock k (c.lba + j) else s.shelf.writeBlock s.chans k (c.lba + j) new }
  else s

/-- A started WRITE or TRIM that has not completed when the device resets; a WRITE whose source fails its check writes
nothing. -/
def State.tearCommand (s : State) (c : ShelfCmd) : State :=
  if ¬ c.started ∨ c.ns = none then s
  else if c.opcode = 4 then (List.range c.count).foldl (fun s j => s.tearBlock c j []) s
  else if c.opcode = 2 then
    let key := match c.label, s.sec.record with
      | some l, some r => s.workingKey r l
      | _, _ => []
    let (blocks, _, bad, _) := s.gather ((s.holderOf 1 c.q).getD 0) c key c.count 0
    if bad.isSome then s else (blocks.zip (List.range c.count)).foldl (fun s p => s.tearBlock c p.2 p.1) s
  else s

/-- An FLR of function i (R347, R402): commands that have not started are dropped, and started ones write no completion; those of
peers on its attached queue pairs among them. Their requests carry the tag of an incarnation that is over, so a READ reaches no
memory any more, and of a WRITE or TRIM each block is done or is not (R395; 12_rings.md R352). -/
def State.shelfOrphan (s : State) (i : Nat) : State :=
  let mine := fun (c : ShelfCmd) => (c.op.map (fun o => o.fn == i)).getD (s.holderOf 1 c.q == some i)
  let s := (s.shelf.cmds.filter (fun c => mine c && !c.old)).foldl State.tearCommand s
  let cmds := (s.shelf.cmds.filter (fun c => c.started || !mine c)).map (fun c =>
    if mine c then { c with op := some OpRef.dead, old := true } else c)
  ({ s with shelf := { s.shelf with cmds := cmds } }).shelfStart

/-- The effect, status and result of a started command when the medium answers (R390 to R399). -/
def State.shelfFinish (s : State) (i : Nat) (c : ShelfCmd) (m : MediaResult) : State × Nat × Nat :=
  let ns := c.ns.getD 0
  let key := match c.label, s.sec.record with
    | some l, some r => s.workingKey r l
    | _, _ => []
  let s := s.useKeys c.label.toList
  let s := if c.opcode = 1 ∨ c.opcode = 2 then s.useBound (fun r => [r.deviceLabel 0x04 ns, r.deviceLabel 0x05 ns]) else s
  match s.shelfServes c.opcode with
  | some st => (s, st, 0)
  | none =>
  if (c.opcode = 1 ∨ c.opcode = 2) ∧ ¬ s.engineUp then (s, Status.internal, 0)
  else if (c.opcode = 1 ∨ c.opcode = 2) ∧ m.mismatch then (s.cipherMismatch, Status.internal, 0)
  else match c.opcode with
    | 1 =>
      let s : State := { s with shelf := { s.shelf with unread := m.unread.foldl (fun l p => insertNat p l) s.shelf.unread } }
      let lost := (List.range c.count).filter (fun j => s.shelf.blockLost s.chans (blockKey ns (c.lba + j)))
      let (v, s) := s.readBlocks i c key lost c.count
      let s : State := { s with shelf := s.shelf.mend s.chans ((List.range c.count).map (fun j => blockKey ns (c.lba + j))) }
      let s := s.violateIf v i
      (match lost with
       | [] => (s, Status.ok, 0xFFFFFFFF)
       | j :: _ => (s, Status.mediaError, j))
    | 2 =>
      let (blocks, v, bad, s) := s.gather i c key c.count 0
      let s := s.violateIf v i
      (match bad with
       | some j => (s, Status.integrity, j)
       | none =>
         if s.shelf.noRoom ns c.lba c.count then (s, Status.noSpace, 0)
         else
           let x := (blocks.zip (List.range c.count)).foldl (fun x p => x.writeBlock s.chans ns (c.lba + p.2) p.1) s.shelf
           ((({ s with shelf := x }).logCount 9 (4096 * c.count)).program (4096 * c.count), Status.ok, 0))
    | 4 =>
      let x := (List.range c.count).foldl (fun x j => x.trimBlock ns (c.lba + j)) s.shelf
      ({ s with shelf := x }, Status.ok, 0)
    | 5 =>
      let size := match c.ns with
        | some n => s.nsSize n
        | none => 0
      (s, Status.ok, s.fld F.shfStatusState + s.fld F.shfSanitizePercent * 2 ^ 8 + s.fld F.shfStatusSpare * 2 ^ 16
        + s.fld F.shfStatusPower * 2 ^ 24 + size * 2 ^ 32)
    | _ => (s, Status.ok, 0)

/-- SHELF_COMMAND_DONE (R393, R394): a started command takes effect and completes; the commands it held start. One whose function
an FLR has reset since has no effect left (12_rings.md R352). -/
def execShelfCommandDone (q : SqpId) (slot : BitVec 12) (m : MediaResult) (s : State) : Host.Outcome State Fault Refusal :=
  .next (
    match s.shelf.cmds.find? (fun c => c.q == (q : Nat) && c.slot == slot.toNat && c.started) with
    | none => s
    | some c =>
      let i := (s.holderOf 1 c.q).getD 0
      if ¬ c.old ∧ ¬ c.devmem ∧ (c.opcode = 1 ∨ c.opcode = 2) ∧ ¬ s.dmaOk i then s
      else
        let (s, status, result) := if c.old then (s, Status.ok, 0) else s.shelfFinish i c m
        let s := { s with shelf := { s.shelf with cmds := s.shelf.cmds.erase c, lastCmd := s.now } }
        ((s.endShelf c.op c.q c.slot c.tag status result).retireBlocks m.spare).shelfStart.rejectPeers.flushPeers.raiseFw 3 1)

/-! ### Channels and background work (R381, R405, R406) -/

/-- Channel ch leaves service: the stripes are rebuilt, the Resource Table shrinks, the shelf's state follows. -/
def State.dropChannel (s : State) (ch : Nat) : State :=
  if s.flag (F.shfChanInService ch) then
    let s := s.setFlag (F.shfChanInService ch) false
    let s : State := { s.setFlag F.shfStatusRebuild true with shelf := { s.shelf.leave ch with rebuilding := true } }
    (s.gateValley 35).rebuildTable.updateShelf
  else s

/-- CHANNEL_FAILURE (R381): counted; the third failure within an hour takes the channel out of service, critical event
0x03. -/
def execChannelFailure (ch : ChanId) (s : State) : Host.Outcome State Fault Refusal :=
  .next (
    if s.flag (F.shfChanInService ch) then
      let s := (s.count (F.shfChanFailures ch) 1).raiseFw 3 2
      let times := s.now :: (Tab.get [] s.shelf.failTimes ch).filter (fun t => decide (s.now ≤ t + 3600000000000))
      let s := { s with shelf := { s.shelf with failTimes := Tab.set [] s.shelf.failTimes ch times } }
      if 3 ≤ times.length then (s.critical 0x03 ch).dropChannel ch else s
    else s)

/-- The one data interface of the shelf's channels: NV-LPDDR4, in MT/s and bits, and so MB/s of a channel (R378). -/
def onfiRate : Nat := 3600
def onfiBits : Nat := 8
def onfiBandwidth : Nat := onfiRate * onfiBits / 8

/-- At boot a channel with a target whose parameters the data image does not list is mapped out (R378): critical event 0x03 (17_time.md
R471). -/
def State.mapUnlisted (s : State) : State :=
  (List.range 16).foldl (fun s c =>
    if s.flag (F.shfChanInService c) ∧ (s.mfg.pages c).any (fun p => !Config.listsParams s.fw.data p) then
      (s.critical 0x03 c).dropChannel c
    else s) s

/-- REBUILD_DONE (R381): every stripe that touched the channel has been rebuilt. -/
def execRebuildDone (s : State) : Host.Outcome State Fault Refusal :=
  .next (if s.flag F.shfStatusRebuild then
    { s.setFlag F.shfStatusRebuild false with shelf := { s.shelf.rebuild s.chans with rebuilding := false } } else s)

/-- SHELF_IDLE_TIMEOUT (R409): after idle_ms without commands the shelf enters SP2, or SP3 where max permits; no
command, format or sanitize may run, and the power core does not hold it at SP1 (18_power.md R488). -/
def execShelfIdleTimeout (s : State) : Host.Outcome State Fault Refusal :=
  .next (
    let max := s.fld F.shfPwrMax
    if 2 ≤ max ∧ ¬ s.flag F.pwrStatusShelfHeld ∧ s.shelf.cmds = [] ∧ s.shelf.formatting = [] ∧ ¬ s.flag F.shfSanitizeActive
        ∧ s.shelf.lastCmd + s.fld F.shfPwrIdleMs * 1000000 ≤ s.now then
      s.setFld F.shfStatusPower max
    else s)

/-- DATA_REFRESH (R406): a rewrite of a block into a new page changes no data and no result. A lost block stays where it is. -/
def execDataRefresh (ns : BitVec 8) (lba : BitVec 40) (s : State) : Host.Outcome State Fault Refusal :=
  .next (
    let k := blockKey ns.toNat lba.toNat
    if Tab.get [] s.shelf.blocks k ≠ [] ∧ s.fld F.shfStatusPower < 2 then
      let s := s.program 4096
      if s.shelf.blockLost s.chans k then s else { s with shelf := s.shelf.place s.chans k }
    else s)

end Sys2Proof.Machine
end

