-- ==== Sys2Proof/Machine/OpsReset.lean ====
section
/-! DEFINITION. What the recovery levels and a Function Level Reset reset and keep (19_recovery.md R495; 11_pcie.md R325,
R326; 13_registers.md R372). -/

namespace Sys2Proof.Machine

/-! ### Units -/

/-- No run: the schedule units forget their position, its cut with the lines that it had written is over (05_roles.md R162), and
control flits that have waited leave (06_plain.md R170). -/
def State.dropRun (s : State) : State :=
  let take := s.run.take.filter (fun t => t.mask &&& s.run.parts == 0)
  let commits := s.run.commits.filter (fun c => !bitOf s.run.parts c.part)
  let s := ((({ s with run := { Run.init with take := take, commits := commits } }).endBefore).setFlag F.dvtPlainRunning false).setFlag F.dvtPlainHaltPending false
  (List.range 6).foldl State.flushControl s

/-- The same with the positions of every other member set. -/
def State.dropRuns (s : State) : State := { s.dropRun with run := Run.init, stowed := [] }

/-- The status bits of a bench whose sequencer is reset. -/
def State.clearBenchStatus (s : State) (b : Nat) : State :=
  ((s.setFlag (F.bncStatusRunning b) false).setFlag (F.bncStatusOpen b) false).setFld (F.bncStatusFault b) 0

/-- L0 of a bench: the sequencer context and the fault field. -/
def State.resetSequencer (s : State) (b : Nat) : State :=
  (s.setBench b { s.bench b with slot := 0, loop := none, stall := none, window := none, released := false, abandoned := false, mute := false }).clearBenchStatus b

/-- The program that the scheduler core holds for bench b. -/
def State.benchProgram (s : State) (b : Nat) : List Byte :=
  match (s.benchPart b).bind (fun p => (s.part p).list) with
  | none => []
  | some l => ((l.benches.find? (fun x => x.1 == b)).map Prod.snd).getD []

/-- L1 of a bench: sequencer, window file and units; the program memory is rewritten, the bench store stays. What a
transfer in flight has not moved is lost with the mover (DESIGN CHOICE, log 24). -/
def State.resetBench (s : State) (b : Nat) : State :=
  let x := s.bench b
  let y := { Bench.init with
    store := x.store, poison := x.poison, ue := x.ue, ce := x.ce, prog := Memory.write [] 0 (s.benchProgram b) }
  (s.setBench b y).clearBenchStatus b

/-- L1 of a core: it restarts on its verified image; a control core's CPX stream ends with it. -/
def State.resetCore (s : State) (k : Nat) : State :=
  (if 5 ≤ k then s.killStream (k - 5) else s).restartCore k

/-- L1 of a link: replay buffers emptied, state DOWN; a mapped-out link stays so. -/
def State.resetLink (s : State) (j : Nat) : State :=
  let s := s.setLink j { Link.init with failTimes := (s.link j).failTimes, coeff := (s.link j).coeff }
  if s.fld (F.dvtLinkStatusState j) = 5 then s else s.setLinkState j 0

/-- A fetched descriptor of ring r leaves the engine that is reset: it completes with FENCED (R498), on a store queue pair by its
sequence (14_shelf.md R391). -/
def State.fenceFetched (s : State) (i r : Nat) (d : Desc) : State :=
  let o : OpRef := ⟨i, r, d.num⟩
  let s := s.launch i r d
  match if s.ringKind i r = 2 then s.sqpOf i r else none with
  | none => s.complete o Status.fenced 0
  | some q => match s.shelfSeq q (d.w0 32 16) with
    | (none, s) => s.dropFlight o
    | (some _, s) => s.complete o Status.fenced 0

/-- L1 of the engine of a ring kind: what it has fetched and not started completes with FENCED, and that of the shelf arbitrates
anew. Its rings keep their positions (DEDUCED, log 30). -/
def State.resetEngine (s : State) (kind : Nat) : State :=
  let s := s.host.fns.foldl (fun s f => f.2.rings.foldl (fun s q =>
    if s.ringKind f.1 q.1 = kind then q.2.fetched.foldl (fun s d => s.fenceFetched f.1 q.1 d) s else s) s) s
  if kind = 2 then { s with shelf := { s.shelf with turns := Shelf.init.turns } } else s

/-- Every unit of cluster c: benches, control core, coprocessor and movers. -/
def State.resetCluster (s : State) (c : Nat) : State :=
  let s := (List.range 10).foldl (fun s i => s.resetBench (10 * c + i)) s
  (s.resetCore (5 + c)).setCluster c Cluster.init

/-- L1 of a valley's units: the ring engines, links and cores in it, each as its own L1 (R495). Which ring engine lives in which valley
R18 says for Ethernet, remote memory and the shelf; the compute rings' is the scheduler core's, the mailboxes' the endpoint's
(DESIGN CHOICE, log 30). R495 names no L1 of other units. -/
def State.resetValley (s : State) (v : Nat) : State :=
  match valleyCluster v with
  | some c => s.resetCluster c
  | none =>
    if v = 34 then (List.range 6).foldl State.resetLink s
    else if v = 37 then (List.range 5).foldl State.resetCore (s.resetEngine 1)
    else if v = 32 then s.resetEngine 6
    else if v = 33 then [3, 4, 5].foldl State.resetEngine s
    else if v = 35 then s.resetEngine 2
    else s

/-- The valleys that level l resets over a scope (R495); their passes are closed while it does (01_architecture.md R23). -/
def State.resetValleys (s : State) (level : Nat) (sc : Scope) : List Nat :=
  match level, sc with
  | 1, .valley v => [v]
  | 2, sc => (s.scopeClusters (.parts (s.scopeParts sc))).map valleyOf
  | 3, _ => List.range 20
  | _, _ => []

/-- A reset of some valleys with their passes closed. -/
def State.behindPasses (s : State) (vs : List Nat) (reset : State → State) : State :=
  vs.foldl State.openPasses (reset (vs.foldl State.closePasses s))

/-- L2 of the partitions of a mask: every unit of their clusters; those with a cutlist are STOPPED and halted. -/
def State.resetParts (s : State) (mask : Nat) : State :=
  let s := (maskList 4 mask).foldl State.unstage s
  let s := (s.scopeClusters (.parts mask)).foldl State.resetCluster s
  (maskList 4 mask).foldl (fun s p =>
    if (s.part p).list.isSome then s.setPart p { s.part p with state := .stopped, halted := true } else s) s

/-- A partition becomes EMPTY and keeps its HBM regions as retained regions (L3, R496). -/
def State.retainPart (s : State) (p : Nat) : State :=
  let s := s.unstage p
  let keep := (s.heldRegions p).filter Region.hbm
  s.setPart p { s.part p with state := .empty, mates := 0, list := none, staged := none, retained := keep, halted := false }

/-- The asked FWC operation ends: its status and the FWC_DONE event (12_rings.md R360). -/
def State.fwcDone (s : State) (op status : Nat) : State :=
  (((s.setRequest 14 0).setFld F.fwcStatusBusyOp 0).setFld F.fwcStatusResult status).event 0 0x08 op status

/-- A DOWNLOAD that waits ends with FENCED and an EMPTY bank: an FLR of the manager or an L3 meets it (09_firmware.md R284). -/
def State.fenceDownload (s : State) : State := if s.request 14 = 1 then s.cutDownload.fwcDone 1 Status.fenced else s

/-- L3: all compute valleys. Bench stores, near stores and program memories are zeroized. -/
def State.resetCompute (s : State) : State :=
  let s := allParts.foldl State.retainPart s
  let s := (List.range 160).foldl (fun s b => (s.setBench b Bench.init).clearBenchStatus b) s
  let s := (List.range 16).foldl State.resetCluster s
  let s := (List.range 4).foldl (fun s d => s.setMemUnit d MemUnit.init) s
  ((s.dropRuns.pruneRegs).gateValleys).fenceDownload

/-! ### The whole device (L4, R372) -/

/-- Every incomplete command (14_shelf.md R395). -/
def State.tearShelf (s : State) : State := s.shelf.cmds.foldl State.tearCommand s

/-- Fields that an L4 or a power cycle keeps: the binding, wake causes and enables in V38, time, and what the shelf is
(DEDUCED, log 22). -/
def keptFields : List Field :=
  [F.secStatusState, F.secStatusBindings, ⟨F.hifWakeCauseRtcAlarm.addr, 0, 7⟩, F.hifWakeEnEnable, F.timNowNs, F.timRtcSeconds,
   F.timStatusRtcValid, F.shfStatusState, F.shfStatusSpare, F.shfSanitizeActive]
    ++ (List.range 16).map F.shfChanInService

/-- Reset values with the reserved bits that manufacture set (R375). -/
def State.freshRegs (s : State) : Regs :=
  ⟨s.mfg.rvBits.foldl (fun t (a, v) => Tab.set (regReset a) t a (regReset a ||| v)) [], [], [], [], [], [], []⟩

/-- The manager's function after a reset: PME_En and PME_Status hold on auxiliary power (PRESUMED, log 10). -/
def State.freshFns (s : State) : Tab Fn :=
  [(0, { Fn.init with vectors := 64, pmeEn := (s.fn 0).pmeEn, pmeStatus := (s.fn 0).pmeStatus })]

/-- The whole device but V38 resets; the security core leaves reset and the ROM boots next. Kept are the binding with its
journal, the shelf, the flash, the lifetime log, device time, management addresses, host memory and everything outside the
device. -/
def State.warmReset (s : State) : State :=
  let s := s.tearShelf.cutDownload
  let kept := keptFields.map (fun f => (f, s.fld f))
  let t : State := { State.reset with
    pending := s.pending, freeCtr := s.freeCtr, now := s.now, out := s.out, regs := s.freshRegs
    host := { HostSide.init with mem := s.host.mem, far := s.host.far, fns := s.freshFns, serviced := s.host.serviced }
    rcv := { Rcv.init with l4Failed := s.rcv.l4Failed, l5Times := s.rcv.l5Times, l5Pending := s.rcv.l5Pending, fencedForGood := s.rcv.fencedForGood }
    sec := { Sec.init with record := s.sec.record, journal := s.sec.journal }
    fw := { s.fw with cache := [], source := [], wdt := [], data := [], askCores := 0, hold := 0 }
    log := s.log
    shelf := { s.shelf with cmds := [], expected := [], lastCmd := s.now }
    tim := { Tim.init with rtcFrac := s.tim.rtcFrac }
    mgmt := s.mgmt
    pins := { s.pins with released := true }
    mfg := s.mfg, saved := s.saved }
  (kept.foldl (fun t (f, v) => t.setFld f v) t).setFld F.glbIdVariant s.mfg.variant

/-- Registers of V38 that live on while the rails are off: the TIM and TLM blocks. -/
def auxReg (a : Nat) : Bool := decide (0x900000 ≤ a ∧ a < 0xB00000)

/-- The rails go off: D3cold (11_pcie.md R331; 22_module.md R538, R540). Only V38 runs on; the shelf, the flash and the
real-time clock keep their contents, and the binding stays with the security core's records. -/
def State.railsOff (s : State) : State :=
  let t := s.warmReset
  let keep : Nat × Nat → Bool := fun p => auxReg p.1
  let drop : Nat × Nat → Bool := fun p => !auxReg p.1
  let val := (s.regs.val.filter keep).foldl (fun m p => Tab.set (regReset p.1) m p.1 p.2) (t.regs.val.filter drop)
  { t with
    regs := { t.regs with val := val }
    tim := s.tim, pins := { s.pins with released := false } }

/-! ### Function Level Reset (R325, R326, R347) -/

/-- Address range of the registers that an FLR of instance i resets: its page. -/
def fnRegs (i a : Nat) : Bool :=
  decide (0x100000000 * i ≤ a ∧ a < 0x100000000 * (i + 1))

/-- Every frame that waits for function i leaves its port. -/
def State.dropFrames (s : State) (i : Nat) : State :=
  let mine : TxFrame → Bool := fun f => (f.op.map (fun o => o.fn == i)).getD false
  let kill : TxFrame → TxFrame := fun f => if mine f then { f with op := some OpRef.dead } else f
  [0, 1].foldl (fun s p => s.setPort p { s.port p with
    waiting := (s.port p).waiting.filter (fun f => !mine f), line := (s.port p).line.map kill }) s

/-- Step 3 and step 5 of an FLR: the rings of function i and what waits for it are gone, and no completion is written;
its configuration space, registers, MSI-X table and mailbox window return to their reset values (R325 step 5). Ownership, vectors, grants and delivered
sequences stay, and of the manager's rings what a queue reset does not touch (13_registers.md R372; DEDUCED, log 27); a formation that it asked for goes on without its MUSTER. A FREEZE of the instance that has not finished completes with QUEUE_RESET (DEDUCED, log 20). -/
def State.clearFn (s : State) (i : Nat) : State :=
  let on := ((List.range 256).filter (s.ringEnabled i)).length
  let f := s.fn i
  let s := match f.freeze with
    | none => s
    | some o => s.complete o Status.queueReset 0
  let s := s.setFn i { Fn.init with
    vectors := f.vectors, binding := f.binding, grants := f.grants, lastIn := f.lastIn, lastOut := f.lastOut }
  let s := ((s.shelfOrphan i).rmaOrphan i).dropFrames i
  let s : State := { s with plain := { s.plain with op := s.plain.op.map (fun o => if o.fn = i then OpRef.dead else o) } }
  let s : State := { s with run := { s.run with commits := s.run.commits.filter (fun c => c.op.fn != i) } }
  let s := if i = 0 then
      ((List.range 256).filter (s.ringEnabled 0)).foldl (fun s r =>
        (((s.setFld (F.rngHeadCount 0 r) 0).setFld (F.rngTailCount 0 r) 0).setFld (F.rngStatusState 0 r) 0).setFlag (F.rngCtrlReset 0 r) false) s
    else s.dropRegs (fnRegs i)
  let drop : List FieldWrite → List FieldWrite := fun l => l.filter (fun w => w.fn != i)
  let pend : List ApplyGroup := s.regs.pend.map (fun g => { g with sets := drop g.sets })
  { s with
    host := { s.host with enabled := s.host.enabled - on }
    regs := { s.regs with
      buf := drop s.regs.buf, pend := pend.filter (fun g => g.sets != []) } }

/-- The incarnation of instance i, by vote (R352, R373). -/
def State.incarnation (s : State) (i : Nat) : Nat := let b := (s.fn i).binding; (vote b.a b.b b.c).getD 0

/-- INS_STATUS shows the tag and the partitions of instance i. -/
def State.showInstance (s : State) (i : Nat) : State :=
  (s.setFld (F.insStatusTag i) (i + 64 * s.incarnation i)).setFld (F.insStatusPartitions i) (listMask (s.ownedParts i))

/-- The incarnation advances by 1 modulo 4. -/
def State.nextIncarnation (s : State) (i : Nat) : State :=
  s.setFn i { s.fn i with binding := Rwt.of ((s.incarnation i + 1) % 4) }

/-- Step 4 of an FLR: the partition goes to EMPTY and its memory is released and zeroized. -/
def State.emptyPart (s : State) (p : Nat) : State :=
  let cl := (s.part p).clusters
  let s := s.unloadPart p
  s.behindPasses ((maskList 16 cl).map valleyOf) (fun s =>
    let s := (maskBenches cl).foldl (fun s b => (s.setBench b Bench.init).clearBenchStatus b) s
    (maskList 16 cl).foldl (fun s c => (s.killStream c).setCluster c Cluster.init) s)

/-- The member's own halt report goes out on every link in service (R193). -/
def State.sendHaltReport (s : State) (cause detail : Nat) (faulting : Bool) : State :=
  let r : HaltRep := ⟨BitVec.ofNat 16 s.memberOf.1, BitVec.ofNat 8 cause, BitVec.ofNat 8 detail, faulting⟩
  s.flood s.serviceLinks FlitType.haltReport (haltBytes r)

/-- This member raises a halt and names itself: notices, and a halt report (R192). -/
def State.tellHalt (s : State) (cause detail : Nat) : State :=
  let k := s.kerfAtOrAfter (s.plain.tick + 64 * (s.diameter + 1))
  ((s.notice s.serviceLinks 2 k).wake 4).sendHaltReport cause detail true

/-- A reset that ends this member's run tells the other members. The unbind, cause 0x0B, has raised its halt before and reports
now (10_tenancy.md R298). -/
def State.announceHalt (s : State) (cause detail : Nat) : State :=
  if s.scheduled ∧ s.inPlain then
    if cause = 0x0B ∧ s.run.halt.isSome then s.sendHaltReport cause detail true else s.tellHalt cause detail
  else s

/-! ### Levels (R495, R498) -/

/-- RCV_STATUS shows whether a level runs, and the level running or last completed. -/
def State.showLevel (s : State) (level cause : Nat) : State :=
  ((s.setFlag F.rcvStatusActive (s.rcv.levels != [])).setFld F.rcvStatusLevel level).setFld F.rcvStatusCause cause

/-- What a level resets over its scope. -/
def State.resetScope (s : State) (level : Nat) (sc : Scope) : State :=
  match level with
  | 0 => (match sc with
    | .bench b => s.resetSequencer b
    | .cpx c => s.killStream c
    | _ => s)
  | 1 => (match sc with
    | .bench b => s.resetBench b
    | .link j => s.resetLink j
    | .core k => s.resetCore k
    | .valley v => s.resetValley v
    | .engine k => s.resetEngine k
    | _ => s)
  | 2 => s.resetParts (s.scopeParts sc)
  | 3 => s.resetCompute
  | _ => s

/-- A running level is over: its record is written and it counts as done. -/
def State.closeLevel (s : State) (l : Level) : State :=
  let t := l.seen.trouble
  let s := s.writeRecord l
  let s := { s with rcv := { s.rcv with
    levels := s.rcv.levels.filter (fun x => { x with cap := l.cap } != l)
    done := ⟨l.level, t.scope, l.seen.at_, s.rcv.seq⟩ :: s.rcv.done.filter (fun d => decide (s.now ≤ d.time + 1000000000)) } }
  s.showLevel l.level t.cause

/-- Steps 4 to 6 of a fence: capture, reset, the fence lifted, the record. -/
def State.finishLevel (s : State) (l : Level) : State :=
  let sc := l.seen.trouble.scope
  let l' := { l with cap := s.capture l.level sc }
  ((s.behindPasses (s.resetValleys l.level sc) (fun s => s.resetScope l.level sc)).setFence false sc).closeLevel l'

/-- Step 3 of a fence at its bound: the outstanding operations of a scope complete with FENCED. -/
def State.fenceScope (s : State) (level : Nat) (sc : Scope) : State :=
  (s.scopePeers sc).foldl State.fencePeer ((s.scopeFlights level sc).eraseDups.foldl State.fenceOp s)

/-- The levels over partitions of a mask complete: an FLR of their instance meets them (R504). -/
def State.completeLevels (s : State) (mask : Nat) : State :=
  s.rcv.levels.foldl (fun s l =>
    if l.level ≤ 2 ∧ s.scopeParts l.seen.trouble.scope &&& mask ≠ 0 then (s.fenceScope l.level l.seen.trouble.scope).finishLevel l else s) s

/-- A reset of instance i as by FLR, with the cause that its records carry and the state it ends in. Levels that run over its
partitions complete first (R504). A running partition in a Plain of more than one member raises a halt that names this member; here
the member's own run ends at once (DESIGN CHOICE, log 20). -/
def State.resetInstanceTo (s : State) (i cause detail last : Nat) : State :=
  let ps := s.ownedParts i
  let s := s.completeLevels (listMask ps)
  let s := (s.setFld (F.insStatusState i) 4).event 0 0x0D i 4
  let s := if ps.any s.setParts.contains then s.announceHalt cause detail else s
  let seen := s.see ⟨2, cause, detail, .nothing, 0⟩
  let ls := ps.map (fun p => (p, { s.newLevel 2 seen (.parts (2 ^ p)) false 0 with cap := s.capture 2 (.parts (2 ^ p)) }))
  let s := s.clearFn i
  let s := (if ps.any s.setParts.contains then s.dropRun else s).dropSets (listMask ps)
  let s := ls.foldl (fun s l =>
    let s := (s.fencePart true l.1).count (F.rcvCountCount 2) 1
    (((s.emptyPart l.1).writeRecord l.2).fencePart false l.1).showLevel 2 cause) s
  let s := (s.nextIncarnation i).showInstance i
  (s.gateValleys).event 0 0x0D i last

/-- The same, with the instance ACTIVE afterwards. -/
def State.resetInstance (s : State) (i cause detail : Nat) : State := s.resetInstanceTo i cause detail 1

end Sys2Proof.Machine
end

