-- ==== Sys2Proof/Machine/OpsRegs.lean ====
section
/-! DEFINITION. Register writes: buffers, strobes, apply groups and what an applied field starts (13_registers.md R366 to
R377); queue resets (12_rings.md R345); MSI-X unmasking (11_pcie.md R324). -/

namespace Sys2Proof.Machine

/-! ### Queue reset (R345) -/

/-- What a queue reset does to the started operations of a ring, by its kind. -/
def State.resetKind (s : State) (i r : Nat) : State :=
  match s.ringKind i r with
  | 1 => s.detachStart i r
  | 2 => (match s.sqpOf i r with
    | some q => s.shelfReset q
    | none => s)
  | 3 => s.etxReset i r Status.queueReset
  | 4 => s.dropBufs i r Status.queueReset
  | 5 => (match s.qpOf i r with
    | some q => s.qpError q
    | none => s)
  | 6 => s.dropBufs i r Status.queueReset
  | _ => s

/-- Ring r is an enabled CPL ring that enabled rings report to: it cannot be disabled (R336). -/
def State.keepsCpl (s : State) (i r : Nat) : Bool :=
  s.ringEnabled i r && s.ringKind i r == 8 && s.reporting i r != []

/-- A queue reset of ring r: it stops fetching, what has not started completes with QUEUE_RESET, and the ring is DISABLED
once nothing is in flight. Those of an RMA ring that have started complete before them (16_rdma.md R445). A CPL ring to which enabled rings report stays (R336). -/
def State.queueReset (s : State) (i r : Nat) : State :=
  if ¬ s.ringEnabled i r ∨ s.keepsCpl i r then s
  else
    let s := s.setFld (F.rngStatusState i r) 2
    let s := if s.ringKind i r = 5 then (s.resetKind i r).dropFetched i r Status.queueReset
      else (s.dropFetched i r Status.queueReset).resetKind i r
    s.flush i r

/-! ### MSI-X (R324) -/

/-- A pending message of an unmasked vector leaves, where the function may issue DMA (R324, R328, R329). -/
def State.sendPending (s : State) (i vec : Nat) : State :=
  let f := s.fn i
  let e := Tab.get MsixEntry.init f.msix vec
  if e.pending ∧ ¬ e.masked ∧ ¬ f.fmask ∧ s.dmaOk i then
    (s.setFn i { f with msix := Tab.set MsixEntry.init f.msix vec { e with pending := false } }).emit (.msix i vec e.addr e.data)
  else s

/-- Every pending message of function i that may leave. -/
def State.sendAllPending (s : State) (i : Nat) : State :=
  (List.range (s.fn i).vectors).foldl (fun s v => s.sendPending i v) s

/-- Replacing vector vec of function i. -/
def State.setVector (s : State) (i vec : Nat) (e : MsixEntry) : State :=
  s.setFn i { s.fn i with msix := Tab.set MsixEntry.init (s.fn i).msix vec e }

/-- A 4-byte write into word w of vector vec's table entry: address, data, mask (PRESUMED, log 10). -/
def State.writeVector (s : State) (i vec w v : Nat) : State :=
  let e := Tab.get MsixEntry.init (s.fn i).msix vec
  match w with
  | 0 => s.setVector i vec { e with addr := e.addr / 2 ^ 32 * 2 ^ 32 + v }
  | 1 => s.setVector i vec { e with addr := e.addr % 2 ^ 32 + v * 2 ^ 32 }
  | 2 => s.setVector i vec { e with data := v }
  | _ => (s.setVector i vec { e with masked := v % 2 == 1 }).sendPending i vec

/-! ### Blocks (R362) -/

/-- Mask bit of the block that a BAR0 register address belongs to; instance registers belong to HIF. -/
def blockOf (a : Nat) : Nat :=
  if 0x100000000 ≤ a then 5
  else if a < 0x1000000 then (match rowAt a with
    | some (r, _) => r.block
    | none => 15)
  else if a < 0x2000000 then 16 + (a - 0x1000000) / 0x400000
  else 20 + (a - 0x2000000) / 0x100000

/-- The block is of the kerf class. -/
def kerfBlock (b : Nat) : Bool := b == 1 || b == 2 || b == 11 || decide (16 ≤ b)

/-- GLB_PENDING shows the blocks with a pending set. -/
def State.showPending (s : State) : State :=
  s.setFld F.glbPendingMask (listMask (s.regs.pend.flatMap ApplyGroup.blocks))

/-! ### What an applied field starts -/

/-- The operation that an op field asks for, of a block with operations 1 to top, waits for its command. While another one is
busy, or where the field holds no operation, it is refused with BAD_DESCRIPTOR (09_firmware.md R284, 10_tenancy.md R286,
17_time.md R478; log 9). -/
def State.askOp (s : State) (block top : Nat) (op result : Field) : State :=
  let v := s.fld op
  if v = 0 then s else if s.request block = 0 ∧ v ≤ top then s.setRequest block v else s.setFld result Status.badDescriptor

/-- SHF_CTRL is applied (14_shelf.md R383): the operation keeps the namespace and the size it is asked with, and a refused one
posts its MEDIA event too. -/
def State.askShelf (s : State) : State :=
  let ns := s.fld F.shfCtrlNs
  if s.fld F.shfCtrlOp = 0 then s
  else if s.request 6 = 0 ∧ s.fld F.shfCtrlOp ≤ 4 then
    let s := s.setRequest 6 (s.fld F.shfCtrlOp)
    { s with shelf := { s.shelf with askNs := ns, askSize := s.fld F.shfArgSizeGib } }
  else s.endNsOp ns Status.badDescriptor

/-- The same for the FWC block: busy_op shows the operation, its cores are those it was written with, and a refused one ends
with its event (09_firmware.md R284). -/
def State.askFirmware (s : State) : State :=
  let v := s.fld F.fwcCtrlOp
  if v = 0 then s
  else if s.request 14 = 0 ∧ v ≤ 4 then
    ({ s with fw := { s.fw with askCores := s.fld F.fwcCtrlCores } }.setRequest 14 v).setFld F.fwcStatusBusyOp v
  else (s.setFld F.fwcStatusResult Status.badDescriptor).event 0 0x08 v Status.badDescriptor

/-- A link's map-out applies, or waits while a Plain is formed, or is withdrawn (06_plain.md R198). While a Plain forms, the
member's record may then be due, as the link answers no more. -/
def State.linkMapOut (s : State) (j : Nat) : State :=
  if s.flag (F.dvtLinkCtrlMapOut j) then
    if s.fld (F.dvtLinkStatusState j) = 5 then s
    else if s.flag F.dvtPlainFormed then s.setFlag (F.dvtLinkStatusMapPending j) true
    else (((s.setLinkState j 5).gateValley 34).rebuildTable).sendRecord
  else
    let s := s.setFlag (F.dvtLinkStatusMapPending j) false
    if s.fld (F.dvtLinkStatusState j) = 5 then ((s.setLinkState j 0).gateValley 34).rebuildTable else s

/-- A channel map-out applies (14_shelf.md R381). -/
def State.channelMapOut (s : State) (c : Nat) : State :=
  if s.flag (F.shfChanMapOut c) ∧ s.flag (F.shfChanInService c) then s.dropChannel c else s

/-- The enable of a ring applies: 1 enables it, 0 disables it by a queue reset; the disable of a CPL ring that enabled rings
report to is ignored (R335, R336). -/
def State.ringEnable (s : State) (i r : Nat) : State :=
  if s.flag (F.rngCtrlEnable i r) then s.enableRing i r
  else if s.keepsCpl i r then s.setFlag (F.rngCtrlEnable i r) true
  else s.queueReset i r

/-- A port's configuration applies: a port that is disabled, or whose mode in use is above the highest allowed, goes down
(15_ethernet.md R410). -/
def State.portConfig (s : State) (p : Nat) : State :=
  (if s.portUp p ∧ (¬ s.flag (F.ethPortCfgEnable p) ∨ s.ownMode p < s.fld (F.ethPortStatusMode p)) then s.dropPort p else s).gateValleys

/-- A rule-set commit starts where none is busy; the bit is 0 again once applied (15_ethernet.md R422). -/
def State.ruleCommit (s : State) (p : Nat) : State :=
  let s' := s.setFlag (F.ethRsCtrlCommit p) false
  if s.flag (F.ethRsCtrlCommit p) ∧ ¬ s.flag (F.ethRsStatusBusy p) then s'.setFlag (F.ethRsStatusBusy p) true else s'

/-- The ring whose RNG_CTRL register is at address a, if it is one. -/
def ringCtrlAt (a : Nat) : Option (Nat × Nat) :=
  if 0x540000 ≤ a ∧ a < 0x544000 ∧ (a - 0x540000) % 0x40 = 0x10 then some (0, (a - 0x540000) / 0x40)
  else
    let off := a % 0x100000000
    if 0x100000000 ≤ a ∧ 0x1000 ≤ off ∧ off < 0x5000 ∧ (off - 0x1000) % 0x40 = 0x10 then
      some (a / 0x100000000, (off - 0x1000) / 0x40)
    else none

/-- What the application of register a starts. -/
def State.appliedAt (s : State) (a : Nat) : State :=
  match ringCtrlAt a with
  | some (i, r) => s.ringEnable i r
  | none =>
    if 0x100000000 ≤ a then s
    else if 0x2000000 ≤ a then (if a % 0x100000 = 0x10 then s.stackMapOut ((a - 0x2000000) / 0x100000) else s)
    else if 0x1000000 ≤ a then
      let off := (a - 0x1000000) % 0x100000
      if 0x8000 ≤ off ∧ off < 0x8A00 ∧ off % 0x100 = 0x10 then
        s.benchMapOut (10 * ((a - 0x1000000) / 0x100000) + (off - 0x8000) / 0x100)
      else s
    else if a = F.fwcCtrlOp.addr then (s.askFirmware).raiseFw 0 2
    else if a = F.fwcSrcLoAddr.addr ∨ a = F.fwcSrcHiAddr.addr ∨ a = F.fwcLenBytes.addr then s.raiseFw 0 2
    else if a = F.secCtrlOp.addr then s.askOp 3 5 F.secCtrlOp F.secStatusResult
    else if a = F.shfCtrlOp.addr then s.askShelf
    else if a = F.rcvCtrlOp.addr then s.askOp 12 2 F.rcvCtrlOp F.rcvResultResult
    else if a = F.tlmLogCtrlOp.addr then
      if s.fld F.tlmLogCtrlOp = 1 ∧ s.request 10 = 0 then (s.setRequest 10 1).setFlag F.tlmLogStatusBusy true
      else s.askOp 10 1 F.tlmLogCtrlOp F.tlmLogStatusResult
    else if a = F.pwrCapShelfHold.addr then s.showStretch
    else if a = F.timCfgRole.addr then s.reselect
    else if a = F.dbgBufLoAddr.addr ∨ a = F.dbgBufHiAddr.addr then s.setFld F.dbgWptrBytes 0
    else
      match (List.range 16).find? (fun c => (F.shfChanMapOut c).addr == a) with
      | some c => s.channelMapOut c
      | none =>
        match (List.range 6).find? (fun j => (F.dvtLinkCtrlMapOut j).addr == a) with
        | some j => s.linkMapOut j
        | none =>
          [0, 1].foldl (fun s p =>
            if a = (F.ethLaneCtrlMapOut p).addr then s.applyLanes p
            else if a = (F.ethPortCfgEnable p).addr then s.portConfig p
            else if a = (F.ethRsCtrlCommit p).addr then s.ruleCommit p
            else s) s

/-- The vector counts that a set of writes asks for are good: each 1 to 256, together at most 1,984 (R323). -/
def State.goodAlloc (s : State) (ws : List FieldWrite) : Bool :=
  let count := fun i => (((ws.filter (fun w => w.field == F.hifMsixAllocCount i)).getLast?).map (fun w => w.value)).getD
    (s.fld (F.hifMsixAllocCount i))
  let counts := (List.range 63).map (fun k => count (k + 1))
  counts.all (fun n => decide (1 ≤ n ∧ n ≤ 256)) && decide (counts.foldl (· + ·) 0 ≤ 1984)

/-- The register is one of HIF_MSIX_ALLOC. -/
def isAlloc (a : Nat) : Bool := decide ((F.hifMsixAllocCount 1).addr ≤ a ∧ a ≤ (F.hifMsixAllocCount 63).addr)

/-- A set of writes takes effect as a whole: a node's new rate meets its new burst (15_ethernet.md R435); vector counts apply all or
not at all; the power cap is clamped (18_power.md, PWR_CAP). -/
def State.applySets (s : State) (ws : List FieldWrite) : State :=
  let bad := ws.any (fun w => isAlloc w.field.addr) && !s.goodAlloc ws
  let ws := if bad then ws.filter (fun w => !isAlloc w.field.addr) else ws
  let s := if bad then s.setFlag F.hifStatusAllocError true else s
  let rate : FieldWrite → Bool := fun w => w.field == F.ethNodeRateMbps
  let ws := ws.map (fun w => if w.field = F.pwrCapWatts then { w with value := min 1500 (max 300 w.value) } else w)
  let s := (ws.filter (fun w => !rate w) ++ ws.filter rate).foldl (fun s w => (s.setFld w.field w.value).applyNode w.sel w.field w.value) s
  (ws.map (fun w => w.field.addr)).eraseDups.foldl State.appliedAt s

/-! ### Strobes and groups (R367 to R371) -/

/-- GLB_UPDATE: each field's ETH_NODE_SEL is the one that stands then (15_ethernet.md R435). The named blocks' buffers move to pending in one step; a group that holds one of the blocks already merges
with it (R369). In AQ-E7 mode the write is ignored (R376). -/
def State.strobe (s : State) (mask : Nat) : State :=
  let mine : FieldWrite → Bool := fun w => w.fn == 0 && w.block != 15 && bitOf mask w.block
  let ws := (s.regs.buf.filter mine).map (fun w => { w with sel := s.nodeSel })
  if s.flag F.glbCompatE7 ∨ ws = [] then s
  else
    let named := (ws.map (fun w => w.block)).eraseDups
    let meets : ApplyGroup → Bool := fun g => !g.posted && g.blocks.any named.contains
    let old := s.regs.pend.filter meets
    let g : ApplyGroup := ⟨((old.flatMap ApplyGroup.blocks) ++ named).eraseDups, (old.flatMap ApplyGroup.sets) ++ ws, s.now, false⟩
    ({ s with regs := { s.regs with
        buf := s.regs.buf.filter (fun w => !mine w), pend := s.regs.pend.filter (fun g => !meets g) ++ [g] } }).showPending

/-- GLB_DISCARD (R370, R376). -/
def State.discardBuffers (s : State) (mask : Nat) : State :=
  if s.flag F.glbCompatE7 then s
  else { s with regs := { s.regs with buf := s.regs.buf.filter (fun w => !(w.fn == 0 && w.block != 15 && bitOf mask w.block)) } }

/-- GLB_COMPAT (R377). -/
def State.setCompat (s : State) (on : Bool) : State :=
  if s.fld F.glbPendingMask ≠ 0 ∨ s.flag F.glbStatusBusy ∨ s.inPlain then s
  else
    let s := if on ∧ ¬ s.flag F.glbCompatE7 then
      { s with regs := { s.regs with buf := s.regs.buf.filter (fun w => w.fn != 0) } } else s
    s.setFlag F.glbCompatE7 on

/-- The group may apply now (R368): an immediate group at any time; a group with a kerf-class block in the Commit phase of
a kerf whose Drain started at least 1 us after the strobe, or while nothing runs. -/
def State.groupDue (s : State) (g : ApplyGroup) : Bool :=
  !g.blocks.any kerfBlock || !s.scheduled || (s.run.phase == .service && decide (g.strobe + 1000 ≤ s.run.drainAt))

/-- A group applies as a whole: one configuration epoch (R371). -/
def State.applyGroup (s : State) (g : ApplyGroup) : State :=
  let s := { s with regs := { s.regs with pend := s.regs.pend.filter (· != g) } }
  let s := (s.applySets g.sets).wrapAdd F.glbEpochApplied 1
  (if g.posted then s.setFlag F.glbStatusBusy false else s).showPending

/-- Every group that is due applies, oldest first. -/
def State.applyDue (s : State) : State :=
  (s.regs.pend.filter s.groupDue).foldl State.applyGroup s

/-- INS_UPDATE of instance i: its buffered fields apply (R335). -/
def State.insUpdate (s : State) (i : Nat) : State :=
  let ws := s.regs.buf.filter (fun w => w.fn == i)
  ({ s with regs := { s.regs with buf := s.regs.buf.filter (fun w => w.fn != i) } }).applySets ws

/-- INS_MBX_ACK of instance i: the unacknowledged slot that holds this sequence is free again (12_rings.md R359). -/
def State.mbxAck (s : State) (i seq : Nat) : State :=
  let f := s.fn i
  let x := Tab.get MboxSlot.init f.mbox (seq % 64)
  if x.full ∧ x.seq = seq then s.setFn i { f with mbox := Tab.set MboxSlot.init f.mbox (seq % 64) { x with full := false } } else s

/-! ### One register write (R316, R367, R375, R376) -/

/-- A later value of a field in a buffer replaces the earlier one. -/
def bufferWrite (buf : List FieldWrite) (w : FieldWrite) : List FieldWrite :=
  buf.filter (fun x => !(x.fn == w.fn && x.field == w.field)) ++ [w]

/-- The write of v to the register at b would change a reserved bit. -/
def State.rvChange (s : State) (row : RegRow) (b v : Nat) : Bool :=
  row.fields.any (fun f => f.access == .rv && bitsOf v f.lsb f.width != bitsOf (s.regs.word b) f.lsb f.width)

/-- The rights that a field of the DBG block needs, any one of them (21_debug.md R525, R309). -/
def dbgRights (f : Field) : List Nat :=
  if f = F.dbgCtrlSample ∨ f = F.dbgCtrlPeriodLog2 then [0]
  else if f = F.dbgCtrlTrace ∨ f = F.dbgTraceCores then [1]
  else if f = F.dbgCtrlCounters ∨ f = F.dbgCtrlCntPeriod then [2]
  else if f = F.dbgCtrlClusters then [0, 2]
  else [0, 1, 2]

/-- The manager may write the field: outside DBG always, in DBG with the right that its function needs (R525). -/
def State.dbgAllowed (s : State) (f : Field) : Bool :=
  !decide (0xD00000 ≤ f.addr ∧ f.addr < 0xE00000) || (dbgRights f).any s.hasRight

/-- The energy counts read with what was drawn outside runs (18_power.md R483); none for another field. -/
def State.energyField (s : State) (x : Field) : Option Nat :=
  let v := (x.addr - 0x200100) / 8
  if x = F.pwrEnergyUj then some ((s.fld x + s.pwr.drawn.sum) % 2 ^ 64)
  else if v < 40 ∧ x = F.pwrVlyEnergyUj v then some ((s.fld x + s.pwr.drawn.getD v 0) % 2 ^ 64)
  else none

/-- What a register field reads as: its home value (R364 to R366: no buffered value, nothing older than a write that has
arrived). A WO field reads zero (00_scope.md R11), and so does a DBG field whose right does not hold; reserved bits read as they
are (R375). The ETH_NODE fields are the selected node's; ETH_NODE_TOKENS gives its
tokens in whole bytes, rounded down (15_ethernet.md R434; DEDUCED, log 27). -/
def State.readField (s : State) (b : Nat) (f : FieldRow) : Nat :=
  let x : Field := ⟨b, f.lsb, f.width⟩
  if f.access = .wo then 0
  else if x = F.ethNodeTokensTokens then (BitVec.ofInt 32 (Int.fdiv (s.nodeTokens (selKey s.nodeSel)) 256)).toNat
  else match (s.nodeField x).or (s.energyField x) with
  | some v => v
  | none => if f.access = .rv ∨ s.dbgAllowed x ∨ x = F.dbgStatusRights then s.fld x else 0

/-- What a read of the register at address a returns; holes read zero (11_pcie.md R316). -/
def State.readReg (s : State) (a : Nat) : Nat :=
  match rowAt a with
  | none => 0
  | some (row, b) => row.fields.foldl (fun v f => withBits v f.lsb f.width (s.readField b f)) 0

/-- The 4 bytes of the register map at address a. -/
def State.readWord (s : State) (a : Nat) : Nat :=
  match rowAt a with
  | none => 0
  | some (_, b) => s.readReg b / 2 ^ (8 * (a - b)) % 2 ^ 32

/-- The buffered fields of a write. -/
def bufferedFields (i : Nat) (row : RegRow) (b v : Nat) : List FieldWrite :=
  (row.fields.filter (fun f => f.access == .rwb || f.access == .rwt)).map (fun f =>
    (⟨i, blockOf b, ⟨b, f.lsb, f.width⟩, bitsOf v f.lsb f.width, 0⟩ : FieldWrite))

/-- Fields that a write changes at once: RW takes the value, W1C clears the whole field on any 1. -/
def State.writeNow (s : State) (row : RegRow) (b v : Nat) : State :=
  row.fields.foldl (fun s f =>
    let x : Field := ⟨b, f.lsb, f.width⟩
    let n := bitsOf v f.lsb f.width
    if ¬ s.dbgAllowed x then s
    else if f.access = .rw then s.setFld x n else if f.access = .w1c ∧ n ≠ 0 then s.setFld x 0 else s) s

/-- The buffered fields of a write that it may change: with the debug rights that they need, and vector counts only before VF
Enable (R323, R525). -/
def State.writable (s : State) (i : Nat) (row : RegRow) (b v : Nat) : List FieldWrite :=
  let ws := ((bufferedFields i row b v).filter (fun w => s.dbgAllowed w.field)).map (fun w => { w with sel := if i = 0 then s.nodeSel else 0 })
  if s.host.vfEnable then ws.filter (fun w => !isAlloc w.field.addr) else ws

/-- The reset bit of RNG_CTRL written as 1 on an enabled ring starts a queue reset (R336, R345). -/
def State.ringReset (s : State) (b v : Nat) : State :=
  match ringCtrlAt b with
  | some (j, r) => if bitOf v 1 ∧ s.ringEnabled j r ∧ ¬ s.keepsCpl j r then (s.setFlag (F.rngCtrlReset j r) true).queueReset j r else s
  | none => s

/-- One write of the manager in AQ-E7 mode, 4 or 8 bytes: fields of registers homed in V32 or V38 take effect at once, the others
are posted as one epoch; registers with posted fields take nothing of a write that comes while one is busy. GLB_UPDATE and
GLB_DISCARD are ignored (R376). -/
def State.e7Write (s : State) (ws : List (RegRow × Nat × Nat)) : State :=
  let ws := ws.filter (fun (_, b, _) => b != F.glbUpdateBlocks.addr && b != F.glbDiscardMask.addr)
  let posts : RegRow × Nat × Nat → Bool := fun (row, b, v) => !row.fast && s.writable 0 row b v != []
  let busy := s.flag F.glbStatusBusy
  let drop := busy && ws.any posts
  let sets := (ws.filter posts).flatMap (fun (row, b, v) => s.writable 0 row b v)
  let s := if drop then s.setFlag F.glbStatusE7Drop true
    else if sets = [] then s
    else
      let s := s.setFlag F.glbStatusBusy true
      ({ s with regs := { s.regs with
        pend := s.regs.pend ++ [(⟨(sets.map FieldWrite.block).eraseDups, sets, s.now, true⟩ : ApplyGroup)] } }).showPending
  (ws.filter (fun w => !(drop && posts w))).foldl (fun s (row, b, v) =>
    if b = F.glbCompatE7.addr then s.setCompat (v % 2 == 1)
    else
      let s := if row.fast then s.applySets (s.writable 0 row b v) else s
      (s.writeNow row b v).ringReset b v) s

/-- A write of function i to the register at b, whose reserved bits it does not change. -/
def State.writeReg (s : State) (i : Nat) (row : RegRow) (b v : Nat) : State :=
  if i = 0 ∧ b = F.glbUpdateBlocks.addr then s.strobe v
  else if i = 0 ∧ b = F.glbDiscardMask.addr then s.discardBuffers v
  else if i = 0 ∧ b = F.glbCompatE7.addr then s.setCompat (v % 2 == 1)
  else if i ≠ 0 ∧ b = (F.insUpdateApply i).addr then (if v % 2 = 1 then s.insUpdate i else s)
  else if i ≠ 0 ∧ b = (F.insMbxAckSeq i).addr then s.mbxAck i v
  else
    let s : State := { s with regs := { s.regs with buf := (s.writable i row b v).foldl bufferWrite s.regs.buf } }
    (s.writeNow row b v).ringReset b v

/-- Register address of offset a of function i's register BAR. -/
def barAddr (i a : Nat) : Nat := 0x100000000 * i + a

/-- Vector and word that an offset of the function's MSI-X table names. -/
def State.vectorAt (s : State) (i a : Nat) : Option (Nat × Nat) :=
  let base := if i = 0 then 0x580000 else 0x70000
  if base ≤ a ∧ a < base + 16 * (s.fn i).vectors then some ((a - base) / 16, (a - base) / 4 % 4) else none

/-- Function i's register BAR takes memory accesses: the device is published after its boot, neither the function nor the manager is in D3hot, an instance is there and not in
an FLR, and image-less service answers only GLB and FWC (R272, R320, R325, R328, R329). -/
def State.barAnswers (s : State) (i a : Nat) : Bool :=
  s.host.published && !(s.fn 0).d3hot &&
    (if i = 0 then !s.host.imageless || blockOf a == 0 || blockOf a == 14
     else !(s.fn i).d3hot && s.insState i != 0 && s.insState i != 4 && !s.host.imageless && decide (a < 0x100000))

/-- Word n of vector vec's table entry: address, data, mask (PRESUMED, log 10). -/
def MsixEntry.word (e : MsixEntry) (n : Nat) : Nat :=
  match n with
  | 0 => e.addr % 2 ^ 32
  | 1 => e.addr / 2 ^ 32
  | 2 => e.data
  | _ => if e.masked then 1 else 0

/-- The pending bit array of function i: bit v is set while vector v has a message pending (R315, R324). -/
def State.pendingBits (s : State) (i : Nat) : Nat :=
  listMask ((List.range (s.fn i).vectors).filter (fun v => (Tab.get MsixEntry.init (s.fn i).msix v).pending))

/-- One slot of the mailbox window, 4 KiB: sequence, length, the unacknowledged mark, and the payload from byte 16 (12_rings.md
R359). -/
def MboxSlot.bytes (x : MboxSlot) : List Byte :=
  leBytes 4 x.seq ++ leBytes 2 x.payload.length ++ leBytes 1 (if x.full then 1 else 0) ++ leBytes 9 0 ++ x.payload

/-- The 4 bytes that function i reads at offset a of its register BAR: the MSI-X table, the pending bit array, the mailbox, the
instance view of the Resource Table, or a register; holes read zero (R315, R316). -/
def State.barWord (s : State) (i a : Nat) : Nat :=
  let pba := if i = 0 then 0x590000 else 0x78000
  match s.vectorAt i a with
  | some (vec, w) => (Tab.get MsixEntry.init (s.fn i).msix vec).word w
  | none =>
    if pba ≤ a ∧ a < pba + 32 then s.pendingBits i / 2 ^ (8 * (a - pba)) % 2 ^ 32
    else if i ≠ 0 ∧ 0x80000 ≤ a ∧ a < 0xC0000 then
      fieldLE (Tab.get MboxSlot.init (s.fn i).mbox ((a - 0x80000) / 4096)).bytes (a % 4096) 4
    else if i ≠ 0 ∧ 0xC0000 ≤ a ∧ a < 0x100000 then fieldLE (Tab.get [] s.host.views i) (a - 0xC0000) 4
    else s.readWord (barAddr i a)

/-- What a read of function i returns at offset a of its register BAR: an aligned read of 4 or 8 bytes; every other one is zero
(R316). -/
def State.barRead (s : State) (i a size : Nat) : Nat :=
  if (size = 4 ∨ size = 8) ∧ a % size = 0 ∧ s.barAnswers i a then
    s.barWord i a + (if size = 8 then s.barWord i (a + 4) * 2 ^ 32 else 0)
  else 0

/-- What 4 bytes at offset a of the manager's expansion ROM BAR read as: the full view of the Resource Table (R314); like every
BAR it reads zero before publication and in D3hot (R320, R329). -/
def State.romWord (s : State) (a : Nat) : Nat :=
  if s.host.published && !(s.fn 0).d3hot then fieldLE s.host.table a 4 else 0

/-- One register and its new value, for each 4 bytes of a write. -/
def writeWords (i a : Nat) (wide : Bool) (v : Nat) : List (RegRow × Nat × Nat) :=
  let ws := if wide then [(a, v % 2 ^ 32), (a + 4, v / 2 ^ 32)] else [(a, v % 2 ^ 32)]
  ws.filterMap (fun (a, v) => match rowAt (barAddr i a) with
    | some (r, b) => if r.bytes = 4 then some (r, b, v) else none
    | none => none)

end Sys2Proof.Machine
end

