-- ==== Sys2Proof/Machine/Rings.lean ====
section
/-! DEFINITION. Doorbells, descriptor fetch, completions, messages, queue resets and mailboxes (12_rings.md R337 to R346,
R357 to R359). -/

namespace Sys2Proof.Machine

/-! ### Doorbells (R337, R338) -/

/-- The value of a doorbell lies between the tail and what the ring can take. -/
def State.doorbellGood (s : State) (i r v : Nat) : Bool :=
  let tail := s.fld (F.rngTailCount i r)
  let top := s.fld (F.rngHeadCount i r) + (if submissionKind (s.ringKind i r) then s.ringSize i r else 0)
  decide (v < 2 ^ 32) && decide ((v + 2 ^ 32 - tail) % 2 ^ 32 ≤ (top + 2 ^ 32 - tail) % 2 ^ 32)

/-- Function i's doorbell page answers: an instance that exists and is not in an FLR, neither it nor the manager in D3hot. -/
def State.doorbellAnswers (s : State) (i : Nat) : Bool := s.dmaOk i && (i == 0 || s.insState i != 4)

/-- DOORBELL (R338): the value is taken, or ignored and counted. Room in an EVT ring lets the count of lost events out
(R361). A compute or store doorbell asserts a line of its core (09_firmware.md R276). -/
def execDoorbell (i : FnId) (r : RingId) (v : W64) (s : State) : Host.Outcome State Fault Refusal :=
  .next (
    if s.doorbellAnswers i ∧ s.ringActive i r then
      if v.toNat = s.fld (F.rngTailCount i r) then s
      else if s.doorbellGood i r v.toNat then
        let s := s.setFld (F.rngTailCount i r) v.toNat
        match s.ringKind i r with
        | 1 => s.raiseFw 2 0
        | 2 => s.raiseFw 3 0
        | 7 => s.reportLost i r
        | _ => s
      else s.count (F.rngErrBadDoorbell i r) 1
    else s)

/-! ### Fetch (R339, R340, R346) -/

/-- A head with an opcode that its ring kind does not have completes with BAD_DESCRIPTOR; one of a store queue pair obeys
the sequence rule first (14_shelf.md R391). -/
def State.rejectHeads (s : State) (i r : Nat) : Nat → State
  | 0 => s
  | fuel + 1 =>
    match (s.ring i r).fetched with
    | [] => s
    | d :: _ =>
      let kind := s.ringKind i r
      if (ringOpcodes i kind).contains d.opcode ∨ s.next? i r kind d.opcode = none then s
      else
        let o : OpRef := ⟨i, r, d.num⟩
        let s := s.launch i r d
        let s := match (if kind = 2 then s.sqpOf i r else none) with
          | some q => (match s.shelfSeq q (d.w0 32 16) with
            | (none, s) => s.dropFlight o
            | (some _, s) => s.complete o Status.badDescriptor 0)
          | none => s.complete o Status.badDescriptor 0
        s.rejectHeads i r fuel

/-- DESCRIPTOR_FETCH: every descriptor that the tail covers is read once, of an SHF ring as far as the turns of its store queue pair go
(14_shelf.md R388). A PCIe error puts the ring in ERROR 0x8. -/
def execDescriptorFetch (i : FnId) (r : RingId) (err : Bool) (s : State) : Host.Outcome State Fault Refusal :=
  .next (
    if s.canFetch i r ∧ err then s.ringError i r 0x8
    else
      let n := (s.fld (F.rngTailCount i r) + 2 ^ 32 - s.fld (F.rngHeadCount i r)) % 2 ^ 32
      if s.ringKind i r = 2 then
        let s := (List.range n).foldl (fun s _ => s.fetchTurn i r) s
        (s.rejectHeads i r (s.ring i r).fetched.length).rejectPeers
      else
        let s := (List.range n).foldl (fun s _ => s.fetchOne i r) s
        s.rejectHeads i r (s.ring i r).fetched.length)

/-! ### Completions and messages -/

/-- COMPLETION_WRITE (R342): the first entry that waits for CPL ring r is written where the ring has room. A PCIe error
puts the ring in ERROR 0x9 and the entry stays. -/
def execCompletionWrite (i : FnId) (r : RingId) (err : Bool) (s : State) : Host.Outcome State Fault Refusal :=
  .next (
    if ((s.ring i r).waiting ≠ [] ∧ s.cplOpen i r) ∧ err then s.ringError i r 0x9 else s.writeCpl i r)

/-- MSIX_MESSAGE (R343): a message that is due is signalled on the ring's vector. -/
def execMsixMessage (i : FnId) (r : RingId) (s : State) : Host.Outcome State Fault Refusal :=
  .next (
    if (s.ringKind i r = 7 ∨ s.ringKind i r = 8) ∧ s.ringActive i r ∧ s.dmaOk i ∧ s.messageDue i r then
      let s := s.setRing i r { s.ring i r with unsignalled := 0, nowDue := false }
      s.signal i (s.fld (F.rngCfgVector i r))
    else s)

/-- QUEUE_RESET (R345). -/
def execQueueReset (i : FnId) (r : RingId) (s : State) : Host.Outcome State Fault Refusal := .next (s.queueReset i r)

/-! ### Mailboxes (R357 to R359) -/

/-- A sequence is new to a direction whose last delivered sequence is known. -/
def seqFresh (seq last : Nat) : Bool := decide (1 ≤ (seq + 2 ^ 32 - last) % 2 ^ 32 ∧ (seq + 2 ^ 32 - last) % 2 ^ 32 ≤ 2 ^ 31)

/-- The format of a SEND: address, sequence, length of 1 to 4,080. -/
def goodSend (w0 : Nat) (d : Desc) : Bool :=
  d.good w0 allBits 0xFFFFFFFFFFFF 0 .none && decide (1 ≤ d.le 20 2 ∧ d.le 20 2 ≤ 4080)

/-- The manager's MBX ring with a receive buffer, and the buffer. -/
def State.managerBuf (s : State) : Option (Nat × Buf) :=
  (List.range 256).findSome? (fun r =>
    if s.ringActive 0 r && s.ringKind 0 r == 6 then (s.ring 0 r).bufs.head?.map (fun b => (r, b)) else none)

/-- An instance's SEND: into the manager's next receive buffer, whose RECV_BUF completes with instance, length and
sequence. -/
def State.doMbxSend (s : State) (o : OpRef) (d : Desc) : State :=
  let i := o.fn
  let seq := d.le 16 4
  let len := d.le 20 2
  if i = 0 ∨ ¬ goodSend 0 d then s.complete o Status.badDescriptor 0
  else if ¬ seqFresh seq (s.fn i).lastOut then s.complete o Status.ok 1
  else if (s.fn 0).d3hot then s.complete o Status.noSpace 0
  else match s.managerBuf with
    | none => s.complete o Status.noSpace 0
    | some (r, b) =>
      let s := s.setHostMem (Memory.write s.host.mem b.addr (Memory.read s.host.mem (d.le 8 8) len))
      let q := s.ring 0 r
      let s := s.setRing 0 r { q with bufs := q.bufs.drop 1 }
      let s := s.setFn i { s.fn i with lastOut := seq }
      let s := s.complete ⟨0, r, b.num⟩ Status.ok (i + len * 2 ^ 16 + seq * 2 ^ 32)
      s.complete o Status.ok 0

/-- A SEND that its ring has fetched starts though the manager in D3hot keeps the function from any DMA (R358). -/
def State.sendAnyway (s : State) (i r : Nat) : State :=
  match (s.ring i r).fetched with
  | [] => s
  | d :: _ =>
    if s.ringActive i r ∧ s.insState i = 1 ∧ s.ringKind i r = 6 ∧ d.opcode = 1 ∧ (bitOf (d.le 0 2) 9 → (s.ring i r).flight = []) then
      (s.launch i r d).doMbxSend ⟨i, r, d.num⟩ d
    else s

/-- MBX_SEND (R358). -/
def execMbxSend (i : FnId) (r : RingId) (s : State) : Host.Outcome State Fault Refusal :=
  .next (
    if (i : Nat) = 0 then s
    else if (s.fn 0).d3hot then s.sendAnyway i r
    else s.withOp i r 6 1 State.doMbxSend)

/-- RECV_BUF (R359): the buffer waits for a message. -/
def execRecvBuf (r : RingId) (s : State) : Host.Outcome State Fault Refusal :=
  .next (s.withOp 0 r 6 2 (fun s o d =>
    if d.good 0 allBits 0 0 .none then
      let q := s.ring 0 r
      s.setRing 0 r { q with bufs := q.bufs ++ [⟨d.num, false, d.le 8 8, 4096⟩] }
    else s.complete o Status.badDescriptor 0))

/-- The manager's SEND into the instance's mailbox window. -/
def State.doManagerSend (s : State) (o : OpRef) (d : Desc) : State :=
  let i := d.w0 32 6
  let seq := d.le 16 4
  let slot := seq % 64
  if ¬ goodSend 0x3F d ∨ i = 0 ∨ s.insState i = 0 then s.complete o Status.badDescriptor 0
  else if ¬ seqFresh seq (s.fn i).lastIn then s.complete o Status.ok 1
  else if (Tab.get MboxSlot.init (s.fn i).mbox slot).full then s.complete o Status.noSpace 0
  else
    let payload := Memory.read s.host.mem (d.le 8 8) (d.le 20 2)
    let s := s.setFn i { s.fn i with lastIn := seq, mbox := Tab.set MboxSlot.init (s.fn i).mbox slot ⟨seq, true, payload⟩ }
    (s.event i 0x03 slot seq).complete o Status.ok 0

/-- MANAGER_MBX_SEND (R359). -/
def execManagerMbxSend (r : RingId) (s : State) : Host.Outcome State Fault Refusal :=
  .next (s.withOp 0 r 6 1 State.doManagerSend)

end Sys2Proof.Machine
end

