-- ==== Sys2Proof/Machine/RegWrite.lean ====
section
/-! DEFINITION. The register commands (13_registers.md R367 to R377; 12_rings.md R335, R359; 11_pcie.md R316, R324). -/

namespace Sys2Proof.Machine

/-- A write of function i to offset a of its register BAR: an aligned write of 4 or 8 bytes; holes and read-only windows
take nothing; a write that would change a reserved bit is discarded whole (R316, R375). -/
def State.regWrite (s : State) (i a : Nat) (wide : Bool) (v : Nat) : State :=
  if a % (if wide then 8 else 4) ≠ 0 ∨ ¬ s.barAnswers i a then s
  else match s.vectorAt i a with
    | some (vec, w) =>
      let s := s.writeVector i vec w (v % 2 ^ 32)
      if wide then s.writeVector i vec (w + 1) (v / 2 ^ 32) else s
    | none =>
      let ws := writeWords i a wide v
      if ws.any (fun (row, b, v) => s.rvChange row b v) then
        if i = 0 then s.count F.glbRverrCount 1 else s.violate i
      else if i = 0 ∧ s.flag F.glbCompatE7 then s.e7Write ws
      else ws.foldl (fun s (row, b, v) => s.writeReg i row b v) s

/-- GLB_UPDATE (R367, R369). -/
def execGlbUpdate (v : W32) (s : State) : Host.Outcome State Fault Refusal :=
  .next (s.regWrite 0 F.glbUpdateBlocks.addr false v.toNat)

/-- GLB_DISCARD (R370). -/
def execGlbDiscard (v : W32) (s : State) : Host.Outcome State Fault Refusal :=
  .next (s.regWrite 0 F.glbDiscardMask.addr false v.toNat)

/-- GLB_COMPAT (R377). -/
def execGlbCompat (v : W32) (s : State) : Host.Outcome State Fault Refusal :=
  .next (s.regWrite 0 F.glbCompatE7.addr false v.toNat)

/-- REGISTER_WRITE. -/
def execRegisterWrite (i : FnId) (addr : BitVec 28) (wide : Bool) (v : W64) (s : State) : Host.Outcome State Fault Refusal :=
  .next (s.regWrite i addr.toNat wide v.toNat)

/-- INS_UPDATE (R335): the manager has no such register. -/
def execInsUpdate (i : FnId) (v : W32) (s : State) : Host.Outcome State Fault Refusal :=
  .next (if (i : Nat) = 0 then s else s.regWrite i 8 false v.toNat)

/-- INS_MBX_ACK (R359). -/
def execInsMbxAck (i : FnId) (seq : W32) (s : State) : Host.Outcome State Fault Refusal :=
  .next (if (i : Nat) = 0 then s else s.regWrite i 0x10 false seq.toNat)

/-- CONFIG_EPOCH_APPLY (R368): every group that is due applies, one with a kerf-class block in the Commit phase, from kerf tick
L - 4 on (04_cutlists.md R114). In the Commit phase of a swap kerf the swap goes first, so kerf-class groups wait for it there
(04_cutlists.md R144). -/
def execConfigEpochApply (s : State) : Host.Outcome State Fault Refusal :=
  .next (
    let waits : ApplyGroup → Bool := fun g => s.scheduled && s.swapsNow && g.blocks.any kerfBlock
    let due := s.regs.pend.filter (fun g => s.groupDue g && !waits g)
    let s := if s.scheduled ∧ due.any (fun g => g.blocks.any kerfBlock) then s.reachTick (s.run.since + s.kerfLength - 4) else s
    due.foldl State.applyGroup s)

/-- MSIX_VECTOR_UNMASK (R324): a vector's mask, by a write to the function's BAR, or the Function Mask, by a configuration write,
clears, and a pending message leaves. In D3hot the BARs take no write (R328, R329). -/
def execMsixVectorUnmask (i : FnId) (vec : Option (BitVec 8)) (s : State) : Host.Outcome State Fault Refusal :=
  .next (
    match vec with
    | some v =>
      let e := Tab.get MsixEntry.init (s.fn i).msix v.toNat
      if v.toNat < (s.fn i).vectors ∧ s.barAnswers i ((if (i : Nat) = 0 then 0x580000 else 0x70000) + 16 * v.toNat) then (s.setVector i v.toNat { e with masked := false }).sendPending i v.toNat else s
    | none =>
      if s.host.published ∧ ((i : Nat) = 0 ∨ s.insState i ≠ 0) then (s.setFn i { s.fn i with fmask := false }).sendAllPending i
      else s.retryConfig i)

end Sys2Proof.Machine
end

