-- ==== Sys2Proof/Machine/Debug.lean ====
section
/-! DEFINITION. Sequencer sampling and the JTAG port (21_debug.md R527, R531, R532). -/

namespace Sys2Proof.Machine

/-! ### Sampling (R527) -/

/-- The state code of bench b. A bank wait is a wait within an instruction's issue, which the model runs in one step, so whether a
sample falls into one is a free value (log 8). -/
def State.samplerState (s : State) (b : Nat) : Nat :=
  if s.fld (F.bncStatusFault b) ≠ 0 then 8
  else if s.run.phase.inKerf ∧ s.runningBenches.contains b then 7
  else if s.flag (F.bncStatusOpen b) then 6
  else match (s.bench b).stall with
    | some (c, _) => if c = 16 then 3 else if c = 17 then 5 else 4
    | none => if ¬ s.flag (F.bncStatusRunning b) then 0 else if s.freeBits 1 = 1 then 2 else 1

/-- The first tick at or after t that is a multiple of a period from an origin. -/
def sampleTick (origin period t : Nat) : Nat := if t ≤ origin then origin else origin + ceilDiv (t - origin) period * period

/-- The benches that are sampled. -/
def State.sampledBenches (s : State) : List Nat :=
  (maskBenches (s.fld F.dbgCtrlClusters)).filter (fun b => s.flag (F.bncStatusPresent b))

/-- PC_SAMPLE (R527): at the next sample tick, counted from tick 0 of the run or of the L4, every selected bench gives its
record. -/
def execPcSample (s : State) : Host.Outcome State Fault Refusal :=
  .next (
    if s.hasRight 0 ∧ s.flag F.dbgCtrlSample then
      let origin := if s.scheduled then s.run.firstTick else 0
      let s := s.reachTick (sampleTick origin (2 ^ s.fld F.dbgCtrlPeriodLog2) s.plain.tick)
      s.sampledBenches.foldl (fun s b =>
        s.bumpFree.dbgRecord 1 (s.samplerState b) b ((s.bench b).slot % 2 ^ 12 + s.run.pass % 2 ^ 32 * 2 ^ 12)) s
    else s)

/-! ### JTAG (R531) -/

/-- BYPASS: the one-bit bypass register, 0. -/
def execBypass (s : State) : Host.Outcome State Fault Refusal := .next (s.emit (.jtag [0]))

/-- IDCODE: the 32 bits are not stated, a free value (log 7). -/
def execIdcode (s : State) : Host.Outcome State Fault Refusal :=
  .next (s.bumpFree.emit (.jtag (leBytes 4 (s.freeBits 32).toNat)))

/-- The boundary register shifts out: what the pins carry is not stated, a free value (log 7). -/
def State.shiftBoundary (s : State) : State := s.bumpFree.emit (.jtag (leBytes 64 (s.freeBits 512).toNat))

/-- SAMPLE/PRELOAD: with right 3; without it the instruction selects BYPASS. -/
def execSamplePreload (s : State) : Host.Outcome State Fault Refusal :=
  .next (if s.hasRight 3 then s.shiftBoundary else s.emit (.jtag [0]))

/-- EXTEST: with right 3 and only while UNBOUND. -/
def execExtest (s : State) : Host.Outcome State Fault Refusal :=
  .next (if s.hasRight 3 ∧ s.secState = 0 then s.shiftBoundary else s.emit (.jtag [0]))

/-- DBGREG (R531): with right 3, 4 or 8 aligned bytes of the DBG block, 8 where the offset is a multiple of 8; a write goes as the manager's does (DEDUCED, log 21). -/
def execDbgreg (off : BitVec 8) (write : Bool) (v : W64) (s : State) : Host.Outcome State Fault Refusal :=
  .next (
    let a := 0xD00000 + off.toNat
    if ¬ s.hasRight 3 then s.emit (.jtag [0])
    else if off.toNat % 4 ≠ 0 then s
    else if write then
      let wide := decide (off.toNat % 8 = 0)
      let ws := writeWords 0 a wide v.toNat
      if ws.any (fun (row, b, v) => s.rvChange row b v) then s.count F.glbRverrCount 1
      else ws.foldl (fun s (row, b, v) => s.writeReg 0 row b v) s
    else s.emit (.jtag (leBytes 8 (s.readWord a + (if off.toNat % 8 = 0 then s.readWord (a + 4) * 2 ^ 32 else 0)))))

end Sys2Proof.Machine
end

