-- ==== Sys2Proof/Machine/OpsFreeze.lean ====
section
/-! DEFINITION. Freezing an instance and its migration image (12_rings.md R353 to R356; 10_tenancy.md R306 to R308). -/

namespace Sys2Proof.Machine

/-! ### FREEZE (R354) -/

/-- An instance changes its state, with the INSTANCE event (R360). -/
def State.setInstance (s : State) (i st : Nat) : State := (s.setFld (F.insStatusState i) st).event 0 0x0D i st

/-- No started operation of function i is left, but for receive buffers that wait for a message or a frame. -/
def State.drained (s : State) (i : Nat) : Bool :=
  (s.fn i).rings.all (fun (r, q) => s.ringKind i r == 4 || s.ringKind i r == 6 || q.flight.all (fun f => f.done.isSome))

/-- Instance i is FREEZING, has drained, and its partitions have stopped. -/
def State.frozenNow (s : State) (i : Nat) : Bool :=
  s.insState i == 2 && s.drained i && (s.ownedParts i).all (fun p => !(s.part p).runs)

/-- Every FREEZE whose instance has come to rest completes. -/
def State.settleFreezes (s : State) : State :=
  (List.range 64).foldl (fun s i =>
    match (s.fn i).freeze with
    | none => s
    | some o =>
      if s.frozenNow i then ((s.setFn i { s.fn i with freeze := none }).setInstance i 3).complete o Status.ok 0 else s) s

/-! ### The image (R355) -/

/-- Registers of instance i's rings, by offset in its page. -/
def State.ringRegs (s : State) (i : Nat) : Tab Nat :=
  (s.regs.val.filter (fun p => decide (0x100000000 * i + 0x1000 ≤ p.1 ∧ p.1 < 0x100000000 * i + 0x5000))).map (fun p =>
    (p.1 - 0x100000000 * i, p.2))

/-- A region with its bytes and poisoned lines, read line by line through the cipher engine as sealed host DMA reads it
(01_architecture.md R29; 07_memory.md R205, R210, R215); a stack that is not present gives nothing. -/
def State.regionImage (s : State) (r : Region) : (Nat × Nat × List Byte × List Nat) × State :=
  if s.unitPresent r.memUnit then
    let (bytes, bad, s) := s.readLines (.cipher true) r.memUnit (r.addr / 64) (r.size / 64)
    ((r.memUnit, r.addr, bytes, bad), s)
  else ((r.memUnit, r.addr, [], []), s)

/-- The memory of an image, region by region, and the state. -/
def State.imageMemory (s : State) (rs : List Region) : List (Nat × Nat × List Byte × List Nat) × State :=
  rs.foldl (fun acc r => let (x, s) := acc.2.regionImage r; (acc.1 ++ [x], s)) ([], s)

/-- The benches of an image, with their stores, and the state. -/
def State.imageBenches (s : State) (bs : List Nat) : List (Nat × Bench) × State :=
  bs.foldl (fun acc b =>
    let (store, bad, s) := acc.2.storeOut b
    (acc.1 ++ [(b, { s.bench b with store := store, poison := bad, ue := [], ce := [] })], s)) ([], s)

/-- What the image of instance i holds, whether a line of it is poisoned, and the state. -/
def State.imageItems (s : State) (i : Nat) : Saved × Bool × State :=
  let ps := s.ownedParts i
  let x := s.collect i (listMask ps)
  let x := { x with
    regs := s.ringRegs i, held := (s.fn i).rings, grants := (s.fn i).grants
    lists := ps.map (fun p => (p, (s.part p).mates, (s.part p).list, (s.part p).retained))
    runs := (s.run :: s.stowed).filter (fun r => ps.any (bitOf r.parts)) }
  let (benches, s) := s.imageBenches (x.benches.map Prod.fst)
  let (memory, s) := s.imageMemory (ps.flatMap s.heldRegions)
  ({ x with benches := benches, memory := memory }, benches.any (fun p => p.2.poison != []) || memory.any (fun m => m.2.2.2 != []), s)

/-- The label of an image key (R290, R308). -/
def imageLabel (r : BindRec) (index gen : Nat) : List Byte := mkLabel r.tenantId 0xFFFF 0x0B 1 index gen

/-- The IV of chunk j (R306). -/
def imageIv (j : Nat) : List Byte := leBytes 8 j ++ leBytes 4 0

/-- Cluster masks of the partitions of instance i, by slot. -/
def State.imageClusters (s : State) (i : Nat) : List Byte :=
  allParts.flatMap (fun p => leBytes 2 (if (s.part p).owner = some i then (s.part p).clusters else 0))

/-- The header in clear (R355). -/
def State.imageHeader (s : State) (i index gen length chunks : Nat) : List Byte :=
  leBytes 4 0x4E47494D ++ leBytes 2 1 ++ leBytes 2 i ++ leBytes 4 index ++ leBytes 4 gen ++ leBytes 8 length ++ leBytes 4 chunks
    ++ s.imageClusters i ++ beBytes 3 s.runningRelease ++ leBytes 1 0 ++ leBytes 24 0

/-! ### Restoring (R356) -/

/-- The header's format; its reserved bytes are ignored (00_scope.md R9). -/
def goodImage (h : List Byte) (len : Nat) : Bool :=
  let n := fieldLE h 0x10 8
  let c := fieldLE h 0x18 4
  fieldLE h 0 4 == 0x4E47494D && fieldLE h 4 2 == 1 && decide (n ≤ len) && decide (64 + 16 * c < n)
    && c == ceilDiv (n - 64 - 16 * c) 0x400000

/-- Ring registers and rings of an image take the places of those of instance i. -/
def State.putRings (s : State) (i : Nat) (x : Saved) : State :=
  let old : Nat × Nat → Bool := fun p => decide (0x100000000 * i + 0x1000 ≤ p.1 ∧ p.1 < 0x100000000 * i + 0x5000)
  let s : State := { s with regs := { s.regs with
    val := s.regs.val.filter (fun p => !old p), cpB := s.regs.cpB.filter (fun p => !old p), cpC := s.regs.cpC.filter (fun p => !old p) } }
  let s := x.regs.foldl (fun s (off, v) =>
    let a := 0x100000000 * i + off
    { s with regs := { s.regs with val := Tab.set (regReset a) s.regs.val a v } }) s
  let s := s.setFn i { s.fn i with rings := x.held }
  { s with host := { s.host with enabled := s.host.enabled + ((List.range 256).filter (s.ringEnabled i)).length } }

/-- The translation table: the image's grants, without units that another instance holds here (DESIGN CHOICE, log 16). -/
def State.putGrants (s : State) (i : Nat) (gs : List Grant) : State :=
  let free : Grant → Bool := fun g => match s.holderOf g.kind g.unit with
    | none => true
    | some j => j == i
  s.setFn i { s.fn i with grants := gs.filter free }

/-- One partition: its cutlist, programs and regions. -/
def State.putPart (s : State) (x : Nat × Nat × Option Cutlist × List Region) : State :=
  let (p, mates, l, retained) := x
  let roles := (l.map Cutlist.roles).getD 0
  let rs := ((l.map Cutlist.regions).getD []) ++ retained
  let s := rs.foldl (fun s r => s.holdRegion p (r.isPool roles) false r) s
  let s := match l with
    | none => s
    | some l => (s.loadPrograms (s.part p).clusters l).wakeStacks l
  s.setPart p { s.part p with
    state := if l.isSome then .stopped else .empty, mates := mates, list := l, staged := none, retained := retained, halted := false }

/-- The lines of a region, poisoned ones as poison, written through the cipher engine. -/
def State.putRegion (s : State) (x : Nat × Nat × List Byte × List Nat) : State :=
  let (u, a, bytes, bad) := x
  (s.zeroRange u a bytes.length).writeLines (.cipher true) u bad (a / 64) (ceilDiv bytes.length 64) bytes

/-- A whole image takes its place: the instance's partitions are STOPPED at the saved positions. -/
def State.putImage (s : State) (i : Nat) (x : Saved) : State :=
  let s := (s.putRings i x).putGrants i x.grants
  let s := x.lists.foldl State.putPart s
  let s := x.memory.foldl State.putRegion s
  let s := x.benches.foldl (fun s (b, y) => s.storeIn b y.store y.poison) s
  let runs := x.runs.map (fun r => { Run.init with parts := r.parts, pass := r.pass, cut := r.cut, epoch := r.epoch, kerfs := r.kerfs })
  { s.putItems x with stowed := runs ++ s.stowed }

/-- The image's rings fit under the device's 4,096 enabled rings (R334; that an image with more has no room: DESIGN CHOICE, log
30). -/
def State.ringsFit (s : State) (i : Nat) (x : Saved) : Bool := decide ((s.putRings i x).host.enabled ≤ 4096)

/-- No region of an image lies in memory that a partition of another owner holds. -/
def State.regionsFree (s : State) (i : Nat) (x : Saved) : Bool :=
  x.regions.all (fun r => r.granules.all (fun g =>
    match (s.granule r.memUnit g).owner with
    | none => s.unitPresent r.memUnit
    | some p => (s.part p).owner == some i))

/-- The partitions of instance i are EMPTY and carry the image's clusters. -/
def State.imageFits (s : State) (i : Nat) (h : List Byte) : Bool :=
  (s.ownedParts i).all (fun p => (s.part p).state == .empty) && bytesAt h 0x1C 8 == s.imageClusters i

end Sys2Proof.Machine
end

