-- ==== Sys2Proof/Machine/OpsTenant.lean ====
section
/-! DEFINITION. Binding, the unbind, and debug rights (10_tenancy.md R286 to R299, R309, R310; 21_debug.md R524). -/

namespace Sys2Proof.Machine

/-! ### The binding state (R286) -/

/-- The state changes; every change posts a BINDING event (DEDUCED, log 20). -/
def State.setSecState (s : State) (v : Nat) : State := (s.setFld F.secStatusState v).event 0 0x09 0 v

/-! ### Debug rights (R310; 21_debug.md R523, R524) -/

/-- V39 is enabled and powered, or off. -/
def State.debugValley (s : State) (on : Bool) : State := (s.setFlag (F.vlyStateEnable 39) on).powerValley 39 on

/-- Every debug right ends: what has not been written is discarded, and the DBG registers return to their reset values. -/
def State.dropDebug (s : State) : State :=
  let s := s.setFlag F.secStatusDebug false
  let s : State := { s.dropRegs (fun a => decide (0xD00000 ≤ a ∧ a < 0xD10000)) with
    dbg := Dbg.init, sec := { s.sec with notAfter := 0 } }
  let s := (s.benches.map Prod.fst).foldl (fun s b => s.setBench b { s.bench b with ctrs := [] }) s
  s.debugValley false

/-- The same where rights hold. -/
def State.endDebug (s : State) : State := if s.flag F.secStatusDebug then s.dropDebug else s

/-- A ticket's rights hold. -/
def State.beginDebug (s : State) (rights notAfter : Nat) : State :=
  let s := (s.setFlag F.secStatusDebug true).setFld F.dbgStatusRights rights
  { s with sec := { s.sec with notAfter := notAfter } }.debugValley true

/-! ### Keys in the line ciphers -/

/-- Every stack's cipher holds keys, or none. -/
def State.setKeyed (s : State) (v : Bool) : State := ((List.range 12).filter (fun k => !s.flag (F.memStatusMappedOut k))).foldl (fun s k => s.setFlag (F.memStatusKeyed k) v) s

/-- HBM zeroized under its keys (07_memory.md R218). -/
def State.zeroHbm (s : State) : State := (List.range 12).foldl (fun s k => s.zeroUnit (stackUnit k)) s

/-! ### Answers (R294) -/

/-- A response on the DOE mailbox of function i. -/
def State.answer (s : State) (i code : Nat) (bytes : List Byte) : State := (s.raiseFw 0 1).emit (.doe i code bytes)

/-- Session n. -/
def State.session (s : State) (n : Nat) : Session := Tab.get Session.init s.sec.sessions n
/-- Replacing session n. -/
def State.setSession (s : State) (n : Nat) (x : Session) : State :=
  { s with sec := { s.sec with sessions := Tab.set Session.init s.sec.sessions n x } }

/-- Session n closes; the answer of a bind or an unbind that it has asked for goes to no one (R296). -/
def State.closeSession (s : State) (n : Nat) : State :=
  let lost : BindWork → BindWork := fun w => if w.reply = .session n then { w with reply := .nobody } else w
  { s.setSession n Session.init with sec := { (s.setSession n Session.init).sec with work := s.sec.work.map lost } }

/-- The response to a vendor-defined message: Ihlangen's vendor identifier, the request's code, a status, and content (R294). -/
def State.vendorAnswer (s : State) (i code status : Nat) (content : List Byte) : State :=
  s.answer i 0x7E (Config.vendorId ++ leBytes 1 code ++ leBytes 1 status ++ content)

/-- A bind or an unbind has ended: its answer goes out. -/
def State.replyBind (s : State) (w : BindWork) : State :=
  match w.reply with
  | .nobody => s
  | .manager => s.setFld F.secStatusResult Status.ok
  | .session n =>
    if w.unbind then s.vendorAnswer (s.session n).fn 0x03 Status.ok [] else s.vendorAnswer (s.session n).fn 0x02 Status.ok s.bindingDigest

/-! ### Records in the lifetime log (R296, R298; 17_time.md R474) -/

/-- Bytes at an offset of the region whose layout, or whose ciphertext, is not stated: free values (log 12). -/
def State.logOpaque (s : State) (off n : Nat) : State :=
  (s.flashWrite (logBase + off) (leBytes n (s.freeBits (8 * n)).toNat)).bumpFree

/-- Where the records of generation g lie in the 64 KiB of binding and void records (DESIGN CHOICE, log 12). -/
def bindingSlot (g : Nat) : Nat := g % 128 * 512

/-- The binding record: request and device nonce, encrypted and tagged. -/
def State.recordBinding (s : State) (r : BindRec) : State :=
  let s := if r.g % 128 = 0 then { s with fw := { s.fw with flash := Memory.zero s.fw.flash logBase 0x10000 } } else s
  { s.logOpaque (bindingSlot r.g) 400 with sec := { s.sec with record := some r } }

/-- The void record cancels it. -/
def State.voidBinding (s : State) : State :=
  let s := match s.sec.record with
    | some r => s.logOpaque (bindingSlot r.g + 448) 64
    | none => s
  { s with sec := { s.sec with record := none, journal := [] } }

/-- A journal record of the unbind: point n has been reached. The first one erases the old journal. -/
def State.journalPoint (s : State) (n : Nat) : State :=
  let s := if n = 1 then { s with fw := { s.fw with flash := Memory.zero s.fw.flash (logBase + 0x10000) 0x10000 } } else s
  { s.logOpaque (0x10000 + 64 * (n - 1)) 64 with sec := { s.sec with journal := s.sec.journal ++ [n] } }

/-! ### The unbind (R298) -/

/-- A rule set without the rules of sealed flows. -/
def dropSealed (rs : List Byte) : List Byte :=
  let keep := ((List.range (ruleCount rs)).map (ruleAt rs)).filter (fun r => !(fieldLE r 0x32 1 == 1 && bitOf (fieldLE r 0x33 1) 1))
  if rs = [] then [] else rs.take 4 ++ leBytes 2 keep.length ++ (rs.take 0x240).drop 6 ++ keep.flatten

/-- Step 3 but for HBM: bench stores, result buffers, tenant regions and near store are zeroized; queue pairs, classifier rules
of tenant flows and namespaces are cleared. -/
def State.wipeTenant (s : State) : State :=
  let s := (List.range 160).foldl State.clearBenchStatus s
  let s : State := { s with benches := [], clusters := [] }
  let s := (List.range 16).foldl (fun s c => if (s.core (5 + c)).tcm = [] then s else s.loadWindow c []) s
  let s := (List.range 4).foldl State.zeroUnit s
  let s := (s.rma.qps.map Prod.fst).foldl State.qpReset s
  let s := [0, 1].foldl (fun s p => s.setPort p { s.port p with
    rules := dropSealed (s.port p).rules, next := (s.port p).next.map dropSealed }) s
  { s with
    rma := { s.rma with regs := [] }
    shelf := { s.shelf with blocks := [], page := [], size := [], formatting := [], cmds := [], expected := [] } }

/-- Step 4: the crypto-erase. -/
def State.cryptoErase (s : State) : State :=
  let s := s.setKeyed false
  { s with
    sec := { s.sec with cache36 := [], cache37 := [] }
    eth := { s.eth with keys := [] } }

/-- Quarter q of every stack is zeroized: HBM is journalled at each 16 GiB. -/
def State.zeroQuarter (s : State) (q : Nat) : State :=
  (List.range 12).foldl (fun s k => s.zeroRange (stackUnit k) (q * 2 ^ 34) (2 ^ 34)) s

/-- Step 1: UNBINDING; a member of a formed Plain raises a halt and names itself, in a run by its halt kerf and report
(06_plain.md R192). A level that runs completes first (19_recovery.md R504). -/
def State.beginUnbind (s : State) : State :=
  let s := (s.setSecState 4).endDebug
  if ¬ s.inPlain then s
  else if s.scheduled then s.raiseHalt ⟨2, 0x0B, 0, .parts s.setMask, 0⟩
  else s.tellHalt 0x0B 0

/-- Step 2: every instance is fenced and reset as by FLR. -/
def State.resetInstances (s : State) : State :=
  ((List.range 64).filter (fun i => i != 0 && s.insState i != 0)).foldl (fun s i => s.resetInstance i 0x0B 0) s

/-- Point n of the unbind: 1 and 2 are its first steps, 3 the wipe but for HBM, 4 to 7 the quarters of HBM, 8 the crypto-erase,
9 the void record. -/
def State.unbindPoint (s : State) (n : Nat) : State :=
  if n = 1 then s.beginUnbind.journalPoint 1
  else if n = 2 then s.resetInstances.journalPoint 2
  else if n = 3 then s.wipeTenant.journalPoint 3
  else if n ≤ 7 then (s.zeroQuarter (n - 4)).journalPoint n
  else if n = 8 then s.cryptoErase.journalPoint 8
  else s.voidBinding.setSecState 0

/-! ### BIND (R295, R296) -/

/-- The checks of R295 in order, and NO_SPACE where every bit of the counter is blown (R293). -/
def State.bindFault (s : State) (nonce : Option (List Byte)) (q : List Byte) : Option Nat :=
  let r : BindRec := ⟨q, [], 0⟩
  if s.secState ≠ 1 then some Status.badDescriptor
  else if q.length ≠ 352 ∨ fieldLE q 0 4 ≠ 0x444E4942 ∨ fieldLE q 0xB9 7 ≠ 0 ∨ fieldLE q 0xE0 32 ≠ 0 ∨ 4 ≤ r.policy then some Status.badDescriptor
  else if fieldLE q 4 2 ≠ 1 then some Status.versionMismatch
  else if nonce ≠ some (bytesAt q 8 32) ∨ bytesAt q 0x28 48 ≠ Crypto.sha384 s.mfg.deviceKey then some Status.integrity
  else if ¬ Crypto.ecdsaVerify r.tenantKey (q.take 256) (bytesAt q 256 96) then some Status.integrity
  else if 4096 ≤ s.mfg.bindings then some Status.noSpace
  else none

/-- The record of a binding request with the generation that the counter gives. -/
def State.bindRec (s : State) (q : List Byte) : BindRec := ⟨q, bytesAt q 8 32, s.mfg.bindings⟩

/-- Step n of R296. -/
def State.bindPoint (s : State) (q : List Byte) (n : Nat) : State :=
  if n = 1 then
    let s := (s.setSecState 2).endDebug
    ({ s with mfg := { s.mfg with bindings := s.mfg.bindings + 1 } }).setFld F.secStatusBindings (s.mfg.bindings + 1)
  else if n = 2 then s.recordBinding (s.bindRec q)
  else if n = 3 then s.setKeyed true
  else if n = 4 then s.zeroHbm
  else (s.setSecState 3).useBound (fun r => [r.checkLabel])

/-- The next step of the bind or unbind that is under way; after the last one its answer goes out. -/
def State.workStep (s : State) : State :=
  match s.sec.work with
  | none => s
  | some w =>
    let n := w.step + 1
    let s := if w.unbind then s.unbindPoint n else s.bindPoint w.request n
    if (if w.unbind then 9 else 5) ≤ n then { s with sec := { s.sec with work := none } }.replyBind w
    else { s with sec := { s.sec with work := some { w with step := n } } }

/-- n steps. -/
def State.workSteps (s : State) : Nat → State
  | 0 => s
  | n + 1 => s.workStep.workSteps n

/-- A bind or an unbind begins from the step after w.step, and n of its steps, at least one, are done at once; the rest follow one
to a tick while nothing is commanded (log 12). -/
def State.startWork (s : State) (w : BindWork) (n : Nat) : State :=
  ({ s with sec := { s.sec with work := some w } }).workSteps (max 1 n)

/-- An unbind from its first step to its last. -/
def State.runUnbind (s : State) : State := s.startWork ⟨true, 0, [], .nobody⟩ 9

/-- The binding whose tenant may unbind: the recorded one, or that of a bind under way. -/
def State.tenantRecord (s : State) : Option BindRec :=
  match s.sec.record, s.sec.work with
  | some r, _ => some r
  | none, some w => if w.unbind then none else some (s.bindRec w.request)
  | none, none => none

/-! ### After a reset (R299) -/

/-- What the security core does before it publishes the Resource Table: a binding whose record is durable is completed or keyed
again, one without a record is over, and an unbind that has started re-derives its keys and resumes at its last journal
point; the crypto-erase runs again over keys that are re-derived. -/
def State.resumeBinding (s : State) : State :=
  match s.secState, s.sec.record with
  | 4, r => (if r.isSome then s.setKeyed true else s).startWork ⟨true, min 7 (s.sec.journal.foldl max 0), [], .nobody⟩ 9
  | 2, none => s.setSecState 0
  | 2, some _ => ((s.setKeyed true).zeroHbm).setSecState 3
  | 3, _ => (s.setKeyed true).zeroHbm
  | _, _ => s

end Sys2Proof.Machine
end

