-- ==== Sys2Proof/Machine/Recover.lean ====
section
/-! DEFINITION. Recovery levels and the recovery commands (19_recovery.md R492 to R504). -/

namespace Sys2Proof.Machine

/-! ### Levels (R495, R497) -/

/-- The next level over the smallest scope of that level that contains the old scope: above a neighbour that differs or is silent
stands the link to it (DEDUCED, log 30). -/
def State.escalation (s : State) (level : Nat) (sc : Scope) : Nat × Scope :=
  if level = 0 then
    (1, match sc with
      | .cpx c => .core (5 + c)
      | .peer m => ((s.serviceLinks.find? (fun j => s.fld (F.dvtLinkStatusPeerMember j) == m)).map Scope.link).getD .nothing
      | x => x)
  else if level = 1 then
    match sc with
    | .nothing => if s.setMask = 0 then (4, .device) else (2, .parts s.setMask)
    | .core k =>
      if k < 5 then (4, .device)
      else (match s.clusterPart (k - 5) with
        | some p => (2, .parts (2 ^ p))
        | none => (3, .device))
    | .link _ => (4, .device)
    | .engine _ => (4, .device)
    | x => if s.scopeParts x ≠ 0 then (2, .parts (s.scopeParts x))
      else (match scopeValley x with
        | some v => if v < 20 then (3, .device) else (4, .device)
        | none => (3, .device))
  else if level = 2 then (3, .device)
  else (4, .device)

/-- Every level below L4 with nothing outstanding in its scope finishes. -/
def State.settleLevels (s : State) : State :=
  s.rcv.levels.foldl (fun s l =>
    if l.level < 4 ∧ s.rcv.levels.contains l ∧ s.scopeQuiet l.level l.seen.trouble.scope then s.finishLevel l else s) s

/-- Steps 1 to 3 of the fence of an L4, up to its bound: what is outstanding completes with FENCED, and the completions are written,
which needs the host link (R498; that the link is down with PERST_N low: DEDUCED, log 30). -/
def State.fenceDevice (s : State) : State :=
  let s := s.setFence true .device
  if s.pins.perst then (s.fenceScope 4 .device).writeCpls else s

/-- L4: the device is fenced, captured and reset; its record is written when the boot is done. -/
def State.startL4 (s : State) (seen : Seen) (escalated : Bool) (prev : Nat) : State :=
  let l := s.newLevel 4 seen .device escalated prev
  let s := s.fenceDevice
  let l := { l with cap := s.capture 4 .device }
  let s := s.warmReset
  let s := { s with rcv := { s.rcv with levels := [l] } }
  (s.count (F.rcvCountCount 4) 1).showLevel 4 seen.trouble.cause

/-- Running levels that a wider level abandons, with their captures; the seq of the last record written for them. -/
def State.abandon (s : State) (level : Nat) (sc : Scope) : Nat × State :=
  let gone := s.rcv.levels.filter (fun l => decide (l.level < level) && s.scopeIn l.seen.trouble.scope sc)
  let s := gone.foldl (fun s l =>
    (s.setFence false l.seen.trouble.scope).closeLevel { l with cap := s.capture l.level l.seen.trouble.scope }) s
  (if gone = [] then 0 else s.rcv.seq, s)

/-- A level begins: the fence is set, a checkpoint that covers a fenced partition is abandoned, and the level finishes as
soon as nothing is outstanding. -/
def State.beginLevel (s : State) (seen : Seen) (level : Nat) (sc : Scope) (escalated : Bool) (prev : Nat) : State :=
  let (p, s) := s.abandon level sc
  let prev := if prev = 0 then p else prev
  if 4 ≤ level then s.startL4 seen (escalated || p != 0) prev
  else
    let l := s.newLevel level seen sc (escalated || p != 0) prev
    let s := (s.count (F.rcvCountCount level) 1).setFence true sc
    let s := { s with rcv := { s.rcv with levels := s.rcv.levels ++ [l] } }
    let s := s.showLevel level seen.trouble.cause
    let s := match s.run.take with
      | some t => if 2 ≤ level ∧ t.mask &&& s.scopeParts sc ≠ 0 then s.failTake Status.fenced else s
      | none => s
    s.settleLevels

/-! ### Power cycle (R503) -/

/-- Times of a list that lie within the last hour. -/
def lastHour (now : Nat) (ts : List Nat) : List Nat := ts.filter (fun t => decide (now ≤ t + 3600000000000))

/-- L5 is requested: the record, the lifetime log, the critical event, and the pulse on TRAY_PWRCYC_N. -/
def State.requestL5 (s : State) (seen : Seen) : State :=
  let s := s.count (F.rcvCountCount 5) 1
  let s := s.writeRecord { s.newLevel 5 seen .device false 0 with cap := s.capture 5 .device }
  let s := (s.critical 0x06 0).emit (.pin "TRAY_PWRCYC_N" false)
  { s with
    rcv := { s.rcv with l5Pending := true, l5Times := s.now :: lastHour s.now s.rcv.l5Times }
    pins := { s.pins with pwrcyc := some s.now } }

/-- TRAY_PWRCYC_N goes high again 200 ms after it went low. -/
def State.endPwrcyc (s : State) : State :=
  match s.pins.pwrcyc with
  | none => s
  | some t => if t + 200000000 ≤ s.now then ({ s with pins := { s.pins with pwrcyc := none } }).emit (.pin "TRAY_PWRCYC_N" true) else s

/-! ### Serving faults (R497, R504) -/

/-- A fault is served: absorbed by a running level that covers it, raised one level where the same scope finished the
same level for a fault at most a second older, or served at its first level (R497, R504). -/
def State.serve (s : State) (seen : Seen) : State :=
  let t := seen.trouble
  if t.cause = 0x05 ∧ t.detail = 0 ∧ s.rcv.levels.any (fun l => l.level == 4) then s.requestL5 seen
  else match s.rcv.levels.find? (fun l => decide (t.level ≤ l.level) && s.scopeIn t.scope l.seen.trouble.scope) with
  | some l => s.count (F.rcvCountCount l.level) 1
  | none =>
    match s.rcv.done.find? (fun d => d.level == t.level && d.scope == t.scope && t.scope != .nothing && decide (seen.at_ ≤ d.time + 1000000000)) with
    | some d => let (level, sc) := s.escalation t.level t.scope; s.beginLevel seen level sc true d.seq
    | none => s.beginLevel seen t.level t.scope false 0

/-- Every fault that waits is served. -/
def State.serveReports (s : State) : State :=
  let fs := s.rcv.faults
  (fs.foldl State.serve { s with rcv := { s.rcv with faults := [] } }).settleLevels

/-- The next GiB of blocks of a sanitize that runs has been erased, and is journalled in the sanitize area (14_shelf.md R408). With its
supply off or before its core runs the shelf does nothing. How long
it takes is not modelled: one GiB a tick of the idle block (DESIGN CHOICE, log 28). -/
def State.sanitizeOn (s : State) : State :=
  let n := s.shelf.erased
  if ¬ s.flag F.shfSanitizeActive ∨ ¬ s.railsGood ∨ ¬ (s.core 3).alive ∨ s.sanitizeGib ≤ n then s
  else
    let s : State := { s with shelf := { s.shelf with erased := n + 1 } }
    let s : State := if n % 1024 = 0 then { s with fw := { s.fw with flash := Memory.zero s.fw.flash (logBase + 0x20000) 0x10000 } } else s
    (s.logOpaque (0x20000 + 64 * (n % 1024)) 64).showSanitize

/-- With nothing commanded one group tick passes; movers go on with their transfers, page commits apply where no kerf occurs, firmware maps out stacks where no kerf occurs (13_registers.md R372), recovery serves what has been detected,
freezes end, a bind or an unbind takes its next step, a sanitize goes on, and the security and scheduler cores see their lines (log 1). -/
def State.idle (s : State) : State := 
  let s := s.passTicks 1
  let s := s.benches.foldl (fun s p => s.moveOn p.1) s
  let s := if s.scheduled then s else s.runCommits
  let s := (if s.scheduled then s else (List.range 12).foldl State.firmwareMapOut s).serveReports.settleFreezes.workStep.sanitizeOn.settleTake.stepRestores.settleLow.endPwrcyc.dbgDrain
  (s.pollInterrupt 0).pollInterrupt 2

/-- Outstanding operations of every running level complete with FENCED. -/
def State.fenceAll (s : State) : State := s.rcv.levels.foldl (fun s l => s.fenceScope l.level l.seen.trouble.scope) s

/-- An L4 is done: its record is written. -/
def State.finishL4 (s : State) : State := (s.rcv.levels.filter (fun l => l.level == 4)).foldl State.closeLevel s

/-! ### Commands -/

/-- A fault of valley v: with a halt where scheduled work is touched (R493). -/
def State.valleyFault (s : State) (t : Trouble) : State := if s.touches t.scope then s.haltNow t else (s.addFault t).serveReports

/-- The manager's request of a level: with a halt where it touches scheduled work, and for an L2 in a Plain of more than one member
wherever one runs (R493, R497). -/
def State.requestLevel (s : State) (t : Trouble) : State :=
  if s.touches t.scope ∨ (t.level = 2 ∧ s.inPlain ∧ s.scheduled) then s.haltNow t else (s.addFault t).serveReports

/-- RCV_REQUEST (R497): the manager's request of L2 to L5; one of L4 supersedes a level that runs (R504). -/
def execRcvRequest (s : State) : Host.Outcome State Fault Refusal :=
  .next (
    if s.request 12 = 1 then
      let s := s.setRequest 12 0
      let level := s.fld F.rcvCtrlLevel
      let p := s.fld F.rcvCtrlPartition
      let seen := s.see ⟨level, 0x09, level, .device, 0⟩
      if (s.flag F.rcvStatusActive ∧ level ≠ 4) ∨ level < 2 ∨ 5 < level then s.setFld F.rcvResultResult Status.badDescriptor
      else if level = 2 ∧ (s.part p).list.isNone ∧ (s.part p).retained = [] then s.setFld F.rcvResultResult Status.doesNotFit
      else
        let s := s.setFld F.rcvResultResult Status.ok
        if level = 2 then s.requestLevel ⟨2, 0x09, 2, .parts (2 ^ p), 0⟩
        else if level = 3 then s.requestLevel ⟨3, 0x09, 3, .device, 0⟩
        else if level = 4 then s.beginLevel seen 4 .device false 0
        else s.requestL5 seen
    else s)

/-- RCV_COPY (R502): record slot n holds the record whose seq is n + 1 modulo 16 (DESIGN CHOICE, log 18). -/
def execRcvCopy (s : State) : Host.Outcome State Fault Refusal :=
  .next (
    if s.request 12 = 2 ∧ s.dmaOk 0 then
      let s := s.setRequest 12 0
      let slot := s.fld F.rcvCtrlSlot
      match s.rcv.records.find? (fun r => (fieldLE r.1 0 4 + 15) % 16 == slot) with
      | none => s.setFld F.rcvResultResult Status.badDescriptor
      | some (rec, cap) =>
        (s.setHostMem (Memory.write s.host.mem (s.fld F.rcvAddrLoAddr + s.fld F.rcvAddrHiAddr * 2 ^ 32) (rec ++ cap))).setFld
          F.rcvResultResult Status.ok
    else s)

/-- LEVEL_TIMEOUT (R497, R503): the level that has run longest starts the next one. An L4 over its bound counts as
failed, once; the second within 1 h requests a power cycle. -/
def execLevelTimeout (s : State) : Host.Outcome State Fault Refusal :=
  .next (
    match s.rcv.levels with
    | [] => s
    | l :: _ =>
      if l.overdue then s
      else if 4 ≤ l.level then
        let failed := s.now :: lastHour s.now s.rcv.l4Failed
        let s := { s with rcv := { s.rcv with
          l4Failed := failed, levels := s.rcv.levels.map (fun x => if x = l then { l with overdue := true } else x) } }
        if 2 ≤ failed.length then s.requestL5 l.seen else s
      else
        let sc := l.seen.trouble.scope
        let s := (s.setFence false sc).closeLevel { l with cap := s.capture l.level sc }
        let (level, wide) := s.escalation l.level sc
        s.beginLevel l.seen level wide true s.rcv.seq)

/-- FENCE_DRAIN_TIMEOUT (R498): what is still outstanding 50 us into a fence completes with FENCED, and the levels go on. -/
def execFenceDrainTimeout (s : State) : Host.Outcome State Fault Refusal := .next s.fenceAll.settleLevels

/-- ENGINE_HEARTBEAT_TIMEOUT (R492): the engine of a ring kind is reset at L1. -/
def execEngineHeartbeatTimeout (kind : BitVec 4) (s : State) : Host.Outcome State Fault Refusal :=
  .next (
    let k := kind.toNat
    if 1 ≤ k ∧ k ≤ 8 then (s.addFault ⟨1, 0x08, k, .engine k, 0⟩).serveReports else s)

/-- PASS_ACK_TIMEOUT (R492): cause VALLEY, L1 of the destination valley's units. -/
def execPassAckTimeout (v : ValleyId) (s : State) : Host.Outcome State Fault Refusal :=
  .next (s.valleyFault ⟨1, 0x07, v, .valley v, 0⟩)

/-- PWRCYC_TIMEOUT (R503): 54 V has not fallen: V38 runs one L4, unless a thermal trip holds the rails off, and requests again, at most 3 times within an hour; after
that every function stays fenced. -/
def execPwrcycTimeout (s : State) : Host.Outcome State Fault Refusal :=
  .next (
    if s.rcv.l5Pending then
      let s := s.endPwrcyc
      let seen := s.see ⟨4, 0x09, 5, .device, 0⟩
      let s := if s.railsGood then s.startL4 seen false 0 else s
      if (lastHour s.now s.rcv.l5Times).length < 4 then s.requestL5 seen
      else { s with rcv := { s.rcv with l5Pending := false, fencedForGood := true } }
    else s)

end Sys2Proof.Machine
end

