-- ==== Sys2Proof/Machine/Endpoint.lean ====
section
/-! DEFINITION. The endpoint: Function Level Reset, virtual functions, power states, wake, DOE and AtomicOps (11_pcie.md
R312 to R333; 12_rings.md R350). -/

namespace Sys2Proof.Machine

/-! ### The endpoint as configuration space shows it (R312, R314) -/

/-- Class code, and Device ID of a function. -/
def pciClass : Nat := 0x120000
/-- The Device ID. -/
def pciDevice (i : Nat) : Nat := if i = 0 then 0x00E9 else 0x00EA
/-- TotalVFs and InitialVFs. -/
def totalVfs : Nat := 63

/-- Max Payload Size (field 0) or Max Read Request Size (field 1) of a function in bytes: 128 to 4,096, as the host has programmed
it (R312; a free value, log 10). -/
def State.hostBytes (s : State) (i field : Nat) : Nat := 128 * 2 ^ ((Config.hostSize i field s.now).toNat % 6)

/-- A base address register: its size, and whether it is 64-bit and prefetchable. -/
structure Bar where
  size : Nat
  wide : Bool
  prefetch : Bool
  deriving DecidableEq, Repr

/-- The BARs of a function by number; 6 is the expansion ROM BAR (R314). -/
def bars (i : Nat) : List (Nat × Bar) :=
  if i = 0 then [(0, ⟨0x10000000, true, false⟩), (2, ⟨0x10000, true, false⟩), (6, ⟨0x100000, false, false⟩)]
  else [(0, ⟨0x100000, true, false⟩), (2, ⟨0x10000, true, false⟩)]

/-- The ring whose doorbell lies at an offset of BAR2 (R314, 12_rings.md R337). -/
def doorbellRing (off : Nat) : Option Nat := if off % 8 = 0 ∧ off < 2048 then some (off / 8) else none

/-! ### Function Level Reset and VF Enable -/

/-- Every instance there is undergoes an FLR and is ABSENT afterwards (R326, 12_rings.md R350). -/
def State.clearInstances (s : State) : State :=
  let s := ((List.range 64).filter (fun i => i != 0 && s.insState i != 0)).foldl (fun s i => s.resetInstanceTo i 0x0A i 0) s
  { s with host := { s.host with vfEnable := false } }

/-- The L3 of a manager FLR (R326): an L3 that runs is used, otherwise one begins; what is outstanding completes, and it
finishes. A run in a Plain of more than one member ends with a halt notice (DESIGN CHOICE, log 20). -/
def State.managerL3 (s : State) : State :=
  let s := if s.rcv.levels.any (fun l => decide (3 ≤ l.level)) then s
    else
      let s := if s.setParts = [] then s else s.announceHalt 0x0A 0
      s.beginLevel (s.see ⟨3, 0x0A, 0, .device, 0⟩) 3 .device false 0
  s.fenceAll.settleLevels

/-- The manager's buffers and pending sets are emptied; values in force stay (13_registers.md R372). -/
def State.emptyBuffers (s : State) : State :=
  ({ s with regs := { s.regs with buf := s.regs.buf.filter (fun w => w.fn != 0), pend := [] } }).showPending

/-- An FLR of the manager: its rings go, an L3 runs, VF Enable clears. The binding stays. The function is in D0, and the lowered
draw of D3hot ends. -/
def State.managerReset (s : State) : State :=
  let s := (s.leaveLowPower.clearFn 0).managerL3
  (s.clearInstances.emptyBuffers).setFlag F.glbStatusBusy false

/-- FLR (R325): of an instance that is there; of function 0 it is the manager's. -/
def execFlr (i : FnId) (s : State) : Host.Outcome State Fault Refusal :=
  .next (
    if ¬ s.host.published then s.retryConfig i
    else if (i : Nat) = 0 then s.managerReset
    else if s.insState i = 0 then s
    else s.resetInstance i 0x0A i)

/-- MANAGER_FLR (R326). -/
def execManagerFlr (s : State) : Host.Outcome State Fault Refusal :=
  .next (if s.host.published then s.managerReset else s.retryConfig 0)

/-- VF_ENABLE (R323, 12_rings.md R350): the instances come to be, ACTIVE, each with the vectors of HIF_MSIX_ALLOC and
an INSTANCE event (R360). -/
def execVfEnable (s : State) : Host.Outcome State Fault Refusal :=
  .next (
    if s.host.published ∧ ¬ s.host.imageless ∧ ¬ s.host.vfEnable then
      let s : State := { s with host := { s.host with vfEnable := true } }
      ((List.range 64).filter (· != 0)).foldl (fun s i =>
        (((s.setFn i { s.fn i with vectors := s.fld (F.hifMsixAllocCount i) }).setFld (F.insStatusState i) 1).showInstance i).event 0 0x0D i 1) s
    else s.retryConfig 0)

/-- VF_ENABLE_CLEAR (12_rings.md R350). -/
def execVfEnableClear (s : State) : Host.Outcome State Fault Refusal :=
  .next (if s.host.published ∧ s.host.vfEnable then s.clearInstances else s.retryConfig 0)

/-! ### Power states (R328 to R330) -/

/-- D3HOT_ENTRY (R329): the manager goes to D3hot. The write carries PME_En beside PowerState (PRESUMED, log 10). -/
def execD3hotEntry (pme : Bool) (s : State) : Host.Outcome State Fault Refusal :=
  .next (if s.host.published then s.setFn 0 { s.fn 0 with d3hot := true, pmeEn := pme } else s.retryConfig 0)

/-- LOWPOWER_ENTRY (R329): the draw is lowered and HBM enters self-refresh (07_memory.md R223). -/
def execLowpowerEntry (s : State) : Host.Outcome State Fault Refusal :=
  .next (
    if (s.fn 0).d3hot ∧ s.mayLower then
      let s : State := { s with host := { s.host with lowPower := true } }
      (s.setSelfRefresh true).setFlag F.hifStatusLowpower true
    else s)

/-- D0_ENTRY (R330, R333): requests are served again; HBM leaves the self-refresh of the lowered draw; a wake that is
pending counts as serviced, so its messages stop, and WAKE_N deasserts. Messages that D3hot held back leave. -/
def execD0Entry (s : State) : Host.Outcome State Fault Refusal :=
  .next (
    if (s.fn 0).d3hot then
      let s := (s.setFn 0 { s.fn 0 with d3hot := false }).leaveLowPower
      let s := if s.pins.wakeN then ({ s with pins := { s.pins with wakeN := false } }).emit (.pin "WAKE_N" true) else s
      let s : State := { s with host := { s.host with serviced := s.host.serviced || (s.fn 0).pmeStatus } }
      (List.range 64).foldl State.sendAllPending s
    else s.retryConfig 0)

/-- INSTANCE_D3HOT (R328). -/
def execInstanceD3hot (i : FnId) (s : State) : Host.Outcome State Fault Refusal :=
  .next (if (i : Nat) ≠ 0 ∧ s.insState i ≠ 0 ∧ s.host.published then s.setFn i { s.fn i with d3hot := true } else s.retryConfig i)

/-- INSTANCE_D0_ENTRY (R328). -/
def execInstanceD0Entry (i : FnId) (s : State) : Host.Outcome State Fault Refusal :=
  .next (
    if (i : Nat) ≠ 0 ∧ s.insState i ≠ 0 ∧ s.host.published then (s.setFn i { s.fn i with d3hot := false }).sendAllPending i
    else s.retryConfig i)

/-! ### Wake (R332, R333) -/

/-- PME_RESEND (R332): in D3hot with PME_Status set and the wake not serviced. -/
def execPmeResend (s : State) : Host.Outcome State Fault Refusal :=
  .next (if (s.fn 0).d3hot ∧ (s.fn 0).pmeStatus ∧ ¬ s.host.serviced then s.emit .pme else s)

/-- PME_STATUS_CLEAR (R333): the host writes 1 to PME_Status. -/
def execPmeStatusClear (s : State) : Host.Outcome State Fault Refusal :=
  .next (
    if s.host.published then
      let s := s.setFn 0 { s.fn 0 with pmeStatus := false }
      { s with host := { s.host with serviced := false } }
    else s.retryConfig 0)

/-! ### DOE and AtomicOps (R312, R313) -/

/-- A function that enumerates. -/
def State.fnThere (s : State) (i : Nat) : Bool := s.host.published && (i == 0 || s.insState i != 0)

/-- The DOE Discovery of the protocols of R312, vendor 0x0001: Discovery, CMA/SPDM and Secured CMA/SPDM (numbers and layout
PRESUMED, log 10). -/
def doeDiscovery : List Byte :=
  [0, 1, 2].flatMap (fun t => leBytes 2 1 ++ leBytes 1 t ++ leBytes 1 (if t = 2 then 0 else t + 1))

/-- DOE_OBJECT (R313): an object of a protocol that is not taken is answered with the Discovery, as a Discovery is; the
objects of CMA/SPDM are commands of their own. The mailbox raises line 1 of the security core (09_firmware.md R276), and before
publication every request to it completes with Request Retry Status (R320); image-less service answers none (09_firmware.md R272). -/
def execDoeObject (i : FnId) (protocol : BitVec 8) (s : State) : Host.Outcome State Fault Refusal :=
  .next (
    if ¬ s.host.published then s.retryConfig i
    else if s.fnThere i ∧ ¬ s.host.imageless ∧ protocol ≠ 1 ∧ protocol ≠ 2 then (s.raiseFw 0 1).emit (.doe i 0 doeDiscovery) else s)

/-- ATOMICOP_REQUEST (R313): completes with Unsupported Request and changes nothing. In D3hot the BARs answer with
Unsupported Request alike. AER notes it (bit 20 of its uncorrectable error status; PRESUMED, log 10). -/
def execAtomicopRequest (i : FnId) (_addr : W64) (s : State) : Host.Outcome State Fault Refusal :=
  .next (if s.fnThere i then (s.setFn i { s.fn i with aer := (s.fn i).aer ||| 2 ^ 20 }).emit (.unsupported i) else s)

end Sys2Proof.Machine
end

