-- ==== Sys2Proof/Machine/Eth.lean ====
section
/-! DEFINITION. Ethernet's commands (15_ethernet.md): frames received and sent, the slow path, ports, lanes, rule sets. -/

namespace Sys2Proof.Machine

/-! ### Receive -/

/-- A PAUSE or PFC frame (R412): MAC control opcodes of IEEE 802.3 (PRESUMED, log 15). -/
def isPause (f : List Byte) : Bool := fieldBE f 12 2 == 0x8808 && (fieldBE f 14 2 == 1 || fieldBE f 14 2 == 0x0101)

/-- FRAME_RECEIVED (R412, R415 to R429): its bytes end before the FCS. -/
def execFrameReceived (p : PortId) (bytes : List Byte) (fcsOk mismatch : Bool) (s : State) : Host.Outcome State Fault Refusal :=
  .next (
    if ¬ s.portUp p then s
    else if ¬ fcsOk then s.count (F.ethRxErrFcs p) 1
    else if bytes.length + 4 < 64 ∨ s.fld (F.ethPortCfgMaxFrame p) < bytes.length + 4 then s.count (F.ethRxErrLength p) 1
    else if isPause bytes then s.count (F.ethRxCtrlPause p) 1
    else
      let h := parseFrame bytes
      if h.slow then s.slowFrame p bytes else s.classify p bytes h mismatch)

/-- Queue pair n waits for this address of a peer on port p. -/
def State.wantsPeer (s : State) (p n : Nat) (ip : List Byte) : Bool :=
  let x := s.qp n
  x.resolving.isSome && s.fld (F.rmaQpCfgPort n) == p && x.peerIp.take ip.length == ip && x.ipv6 == (ip.length == 16)

/-- Queue pairs that wait for this peer address move to RTR (16_rdma.md R441); an answer that none has asked for is dropped and
counted (R416). -/
def State.resolved (s : State) (p : Nat) (mac ip : List Byte) : State :=
  let asked := (List.range 2048).filter (fun n => s.wantsPeer p n ip)
  let s := if asked = [] then s.count (F.ethRxCtrlSlow p) 1 else s
  asked.foldl (fun s n =>
    let x := s.qp n
    match x.resolving with
    | none => s
    | some o => ((s.setQp n { x with resolving := none, peerMac := some mac }).setFld (F.rmaQpStatusState n) 2).complete o Status.ok 0) s

/-- SLOW_PATH_SERVICE (R416): service core 1 takes the oldest slow-path frame. It answers ARP, neighbour discovery and
echo for the port's addresses, learns the addresses it has asked for, and drops the rest. -/
def execSlowPathService (p : PortId) (s : State) : Host.Outcome State Fault Refusal :=
  .next (
    match (s.port p).slow with
    | [] => s
    | f :: rest =>
      if ¬ (s.core 4).alive then s
      else
        let s := s.setPort p { s.port p with slow := rest }
        let h := parseFrame f
        let mac := s.macOf p
        match arpReply f h mac (s.ip4Of p), echo4 f h mac (s.ip4Of p), answer6 f h mac (s.ip6Of p) with
        | some g, _, _ => s.sendAhead p g
        | none, some g, _ => s.sendAhead p g
        | none, none, some g => s.sendAhead p g
        | none, none, none =>
          match arpAnswer f h, ndAnswer f h with
          | some (m, ip), _ => s.resolved p m ip
          | none, some (m, ip) => s.resolved p m ip
          | none, none => s.count (F.ethRxCtrlSlow p) 1)

/-- POST (R427): the free list holds at most 64 buffers. -/
def execPost (i : FnId) (r : RingId) (s : State) : Host.Outcome State Fault Refusal :=
  .next (if 64 ≤ (s.ring i r).bufs.length then s else s.withOp i r 4 1 State.doPost)

/-! ### Transmit -/

/-- A SEND that has been accepted for device queue n joins the frames of its port. -/
def State.queueFrame (s : State) (o : OpRef) (n : Nat) (ts : Bool) (f : List Byte) (poisoned : Bool) : State :=
  s.enqueue (s.queuePort n) ⟨n, some o, pad60 f, ts, if poisoned then Status.integrity else Status.ok⟩

/-- SEND (R414, R430). A sealed SEND whose headers lie at a device address that R202 does not allow is not sent and completes as if
it had succeeded (10_tenancy.md R305; DEDUCED, log 27). A flow key that maps no granted slot, and a ring without a granted queue, are translation misses. -/
def State.doEthSend (s : State) (mismatch : Bool) (o : OpRef) (d : Desc) : State :=
  let i := o.fn
  let w := d.le 16 8
  let len := bitsOf w 0 14
  let hdr := bitsOf w 16 14
  let bit := fun k => bitOf (d.w0 32 32) k
  match s.boundStatus with
  | some st => s.complete o st 0
  | none =>
    if ¬ d.good 0x1FFFFF allBits 0x0000FFFF3FFF3FFF 0 .none ∨ len < 14 ∨ 9212 < len then s.complete o Status.badDescriptor 0
    else
      match s.ethOf i o.ring with
      | none => (s.violate i).complete o Status.ok 0
      | some n =>
        if ¬ s.portUp (s.queuePort n) then s.complete o Status.linkFailed 0
        else
          let (f, m, s) := s.sendBytes (.cipher (bit 17)) i (bit 16) (d.le 8 8) len
          let s := s.violateIf m.violated i
          let h := parseWhole f
          let finish := fun (g : List Byte) => if bit 20 then addVlan g (bitsOf w 32 16) else g
          if bit 17 then
            if h.ports = none ∨ h.proto ≠ 17 ∨ hdr ≠ h.l4At + 8 then s.complete o (if m.violated then Status.ok else Status.badDescriptor) 0
            else match s.unitOf i 4 (d.w0 32 16) with
            | none => (s.violateIf (!m.violated) i).complete o Status.ok 0
            | some k =>
              if ¬ s.engineUp then s.complete o Status.internal 0
              else if mismatch then s.cipherMismatch.complete o Status.internal 0
              else
                let (key, s) := s.flowKey k
                let x := Tab.get FlowKey.init s.eth.keys k
                let s := { s with eth := { s.eth with
                  keys := Tab.set FlowKey.init s.eth.keys k { x with counter := (x.counter + 1) % 2 ^ 64 } } }
                s.queueFrame o n (bit 19) (finish (fillSums (sealFrame key x.sender x.counter f hdr))) m.integrity
          else s.queueFrame o n (bit 19) (finish (if bit 18 then fillSums f else f)) m.integrity

/-- ETH_SEND. -/
def execEthSend (i : FnId) (r : RingId) (mismatch : Bool) (s : State) : Host.Outcome State Fault Refusal :=
  .next (s.withOp i r 3 1 (fun s o d => s.doEthSend mismatch o d))

/-- SET_FLOW_KEY (R425, R430): the slot takes the label and the sender, its counter starts at 0. -/
def State.doSetFlowKey (s : State) (o : OpRef) (d : Desc) : State :=
  match s.boundStatus with
  | some st => s.complete o st 0
  | none =>
    if ¬ d.good 0xFFFF 0xFFFFFFFF 0 0 .required then s.complete o Status.badDescriptor 0
    else match s.checkLabel o.fn [0x07] d.label with
    | .bad => s.complete o Status.badDescriptor 0
    | .violation => (s.violate o.fn).complete o Status.ok 0
    | .good =>
      match s.unitOf o.fn 4 (d.w0 32 16) with
      | none => (s.violate o.fn).complete o Status.ok 0
      | some k =>
        ({ s with eth := { s.eth with keys := Tab.set FlowKey.init s.eth.keys k ⟨d.label, d.le 8 4, 0⟩ } }).complete o Status.ok 0

/-- SET_FLOW_KEY. -/
def execSetFlowKey (i : FnId) (r : RingId) (s : State) : Host.Outcome State Fault Refusal :=
  .next (s.withOp i r 3 2 State.doSetFlowKey)

/-- ns for which a frame of l bytes uses up the 1% of port p's rate that frames ahead of every service may take (R432): after one,
the next waits so long (DESIGN CHOICE, log 27). -/
def State.aheadTime (s : State) (p l : Nat) : Nat := l * 800000 / max 1 (modeRate (s.fld (F.ethPortStatusMode p)))

/-- TX_FRAME_START (R432 to R434): with the line free and the port's tokens at least zero, a frame that goes ahead of every service,
within their limit, or the frame that the scheduler picks, starts. -/
def execTxFrameStart (p : PortId) (s : State) : Host.Outcome State Fault Refusal :=
  .next (
    if ¬ s.portUp p ∨ (s.port p).line.isSome ∨ s.nodeTokens (portKey p) < 0 then s
    else
      let t := s.deviceTime
      match (if s.now < (s.port p).aheadAt then [] else (s.port p).ahead) with
      | g :: rest =>
        let f : TxFrame := ⟨8192, none, g, false, Status.ok⟩
        (s.setPort p { s.port p with ahead := rest, line := some f, lineAt := t, aheadAt := s.now + s.aheadTime p f.len }).charge (portKey p) f.len
      | [] =>
        match s.pickFrame p with
        | (none, _) => s
        | (some f, s) =>
          let x := s.port p
          (s.setPort p { x with waiting := x.waiting.erase f, line := some f, lineAt := t }).chargePath p f)

/-- FRAME_TRANSMITTED (R431, R463): the last byte is on the line. -/
def execFrameTransmitted (p : PortId) (s : State) : Host.Outcome State Fault Refusal :=
  .next (
    let x := s.port p
    match x.line with
    | none => s
    | some f =>
      let s := (s.setPort p { x with line := none }).emit (.frame p f.bytes)
      match f.op with
      | none => s
      | some o => s.complete o f.status (if f.stamp ∧ f.status = Status.ok then x.lineAt else 0))

/-! ### Ports and lanes -/

/-- PORT_UP (R410, R411): the highest mode both ends advertise; with none in common the attempt is counted. -/
def execPortUp (p : PortId) (peerModes : BitVec 4) (s : State) : Host.Outcome State Fault Refusal :=
  .next (
    if s.portUp p ∨ ¬ s.flag (F.ethPortCfgEnable p) ∨ s.ownMode p = 0 then s
    else
      let best := if s.flag (F.ethPortCfgAutoneg p) then
          [3, 2, 1].find? (fun m => decide (m ≤ s.ownMode p) && bitOf peerModes.toNat m)
        else some (s.ownMode p)
      match best with
      | none => s.wrapAdd (F.ethPortStatusAnFail p) 1
      | some m => ((s.setFlag (F.ethPortStatusUp p) true).setFld (F.ethPortStatusMode p) m).portEvent p)

/-- PORT_DOWN (R414). -/
def execPortDown (p : PortId) (s : State) : Host.Outcome State Fault Refusal := .next (s.dropPort p)

/-- LANE_LOSS_OF_LOCK (R413): the third loss within an hour maps the lane out, critical event
0x03. -/
def execLaneLossOfLock (p : PortId) (lane : BitVec 2) (s : State) : Host.Outcome State Fault Refusal :=
  .next (
    let n := lane.toNat
    if bitOf (s.portLanes p) n then
      let x := s.port p
      let times := s.now :: (Tab.get [] x.lockTimes n).filter (fun t => decide (s.now ≤ t + 3600000000000))
      let s := s.setPort p { x with lockTimes := Tab.set [] x.lockTimes n times }
      if 3 ≤ times.length then
        let s := s.setPort p { s.port p with failed := listMask (insertNat n (maskList 4 (s.port p).failed)) }
        (s.critical 0x03 (4 * p + n)).applyLanes p
      else s
    else s)

/-! ### Rule sets -/

/-- RULE_SET_COMMIT (R422 steps 1 to 3): the set is read from manager memory and checked. -/
def execRuleSetCommit (p : PortId) (s : State) : Host.Outcome State Fault Refusal :=
  .next (
    if ¬ s.flag (F.ethRsStatusBusy p) ∨ (s.port p).next.isSome ∨ ¬ s.dmaOk 0 then s
    else
      let a := s.fld (F.ethRsAddrLoAddr p) + s.fld (F.ethRsAddrHiAddr p) * 2 ^ 32
      let head := Memory.read s.host.mem a 0x240
      let rs := if ruleCount head ≤ 4096 then head ++ Memory.read s.host.mem (a + 0x240) (64 * ruleCount head) else head
      if s.goodRules p rs then s.setPort p { s.port p with next := some rs }
      else (s.setFlag (F.ethRsStatusBusy p) false).setFld (F.ethRsStatusResult p) Status.badDescriptor)

/-- RULE_SET_SWITCH (R422 step 4, R423): between two frames the checked set comes into force. -/
def execRuleSetSwitch (p : PortId) (s : State) : Host.Outcome State Fault Refusal :=
  .next (
    match (s.port p).next with
    | none => s
    | some rs =>
      let s := s.setPort p { s.port p with rules := rs, next := none }
      let s := s.wrapAdd (F.ethRsStatusVersion p) 1
      (s.setFlag (F.ethRsStatusBusy p) false).setFld (F.ethRsStatusResult p) Status.ok)

end Sys2Proof.Machine
end

