-- ==== Sys2Proof/Machine/OpsFw.lean ====
section
/-! DEFINITION. The images of the cores and the selection of a bank (09_firmware.md R272 to R275, R281). -/

namespace Sys2Proof.Machine

/-! ### Cores and images (R273, R275, R281) -/

/-- The image kind of core k. -/
def kindOf (k : Nat) : Nat := min k 5

/-- Core k goes over to the image of bank b: the digest is noted, the image is in the cache, the core restarts. -/
def State.runImage (s : State) (b k : Nat) (e img : List Byte) : State :=
  let s : State := { s with fw := { s.fw with
    cache := Tab.set [] s.fw.cache k img, source := Tab.set 0 s.fw.source k b, wdt := Tab.set 0 s.fw.wdt k (fieldLE e 0x0C 4) } }
  (s.setCore k { s.core k with digest := bytesAt e 0x10 48 }).resetCore k

/-- Every core whose kind's image is good starts on it. -/
def State.startCores (s : State) (b : Nat) : State :=
  let imgs := (List.range 6).map (fun kind => s.goodImageOf b kind)
  (List.range 21).foldl (fun s k => match imgs.getD (kindOf k) none with
    | none => s
    | some (e, img) => s.runImage b k e img) s

/-! ### Selection of a bank (R272) -/

/-- A bank is a candidate. -/
def State.candidate (s : State) (b : Nat) : Bool := let h := s.header b; s.usable h && s.fwSigned h

/-- Rules 1 to 4 of R272: an ATTEMPT bank is rejected; a TRIAL bank is booted as ATTEMPT; otherwise the COMMITTED bank of
the highest sequence. -/
def State.selectBank (s : State) : Option Nat × State :=
  let cs := [1, 2].filter s.candidate
  let s := (cs.filter (fun b => (s.bankState b).1 == 3)).foldl (fun s b => s.appendRecord b 5 0) s
  match cs.find? (fun b => (s.bankState b).1 == 2) with
  | some b => (some b, s.appendRecord b 3 0)
  | none =>
    let done := cs.filter (fun b => (s.bankState b).1 == 4)
    (done.foldl (fun best b => match best with
      | none => some b
      | some c => if (s.bankState c).2 < (s.bankState b).2 then some b else some c) none, s)

end Sys2Proof.Machine
end

