-- ==== Sys2Proof/Machine/Firmware.lean ====
section
/-! DEFINITION. Boot, and the operations of the FWC block (09_firmware.md R272 to R284). -/

namespace Sys2Proof.Machine

/-! ### Boot -/

/-- The Resource Table is published with the generation in force (11_pcie.md R320). -/
def State.publish (s : State) (full : List (List Byte)) : State :=
  let g := s.fld F.hifRtGenGeneration
  let views := (List.range 64).foldl (fun m i => if i = 0 then m else Tab.set [] m i (s.rtBytes (s.rtView i) g)) []
  ({ s with host := { s.host with table := s.rtBytes full g, views := views, published := true } }).setFlag F.hifStatusRtReady true

/-- The host link trains (11_pcie.md R312): x4, x8 or x16 at 8 to 64 GT/s, in Flit mode or not, 64 GT/s in Flit mode alone; which,
the host decides: a free value within these bounds (log 7). -/
def State.trainLink (s : State) : State :=
  let v := (s.freeBits 5).toNat
  let width := if v / 4 % 4 = 0 then 4 else if v / 4 % 4 = 1 then 8 else 16
  let flit := v / 16 == 1
  let rate := if flit then 1 + v % 4 else min 3 (1 + v % 4)
  let s := ((s.bumpFree.setFlag F.hifLinkUp true).setFld F.hifLinkRate rate).setFld F.hifLinkWidth width
  s.setFlag F.hifLinkFlit flit

/-- No bank qualifies: image-less service (R272). -/
def State.imageLess (s : State) : State :=
  let s : State := { s with host := { s.host with imageless := true }, pins := { s.pins with released := false } }
  (((s.setFld F.fwcBootStage 0xF).showBanks).trainLink).publish []

/-- The disabled benches of an AQ-E9S are absent and read map_out as 1 (00_scope.md R3; 03_benches.md R105). -/
def State.mapDisabled (s : State) : State :=
  (List.range 160).foldl (fun s b =>
    if s.benchDisabled b then
      ((s.setFlag (F.bncStatusPresent b) false).setFlag (F.bncStatusMappedOut b) true).setFld (F.bncCtrlMapOut b) 1
    else s) s

/-- Units that failed training or their tests are mapped out in step 8, each with critical event 0x03 (17_time.md R471). The bench's
BNC_CTRL.map_out, which the manager writes, stays; that of a stack shows it (log 21). -/
def State.mapFailed (s : State) (r : BootRun) : State :=
  let s := r.badBenches.foldl (fun s b =>
    ((s.setFlag (F.bncStatusPresent b) false).setFlag (F.bncStatusMappedOut b) true).critical 0x03 b) s
  (maskList 12 r.badStacks.toNat).foldl (fun s k => ((s.setFld (F.memCtrlMapOut k) 1).dropStack k).critical 0x03 k) s

/-- Steps 2 to 8 of R273 from bank b: the cores run, the valleys are powered, memory is ready, the data image is applied, failed
units are mapped out, the table is published; an L4 that ran is done. -/
def State.bootFrom (s : State) (b : Nat) (r : BootRun) : State :=
  let s := s.startCores b
  let s := (List.range 38).foldl (fun s v => s.setFlag (F.vlyStateEnable v) true) s
  let s : State := { s with fw := { s.fw with data := ((s.goodImageOf b 6).map Prod.snd).getD [] } }
  let s := (s.mapDisabled.mapFailed r).mapUnlisted.gateValleys
  let s := if s.flag F.shfSanitizeActive then s.showSanitize else s
  let s := s.setFlag F.shfStatusRebuild s.shelf.rebuilding
  let s := (((s.setFld F.fwcBootStage 8).setFld F.fwcStatusBooted (b - 1)).setFld F.secStatusBindings s.mfg.bindings).showBanks
  let s := s.resumeBinding.trainLink
  let s : State := { s with pins := { s.pins with released := false } }
  (s.publish s.rtFull).finishL4

/-- A boot fails (R274), with its event record (17_time.md R475): the bank is rejected, unless it is COMMITTED; then the attempt counts
in the lifetime log. -/
def State.bootFails (s : State) (b : Nat) : State :=
  let s := s.logEvent 0x0108 b []
  if (s.bankState b).1 = 4 then s.logCount 5 1 else s.appendRecord b 5 0

/-- The step in which a boot from bank b ends early, if one does (R273, R274): a wrong digest of the security image in step 2, of
another one in step 3, or a core that fails to start. An image set with another protect value does not load while debug is
locked (R278). -/
def State.bootStop (s : State) (b : Nat) (r : BootRun) : Option Nat :=
  if (s.goodImageOf b 0).isNone then some 2
  else if r.failAt = some 2 then some 2
  else if (List.range 7).any (fun k => (s.goodImageOf b k).isNone) ∨ ¬ s.goodProtect (s.header b) then some 3
  else r.failAt.map BitVec.toNat

/-- BOOT (R272 to R274): once the security core has left reset, the ROM selects a bank and boots every core. FWC_BOOT.stage shows
the last step completed. Where the boot ends early the security core resets itself, and the next BOOT selects again. -/
def execBoot (r : BootRun) (s : State) : Host.Outcome State Fault Refusal :=
  .next (
    if s.pins.released then
      match s.selectBank with
      | (none, s) => s.imageLess
      | (some b, s) =>
        match s.bootStop b r with
        | some n => (s.setFld F.fwcBootStage (n - 1)).bootFails b
        | none => s.bootFrom b r
    else s)

/-! ### DOWNLOAD (R280) -/

/-- Steps 2 to 5: erase, write, read back, STAGED. -/
def State.writeBank (s : State) (b addr len : Nat) : State :=
  let h := Memory.read s.host.mem addr 0x10000
  let area := Memory.read s.host.mem (addr + 0x20000) (len - 0x20000)
  let base := bankBase b
  let flash := Memory.zero s.fw.flash base (0x20000 + 28544 * 1024)
  let s := ({ s with fw := { s.fw with flash := flash } }.flashWrite base h).flashWrite (base + 0x20000) area
  let s := s.showBanks.setFld F.fwcStatusProgress 100
  if Crypto.sha384 (area.take (areaEnd h)) = bytesAt h 0x10 48 ∧ (List.range 7).all (fun k => (s.goodImageOf b k).isSome) then
    ((s.appendRecord b 1 0).logCount 8 1).fwcDone 1 Status.ok
  else s.fwcDone 1 Status.integrity

/-- DOWNLOAD (R280): refused while the target bank is TRIAL or ATTEMPT, and while a recovery level runs (19_recovery.md). -/
def execDownload (s : State) : Host.Outcome State Fault Refusal :=
  .next (
    if s.request 14 = 1 ∧ s.dmaOk 0 then
      let b := s.downloadBank
      let (addr, len) := s.downloadSource
      if s.downloadRefused b then s.fwcDone 1 Status.badDescriptor
      else match s.downloadFault (Memory.read s.host.mem addr 0x260) len with
        | some r => s.fwcDone 1 r
        | none => s.writeBank b addr len
    else s)

/-! ### ACTIVATE, COMMIT, ABANDON (R281 to R283) -/

/-- Core k may not be switched now (R281). -/
def State.switchRefused (s : State) (k : Nat) : Bool :=
  if k = 2 then s.inPlain
  else if 5 ≤ k then s.inPlain || ((s.clusterPart (k - 5)).map (fun p => (s.part p).runs)).getD false
  else false

/-- Core k has not reached its quiet point (R281): the scheduler core while a staged operation is in progress, service core 0
while started shelf commands run (14_shelf.md R401). -/
def State.notQuiet (s : State) (k : Nat) : Bool :=
  (k == 2 && s.run.swap.isSome) || (k == 3 && s.shelf.cmds.any (fun c => c.started))

/-- The selected cores switch to the images of bank b in turn, up to the first whose digest is wrong: that one is reset and
returns to its old image. The security core switches at the next warm reset; a core that does not run has nothing to
switch. -/
def State.switchCores (s : State) (b : Nat) : List Nat → State × Nat
  | [] => (s, Status.ok)
  | k :: t =>
    if k = 0 ∨ (s.core k).held then s.switchCores b t
    else match s.goodImageOf b (kindOf k) with
      | none => (s.resetCore k, Status.integrity)
      | some (e, img) => (s.runImage b k e img).switchCores b t

/-- The switch of a list of cores waits: what their quiet points hold is held from here on (R281). -/
def State.holdCores (s : State) (cores : List Nat) : State := { s with fw := { s.fw with hold := listMask cores } }

/-- An operation that may have waited for quiet points ends: what they held goes on, and shelf fetching with it (R281, R283;
14_shelf.md R401). -/
def State.switchEnd (s : State) (op status : Nat) : State :=
  (({ s with fw := { s.fw with hold := 0 } }).shelfStart.rejectPeers).fwcDone op status

/-- The cores have switched: the table is rebuilt where the running release is another one than it was (11_pcie.md R319), and the
operation ends. -/
def State.switchDone (s : State) (release : Nat) (op status : Nat) : State :=
  (if s.runningRelease = release then s else s.rebuildTable).switchEnd op status

/-- ACTIVATE (R281): the STAGED or TRIAL bank; the first appends TRIAL. Refused while a recovery level runs (19_recovery.md
R504), and with VERSION_MISMATCH where the bundle is no longer usable or declares another protect value (R271, R278). It goes
on once every selected core has reached its quiet point. -/
def execActivate (s : State) : Host.Outcome State Fault Refusal :=
  .next (
    if s.request 14 = 2 then
      let cores := maskList 21 s.fw.askCores
      match [1, 2].find? (fun b => (s.bankState b).1 == 1 || (s.bankState b).1 == 2) with
      | none => s.switchEnd 2 Status.badDescriptor
      | some b =>
        if s.flag F.rcvStatusActive ∨ cores.any s.switchRefused then s.switchEnd 2 Status.badDescriptor
        else if ¬ s.usable (s.header b) ∨ ¬ s.goodProtect (s.header b) then s.switchEnd 2 Status.versionMismatch
        else if cores.any s.notQuiet then s.holdCores cores
        else
          let release := s.runningRelease
          let s := if (s.bankState b).1 = 1 then s.appendRecord b 2 0 else s
          let (s, st) := s.switchCores b cores
          s.switchDone release 2 st
    else s)

/-- COMMIT (R282): the device has booted from the ATTEMPT bank; bits are blown up to its svn, of which the counter has 64 (R271). -/
def execCommit (s : State) : Host.Outcome State Fault Refusal :=
  .next (
    if s.request 14 = 3 then
      match s.bootedBank with
      | none => s.fwcDone 3 Status.badDescriptor
      | some b =>
        if (s.bankState b).1 = 3 then
          let s : State := { s with fw := { s.fw with fused := max s.fw.fused (min 64 (svnOf (s.header b))) } }
          ((s.appendRecord b 4 ((s.bankState (3 - b)).2 + 1)).showBanks).fwcDone 3 Status.ok
        else s.fwcDone 3 Status.badDescriptor
    else s)

/-- ABANDON (R283): the TRIAL or ATTEMPT bank is REJECTED; cores that run its images return to those of the other bank by
the procedure of R281, once they have reached their quiet points; at the next warm reset where the device booted from it. -/
def execAbandon (s : State) : Host.Outcome State Fault Refusal :=
  .next (
    if s.request 14 = 4 then
      match [1, 2].find? (fun b => (s.bankState b).1 == 2 || (s.bankState b).1 == 3) with
      | none => s.switchEnd 4 Status.badDescriptor
      | some b =>
        let back := if s.bootedBank = some b then [] else (List.range 21).filter (fun k => Tab.get 0 s.fw.source k == b)
        if back.any s.switchRefused then s.switchEnd 4 Status.badDescriptor
        else if back.any s.notQuiet then s.holdCores back
        else
          let (s', st) := (s.appendRecord b 5 0).switchCores (3 - b) back
          s'.switchDone s.runningRelease 4 st
    else s)

end Sys2Proof.Machine
end

