-- ==== Sys2Proof/Machine/KerfCommit.lean ====
section
/-! DEFINITION. The Commit phase of a kerf (04_cutlists.md R114): halt, swap, epoch apply, stops, and the next cut
(04_cutlists.md R132 to R143; 06_plain.md R171, R192 to R196; 18_power.md R480, R483; 19_recovery.md R494). -/

namespace Sys2Proof.Machine

/-! ### Power -/

/-- The energy of the cut that ended and of its kerf is recorded (R483, R484). -/
def State.addEnergy (s : State) (p : KerfPower) : State :=
  let total := p.energy.foldl (· + ·) 0
  let s := (List.range 40).foldl (fun s v => s.wrapAdd (F.pwrVlyEnergyUj v) (p.energy.getD v 0)) s
  let s := (s.wrapAdd F.pwrEnergyUj total).logEnergy total
  { s with pwr := { s.pwr with energy := Tab.set 0 s.pwr.energy s.run.cut total } }

/-- Targets of the valleys whose monitors had slack in plenty go down by one step (R480). A cluster valley with that slack
at 600 mV has its bench clock raised, and one without it runs at the floor (R482). -/
def State.lowerTargets (s : State) (p : KerfPower) : State :=
  ((List.range 40).filter (fun v => v != 38)).foldl (fun s v =>
    let mv := s.fld (F.pwrVtargetMv v)
    if p.ample.getLsbD v then (if mv = 600 then s.raiseClock v true else s.setTarget v (max 600 (mv - 5)))
    else s.raiseClock v false) s

/-! ### Links (R171) -/

/-- In the Commit phase of kerf k, the coefficient requests of earlier kerfs' seals are in force from here on (R171). -/
def Link.applyCoeff (l : Link) (k : Nat) : Link :=
  let (due, later) := l.coeffReq.partition (fun p => decide (p.1 ≤ k))
  { l with coeff := (due.getLast?.map Prod.snd).getD l.coeff, coeffReq := later }

/-! ### The ends of runs -/

/-- Every STOP that waits is done (R133). -/
def State.endStops (s : State) (pos : Nat) : State :=
  let ops := s.run.stops
  ops.foldl (fun s o => s.complete o Status.ok pos) { s with run := { s.run with stops := [], stopCount := none } }

/-- The running START completes. -/
def State.endStart (s : State) (status result : Nat) : State :=
  match s.run.start with
  | none => s
  | some o => ({ s with run := { s.run with start := none } }).complete o status result

/-- A TAKE whose stop kerf has not come ends. -/
def State.endPendingTake (s : State) (status : Nat) : State :=
  match s.run.take with
  | none => s
  | some t => if t.stopped.isSome then s else ({ s with run := { s.run with take := none } }).complete t.op status 0

/-- The partitions of the set change to a state. -/
def State.setStates (s : State) (st : PState) (halted : Bool) : State :=
  s.setParts.foldl (fun s p => s.setPart p { s.part p with state := st, halted := halted }) s

/-- The set no longer runs. -/
def State.idleRun (s : State) : State :=
  ({ s with run := { s.run with phase := .idle } }).setFlag F.dvtPlainRunning false

/-- The last cut of the last pass has run (R132): the partitions are LOADED, the START is done, and page commits that waited
for a next kerf apply (05_roles.md R160). A TAKE that never stopped completes with QUEUE_RESET (DEDUCED, log 19). A halt whose
halt kerf lies past the run's end never takes effect: the next START drops it (DESIGN CHOICE, log 27). -/
def State.endRun (s : State) : State :=
  let pos := s.posResult
  ((((s.setStates .loaded false).idleRun.endStart Status.ok 0).endStops pos).endPendingTake Status.queueReset).runEnds.runCommits

/-- The stop kerf of R133: the partitions are STOPPED. A halt of a later kerf never takes effect (DESIGN CHOICE, log 27). -/
def State.stopRun (s : State) : State :=
  let pos := s.posResult
  (((s.setStates .stopped false).idleRun.endStart Status.ok pos).endStops pos).endPendingTake Status.queueReset |>.runEnds

/-! ### The halt kerf (R192, R193, R494) -/

/-- The halt kerf has come. -/
def State.haltDue (s : State) : Bool :=
  match s.run.halt with
  | none => false
  | some h => decide (h.kerf ≤ s.run.kerfs)

/-- This member is faulting: for DIVERGE it differs from more than half of its neighbours in service, otherwise where it
knows a cause (R193). Two links may lead to one neighbour (R165). -/
def State.faulting (s : State) (cause : Nat) : Bool :=
  if cause = 0x04 then
    let of := fun (ls : List Nat) => (ls.map (fun j => s.fld (F.dvtLinkStatusPeerMember j))).eraseDups
    decide ((of s.serviceLinks).length < 2 * (of (s.serviceLinks.filter (fun j => (s.link j).diverged))).length)
  else cause != 0

/-- The member that a record of a DIVERGE halt names before the reports have come: the member itself where it is faulting,
and otherwise none, all ones (DESIGN CHOICE, log 19). -/
def State.blame (s : State) (x : Seen) : Seen :=
  if x.trouble.cause = 0x04 then
    { x with trouble := { x.trouble with aux := if s.faulting 0x04 then s.fld F.dvtPlainMemberIndex else 2 ^ 32 - 1 } }
  else x

/-- The cutlist hash of partition p of another member, from its start record (R187). -/
def State.memberHash (s : State) (m p : Nat) : List Byte :=
  match s.run.members.find? (fun r => r.member.toNat == m) with
  | none => List.replicate 48 0
  | some r => leBytes 48 (bitsOf r.hashes.toNat (384 * p) 384)

/-- A record with a member's cause, detail and index, and the hash of that member's cutlist for the record's partition
(R187, R193, R500). -/
def State.putCause (s : State) (cause detail m : Nat) (bs : List Byte) : List Byte :=
  bs.take 5 ++ leBytes 1 cause ++ leBytes 1 detail ++ bytesAt bs 7 29 ++ leBytes 4 m ++ bytesAt bs 0x28 8
    ++ (if m = s.fld F.dvtPlainMemberIndex then bytesAt bs 0x30 48 else s.memberHash m (fieldLE bs 0x12 1)) ++ bs.drop 0x60

/-- A record of the last halt that names no cause yet, or for DIVERGE no member. -/
def State.openRecord (s : State) (cause : Nat) (bs : List Byte) : Bool :=
  decide (s.run.haltSeq < fieldLE bs 0 4) &&
    (fieldLE bs 5 1 == 0 || (cause == 0x04 && fieldLE bs 5 1 == 0x04 && fieldLE bs 0x24 4 == 2 ^ 32 - 1))

/-- HALT goes to the manager and to the owner of every partition of the set with its cause (R491; 12_rings.md R360). -/
def State.haltEvents (s : State) (cause : Nat) : State :=
  s.setParts.foldl (fun s p => s.eventBoth (s.part p).owner 0x05 p cause) s

/-- A cause and its faulting member are named in a recovery record: in an open one of the halt, which is complete with it, or in
one of its own (R193, R502; log 19). A halt that a notice has brought has its cause from here on. -/
def State.nameCause (s : State) (cause detail m : Nat) : State :=
  let known := s.rcv.records.any (fun r => s.openRecord cause r.1)
  let s := if known then s
    else
      let seen := { s.see ⟨0, 0, 0, .nothing, 0⟩ with haltKerf := some (s.run.kerfs - 1), haltAt := s.run.drainAt }
      s.writeRecord (s.newLevel 0 seen .nothing false 0)
  match s.rcv.records.findIdx? (fun r => s.openRecord cause r.1) with
  | none => s
  | some k =>
    let old := (s.rcv.records.map Prod.fst).getD k []
    let bs := s.putCause cause detail m old
    let s := { s with rcv := { s.rcv with records := s.rcv.records.modify k (fun r => (bs, r.2)) } }
    (if known ∧ fieldLE old 5 1 = 0 then s.haltEvents cause else s).recoveryEvent bs

/-- A record of the last halt names member m as differing. -/
def State.divergeNamed (s : State) (m : Nat) : Bool :=
  s.rcv.records.any (fun r => decide (s.run.haltSeq < fieldLE r.1 0 4) && fieldLE r.1 5 1 == 0x04 && fieldLE r.1 0x24 4 == m)

/-- Every other member has reported and none that saw a difference qualifies as faulting, this one included (R193). -/
def State.noneQualifies (s : State) : Bool :=
  let rs := s.run.reports
  decide (s.fld F.dvtPlainPlainSize ≤ (rs.map (fun r => r.member.toNat)).eraseDups.length + 1)
    && rs.all (fun r => !(r.cause.toNat == 0x04 && r.faulting)) && !s.faulting 0x04

/-- What a halt report says is named in a recovery record: a cause other than DIVERGE with its member, and DIVERGE with a
member that differs from more than half of its neighbours (R193). -/
def State.nameReport (s : State) (report : HaltRep) : State :=
  let cause := report.cause.toNat
  if cause ≠ 0 ∧ (cause ≠ 0x04 ∨ report.faulting) then s.nameCause cause report.detail.toNat report.member.toNat else s

/-- Where no member qualifies as faulting, every member that saw a difference is named, once, when all have reported (R193). A
member's report of DIVERGE comes before its others, so the first ones of all members decide. -/
def State.nameDiverged (s : State) : State :=
  if s.noneQualifies then
    let saw := (s.run.reports.filter (fun r => r.cause.toNat == 0x04)).map (fun r => r.member.toNat)
    let own := if (List.range 6).any (fun l => (s.link l).diverged) then [s.fld F.dvtPlainMemberIndex] else []
    (own ++ saw).foldl (fun s m => if s.divergeNamed m then s else s.nameCause 0x04 0 m) s
  else s

/-- After the halt kerf's own records, the reports that came before it are named (R193). -/
def State.nameReports (s : State) : State :=
  if s.inPlain ∧ s.run.reports ≠ [] then (s.run.reports.foldl State.nameReport s).nameDiverged else s

/-- HALT_REPORT (R193): a new report is forwarded and kept, and what it says is named in a recovery record; where this member's
own halt kerf has not come, at that kerf. -/
def execHaltReport (j : LinkId) (report : HaltRep) (fixed : Bool) (s : State) : Host.Outcome State Fault Refusal :=
  .next (
    let s := s.countFixed j fixed
    if s.serviceLinks.contains j ∧ s.inPlain ∧ ¬ s.run.reports.contains report then
      let s := s.flood (s.serviceLinks.filter (· != (j : Nat))) FlitType.haltReport (haltBytes report)
      let s := { s with run := { s.run with reports := s.run.reports ++ [report] } }
      if s.run.halt.isSome then s else (s.nameReport report).nameDiverged
    else s)

/-- The Commit phase of the halt kerf: every partition of the set becomes STOPPED and halted, the running START completes
with FENCED at the position of the next cut, the member's reports leave, one for each cause that it knows and DIVERGE first
(DESIGN CHOICE, log 30), and recovery serves
the faults behind the halt. One that only a notice has brought posts its HALT event when a report names the cause (R491). A staged set and a pending TAKE are given up with FENCED (DEDUCED, log 19). -/
def State.haltRun (s : State) (h : Halt) : State :=
  let pos := s.posResult
  let named := (h.seen :: h.more).filter (fun x => x.trouble.cause != 0)
  let all : List Seen := (if named = [] then [h.seen] else named).map s.blame
  let t : Trouble := (all.headD h.seen).trouble
  let s := (s.endStage Status.fenced 0).setStates .stopped true
  let s := { s.idleRun with run := { s.idleRun.run with halt := none } }
  let s := s.detachedEnds
  let s := ((s.endStart Status.fenced pos).endStops pos).endPendingTake Status.fenced
  let s := if t.cause = 0 then s else s.haltEvents t.cause
  let causes : List Trouble := match (all.map Seen.trouble).filter (fun t => t.cause != 0) with
    | [] => [t]
    | cs => cs.filter (fun t => t.cause == 0x04) ++ cs.filter (fun t => t.cause != 0x04)
  let s := if s.inPlain then causes.foldl (fun s t => s.sendHaltReport t.cause t.detail (s.faulting t.cause)) s else s
  let seen := all.map (fun x => { x with haltKerf := some s.run.kerfs, haltAt := s.run.drainAt })
  { s with rcv := { s.rcv with faults := s.rcv.faults ++ seen }, run := { s.run with haltSeq := s.rcv.seq } }

/-! ### The swap (R140, R142) -/

/-- Partition p goes over to its staged cutlist, which starts here: its regions are as R125 says,
and its result buffers read zero (08_tenon.md R259). -/
def State.swapPart (s : State) (p : Nat) : State :=
  match (s.part p).staged with
  | none => s
  | some l =>
    let cl := (s.part p).clusters
    let s := s.dropOld (s.heldRegions p) l.regions
    let s := (l.regions.filter (fun r => r.init == 3)).foldl (fun s r =>
      s.holdRegion p (r.isPool l.roles) (r.isPool l.roles && s.wasPool p r) r) s
    let s := s.fillList l
    let s := (maskBenches cl).foldl (fun s b => s.setBench b { s.bench b with prog := (s.bench b).staging, staging := [] }) s
    let s := (maskBenches cl).foldl (fun s b => s.setBench b { s.bench b with entries := [], entryFault := [] }) s
    let s := s.loadWindows cl l
    s.setPart p { s.part p with state := .running, list := some l, staged := none }

/-- The swap kerf: every partition swaps and STAGE is OK, or the staging is given up with the status that R142 names. -/
def State.swapKerfDone (s : State) (w : Swap) : State :=
  if w.fitted ∧ ¬ w.no then
    let s := allParts.foldl State.swapPart s
    let s := { s with run := { s.run with swap := none, epoch := (s.run.epoch + 1) % 2 ^ 32 } }
    (s.gateValleys).complete w.op Status.ok 0
  else
    let (st, res) := w.refusal.getD (Status.versionMismatch, 0)
    s.endStage st res

/-- The swap step of the Commit phase. -/
def State.swapStep (s : State) : State :=
  match s.run.swap with
  | none => s
  | some w => if s.swapKerf = some s.run.kerfs then s.swapKerfDone w else s

/-! ### Counter snapshots (21_debug.md R529) -/

/-- One record for each counter of the selected clusters and of their benches that are there; the counters start again at 0. -/
def State.snapshot (s : State) : State :=
  let cl := maskList 16 (s.fld F.dbgCtrlClusters)
  let bs := (cl.flatMap (fun k => (List.range 10).map (fun i => 10 * k + i))).filter (fun b =>
    s.flag (F.bncStatusPresent b) && !s.flag (F.bncStatusMappedOut b))
  let s := bs.foldl (fun s b =>
    let x := (s.bench b).ctrs
    let s := (List.range 8).foldl (fun s n => s.dbgRecord 3 n b (Tab.get 0 x n + Tab.get 0 s.dbg.stalls (16 * b + n))) s
    { s.setBench b { s.bench b with ctrs := [] } with
      dbg := { s.dbg with stalls := s.dbg.stalls.filter (fun c => c.1 / 16 != b) } }) s
  cl.foldl (fun s k =>
    let s := [8, 9, 10, 11].foldl (fun s n => s.dbgRecord 3 n k (Tab.get 0 s.dbg.cluster (16 * k + n))) s
    { s with dbg := { s.dbg with cluster := s.dbg.cluster.filter (fun c => c.1 / 16 != k) } }) s

/-- The snapshot of every cnt_period-th kerf. -/
def State.snapshotStep (s : State) : State :=
  let n := s.fld F.dbgCtrlCntPeriod
  if s.hasRight 2 ∧ s.flag F.dbgCtrlCounters ∧ n ≠ 0 ∧ (s.run.kerfs + 1) % n = 0 then s.snapshot else s

/-! ### The whole phase -/

/-- The last kerf at which a checkpoint may stop is noted (20_checkpoint.md R509). -/
def State.noteCkpt (s : State) : State :=
  match s.schedule with
  | none => s
  | some l => if (l.cutRun s.run.cut).ckpt ∧ ¬ s.swapsNow then { s with run := { s.run with ckptAt := some (s.run.kerfs, s.run.since) } } else s

/-- The run's last cut has ended. -/
def State.runOver (s : State) : Bool :=
  match s.schedule with
  | none => true
  | some l => s.run.cut + 1 == l.cutCount && decide (s.run.passes ≤ s.run.pass + 1)

/-- The stop count has been reached and a stop may take place here. -/
def State.stopDue (s : State) : Bool := ((s.run.stopCount.map (fun n => decide (n ≤ s.run.kerfs))).getD false) && s.stopPoint

/-- The position moves on to (pass, cut); the next cut is due where the set still runs. -/
def State.passOn (s : State) (pos : Nat × Nat) (len : Nat) : State :=
  let r := s.run
  { s with run := { r with
    pass := pos.1, cut := pos.2, kerfs := r.kerfs + 1, since := r.since + len
    phase := if r.phase = .idle then .idle else .start } }

/-- The stretch of the next period is in force from its first kerf on, and a new running maximum begins (R196). -/
def State.stretchStep (s : State) : State :=
  if s.run.kerfs % 32 = 31 then ({ s with plain := { s.plain with stretch := s.plain.stretchMax, stretchMax := 0 } }).showStretch else s

/-- What happens in the Commit phase, in the order of R114. Where the stop kerf is also the end of the last pass, the run
ends as LOADED and its STOP completes with OK (DESIGN CHOICE, log 25). Where a TAKE with resume stops at the stop kerf of a
STOP, the STOP waits until after the resume (DESIGN CHOICE, log 27). -/
def State.commitPhase (s : State) : State :=
  let len := s.kerfLength
  let next := s.nextPos
  if s.haltDue then
    match s.run.halt with
    | none => s
    | some h => (((s.runCommits.applyDue).haltRun h).passOn next len).serveReports.nameReports
  else
    let swaps := s.swapsNow
    let atEnd := s.runOver
    let s := s.noteCkpt
    let ckpt := s.takeStops
    let stop := s.stopDue
    let s := (List.range 12).foldl State.firmwareMapOut s.swapStep.runCommits.applyDue
    let s : State :=
      if swaps then s
      else if ckpt then
        let pos := s.posResult
        let resume := (s.run.take.map (fun t => t.resume)).getD false
        let s := s.stopForTake
        if resume then s else s.endStops pos
      else if atEnd then s.endRun
      else if stop then s.stopRun
      else s
    (s.stretchStep).passOn next len

/-- KERF_COMMIT (R114): from kerf tick L - 4 on. -/
def execKerfCommit (p : KerfPower) (s : State) : Host.Outcome State Fault Refusal :=
  .next (
    if s.run.phase = .service then
      let s := s.reachTick (s.run.since + s.kerfLength - 4)
      let s := (s.addEnergy p).lowerTargets p
      let s := (List.range 6).foldl (fun s j => s.setLink j ((s.link j).applyCoeff s.run.kerfs)) s
      s.snapshotStep.commitPhase
    else s)

end Sys2Proof.Machine
end

