-- ==== Sys2Proof/Machine/Manager.lean ====
section
/-! DEFINITION. The operations of the manager's CMP ring (12_rings.md R351 to R356). -/

namespace Sys2Proof.Machine

/-- A manager operation: NOT_BOUND while no tenant is bound; a format fault is BAD_DESCRIPTOR (R340, R351). A label on a
manager ring is a silent violation once its form is good (10_tenancy.md R291). -/
def State.managerOp (s : State) (r opcode : Nat) (good : Desc → Bool) (body : State → OpRef → Desc → State) : State :=
  s.withOp 0 r 1 opcode (fun s o d =>
    match s.boundStatus with
    | some st => s.complete o st 0
    | none =>
      if good d then body s o d
      else if d.labelled ∧ good d.unlabelled ∧ s.checkLabel 0 [0x0A] d.label = .violation then (s.violate 0).complete o Status.ok 0
      else s.complete o Status.badDescriptor 0)

/-- The instance that the descriptor names; BAD_DESCRIPTOR where it is ABSENT. -/
def State.withInstance (s : State) (o : OpRef) (d : Desc) (body : State → Nat → State) : State :=
  let i := d.w0 32 6
  if i = 0 ∨ s.insState i = 0 then s.complete o Status.badDescriptor 0 else body s i

/-! ### Partitions -/

/-- ASSIGN: the unowned partition goes to the instance with its clusters and roles. A partition holds at least one cluster
(01_architecture.md R26): a mask without one does not fit (DEDUCED, log 25). -/
def State.doAssign (s : State) (o : OpRef) (d : Desc) : State :=
  let p := d.w0 40 2
  let roles := d.w0 42 3
  let mask := d.le 8 2
  s.withInstance o d (fun s i =>
    if (s.part p).owner.isSome then s.complete o Status.doesNotFit (misfit 0 0x03 p 0 0).2
    else if maskList 16 mask = [] then s.complete o Status.doesNotFit (misfit 0 0x05 p 0 0).2
    else match (maskList 16 mask).find? (fun k => s.benchMask k == 0 || (s.clusterPart k).isSome) with
      | some k => s.complete o Status.doesNotFit (misfit 0 0x05 p k 0).2
      | none =>
        let s := s.setPart p { Part.init with owner := some i, clusters := mask, roles := roles }
        ((s.showInstance i).rebuildTable).complete o Status.ok 0)

/-- ASSIGN (R351). -/
def execAssign (r : RingId) (s : State) : Host.Outcome State Fault Refusal :=
  .next (s.managerOp r 0x20 (fun d => d.good 0x1F3F 0xFFFF 0 0 .none) State.doAssign)

/-- RELEASE: the EMPTY partition has no owner any more, and its retained regions are released (19_recovery.md R496). -/
def State.doRelease (s : State) (o : OpRef) (d : Desc) : State :=
  let p := d.w0 40 2
  if (s.part p).state ≠ .empty then s.complete o Status.badDescriptor 0
  else
    let i := (s.part p).owner
    let s := (s.unloadPart p).setPart p Part.init
    let s := match i with
      | none => s
      | some i => s.showInstance i
    (s.pruneRegs.rebuildTable).complete o Status.ok 0

/-- RELEASE (R351). -/
def execRelease (r : RingId) (s : State) : Host.Outcome State Fault Refusal :=
  .next (s.managerOp r 0x21 (fun d => d.good 0x300 0 0 0 .none) State.doRelease)

/-! ### Device units -/

/-- Device units of each grant kind: namespaces, store queue pairs, remote-memory queue pairs, Ethernet queues, flow key
slots (14_shelf.md R382, R386; 15_ethernet.md; 16_rdma.md R439). -/
def unitCount (kind : Nat) : Nat :=
  match kind with
  | 0 => 256
  | 1 => 1024
  | 2 => 2048
  | 3 => 512
  | 4 => 1024
  | _ => 0

/-- The grants that a descriptor names. -/
def Desc.grants (d : Desc) : List Grant :=
  (List.range (d.le 12 4)).map (fun k => (⟨d.w0 40 4, d.le 8 4 + k, d.le 16 4 + k⟩ : Grant))

/-- The range of a GRANT or REVOKE lies in the kind's units. -/
def goodUnits (d : Desc) : Bool := decide (d.le 12 4 ≠ 0 ∧ d.le 8 4 + d.le 12 4 ≤ unitCount (d.w0 40 4))

/-- GRANT: units already granted do not fit; a range outside the kind's units, or a local index already mapped, is
BAD_DESCRIPTOR (DEDUCED, log 20). A remote-memory queue pair is in RESET at its grant (16_rdma.md R440). -/
def State.doGrant (s : State) (o : OpRef) (d : Desc) : State :=
  s.withInstance o d (fun s i =>
    if ¬ goodUnits d then s.complete o Status.badDescriptor 0
    else if d.grants.any (fun g => (s.holderOf g.kind g.unit).isSome) then s.complete o Status.doesNotFit 0
    else if d.grants.any (fun g => (s.unitOf i g.kind g.localIdx).isSome) then s.complete o Status.badDescriptor 0
    else
      let s := (d.grants.filter (fun g => g.kind == 2)).foldl (fun s g => s.qpClear g.unit) s
      (s.setFn i { s.fn i with grants := (s.fn i).grants ++ d.grants }).complete o Status.ok 0)

/-- GRANT (R351). -/
def execGrant (r : RingId) (s : State) : Host.Outcome State Fault Refusal :=
  .next (s.managerOp r 0x22 (fun d => d.good 0xF3F allBits 0xFFFFFFFF 0 .none) State.doGrant)

/-- Shelf commands on units of instance i that a predicate names complete with QUEUE_RESET, a peer's through an attached
queue pair among them. -/
def State.endCommands (s : State) (i : Nat) (p : ShelfCmd → Bool) : State :=
  let gone := s.shelf.cmds.filter (fun c => p c && (c.op.map (fun o => o.fn == i)).getD (s.holderOf 1 c.q == some i))
  let s := { s with shelf := { s.shelf with cmds := s.shelf.cmds.filter (fun c => !gone.contains c) } }
  (gone.foldl (fun s c => s.endShelf c.op c.q c.slot c.tag Status.queueReset 0) s).shelfStart

/-- The SEND of ring r of function i whose frame is on a line completes with QUEUE_RESET; the frame itself goes on. -/
def State.endLine (s : State) (i r : Nat) : State :=
  [0, 1].foldl (fun s p =>
    match (s.port p).line with
    | none => s
    | some f => match f.op with
      | none => s
      | some o =>
        if o.fn = i ∧ o.ring = r then
          (s.setPort p { s.port p with line := some { f with op := some OpRef.dead } }).complete o Status.queueReset 0
        else s) s

/-- Operations in flight on a revoked unit of instance i complete with QUEUE_RESET. -/
def State.endUnit (s : State) (i : Nat) (g : Grant) : State :=
  match g.kind with
  | 0 => s.endCommands i (fun c => c.ns == some g.unit)
  | 1 => s.endCommands i (fun c => c.q == g.unit)
  | 2 => s.qpError g.unit
  | 3 => (List.range 2).foldl (fun s k =>
      ((s.etxReset i (2 * g.localIdx + k) Status.queueReset).endLine i (2 * g.localIdx + k)).dropBufs i (2 * g.localIdx + k) Status.queueReset) s
  | _ => { s with eth := { s.eth with keys := Tab.set FlowKey.init s.eth.keys g.unit FlowKey.init } }

/-- REVOKE: the named grants end; one that does not exist is BAD_DESCRIPTOR (DEDUCED, log 20). -/
def State.doRevoke (s : State) (o : OpRef) (d : Desc) : State :=
  s.withInstance o d (fun s i =>
    if ¬ goodUnits d ∨ d.grants.any (fun g => !(s.fn i).grants.contains g) then s.complete o Status.badDescriptor 0
    else
      let s := d.grants.foldl (fun s g => s.endUnit i g) s
      (s.setFn i { s.fn i with grants := (s.fn i).grants.filter (fun g => !d.grants.contains g) }).complete o Status.ok 0)

/-- REVOKE (R351). -/
def execRevoke (r : RingId) (s : State) : Host.Outcome State Fault Refusal :=
  .next (s.managerOp r 0x23 (fun d => d.good 0xF3F allBits 0xFFFFFFFF 0 .none) State.doRevoke)

/-! ### Migration -/

/-- FREEZE (R354): an instance that is not ACTIVE, or that has a partition in a Plain of more than one member, is
BAD_DESCRIPTOR. Its running set stops as by STOP, and a START that waits is cancelled as by STOP (R188); the operation completes once everything has come to rest. -/
def State.doFreeze (s : State) (o : OpRef) (d : Desc) : State :=
  s.withInstance o d (fun s i =>
    if s.insState i ≠ 1 ∨ (s.inPlain ∧ s.ownedParts i ≠ []) then s.complete o Status.badDescriptor 0
    else
      let s := (s.setFn i { s.fn i with freeze := some o }).setInstance i 2
      let s := if (s.ownedParts i).any s.setParts.contains then
          (match s.run.phase with
           | .idle => if s.startPending then s.cancelStart else s
           | .round => s.cancelStart
           | _ => s.fetchStop)
        else s
      s.settleFreezes)

/-- FREEZE (R354). -/
def execFreeze (r : RingId) (s : State) : Host.Outcome State Fault Refusal :=
  .next (s.managerOp r 0x24 (fun d => d.good 0x3F 0 0 0 .none) State.doFreeze)

/-- THAW: FROZEN to ACTIVE; in any other state BAD_DESCRIPTOR (DEDUCED, log 20). -/
def State.doThaw (s : State) (o : OpRef) (d : Desc) : State :=
  s.withInstance o d (fun s i =>
    if s.insState i = 3 then (s.setInstance i 1).complete o Status.ok 0 else s.complete o Status.badDescriptor 0)

/-- THAW (R351). -/
def execThaw (r : RingId) (s : State) : Host.Outcome State Fault Refusal :=
  .next (s.managerOp r 0x27 (fun d => d.good 0x3F 0 0 0 .none) State.doThaw)

/-- The policy of the binding allows migration (R306). -/
def BindRec.migrates (r : BindRec) : Bool := bitOf r.policy 0

/-- SAVE (R355, R306): of a frozen instance; without the policy bit BAD_DESCRIPTOR (DEDUCED, log 16). The key index and
generation are free draws (R308). Poisoned lines go out as zero and the operation completes with INTEGRITY, with the
image written (07_memory.md R215, host DMA read; DEDUCED, log 16). -/
def State.doSave (s : State) (mismatch : Bool) (o : OpRef) (d : Desc) : State :=
  s.withInstance o d (fun s i =>
    match s.sec.record with
    | none => s.complete o Status.badDescriptor 0
    | some b =>
      if s.insState i ≠ 3 ∨ ¬ b.migrates then s.complete o Status.badDescriptor 0
      else if ¬ s.engineUp then s.complete o Status.internal 0
      else if mismatch then s.cipherMismatch.complete o Status.internal 0
      else
        let index := (s.freeBits 32).toNat
        let gen := (s.bumpFree.freeBits 32).toNat
        let (x, bad, s) := s.bumpFree.bumpFree.imageItems i
        let (pt, s) := s.freePlain x
        let n := chunksOf pt.length
        let len := 64 + pt.length + 16 * n
        if d.le 16 8 < len then s.complete o Status.noSpace len
        else
          let h := s.imageHeader i index gen len n
          let label := imageLabel b index gen
          let ct := sealChunks (s.workingKey b label) imageIv h n 0 pt
          let s := s.useKey label
          (s.setHostMem (Memory.write s.host.mem (d.le 8 8) (h ++ ct))).complete o (if bad then Status.integrity else Status.ok) len)

/-- SAVE (R355). -/
def execSave (r : RingId) (mismatch : Bool) (s : State) : Host.Outcome State Fault Refusal :=
  .next (s.managerOp r 0x25 (fun d => d.good 0x3F allBits allBits 0 .none) (fun s o d => s.doSave mismatch o d))

/-- RESTORE (R356): the checks in order; nothing is written before all have passed. Whether the image's regions fit, and
the source's binding digest, which must equal this module's (10_tenancy.md R306), show only once its chunks are open (log 16). -/
def State.doRestoreImage (s : State) (mismatch : Bool) (o : OpRef) (d : Desc) : State :=
  s.withInstance o d (fun s i =>
    let h := Memory.read s.host.mem (d.le 8 8) 64
    match s.sec.record with
    | none => s.complete o Status.badDescriptor 0
    | some b =>
      if ¬ b.migrates ∨ (List.range 256).any (s.ringEnabled i) ∨ d.le 16 8 < 64 ∨ ¬ goodImage h (d.le 16 8) then
        s.complete o Status.badDescriptor 0
      else if ¬ s.imageFits i h then s.complete o Status.doesNotFit 0
      else if ¬ s.engineUp then s.complete o Status.internal 0
      else if mismatch then s.cipherMismatch.complete o Status.internal 0
      else
        let len := fieldLE h 0x10 8
        let label := imageLabel b (fieldLE h 8 4) (fieldLE h 12 4)
        let n := fieldLE h 0x18 4
        let ct := Memory.read s.host.mem (d.le 8 8 + 64) (len - 64)
        let s := s.useKey label
        match openChunks (s.workingKey b label) imageIv h n 0 (len - 64 - 16 * n) ct with
        | none => s.complete o Status.integrity 0
        | some pt =>
          let x := s.itemsOf (listMask (s.ownedParts i)) pt
          if x.digest ≠ s.bindingDigest then s.complete o Status.integrity 0
          else if s.regionsFree i x ∧ s.ringsFit i x then (((s.putImage i x).gateValleys).setInstance i 3).complete o Status.ok 0
          else s.complete o Status.doesNotFit 0)

/-- RESTORE of an image (R356). -/
def execRestoreImage (r : RingId) (mismatch : Bool) (s : State) : Host.Outcome State Fault Refusal :=
  .next (s.managerOp r 0x26 (fun d => d.good 0x3F allBits allBits 0 .none) (fun s o d => s.doRestoreImage mismatch o d))

end Sys2Proof.Machine
end

