-- ==== Sys2Proof/Machine/MemEvents.lean ====
section
/-! DEFINITION. The events of the memory controllers (07_memory.md R205, R210, R219 to R228) and the pending map-outs of
stacks and benches (03_benches.md R105). -/

namespace Sys2Proof.Machine

/-! ### Refresh (R220, R221) -/

/-- MEMSLOTS entries of stack k in the loaded set. -/
def State.stackSlots (s : State) (k : Nat) : List MemSlot :=
  s.setParts.flatMap (fun p => match (s.part p).list with
    | none => []
    | some l => (l.memslots.filter (fun m => m.1 == k)).flatMap Prod.snd)

/-- Start tick of the current cut. -/
def State.cutAt (s : State) (l : Cutlist) : Nat :=
  if s.run.phase.inKerf then s.run.since - (l.cutRun s.run.cut).length else s.run.since

/-- The first stretch tick at or after tick t of a kerf of declared length n that starts at tick at_. Stretch adds its ticks
to the Service phase (04_cutlists.md R114; 06_plain.md R195); they are taken as its last ones (DESIGN CHOICE, log 8). -/
def stretchTick (at_ n stretch t : Nat) : Option Nat :=
  let first := max t (at_ + n - 4)
  if first < at_ + n - 4 + stretch then some first else none

/-- The first opportunity at or after tick t, from the cut at (pass, cut) that starts at tick at_ on: the windows of the
cut, kerf tick 12 of a refresh kerf, and stretch ticks (R220). -/
def Cutlist.opportunity (l : Cutlist) (ms : List MemSlot) (stretch t : Nat) : Nat → Nat → Nat → Nat → Option Nat
  | 0, _, _, _ => none
  | fuel + 1, at_, pass, cut =>
    let r := l.cutRun cut
    match ((opportunities ms r cut).map (at_ + ·)).find? (fun o => decide (t ≤ o)), stretchTick (at_ + r.length) r.kerf stretch t with
    | some o, some p => some (min o p)
    | some o, none => some o
    | none, some p => some p
    | none, none => let (p, c) := l.nextPos pass cut; l.opportunity ms stretch t fuel (at_ + r.length + r.kerf + stretch) p c

/-- The tick of the opportunity of stack k that comes now: with nothing running any tick; in a cut its next window; in a
Service phase kerf tick 12 of a refresh kerf, or the next stretch tick (R220). -/
def State.refreshTick (s : State) (k : Nat) : Option Nat :=
  match s.schedule with
  | none => some s.plain.tick
  | some l =>
    if ¬ s.scheduled then some s.plain.tick
    else
      let r := l.cutRun s.run.cut
      match s.run.phase with
      | .cut =>
        ((opportunities (s.stackSlots k) { r with refresh := false } s.run.cut).find? (fun o =>
          decide (s.plain.tick ≤ s.run.since + o))).map (fun o => s.run.since + o)
      | .service =>
        if r.refresh ∧ s.plain.tick ≤ s.run.since + 12 then some (s.run.since + 12)
        else stretchTick s.run.since r.kerf s.plain.stretch s.plain.tick
      | _ => none

/-- The longest interval of a band in ticks. -/
def bandTicks (b : Nat) : Nat := if b = 0 then 975 else if b = 1 then 487 else 243

/-- The interval of stack k's band would end before the next opportunity after tick t (R221). -/
def State.refreshNeeded (s : State) (k t : Nat) : Bool :=
  match s.schedule with
  | none => true
  | some l =>
    if s.scheduled then
      match l.opportunity (s.stackSlots k) s.plain.stretch (t + 1) 64 (s.cutAt l) s.run.pass s.run.cut with
      | none => true
      | some n => decide ((s.memUnit (stackUnit k)).refreshAt + bandTicks (s.fld (F.memStatusBand k)) < n)
    else true

/-- Patrol scrub in an idle window: 64 lines are read and what needed correction is written back; which lines is not
stated, so the first is a free value (log 7). -/
def State.patrol (s : State) (k : Nat) : State :=
  let u := stackUnit k
  let first := (s.freeBits 24).toNat * 64
  let s := s.bumpFree
  let m := s.memUnit u
  let hit : Nat → Bool := fun l => decide (first ≤ l ∧ l < first + 64)
  let s := ((m.flips.map Prod.fst).filter hit).foldl (fun s l => (s.readLine .home u l).2.2) s
  let m := s.memUnit u
  s.setMemUnit u ((m.writeback.filter hit).foldl MemUnit.writeBack m)

/-- REFRESH_STEP (R220, R221): at an opportunity a stack outside self-refresh runs a step if its band requires it, and
otherwise scrubs. -/
def execRefreshStep (k : StackId) (s : State) : Host.Outcome State Fault Refusal :=
  .next (
    if ¬ s.flag (F.memStatusPresent k) ∨ s.flag (F.memStatusSelfRefresh k) then s
    else match s.refreshTick k with
      | none => s
      | some t =>
        let s := s.reachTick t
        if s.refreshNeeded k t then s.setMemUnit (stackUnit k) { s.memUnit (stackUnit k) with refreshAt := t } else s.patrol k)

/-! ### Temperature (R222) -/

/-- Since when a condition holds, with its value now. -/
def holdSince (now : Nat) (old : Option Nat) (v : Bool) : Option Nat := if v then some (old.getD now) else none

/-- It has held for 1 ms. -/
def heldMs (now : Nat) (x : Option Nat) : Bool := (x.map (fun t => decide (t + 1000000 ≤ now))).getD false

/-- STACK_TEMP_READ (R222): a higher band at once, a lower one after 1 ms at least 3 degrees below its bound. -/
def execStackTempRead (k : StackId) (temp : BitVec 8) (s : State) : Host.Outcome State Fault Refusal :=
  .next (
    if s.flag (F.memStatusPresent k) then
      let t := temp.toNat
      let s := s.setFld (F.memTempCurrent k) t
      let s := s.setFld (F.memTempPeak k) (max t (s.fld (F.memTempPeak k)))
      let u := stackUnit k
      let m := s.memUnit u
      let c0 := holdSince s.now m.cool0 (decide (t ≤ 82))
      let c1 := holdSince s.now m.cool1 (decide (t ≤ 92))
      let s := s.setMemUnit u { m with cool0 := c0, cool1 := c1 }
      let want := if t ≤ 85 then 0 else if t ≤ 95 then 1 else 2
      let cur := s.fld (F.memStatusBand k)
      let band := if cur ≤ want then want else if heldMs s.now c0 then 0 else if heldMs s.now c1 then min cur 1 else cur
      s.setFld (F.memStatusBand k) band
    else s)

/-! ### Self-refresh (R223) -/

/-- SELF_REFRESH_ENTRY (R223): 1 ms after the last access to a stack that no loaded cutlist names and that holds no page
pool. The command comes at that moment or later: a stack accessed less than 1 ms ago stays as it is (log 2). -/
def execSelfRefreshEntry (k : StackId) (s : State) : Host.Outcome State Fault Refusal :=
  .next (
    if s.flag (F.memStatusPresent k) ∧ ¬ s.stackNamed k ∧ ¬ s.holdsPool k
        ∧ (s.memUnit (stackUnit k)).accessAt + 1000000 ≤ s.now then s.setFlag (F.memStatusSelfRefresh k) true else s)

/-! ### Write-backs (R205, R210) -/

/-- HBM_ECC_WRITE_BACK (R210): a corrected line that waits for it is stored corrected. -/
def execHbmEccWriteBack (k : StackId) (line : BitVec 30) (s : State) : Host.Outcome State Fault Refusal :=
  .next (
    let u := stackUnit k
    let m := s.memUnit u
    if m.writeback.contains line.toNat then
      s.setMemUnit u (m.writeBack line.toNat)
    else s)

/-- NST_ECC_WRITE_BACK (R205): a corrected line is stored corrected, and an uncorrectable one with its poison bit. -/
def execNstEccWriteBack (d : DieId) (line : BitVec 25) (s : State) : Host.Outcome State Fault Refusal :=
  .next (
    let m := s.memUnit d
    let l := line.toNat
    if m.repoison.contains l then s.setMemUnit d (m.putLine l [] true)
    else if m.writeback.contains l then
      s.setMemUnit d (m.writeBack l)
    else s)

/-! ### Page slots (R219) -/

/-- SLOT_ZERO_REWRITE_DONE (R219): every line of a freed slot has been rewritten; commits that waited apply, at the next
kerf where kerfs occur. -/
def execSlotZeroRewriteDone (k : StackId) (granule : BitVec 20) (s : State) : Host.Outcome State Fault Refusal :=
  .next (
    let u := stackUnit k
    let g := granule.toNat
    let x := s.granule u g
    if x.pool ∧ x.rewriting then
      let s := s.setGranule u g { x with rewriting := false }
      let here := fun (c : PageCommit) => c.unit == u && c.granules.contains g
      if s.scheduled then
        { s with run := { s.run with commits := s.run.commits.map (fun c => if here c then { c with kerf := max c.kerf s.nextKerf } else c) } }
      else s.runCommits
    else s)

/-! ### Map-outs (R227, R228; 03_benches.md R105) -/

/-- Partitions with a region on stack k, of the loaded or retained list or of the staged one. -/
def State.stackParts (s : State) (k : Nat) : Nat :=
  listMask (allParts.filter (fun p =>
    (s.heldRegions p ++ ((s.part p).staged.map (fun l => l.regions)).getD []).any (fun r => r.hbm && r.unit == k)))

/-- STACK_INTERFACE_FAILURE (R228, R492): the stack leaves service at once and is mapped out; every partition with a region
on it is faulted, cause STACK, L2. -/
def execStackInterfaceFailure (k : StackId) (s : State) : Host.Outcome State Fault Refusal :=
  .next (
    if s.flag (F.memStatusPresent k) then
      let mask := s.stackParts k
      let t : Trouble := ⟨2, 0x06, k, .parts mask, 0⟩
      let s := ((s.setFld (F.memCtrlMapOut k) 1).dropStack k).critical 0x03 k
      if mask = 0 then s
      else if s.touches t.scope then s.raiseHalt t
      else (s.addFault t).serveReports
    else s)

/-- STACK_MAP_OUT_APPLY (R227): a pending map-out applies once no loaded cutlist names the stack. -/
def execStackMapOutApply (k : StackId) (s : State) : Host.Outcome State Fault Refusal :=
  .next (if s.flag (F.memStatusMapPending k) ∧ ¬ s.stackNamed k then s.dropStack k else s)

/-- BENCH_MAP_OUT_APPLY (R105): a pending map-out applies once no loaded cutlist schedules the bench. -/
def execBenchMapOutApply (b : BenchId) (s : State) : Host.Outcome State Fault Refusal :=
  .next (if s.flag (F.bncStatusMapPending b) ∧ ¬ s.benchScheduled b then s.dropBench b else s)

/-- LINK_MAP_OUT_APPLY (R198): a map-out that waits applies once no Plain is formed; while one forms, the member's record may
then be due. -/
def execLinkMapOutApply (j : LinkId) (s : State) : Host.Outcome State Fault Refusal :=
  .next (
    if s.flag (F.dvtLinkStatusMapPending j) ∧ ¬ s.flag F.dvtPlainFormed then
      ((((s.setFlag (F.dvtLinkStatusMapPending j) false).setLinkState j 5).gateValley 34).rebuildTable).sendRecord
    else s)

end Sys2Proof.Machine
end

