-- ==== Sys2Proof/Machine/Telemetry.lean ====
section
/-! DEFINITION. Sensors, the lifetime log's saves and its copy for the manager (17_time.md R469 to R478). -/

namespace Sys2Proof.Machine

/-! ### Sensors (R469, R470) -/

/-- Temperatures. -/
def isTemp (n : Nat) : Bool := decide (n < 20)

/-- How far a sample returns past the warning threshold before a flag clears, in the sensor's unit. -/
def returnBy (n : Nat) : Int := if isTemp n then 3 else if n = 21 then 1000 else if n = 22 then 50 else 500

/-- The sample has returned past the warning threshold. -/
def returned (n : Nat) (v : Int) (warn : Nat) : Bool :=
  if fromAbove n then decide ((warn : Int) + returnBy n ≤ v) else decide (v ≤ (warn : Int) - returnBy n)

/-- A crossing: the TELEMETRY event and the lifetime-log record (R470, R475); the power core's line asserts. -/
def State.crossed (s : State) (n detail : Nat) : State :=
  let s := (s.event 0 0x0A n detail).raiseFw 1 1
  if detail = 3 then s else s.logEvent 0x010A n (leBytes 4 detail)

/-- One sample of sensor n (R470, R471): its flags set at their thresholds with an event each, and clear together with one
event when the sample has returned. -/
def State.sample (s : State) (n : Nat) (v : Int) : State :=
  let warn := s.fld (F.tlmThreshWarn n)
  let crit := s.fld (F.tlmThreshCrit n)
  let s := s.setFld (F.tlmSensorValue n) (unsigned 24 v)
  let s := if past n v warn ∧ ¬ s.flag (F.tlmSensorWarn n) then
      let s := (s.setFlag (F.tlmSensorWarn n) true).crossed n 1
      if isTemp n then s.wake 6 else s
    else s
  let s := if past n v crit ∧ ¬ s.flag (F.tlmSensorCrit n) then
      ((s.setFlag (F.tlmSensorCrit n) true).crossed n 2).critical 0x07 n
    else s
  if returned n v warn ∧ (s.flag (F.tlmSensorWarn n) ∨ s.flag (F.tlmSensorCrit n)) then
    ((s.setFlag (F.tlmSensorWarn n) false).setFlag (F.tlmSensorCrit n) false).crossed n 3
  else s

/-- The largest of a value and readings, as an unsigned byte. -/
def peak (old : Nat) (vs : List Int) : Nat := vs.foldl (fun m v => max m (min 255 v.toNat)) old

/-- The open day's peak temperatures: dies, HBM, inlet (R476). -/
def State.dayPeaks (s : State) : State :=
  let v : Nat → Int := fun n => signed 24 (s.fld (F.tlmSensorValue n))
  let x := s.log.day
  { s with log := { s.log with day := { x with
    peakDie := peak x.peakDie ((List.range 5).map v)
    peakHbm := peak x.peakHbm ((List.range 12).map (fun k => v (5 + k)))
    peakInlet := peak x.peakInlet [v 19] } } }

/-- SENSOR_SAMPLE (R469): every sensor is sampled; sensors 5 to 16 read MEM_TEMP.current, the others what the command
carries; a sensor that it carries no value for keeps its last sample. -/
def execSensorSample (vals : List Int) (s : State) : Host.Outcome State Fault Refusal :=
  .next (
    if s.pins.aux then
      let s := (List.range 25).foldl (fun s n =>
        if 5 ≤ n ∧ n ≤ 16 then s.sample n (s.fld (F.memTempCurrent (n - 5)))
        else match vals[n]? with
          | some v => s.sample n v
          | none => s) s
      s.dayPeaks
    else s)

/-! ### Saves (R476, R477) -/

/-- A copy of the counters: sequence number, the 21 counters, CRC-32 (layout DESIGN CHOICE, log 18). -/
def State.counterBytes (s : State) (seq : Nat) : List Byte :=
  let body := leBytes 8 seq ++ (List.range 21).flatMap (fun k => leBytes 8 (s.logCounter k))
  body ++ leBytes 4 (Crypto.crc32 body)

/-- Offset of copy n of the counters. -/
def copyAt (n : Nat) : Nat := logBase + 0x30000 + 0x10000 * (n % 2)

/-- The calendar record of a day (R476). -/
def Day.record (d : Day) : List Byte :=
  leBytes 4 d.number ++ leBytes 4 d.powered ++ leBytes 8 (d.energy / wattHour) ++ leBytes 1 d.peakDie ++ leBytes 1 d.peakHbm
    ++ leBytes 1 d.peakInlet ++ leBytes 1 0 ++ (List.range 8).flatMap (fun k => leBytes 4 (Tab.get 0 d.bins k))
    ++ leBytes 4 d.critical ++ leBytes 8 0

/-- The open day is saved in its place. -/
def State.saveDay (s : State) : State := s.logRing 0x50000 11264 s.log.days s.log.day.record

/-- HOURLY_SAVE (R476, R477): the older copy takes the counters with the next sequence number; the open day is saved. -/
def execHourlySave (s : State) : Host.Outcome State Fault Refusal :=
  .next (
    if s.pins.aux then
      let seq := s.log.saved + 1
      let s := s.flashWrite (copyAt seq) (s.counterBytes seq)
      let s : State := { s with log := { s.log with saved := seq } }
      s.saveDay
    else s)

/-- ns in a day. -/
def dayNs : Nat := 86400 * 1000000000

/-- DAY_BOUNDARY (R476): the open day is closed at the boundary of device time, and the next one opens. -/
def execDayBoundary (s : State) : Host.Outcome State Fault Refusal :=
  .next (
    if s.pins.aux then
      let s := if s.deviceTime / dayNs ≤ s.log.day.number then s.passTime (s.nsFor (dayNs - s.deviceTime % dayNs)) else s
      let s := s.saveDay
      { s with log := { s.log with days := s.log.days + 1, day := { Day.init with number := s.deviceTime / dayNs } } }
    else s)

/-! ### V38 leaves reset (R477) -/

/-- A copy of the counters as it lies in the flash, where its CRC is good: sequence number and bytes. -/
def State.goodCopy (s : State) (n : Nat) : Option (Nat × List Byte) :=
  let bs := Memory.read s.fw.flash (copyAt n) 180
  if Crypto.crc32 (bs.take 176) = fieldLE bs 176 4 ∧ fieldLE bs 0 8 ≠ 0 then some (fieldLE bs 0 8, bs) else none

/-- The saved day as it lies in the flash. -/
def State.savedDay (s : State) : Day :=
  let bs := Memory.read s.fw.flash (logBase + 0x50000 + 64 * (s.log.days % 11264)) 64
  { number := fieldLE bs 0 4, powered := fieldLE bs 4 4, energy := fieldLE bs 8 8 * wattHour, peakDie := fieldLE bs 16 1
    peakHbm := fieldLE bs 17 1, peakInlet := fieldLE bs 18 1
    bins := (List.range 8).foldl (fun t k => Tab.set 0 t k (fieldLE bs (20 + 4 * k) 4)) [], critical := fieldLE bs 52 4 }

/-- V38 reads the newer good copy of the counters, and the open day as it was saved. -/
def State.readLog (s : State) : State :=
  let pick := match s.goodCopy 0, s.goodCopy 1 with
    | some a, some b => some (if a.1 < b.1 then b else a)
    | some a, none => some a
    | none, b => b
  let counters := match pick with
    | none => []
    | some (_, bs) => (List.range 21).foldl (fun t k => Tab.set 0 t k (fieldLE bs (8 + 8 * k) 8)) []
  { s with log := { s.log with counters := counters, saved := (pick.map Prod.fst).getD 0, day := s.savedDay, uj := 0, nand := 0, erases := 0 } }

/-! ### The manager's copy (R478) -/

/-- LOG_READ (R478): region offsets 0x03_0000 to the end go to manager memory; an address that is not a multiple of 4 KiB is
BAD_DESCRIPTOR (DEDUCED, log 21). -/
def execLogRead (s : State) : Host.Outcome State Fault Refusal :=
  .next (
    if s.request 10 = 1 ∧ s.dmaOk 0 then
      let s := (s.setRequest 10 0).setFlag F.tlmLogStatusBusy false
      let a := s.fld F.tlmLogAddrLoAddr + s.fld F.tlmLogAddrHiAddr * 2 ^ 32
      if a % 4096 ≠ 0 then s.setFld F.tlmLogStatusResult Status.badDescriptor
      else
        (s.setHostMem (Memory.write s.host.mem a (Memory.read s.fw.flash (logBase + 0x30000) 0x3D0000))).setFld
          F.tlmLogStatusResult Status.ok
    else s)

end Sys2Proof.Machine
end

