-- ==== Sys2Proof/Machine/Mgmt.lean ====
section
/-! DEFINITION. The management endpoint: MCTP, PLDM and SMBus arbitration (17_time.md R472, R473). Response layouts are
those of MCTP and PLDM (PRESUMED, log 17). -/

namespace Sys2Proof.Machine

/-- The message reaches the endpoint: V38 runs, the SMBus address is the device's, an I3C target has its dynamic address and the
message names it, and PCIe VDM asks for the manager function (R472; 22_module.md R534). -/
def State.busUp (s : State) (bus : MgmtBus) : Bool :=
  s.pins.aux && (match bus with
    | .smbus a => a == s.strapAddr
    | .i3c a => s.mgmt.i3cAddr == some a
    | .vdm => s.railsGood && s.host.published)

/-- A request on a bus gets its answer. -/
def State.onBus (s : State) (bus : MgmtBus) (body : State → State) : State := if s.busUp bus then body s else s

/-- The sensor of a PLDM sensor ID (R469). -/
def sensorOf (id : Nat) : Option Nat := if 1 ≤ id ∧ id ≤ 25 then some (id - 1) else none

/-- The I3C broadcast address. -/
def i3cAll : BitVec 7 := 0x7E

/-- Message types that are taken beside control, as the endpoint names them. -/
def mctpTypes : List Nat := [0x01, 0x7E]

/-- MCTP_CONTROL (R472): the endpoint ID is assigned or read, or the endpoint says what it is; another control command is answered
ERROR_UNSUPPORTED_CMD (0x05). A message of a type that is not taken is discarded, a vendor-defined one with another command too. The
I3C bus assigns the target's dynamic address, to all or to the static address (22_module.md R534). -/
def execMctpControl (bus : MgmtBus) (op : MctpOp) (s : State) : Host.Outcome State Fault Refusal :=
  .next (
    match op with
    | .setEid e => s.onBus bus (fun s =>
        ({ s with mgmt := { s.mgmt with eid := e.toNat } }).sendMgmt bus 0x01 (leBytes 2 0 ++ leBytes 1 e.toNat ++ leBytes 1 0))
    | .getEid => s.onBus bus (fun s => s.sendMgmt bus 0x02 (leBytes 1 0 ++ leBytes 1 s.mgmt.eid ++ leBytes 2 0))
    | .getUuid => s.onBus bus (fun s => s.bumpFree.sendMgmt bus 0x03 (leBytes 1 0 ++ leBytes 16 (s.freeBits 128).toNat))
    | .getVersion t => s.onBus bus (fun s =>
        if t = 0 ∨ t = 0xFF ∨ mctpTypes.contains t.toNat then
          s.bumpFree.sendMgmt bus 0x04 (leBytes 1 0 ++ leBytes 1 1 ++ leBytes 4 (s.freeBits 32).toNat)
        else s.sendMgmt bus 0x04 (leBytes 1 0x80))
    | .getTypes => s.onBus bus (fun s => s.sendMgmt bus 0x05 (leBytes 1 0 ++ leBytes 1 mctpTypes.length ++ mctpTypes.flatMap (leBytes 1)))
    | .getVendor => s.onBus bus (fun s => s.sendMgmt bus 0x06 (leBytes 1 0 ++ leBytes 1 0xFF ++ leBytes 1 0 ++ Config.vendorId.take 2 ++ leBytes 2 1))
    | .control c => s.onBus bus (fun s => s.sendMgmt bus c.toNat (leBytes 1 0x05))
    | .other _ => s
    | .i3cAddress a => if s.pins.aux ∧ (bus = .i3c i3cAll ∨ bus = .i3c s.strapAddr) then { s with mgmt := { s.mgmt with i3cAddr := some a } } else s)

/-- PLDM type 2 commands that are taken; each has a command of its own. -/
def pldmTaken : List Nat := [0x02, 0x04, 0x10, 0x11, 0x12, 0x50, 0x51]

/-- The commands of a PLDM type that is taken. -/
def pldmCommands (type : BitVec 6) : Option (List Nat) :=
  if type = 0 then some [0x02, 0x03, 0x04, 0x05] else if type = 2 then some pldmTaken else none

/-- PLDM_DISCOVERY (R472): of type 0 GetPLDMTypes answers types 0 and 2, GetPLDMVersion a free value and GetPLDMCommands the commands
of a type that is taken, or ERROR for another type (0x83). Any other command, or type, that is not taken is answered
ERROR_UNSUPPORTED_PLDM_CMD (0x05). -/
def execPldmDiscovery (bus : MgmtBus) (type : BitVec 6) (ask : PldmAsk) (s : State) : Host.Outcome State Fault Refusal :=
  .next (s.onBus bus (fun s =>
    if type = 0 ∧ ask.cmd = 4 then s.sendMgmt bus 0x04 (leBytes 1 0 ++ leBytes 8 0x5)
    else if type = 0 ∧ (ask.cmd = 3 ∨ ask.cmd = 5) then
      match pldmCommands ask.asked with
      | none => s.sendMgmt bus ask.cmd.toNat (leBytes 1 0x83)
      | some cs =>
        if ask.cmd = 3 then s.bumpFree.sendMgmt bus 0x03 (leBytes 1 0 ++ leBytes 4 0 ++ leBytes 1 5 ++ leBytes 8 (s.freeBits 64).toNat)
        else s.sendMgmt bus 0x05 (leBytes 1 0 ++ leBytes 32 (listMask cs))
    else if type = 2 ∧ pldmTaken.contains ask.cmd.toNat ∨ type = 0 ∧ ask.cmd = 2 then s
    else s.sendMgmt bus ask.cmd.toNat (leBytes 1 0x05)))

/-- GET_TID (R472): the terminus identifier is a free value. -/
def execGetTid (bus : MgmtBus) (s : State) : Host.Outcome State Fault Refusal :=
  .next (s.onBus bus (fun s => s.bumpFree.sendMgmt bus 0x02 (leBytes 1 0 ++ leBytes 1 (s.freeBits 8).toNat)))

/-- SET_EVENT_RECEIVER (R472): critical events go to it from now on (R471), or to none. -/
def execSetEventReceiver (bus : MgmtBus) (eid : Option (BitVec 8)) (s : State) : Host.Outcome State Fault Refusal :=
  .next (s.onBus bus (fun s =>
    let s : State := { s with mgmt := { s.mgmt with receiver := eid.map (fun e => (bus, e.toNat)) } }
    s.sendMgmt bus 0x04 (leBytes 1 0)))

/-- GET_PDR_REPOSITORY_INFO (R472): one record per sensor; update times and sizes are free values. -/
def execGetPdrRepositoryInfo (bus : MgmtBus) (s : State) : Host.Outcome State Fault Refusal :=
  .next (s.onBus bus (fun s =>
    s.bumpFree.sendMgmt bus 0x50 (leBytes 1 0 ++ leBytes 1 0 ++ leBytes 26 (s.freeBits 208).toNat ++ leBytes 4 25
      ++ leBytes 9 (s.freeBits 72).toNat)))

/-- GET_PDR (R472): record n describes sensor n - 1, record 0 is the first; what R469 does not state of it is free. -/
def execGetPdr (bus : MgmtBus) (record : W32) (s : State) : Host.Outcome State Fault Refusal :=
  .next (s.onBus bus (fun s =>
    let n := if record = 0 then 1 else record.toNat
    match sensorOf n with
    | none => s.sendMgmt bus 0x51 (leBytes 1 0x82)
    | some _ =>
      s.bumpFree.sendMgmt bus 0x51 (leBytes 1 0 ++ leBytes 4 (if n = 25 then 0 else n + 1) ++ leBytes 4 n ++ leBytes 1 1
        ++ leBytes 1 2 ++ leBytes 2 n ++ leBytes 64 (s.freeBits 512).toNat)))

/-- A value as 32 signed bits. -/
def le32 (v : Int) : List Byte := leBytes 4 (unsigned 32 v)

/-- GET_SENSOR_READING (R472): operational state, present state, and the last sample. -/
def execGetSensorReading (bus : MgmtBus) (id : BitVec 16) (s : State) : Host.Outcome State Fault Refusal :=
  .next (s.onBus bus (fun s =>
    match sensorOf id.toNat with
    | none => s.sendMgmt bus 0x11 (leBytes 1 0x80)
    | some n =>
      let present := if s.flag (F.tlmSensorCrit n) then 3 else if s.flag (F.tlmSensorWarn n) then 2 else 1
      s.sendMgmt bus 0x11 (leBytes 1 0 ++ leBytes 1 5 ++ leBytes 1 (Tab.get 0 s.mgmt.enables n) ++ leBytes 1 present
        ++ le32 (signed 24 (s.fld (F.tlmSensorValue n))))))

/-- SET_NUMERIC_SENSOR_ENABLE (R472): the sensor's operational state, 0 to 2. -/
def execSetNumericSensorEnable (bus : MgmtBus) (id : BitVec 16) (op : BitVec 8) (s : State) : Host.Outcome State Fault Refusal :=
  .next (s.onBus bus (fun s =>
    match sensorOf id.toNat with
    | none => s.sendMgmt bus 0x10 (leBytes 1 0x80)
    | some n =>
      if 2 < op.toNat then s.sendMgmt bus 0x10 (leBytes 1 0x81)
      else
        let s : State := { s with mgmt := { s.mgmt with enables := Tab.set 0 s.mgmt.enables n op.toNat } }
        s.sendMgmt bus 0x10 (leBytes 1 0)))

/-- GET_SENSOR_THRESHOLDS (R472): upper warning and critical, or lower ones of a voltage. -/
def execGetSensorThresholds (bus : MgmtBus) (id : BitVec 16) (s : State) : Host.Outcome State Fault Refusal :=
  .next (s.onBus bus (fun s =>
    match sensorOf id.toNat with
    | none => s.sendMgmt bus 0x12 (leBytes 1 0x80)
    | some n =>
      let pair := leBytes 4 (s.fld (F.tlmThreshWarn n)) ++ leBytes 4 (s.fld (F.tlmThreshCrit n)) ++ leBytes 4 0
      let none_ := leBytes 12 0
      s.sendMgmt bus 0x12 (leBytes 1 0 ++ leBytes 1 5 ++ (if fromAbove n then none_ ++ pair else pair ++ none_))))

/-- HOST_ATTENTION (R472): the vendor-defined command sets mgmt_request. -/
def execHostAttention (bus : MgmtBus) (s : State) : Host.Outcome State Fault Refusal :=
  .next (s.onBus bus (fun s => s.wake 1))

/-! ### SMBus arbitration (R473) -/

/-- One more loss of the transaction; after 8 lost retries it is dropped, counted and logged, and those behind it go out. -/
def State.loseBus (s : State) : State :=
  (s.count F.tlmMbusArbLost 1).alert (fun s =>
    let n := s.mgmt.lost + 1
    if n ≤ 8 then { s with mgmt := { s.mgmt with lost := n } }
    else
      let s : State := { s with mgmt := { s.mgmt with smbus := none } }
      ((s.count F.tlmMbusArbDrop 1).logEvent 0x010A 0xFF []).drainMgmt)

/-- SMBUS_ARBITRATION_LOST (R473): the transaction that the device drove loses. -/
def execSmbusArbitrationLost (s : State) : Host.Outcome State Fault Refusal :=
  .next (if s.pins.aux ∧ s.mgmt.smbus.isSome ∧ s.mgmt.lost = 0 then s.loseBus else s)

/-- SMBUS_RETRY (R473): after the back-off, whose length is left open, the transaction is driven again; it loses, or goes
through. -/
def execSmbusRetry (lost : Bool) (s : State) : Host.Outcome State Fault Refusal :=
  .next (
    match s.mgmt.smbus with
    | none => s
    | some (code, bytes) =>
      if ¬ s.pins.aux ∨ s.mgmt.lost = 0 then s
      else if lost then s.loseBus
      else s.alert (fun s => (s.emit (.mgmt (.smbus s.strapAddr) code bytes)).drainMgmt))

end Sys2Proof.Machine
end

