-- ==== Sys2Proof/Machine/ModulePins.lean ====
section
/-! DEFINITION. Supplies, PERST_N and the thermal trip (22_module.md R533 to R540; 11_pcie.md R327, R331, R332). -/

namespace Sys2Proof.Machine

/-! ### Reset pins -/

/-- The security core leaves reset, PERST_N being high and the rails good (R537 step 5). After rails that were off the device
starts from its reset values, as after power-on. The return to D0 services a wake that is pending: WAKE_N deasserts, and its
messages stop (11_pcie.md R331 to R333). -/
def State.release (s : State) : State :=
  if s.railsGood ∧ s.pins.perst then
    let s := if s.rcv.levels.any (fun l => l.level == 4) then s else s.warmReset
    let s := if s.pins.wakeN then s.emit (.pin "WAKE_N" true) else s
    { s with
      host := { s.host with serviced := (s.fn 0).pmeStatus }
      pins := { s.pins with released := true, wakeN := false } }
  else s

/-- PERST_N_ASSERT (11_pcie.md R327): with the rails good an L4 of the whole device, held until PERST_N deasserts; its cause
and detail are those of a manager's request of L4 (DEDUCED, log 20). -/
def execPerstNAssert (s : State) : Host.Outcome State Fault Refusal :=
  .next (
    if s.pins.perst then
      let good := s.railsGood
      let s : State := { s with pins := { s.pins with perst := false } }
      let s := if good then s.beginLevel (s.see ⟨4, 0x09, 4, .device, 0⟩) 4 .device false 0 else s
      { s with pins := { s.pins with released := false } }
    else s)

/-- PERST_N_DEASSERT (R537): releases the security core, at once or when the rails come up. -/
def execPerstNDeassert (s : State) : Host.Outcome State Fault Refusal :=
  .next (
    if s.pins.perst then s
    else
      let s : State := { s with pins := { s.pins with perst := true } }
      s.release)

/-! ### Supplies (R535 to R538) -/

/-- V38 leaves reset: its registers and clocks start anew; device time starts from the real-time clock where that is valid
(17_time.md R459), the log from its saved copies, and the straps are sampled (R534). -/
def State.startV38 (s : State) (straps : Nat) : State :=
  let valid := s.flag F.timStatusRtcValid
  let rtc := s.fld F.timRtcSeconds
  let s : State := { s.dropRegs auxReg with
    tim := { Tim.init with rtcFrac := s.tim.rtcFrac }, mgmt := Mgmt.init
    pins := { s.pins with aux := true, straps := straps } }
  let s := ((s.setFld F.timRtcSeconds rtc).setFlag F.timStatusRtcValid valid).setFld F.timNowNs (if valid then rtc * secondNs else 0)
  s.readLog

/-- AUX_3V3_APPLY (R537): step 1; rails whose supply is there already come up. -/
def execAux3v3Apply (straps : BitVec 3) (s : State) : Host.Outcome State Fault Refusal :=
  .next (if s.pins.aux then s else (s.startV38 straps.toNat).release)

/-- AUX_3V3_LOSS (R538): every rail goes off as if both supplies had failed; V38 loses its state, PME_Status and wake causes
among it. Its open-drain pins sink no more: WAKE_N, SMBALERT_N and TRAY_PWRCYC_N go high. The real-time clock runs on (17_time.md
R467). -/
def execAux3v3Loss (s : State) : Host.Outcome State Fault Refusal :=
  .next (
    if s.pins.aux then
      let s := if s.railsGood then s.railsOff else s
      let s := (s.setFld ⟨F.hifWakeCauseRtcAlarm.addr, 0, 7⟩ 0).setFld F.hifWakeEnEnable 0
      let s := s.setFn 0 { s.fn 0 with pmeEn := false, pmeStatus := false }
      let s := if s.pins.wakeN then s.emit (.pin "WAKE_N" true) else s
      let s := if s.mgmt.awaits then s.emit (.pin "SMBALERT_N" true) else s
      let s := if s.pins.pwrcyc.isSome then s.emit (.pin "TRAY_PWRCYC_N" true) else s
      { s with rcv := Rcv.init, mgmt := Mgmt.init, pins := { s.pins with aux := false, pwrcyc := none, wakeN := false } }
    else s)

/-- A temperature is still at or above its warning threshold (R540). -/
def State.stillHot (s : State) : Bool :=
  (List.range 20).any (fun n => past n (signed 24 (s.fld (F.tlmSensorValue n))) (s.fld (F.tlmThreshWarn n)))

/-- P54V_APPLY (R537, R540): a power cycle is counted; a thermal trip clears where every temperature is below its warning;
rails that come up release a PERST_N that is high. -/
def execP54vApply (s : State) : Host.Outcome State Fault Refusal :=
  .next (
    if s.pins.p54v then s
    else
      let s : State := { s with pins := { s.pins with p54v := true } }
      let s := if s.pins.aux then s.logCount 1 1 else s
      let s := if s.pins.tripped ∧ ¬ s.stillHot then
          ({ s with pins := { s.pins with tripped := false } }).emit (.pin "THERMTRIP_N" true)
        else s
      s.release)

/-- P54V_LOSS (R538, 11_pcie.md R331): D3cold. The power-cycle request and what followed it are over (DEDUCED, log 22). -/
def execP54vLoss (s : State) : Host.Outcome State Fault Refusal :=
  .next (
    if s.pins.p54v then
      let s := if s.railsGood then s.railsOff else s
      { s with rcv := Rcv.init, pins := { s.pins with p54v := false } }
    else s)

/-! ### Thermal trip (R540) -/

/-- THERMAL_TRIP (R540): a die or stack reaches its trip temperature: the rails go off, THERMTRIP_N asserts, critical event
0x07 and its record follow. A power-cycle request goes on in its time (19_recovery.md R503). Sensors beyond the dies and stacks have no trip. -/
def execThermalTrip (sensor : BitVec 5) (s : State) : Host.Outcome State Fault Refusal :=
  .next (
    let n := sensor.toNat
    if n ≤ 16 ∧ s.railsGood then
      let s := s.railsOff
      let s := ({ s with pins := { s.pins with tripped := true } }).emit (.pin "THERMTRIP_N" false)
      s.critical 0x07 n
    else s)

end Sys2Proof.Machine
end

