-- ==== Sys2Proof/Machine/Power.lean ====
section
/-! DEFINITION. Timing slack (18_power.md R480). -/

namespace Sys2Proof.Machine

/-- SLACK_LOW (R480, 19_recovery.md R492): a monitor of a powered valley reports less than 4% slack: the target rises by one
step, and at 900 mV the valley faults, at L1, or at L3 for a fabric valley V(5d+4). V38 has a fixed voltage. -/
def execSlackLow (v : ValleyId) (s : State) : Host.Outcome State Fault Refusal :=
  .next (
    let n : Nat := v
    let mv := s.fld (F.pwrVtargetMv n)
    if n = 38 ∨ ¬ s.flag (F.vlyStatePowered n) then s
    else if mv < 900 then s.setTarget n (min 900 (mv + 5))
    else if n < 20 ∧ n % 5 = 4 then s.valleyFault ⟨3, 0x07, n, .device, 0⟩
    else s.valleyFault ⟨1, 0x07, n, .valley n, 0⟩)

end Sys2Proof.Machine
end

