-- ==== Sys2Proof/Machine/Rdma.lean ====
section
/-! DEFINITION. Remote memory's commands (16_rdma.md): work requests and queue-pair operations of RMA rings, the packets of
peers, timers. -/

namespace Sys2Proof.Machine

/-! ### Operations of RMA rings -/

/-- An operation on the queue pair of its ring; without a granted queue pair it is a translation miss (R352). -/
def State.rmaOp (s : State) (i r opcode : Nat) (body : State → OpRef → Nat → Desc → State) : State :=
  s.withOp i r 5 opcode (fun s o d =>
    match s.qpOf i r with
    | none => (s.violate i).complete o Status.ok 0
    | some n => body s o n d)

/-- As rmaOp, for operations that touch tenant data (R286). -/
def State.boundRmaOp (s : State) (i r opcode : Nat) (body : State → OpRef → Nat → Desc → State) : State :=
  s.rmaOp i r opcode (fun s o n d =>
    match s.boundStatus with
    | some st => s.complete o st 0
    | none => body s o n d)

/-- WRITE and READ (R440, R444 to R446): in RTR they wait in the queue pair, in RTS they start; in ERROR they complete with
QUEUE_RESET, in RESET and INIT with BAD_DESCRIPTOR (DEDUCED, log 21). A refused one completes in its turn (R445). Local memory of a fenced partition is FENCED
(19_recovery.md R499). A sealed queue pair needs the cipher engine (10_tenancy.md R301). -/
def State.doWork (s : State) (kind : Nat) (mismatch : Bool) (o : OpRef) (n : Nat) (d : Desc) : State :=
  let devmem := bitOf (d.w0 32 32) 16
  let len := d.le 28 4
  if ¬ d.good 0x10000 allBits allBits allBits .none ∨ len = 0 ∨ 2 ^ 31 < len then s.refuseWqe n o Status.badDescriptor
  else if s.qpState n = 4 then s.complete o Status.queueReset 0
  else if s.qpState n < 2 then s.complete o Status.badDescriptor 0
  else if devmem ∧ s.addrFenced (d.le 8 8) len then s.refuseWqe n o Status.fenced
  else if (s.qp n).sealing.isSome ∧ ¬ s.engineUp then s.refuseWqe n o Status.internal
  else if (s.qp n).sealing.isSome ∧ mismatch then s.cipherMismatch.refuseWqe n o Status.internal
  else
    let (data, m, s) := if kind = 1 then s.sendBytes (.cipher (s.qp n).sealing.isSome) o.fn devmem (d.le 8 8) len else ([], Met.none, s)
    let s := s.violateIf m.violated o.fn
    let s := if devmem then s.setNeeds o (s.runParts (d.le 8 8) len) else s
    s.addWqe n ⟨some o, kind, 0, 0, devmem, d.le 8 8, d.le 16 8, d.le 24 4, len, data, m.integrity, 0, false, none⟩

/-- RMA_WRITE. -/
def execRmaWrite (i : FnId) (r : RingId) (mismatch : Bool) (s : State) : Host.Outcome State Fault Refusal :=
  .next (s.boundRmaOp i r 1 (fun s o n d => s.doWork 1 mismatch o n d))

/-- RMA_READ: at most 16 in flight; a further one waits (R445). -/
def execRmaRead (i : FnId) (r : RingId) (mismatch : Bool) (s : State) : Host.Outcome State Fault Refusal :=
  .next (
    match s.qpOf i r with
    | some n => if 16 ≤ s.readsInFlight n then s else s.boundRmaOp i r 2 (fun s o n d => s.doWork 2 mismatch o n d)
    | none => s.boundRmaOp i r 2 (fun s o n d => s.doWork 2 mismatch o n d))

/-- The move to RTR (R441). -/
def State.toRtr (s : State) (o : OpRef) (n : Nat) (d : Desc) : State :=
  let mtu := d.w0 37 3
  let ipv6 := d.w0 36 1 == 1
  let p := s.qpPort n
  if ¬ d.good 0xF7 0x00FFFFFF3FFFFFFF allBits allBits .none ∨ mtu < 3 ∨ 5 < mtu
      ∨ (¬ ipv6 ∧ (d.le 20 4 ≠ 0 ∨ d.le 24 8 ≠ 0)) then s.complete o Status.badDescriptor 0
  else if s.fld (F.ethPortCfgMaxFrame p) < 128 * 2 ^ mtu + 130 then s.complete o Status.doesNotFit 0
  else
    let x := s.qp n
    let ip := bytesAt d.bytes 16 16
    let s := s.setQp n { x with
      ipv6 := ipv6, mtu := mtu, peerQp := d.le 8 3, dscp := bitsOf (d.le 11 1) 0 6, rxPsn := d.le 12 3
      peerIp := if ipv6 then ip else ip.take 4, txPsn := 0, una := 0, resolving := some o, peerMac := none }
    s.sendAhead p (resolveRequest ipv6 (s.macOf p) (s.ip4Of p) (s.ip6Of p) ip)

/-- The rate of port p: of its mode in use, and while it is down of its highest configured one (DESIGN CHOICE, log 30). -/
def State.portRate (s : State) (p : Nat) : Nat :=
  modeRate (if s.portUp p then s.fld (F.ethPortStatusMode p) else s.fld (F.ethPortCfgMode p))

/-- The move to RTS (R441, R453): the first PSN is fixed, the rates start at the port rate, and what waits is sent. -/
def State.toRts (s : State) (o : OpRef) (n : Nat) (d : Desc) : State :=
  let retry := d.w0 40 3
  let timeout := d.w0 43 5
  if ¬ d.good 0xFF07 0xFFFFFF 0 0 .none ∨ timeout < 8 ∨ 16 < timeout then s.complete o Status.badDescriptor 0
  else
    let x := s.qp n
    let base := d.le 8 3
    let rate : Rat := (s.portRate (s.qpPort n) : Nat)
    let s := s.setQp n { x with
      retryCount := retry, timeout := timeout, txPsn := (x.txPsn + base) % 2 ^ 24, una := base, frac := 1, incs := 0
      wqes := x.wqes.map (fun w => { w with psn := (w.psn + base) % 2 ^ 24 }) }
    let s := (s.setRate n rate rate).setFld (F.rmaQpStatusState n) 3
    let s := (s.setFld (F.rmaQpStatusRetries n) 0).complete o Status.ok 0
    s.goBack n

/-- QP_MODIFY (R440, R441): the transitions of the table; any other is BAD_DESCRIPTOR. -/
def State.doModify (s : State) (o : OpRef) (n : Nat) (d : Desc) : State :=
  let target := d.w0 32 3
  let plain := d.good 7 0 0 0 .none
  match target, s.qpState n with
  | 0, _ => if plain then (s.qpReset n).complete o Status.ok 0 else s.complete o Status.badDescriptor 0
  | 4, _ => if plain then (s.qpError n).complete o Status.ok 0 else s.complete o Status.badDescriptor 0
  | 1, 0 => if plain then (s.setFld (F.rmaQpStatusState n) 1).complete o Status.ok 0 else s.complete o Status.badDescriptor 0
  | 2, 1 => if (s.qp n).resolving.isSome then s.complete o Status.badDescriptor 0 else s.toRtr o n d
  | 3, 2 => s.toRts o n d
  | _, _ => s.complete o Status.badDescriptor 0

/-- QP_MODIFY. -/
def execQpModify (i : FnId) (r : RingId) (s : State) : Host.Outcome State Fault Refusal :=
  .next (s.rmaOp i r 0x10 State.doModify)

/-- PEER_RESOLVE_TIMEOUT (R441): the peer's address was not found within 1 s. -/
def execPeerResolveTimeout (q : QpId) (s : State) : Host.Outcome State Fault Refusal :=
  .next (
    match (s.qp q).resolving with
    | none => s
    | some o => (s.setQp q { s.qp q with resolving := none }).complete o Status.linkFailed 0)

/-- REG (R442). -/
def State.doReg (s : State) (o : OpRef) (_ : Nat) (d : Desc) : State :=
  let a := d.le 8 8
  let n := d.le 16 8
  if ¬ d.good 3 allBits allBits 0 .none ∨ a % 4096 ≠ 0 ∨ n % 4096 ≠ 0 ∨ n = 0 ∨ 2 ^ 36 < n then s.complete o Status.badDescriptor 0
  else
    let owned : Bool := match devAddr a with
      | none => false
      | some (u, off) => decide (off + n ≤ if isHbm u then 2 ^ 36 else 2 ^ 31) &&
        (List.range (ceilDiv (off % 65536 + n) 65536)).all (fun k =>
          match (s.granule u (off / 65536 + k)).owner with
          | none => false
          | some p => (s.part p).owner == some o.fn)
    if ¬ owned then s.complete o Status.doesNotFit 0
    else match s.register ⟨o.fn, a, n, d.w0 32 1 == 1, d.w0 33 1 == 1, 0⟩ with
    | (none, s) => s.complete o Status.noSpace 0
    | (some key, s) => s.complete o Status.ok key

/-- REG. -/
def execReg (i : FnId) (r : RingId) (s : State) : Host.Outcome State Fault Refusal :=
  .next (s.boundRmaOp i r 0x11 State.doReg)

/-- DEREG (R443): no peer access is in progress between commands. An rkey that names no registration of the instance is
BAD_DESCRIPTOR (DEDUCED, log 21). -/
def State.doDereg (s : State) (o : OpRef) (_ : Nat) (d : Desc) : State :=
  let key := d.le 8 4
  match s.registration key with
  | none => s.complete o Status.badDescriptor 0
  | some x =>
    if ¬ d.good 0 0xFFFFFFFF 0 0 .none ∨ x.inst ≠ o.fn then s.complete o Status.badDescriptor 0
    else
      ({ s with rma := { s.rma with regs := Tab.set Registration.init s.rma.regs (key % 2 ^ 14) Registration.init } }).complete o Status.ok 0

/-- DEREG. -/
def execDereg (i : FnId) (r : RingId) (s : State) : Host.Outcome State Fault Refusal :=
  .next (s.rmaOp i r 0x12 State.doDereg)

/-- QP_SEAL (R452): accepted only in INIT. -/
def State.doSeal (s : State) (o : OpRef) (n : Nat) (d : Desc) : State :=
  if ¬ d.good 0 allBits 0 0 .required ∨ s.qpState n ≠ 1 then s.complete o Status.badDescriptor 0
  else match s.checkLabel o.fn [0x08] d.label with
  | .bad => s.complete o Status.badDescriptor 0
  | .violation => (s.violate o.fn).complete o Status.ok 0
  | .good =>
    let s := s.setQp n { s.qp n with sealing := some (d.label, d.le 8 4, d.le 12 4), sealCtr := 0 }
    (s.setFlag (F.rmaQpStatusSealed n) true).complete o Status.ok 0

/-- QP_SEAL. -/
def execQpSeal (i : FnId) (r : RingId) (s : State) : Host.Outcome State Fault Refusal :=
  .next (s.boundRmaOp i r 0x13 State.doSeal)

/-- ATTACH (R454, R387): the store queue pair serves this queue pair's peer through a window. -/
def State.doAttach (s : State) (o : OpRef) (n : Nat) (d : Desc) : State :=
  let log2 := d.w0 48 4
  if ¬ d.good 0xFFFFF allBits 0 0xFFFFFFFF .none ∨ log2 < 4 ∨ 12 < log2 then s.complete o Status.badDescriptor 0
  else match s.unitOf o.fn 1 (d.w0 32 16) with
  | none => (s.violate o.fn).complete o Status.ok 0
  | some q =>
    match s.register ⟨o.fn, 0, 4096 + 64 * 2 ^ log2, false, true, 0⟩ with
    | (none, s) => s.complete o Status.noSpace 0
    | (some key, s) =>
      let a : Attach := { sqp := q, log2 := log2, cplAddr := d.le 8 8, cplKey := d.le 24 4, winKey := key, ring := [], tail := 0
                          head := 0, written := 0, consumed := 0, waiting := [] }
      let s : State := { s with shelf := { s.shelf with expected := Tab.set 0 s.shelf.expected q 0 } }
      ((s.setQp n { s.qp n with attach := some a }).setFlag (F.shfQpCfgRemote q) true).complete o Status.ok key

/-- ATTACH. -/
def execAttach (i : FnId) (r : RingId) (s : State) : Host.Outcome State Fault Refusal :=
  .next (s.boundRmaOp i r 0x14 State.doAttach)

/-! ### Packets of peers -/

/-- A CNP for a packet marked CE, at most one per queue pair in 50 us (R453). -/
def State.congested (s : State) (n : Nat) (ce : Bool) : State :=
  let x := s.qp n
  let due := match x.lastCnp with
    | none => true
    | some t => decide (t + 50000 ≤ s.now)
  if ce && due then (s.setQp n { x with lastCnp := some s.now }).sendRoce n 0x81 false 0 [] (List.replicate 16 0) else s

/-- A frame's base transport header is that of a packet: UDP port 4791, opcode, destination, AckReq and PSN (R436). -/
def bthOf (f : List Byte) (p : RocePkt) : Bool :=
  let h := parseFrame f
  let o := h.l4At + 8
  h.proto == 17 && h.ports.map Prod.snd == some 4791 && fieldBE f o 1 == p.opcode.toNat && fieldBE f (o + 5) 3 == p.qp.toNat
    && (fieldBE f (o + 8) 1 / 128 == 1) == p.ackReq && fieldBE f (o + 9) 3 == p.psn.toNat

/-- The frame of a packet leaves those that a classifier rule of action 3 has handed to the engine; none where no rule has
(15_ethernet.md R421). -/
def State.takeRma (s : State) (p : RocePkt) : Option State :=
  [0, 1].findSome? (fun k =>
    let x := s.port k
    (x.handed.find? (fun u => u.1 == 3 && bthOf u.2 p)).map (fun u => s.setPort k { x with handed := x.handed.erase u }))

/-- The base transport header of a packet with its pad count. -/
def bthBytes (p : RocePkt) : List Byte :=
  beBytes 1 p.opcode.toNat ++ beBytes 1 (16 * p.pad.toNat) ++ beBytes 2 0xFFFF ++ beBytes 1 0 ++ beBytes 3 p.qp.toNat
    ++ beBytes 1 (if p.ackReq then 128 else 0) ++ beBytes 3 p.psn.toNat

/-- The RETH or AETH of a packet, by its opcode. -/
def extBytes (p : RocePkt) : List Byte :=
  let c := p.opcode.toNat
  if c = 6 ∨ c = 10 ∨ c = 12 then reth p.va.toNat p.rkey.toNat p.len.toNat
  else if c = 0x0D ∨ c = 0x0F ∨ c = 0x10 ∨ c = 0x11 then aeth p.syndrome.toNat p.msn.toNat else []

/-- A packet of queue pair n as its check leaves it: opened where the queue pair is sealed, with the sender and the tag right; none
where they are not (R452). The check uses the key, whatever it finds (10_tenancy.md R292). -/
def State.openSeal (s : State) (n : Nat) (p : RocePkt) : Option RocePkt × State :=
  match (s.qp n).sealing, s.sec.record with
  | some (label, _, peer), some r =>
    let iv := beBytes 4 p.sender.toNat ++ beBytes 8 p.counter.toNat
    if p.sender.toNat ≠ peer then (none, s)
    else
      ((Crypto.gcmOpen (s.workingKey r label) iv (bthBytes p ++ extBytes p ++ iv) p.payload (beBytes 16 p.tag.toNat)).map (fun pt =>
        { p with payload := pt.take (pt.length - p.pad.toNat) }), s.useKey label)
  | _, _ => (some p, s)

/-- The request that a READ's response belongs to completes with INTERNAL where the cipher engine gives no byte of it, and the
queue pair enters ERROR (10_tenancy.md R301; DEDUCED, log 27). -/
def State.failRead (s : State) (n : Nat) (p : RocePkt) : State :=
  let c := p.opcode.toNat
  if (c = 0x0D ∨ c = 0x0E ∨ c = 0x0F ∨ c = 0x10) ∧ s.qpState n = 3 then s.failAt n p.psn.toNat Status.internal else s

/-- What every packet meets first (R437, R447, R452): a frame that a rule has handed over, ICRC, an existing queue pair in RTR or
RTS, the seal. The body runs on what passes, opened. -/
def State.rxPacket (s : State) (p : RocePkt) (body : State → RocePkt → Nat → State) : State :=
  match s.takeRma p with
  | none => s
  | some s =>
  let n := p.qp.toNat
  if ¬ p.icrcOk then s.count F.rmaRxDropIcrc 1
  else if n = 1 ∨ 2048 ≤ n ∨ (s.qpHolder n).isNone ∨ (s.qpState n ≠ 2 ∧ s.qpState n ≠ 3) then s.count F.rmaRxDropNoqp 1
  else if (s.qp n).sealing.isSome ∧ ¬ s.engineUp then s.failRead n p
  else if (s.qp n).sealing.isSome ∧ p.mismatch then s.cipherMismatch.failRead n p
  else match s.openSeal n p with
    | (none, s) => s.count F.rmaRxDrop2Integ 1
    | (some p, s) => body s p n

/-- The PSN rule of R449 for a request: duplicates and gaps are handled here, the expected PSN runs the body. -/
def State.inOrder (s : State) (n psn : Nat) (duplicate body : State → State) : State :=
  let x := s.qp n
  if psn = x.rxPsn then body (s.setQp n { x with nakSent := false })
  else if psnDiff x.rxPsn psn ≤ 2 ^ 23 then duplicate s
  else if x.nakSent then s
  else (s.setQp n { x with nakSent := true }).sendAck n x.rxPsn 0x60

/-- Opcodes of R436 that are requests: the four WRITEs and the READ request. -/
def isWriteOp (c : Nat) : Bool := c == 6 || c == 7 || c == 8 || c == 10

/-- A peer's write to n bytes of registered memory: what is not served, what is fenced (19_recovery.md R499) and what is
poisoned gives its NAK and report. -/
def State.peerStore (s : State) (n i a : Nat) (bs : List Byte) : Option (Nat × Nat) × State :=
  if ¬ s.runServed (.inst i) true a bs.length then (some (0x62, Status.remoteAccess), s)
  else if s.addrFenced a bs.length then (some (0x63, Status.fenced), s)
  else
    let (m, s) := s.devWrite (.cipher (s.qp n).sealing.isSome) (.inst i) a bs
    (if m.integrity then some (0x63, Status.integrity) else none, s)

/-- A packet of a WRITE whose place is address a under an rkey, n bytes: memory or the window takes its data. A failed
check gives its NAK and report. -/
def State.peerWrite (s : State) (n i rkey a : Nat) (bs : List Byte) : Option (Nat × Nat) × State :=
  match (s.qp n).attach with
  | some w =>
    if w.winKey = rkey then (none, s.setQp n { s.qp n with attach := some (w.put a bs) }) else s.peerStore n i a bs
  | none => s.peerStore n i a bs

/-- The acknowledge that R449 asks for: at AckReq and at every 16th packet. -/
def State.ackDue (s : State) (n psn : Nat) (ackReq : Bool) : State :=
  let x := s.qp n
  let u := x.unacked + 1
  if ackReq ∨ 16 ≤ u then s.sendAck n psn 0x1F else s.setQp n { x with unacked := u }

/-- A WRITE packet in its turn (R447). A First or Only opens the message with its RETH, a Middle or Last goes on; lengths
follow the path MTU. -/
def State.runWrite (s : State) (n : Nat) (p : RocePkt) : State :=
  let x := s.qp n
  let psn := p.psn.toNat
  let i := ((s.qpHolder n).getD (0, 0)).1
  let op := p.opcode.toNat
  let opens := op = 6 ∨ op = 10
  let closes := op = 8 ∨ op = 10
  let (va, rkey, left) := if opens then (p.va.toNat, p.rkey.toNat, p.len.toNat) else x.msg.getD (0, p.rkey.toNat, 0)
  let k := p.payload.length
  let goodLen := if closes then decide (k = left ∧ k ≤ x.mtuBytes) else decide (k = x.mtuBytes ∧ k < left)
  if ¬ isWriteOp op ∨ (opens ↔ x.msg.isSome) ∨ left = 0 ∨ 2 ^ 31 < left ∨ ¬ goodLen then
    s.refusePeer n psn rkey 0x61 Status.badDescriptor
  else match s.peerCheck i true rkey va k with
  | some (nak, st) => s.refusePeer n psn rkey nak st
  | none =>
    match (if opens then s.peerCheck i true rkey va left else none) with
    | some (nak, st) => s.refusePeer n psn rkey nak st
    | none =>
      match s.peerWrite n i rkey va p.payload with
      | (some (nak, st), s) => s.refusePeer n psn rkey nak st
      | (none, s) =>
        let x := s.qp n
        let s := s.setQp n { x with
          rxPsn := (x.rxPsn + 1) % 2 ^ 24, msn := if closes then (x.msn + 1) % 2 ^ 24 else x.msn
          msg := if closes then none else some (va + k, rkey, left - k) }
        (s.ackDue n psn p.ackReq).rejectPeers.flushPeer n 4096

/-- RDMA_WRITE_PACKET (R447, R449): an opcode that R436 does not name is an invalid request. -/
def execRdmaWritePacket (p : RocePkt) (s : State) : Host.Outcome State Fault Refusal :=
  .next (
    let op := p.opcode.toNat
    if op = 0x0C ∨ op = 0x0D ∨ op = 0x0E ∨ op = 0x0F ∨ op = 0x10 ∨ op = 0x11 ∨ op = 0x81 then s
    else s.rxPacket p (fun s p n =>
      let s := s.congested n p.ce
      s.inOrder n p.psn.toNat (fun s => s.sendAck n ((s.qp n).rxPsn + 2 ^ 24 - 1) 0x1F) (fun s => s.runWrite n p)))

/-- Response packets of a READ: First, Middle and Last, or Only; those with an AETH carry the message number (R436). -/
def State.sendResponse (s : State) (n psn : Nat) (data : List Byte) : State :=
  let x := s.qp n
  let m := x.packets data.length
  (List.range m).foldl (fun s k =>
    let op := if m = 1 then 0x10 else if k = 0 then 0x0D else if k + 1 = m then 0x0F else 0x0E
    s.sendRoce n op false ((psn + k) % 2 ^ 24) (if op = 0x0E then [] else aeth 0x1F x.msn)
      ((data.drop (k * x.mtuBytes)).take x.mtuBytes)) s

/-- READs of the peer of queue pair n that are in flight: those whose last response has not left the port (R447; DEDUCED, log 27). -/
def State.readsServed (s : State) (n : Nat) : Nat :=
  let x := s.port (s.qpPort n)
  ((x.waiting ++ x.line.toList).filter (fun f => f.queue == 4096 + n && (f.roceOp == 0x0F || f.roceOp == 0x10))).length

/-- A READ request served (R447): fresh advances the expected PSN by its response packets; a duplicate runs again. -/
def State.runRead (s : State) (n : Nat) (p : RocePkt) (fresh : Bool) : State :=
  let i := ((s.qpHolder n).getD (0, 0)).1
  let psn := p.psn.toNat
  let a := p.va.toNat
  let k := p.len.toNat
  let fail := fun (s : State) nak st => s.refusePeer n psn p.rkey.toNat nak st
  if k = 0 ∨ 2 ^ 31 < k ∨ 16 ≤ s.readsServed n then fail s 0x61 Status.badDescriptor
  else match s.peerCheck i false p.rkey.toNat a k with
  | some (nak, st) => fail s nak st
  | none =>
    if ¬ s.runServed (.inst i) false a k then fail s 0x62 Status.remoteAccess
    else if s.addrFenced a k then fail s 0x63 Status.fenced
    else
      let (data, m, s) := s.devRead (.cipher (s.qp n).sealing.isSome) (.inst i) a k
      if m.integrity then fail s 0x63 Status.integrity
      else
        let x := s.qp n
        let s := if fresh then s.setQp n { x with rxPsn := (x.rxPsn + x.packets k) % 2 ^ 24, msn := (x.msn + 1) % 2 ^ 24, unacked := 0 } else s
        s.sendResponse n psn data

/-- RDMA_READ_REQUEST (R447, R449). -/
def execRdmaReadRequest (p : RocePkt) (s : State) : Host.Outcome State Fault Refusal :=
  .next (
    if p.opcode ≠ 0x0C then s
    else s.rxPacket p (fun s p n =>
      let s := s.congested n p.ce
      s.inOrder n p.psn.toNat (fun s => s.runRead n p false) (fun s => s.runRead n p true)))

/-- The first READ of queue pair n that waits for bytes. -/
def State.openRead (s : State) (n : Nat) : Option Wqe := (s.qp n).wqes.find? (fun w => w.reads && decide (w.got < w.len))

/-- RDMA_READ_RESPONSE (R444, R445): the next response of the oldest READ goes to local memory, or to the RESTORE that asked for it (20_checkpoint.md
R520); another is discarded. -/
def execRdmaReadResponse (p : RocePkt) (s : State) : Host.Outcome State Fault Refusal :=
  .next (
    let op := p.opcode.toNat
    if op ≠ 0x0D ∧ op ≠ 0x0E ∧ op ≠ 0x0F ∧ op ≠ 0x10 then s
    else s.rxPacket p (fun s p n =>
      let s := s.congested n p.ce
      match s.openRead n with
      | none => s
      | some w =>
        let x := s.qp n
        let i := ((s.qpHolder n).getD (0, 0)).1
        let k := p.payload.length
        if s.qpState n ≠ 3 ∨ p.psn.toNat ≠ (w.psn + w.got / x.mtuBytes) % 2 ^ 24 ∨ k ≠ min x.mtuBytes (w.len - w.got)
            ∨ (w.kind = 2 ∧ ¬ w.devmem ∧ ¬ s.dmaOk i) then s
        else
          let (m, s) := if w.kind = 5 then (Met.none, s.arrive w.op (w.laddr + w.got) p.payload)
            else if w.devmem then s.devWrite (.cipher x.sealing.isSome) (.inst i) (w.laddr + w.got) p.payload
            else (Met.none, s.hostWrite (.cipher x.sealing.isSome) (w.laddr + w.got) p.payload)
          let s := s.violateIf (m.violated && !w.bad) i
          let x := s.qp n
          let s := s.setQp n { x with wqes := x.wqes.map (fun y =>
            if y = w then { y with got := w.got + k, bad := w.bad || m.violated, spoilt := w.spoilt || m.integrity } else y) }
          ((s.ackTo n p.psn.toNat).popWqes n (x.wqes.length + 1)).areaStep))

/-- ACKNOWLEDGE (R445, R450): a positive acknowledge up to its PSN. -/
def execAcknowledge (p : RocePkt) (s : State) : Host.Outcome State Fault Refusal :=
  .next (
    if p.opcode ≠ 0x11 ∨ 0x20 ≤ p.syndrome.toNat then s
    else s.rxPacket p (fun s p n => if s.qpState n = 3 then ((s.ackTo n p.psn.toNat).areaStep).flushPeer n 4096 else s))

/-- The status that a NAK syndrome gives (R447, R448). -/
def nakStatus (v : Nat) : Nat :=
  if v = 0x61 then Status.badDescriptor else if v = 0x62 then Status.remoteAccess else Status.integrity

/-- Go-back-N; a sealed queue pair whose packets the cipher engine cannot make ends its oldest request with INTERNAL (10_tenancy.md
R301). -/
def State.sendAgain (s : State) (n : Nat) : State :=
  if (s.qp n).sealing.isSome ∧ ¬ s.engineUp then (s.failOldest n Status.internal).settleTake else s.goBack n

/-- A checkpoint that is being written over queue pair n fails with the status of what ends the queue pair (20_checkpoint.md
R519). -/
def State.takeOver (s : State) (n status : Nat) : State := if s.takeUses n then s.loseTake status else s

/-- NAK_RECEIVED (R448, R450, R519): a sequence error sends again from its PSN and counts no retry; the others end the
request they name and the queue pair, and the checkpoint that is being written over it. -/
def execNakReceived (p : RocePkt) (s : State) : Host.Outcome State Fault Refusal :=
  .next (
    let v := p.syndrome.toNat
    if p.opcode ≠ 0x11 ∨ v < 0x60 ∨ 0x63 < v then s
    else s.rxPacket p (fun s p n =>
      if s.qpState n ≠ 3 then s
      else
        let s := s.setFld (F.rmaQpStatusLastNak n) v
        let psn := p.psn.toNat
        let s := (s.ackTo n (psn + 2 ^ 24 - 1)).areaStep
        if v = 0x60 then s.sendAgain n else ((s.takeOver n (nakStatus v)).failAt n psn (nakStatus v)).settleTake))

/-- CNP_RECEIVED (R453). -/
def execCnpReceived (p : RocePkt) (s : State) : Host.Outcome State Fault Refusal :=
  .next (
    if p.opcode ≠ 0x81 then s
    else s.rxPacket p (fun s _ n =>
      let x := s.qp n
      let s := s.setQp n { x with frac := x.frac * 255 / 256 + 1 / 256, incs := 0 }
      s.setRate n (x.rc * (1 - x.frac / 2)) x.rc))

/-! ### Timers -/

/-- RETRANSMIT_TIMEOUT (R450, R451): no acknowledge advanced within T. The budget of retry count + 1 expiries ends in
LINK_FAILED and ERROR; each expiry counts. -/
def execRetransmitTimeout (q : QpId) (s : State) : Host.Outcome State Fault Refusal :=
  .next (
    let x := s.qp q
    let busy := s.takeUses q
    if s.qpState q ≠ 3 ∨ (x.wqes = [] ∧ ¬ busy) then s
    else
      let n := s.fld (F.rmaQpStatusRetries q)
      let s := s.setFld (F.rmaQpStatusRetries q) (n + 1)
      if x.retryCount ≤ n then ((s.takeOver q Status.linkFailed).failOldest q Status.linkFailed).settleTake else s.sendAgain q)

/-- RATE_DECAY_TIMER (R453): 55 us without a CNP. -/
def execRateDecayTimer (q : QpId) (s : State) : Host.Outcome State Fault Refusal :=
  .next (
    let x := s.qp q
    if s.qpState q = 3 then s.setQp q { x with frac := x.frac * 255 / 256 } else s)

/-- RATE_INCREASE_TIMER (R453): 300 us without a CNP. -/
def execRateIncreaseTimer (q : QpId) (s : State) : Host.Outcome State Fault Refusal :=
  .next (
    let x := s.qp q
    if s.qpState q = 3 then
      let n := x.incs + 1
      let rt : Rat := if 5 < n then x.rt + (s.fld F.rmaCcAiMbps : Nat) else x.rt
      (s.setQp q { x with incs := n }).setRate q ((x.rc + rt) / 2) rt
    else s)

end Sys2Proof.Machine
end

