-- ==== Sys2Proof/Machine/Scrub.lean ====
section
/-! DEFINITION. The scrub of triple-stored fields (13_registers.md R373, R374). -/

namespace Sys2Proof.Machine

/-- What is done with one field's three copies. -/
inductive Scrubbed where
  | agree | corrected | lost
  deriving DecidableEq, Repr

/-- What the scrub finds in three copies. -/
def scrubOf {α : Type} [DecidableEq α] (a b c : α) : Scrubbed :=
  if a = b ∧ b = c then .agree else if (vote a b c).isSome then .corrected else .lost

/-- What the scrub finds in a register field. -/
def Regs.scrubFld (r : Regs) (f : Field) : Scrubbed :=
  let a := bitsOf (r.word f.addr) f.lsb f.width
  scrubOf a (a ^^^ bitsOf (Tab.get 0 r.cpB f.addr) f.lsb f.width) (a ^^^ bitsOf (Tab.get 0 r.cpC f.addr) f.lsb f.width)

/-- A lost vote counts and is a critical event (17_time.md R471). -/
def State.countLost (s : State) : State := (s.count F.glbVoteLost 1).critical 0x05 0

/-- A field whose copies differ takes the voted value in all three, or the value of R374, with what follows from it. -/
def State.scrubField (s : State) (f : Field) (lost : State → State) : State :=
  match s.regs.scrubFld f with
  | .agree => s
  | .corrected => (s.setFld f (s.fld f)).count F.glbVoteCorrected 1
  | .lost => lost ((s.setFld f (s.fld f)).countLost)

/-- The tag binding of instance i. -/
def State.scrubBinding (s : State) (i : Nat) : State :=
  let b := (s.fn i).binding
  match scrubOf b.a b.b b.c with
  | .agree => s
  | .corrected => (s.setFn i { s.fn i with binding := Rwt.of ((vote b.a b.b b.c).getD 0) }).count F.glbVoteCorrected 1
  | .lost => (s.countLost).resetInstance i 0x0C i

/-- The fence of partition p. -/
def State.scrubFence (s : State) (p : Nat) : State :=
  let b := (s.part p).fence
  match scrubOf b.a b.b b.c with
  | .agree => s
  | .corrected => (s.setPart p { s.part p with fence := Rwt.of ((vote b.a b.b b.c).getD true) }).count F.glbVoteCorrected 1
  | .lost => s.countLost.fencePart true p

/-- The fence of the engine of a ring kind. -/
def State.scrubEngine (s : State) (k : Nat) : State :=
  let b := Tab.get (Rwt.of false) s.rcv.engineFence k
  match scrubOf b.a b.b b.c with
  | .agree => s
  | .corrected => (s.setFence ((vote b.a b.b b.c).getD true) (.engine k)).count F.glbVoteCorrected 1
  | .lost => s.countLost.setFence true (.engine k)

/-- The fields homed in V37: the binding state, debug, voltage targets, and the fences of partitions and ring engines (home
DEDUCED, log 20). -/
def State.scrubFirmware (s : State) : State :=
  let s := (List.range 40).foldl (fun s v => s.scrubField (F.pwrVtargetMv v) (fun s => s.setTarget v (s.fld (F.pwrVtargetMv v)))) s
  let s := s.scrubField F.secStatusDebug State.dropDebug
  let s := s.scrubField F.secStatusState State.runUnbind
  [1, 2, 3, 4, 5, 6, 7, 8].foldl State.scrubEngine (allParts.foldl State.scrubFence s)

/-- RWT_SCRUB (R373): valley v rewrites the copies of its RWT fields that differ. -/
def execRwtScrub (v : ValleyId) (s : State) : Host.Outcome State Fault Refusal :=
  .next (
    let n : Nat := v
    match valleyCluster n with
    | some k => (List.range 10).foldl (fun s i => s.scrubField (F.bncCtrlMapOut (10 * k + i)) (fun s => s.benchMapOut (10 * k + i))) s
    | none =>
      if 20 ≤ n ∧ n < 32 then s.scrubField (F.memCtrlMapOut (n - 20)) (fun s => s.stackMapOut (n - 20))
      else if n = 32 then (List.range 64).foldl State.scrubBinding s
      else if n = 33 then [0, 1].foldl (fun s p => s.scrubField (F.ethLaneCtrlMapOut p) (fun s => s.applyLanes p)) s
      else if n = 34 then (List.range 6).foldl (fun s j => s.scrubField (F.dvtLinkCtrlMapOut j) (fun s => s.linkMapOut j)) s
      else if n = 35 then (List.range 16).foldl (fun s c => s.scrubField (F.shfChanMapOut c) (fun s => s.channelMapOut c)) s
      else if n = 37 then s.scrubFirmware
      else if n = 38 then (List.range 40).foldl (fun s w =>
        (s.scrubField (F.vlyStateEnable w) (fun s => s.powerValley w false)).scrubField (F.vlyStateFenced w) id) s
      else s)

end Sys2Proof.Machine
end

