-- ==== Sys2Proof/Machine/Security.lean ====
section
/-! DEFINITION. The operations of SEC_CTRL and of the vendor-defined SPDM messages (10_tenancy.md R286, R294 to R298, R309,
R310; 21_debug.md R524). -/

namespace Sys2Proof.Machine

/-! ### SEC_CTRL -/

/-- The asked SEC operation ends with a status. -/
def State.secDone (s : State) (status : Nat) : State := (s.setRequest 3 0).setFld F.secStatusResult status

/-- ARM (R286): UNBOUND to ARMED. -/
def execArm (s : State) : Host.Outcome State Fault Refusal :=
  .next (
    if s.request 3 = 1 then
      if s.secState = 0 then (s.setSecState 1).secDone Status.ok else s.secDone Status.badDescriptor
    else s)

/-- DISARM (R286): ARMED to UNBOUND. -/
def execDisarm (s : State) : Host.Outcome State Fault Refusal :=
  .next (
    if s.request 3 = 2 then
      if s.secState = 1 then (s.setSecState 0).secDone Status.ok else s.secDone Status.badDescriptor
    else s)

/-- An accepted unbind begins: levels that run complete first (19_recovery.md R504), and a bind under way is aborted. -/
def State.acceptUnbind (s : State) (reply : BindReply) (steps : BitVec 4) : State :=
  s.fenceAll.settleLevels.startWork ⟨true, 0, [], reply⟩ steps.toNat

/-- SEC_CTRL UNBIND (R298): accepted while BINDING or BOUND (R286); its result shows once the module is UNBOUND. -/
def execSecCtrlUnbind (steps : BitVec 4) (s : State) : Host.Outcome State Fault Refusal :=
  .next (
    if s.request 3 = 3 then
      if s.secState = 2 ∨ s.secState = 3 then (s.setRequest 3 0).acceptUnbind .manager steps else s.secDone Status.badDescriptor
    else s)

/-- SEC_NONCE as bytes. -/
def State.secNonce (s : State) : List Byte := (List.range 8).flatMap (fun k => leBytes 4 (s.fld (F.secNonceWord k)))

/-- A new SEC_NONCE, a free value. -/
def State.renewNonce (s : State) : State :=
  let v := (s.freeBits 256).toNat
  (List.range 8).foldl (fun s k => s.setFld (F.secNonceWord k) (bitsOf v (32 * k) 32)) s.bumpFree

/-- What is wrong with a ticket (R309, R310): a format fault, or what the module's binding asks. Reserved bytes are ignored
(00_scope.md R9), and while the real-time clock is not valid not_after fails (17_time.md R467). -/
def State.ticketFault (s : State) (t : List Byte) : Option Nat :=
  let rights := fieldLE t 6 2
  let fits := bytesAt t 8 32 == s.secNonce && s.flag F.timStatusRtcValid && decide (s.fld F.timRtcSeconds < fieldLE t 0x40 8)
  if fieldLE t 0 4 ≠ 0x47554244 ∨ fieldLE t 4 2 ≠ 1 ∨ 32 ≤ rights then some Status.badDescriptor
  else match s.secState, s.sec.record with
    | 3, some r =>
      if fits ∧ bitOf r.policy 1 ∧ ¬ bitOf rights 4 ∧ bytesAt t 0x28 16 = r.tenantId ∧ fieldLE t 0x38 4 = r.g
          ∧ Crypto.ecdsaVerify r.tenantKey (t.take 0xA0) (bytesAt t 0xA0 96) then none
      else some Status.integrity
    | 0, _ | 1, _ =>
      if fits ∧ fieldLE t 0x28 16 = 0 ∧ fieldLE t 0x38 4 = 0
          ∧ Crypto.ecdsaVerify s.mfg.debugKey (t.take 0xA0) (bytesAt t 0xA0 96) then none
      else some Status.integrity
    | _, _ => some Status.badDescriptor

/-- DEBUG_TICKET (R310): the ticket in manager memory is checked; its rights hold from here on. Every ticket is followed by
a new nonce. -/
def execDebugTicket (s : State) : Host.Outcome State Fault Refusal :=
  .next (
    if s.request 3 = 4 ∧ s.dmaOk 0 then
      let t := Memory.read s.host.mem (s.fld F.secSrcLoAddr + s.fld F.secSrcHiAddr * 2 ^ 32) 256
      match s.ticketFault t with
      | some st => s.renewNonce.secDone st
      | none => ((s.beginDebug (fieldLE t 6 2) (fieldLE t 0x40 8)).renewNonce).secDone Status.ok
    else s)

/-- DEBUG_LOCK (R310): every debug right ends. -/
def execDebugLock (s : State) : Host.Outcome State Fault Refusal :=
  .next (if s.request 3 = 5 then s.endDebug.secDone Status.ok else s)

/-- DEBUG_RIGHTS_EXPIRY (R310, R524): not_after has passed on the real-time clock. -/
def execDebugRightsExpiry (s : State) : Host.Outcome State Fault Refusal :=
  .next (if s.flag F.secStatusDebug ∧ s.sec.notAfter ≤ s.fld F.timRtcSeconds then s.endDebug else s)

/-! ### Sessions and responses (R294, R304); message codes of SPDM 1.2 (PRESUMED, log 12) -/

/-- The security core answers the DOE mailbox of function i: it runs, and the function exists. -/
def State.spdmUp (s : State) (i : Nat) : Bool := (s.core 0).alive && (i == 0 || s.insState i != 0)

/-- An ERROR response. -/
def State.spdmError (s : State) (i code : Nat) : State := s.answer i 0x7F (leBytes 1 code)

/-- A message in session n: the body runs where the session is established; otherwise it is an ERROR. -/
def State.inSession (s : State) (n : Nat) (body : State → Session → State) : State :=
  let x := s.session n
  if ¬ s.host.published then s.retryConfig x.fn
  else if ¬ s.spdmUp x.fn then s
  else if x.established then body s x else s.spdmError x.fn 0x02

/-- A vendor-defined message: it carries the Ihlangen vendor identifier and comes inside a session (R294); another identifier is an
unsupported request. -/
def State.vendorMessage (s : State) (n : Nat) (vendor : Bool) (body : State → Session → State) : State :=
  s.inSession n (fun s x => if vendor then body s x else s.spdmError x.fn 0x07)

/-- BIND_NONCE (R294): a fresh device nonce, a free value, valid until the next one. -/
def execBindNonce (n : SessId) (vendor : Bool) (s : State) : Host.Outcome State Fault Refusal :=
  .next (s.vendorMessage n vendor (fun s x =>
    let nonce := leBytes 32 (s.freeBits 256).toNat
    (s.bumpFree.setSession n { x with nonce := some nonce }).vendorAnswer x.fn 0x01 Status.ok nonce))

/-- BIND (R295, R296). -/
def execBind (n : SessId) (vendor : Bool) (req : List Byte) (steps : BitVec 4) (s : State) : Host.Outcome State Fault Refusal :=
  .next (s.vendorMessage n vendor (fun s x =>
    match s.bindFault x.nonce req with
    | some st => s.vendorAnswer x.fn 0x02 st []
    | none => s.startWork ⟨false, 0, req, .session n⟩ steps.toNat))

/-- What is wrong with a signed unbind (R286, R298). -/
def State.unbindFault (s : State) (x : Session) (sig nonce : List Byte) : Option Nat :=
  match s.tenantRecord with
  | none => some Status.badDescriptor
  | some r =>
    if s.secState ≠ 2 ∧ s.secState ≠ 3 then some Status.badDescriptor
    else if x.nonce = some nonce ∧ Crypto.ecdsaVerify r.tenantKey (nonce ++ r.tenantId) sig then none
    else some Status.integrity

/-- UNBIND (R298): signed by the tenant over the session's nonce and the tenant identifier. -/
def execUnbind (n : SessId) (vendor : Bool) (sig nonce : List Byte) (steps : BitVec 4) (s : State) : Host.Outcome State Fault Refusal :=
  .next (s.vendorMessage n vendor (fun s x =>
    match s.unbindFault x sig nonce with
    | some st => s.vendorAnswer x.fn 0x03 st []
    | none => s.acceptUnbind (.session n) steps))

end Sys2Proof.Machine
end

