-- ==== Sys2Proof/Machine/Spdm.lean ====
section
/-! DEFINITION. The SPDM 1.2 responder (10_tenancy.md R304). Response codes and capability bits are those of SPDM 1.2
(PRESUMED, log 12); signatures, nonces and key shares are free values. -/

namespace Sys2Proof.Machine

/-- What function i has negotiated. -/
def State.negotiated (s : State) (i : Nat) : Negotiated := Tab.get Negotiated.none s.sec.negotiated i
/-- Noting what function i has negotiated. -/
def State.setNegotiated (s : State) (i : Nat) (x : Negotiated) : State :=
  { s with sec := { s.sec with negotiated := Tab.set Negotiated.none s.sec.negotiated i x } }

/-- A request on function i's mailbox, which lies in configuration space: Request Retry Status before publication (11_pcie.md
R320), no answer in image-less service (09_firmware.md R272) or while the security core is down, ERROR UnexpectedRequest where the
negotiation has not reached the point. -/
def State.onMailbox (s : State) (i : Nat) (reached : Negotiated → Bool) (body : State → State) : State :=
  if ¬ s.host.published then s.retryConfig i
  else if s.host.imageless ∨ ¬ s.spdmUp i then s else if reached (s.negotiated i) then body s else s.spdmError i 0x04

/-- An answer that ends with n free bytes: signatures, nonces, key shares. -/
def State.answerFree (s : State) (i code : Nat) (bytes : List Byte) (n : Nat) : State :=
  (s.bumpFree).answer i code (bytes ++ leBytes n (s.freeBits (8 * n)).toNat)

/-- The certificate chain of slot 0. -/
def State.chain (s : State) : List Byte := Config.certChain s.mfg.deviceKey (s.core 0).digest

/-- GET_VERSION: 1.2 only. -/
def execGetVersion (i : FnId) (s : State) : Host.Outcome State Fault Refusal :=
  .next (s.onMailbox i (fun _ => true) (fun s =>
    (s.setNegotiated i .version).answer i 0x04 (leBytes 1 1 ++ leBytes 2 0x1200)))

/-- GET_CAPABILITIES: CERT, CHAL, MEAS with signature, KEY_EX, ENCRYPT, MAC and HBEAT; a request for an unsupported
capability is an ERROR. -/
def execGetCapabilities (i : FnId) (unsupported : Bool) (s : State) : Host.Outcome State Fault Refusal :=
  .next (s.onMailbox i (· != .none) (fun s =>
    if unsupported then s.spdmError i 0x07 else (s.setNegotiated i .caps).answer i 0x61 (leBytes 4 0x22D6)))

/-- NEGOTIATE_ALGORITHMS: ECDSA P-384, SHA-384, secp384r1, AES-256-GCM, SHA-384 measurements; none of them offered is an
ERROR. -/
def execNegotiateAlgorithms (i : FnId) (offered : Bool) (s : State) : Host.Outcome State Fault Refusal :=
  .next (s.onMailbox i (fun x => x == .caps || x == .algos) (fun s =>
    if offered then
      (s.setNegotiated i .algos).answer i 0x63 (leBytes 4 0x4 ++ leBytes 4 0x80 ++ leBytes 4 0x2 ++ leBytes 2 0x10 ++ leBytes 2 0x2)
    else s.spdmError i 0x01))

/-- GET_DIGESTS: slot 0 alone. -/
def execGetDigests (i : FnId) (s : State) : Host.Outcome State Fault Refusal :=
  .next (s.onMailbox i (· == .algos) (fun s => s.answer i 0x01 (leBytes 1 1 ++ Crypto.sha384 s.chain)))

/-- GET_CERTIFICATE of slot 0. -/
def execGetCertificate (i : FnId) (slot : BitVec 8) (s : State) : Host.Outcome State Fault Refusal :=
  .next (s.onMailbox i (· == .algos) (fun s =>
    if slot = 0 then s.answer i 0x02 (leBytes 1 0 ++ s.chain) else s.spdmError i 0x01))

/-- CHALLENGE of slot 0: signed by the alias key over the requester's nonce. -/
def execChallenge (i : FnId) (slot : BitVec 8) (nonce : List Byte) (s : State) : Host.Outcome State Fault Refusal :=
  .next (s.onMailbox i (· == .algos) (fun s =>
    if slot = 0 then s.answerFree i 0x03 (leBytes 1 0 ++ Crypto.sha384 s.chain ++ nonce) 128 else s.spdmError i 0x01))

/-- Releases and security versions of the running bundles, and the fused version. -/
def State.runningVersions (s : State) : List Byte :=
  ([1, 2].filter (fun b => s.fw.source.any (fun p => p.2 == b))).flatMap (fun b => bytesAt (s.header b) 8 5) ++ leBytes 1 s.fw.fused

/-- Digest of the data image of the booted bundle. -/
def State.dataDigest (s : State) : List Byte :=
  match s.bootedBank.bind (fun b => dirEntry (s.header b) 6) with
  | some e => bytesAt e 0x10 48
  | none => List.replicate 48 0

/-- Measurement block i of the table, i from 1 to 11. -/
def State.measurement (s : State) (i : Nat) : List Byte :=
  if i = 1 then leBytes 48 Config.romDigest.toNat
  else if i ≤ 7 then (s.core (i - 2)).digest
  else if i = 8 then s.dataDigest
  else if i = 9 then Crypto.sha384 s.runningVersions
  else if i = 10 then (if s.bound then s.bindingDigest else List.replicate 48 0)
  else Crypto.sha384 (leBytes 1 (s.fld F.secStatusDebug) ++ leBytes 2 (s.fld F.dbgStatusRights))

/-- GET_MEASUREMENTS: 0 asks for the count, 0xFF for every block. The answer ends with a nonce and a signature. -/
def execGetMeasurements (i : FnId) (index : BitVec 8) (s : State) : Host.Outcome State Fault Refusal :=
  .next (s.onMailbox i (· == .algos) (fun s =>
    let n := index.toNat
    let block := fun k => leBytes 1 k ++ s.measurement k
    if n = 0 then s.answerFree i 0x60 (leBytes 1 11) 128
    else if n = 0xFF then s.answerFree i 0x60 (leBytes 1 11 ++ ((List.range 11).map (· + 1)).flatMap block) 128
    else if n ≤ 11 then s.answerFree i 0x60 (leBytes 1 1 ++ block n) 128
    else s.spdmError i 0x01))

/-- KEY_EXCHANGE: opens a session, at most 4 at once; mutual authentication is not supported. -/
def execKeyExchange (i : FnId) (mutualAuth : Bool) (s : State) : Host.Outcome State Fault Refusal :=
  .next (s.onMailbox i (· == .algos) (fun s =>
    if mutualAuth then s.spdmError i 0x01
    else match (List.range 4).find? (fun n => !(s.session n).opened) with
      | none => s.spdmError i 0x0A
      | some n => (s.setSession n ⟨true, false, i, none⟩).answerFree i 0x64 (leBytes 2 n) 240))

/-- FINISH: the handshake ends; a failed one closes the session. -/
def execFinish (n : SessId) (ok : Bool) (s : State) : Host.Outcome State Fault Refusal :=
  .next (
    let x := s.session n
    if ¬ s.host.published then s.retryConfig x.fn
    else if ¬ s.spdmUp x.fn then s
    else if x.opened ∧ ¬ x.established then
      if ok then (s.setSession n { x with established := true }).answer x.fn 0x65 []
      else (s.closeSession n).spdmError x.fn 0x06
    else s.spdmError x.fn 0x02)

/-- HEARTBEAT in a session. -/
def execHeartbeat (n : SessId) (s : State) : Host.Outcome State Fault Refusal :=
  .next (s.inSession n (fun s x => s.answer x.fn 0x68 []))

/-- KEY_UPDATE in a session. -/
def execKeyUpdate (n : SessId) (s : State) : Host.Outcome State Fault Refusal :=
  .next (s.inSession n (fun s x => s.answer x.fn 0x69 []))

/-- END_SESSION: the session closes. -/
def execEndSession (n : SessId) (s : State) : Host.Outcome State Fault Refusal :=
  .next (s.inSession n (fun s x => (s.closeSession n).answer x.fn 0x6C []))

end Sys2Proof.Machine
end

