-- ==== Sys2Proof/Machine/TimeEv.lean ====
section
/-! DEFINITION. The commands of the time unit (17_time.md R457 to R468). A command of a moment in time comes at that moment:
the clocks pass on to it where it lies ahead (log 1). -/

namespace Sys2Proof.Machine

/-! ### References -/

/-- PTP_SYNC (R460, R462): a Sync that a rule has handed over on the port is a good interval of the source and a measurement of the
offset, reference less device time. -/
def execPtpSync (p : PortId) (offset : Int) (s : State) : Host.Outcome State Fault Refusal :=
  .next (
    match s.takePtp ptpSyncType p with
    | none => s
    | some (_, s) => (s.goodInterval (ptpCode p) true offset).measure (ptpCode p) offset)

/-- PTP_ANNOUNCE (R458, R462): an Announce that a rule has handed over on the port gives the port's data set, by which a boundary
clock chooses its slave port anew. The UTC offset shows in TIM_UTC, from the selected source, or from any while none is selected
(DEDUCED, log 21). -/
def execPtpAnnounce (p : PortId) (s : State) : Host.Outcome State Fault Refusal :=
  .next (
    match s.takePtp ptpAnnounceType p with
    | none => s
    | some (m, s) =>
      let ref := s.fld F.timStatusRef
      let s : State := { s with tim := { s.tim with sets := Tab.set [] s.tim.sets p (announceSet m) } }
      (if ref = ptpCode p ∨ ref = 0 ∨ ref = 3 then s.setFld F.timUtcOffset (announceUtc m) else s).reselect)

/-- PPS_IN_EDGE (R460, R466): d is the phase of the edge, reference less device time; the interval to the edge before is good
where the phase moved by at most 100 us. -/
def execPpsInEdge (d : Int) (s : State) : Host.Outcome State Fault Refusal :=
  .next (
    if s.pins.aux ∧ s.sourceOn 3 then
      let good := decide (Tab.get 0 s.tim.good 3 ≠ 0 ∧ (wrapSecond (d - Tab.get 0 s.tim.last 3)).natAbs ≤ 100000)
      let d := s.offsetOf 3 d
      (s.goodInterval 3 good d).measure 3 d
    else s)

/-- REFERENCE_QUALIFIED (R460, R464): after 4 good intervals the source is qualified; where it is now the first listed one,
the device selects it and approaches it. -/
def execReferenceQualified (src : RefSource) (d : Int) (s : State) : Host.Outcome State Fault Refusal :=
  .next (
    let c := refCode src
    if s.pins.aux ∧ s.sourceOn c ∧ 4 ≤ Tab.get 0 s.tim.good c ∧ ¬ s.tim.qualified.contains c then
      let s : State := { s with tim := { s.tim with qualified := insertNat c s.tim.qualified } }
      if s.bestSource = c then s.selectSource c (s.offsetOf c d) else s
    else s)

/-- REFERENCE_LOSS (R461, R464): the source is not qualified any more, and the data set of its port is gone. A selected source gives way to the next qualified one,
whose last offset the return rule takes, or to HOLDOVER. -/
def execReferenceLoss (src : RefSource) (s : State) : Host.Outcome State Fault Refusal :=
  .next (
    let c := refCode src
    if s.pins.aux then
      let s : State := { s with tim := { s.tim with
        qualified := s.tim.qualified.filter (· != c), good := Tab.set 0 s.tim.good c 0
        sets := if c = 3 then s.tim.sets else Tab.set [] s.tim.sets (c - 1) [] } }
      if s.fld F.timStatusRef = c then
        let n := s.bestSource
        if n = 0 then s.enterHoldover else s.selectSource n (Tab.get 0 s.tim.last n)
      else s
    else s)

/-- HOLDOVER_EXPIRY (R464): 24 h after entry the state becomes FREERUN. -/
def execHoldoverExpiry (s : State) : Host.Outcome State Fault Refusal :=
  .next (
    if s.fld F.timStatusState = TimeState.holdover then
      let s := s.passTime (s.tim.since + 86400 * secondNs - s.now)
      (s.setFld F.timStatusState TimeState.freerun).showError
    else s)

/-! ### Second boundaries (R464, R466, R467) -/

/-- A forward step that is due by the next second boundary of device time: the reference's boundary comes first (R464). -/
def State.stepsNext (s : State) : Option Nat :=
  match s.tim.step with
  | some x => if 0 < x ∧ secondNs - (s.deviceTime + x.toNat) % secondNs ≤ secondNs - s.deviceTime % secondNs then some x.toNat else none
  | none => none

/-- ns to the next second boundary: of the reference where a forward step waits that comes first, of device time after a
stand-still, else of device time. -/
def State.toBoundary (s : State) : Nat :=
  if s.flag F.timStatusHolding then s.nsFor secondNs
  else match s.stepsNext with
    | some x => secondNs - (s.deviceTime + x) % secondNs
    | none => s.nsFor (secondNs - s.deviceTime % secondNs)

/-- The seconds that each counter and the open day count: above a warning threshold, powered while the rails are on, and then at the
hottest die temperature (R476, R477). -/
def State.countSecond (s : State) : State :=
  let warn := (List.range 25).any (fun n => s.flag (F.tlmSensorWarn n))
  let s := s.logCount 13 (if warn then 1 else 0)
  if s.railsGood then
    let hot := (List.range 5).foldl (fun m n => max m (signed 24 (s.fld (F.tlmSensorValue n)))) (-(2 ^ 23))
    let bin := min 7 ((hot - 40) / 10).toNat
    let s := s.logCount 0 1
    let x := s.log.day
    let bins := if hot < 40 then x.bins else Tab.modify 0 x.bins bin (· + 1)
    { s with log := { s.log with day := { x with powered := x.powered + 1, bins := bins } } }
  else s

/-- While LOCKED the real-time clock takes device time's second and is valid (R467). -/
def State.rtcTakes (s : State) : State :=
  if s.fld F.timStatusState = TimeState.locked then
    let s : State := { s with tim := { s.tim with rtcFrac := 0 } }
    (s.setFld F.timRtcSeconds (s.deviceTime / secondNs % 2 ^ 32)).setFlag F.timStatusRtcValid true
  else s

/-- PPS_OUT rises for 100 ms, where it is enabled. -/
def State.pulse (s : State) : State :=
  if s.flag F.timCfgPpsOut then (s.emit (.pin "PPS_OUT" true)).emit (.pin "PPS_OUT" false) else s

/-- SECOND_BOUNDARY (R464, R466, R467): device time stands at N.000000000. A forward step arrives there without a pulse, where the
reference's boundary is not later than device time's; a stand-still begins there without a pulse; otherwise PPS_OUT rises. The
messages of the time unit go out with it (R462). -/
def execSecondBoundary (s : State) : Host.Outcome State Fault Refusal :=
  .next (
    if s.pins.aux then
      let holding := s.flag F.timStatusHolding
      let jump := if holding then none else s.stepsNext
      let stand := !holding && s.tim.step.any (fun x => decide (x ≤ 0))
      let n := ((s.deviceTime + jump.getD 0) / secondNs + 1) * secondNs
      let s := (s.passTime s.toBoundary).setFld F.timNowNs (n % 2 ^ 64)
      let s :=
        if stand then (s.wrapAdd F.timStepsCount 1).setFlag F.timStatusHolding true
        else match jump with
          | some _ =>
            let s := s.wrapAdd F.timStepsCount 1
            let s : State := { s with tim := { s.tim with step := none } }
            s.showError
          | none => s.pulse
      s.countSecond.rtcTakes.ptpBeat
    else s)

/-! ### The real-time clock (R467, R468) -/

/-- RTC_ALARM (R468): the clock reaches an alarm that is on and not past. -/
def execRtcAlarm (s : State) : Host.Outcome State Fault Refusal :=
  .next (
    let alarm := s.fld F.timRtcAlarmSeconds
    let now := s.fld F.timRtcSeconds
    if s.pins.aux ∧ alarm ≠ 0 ∧ now ≤ alarm then
      (if now < alarm then s.passTime ((alarm - now) * secondNs - s.tim.rtcFrac) else s).wake 0
    else s)

/-- SUPERCAP_EMPTY (R467): the clock is not valid and restarts at 0. -/
def execSupercapEmpty (s : State) : Host.Outcome State Fault Refusal :=
  .next (
    let s : State := { s with tim := { s.tim with rtcFrac := 0 } }
    (s.setFld F.timRtcSeconds 0).setFlag F.timStatusRtcValid false)

end Sys2Proof.Machine
end

