-- ==== Sys2Proof/Machine/Dispatch.lean ====
section
/-! DEFINITION. One arm per command: each is one direct call of its meaning. -/

namespace Sys2Proof.Machine

/-- The effect of a command on everything but the queue. -/
def exec (i : Instr) (s : State) : Host.Outcome State Fault Refusal :=
  match i with
  | .nop b j => Sys2Proof.Machine.execNop b j s
  | .endProg b j => Sys2Proof.Machine.execEndProg b j s
  | .loop b j => Sys2Proof.Machine.execLoop b j s
  | .waitm b j => Sys2Proof.Machine.execWaitm b j s
  | .sync b j => Sys2Proof.Machine.execSync b j s
  | .openWin b j => Sys2Proof.Machine.execOpenWin b j s
  | .openWindowEnd b => Sys2Proof.Machine.execOpenWindowEnd b s
  | .mmt b j => Sys2Proof.Machine.execMmt b j s
  | .mms b j => Sys2Proof.Machine.execMms b j s
  | .aclr b j => Sys2Proof.Machine.execAclr b j s
  | .aanc b j => Sys2Proof.Machine.execAanc b j s
  | .awb b j => Sys2Proof.Machine.execAwb b j s
  | .aexp b j => Sys2Proof.Machine.execAexp b j s
  | .aimp b j => Sys2Proof.Machine.execAimp b j s
  | .abias b j => Sys2Proof.Machine.execAbias b j s
  | .asamp b j => Sys2Proof.Machine.execAsamp b j s
  | .spre b j x => Sys2Proof.Machine.execSpre b j x s
  | .sqnt b j => Sys2Proof.Machine.execSqnt b j s
  | .sxch b j => Sys2Proof.Machine.execSxch b j s
  | .vecAdd b j => Sys2Proof.Machine.execVecAdd b j s
  | .vecSub b j => Sys2Proof.Machine.execVecSub b j s
  | .vecMul b j => Sys2Proof.Machine.execVecMul b j s
  | .vecFma b j => Sys2Proof.Machine.execVecFma b j s
  | .vecDiv b j => Sys2Proof.Machine.execVecDiv b j s
  | .vecSqrt b j => Sys2Proof.Machine.execVecSqrt b j s
  | .vecMax b j => Sys2Proof.Machine.execVecMax b j s
  | .vecMin b j => Sys2Proof.Machine.execVecMin b j s
  | .vecCmp b j => Sys2Proof.Machine.execVecCmp b j s
  | .vecSel b j => Sys2Proof.Machine.execVecSel b j s
  | .ldf b j => Sys2Proof.Machine.execLdf b j s
  | .stf b j => Sys2Proof.Machine.execStf b j s
  | .vecLdb b j => Sys2Proof.Machine.execVecLdb b j s
  | .vecStb b j => Sys2Proof.Machine.execVecStb b j s
  | .vecMove b j => Sys2Proof.Machine.execVecMove b j s
  | .bcst b j => Sys2Proof.Machine.execBcst b j s
  | .vdraw b j => Sys2Proof.Machine.execVdraw b j s
  | .vred b j => Sys2Proof.Machine.execVred b j s
  | .trnExp2 b j => Sys2Proof.Machine.execTrnExp2 b j s
  | .trnExp b j => Sys2Proof.Machine.execTrnExp b j s
  | .trnLog2 b j => Sys2Proof.Machine.execTrnLog2 b j s
  | .trnLog b j => Sys2Proof.Machine.execTrnLog b j s
  | .trnRcp b j => Sys2Proof.Machine.execTrnRcp b j s
  | .trnRsqrt b j => Sys2Proof.Machine.execTrnRsqrt b j s
  | .trnTanh b j => Sys2Proof.Machine.execTrnTanh b j s
  | .trnSinpi b j => Sys2Proof.Machine.execTrnSinpi b j s
  | .trnCospi b j => Sys2Proof.Machine.execTrnCospi b j s
  | .mns b j x1 x2 => Sys2Proof.Machine.execMns b j x1 x2 s
  | .mhb b j x1 x2 => Sys2Proof.Machine.execMhb b j x1 x2 s
  | .mbb b j x1 x2 => Sys2Proof.Machine.execMbb b j x1 x2 s
  | .mlk b j x1 x2 => Sys2Proof.Machine.execMlk b j x1 x2 s
  | .maxAnchors b j x1 x2 => Sys2Proof.Machine.execMaxAnchors b j x1 x2 s
  | .moverTransferDone b => Sys2Proof.Machine.execMoverTransferDone b s
  | .cutStart => Sys2Proof.Machine.execCutStart s
  | .kerfStart => Sys2Proof.Machine.execKerfStart s
  | .kerfSeal => Sys2Proof.Machine.execKerfSeal s
  | .kerfService => Sys2Proof.Machine.execKerfService s
  | .kerfCommit p => Sys2Proof.Machine.execKerfCommit p s
  | .configEpochApply => Sys2Proof.Machine.execConfigEpochApply s
  | .cutDeadlineExpiry w => Sys2Proof.Machine.execCutDeadlineExpiry w s
  | .stretchLatch p => Sys2Proof.Machine.execStretchLatch p s
  | .flitRelease j index payload fixed => Sys2Proof.Machine.execFlitRelease j index payload fixed s
  | .flitLost j index => Sys2Proof.Machine.execFlitLost j index s
  | .lossNoticeReceived j index fixed => Sys2Proof.Machine.execLossNoticeReceived j index fixed s
  | .replayFlitReceived j index payload corrects fixed => Sys2Proof.Machine.execReplayFlitReceived j index payload corrects fixed s
  | .linkFailure j => Sys2Proof.Machine.execLinkFailure j s
  | .sealFlitReceived j f => Sys2Proof.Machine.execSealFlitReceived j f s
  | .haltNoticeReceived j value fixed => Sys2Proof.Machine.execHaltNoticeReceived j value fixed s
  | .checkpointNoticeReceived j value fixed => Sys2Proof.Machine.execCheckpointNoticeReceived j value fixed s
  | .linkIdentity j formation member peerLink fixed => Sys2Proof.Machine.execLinkIdentity j formation member peerLink fixed s
  | .musterRecord j record fixed => Sys2Proof.Machine.execMusterRecord j record fixed s
  | .startRecord j record fixed => Sys2Proof.Machine.execStartRecord j record fixed s
  | .haltReport j report fixed => Sys2Proof.Machine.execHaltReport j report fixed s
  | .musterTimeout => Sys2Proof.Machine.execMusterTimeout s
  | .runStart => Sys2Proof.Machine.execRunStart s
  | .refreshStep k => Sys2Proof.Machine.execRefreshStep k s
  | .stackTempRead k temp => Sys2Proof.Machine.execStackTempRead k temp s
  | .selfRefreshEntry k => Sys2Proof.Machine.execSelfRefreshEntry k s
  | .hbmEccWriteBack k line => Sys2Proof.Machine.execHbmEccWriteBack k line s
  | .nstEccWriteBack d line => Sys2Proof.Machine.execNstEccWriteBack d line s
  | .slotZeroRewriteDone k granule => Sys2Proof.Machine.execSlotZeroRewriteDone k granule s
  | .stackInterfaceFailure k => Sys2Proof.Machine.execStackInterfaceFailure k s
  | .stackMapOutApply k => Sys2Proof.Machine.execStackMapOutApply k s
  | .benchMapOutApply b => Sys2Proof.Machine.execBenchMapOutApply b s
  | .linkMapOutApply j => Sys2Proof.Machine.execLinkMapOutApply j s
  | .aluAdd k gd gs1 gs2 => Sys2Proof.Machine.execAluAdd k gd gs1 gs2 s
  | .aluAddc k gd gs1 gs2 => Sys2Proof.Machine.execAluAddc k gd gs1 gs2 s
  | .aluSub k gd gs1 gs2 => Sys2Proof.Machine.execAluSub k gd gs1 gs2 s
  | .aluSubc k gd gs1 gs2 => Sys2Proof.Machine.execAluSubc k gd gs1 gs2 s
  | .aluAnd k gd gs1 gs2 => Sys2Proof.Machine.execAluAnd k gd gs1 gs2 s
  | .aluOr k gd gs1 gs2 => Sys2Proof.Machine.execAluOr k gd gs1 gs2 s
  | .aluXor k gd gs1 gs2 => Sys2Proof.Machine.execAluXor k gd gs1 gs2 s
  | .aluNot k gd gs1 gs2 => Sys2Proof.Machine.execAluNot k gd gs1 gs2 s
  | .aluNeg k gd gs1 gs2 => Sys2Proof.Machine.execAluNeg k gd gs1 gs2 s
  | .aluMin k gd gs1 gs2 => Sys2Proof.Machine.execAluMin k gd gs1 gs2 s
  | .aluMax k gd gs1 gs2 => Sys2Proof.Machine.execAluMax k gd gs1 gs2 s
  | .aluCmp k gd gs1 gs2 => Sys2Proof.Machine.execAluCmp k gd gs1 gs2 s
  | .aluMov k gd gs1 gs2 => Sys2Proof.Machine.execAluMov k gd gs1 gs2 s
  | .aluMul k gd gs1 gs2 => Sys2Proof.Machine.execAluMul k gd gs1 gs2 s
  | .divs k gd gs1 gs2 => Sys2Proof.Machine.execDivs k gd gs1 gs2 s
  | .divu k gd gs1 gs2 => Sys2Proof.Machine.execDivu k gd gs1 gs2 s
  | .rems k gd gs1 gs2 => Sys2Proof.Machine.execRems k gd gs1 gs2 s
  | .remu k gd gs1 gs2 => Sys2Proof.Machine.execRemu k gd gs1 gs2 s
  | .sext k gd gs1 gs2 => Sys2Proof.Machine.execSext k gd gs1 gs2 s
  | .zext k gd gs1 gs2 => Sys2Proof.Machine.execZext k gd gs1 gs2 s
  | .aluImmediate k op gd gs imm => Sys2Proof.Machine.execAluImmediate k op gd gs imm s
  | .movi k gd imm => Sys2Proof.Machine.execMovi k gd imm s
  | .shl k f => Sys2Proof.Machine.execShl k f s
  | .shr k f => Sys2Proof.Machine.execShr k f s
  | .sar k f => Sys2Proof.Machine.execSar k f s
  | .rol k f => Sys2Proof.Machine.execRol k f s
  | .ror k f => Sys2Proof.Machine.execRor k f s
  | .bitFieldExtract k f => Sys2Proof.Machine.execBitFieldExtract k f s
  | .bitFieldInsert k f => Sys2Proof.Machine.execBitFieldInsert k f s
  | .mac k cn gx gy => Sys2Proof.Machine.execMac k cn gx gy s
  | .msu k cn gx gy => Sys2Proof.Machine.execMsu k cn gx gy s
  | .macu k cn gx gy => Sys2Proof.Machine.execMacu k cn gx gy s
  | .msuu k cn gx gy => Sys2Proof.Machine.execMsuu k cn gx gy s
  | .mulc k cn gx gy unsigned => Sys2Proof.Machine.execMulc k cn gx gy unsigned s
  | .acl k cn => Sys2Proof.Machine.execAcl k cn s
  | .cmov k cn src => Sys2Proof.Machine.execCmov k cn src s
  | .mvc k gd cn sh => Sys2Proof.Machine.execMvc k gd cn sh s
  | .mvgc k cn gx gy => Sys2Proof.Machine.execMvgc k cn gx gy s
  | .ldb k gd m => Sys2Proof.Machine.execLdb k gd m s
  | .ldbu k gd m => Sys2Proof.Machine.execLdbu k gd m s
  | .ldh k gd m => Sys2Proof.Machine.execLdh k gd m s
  | .ldhu k gd m => Sys2Proof.Machine.execLdhu k gd m s
  | .ldw k gd m => Sys2Proof.Machine.execLdw k gd m s
  | .ldp k pd m => Sys2Proof.Machine.execLdp k pd m s
  | .ldc k cn m => Sys2Proof.Machine.execLdc k cn m s
  | .stb k gs m => Sys2Proof.Machine.execStb k gs m s
  | .sth k gs m => Sys2Proof.Machine.execSth k gs m s
  | .stw k gs m => Sys2Proof.Machine.execStw k gs m s
  | .stp k ps m => Sys2Proof.Machine.execStp k ps m s
  | .stc k cn m => Sys2Proof.Machine.execStc k cn m s
  | .padr k pd ps imm => Sys2Proof.Machine.execPadr k pd ps imm s
  | .padd k pd ps gi => Sys2Proof.Machine.execPadd k pd ps gi s
  | .psub k pd ps gi => Sys2Proof.Machine.execPsub k pd ps gi s
  | .pmov k pd ps => Sys2Proof.Machine.execPmov k pd ps s
  | .pget k ps gi => Sys2Proof.Machine.execPget k ps gi s
  | .pput k pd gi => Sys2Proof.Machine.execPput k pd gi s
  | .pcmp k pd ps => Sys2Proof.Machine.execPcmp k pd ps s
  | .branch k cond off sq => Sys2Proof.Machine.execBranch k cond off sq s
  | .call k off => Sys2Proof.Machine.execCall k off s
  | .callp k pn => Sys2Proof.Machine.execCallp k pn s
  | .jmp k off => Sys2Proof.Machine.execJmp k off s
  | .jmpp k pn => Sys2Proof.Machine.execJmpp k pn s
  | .mfs k gd sr => Sys2Proof.Machine.execMfs k gd sr s
  | .mts k gs sr => Sys2Proof.Machine.execMts k gs sr s
  | .ret k => Sys2Proof.Machine.execRet k s
  | .reti k sq => Sys2Proof.Machine.execReti k sq s
  | .trap k sq => Sys2Proof.Machine.execTrap k sq s
  | .fence k => Sys2Proof.Machine.execFence k s
  | .wait k => Sys2Proof.Machine.execWait k s
  | .halt k => Sys2Proof.Machine.execHalt k s
  | .rep k n => Sys2Proof.Machine.execRep k n s
  | .repg k gn => Sys2Proof.Machine.execRepg k gn s
  | .repn k n => Sys2Proof.Machine.execRepn k n s
  | .interruptAssert k line sq => Sys2Proof.Machine.execInterruptAssert k line sq s
  | .wdtExpiry k sq => Sys2Proof.Machine.execWdtExpiry k sq s
  | .systemWindowTimeout k addr sq => Sys2Proof.Machine.execSystemWindowTimeout k addr sq s
  | .cld k x => Sys2Proof.Machine.execCld k x s
  | .cvec k x => Sys2Proof.Machine.execCvec k x s
  | .ctrn k x => Sys2Proof.Machine.execCtrn k x s
  | .cdraw k x => Sys2Proof.Machine.execCdraw k x s
  | .csamp k x => Sys2Proof.Machine.execCsamp k x s
  | .crd k x => Sys2Proof.Machine.execCrd k x s
  | .cwr k x => Sys2Proof.Machine.execCwr k x s
  | .cwait k x => Sys2Proof.Machine.execCwait k x s
  | .cwb k x => Sys2Proof.Machine.execCwb k x s
  | .cmovc k x => Sys2Proof.Machine.execCmovc k x s
  | .croute k x => Sys2Proof.Machine.execCroute k x s
  | .csync k x => Sys2Proof.Machine.execCsync k x s
  | .crel k x => Sys2Proof.Machine.execCrel k x s
  | .cpxOpComplete c unit => Sys2Proof.Machine.execCpxOpComplete c unit s
  | .load j r k => Sys2Proof.Machine.execLoad j r k s
  | .start j r => Sys2Proof.Machine.execStart j r s
  | .stage j r k => Sys2Proof.Machine.execStage j r k s
  | .stop j r => Sys2Proof.Machine.execStop j r s
  | .unload j r => Sys2Proof.Machine.execUnload j r s
  | .muster j r => Sys2Proof.Machine.execMuster j r s
  | .dissolve j r => Sys2Proof.Machine.execDissolve j r s
  | .pageCommit j r => Sys2Proof.Machine.execPageCommit j r s
  | .checkpointTake j r => Sys2Proof.Machine.execCheckpointTake j r s
  | .manifestCommit x => Sys2Proof.Machine.execManifestCommit x s
  | .checkpointRestore j r x => Sys2Proof.Machine.execCheckpointRestore j r x s
  | .assign r => Sys2Proof.Machine.execAssign r s
  | .release r => Sys2Proof.Machine.execRelease r s
  | .grant r => Sys2Proof.Machine.execGrant r s
  | .revoke r => Sys2Proof.Machine.execRevoke r s
  | .freeze r => Sys2Proof.Machine.execFreeze r s
  | .save r x => Sys2Proof.Machine.execSave r x s
  | .restoreImage r x => Sys2Proof.Machine.execRestoreImage r x s
  | .thaw r => Sys2Proof.Machine.execThaw r s
  | .mbxSend j r => Sys2Proof.Machine.execMbxSend j r s
  | .recvBuf r => Sys2Proof.Machine.execRecvBuf r s
  | .managerMbxSend r => Sys2Proof.Machine.execManagerMbxSend r s
  | .insMbxAck j seq => Sys2Proof.Machine.execInsMbxAck j seq s
  | .insUpdate j v => Sys2Proof.Machine.execInsUpdate j v s
  | .doorbell j r v => Sys2Proof.Machine.execDoorbell j r v s
  | .queueReset j r => Sys2Proof.Machine.execQueueReset j r s
  | .descriptorFetch j r err => Sys2Proof.Machine.execDescriptorFetch j r err s
  | .completionWrite j r err => Sys2Proof.Machine.execCompletionWrite j r err s
  | .msixMessage j r => Sys2Proof.Machine.execMsixMessage j r s
  | .glbUpdate v => Sys2Proof.Machine.execGlbUpdate v s
  | .glbDiscard v => Sys2Proof.Machine.execGlbDiscard v s
  | .glbCompat v => Sys2Proof.Machine.execGlbCompat v s
  | .registerWrite j addr wide v => Sys2Proof.Machine.execRegisterWrite j addr wide v s
  | .rwtScrub v => Sys2Proof.Machine.execRwtScrub v s
  | .download => Sys2Proof.Machine.execDownload s
  | .activate => Sys2Proof.Machine.execActivate s
  | .commit => Sys2Proof.Machine.execCommit s
  | .abandon => Sys2Proof.Machine.execAbandon s
  | .boot r => Sys2Proof.Machine.execBoot r s
  | .arm => Sys2Proof.Machine.execArm s
  | .disarm => Sys2Proof.Machine.execDisarm s
  | .secCtrlUnbind m => Sys2Proof.Machine.execSecCtrlUnbind m s
  | .debugTicket => Sys2Proof.Machine.execDebugTicket s
  | .debugLock => Sys2Proof.Machine.execDebugLock s
  | .debugRightsExpiry => Sys2Proof.Machine.execDebugRightsExpiry s
  | .bindNonce n v => Sys2Proof.Machine.execBindNonce n v s
  | .bind n v req m => Sys2Proof.Machine.execBind n v req m s
  | .unbind n v sig nonce m => Sys2Proof.Machine.execUnbind n v sig nonce m s
  | .getVersion j => Sys2Proof.Machine.execGetVersion j s
  | .getCapabilities j unsupported => Sys2Proof.Machine.execGetCapabilities j unsupported s
  | .negotiateAlgorithms j offered => Sys2Proof.Machine.execNegotiateAlgorithms j offered s
  | .getDigests j => Sys2Proof.Machine.execGetDigests j s
  | .getCertificate j slot => Sys2Proof.Machine.execGetCertificate j slot s
  | .challenge j slot nonce => Sys2Proof.Machine.execChallenge j slot nonce s
  | .getMeasurements j index => Sys2Proof.Machine.execGetMeasurements j index s
  | .keyExchange j mutualAuth => Sys2Proof.Machine.execKeyExchange j mutualAuth s
  | .finish n ok => Sys2Proof.Machine.execFinish n ok s
  | .heartbeat n => Sys2Proof.Machine.execHeartbeat n s
  | .keyUpdate n => Sys2Proof.Machine.execKeyUpdate n s
  | .endSession n => Sys2Proof.Machine.execEndSession n s
  | .doeObject j protocol => Sys2Proof.Machine.execDoeObject j protocol s
  | .atomicopRequest j addr => Sys2Proof.Machine.execAtomicopRequest j addr s
  | .perstNAssert => Sys2Proof.Machine.execPerstNAssert s
  | .perstNDeassert => Sys2Proof.Machine.execPerstNDeassert s
  | .flr j => Sys2Proof.Machine.execFlr j s
  | .managerFlr => Sys2Proof.Machine.execManagerFlr s
  | .vfEnable => Sys2Proof.Machine.execVfEnable s
  | .d3hotEntry pme => Sys2Proof.Machine.execD3hotEntry pme s
  | .lowpowerEntry => Sys2Proof.Machine.execLowpowerEntry s
  | .d0Entry => Sys2Proof.Machine.execD0Entry s
  | .instanceD3hot j => Sys2Proof.Machine.execInstanceD3hot j s
  | .pmeResend => Sys2Proof.Machine.execPmeResend s
  | .nsCreate => Sys2Proof.Machine.execNsCreate s
  | .nsDelete => Sys2Proof.Machine.execNsDelete s
  | .nsFormat => Sys2Proof.Machine.execNsFormat s
  | .nsFormatDone ns => Sys2Proof.Machine.execNsFormatDone ns s
  | .sanitize => Sys2Proof.Machine.execSanitize s
  | .sanitizeDone spare => Sys2Proof.Machine.execSanitizeDone spare s
  | .shelfRead q slot => Sys2Proof.Machine.execShelfRead q slot s
  | .shelfWrite q slot => Sys2Proof.Machine.execShelfWrite q slot s
  | .shelfFlush q slot => Sys2Proof.Machine.execShelfFlush q slot s
  | .shelfTrim q slot => Sys2Proof.Machine.execShelfTrim q slot s
  | .shelfStatus q slot => Sys2Proof.Machine.execShelfStatus q slot s
  | .shelfCommandDone q slot m => Sys2Proof.Machine.execShelfCommandDone q slot m s
  | .channelFailure ch => Sys2Proof.Machine.execChannelFailure ch s
  | .rebuildDone => Sys2Proof.Machine.execRebuildDone s
  | .shelfIdleTimeout => Sys2Proof.Machine.execShelfIdleTimeout s
  | .dataRefresh ns lba => Sys2Proof.Machine.execDataRefresh ns lba s
  | .frameReceived p bytes fcsOk mismatch => Sys2Proof.Machine.execFrameReceived p bytes fcsOk mismatch s
  | .slowPathService p => Sys2Proof.Machine.execSlowPathService p s
  | .post j r => Sys2Proof.Machine.execPost j r s
  | .ethSend j r mismatch => Sys2Proof.Machine.execEthSend j r mismatch s
  | .setFlowKey j r => Sys2Proof.Machine.execSetFlowKey j r s
  | .txFrameStart p => Sys2Proof.Machine.execTxFrameStart p s
  | .frameTransmitted p => Sys2Proof.Machine.execFrameTransmitted p s
  | .portUp p peerModes => Sys2Proof.Machine.execPortUp p peerModes s
  | .portDown p => Sys2Proof.Machine.execPortDown p s
  | .laneLossOfLock p lane => Sys2Proof.Machine.execLaneLossOfLock p lane s
  | .ruleSetCommit p => Sys2Proof.Machine.execRuleSetCommit p s
  | .ruleSetSwitch p => Sys2Proof.Machine.execRuleSetSwitch p s
  | .rmaWrite j r x => Sys2Proof.Machine.execRmaWrite j r x s
  | .rmaRead j r x => Sys2Proof.Machine.execRmaRead j r x s
  | .qpModify j r => Sys2Proof.Machine.execQpModify j r s
  | .peerResolveTimeout q => Sys2Proof.Machine.execPeerResolveTimeout q s
  | .reg j r => Sys2Proof.Machine.execReg j r s
  | .dereg j r => Sys2Proof.Machine.execDereg j r s
  | .qpSeal j r => Sys2Proof.Machine.execQpSeal j r s
  | .attach j r => Sys2Proof.Machine.execAttach j r s
  | .rdmaWritePacket p => Sys2Proof.Machine.execRdmaWritePacket p s
  | .rdmaReadRequest p => Sys2Proof.Machine.execRdmaReadRequest p s
  | .rdmaReadResponse p => Sys2Proof.Machine.execRdmaReadResponse p s
  | .acknowledge p => Sys2Proof.Machine.execAcknowledge p s
  | .nakReceived p => Sys2Proof.Machine.execNakReceived p s
  | .cnpReceived p => Sys2Proof.Machine.execCnpReceived p s
  | .retransmitTimeout q => Sys2Proof.Machine.execRetransmitTimeout q s
  | .rateDecayTimer q => Sys2Proof.Machine.execRateDecayTimer q s
  | .rateIncreaseTimer q => Sys2Proof.Machine.execRateIncreaseTimer q s
  | .ptpSync p offset => Sys2Proof.Machine.execPtpSync p offset s
  | .ptpAnnounce p => Sys2Proof.Machine.execPtpAnnounce p s
  | .referenceLoss src => Sys2Proof.Machine.execReferenceLoss src s
  | .referenceQualified src d => Sys2Proof.Machine.execReferenceQualified src d s
  | .ppsInEdge d => Sys2Proof.Machine.execPpsInEdge d s
  | .secondBoundary => Sys2Proof.Machine.execSecondBoundary s
  | .holdoverExpiry => Sys2Proof.Machine.execHoldoverExpiry s
  | .rtcAlarm => Sys2Proof.Machine.execRtcAlarm s
  | .supercapEmpty => Sys2Proof.Machine.execSupercapEmpty s
  | .sensorSample vals => Sys2Proof.Machine.execSensorSample vals s
  | .mctpControl bus op => Sys2Proof.Machine.execMctpControl bus op s
  | .pldmDiscovery bus type ask => Sys2Proof.Machine.execPldmDiscovery bus type ask s
  | .getTid bus => Sys2Proof.Machine.execGetTid bus s
  | .setEventReceiver bus eid => Sys2Proof.Machine.execSetEventReceiver bus eid s
  | .getPdrRepositoryInfo bus => Sys2Proof.Machine.execGetPdrRepositoryInfo bus s
  | .getPdr bus record => Sys2Proof.Machine.execGetPdr bus record s
  | .getSensorReading bus id => Sys2Proof.Machine.execGetSensorReading bus id s
  | .setNumericSensorEnable bus id op => Sys2Proof.Machine.execSetNumericSensorEnable bus id op s
  | .getSensorThresholds bus id => Sys2Proof.Machine.execGetSensorThresholds bus id s
  | .hostAttention bus => Sys2Proof.Machine.execHostAttention bus s
  | .smbusArbitrationLost => Sys2Proof.Machine.execSmbusArbitrationLost s
  | .smbusRetry lost => Sys2Proof.Machine.execSmbusRetry lost s
  | .logRead => Sys2Proof.Machine.execLogRead s
  | .hourlySave => Sys2Proof.Machine.execHourlySave s
  | .dayBoundary => Sys2Proof.Machine.execDayBoundary s
  | .slackLow v => Sys2Proof.Machine.execSlackLow v s
  | .rcvRequest => Sys2Proof.Machine.execRcvRequest s
  | .rcvCopy => Sys2Proof.Machine.execRcvCopy s
  | .levelTimeout => Sys2Proof.Machine.execLevelTimeout s
  | .fenceDrainTimeout => Sys2Proof.Machine.execFenceDrainTimeout s
  | .engineHeartbeatTimeout kind => Sys2Proof.Machine.execEngineHeartbeatTimeout kind s
  | .passAckTimeout v => Sys2Proof.Machine.execPassAckTimeout v s
  | .pwrcycTimeout => Sys2Proof.Machine.execPwrcycTimeout s
  | .pcSample => Sys2Proof.Machine.execPcSample s
  | .bypass => Sys2Proof.Machine.execBypass s
  | .idcode => Sys2Proof.Machine.execIdcode s
  | .samplePreload => Sys2Proof.Machine.execSamplePreload s
  | .dbgreg off write v => Sys2Proof.Machine.execDbgreg off write v s
  | .extest => Sys2Proof.Machine.execExtest s
  | .aux3v3Apply straps => Sys2Proof.Machine.execAux3v3Apply straps s
  | .aux3v3Loss => Sys2Proof.Machine.execAux3v3Loss s
  | .p54vApply => Sys2Proof.Machine.execP54vApply s
  | .p54vLoss => Sys2Proof.Machine.execP54vLoss s
  | .thermalTrip sensor => Sys2Proof.Machine.execThermalTrip sensor s
  | .dovetailLossOfLock j => Sys2Proof.Machine.execDovetailLossOfLock j s
  | .dovetailTrainingDone j => Sys2Proof.Machine.execDovetailTrainingDone j s
  | .instanceD0Entry j => Sys2Proof.Machine.execInstanceD0Entry j s
  | .vfEnableClear => Sys2Proof.Machine.execVfEnableClear s
  | .msixVectorUnmask j vec => Sys2Proof.Machine.execMsixVectorUnmask j vec s
  | .pmeStatusClear => Sys2Proof.Machine.execPmeStatusClear s

end Sys2Proof.Machine
end

