-- ==== Sys2Proof/Safety.lean ====
section
/-! DEFINITION. Safety: what statements call the history of the device and the canonical form of its memories. -/

namespace Sys2Proof.Machine

/-- t comes after s: time has not gone back, no free value is drawn twice, nothing that has left the device is taken back,
the one-time counters have not gone back (10_tenancy.md R293; 09_firmware.md R271), and the rest of manufacture stands
(00_scope.md R1, R3). -/
def State.Later (s t : State) : Prop :=
  s.now ≤ t.now ∧ s.freeCtr ≤ t.freeCtr ∧ s.out <+: t.out ∧ s.mfg.bindings ≤ t.mfg.bindings
    ∧ { t.mfg with bindings := s.mfg.bindings } = s.mfg ∧ s.fw.fused ≤ t.fw.fused

/-- The memories of a bench are in canonical form. -/
def Bench.Canonical (x : Bench) : Prop :=
  Memory.wf x.store = true ∧ Memory.wf x.prog = true ∧ Memory.wf x.staging = true

/-- Every memory of the device and of its surroundings is in canonical form: host memory, the memory of checkpoint peers,
the flash, near stores and HBM stacks, bench memories (those that a checkpoint holds among them), the tightly coupled
memories of the cores, the rings of attached queue pairs and what a RESTORE has read. -/
def State.Canonical (s : State) : Prop :=
  Memory.wf s.host.mem = true ∧ Memory.wf s.host.far = true ∧ Memory.wf s.fw.flash = true
    ∧ (∀ e ∈ s.mems, Memory.wf e.2.bytes = true) ∧ (∀ e ∈ s.benches, e.2.Canonical)
    ∧ (∀ e ∈ s.cores, Memory.wf e.2.tcm = true)
    ∧ (∀ e ∈ s.rma.qps, ∀ a, e.2.attach = some a → Memory.wf a.ring = true)
    ∧ (∀ x ∈ s.saved, ∀ e ∈ x.2.benches, e.2.Canonical)
    ∧ ∀ x ∈ s.restores, Memory.wf x.buf = true ∧ ∀ v ∈ x.items, ∀ e ∈ v.benches, e.2.Canonical

end Sys2Proof.Machine
end

