-- ==== Sys2Proof/Certificates/Slice0/Obligations.lean ====
section
/-! DEFINITION. The statements for the provers. A statement about a command says where the command completes and what the
next state then holds. -/

namespace Sys2Proof.Say
open Sys2Proof Sys2Proof.Machine

/-- Command c answers a next state at s, and P holds of it. -/
def Does (c : Instr) (s : State) (P : State → Prop) : Prop := ∃ t, exec c s = .next t ∧ P t

/-! ### Benches -/

/-- From s to t nothing but benches changes, and of the benches only bench b. -/
def OnlyBench (b : Nat) (s t : State) : Prop := { t with benches := s.benches } = s ∧ ∀ c, c ≠ b → t.bench c = s.bench c

/-- The same, where also the error counts of bench b (BNC_ECC) may advance. -/
def OnlyBenchEcc (b : Nat) (s t : State) : Prop :=
  { t with benches := s.benches, regs := s.regs } = s ∧ (∀ c, c ≠ b → t.bench c = s.bench c)
    ∧ ∀ g : Field, g.addr ≠ (F.bncEccCorrected b).addr → t.fld g = s.fld g

/-- Bench b issues the operation and its operands are good (03_benches.md R96, R542). -/
abbrev Ready (s : State) (b : Nat) (op : SeqOp) (i : SeqWords) (x1 x2 : Slot) : Prop :=
  s.issues b = true ∧ goodSlot b op i x1 x2 = true

/-- No line that n bytes from byte a of bench b's store touch is uncorrectable or poisoned (R84). -/
abbrev Clean (s : State) (b a n : Nat) : Prop := (s.bench b).operandFault (linesOf a n) = none

/-- The n-byte number at byte a of bench b's store. -/
def num (s : State) (b a n : Nat) : Nat := Memory.readLE (s.bench b).store a n

/-- Bytes of bench b's store outside the n bytes from a stay. -/
def StoreOutside (s : State) (b a n : Nat) (t : State) : Prop :=
  ∀ k, k < a ∨ a + n ≤ k → Memory.byte (t.bench b).store k = Memory.byte (s.bench b).store k

/-- Lane l of vector register r of bench b. -/
def lane (s : State) (b r l : Nat) : W32 := ((s.bench b).vr r).getD l 0

/-- Bench b holds 512 lanes in register r. -/
abbrev Full (s : State) (b r : Nat) : Prop := ((s.bench b).vr r).length = 512

/-- Everything of bench b but vector registers, the sequencer's place and the debug counters is as before; so is every
vector register but those of rs. -/
def VecFrame (s : State) (b : Nat) (rs : List Nat) (t : State) : Prop :=
  (∃ v sl lo cs, t.bench b = { s.bench b with vreg := v, slot := sl, loop := lo, ctrs := cs })
    ∧ ∀ q, q ∉ rs → (t.bench b).vr q = (s.bench b).vr q

/-- Everything of bench b but the store with its marks, the sequencer's place and the debug counters is as before. -/
def StoreFrame (s : State) (b : Nat) (t : State) : Prop :=
  ∃ m p u e sl lo cs, t.bench b = { s.bench b with store := m, poison := p, ue := u, ce := e, slot := sl, loop := lo, ctrs := cs }

/-- Everything of bench b but windows, the sequencer's place and the debug counters is as before; so is every window
outside the n windows from f. -/
def WinFrame (s : State) (b f n : Nat) (t : State) : Prop :=
  (∃ w sl lo cs, t.bench b = { s.bench b with wins := w, slot := sl, loop := lo, ctrs := cs })
    ∧ ∀ k, k < f ∨ f + n ≤ k → (t.bench b).win k = (s.bench b).win k

/-- An operation on vector registers gives lane l of vd from the lanes of its operands, and changes nothing else. -/
def Lanes (c : Instr) (s : State) (b : Nat) (i : SeqWords) (f : W32 → W32 → W32 → W32) : Prop :=
  Full s b i.vs1 → Full s b i.vs2 → Full s b i.vs3 → Does c s (fun t =>
    (∀ l, l < 512 → lane t b i.vd l = f (lane s b i.vs1 l) (lane s b i.vs2 l) (lane s b i.vs3 l))
      ∧ VecFrame s b [i.vd] t ∧ OnlyBench b s t)

/-- A TRN primitive gives lane l of vd from lane l of vs1. -/
def Trn (c : Instr) (s : State) (b n : Nat) (i : SeqWords) : Prop :=
  Ready s b (.trn n) i 0 0 → Full s b i.vs1 → Does c s (fun t =>
    (∀ l, l < 512 → lane t b i.vd l = Fp.primitive n (lane s b i.vs1 l)) ∧ VecFrame s b [i.vd] t ∧ OnlyBench b s t)

/-! ### Tenon cores -/

/-- Between s and t nothing but core k changes. -/
def OnlyCore (k : Nat) (s t : State) : Prop := { t with cores := s.cores } = s ∧ ∀ j, j ≠ k → t.core j = s.core j

/-- Core k runs, outside a repeat, with nothing pending, and fetches the n bytes at its PC without a fault; it is not
traced (08_tenon.md R233, R249, R252; 21_debug.md R528). -/
abbrev Free (s : State) (k n : Nat) : Prop :=
  let x := s.core k
  x.alive = true ∧ x.waiting = false ∧ x.skip = false ∧ x.bit Sw.rp = false ∧ x.wdtPend = false ∧ x.ipend = 0
    ∧ x.fetchFault n = none ∧ s.traced k = false

/-- A core at which one more instruction has retired, with the next PC. -/
def Gone (x : Core) (pc : W32) : Core := { x with pc := pc &&& ~~~3#32, retired := x.retired + 1 }

/-- A free core k goes over to y with the instruction of n bytes after it, and nothing else changes. -/
def CoreGoes (c : Instr) (s : State) (k n : Nat) (y : Core) : Prop :=
  Free s k n → Does c s (fun t => t.core k = Gone y ((s.core k).pc + BitVec.ofNat 32 n) ∧ OnlyCore k s t)

/-- What an instruction that writes Gd and may set the flags leaves: r in Gd, SW as before or with the flags of r, carry
and overflow those of cv where it gives them (08_tenon.md R236, R237; log 11); every other register stays. -/
def AluRow (c : Instr) (s : State) (k n gd : Nat) (r : W32) (cv : Option (Bool × Bool)) : Prop :=
  Free s k n → Does c s (fun t =>
    (∃ sw, t.core k = Gone { (s.core k).setG gd r with sw := sw } ((s.core k).pc + BitVec.ofNat 32 n)
      ∧ (sw = (s.core k).sw ∨ ∃ p, (∀ q, cv = some q → p = q) ∧ sw = ((s.core k).setFlags r p).sw))
      ∧ OnlyCore k s t)

/-- The MPU lets core x reach its tightly coupled memory, in both modes (08_tenon.md R255, R256). -/
def Reachable (x : Core) : Prop :=
  ∀ kind a, kind < 3 → a < 0x20000 → x.allowed kind a = true ∧ (x.setBit Sw.priv true).allowed kind a = true

/-- An exception frame of 8 bytes fits below P7, and the vector's word lies in the tightly coupled memory beside it. -/
def EntryFits (x : Core) (vector : Nat) : Prop :=
  let sp := (x.pr 7).toNat
  let v := (x.vtb + BitVec.ofNat 32 (4 * vector)).toNat
  Reachable x ∧ sp % 4 = 0 ∧ 8 ≤ sp ∧ sp ≤ 0x20000 ∧ x.splim.toNat ≤ sp - 8 ∧ v % 4 = 0 ∧ v + 4 ≤ 0x20000
    ∧ (v + 4 ≤ sp - 8 ∨ sp ≤ v) ∧ x.tcmUe.contains (v / 8) = false

/-- What entering a vector leaves of core x: the resume PC and SW lie on the stack, P7 has gone down by 8, SW has priv set
and rp and rn clear, PC is the vector's word (08_tenon.md R246). -/
def Entered (x : Core) (vector : Nat) (resume : W32) (y : Core) : Prop :=
  let sp := (x.pr 7).toNat
  y.pr 7 = x.pr 7 - 8 ∧ Memory.readLE y.tcm (sp - 4) 4 = resume.toNat ∧ Memory.readLE y.tcm (sp - 8) 4 = x.sw.toNat
    ∧ y.bit Sw.priv = true ∧ y.bit Sw.rp = false ∧ y.bit Sw.rn = false
    ∧ y.pc = BitVec.ofNat 32 (Memory.readLE x.tcm (x.vtb + BitVec.ofNat 32 (4 * vector)).toNat 4) &&& ~~~3#32
    ∧ y.g = x.g ∧ y.c = x.c ∧ (∀ q, q ≠ 7 → y.pr q = x.pr q)
    ∧ ∀ a, a < sp - 8 ∨ sp ≤ a → Memory.byte y.tcm a = Memory.byte x.tcm a

/-- No bench changes, but that a window routine may have been abandoned (09_firmware.md R277). -/
def RoutineOver (s t : State) : Prop := ∀ b, ∃ a, t.bench b = { s.bench b with abandoned := a }

/-- Core k takes synchronous exception f: entry with ie cleared, FCAUSE and FADDR (08_tenon.md R246, R248). -/
def Raises (c : Instr) (s : State) (k : Nat) (f : CoreFault) (resume : W32) : Prop :=
  EntryFits (s.core k) f.vector → Does c s (fun t =>
    Entered (s.core k) f.vector resume (t.core k) ∧ (t.core k).bit Sw.ie = false
      ∧ (t.core k).fcause = BitVec.ofNat 32 (f.vector + f.detail * 256)
      ∧ (∀ a, f.addr = some a → (t.core k).faddr = BitVec.ofNat 32 a)
      ∧ (∀ j, j ≠ k → t.core j = s.core j) ∧ RoutineOver s t ∧ t.mems = s.mems)

/-- A load of n bytes into a register: from the tightly coupled memory the bytes there, from the system window some value
(log 7), and BUS where the core's window reaches nothing there (log 30); the pointer register takes its update first. -/
def LoadRow (c : Instr) (s : State) (k n : Nat) (m : MemOp) (put : Core → Nat → Core) : Prop :=
  ∀ a p, (s.core k).address m n = some (a, p) → (s.core k).access false false a.toNat n = none →
    let x := (s.core k).setP m.pn.toNat p
    (spaceOf a.toNat = .tcm → CoreGoes c s k (memLen m) (put x (Memory.readLE x.tcm a.toNat n))) ∧
    (spaceOf a.toNat = .window → Config.windowReach (min k 5) a.toNat = true → Free s k (memLen m) → Does c s (fun t =>
      (∃ v, t.core k = Gone (put x v) ((s.core k).pc + BitVec.ofNat 32 (memLen m)))
        ∧ { t with cores := s.cores, freeCtr := s.freeCtr } = s ∧ ∀ j, j ≠ k → t.core j = s.core j)) ∧
    (spaceOf a.toNat = .window → Config.windowReach (min k 5) a.toNat = false → Free s k (memLen m) →
      Raises c s k ⟨7, some a.toNat, 0⟩ (s.core k).pc)

/-- A store of the n low bytes of v: in the tightly coupled memory those bytes change and no other, into the system window
it is posted, where the core's window reaches something there (log 30). -/
def StoreRow (c : Instr) (s : State) (k n : Nat) (m : MemOp) (v : Nat) : Prop :=
  ∀ a p, (s.core k).address m n = some (a, p) → (s.core k).access true false a.toNat n = none → Free s k (memLen m) →
    Does c s (fun t =>
      OnlyCore k s t ∧ (t.core k).pr m.pn.toNat = p ∧ (t.core k).g = (s.core k).g ∧ (t.core k).c = (s.core k).c
        ∧ (t.core k).sw = (s.core k).sw ∧ (t.core k).pc = ((s.core k).pc + BitVec.ofNat 32 (memLen m)) &&& ~~~3#32
        ∧ (∀ q, q ≠ m.pn.toNat → (t.core k).pr q = (s.core k).pr q)
        ∧ (spaceOf a.toNat = .tcm → Memory.readLE (t.core k).tcm a.toNat n = v % 256 ^ n
            ∧ (t.core k).posted = (s.core k).posted
            ∧ ∀ i, i < a.toNat ∨ a.toNat + n ≤ i → Memory.byte (t.core k).tcm i = Memory.byte (s.core k).tcm i)
        ∧ (spaceOf a.toNat = .window → (t.core k).tcm = (s.core k).tcm ∧ (t.core k).posted = (s.core k).posted
            ++ (if Config.windowReach (min k 5) a.toNat = true then [(a.toNat, leBytes n v)] else [])))

/-! ### Operations of rings -/

/-- The next descriptor of ring r of function i is d, of this kind and opcode, and it may start (12_rings.md R339 to R341);
no engine reset and no last power cycle holds it off (19_recovery.md R498, R503). -/
abbrev Starts (s : State) (i r kind opcode : Nat) (d : Desc) : Prop :=
  s.next? i r kind opcode = some d ∧ s.rcv.fencedForGood = false ∧ s.rcv.engineFenced kind = false

/-- The operation of d changes the state as P says and completes with a status and a result. -/
def Ends (c : Instr) (s : State) (i r : Nat) (d : Desc) (status result : Nat) (P : State → Prop) : Prop :=
  Does c s (fun t => ∃ u, P u ∧ t = u.complete ⟨i, r, d.num⟩ status result)

/-- The operation of d completes with a status and changes nothing else. -/
def Refuses (c : Instr) (s : State) (i r : Nat) (d : Desc) (status result : Nat) : Prop :=
  Does c s (fun t => t = (s.launch i r d).complete ⟨i, r, d.num⟩ status result)

/-- No line of the memories and the bench stores is poisoned or fails its code. -/
def Healthy (s : State) : Prop :=
  (∀ u, (s.memUnit u).poison = [] ∧ (s.memUnit u).ue = [] ∧ (s.memUnit u).flips = [])
    ∧ ∀ b, (s.bench b).poison = [] ∧ (s.bench b).ue = []

/-- The mask of a descriptor names a member set whose partitions belong to function i, none of them fenced. -/
abbrev OwnSet (s : State) (i mask : Nat) : Prop :=
  (∀ p ∈ maskList 4 mask, (s.part p).owner = some i) ∧ s.isSet mask = true ∧ s.anyFenced mask = false

/-! ### Register writes -/

/-- A write of function i to offset a is taken: aligned, answered, to registers, and changing no reserved bit (11_pcie.md R316;
13_registers.md R375). -/
abbrev Taken (s : State) (i a : Nat) (wide : Bool) (v : Nat) : Prop :=
  a % (if wide then 8 else 4) = 0 ∧ s.barAnswers i a = true ∧ s.vectorAt i a = none
    ∧ (writeWords i a wide v).all (fun x => !s.rvChange x.1 x.2.1 x.2.2) = true

/-- Bytes of host memory outside the n bytes from a stay. -/
def HostOutside (s : State) (a n : Nat) (t : State) : Prop :=
  ∀ k, k < a ∨ a + n ≤ k → Memory.byte t.host.mem k = Memory.byte s.host.mem k

/-! ### Links -/

/-- The first bench store byte of a part of a flit: receive slot entry, slot byte, payload byte, count. -/
def landAt (x : LinkSlot × Nat × Nat × Nat) : Nat := 64 * x.1.line + x.2.1

/-- Two parts of a flit touch no common byte of a bench store. -/
abbrev Apart (x y : LinkSlot × Nat × Nat × Nat) : Prop :=
  x.1.bench ≠ y.1.bench ∨ landAt x + x.2.2.2 ≤ landAt y ∨ landAt y + y.2.2.2 ≤ landAt x

/-- Part x of a flit lands in its bench's store: it is not forwarded (06_plain.md R174), and no valley on its way is isolated
(01_architecture.md R24). -/
abbrev Landed (s : State) (ts : List (LinkSlot × Nat × Nat × Nat)) (x : LinkSlot × Nat × Nat × Nat) : Prop :=
  x ∈ ts ∧ s.forwardOf x.1 = none ∧ s.cutOff (landPath x.1.bench) = none

/-- No byte of a bench store changes outside the parts of a flit. -/
def OutsideLanded (s : State) (ts : List (LinkSlot × Nat × Nat × Nat)) (t : State) : Prop :=
  ∀ b k, (∀ x ∈ ts, x.1.bench = b → k < landAt x ∨ landAt x + x.2.2.2 ≤ k) →
    Memory.byte (t.bench b).store k = Memory.byte (s.bench b).store k

/-- A notice is on its way in each of the next two flits of link k: a data or a seal flit takes it along, and an idle flit
has left with it (06_plain.md R169, R192). -/
def Noted (s t : State) (k aux v : Nat) : Prop :=
  ∀ q, q < 2 → if s.flitDue k q then (aux, v) ∈ (t.link k).notices else Out.flit k 0 aux v [] ∈ t.out

end Sys2Proof.Say

open Sys2Proof Sys2Proof.Machine Sys2Proof.Say in
/-- 03_benches.md R545: each VEC operation on registers gives lane l of vd from lane l of its operands; registers other
than vd, the store, the windows and every other bench stay.
02_arithmetic.md R59, 03_benches.md R81: each TRN instruction gives lane l of vd as its primitive of lane l of vs1;
nothing else of the bench but its place changes. -/
def Obligations.vector_operations_and_primitives_by_lane : Prop :=
  (
    ∀ (s : State) (b : BenchId) (i : SeqWords),
      (Ready s b (.vec 0x00) i 0 0 → Lanes (.vecAdd b i) s b i (fun x y _ => Fp.add x y)) ∧
      (Ready s b (.vec 0x01) i 0 0 → Lanes (.vecSub b i) s b i (fun x y _ => Fp.sub x y)) ∧
      (Ready s b (.vec 0x02) i 0 0 → Lanes (.vecMul b i) s b i (fun x y _ => Fp.mul x y)) ∧
      (Ready s b (.vec 0x03) i 0 0 → Lanes (.vecFma b i) s b i Fp.fma) ∧
      (Ready s b (.vec 0x04) i 0 0 → Lanes (.vecDiv b i) s b i (fun x y _ => Fp.div x y)) ∧
      (Ready s b (.vec 0x05) i 0 0 → Lanes (.vecSqrt b i) s b i (fun x _ _ => Fp.sqrt x)) ∧
      (Ready s b (.vec 0x06) i 0 0 → Lanes (.vecMax b i) s b i (fun x y _ => Fp.max x y)) ∧
      (Ready s b (.vec 0x07) i 0 0 → Lanes (.vecMin b i) s b i (fun x y _ => Fp.min x y)) ∧
      (Ready s b (.vec 0x08) i 0 0 → Lanes (.vecCmp b i) s b i (fun x y _ => if compareLane (i.fc 20 3) x y then 1 else 0)) ∧
      (Ready s b (.vec 0x09) i 0 0 → Lanes (.vecSel b i) s b i (fun x y z => if z = 0 then y else x)) ∧
      (Ready s b (.vec 0x0E) i 0 0 → Lanes (.vecMove b i) s b i (fun x _ _ => x)) ∧
      (Ready s b (.vec 0x0F) i 0 0 → Lanes (.bcst b i) s b i (fun _ _ _ => i.b))
  ) ∧ (
    ∀ (s : State) (b : BenchId) (i : SeqWords),
      Trn (.trnExp2 b i) s b 0 i ∧ Trn (.trnExp b i) s b 1 i ∧ Trn (.trnLog2 b i) s b 2 i ∧ Trn (.trnLog b i) s b 3 i ∧
      Trn (.trnRcp b i) s b 4 i ∧ Trn (.trnRsqrt b i) s b 5 i ∧ Trn (.trnTanh b i) s b 6 i ∧ Trn (.trnSinpi b i) s b 7 i ∧
      Trn (.trnCospi b i) s b 8 i
  )

open Sys2Proof Sys2Proof.Machine Sys2Proof.Say in
/-- 03_benches.md R545, R55: LDF and LDB load 512 lanes from line a, STF and STB store the lanes of vs1 there and leave
every other byte; VDRAW draws one random word for each lane (02_arithmetic.md R61); VRED adds 512 terms to one window
where none breaks the anchor rule of R75. -/
def Obligations.vector_loads_stores_and_reductions : Prop :=
  ∀ (s : State) (b : BenchId) (i : SeqWords),
    let a := 64 * i.fa 0 16
    (Ready s b (.vec 0x0A) i 0 0 → Clean s b a 2048 → Does (.ldf b i) s (fun t =>
      (∀ l, l < 512 → lane t b i.vd l = BitVec.ofNat 32 (num s b (a + 4 * l) 4)) ∧ VecFrame s b [i.vd] t ∧ OnlyBenchEcc b s t)) ∧
    (Ready s b (.vec 0x0B) i 0 0 → Full s b i.vs1 → Does (.stf b i) s (fun t =>
      (∀ l, l < 512 → num t b (a + 4 * l) 4 = (lane s b i.vs1 l).toNat) ∧ StoreOutside s b a 2048 t ∧ StoreFrame s b t
        ∧ OnlyBench b s t)) ∧
    (Ready s b (.vec 0x0C) i 0 0 → Clean s b a 1024 → Does (.vecLdb b i) s (fun t =>
      (∀ l, l < 512 → lane t b i.vd l = Fp.ofBf16 (num s b (a + 2 * l) 2)) ∧ VecFrame s b [i.vd] t ∧ OnlyBenchEcc b s t)) ∧
    (Ready s b (.vec 0x0D) i 0 0 → Full s b i.vs1 → Does (.vecStb b i) s (fun t =>
      (∀ l, l < 512 → num t b (a + 2 * l) 2 = Fp.toBf16 (lane s b i.vs1 l) % 65536) ∧ StoreOutside s b a 1024 t
        ∧ StoreFrame s b t ∧ OnlyBench b s t)) ∧
    (Ready s b .vdraw i 0 0 → Clean s b a 16 → Does (.vdraw b i) s (fun t =>
      (∀ l, l < 512 →
        let d := draw (BitVec.ofNat 64 (num s b a 8)) (BitVec.ofNat 32 (num s b (a + 8) 4)) (BitVec.ofNat 32 (num s b (a + 12) 4))
          (i.b + BitVec.ofNat 32 l)
        lane t b i.vd l = d.setWidth 32 ∧ lane t b (i.vd + 1) l = (d >>> 32).setWidth 32)
        ∧ VecFrame s b [i.vd, i.vd + 1] t ∧ OnlyBenchEcc b s t)) ∧
    (let n := 1024 * i.fc 24 2 + i.fb 0 10
     let ts := if bitOf i.c.toNat 23 then ((s.bench b).vr i.vs1).map singleTerm
       else List.zipWith fp32Term ((s.bench b).vr i.vs1) ((s.bench b).vr i.vs2)
     Ready s b .vred i 0 0 → (((s.bench b).win n).addTerms ts).2 = false → Does (.vred b i) s (fun t =>
       (t.bench b).win n = (((s.bench b).win n).addTerms ts).1 ∧ WinFrame s b n 1 t ∧ OnlyBench b s t))

open Sys2Proof Sys2Proof.Machine Sys2Proof.Say in
/-- 03_benches.md R73, R74: ACLR clears the windows of its range, AANC sets their anchors and leaves W and the special
state, AIMP adds partial records (02_arithmetic.md R51) and ABIAS one FP32 term for each window; windows outside the range
stay.
03_benches.md R73, R77, 02_arithmetic.md R53, R63: AWB stores each window rounded once to FP32 or BF16, AEXP its
16-byte partial record, SXCH the prescan anchors, ASAMP the sampled token; every other byte of the store stays. -/
def Obligations.accumulator_commands_and_window_results : Prop :=
  (
    ∀ (s : State) (b : BenchId) (i : SeqWords),
      let a := 64 * i.fa 0 16
      let f := rangeStart i
      let n := i.winCount
      let x := s.bench b
      (Ready s b .aclr i 0 0 → Does (.aclr b i) s (fun t =>
        (∀ j, j < n → (t.bench b).win (f + j) = Window.clear) ∧ WinFrame s b f n t ∧ OnlyBench b s t)) ∧
      (Ready s b .aanc i 0 0 → i.split = false → (i.fc 23 2 = 2 → Clean s b a (2 * n)) → Does (.aanc b i) s (fun t =>
        (∀ j, j < n → (t.bench b).win (f + j) =
          { x.win (f + j) with anchor := anchorMax (Tab.get 0x8000#16 x.prescan (f + j)) ((suppliedAnchors x.store i).getD j 0) }) ∧ WinFrame s b f n t ∧ OnlyBenchEcc b s t)) ∧
      (Ready s b .aanc i 0 0 → i.split = true → (i.fc 23 2 = 2 → Clean s b a (2 * n)) →
        (∀ j, j < n → (Tab.get 0x8000#16 x.prescan (f + j)).toInt ≤ ((suppliedAnchors x.store i).getD j 0).toInt) →
        Does (.aanc b i) s (fun t =>
          (∀ j, j < n → (t.bench b).win (f + j) = { x.win (f + j) with anchor := (suppliedAnchors x.store i).getD j 0 })
            ∧ WinFrame s b f n t ∧ OnlyBenchEcc b s t)) ∧
      (Ready s b .aimp i 0 0 → Clean s b a (16 * n) → Does (.aimp b i) s (fun t =>
        (∀ j, j < n → (t.bench b).win (f + j) = (x.win (f + j)).addRecord (Memory.read x.store (a + 16 * j) 16))
          ∧ WinFrame s b f n t ∧ OnlyBenchEcc b s t)) ∧
      (Ready s b .abias i 0 0 → Clean s b a (4 * n) →
        (∀ j, j < n → ((x.win (f + j)).addTerms [singleTerm (BitVec.ofNat 32 (num s b (a + 4 * j) 4))]).2 = false) →
        Does (.abias b i) s (fun t =>
          (∀ j, j < n → (t.bench b).win (f + j) = ((x.win (f + j)).addTerms [singleTerm (BitVec.ofNat 32 (num s b (a + 4 * j) 4))]).1)
            ∧ WinFrame s b f n t ∧ OnlyBenchEcc b s t))
  ) ∧ (
    ∀ (s : State) (b : BenchId) (i : SeqWords),
      let a := 64 * i.fa 0 16
      let f := rangeStart i
      let n := i.winCount
      let x := s.bench b
      (Ready s b .awb i 0 0 → i.bf = false → Does (.awb b i) s (fun t =>
        (∀ j, j < n → num t b (a + 4 * j) 4 = (x.win (f + j)).result Fp.fp32 % 2 ^ 32) ∧ StoreOutside s b a (4 * n) t
          ∧ StoreFrame s b t ∧ OnlyBench b s t)) ∧
      (Ready s b .awb i 0 0 → i.bf = true → Does (.awb b i) s (fun t =>
        (∀ j, j < n → num t b (a + 2 * j) 2 = (x.win (f + j)).result Fp.bf16 % 2 ^ 16) ∧ StoreOutside s b a (2 * n) t
          ∧ StoreFrame s b t ∧ OnlyBench b s t)) ∧
      (Ready s b .aexp i 0 0 → Does (.aexp b i) s (fun t =>
        (∀ j, j < n → Memory.read (t.bench b).store (a + 16 * j) 16 = (x.win (f + j)).record) ∧ StoreOutside s b a (16 * n) t
          ∧ StoreFrame s b t ∧ OnlyBench b s t)) ∧
      (Ready s b .sxch i 0 0 → Does (.sxch b i) s (fun t =>
        (∀ j, j < n → num t b (a + 2 * j) 2 = (Tab.get 0x8000#16 x.prescan (f + j)).toNat) ∧ StoreOutside s b a (2 * n) t
          ∧ StoreFrame s b t ∧ OnlyBench b s t)) ∧
      (let r := 64 * i.fb 0 16
       let k := i.fc 0 21
       Ready s b .asamp i 0 0 → x.operandFault (linesOf a (4 * k) ++ [i.fb 0 16]) = none → Does (.asamp b i) s (fun t =>
         num t b (r + 16) 4 = (sample ((List.range k).map (fun j => BitVec.ofNat 32 (num s b (a + 4 * j) 4)))
             (BitVec.ofNat 64 (num s b r 8)) (BitVec.ofNat 32 (num s b (r + 8) 4)) (BitVec.ofNat 32 (num s b (r + 12) 4))).toNat
           ∧ StoreOutside s b (r + 16) 4 t ∧ StoreFrame s b t ∧ OnlyBenchEcc b s t))
  )

open Sys2Proof Sys2Proof.Machine Sys2Proof.Say in
/-- 03_benches.md R67 to R72, R77, R544: MMT adds each output's terms into the 1,024 windows of a set, MMS into 64 windows,
where no term breaks the anchor rule of R75; SPRE leaves in the prescan buffer the largest top exponent of each of its
windows; SQNT stores the elements and scales of quantized blocks (02_arithmetic.md R56). -/
def Obligations.matrix_prescan_and_quantize : Prop :=
  ∀ (s : State) (b : BenchId) (i : SeqWords) (y : Slot),
    let x := s.bench b
    (∀ (stream : Bool) (c : Instr) (op : SeqOp),
      (c = .mmt b i ∧ op = .mmt ∧ stream = false) ∨ (c = .mms b i ∧ op = .mms ∧ stream = true) →
      let f := 1024 * i.fc 24 2 + (if stream then 64 * i.fc 26 4 else 0)
      let ts := mmaTerms x.store stream i
      Ready s b op i 0 0 → x.operandFault (mmaLines stream i) = none →
      (∀ j, j < ts.length → ((x.win (f + j)).addTerms (ts.getD j [])).2 = false) →
      Does c s (fun t => (∀ j, j < ts.length → (t.bench b).win (f + j) = ((x.win (f + j)).addTerms (ts.getD j [])).1)
        ∧ t.fld (F.bncStallCycles b) =
            (s.fld (F.bncStallCycles b) + (if bankWait (mmaPortA stream i) (mmaPortB stream i) then 1 else 0)) % 2 ^ 32
        ∧ WinFrame s b f ts.length t ∧ { t with benches := s.benches, regs := s.regs } = s
        ∧ (∀ c, c ≠ (b : Nat) → t.bench c = s.bench c)
        ∧ ∀ g : Field, g.addr ≠ (F.bncEccCorrected b).addr → g.addr ≠ (F.bncStallCycles b).addr → t.fld g = s.fld g)) ∧
    (let (f, n) := spreWindows i y
     let entry := fun (u : State) k => Tab.get 0x8000#16 (u.bench b).prescan k
     let result := fun j => (spreResults x.store i y).getD j 0
     Ready s b .spre i y 0 → x.operandFault (spreLines i y) = none → Does (.spre b i y) s (fun t =>
        (∀ j, j < n → entry t (f + j) = if bitOf i.c.toNat 31 then anchorMax (entry s (f + j)) (result j) else result j)
        ∧ (∀ k, k < f ∨ f + n ≤ k → entry t k = entry s k)
        ∧ (∃ p sl lo, t.bench b = { x with prescan := p, slot := sl, loop := lo }) ∧ OnlyBenchEcc b s t)) ∧
    (let n := i.fc 4 12
     let dst := 64 * i.fb 0 16
     let sc := 64 * i.fc 16 16
     let block := fun j => quantBlock (i.fc 0 4) ((List.range 32).map (fun e => BitVec.ofNat 32 (num s b (64 * i.fa 0 16 + 128 * j + 4 * e) 4)))
     let es := packElems (typeBits (i.fc 0 4)) ((List.range n).flatMap (fun j => (block j).2))
     Ready s b .sqnt i 0 0 → Clean s b (64 * i.fa 0 16) (128 * n) → Does (.sqnt b i) s (fun t =>
       (∀ j, j < n → num t b (sc + j) 1 = (block j).1 % 256)
       ∧ (∀ k, k < es.length → dst + k < sc ∨ sc + n ≤ dst + k → num t b (dst + k) 1 = (es.getD k 0).toNat)
       ∧ (∀ k, k < dst ∨ dst + es.length ≤ k → k < sc ∨ sc + n ≤ k → Memory.byte (t.bench b).store k = Memory.byte x.store k)
       ∧ StoreFrame s b t ∧ OnlyBenchEcc b s t))

open Sys2Proof Sys2Proof.Machine Sys2Proof.Say in
/-- 03_benches.md R95 to R98, R103, R543: NOP passes on, END stops the cut program, LOOP takes up the next slots, WAITM and
SYNC stall until their counter has reached the target, OPEN opens a window and its end closes it.
03_benches.md R86, R87, R546: an MOV with fewer than eight transfers in flight puts its transfer in flight and moves no
line yet; a ninth is not issued and stalls the sequencer until one completes; the completion of a transfer takes it out of flight and
advances the mover token counter by one. -/
def Obligations.sequencer_control_and_mover_transfers : Prop :=
  (
    ∀ (s : State) (b : BenchId) (i : SeqWords),
      let x := s.bench b
      let next := (x.advance 1)
      (Ready s b .nop i 0 0 → Does (.nop b i) s (fun t => t.bench b = next ∧ OnlyBench b s t)) ∧
      (Ready s b .endProg i 0 0 → Does (.endProg b i) s (fun t =>
        t.flag (F.bncStatusRunning b) = false ∧ t.bench b = next ∧ ∀ c, c ≠ (b : Nat) → t.bench c = s.bench c)) ∧
      (Ready s b .loop i 0 0 → x.loop = none → Does (.loop b i) s (fun t =>
        t.bench b = { x with slot := x.slot + 1, loop := some (x.slot + 1, x.slot + i.fa 0 8, i.fb 0 16) } ∧ OnlyBench b s t)) ∧
      (Ready s b .waitm i 0 0 → Does (.waitm b i) s (fun t =>
        t.bench b = { next with stall := if notReached i.a x.tokens then some (16, i.a) else none } ∧ OnlyBench b s t)) ∧
      (Ready s b .sync i 0 0 → Does (.sync b i) s (fun t =>
        let k := i.fc 0 4
        let v := Tab.get 0 (s.cluster (clusterOf b)).sync k + BitVec.ofNat 32 (i.fb 0 16)
        Tab.get 0 (t.cluster (clusterOf b)).sync k = v
          ∧ t.bench b = { next with stall := if notReached i.a v then some (k, i.a) else none })) ∧
      (Ready s b .openWin i 0 0 → Does (.openWin b i) s (fun t =>
        (t.bench b).window = some i.a.toNat ∧ (t.bench b).released = false ∧ (t.bench b).slot = next.slot)) ∧
      (x.window.isSome = true → x.released = true → Does (.openWindowEnd b) s (fun t =>
        t.bench b = { x with window := none, released := false, abandoned := false } ∧ t.flag (F.bncStatusOpen b) = false
          ∧ ∀ c, c ≠ (b : Nat) → t.bench c = s.bench c))
  ) ∧ (
    ∀ (s : State) (b : BenchId) (i : SeqWords) (x1 x2 : Slot),
      (∀ (c : Instr) (op : Nat),
        (c = .mns b i x1 x2 ∧ op = 0) ∨ (c = .mhb b i x1 x2 ∧ op = 1) ∨ (c = .mbb b i x1 x2 ∧ op = 2) ∨
          (c = .mlk b i x1 x2 ∧ op = 3) ∨ (c = .maxAnchors b i x1 x2 ∧ op = 4) →
        Ready s b (.mov op) i x1 x2 →
        ((s.bench b).flight.length < 8 → Does c s (fun t =>
          t.bench b = { (s.bench b).advance 3 with flight := (s.bench b).flight ++ [movShape op i x1 x2] } ∧ OnlyBench b s t)) ∧
        (8 ≤ (s.bench b).flight.length → Does c s (fun t =>
          t.bench b = { s.bench b with stall := some (17, 0) } ∧ OnlyBench b s t))) ∧
      (∀ tr rest, (s.bench b).flight = tr :: rest → Does (.moverTransferDone b) s (fun t =>
        (t.bench b).flight = rest ∧ (t.bench b).tokens = (s.bench b).tokens + 1
          ∧ ((s.bench b).stall = some (17, 0) → rest.length < 8 → (t.bench b).stall = none)))
  )

open Sys2Proof Sys2Proof.Machine Sys2Proof.Say in
/-- 04_cutlists.md R112, R114, R132; 03_benches.md R96; 06_plain.md R181, R188: RUN_START, CUT_START, KERF_START, KERF_SEAL
and KERF_SERVICE each take the run from its phase to the next one, at the Plain tick that the schedule gives. A start from
LOADED begins at pass 0, cut 0, kerf 0; a resumed run keeps its position. Store, registers and windows of every bench stay. -/
def Obligations.schedule_events_move_the_run_on : Prop :=
  ∀ (s : State),
    (s.run.phase = .armed → Does .runStart s (fun t =>
      t.run.phase = .start ∧ t.run.since = s.run.firstTick ∧ t.plain.tick = max s.plain.tick s.run.firstTick
        ∧ (s.run.resuming = false → t.run.pass = 0 ∧ t.run.cut = 0 ∧ t.run.kerfs = 0 ∧ t.run.epoch = 0)
        ∧ (s.run.resuming = true → t.run.pass = s.run.pass ∧ t.run.cut = s.run.cut ∧ t.run.kerfs = s.run.kerfs)
        ∧ (∀ p ∈ s.setParts, (t.part p).state = .running)
        ∧ (∀ b, (t.bench b).store = (s.bench b).store ∧ (t.bench b).vreg = (s.bench b).vreg ∧ (t.bench b).wins = (s.bench b).wins))) ∧
    (s.run.phase = .start → Does .cutStart s (fun t =>
      t.run.phase = .cut ∧ t.plain.tick = max s.plain.tick s.run.since
        ∧ (∀ b ∈ s.runningBenches, b < 160 → (t.bench b).slot = ((s.bench b).entryFor s.run.cut).getD 0
            ∧ (t.bench b).loop = none ∧ t.flag (F.bncStatusRunning b) = ((s.bench b).entryFor s.run.cut).isSome)
        ∧ (∀ b, (t.bench b).store = (s.bench b).store ∧ (t.bench b).vreg = (s.bench b).vreg ∧ (t.bench b).wins = (s.bench b).wins))) ∧
    (∀ l, s.run.phase = .cut → s.schedule = some l → Does .kerfStart s (fun t =>
      t.run.phase = .drain ∧ t.run.since = s.run.since + (l.cutRun s.run.cut).length
        ∧ t.plain.tick = max s.plain.tick (s.run.since + (l.cutRun s.run.cut).length)
        ∧ (∀ b ∈ s.runningBenches, b < 160 → t.flag (F.bncStatusRunning b) = false)
        ∧ (∀ b ∈ s.runningBenches, b < 160 → s.flag (F.bncStatusRunning b) = true → t.fld (F.bncStatusFault b) = 1
            ∧ (s.touches (.bench b) = true → t.run.halt.isSome = true))
        ∧ t.benches = s.benches)) ∧
    (s.run.phase = .drain → Does .kerfSeal s (fun t =>
      t.run.phase = .sealed ∧ t.plain.tick = max s.plain.tick (s.run.since + 4)
        ∧ ((s.run.marks.any (fun m => m.kerf == s.run.kerfs)) = true → t.sealOf s.run.kerfs = some s.seal)
        ∧ t.plain.slew = slewStep s.plain.slew ∧ t.benches = s.benches)) ∧
    (s.run.phase = .sealed → Does .kerfService s (fun t =>
      t.run.phase = .service ∧ t.plain.tick = max s.plain.tick (s.run.since + 12)
        ∧ (∀ j ∈ s.serviceLinks, (t.link j).held = []
            ∧ ∀ f ∈ (s.link j).held, Out.flit j 2 1 f ((s.link j).payload f) ∈ t.out ∧ Out.flit j 2 2 f ((s.link j).payload f) ∈ t.out)
        ∧ t.benches = s.benches))

open Sys2Proof Sys2Proof.Machine Sys2Proof.Say in
/-- 04_cutlists.md R112, R114, R132, R133, R142, R143: the Commit phase ends in the next cut of the schedule, one kerf later,
where nothing ends the run; the end of the last pass leaves the partitions LOADED, a stop that is due leaves them STOPPED,
and a due halt ends the run.
06_plain.md R194, R196; 18_power.md R485, R486: a missing seal or a silent valley raises a halt with cause HANG where it touches
scheduled work (19_recovery.md R493), also a seal of the run's last kerf, whose record alone follows; at the
latch kerf, before its seal flit, the request for the next period is 65,535 while a sensor is at or past its critical threshold and,
where none is past its warning threshold either, the request of R486, it shows in PWR_LIMIT, and the running maximum takes it in.
That a run whose last cut falls on the stop kerf ends as LOADED is the model's choice (log 25). -/
def Obligations.kerf_commit_deadline_and_stretch : Prop :=
  (
    ∀ (s : State) (p : KerfPower), s.run.phase = .service →
      (s.haltDue = false → s.takeStops = false → (s.swapsNow = true ∨ (s.runOver = false ∧ s.stopDue = false)) →
        Does (.kerfCommit p) s (fun t => t.run.phase = .start ∧ (t.run.pass, t.run.cut) = s.nextPos
          ∧ t.run.kerfs = s.run.kerfs + 1 ∧ t.run.since = s.run.since + s.kerfLength)) ∧
      (s.haltDue = false → s.takeStops = false → s.swapsNow = false → s.runOver = true → Does (.kerfCommit p) s (fun t =>
        t.run.phase = .idle ∧ t.run.start = none ∧ t.run.stops = [] ∧ ∀ q ∈ s.setParts, (t.part q).state = .loaded)) ∧
      (s.haltDue = false → s.takeStops = false → s.swapsNow = false → s.runOver = false → s.stopDue = true →
        Does (.kerfCommit p) s (fun t => t.run.phase = .idle ∧ t.run.start = none ∧ t.run.stops = []
          ∧ (t.run.pass, t.run.cut) = s.nextPos ∧ ∀ q ∈ s.setParts, (t.part q).state = .stopped)) ∧
      (s.haltDue = true → Does (.kerfCommit p) s (fun t => t.run.phase = .idle))
  ) ∧ (
    ∀ (s : State),
      (∀ (j : LinkId) (k d : Nat), s.scheduled = true → s.serviceLinks.contains (j : Nat) = true → s.inPlain = true →
        s.sealDeadline j = some (k, d) → s.expiresAt d = true → Does (.cutDeadlineExpiry (.neighbour j)) s (fun t =>
          t.flag F.dvtPlainHaltPending = true ∧ t.run.phase = s.run.phase ∧ t.benches = s.benches ∧ t.plain.tick = max s.plain.tick d
            ∧ k ∈ (t.link j).missed
            ∧ ∃ h x, t.run.halt = some h ∧ x ∈ h.seen :: h.more ∧ x.trouble.cause = 0x03 ∧ x.trouble.detail = 0xFF)) ∧
      (∀ (j : LinkId) (k d : Nat), s.scheduled = false → s.serviceLinks.contains (j : Nat) = true → s.inPlain = true →
        s.sealDeadline j = some (k, d) → Does (.cutDeadlineExpiry (.neighbour j)) s (fun t =>
          t.run = s.run ∧ t.benches = s.benches ∧ t.plain.tick = max s.plain.tick d ∧ k ∈ (t.link j).missed
            ∧ ∃ x, t.rcv.faults = s.rcv.faults ++ [x] ∧ x.trouble.cause = 0x03 ∧ x.trouble.detail = 0xFF)) ∧
      (∀ (v : Fin 40), s.scheduled = true → s.run.phase.inKerf = true → s.expiresAt (s.run.since + s.kerfLength - 1) = true →
        Does (.cutDeadlineExpiry (.valley v)) s (fun t =>
          t.run.phase = s.run.phase ∧ t.benches = s.benches
            ∧ (s.touches (.valley v) = true → t.flag F.dvtPlainHaltPending = true
              ∧ ∃ h x, t.run.halt = some h ∧ x ∈ h.seen :: h.more ∧ x.trouble.cause = 0x03 ∧ x.trouble.detail = (v : Nat))
            ∧ (s.touches (.valley v) = false → t.run = s.run
              ∧ ∃ x, t.rcv.faults = s.rcv.faults ++ [x] ∧ x.trouble.cause = 0x03 ∧ x.trouble.detail = (v : Nat)))) ∧
      (∀ (l : Cutlist) (p : PowerSample), s.schedule = some l → s.run.phase = .drain → s.run.kerfs % 32 = 0 →
        Does (.stretchLatch p) s (fun t => ∃ req,
          t.fld F.pwrLimitRequest = req % 65536 ∧ t.plain.stretchMax = max s.plain.stretchMax req
            ∧ t.fld F.pwrPeriodWatts = p.periodW % 65536
            ∧ t.pwr.latch = some (s.plain.tick, min (s.fld F.pwrCapWatts) (t.fld F.pwrLimitLimitCap))
            ∧ t.plain.stretch = s.plain.stretch ∧ t.run.phase = s.run.phase
            ∧ (s.anyPast F.tlmThreshCrit = true → req = 65535)
            ∧ (s.anyPast F.tlmThreshCrit = false → s.anyPast F.tlmThreshWarn = false →
                req = s.stretchRequest l p (min (s.fld F.pwrCapWatts) (t.fld F.pwrLimitLimitCap)))
            ∧ t.benches = s.benches)) ∧
      (∀ (l : Cutlist) (p : PowerSample), s.schedule = some l → s.run.phase ≠ .drain → Does (.stretchLatch p) s (fun t => t = s))
  )

open Sys2Proof Sys2Proof.Machine Sys2Proof.Say in
/-- 06_plain.md R172, R174 to R178, R184: a released flit is kept, its corrected codeword is counted, and its bytes land in
the receive slots that it carries; a lost flit is counted and is announced in the next two flits, and where kerfs occur it poisons
the lines that it touches; the sender holds a flit that a loss notice names; a replay that corrects restores a lost flit and one that does
not changes nothing; a link with too many losses, an unrestored one or lost lock leaves service, where kerfs occur at tick 123 of
the kerf after the cut of the losses; a trained link is READY. Failure at once where no schedule runs, notices that a data flit or a
seal flit carries, corrected codewords counted for any flit (log 19), and what a flit lost with no run leaves (log 30) are the
model's choices. -/
def Obligations.flits_and_link_failures : Prop :=
  ∀ (s : State) (j : LinkId) (f : BitVec 16) (p : List Byte) (fixed : Bool),
    let l := s.link j
    let whole := (p ++ List.replicate 640 0).take 640
    let ts := s.flitTargets j f.toNat
    let lost := s.fld (F.dvtLinkErrLost j)
    let due := ([0, 1].filter (s.flitDue j)).length
    let fec := (s.fld (F.dvtLinkFecCorrected j) + (if fixed then 1 else 0)) % 2 ^ 32
    (s.streams j = true → Does (.flitRelease j f p fixed) s (fun t =>
      (t.link j).rx = l.rx ++ [(f.toNat, whole)] ∧ t.fld (F.dvtLinkFecCorrected j) = fec ∧ t.run = s.run
        ∧ (∀ x, Landed s ts x → x.1.kind ≠ 1 → (∀ y ∈ ts, y ≠ x → Apart x y) →
            Memory.read (t.bench x.1.bench).store (landAt x) x.2.2.2 = bytesAt whole x.2.2.1 x.2.2.2)
        ∧ (∀ x, Landed s ts x → x.1.kind = 1 → (∀ y ∈ ts, y ≠ x → Apart x y) → ts.count x = 1 → ∀ i, i < x.2.2.2 / 2 →
            num t x.1.bench (landAt x + 2 * i) 2
              = (anchorMax (BitVec.ofNat 16 (num s x.1.bench (landAt x + 2 * i) 2)) (BitVec.ofNat 16 (fieldLE (bytesAt whole x.2.2.1 x.2.2.2) (2 * i) 2))).toNat)
        ∧ OutsideLanded s ts t)) ∧
    (s.fld (F.dvtLinkStatusState j) = 3 → s.scheduled = true → Does (.flitLost j f) s (fun t =>
      (t.link j).lost = l.lost ++ [f.toNat] ∧ (t.link j).unrestored = l.unrestored ++ [f.toNat]
        ∧ (t.link j).notices = l.notices ++ List.replicate due (1, f.toNat)
        ∧ (∃ more, t.out = s.out ++ more ++ List.replicate (2 - due) (.flit j 0 1 f.toNat []))
        ∧ t.fld (F.dvtLinkErrLost j) = min (2 ^ 16 - 1) (lost + 1)
        ∧ (∀ x, Landed s ts x → ∀ k ∈ linesOf (landAt x) x.2.2.2, k ∈ (t.bench x.1.bench).poison)
        ∧ ∀ b, (t.bench b).store = (s.bench b).store)) ∧
    (s.fld (F.dvtLinkStatusState j) = 3 → s.scheduled = false → Does (.flitLost j f) s (fun t =>
      (t.link j).lost = l.lost ∧ (t.link j).unrestored = l.unrestored
        ∧ (t.link j).notices = l.notices ++ List.replicate due (1, f.toNat)
        ∧ t.out = s.out ++ List.replicate (2 - due) (.flit j 0 1 f.toNat [])
        ∧ t.fld (F.dvtLinkErrLost j) = min (2 ^ 16 - 1) (lost + 1) ∧ t.benches = s.benches)) ∧
    (s.streams j = true → l.held.contains f.toNat = false → Does (.lossNoticeReceived j f false) s (fun t =>
      t = s.setLink j { l with held := l.held ++ [f.toNat] })) ∧
    (l.held.contains f.toNat = true ∨ s.streams j = false → Does (.lossNoticeReceived j f false) s (fun t => t = s)) ∧
    (s.fld (F.dvtLinkStatusState j) = 3 → s.run.phase = .service → l.unrestored.contains f.toNat = true →
      l.lost.length - l.unrestored.length < 8 → Does (.replayFlitReceived j f p true fixed) s (fun t =>
        (t.link j).unrestored = l.unrestored.filter (· != f.toNat) ∧ (t.link j).lost = l.lost
          ∧ t.fld (F.dvtLinkFecCorrected j) = fec
          ∧ (∀ x, Landed s ts x → x.1.kind ≠ 1 → (∀ y ∈ ts, y ≠ x → Apart x y) →
              Memory.read (t.bench x.1.bench).store (landAt x) x.2.2.2 = bytesAt whole x.2.2.1 x.2.2.2)
          ∧ (∀ x, Landed s ts x → ∀ k ∈ linesOf (landAt x) x.2.2.2, k ∉ (t.bench x.1.bench).poison)
          ∧ OutsideLanded s ts t)) ∧
    Does (.replayFlitReceived j f p false fixed) s (fun t => t = s) ∧
    (let failed := 8 < l.lost.length ∨ l.unrestored ≠ [] ∨ l.lockLost = true ∨ l.failAt.isSome = true
     s.fld (F.dvtLinkStatusState j) = 3 → failed →
      (s.scheduled = false → Does (.linkFailure j) s (fun t => t.fld (F.dvtLinkStatusState j) ≠ 3 ∧ t.benches = s.benches)) ∧
      (∀ k, s.scheduled = true → s.failTick j = some k → s.expiresAt k = true → Does (.linkFailure j) s (fun t =>
        t.fld (F.dvtLinkStatusState j) ≠ 3 ∧ t.benches = s.benches ∧ t.plain.tick = max s.plain.tick k
          ∧ t.flag F.dvtPlainHaltPending = true ∧ t.run.halt.isSome = true)) ∧
      (∀ k, l.failAt = some k → s.failTick j = some k) ∧
      (∀ c, l.failAt = none → l.lost ≠ [] → s.run.phase = .cut → s.schedule = some c →
        s.failTick j = some (s.run.since + (c.cutRun s.run.cut).length + 123)) ∧
      (∀ m, l.failAt = none → l.lost ≠ [] → s.run.phase ≠ .cut → s.run.marks.head? = some m → s.plain.tick ≤ m.start + 123 →
        s.failTick j = some (m.start + 123))) ∧
    (s.fld (F.dvtLinkStatusState j) = 3 → s.scheduled = true → Does (.dovetailLossOfLock j) s (fun t =>
      t = s.setLink j { l with lockLost := true, trained := false })) ∧
    (s.fld (F.dvtLinkStatusState j) = 3 → s.scheduled = false → Does (.dovetailLossOfLock j) s (fun t =>
      t.fld (F.dvtLinkStatusState j) ≠ 3 ∧ (t.link j).trained = false ∧ (t.link j).lockLost = true ∧ t.benches = s.benches)) ∧
    (s.fld (F.dvtLinkStatusState j) = 1 ∨ s.fld (F.dvtLinkStatusState j) = 2 → Does (.dovetailLossOfLock j) s (fun t =>
      t.fld (F.dvtLinkStatusState j) = 0 ∧ (t.link j).trained = false ∧ (t.link j).answered = false ∧ t.benches = s.benches)) ∧
    (s.fld (F.dvtLinkStatusState j) = 0 ∨ s.fld (F.dvtLinkStatusState j) = 1 → Does (.dovetailTrainingDone j) s (fun t =>
      t.fld (F.dvtLinkStatusState j) = 2 ∧ (t.link j).trained = true ∧ (t.link j).lockLost = false ∧ t.benches = s.benches))

open Sys2Proof Sys2Proof.Machine Sys2Proof.Say in
/-- 06_plain.md R171, R181, R191 to R193; 20_checkpoint.md R511: a seal notes what it carries; one equal to the member's own
of its kerf raises nothing and one that differs raises DIVERGE, and one that comes before the member's own waits; from the
second seal on the offset is stored, and beyond 2 ticks it raises DIVERGE; a new halt notice and a new checkpoint notice with an
earlier kerf are adopted, and a new notice is forwarded on every other link in service; a halt report is kept and forwarded, within
a cut at the next kerf, and the cause that it brings is named in a recovery record; a corrected codeword of a control flit is
counted. That early seals and reports wait, how a report is named and that control flits count corrected codewords (log 19), that a
notice's value is a kerf count and that an odd difference is halved downward (log 27) are the model's choices. -/
def Obligations.seals_notices_and_reports : Prop :=
  ∀ (s : State) (j : LinkId), s.serviceLinks.contains (j : Nat) = true → s.inPlain = true →
    (∀ f : SealFlit, (s.link j).seals = [] → Does (.sealFlitReceived j f) s (fun t =>
      (t.link j).seals = [f.kerf.toNat] ∧ t.fld (F.dvtLinkFecCorrected j) = (s.fld (F.dvtLinkFecCorrected j) + (if f.fixed then 1 else 0)) % 2 ^ 32
        ∧ (∀ w k, s.scheduled = true → s.run.swap = some w → s.voteKerf = some k → k ≤ f.kerf.toNat →
            f.vote.map BitVec.toNat ≠ s.swapVote → t.run.swap.map Swap.no = some true)
        ∧ (t.link j).rHere = f.arrival - 256 ∧ (t.link j).rPeer = f.rPeer
        ∧ (f.coeff ≠ 0 → (t.link j).coeffReq = (s.link j).coeffReq ++ [(f.kerf.toNat + 1, f.coeff)])
        ∧ (t.link j).coeff = (s.link j).coeff
        ∧ (s.scheduled = true → f.kerf.toNat / 32 = s.run.kerfs / 32 → t.plain.stretchMax = max s.plain.stretchMax f.stretch.toNat)
        ∧ t.run.phase = s.run.phase ∧ t.benches = s.benches
        ∧ (∀ own, s.sealOf f.kerf.toNat = some own →
            (f.sealVal.toNat = own → t.run.halt = s.run.halt ∧ (t.link j).diverged = (s.link j).diverged)
            ∧ (f.sealVal.toNat ≠ own → (t.link j).diverged = true ∧ (s.scheduled = true → t.run.halt.isSome = true)))
        ∧ (s.sealOf f.kerf.toNat = none → t.run.halt = s.run.halt
            ∧ (s.scheduled = true → s.run.kerfs ≤ f.kerf.toNat → (t.link j).early = (s.link j).early ++ [f])))) ∧
    (∀ f : SealFlit, (s.link j).seals ≠ [] → Does (.sealFlitReceived j f) s (fun t =>
      let theta := ((s.link j).rHere - f.rPeer) / 2
      t.fld (F.dvtLinkOffsetTheta j) = unsigned 32 theta ∧ f.kerf.toNat ∈ (t.link j).seals
        ∧ (s.plain.parent = some (j : Nat) → t.plain.slew = theta ∧ t.plain.offset = f.offset + theta)
        ∧ ((128 < theta ∨ theta < -128) → (t.link j).diverged = true ∧ (s.scheduled = true → t.run.halt.isSome = true))
        ∧ t.benches = s.benches)) ∧
    (∀ v : BitVec 16, s.scheduled = true → s.run.noticed.contains (2, s.kerfOf16 v.toNat) = false →
      (∀ h, s.run.halt = some h → s.kerfOf16 v.toNat < h.kerf) → Does (.haltNoticeReceived j v false) s (fun t =>
        t.run.halt.map Halt.kerf = some (s.kerfOf16 v.toNat) ∧ t.flag F.dvtPlainHaltPending = true
          ∧ (∀ k ∈ s.serviceLinks, k ≠ (j : Nat) → Noted s t k 2 (s.kerfOf16 v.toNat % 65536)) ∧ t.benches = s.benches)) ∧
    (∀ (v : BitVec 16) (h : Halt), s.scheduled = true → s.run.noticed.contains (2, s.kerfOf16 v.toNat) = false →
      s.run.halt = some h → h.kerf ≤ s.kerfOf16 v.toNat → Does (.haltNoticeReceived j v false) s (fun t =>
        t.run.halt.map Halt.kerf = some h.kerf
          ∧ (∀ k ∈ s.serviceLinks, k ≠ (j : Nat) → Noted s t k 2 (s.kerfOf16 v.toNat % 65536)) ∧ t.benches = s.benches)) ∧
    (∀ v : BitVec 16, s.run.noticed.contains (2, s.kerfOf16 v.toNat) = true → Does (.haltNoticeReceived j v false) s (fun t => t = s)) ∧
    (∀ (v : BitVec 16) (k : Take), s.scheduled = true → s.run.take = some k → k.trigger = 0 → k.stopped = none →
      s.run.noticed.contains (3, s.kerfOf16 v.toNat) = false →
      (∀ h, k.stopKerf = some h → s.kerfOf16 v.toNat < h) → Does (.checkpointNoticeReceived j v false) s (fun t =>
        t.run = { s.run with noticed := (3, s.kerfOf16 v.toNat) :: s.run.noticed, take := some { k with stopKerf := some (s.kerfOf16 v.toNat) } }
          ∧ (∀ l ∈ s.serviceLinks, l ≠ (j : Nat) → Noted s t l 3 (s.kerfOf16 v.toNat % 65536))
          ∧ { t with run := s.run, out := s.out, links := s.links } = s)) ∧
    (∀ (v : BitVec 16), s.scheduled = true → s.run.noticed.contains (3, s.kerfOf16 v.toNat) = false →
      s.run.take = none → Does (.checkpointNoticeReceived j v false) s (fun t =>
        t.run.halt.isSome = true ∧ t.flag F.dvtPlainHaltPending = true
          ∧ ∀ l ∈ s.serviceLinks, l ≠ (j : Nat) → Noted s t l 3 (s.kerfOf16 v.toNat % 65536))) ∧
    (∀ v : BitVec 16, s.run.noticed.contains (3, s.kerfOf16 v.toNat) = true →
      Does (.checkpointNoticeReceived j v false) s (fun t => t = s)) ∧
    (let u := s.wrapAdd (F.dvtLinkFecCorrected j) 1
     (∀ v, exec (.lossNoticeReceived j v true) s = exec (.lossNoticeReceived j v false) u)
      ∧ (∀ v, exec (.haltNoticeReceived j v true) s = exec (.haltNoticeReceived j v false) u)
      ∧ (∀ v, exec (.checkpointNoticeReceived j v true) s = exec (.checkpointNoticeReceived j v false) u)
      ∧ (∀ g m q, exec (.linkIdentity j g m q true) s = exec (.linkIdentity j g m q false) u)
      ∧ (∀ r, exec (.musterRecord j r true) s = exec (.musterRecord j r false) u)
      ∧ (∀ r, exec (.startRecord j r true) s = exec (.startRecord j r false) u)
      ∧ (∀ r, exec (.haltReport j r true) s = exec (.haltReport j r false) u)) ∧
    (∀ r : HaltRep, s.run.reports.contains r = false → Does (.haltReport j r false) s (fun t =>
      t.run = { s.run with reports := s.run.reports ++ [r] } ∧ t.benches = s.benches ∧ t.mems = s.mems ∧ t.parts = s.parts
        ∧ (s.run.phase ≠ .cut → ∀ k ∈ s.serviceLinks, k ≠ (j : Nat) → ∃ aux v, Out.control k FlitType.haltReport aux v (haltBytes r) ∈ t.out)
        ∧ (s.run.phase = .cut → ∀ k ∈ s.serviceLinks, k ≠ (j : Nat) → (FlitType.haltReport, haltBytes r) ∈ (t.link k).control)
        ∧ (s.run.halt = none → r.cause ≠ 0 → (r.cause ≠ 4 ∨ r.faulting = true) → (∀ x ∈ s.rcv.records, x.1.length = 128) →
            (∀ q ∈ s.run.reports, q.cause ≠ 4) → (∀ k, k < 6 → (s.link k).diverged = false) →
            s.run.haltSeq ≤ s.rcv.seq → s.rcv.seq + 1 < 2 ^ 32 → ∃ x ∈ t.rcv.records,
              fieldLE x.1 5 1 = r.cause.toNat ∧ fieldLE x.1 6 1 = r.detail.toNat ∧ fieldLE x.1 0x24 4 = r.member.toNat)))

open Sys2Proof Sys2Proof.Machine Sys2Proof.Say in
/-- 06_plain.md R184, R186 to R188: a link identity of the expected neighbour puts the link into service, and the last one
sends the member's own record out; a new Muster record is kept, and one that comes before the member's own waits; the start
round that hears of every member and finds no difference fixes the first cut's start tick, and a start record that comes
before the round waits; a Muster that runs out of time leaves no Plain. That early records wait, and that a record of another
formation refuses the formation, are the model's choices (log 19). -/
def Obligations.formation_and_start_round : Prop :=
  ∀ (s : State) (j : LinkId),
    (∀ (g : W64) (m : BitVec 16) (q : BitVec 3), s.flag F.dvtPlainForming = true → s.formingLinks.contains (j : Nat) = true →
      s.fld (F.dvtLinkStatusState j) = 2 → g.toNat = s.plain.formation →
      m.toNat = neighbour s.plain.dimX s.plain.dimY s.plain.dimZ (s.fld F.dvtPlainMemberIndex) j → q.toNat = peerOf j →
      (s.formingLinks.any (fun k => k != j && !(s.link k).answered)) = true → Does (.linkIdentity j g m q false) s (fun t =>
        (t.link j).answered = true ∧ t.fld (F.dvtLinkStatusState j) = 3 ∧ t.fld (F.dvtLinkStatusPeerMember j) = m.toNat % 1024
          ∧ t.plain = s.plain ∧ t.benches = s.benches)) ∧
    (∀ (g : W64) (m : BitVec 16) (q : BitVec 3), s.flag F.dvtPlainForming = true → s.formingLinks.contains (j : Nat) = true →
      s.fld (F.dvtLinkStatusState j) = 2 → g.toNat = s.plain.formation →
      m.toNat = neighbour s.plain.dimX s.plain.dimY s.plain.dimZ (s.fld F.dvtPlainMemberIndex) j → q.toNat = peerOf j →
      (s.formingLinks.any (fun k => k != j && !(s.link k).answered)) = false → s.plain.records = [] → s.plain.early = [] →
      1 < s.fld F.dvtPlainPlainSize → s.run.phase ≠ .cut → Does (.linkIdentity j g m q false) s (fun t =>
        (t.link j).answered = true ∧ t.fld (F.dvtLinkStatusState j) = 3 ∧ t.benches = s.benches
          ∧ ∃ r, t.plain = { s.plain with records := [r] }
            ∧ ∀ k ∈ s.serviceLinks, ∃ aux v, Out.control k FlitType.muster aux v r ∈ t.out)) ∧
    (∀ (g : W64) (m : BitVec 16) (q : BitVec 3), s.flag F.dvtPlainForming = true → s.formingLinks.contains (j : Nat) = true →
      s.fld (F.dvtLinkStatusState j) = 2 → g.toNat ≠ s.plain.formation → Does (.linkIdentity j g m q false) s (fun t =>
        t.flag F.dvtPlainForming = false ∧ t.flag F.dvtPlainFormed = false ∧ t.fld F.dvtPlainPlainSize = 0)) ∧
    (∀ r : List Byte, r.length = 256 → s.flag F.dvtPlainForming = true → s.plain.records ≠ [] →
      s.plain.records.contains r = false → s.plain.records.length + 1 < s.fld F.dvtPlainPlainSize →
      Does (.musterRecord j r false) s (fun t => t.plain = { s.plain with records := s.plain.records ++ [r] }
        ∧ { t with plain := s.plain, out := s.out, links := s.links } = s
        ∧ (s.run.phase ≠ .cut → ∀ k ∈ s.serviceLinks, k ≠ (j : Nat) → ∃ aux v, Out.control k FlitType.muster aux v r ∈ t.out))) ∧
    (∀ r : List Byte, r.length = 256 → s.flag F.dvtPlainForming = true → s.plain.records = [] → Does (.musterRecord j r false) s (fun t =>
      t.plain = { s.plain with early := s.plain.early ++ [((j : Nat), r)] } ∧ { t with plain := s.plain } = s)) ∧
    (∀ r : List Byte, s.flag F.dvtPlainForming = false → Does (.musterRecord j r false) s (fun t => t = s)) ∧
    (∀ r : StartRec, s.run.phase = .round → s.inPlain = true → s.serviceLinks.contains (j : Nat) = true →
      r.member.toNat ≠ s.fld F.dvtPlainMemberIndex → s.run.startRecs.contains r = false →
      (s.run.startRecs.filter (fun q => q.member != r.member)).length + 2 = s.fld F.dvtPlainPlainSize →
      startDiff s.startRecord (s.run.startRecs.filter (fun q => q.member != r.member) ++ [r]) = none →
      Does (.startRecord j r false) s (fun t =>
        t.run.phase = .armed ∧ t.run.firstTick % 4096 = 0 ∧ t.run.start = s.run.start
          ∧ s.run.readyTick + 64 * (s.diameter + 1) ≤ t.run.firstTick ∧ r.ready.toNat + 64 * (s.diameter + 1) ≤ t.run.firstTick
          ∧ t.run.members = s.run.startRecs.filter (fun q => q.member != r.member) ++ [r]
          ∧ { t with run := s.run, out := s.out, links := s.links } = s)) ∧
    (∀ r : StartRec, s.run.phase = .idle → s.inPlain = true → s.serviceLinks.contains (j : Nat) = true →
      r.member.toNat ≠ s.fld F.dvtPlainMemberIndex → s.run.startRecs.contains r = false → Does (.startRecord j r false) s (fun t =>
        t.run = { s.run with startRecs := s.run.startRecs.filter (fun q => q.member != r.member) ++ [r] }
          ∧ { t with run := s.run, out := s.out, links := s.links } = s)) ∧
    (s.flag F.dvtPlainForming = true → Does .musterTimeout s (fun t =>
      t.flag F.dvtPlainForming = false ∧ t.flag F.dvtPlainFormed = false ∧ t.fld F.dvtPlainPlainSize = 0
        ∧ (∀ k : LinkId, t.fld (F.dvtLinkStatusState k) ≠ 3) ∧ t.plain.op = none ∧ s.plain.tick ≤ t.plain.tick
        ∧ s.plain.deadline ≤ t.now))

open Sys2Proof Sys2Proof.Machine Sys2Proof.Say in
/-- 07_memory.md R205, R210, R219 to R223: the memory controllers' own events. No event changes a byte of memory but the
rewrite of a line as poison, and every other unit stays.
07_memory.md R227, R228; 03_benches.md R105; 06_plain.md R198: a stack whose interface fails, and a stack, a bench or a
link whose pending map-out may apply, leaves service; a stack's contents are lost. -/
def Obligations.memory_events_and_map_outs : Prop :=
  (
    ∀ (s : State) (k : StackId),
      let u := stackUnit k
      let m := s.memUnit u
      (∀ t0, s.flag (F.memStatusPresent k) = true → s.flag (F.memStatusSelfRefresh k) = false → s.refreshTick k = some t0 →
        Does (.refreshStep k) s (fun t =>
          t.plain.tick = max s.plain.tick t0 ∧ (t.memUnit u).bytes = m.bytes ∧ (t.memUnit u).poison = m.poison
            ∧ (t.memUnit u).refreshAt = (if s.refreshNeeded k t0 then t0 else m.refreshAt)
            ∧ ∀ v, v ≠ u → t.memUnit v = s.memUnit v)) ∧
      (∀ temp : BitVec 8, s.flag (F.memStatusPresent k) = true → Does (.stackTempRead k temp) s (fun t =>
        let want := if temp.toNat ≤ 85 then 0 else if temp.toNat ≤ 95 then 1 else 2
        t.fld (F.memTempCurrent k) = temp.toNat ∧ t.fld (F.memTempPeak k) = max temp.toNat (s.fld (F.memTempPeak k))
          ∧ want ≤ t.fld (F.memStatusBand k)
          ∧ (s.fld (F.memStatusBand k) ≤ want → t.fld (F.memStatusBand k) = want)
          ∧ t.fld (F.memStatusBand k) ≤ max want (s.fld (F.memStatusBand k))
          ∧ { t with regs := s.regs, mems := s.mems } = s ∧ (t.memUnit u).bytes = m.bytes
          ∧ ∀ v, v ≠ u → t.memUnit v = s.memUnit v)) ∧
      (s.flag (F.memStatusPresent k) = true → s.stackNamed k = false → s.holdsPool k = false → m.accessAt + 1000000 ≤ s.now →
        Does (.selfRefreshEntry k) s (fun t => t.flag (F.memStatusSelfRefresh k) = true ∧ { t with regs := s.regs } = s)) ∧
      (∀ line : BitVec 30, m.writeback.contains line.toNat = true → Does (.hbmEccWriteBack k line) s (fun t =>
        Tab.get [] (t.memUnit u).flips line.toNat = flipsLeft (Tab.get [] m.flips line.toNat) ∧ line.toNat ∉ (t.memUnit u).writeback ∧ (t.memUnit u).bytes = m.bytes
          ∧ (∀ v, v ≠ u → t.memUnit v = s.memUnit v) ∧ { t with mems := s.mems } = s)) ∧
      (∀ (d : DieId) (line : BitVec 25), (s.memUnit d).repoison.contains line.toNat = true → Does (.nstEccWriteBack d line) s (fun t =>
        line.toNat ∈ (t.memUnit d).poison ∧ lineMarked (t.memUnit d).ue line.toNat = false
          ∧ Memory.read (t.memUnit d).bytes (64 * line.toNat) 64 = List.replicate 64 0
          ∧ (∀ a, a < 64 * line.toNat ∨ 64 * line.toNat + 64 ≤ a → Memory.byte (t.memUnit d).bytes a = Memory.byte (s.memUnit d).bytes a)
          ∧ { t with mems := s.mems } = s)) ∧
      (∀ (d : DieId) (line : BitVec 25), (s.memUnit d).repoison.contains line.toNat = false →
        (s.memUnit d).writeback.contains line.toNat = true → Does (.nstEccWriteBack d line) s (fun t =>
          lineMarked (t.memUnit d).ce line.toNat = false ∧ (t.memUnit d).bytes = (s.memUnit d).bytes
            ∧ (∀ v, v ≠ (d : Nat) → t.memUnit v = s.memUnit v) ∧ { t with mems := s.mems } = s)) ∧
      (∀ g : BitVec 20, (s.granule u g.toNat).pool = true → (s.granule u g.toNat).rewriting = true →
        (s.scheduled = true ∨ s.run.commits = []) → Does (.slotZeroRewriteDone k g) s (fun t =>
          t.granule u g.toNat = { s.granule u g.toNat with rewriting := false }
            ∧ (∀ h, h ≠ g.toNat → t.granule u h = s.granule u h) ∧ (t.memUnit u).bytes = m.bytes
            ∧ { t with mems := s.mems, run := s.run } = s))
  ) ∧ (
    ∀ (s : State) (k : StackId) (b : BenchId) (j : LinkId),
      (s.flag (F.memStatusPresent k) = true →
        (s.stackParts k = 0 ∨ (maskList 4 (s.stackParts k)).any (fun p => (s.part p).runs) = true
          ∨ (s.rcv.faults = [] ∧ s.rcv.levels = [] ∧ s.rcv.done = [])) →
        Does (.stackInterfaceFailure k) s (fun t =>
          t.flag (F.memStatusPresent k) = false ∧ t.flag (F.memStatusMappedOut k) = true
            ∧ t.memUnit (stackUnit k) = MemUnit.init ∧ ∀ v, v ≠ stackUnit k → t.memUnit v = s.memUnit v)) ∧
      (s.flag (F.memStatusMapPending k) = true → s.stackNamed k = false → Does (.stackMapOutApply k) s (fun t =>
        t.flag (F.memStatusPresent k) = false ∧ t.flag (F.memStatusMappedOut k) = true ∧ t.flag (F.memStatusMapPending k) = false
          ∧ t.memUnit (stackUnit k) = MemUnit.init ∧ (∀ v, v ≠ stackUnit k → t.memUnit v = s.memUnit v) ∧ t.benches = s.benches)) ∧
      (s.flag (F.bncStatusMapPending b) = true → s.benchScheduled b = false → Does (.benchMapOutApply b) s (fun t =>
        t.flag (F.bncStatusPresent b) = false ∧ t.flag (F.bncStatusMappedOut b) = true ∧ t.flag (F.bncStatusMapPending b) = false
          ∧ t.mems = s.mems ∧ t.benches = s.benches)) ∧
      (s.flag (F.dvtLinkStatusMapPending j) = true → s.flag F.dvtPlainFormed = false → s.flag F.dvtPlainForming = false ∨ s.plain.records ≠ [] →
        Does (.linkMapOutApply j) s (fun t =>
          t.fld (F.dvtLinkStatusState j) = 5 ∧ t.flag (F.dvtLinkStatusMapPending j) = false ∧ t.mems = s.mems ∧ t.benches = s.benches))
  )

open Sys2Proof Sys2Proof.Machine Sys2Proof.Say in
/-- 08_tenon.md R236 to R238: an ALU operation writes its result to Gd and nothing else but the flags; CMP and PCMP write
only the flags; an undefined op is ILLEGAL. Where the model's operation is an open choice (SEXT, ZEXT, the order of MIN and MAX, the rounding of signed
division, a wide immediate; log 11), the statement leaves it open.
08_tenon.md R236: a shift by less than 32 writes the shifted Gs to Gd; what a wider register amount, a bit field extract
and a bit field insert give is open (log 11), and each writes Gd all the same. -/
def Obligations.alu_operations_and_shifts_write_one_register : Prop :=
  (
    ∀ (s : State) (k : CoreId) (d a b : Gn) (pd ps : Pn),
      let x := s.core k
      let u := x.gr a.toNat
      let v := x.gr b.toNat
      let c : Nat := if x.bit Sw.c then 1 else 0
      AluRow (.aluAdd k d a b) s k 4 d.toNat (u + v) (some (decide (2 ^ 32 ≤ u.toNat + v.toNat), u.msb == v.msb && (u + v).msb != u.msb)) ∧
      AluRow (.aluAddc k d a b) s k 4 d.toNat (u + v + BitVec.ofNat 32 c)
        (some (decide (2 ^ 32 ≤ u.toNat + v.toNat + c), u.msb == v.msb && (u + v + BitVec.ofNat 32 c).msb != u.msb)) ∧
      AluRow (.aluSub k d a b) s k 4 d.toNat (u - v) (some (decide (u.toNat < v.toNat), u.msb != v.msb && (u - v).msb != u.msb)) ∧
      AluRow (.aluSubc k d a b) s k 4 d.toNat (u - v - BitVec.ofNat 32 c)
        (some (decide (u.toNat < v.toNat + c), u.msb != v.msb && (u - v - BitVec.ofNat 32 c).msb != u.msb)) ∧
      AluRow (.aluAnd k d a b) s k 4 d.toNat (u &&& v) none ∧
      AluRow (.aluOr k d a b) s k 4 d.toNat (u ||| v) none ∧
      AluRow (.aluXor k d a b) s k 4 d.toNat (u ^^^ v) none ∧
      AluRow (.aluNot k d a b) s k 4 d.toNat (~~~u) none ∧
      AluRow (.aluNeg k d a b) s k 4 d.toNat (-u) (some (decide (0 < u.toNat), u.msb && (-u).msb)) ∧
      AluRow (.aluMov k d a b) s k 4 d.toNat u none ∧
      AluRow (.aluMul k d a b) s k 4 d.toNat (BitVec.ofNat 32 (u.toNat * v.toNat)) none ∧
      (∃ r, (r = u ∨ r = v) ∧ (∃ signed : Bool, (if signed then r.toInt ≤ u.toInt ∧ r.toInt ≤ v.toInt else r ≤ u ∧ r ≤ v))
        ∧ AluRow (.aluMin k d a b) s k 4 d.toNat r none) ∧
      (∃ r, (r = u ∨ r = v) ∧ (∃ signed : Bool, (if signed then u.toInt ≤ r.toInt ∧ v.toInt ≤ r.toInt else u ≤ r ∧ v ≤ r))
        ∧ AluRow (.aluMax k d a b) s k 4 d.toNat r none) ∧
      (∃ r, (v = 0 → r = 0xFFFFFFFF#32)
        ∧ (v ≠ 0 → r = BitVec.ofInt 32 (u.toInt.tdiv v.toInt) ∨ r = BitVec.ofInt 32 (u.toInt.fdiv v.toInt))
        ∧ AluRow (.divs k d a b) s k 4 d.toNat r none) ∧
      AluRow (.divu k d a b) s k 4 d.toNat (if v = 0 then 0xFFFFFFFF#32 else BitVec.ofNat 32 (u.toNat / v.toNat)) none ∧
      (∃ r, (v = 0 → r = u)
        ∧ (v ≠ 0 → r = BitVec.ofInt 32 (u.toInt.tmod v.toInt) ∨ r = BitVec.ofInt 32 (u.toInt.fmod v.toInt))
        ∧ AluRow (.rems k d a b) s k 4 d.toNat r none) ∧
      AluRow (.remu k d a b) s k 4 d.toNat (if v = 0 then u else BitVec.ofNat 32 (u.toNat % v.toNat)) none ∧
      (∃ r, AluRow (.sext k d a b) s k 4 d.toNat r none) ∧
      (∃ r, AluRow (.zext k d a b) s k 4 d.toNat r none) ∧
      CoreGoes (.aluCmp k d a b) s k 4 (x.setFlags (u - v) (decide (u.toNat < v.toNat), u.msb != v.msb && (u - v).msb != u.msb)) ∧
      (let p := x.pr pd.toNat
       let q := x.pr ps.toNat
       CoreGoes (.pcmp k pd ps) s k 4 (x.setFlags (p - q) (decide (p.toNat < q.toNat), p.msb != q.msb && (p - q).msb != p.msb))) ∧
      (∀ i : BitVec 32, AluRow (.aluImmediate k (some .add) d a (.long i)) s k 8 d.toNat (u + i)
        (some (decide (2 ^ 32 ≤ u.toNat + i.toNat), u.msb == i.msb && (u + i).msb != u.msb))) ∧
      (∀ i : BitVec 14, i.msb = false → AluRow (.aluImmediate k (some .and) d a (.short i)) s k 4 d.toNat (u &&& i.zeroExtend 32) none) ∧
      (∀ i : BitVec 32, AluRow (.movi k d (.long i)) s k 8 d.toNat i none) ∧
      (∀ i : BitVec 14, i.msb = false → AluRow (.movi k d (.short i)) s k 4 d.toNat (i.zeroExtend 32) none) ∧
      (∀ i : BitVec 14, ∃ r, AluRow (.movi k d (.short i)) s k 4 d.toNat r none) ∧
      (∀ (op : AluOp) (i : Imm), op ≠ .cmp →
        AluRow (.aluImmediate k (some op) d a i) s k (immValue i).1 d.toNat (aluEval op u (immValue i).2 (x.bit Sw.c)).1 none) ∧
      (∀ i : BitVec 32, CoreGoes (.aluImmediate k (some .cmp) d a (.long i)) s k 8
        (x.setFlags (u - i) (decide (u.toNat < i.toNat), u.msb != i.msb && (u - i).msb != u.msb))) ∧
      (∀ i : Imm, Free s k (immValue i).1 → Raises (.aluImmediate k none d a i) s k (CoreFault.plain 1) x.pc)
  ) ∧ (
    ∀ (s : State) (k : CoreId) (f : ShiftFields),
      let x := s.core k
      let v := x.gr f.gs.toNat
      let n := if f.byReg then (x.gr f.gn.toNat).toNat else f.amount.toNat
      let g := f.gd.toNat
      (n < 32 → AluRow (.shl k f) s k 4 g (v <<< n) none ∧ AluRow (.shr k f) s k 4 g (v >>> n) none
        ∧ AluRow (.sar k f) s k 4 g (v.sshiftRight n) none ∧ AluRow (.rol k f) s k 4 g (v.rotateLeft n) none
        ∧ AluRow (.ror k f) s k 4 g (v.rotateRight n) none) ∧
      (∀ c, c = Instr.shl k f ∨ c = Instr.shr k f ∨ c = Instr.sar k f ∨ c = Instr.rol k f ∨ c = Instr.ror k f
          ∨ c = Instr.bitFieldExtract k f ∨ c = Instr.bitFieldInsert k f → ∃ r, AluRow c s k 4 g r none)
  )

open Sys2Proof Sys2Proof.Machine Sys2Proof.Say in
/-- 08_tenon.md R234, R235: each load puts the bytes at its address, extended as its mnemonic says, into its register, and
each store writes the low bytes of its register, at the address that the addressing mode gives, which also updates Pn; bytes
outside the access stay. -/
def Obligations.loads_and_stores : Prop :=
  ∀ (s : State) (k : CoreId) (g : Gn) (p : Pn) (c : Cn) (m : MemOp),
    let x := s.core k
    LoadRow (.ldb k g m) s k 1 m (fun y v => y.setG g.toNat ((BitVec.ofNat 8 v).signExtend 32)) ∧
    LoadRow (.ldbu k g m) s k 1 m (fun y v => y.setG g.toNat ((BitVec.ofNat 8 v).zeroExtend 32)) ∧
    LoadRow (.ldh k g m) s k 2 m (fun y v => y.setG g.toNat ((BitVec.ofNat 16 v).signExtend 32)) ∧
    LoadRow (.ldhu k g m) s k 2 m (fun y v => y.setG g.toNat ((BitVec.ofNat 16 v).zeroExtend 32)) ∧
    LoadRow (.ldw k g m) s k 4 m (fun y v => y.setG g.toNat (BitVec.ofNat 32 v)) ∧
    LoadRow (.ldp k p m) s k 4 m (fun y v => y.setP p.toNat (BitVec.ofNat 32 v)) ∧
    LoadRow (.ldc k c m) s k 16 m (fun y v => y.setC c.toNat (BitVec.ofNat 72 v)) ∧
    StoreRow (.stb k g m) s k 1 m (x.gr g.toNat).toNat ∧
    StoreRow (.sth k g m) s k 2 m (x.gr g.toNat).toNat ∧
    StoreRow (.stw k g m) s k 4 m (x.gr g.toNat).toNat ∧
    StoreRow (.stp k p m) s k 4 m (x.pr p.toNat).toNat ∧
    StoreRow (.stc k c m) s k 16 m ((x.cr c.toNat).signExtend 128).toNat ∧
    (∀ a q f, x.address m 4 = some (a, q) → x.access false false a.toNat 4 = some f → Free s k (memLen m) →
      Raises (.ldw k g m) s k f x.pc) ∧
    (∀ a q f, x.address m 4 = some (a, q) → x.access true false a.toNat 4 = some f → Free s k (memLen m) →
      Raises (.stw k g m) s k f x.pc)

open Sys2Proof Sys2Proof.Machine Sys2Proof.Say in
/-- 08_tenon.md R240, R241: MAC, MSU, MACU, MSUU and MULC put an exact product into a 72-bit accumulator modulo 2^72; ACL clears
it, CMOV copies it, MVGC loads a sign-extended register pair; MVC shifts it out, clamped where SW.sat is set, which sets
SW.sv.
08_tenon.md R229, R236: PADR, PADD, PSUB, PMOV, PGET and PPUT write one register with the sum, difference or copy that their
names say. -/
def Obligations.accumulator_instructions_and_pointer_arithmetic : Prop :=
  (
    ∀ (s : State) (k : CoreId) (c c2 : Cn) (a b : Gn) (sh : BitVec 6),
      let x := s.core k
      let acc := x.cr c.toNat
      let ps := (x.gr a.toNat).toInt * (x.gr b.toNat).toInt
      let pu := ((x.gr a.toNat).toNat * (x.gr b.toNat).toNat : Int)
      CoreGoes (.mac k c a b) s k 4 (x.setC c.toNat (BitVec.ofInt 72 (acc.toInt + ps))) ∧
      CoreGoes (.msu k c a b) s k 4 (x.setC c.toNat (BitVec.ofInt 72 (acc.toInt - ps))) ∧
      CoreGoes (.macu k c a b) s k 4 (x.setC c.toNat (BitVec.ofInt 72 (acc.toInt + pu))) ∧
      CoreGoes (.msuu k c a b) s k 4 (x.setC c.toNat (BitVec.ofInt 72 (acc.toInt - pu))) ∧
      CoreGoes (.mulc k c a b false) s k 4 (x.setC c.toNat (BitVec.ofInt 72 ps)) ∧
      CoreGoes (.mulc k c a b true) s k 4 (x.setC c.toNat (BitVec.ofInt 72 pu)) ∧
      CoreGoes (.acl k c) s k 4 (x.setC c.toNat 0) ∧
      CoreGoes (.cmov k c c2) s k 4 (x.setC c.toNat (x.cr c2.toNat)) ∧
      CoreGoes (.mvgc k c a b) s k 4 (x.setC c.toNat ((x.gr a.toNat ++ x.gr b.toNat).signExtend 72)) ∧
      (let v := acc.toInt / 2 ^ sh.toNat
       (x.bit Sw.sat = false ∨ (-2 ^ 31 ≤ v ∧ v < 2 ^ 31) → CoreGoes (.mvc k a c sh) s k 4 (x.setG a.toNat (BitVec.ofInt 32 v))) ∧
       (x.bit Sw.sat = true → 2 ^ 31 ≤ v → CoreGoes (.mvc k a c sh) s k 4 ((x.setG a.toNat 0x7FFFFFFF#32).setBit Sw.sv true)) ∧
       (x.bit Sw.sat = true → v < -2 ^ 31 → CoreGoes (.mvc k a c sh) s k 4 ((x.setG a.toNat 0x80000000#32).setBit Sw.sv true)))
  ) ∧ (
    ∀ (s : State) (k : CoreId) (pd ps : Pn) (g : Gn),
      let x := s.core k
      (∀ i : BitVec 32, CoreGoes (.padr k pd ps (.long i)) s k 8 (x.setP pd.toNat (x.pr ps.toNat + i))) ∧
      (∀ i : BitVec 12, i.msb = false → CoreGoes (.padr k pd ps (.short i)) s k 4 (x.setP pd.toNat (x.pr ps.toNat + i.zeroExtend 32))) ∧
      (∀ i : BitVec 12, ∃ v, CoreGoes (.padr k pd ps (.short i)) s k 4 (x.setP pd.toNat v)) ∧
      CoreGoes (.padd k pd ps g) s k 4 (x.setP pd.toNat (x.pr ps.toNat + x.gr g.toNat)) ∧
      CoreGoes (.psub k pd ps g) s k 4 (x.setP pd.toNat (x.pr ps.toNat - x.gr g.toNat)) ∧
      CoreGoes (.pmov k pd ps) s k 4 (x.setP pd.toNat (x.pr ps.toNat)) ∧
      CoreGoes (.pget k ps g) s k 4 (x.setG g.toNat (x.pr ps.toNat)) ∧
      CoreGoes (.pput k pd g) s k 4 (x.setP pd.toNat (x.gr g.toNat))
  )

open Sys2Proof Sys2Proof.Machine Sys2Proof.Say in
/-- 08_tenon.md R237, R243, R245: a branch is taken by its condition on SW, to its own address plus four times the offset; JMP and
JMPP go to their target; CALL and CALLP also push the return address; RET pops it. -/
def Obligations.control_flow : Prop :=
  ∀ (s : State) (k : CoreId) (p : Pn) (q : Squash),
    let x := s.core k
    (∀ (c : BitVec 4) (off : BitVec 24) (taken : Bool), x.cond c.toNat = some taken → Free s k 4 →
      Does (.branch k c off q) s (fun t =>
        (t.core k).pc = (if taken then x.pc + off.signExtend 32 * 4 else x.pc + 4) &&& ~~~3#32
          ∧ (t.core k).g = x.g ∧ (t.core k).p = x.p ∧ (t.core k).sw = x.sw ∧ (t.core k).tcm = x.tcm
          ∧ ∀ j, j ≠ (k : Nat) → t.core j = s.core j)) ∧
    (∀ (off : BitVec 24), Free s k 4 → Raises (.branch k 15 off q) s k (CoreFault.plain 1) x.pc) ∧
    (∀ (off : Target), Free s k (targetValue off).1 → Does (.jmp k off) s (fun t =>
      t.core k = Gone x (x.pc + (targetValue off).2 * 4) ∧ OnlyCore k s t)) ∧
    (Free s k 4 → Does (.jmpp k p) s (fun t => t.core k = Gone x (x.pr p.toNat) ∧ OnlyCore k s t)) ∧
    (∀ (off : Target) (n : Nat) (to_ : W32) (c : Instr),
      (c = .call k off ∧ n = (targetValue off).1 ∧ to_ = x.pc + (targetValue off).2 * 4) ∨ (c = .callp k p ∧ n = 4 ∧ to_ = x.pr p.toNat) →
      Free s k n → Reachable x → (x.pr 7).toNat % 4 = 0 → 4 ≤ (x.pr 7).toNat → (x.pr 7).toNat ≤ 0x20000 →
      x.splim.toNat ≤ (x.pr 7).toNat - 4 → Does c s (fun t =>
        (t.core k).pc = to_ &&& ~~~3#32 ∧ (t.core k).pr 7 = x.pr 7 - 4
          ∧ Memory.readLE (t.core k).tcm ((x.pr 7).toNat - 4) 4 = (x.pc + BitVec.ofNat 32 n).toNat
          ∧ (∀ a, a < (x.pr 7).toNat - 4 ∨ (x.pr 7).toNat ≤ a → Memory.byte (t.core k).tcm a = Memory.byte x.tcm a)
          ∧ (t.core k).g = x.g ∧ (t.core k).sw = x.sw ∧ (∀ r, r ≠ 7 → (t.core k).pr r = x.pr r) ∧ OnlyCore k s t)) ∧
    (Free s k 4 → Reachable x → (x.pr 7).toNat % 4 = 0 → (x.pr 7).toNat < 0x20000 → x.tcmUe.contains ((x.pr 7).toNat / 8) = false →
      Does (.ret k) s (fun t =>
        t.core k = Gone (x.setP 7 (x.pr 7 + 4)) (BitVec.ofNat 32 (Memory.readLE x.tcm (x.pr 7).toNat 4)) ∧ OnlyCore k s t))

open Sys2Proof Sys2Proof.Machine Sys2Proof.Say in
/-- 08_tenon.md R232, R239, R246, R248, R258: MFS and MTS move a system register that the mode may reach, and raise PRIVILEGE on
one that it may not; TRAP enters vector 8 with the next instruction as resume PC; RETI takes SW and PC from the frame, in
kernel mode only; HALT stops the core; MTS of the right value to WDT_KICK reloads the watchdog. That MFS of a number that names no
register gives some value and goes on is the model's choice (log 11). -/
def Obligations.system_registers_and_privilege : Prop :=
  ∀ (s : State) (k : CoreId) (g : Gn) (n : BitVec 10) (q : Squash),
    let x := s.core k
    (∀ v, (x.bit Sw.priv = true ∨ openSysReg n.toNat = true) → x.sysReg k n.toNat = some v →
      CoreGoes (.mfs k g n) s k 4 (x.setG g.toNat v)) ∧
    (x.bit Sw.priv = false → openSysReg n.toNat = false → Free s k 4 → Raises (.mfs k g n) s k (CoreFault.plain 2) x.pc) ∧
    (x.sysReg k n.toNat = none → x.bit Sw.priv = true → Free s k 4 → Does (.mfs k g n) s (fun t =>
      (∃ v, t.core k = Gone (x.setG g.toNat v) (x.pc + 4)) ∧ { t with cores := s.cores, freeCtr := s.freeCtr } = s)) ∧
    (x.bit Sw.priv = true → n ≠ 0x41 → n ≠ 0 → CoreGoes (.mts k g n) s k 4 (x.setSysReg n.toNat (x.gr g.toNat))) ∧
    (Free s k 4 → Does (.mts k g 0) s (fun t =>
      (t.core k).sw = (if x.bit Sw.priv then x.gr g.toNat &&& 0x3FFF#32 else (x.sw &&& 0xFFFFFFC0#32) ||| (x.gr g.toNat &&& 0x3F#32))
        ∧ (t.core k).g = x.g ∧ (t.core k).p = x.p ∧ (t.core k).pc = (x.pc + 4) &&& ~~~3#32 ∧ OnlyCore k s t)) ∧
    (x.bit Sw.priv = false → n ≠ 0 → Free s k 4 → Raises (.mts k g n) s k (CoreFault.plain 2) x.pc) ∧
    (x.bit Sw.priv = true → x.gr g.toNat = 0xA5C3#32 →
      CoreGoes (.mts k g 0x41) s k 4 { x with wdtLeft := x.wdtLoad.toNat * 1000, wdtFirst := false }) ∧
    (x.bit Sw.priv = true → x.gr g.toNat ≠ 0xA5C3#32 → Free s k 4 → Does (.mts k g 0x41) s (fun t =>
      t.core k = x.restarted (Tab.get [] s.fw.cache k) (Tab.get 0 s.fw.wdt k))) ∧
    (Free s k 4 → Raises (.trap k q) s k (CoreFault.plain 8) (x.pc + 4)) ∧
    (Free s k 4 → (x.pr 7).toNat % 4 ≠ 0 → Does (.trap k q) s (fun t => (t.core k).lockup = true ∧ RoutineOver s t)) ∧
    (x.bit Sw.priv = false → Free s k 4 → Raises (.reti k q) s k (CoreFault.plain 2) x.pc) ∧
    (x.bit Sw.priv = true → Free s k 4 → Reachable x → (x.pr 7).toNat % 4 = 0 → (x.pr 7).toNat + 8 ≤ 0x20000 →
      x.tcmUe.contains ((x.pr 7).toNat / 8) = false → x.tcmUe.contains (((x.pr 7).toNat + 4) / 8) = false →
      Does (.reti k q) s (fun t =>
        (t.core k).sw = BitVec.ofNat 32 (Memory.readLE x.tcm (x.pr 7).toNat 4) &&& 0x3FFF#32
          ∧ (t.core k).pc = BitVec.ofNat 32 (Memory.readLE x.tcm ((x.pr 7).toNat + 4) 4) &&& ~~~3#32
          ∧ (t.core k).pr 7 = x.pr 7 + 8 ∧ (t.core k).g = x.g ∧ (t.core k).tcm = x.tcm
          ∧ ∀ j, j ≠ (k : Nat) → t.core j = s.core j)) ∧
    (x.bit Sw.priv = true → CoreGoes (.halt k) s k 4 { x with halted := true }) ∧
    (x.bit Sw.priv = false → Free s k 4 → Raises (.halt k) s k (CoreFault.plain 2) x.pc)

open Sys2Proof Sys2Proof.Machine Sys2Proof.Say in
/-- 08_tenon.md R244, R251 to R254: after FENCE no store is posted; WAIT stops issue; REP, REPG and REPN set LC and the repeat bits
for the next instruction, an immediate of 0 is ILLEGAL and a register count of 0 skips; an admitted instruction under a
repeat of more than one counts LC down and stays at its PC, and the last iteration ends the repeat. -/
def Obligations.fences_waits_and_repeats : Prop :=
  ∀ (s : State) (k : CoreId) (g : Gn) (n : BitVec 16),
    let x := s.core k
    CoreGoes (.fence k) s k 4 { x with posted := [] } ∧
    CoreGoes (.wait k) s k 4 { x with waiting := true } ∧
    (∀ (rn : Bool) (count : Nat) (c : Instr),
      (c = .rep k n ∧ n ≠ 0 ∧ rn = false ∧ count = n.toNat) ∨ (c = .repn k n ∧ n ≠ 0 ∧ n.toNat ≤ 64 ∧ rn = true ∧ count = n.toNat)
        ∨ (c = .repg k g ∧ count = (x.gr g.toNat).toNat % 65536 ∧ count ≠ 0 ∧ rn = false) →
      Free s k 4 → Does c s (fun t =>
        (t.core k).bit Sw.rp = true ∧ (t.core k).bit Sw.rn = rn ∧ (t.core k).lc = BitVec.ofNat 32 count
          ∧ (t.core k).pc = (x.pc + 4) &&& ~~~3#32 ∧ (t.core k).g = x.g ∧ OnlyCore k s t)) ∧
    (Free s k 4 → (x.gr g.toNat).toNat % 65536 = 0 → CoreGoes (.repg k g) s k 4 { x with skip := true }) ∧
    (Free s k 4 → Raises (.rep k 0) s k (CoreFault.plain 1) x.pc) ∧
    (x.alive = true → x.waiting = false → x.skip = false → x.bit Sw.rp = true → x.bit Sw.rn = false → 1 < x.lc.toNat →
      x.wdtPend = false → x.ipend = 0 → x.fetchFault 4 = none → s.traced k = false → Does (.pget k 0 g) s (fun t =>
        (t.core k).lc = x.lc - 1 ∧ (t.core k).pc = x.pc ∧ (t.core k).bit Sw.rp = true
          ∧ (t.core k).gr g.toNat = x.pr 0 ∧ OnlyCore k s t)) ∧
    (x.alive = true → x.waiting = false → x.skip = false → x.bit Sw.rp = true → x.bit Sw.rn = false → x.lc = 1 →
      x.wdtPend = false → x.ipend = 0 → x.fetchFault 4 = none → s.traced k = false → Does (.pget k 0 g) s (fun t =>
        (t.core k).lc = 0 ∧ (t.core k).pc = (x.pc + 4) &&& ~~~3#32 ∧ (t.core k).bit Sw.rp = false
          ∧ (t.core k).gr g.toNat = x.pr 0 ∧ OnlyCore k s t))

open Sys2Proof Sys2Proof.Machine Sys2Proof.Say in
/-- 08_tenon.md R233, R246, R249, R258: an interrupt line that does not qualify stays pending; one that is enabled, of higher
priority than plev and alone is taken at the boundary, with plev at its priority; the first watchdog expiry, when what is left of
the count has passed, raises WDT and reloads the count, during a non-interruptible repeat it waits; a system-window access without an
answer raises BUS. That an expiry also waits for an instruction that is skipped or has just been set up is the model's choice (log
11). -/
def Obligations.core_events : Prop :=
  ∀ (s : State) (k : CoreId) (q : Squash),
    let x := s.core k
    (∀ line : BitVec 5, line.toNat ∉ coreLines k → Does (.interruptAssert k line q) s (fun t => t = s)) ∧
    (∀ line : BitVec 5, line.toNat ∈ coreLines k → x.boundary = true → (x.bit Sw.ie = false ∨ (x.ien &&& (x.ipend ||| (1#32 <<< line.toNat))) = 0) →
      Does (.interruptAssert k line q) s (fun t =>
        t.core k = { x with ipend := x.ipend ||| (1#32 <<< line.toNat) } ∧ OnlyCore k s t)) ∧
    (∀ line : BitVec 5, line.toNat ∈ coreLines k → x.boundary = true → x.ipend = 0 → x.bit Sw.ie = true → x.ien.getLsbD line.toNat = true →
      x.plev < x.prio line.toNat → EntryFits x (16 + line.toNat) → Does (.interruptAssert k line q) s (fun t =>
        Entered x (16 + line.toNat) x.pc (t.core k) ∧ (t.core k).ipend = 0 ∧ (t.core k).plev = x.prio line.toNat
          ∧ (t.core k).waiting = false ∧ (t.core k).fcause = BitVec.ofNat 32 (16 + line.toNat) ∧ ∀ j, j ≠ (k : Nat) → t.core j = s.core j)) ∧
    (let u := s.passTime x.wdtLeft
     x.wdtCounts = true → (x.bit Sw.rp = true ∧ x.bit Sw.rn = true) ∨ x.skip = true ∨ x.fresh.isSome = true →
      Does (.wdtExpiry k q) s (fun t => t.core k = { u.core k with wdtPend := true } ∧ OnlyCore k u t ∧ t.now = s.now + x.wdtLeft)) ∧
    (x.wdtCounts = true → (x.bit Sw.rp = false ∨ x.bit Sw.rn = false) → x.skip = false → x.fresh = none → x.wdtFirst = false → EntryFits x 10 →
      Does (.wdtExpiry k q) s (fun t =>
        t.now = s.now + x.wdtLeft ∧ Entered x 10 x.pc (t.core k) ∧ (t.core k).wdtFirst = true ∧ (t.core k).wdtLeft = x.wdtLoad.toNat * 1000
          ∧ (t.core k).fcause = 10#32 ∧ (t.core k).bit Sw.ie = false ∧ RoutineOver s t)) ∧
    (∀ addr : W32, x.alive = true → x.skip = false → spaceOf addr.toNat = .window →
      Raises (.systemWindowTimeout k addr q) s k ⟨7, some addr.toNat, 0⟩ x.pc)

open Sys2Proof Sys2Proof.Machine Sys2Proof.Say in
/-- 08_tenon.md R259 to R263: an accepted CPX operation spends the next tag and joins its cluster's queue with its
operands, and one whose operands would run past G15 is ILLEGAL; CRD and CWAIT stand in the queue with a tag while they wait for the
operations that they name and for the open window, and then complete; a CMOVC from or to a bench that is not there, or with a bench
number of 10 or more, is ABSENT and one past the end of a store LENGTH, and a CROUTE whose route_bench is not there is ABSENT. The
places of bench and line in CMOVC's operands (PRESUMED, log 11) and a route_bench modulo 10 (log 25) are the model's. -/
def Obligations.coprocessor_operations_join_the_queue : Prop :=
  ∀ (s : State) (k : CoreId) (f : CpxFields),
    let x := s.core k
    let c : Nat := k - 5
    let u := f.unit.toNat
    let b := 10 * c + u
    let q := (s.cluster c).queue
    let arg := fun j => x.gr (f.dn.toNat + j)
    let joins := fun (i : Instr) (kind count : Nat) => f.dn.toNat + count ≤ 16 → Does i s (fun t =>
      (t.cluster c).queue = q ++ [⟨kind, u, f.entry.toNat, f.entry2.toNat, f.sub.toNat, f.notify, (s.cluster c).nextTag,
          (List.range count).map arg⟩]
        ∧ (t.cluster c).nextTag = ((s.cluster c).nextTag + 1) % 64 ∧ t.core k = Gone x (x.pc + 4) ∧ t.benches = s.benches
        ∧ (∀ j, j ≠ (k : Nat) → t.core j = s.core j) ∧ ∀ d, d ≠ c → t.cluster d = s.cluster d)
    Free s k 4 → 5 ≤ (k : Nat) → q.length < 16 →
    (∀ (i : Instr) (count : Nat),
      (i = .cld k f ∧ count = 1) ∨ (i = .cvec k f ∧ count = 1) ∨ (i = .cdraw k f ∧ count = 4) ∨ (i = .csamp k f ∧ count = 6)
        ∨ (i = .cwr k f ∧ count = 2) ∨ (i = .cwb k f ∧ count = 1) ∨ (i = .cmovc k f ∧ count = 3) ∨ (i = .croute k f ∧ count = 1)
        ∨ (i = .csync k f ∧ count = 2) →
      16 < f.dn.toNat + count → Raises i s k (CoreFault.plain 1) x.pc) ∧
    (u < 10 → s.flag (F.bncStatusPresent b) = true →
      (1 ≤ f.sub.toNat → f.sub.toNat ≤ 32 → (arg 0).toNat % 65536 + f.sub.toNat ≤ 65536 → joins (.cld k f) 0x00 1) ∧
      (goodCvec f.sub.toNat = true → joins (.cvec k f) 0x01 1) ∧
      (f.sub.toNat ≤ 8 → joins (.ctrn k f) 0x02 0) ∧
      (f.entry ≠ f.entry2 → joins (.cdraw k f) 0x03 4) ∧
      ((arg 1).toNat ≤ 2 ^ 20 → (arg 0).toNat % 65536 + ceilDiv (4 * (arg 1).toNat) 64 ≤ 65536 → joins (.csamp k f) 0x04 6) ∧
      joins (.cwr k f) 0x06 2 ∧
      (1 ≤ f.sub.toNat → f.sub.toNat ≤ 32 → (arg 0).toNat % 65536 + f.sub.toNat ≤ 65536 →
        (s.cluster c).writesEntry u f.entry.toNat = false → Tab.get 0 (s.bench b).entryFault f.entry.toNat = 0 → joins (.cwb k f) 0x10 1) ∧
      joins (.crel k f) 0x14 0 ∧
      (f.sub.toNat < 16 → f.entry2 = 0 → q.any CpxOp.holds = false → (s.cluster c).writesEntry u f.entry.toNat = false → s.flag (F.bncStatusOpen b) = true →
        Tab.get 0 (s.bench b).entryFault f.entry.toNat = 0 → f.notify = false → Does (.crd k f) s (fun t =>
          t.core k = Gone (x.setG f.sub.toNat (((s.bench b).entry f.entry.toNat).getD ((arg 0).toNat % 512) 0)) (x.pc + 4)
            ∧ (t.cluster c).queue = q ∧ t.benches = s.benches)) ∧
      (q.any (fun o => o.unit == u) = false → q.any CpxOp.holds = false → s.flag (F.bncStatusOpen b) = true →
        Tab.get 0 (s.bench b).entryFault f.entry.toNat = 0 → f.notify = false →
        Does (.cwait k f) s (fun t => t.core k = Gone x (x.pc + 4) ∧ (t.cluster c).queue = q ∧ t.benches = s.benches)) ∧
      (q.any CpxOp.holds = false → q.any (fun o => o.unit == u) = true ∨ s.flag (F.bncStatusOpen b) = false →
        Does (.cwait k f) s (fun t =>
          (t.cluster c).queue = q ++ [⟨0x07, u, f.entry.toNat, f.entry2.toNat, f.sub.toNat, f.notify, (s.cluster c).nextTag, []⟩]
            ∧ (t.cluster c).nextTag = ((s.cluster c).nextTag + 1) % 64 ∧ t.cores = s.cores ∧ t.benches = s.benches)) ∧
      (q.any CpxOp.holds = true → q.any (fun o => o.unit == u && !o.holds) = true → Does (.cwait k f) s (fun t => t = s)) ∧
      (q.any CpxOp.holds = true → (s.cluster c).busy u = false → s.flag (F.bncStatusOpen b) = true →
        Tab.get 0 (s.bench b).entryFault f.entry.toNat = 0 → f.notify = false →
        Does (.cwait k f) s (fun t => t.core k = Gone x (x.pc + 4) ∧ (t.cluster c).queue = q.filter (fun o => !o.holds)
          ∧ t.benches = s.benches))) ∧
    (u = 15 →
      (let p0 := cmovcPlace (arg 0)
       let p1 := cmovcPlace (arg 1)
       p0.1 < 10 → s.flag (F.bncStatusPresent (10 * c + p0.1)) = true → p1.1 < 10 →
       s.flag (F.bncStatusPresent (10 * c + p1.1)) = true → p0.2 + (arg 2).toNat ≤ 65536 → p1.2 + (arg 2).toNat ≤ 65536 →
         joins (.cmovc k f) 0x11 3) ∧
      (let there := fun n => n < 10 ∧ s.flag (F.bncStatusPresent (10 * c + n)) = true
       let p0 := cmovcPlace (arg 0)
       let p1 := cmovcPlace (arg 1)
       f.dn.toNat + 3 ≤ 16 →
         (¬ (there p0.1 ∧ there p1.1) → Raises (.cmovc k f) s k (cpxFault 1) x.pc) ∧
         (there p0.1 → there p1.1 → 65536 < p0.2 + (arg 2).toNat ∨ 65536 < p1.2 + (arg 2).toNat →
           Raises (.cmovc k f) s k (cpxFault 4) x.pc)) ∧
      ((∀ e, s.exchangeOf c (arg 0).toNat = some e → s.flag (F.bncStatusPresent (10 * c + e.routeBench % 10)) = true
          ∧ e.choiceLine + ceilDiv e.choiceBytes 64 ≤ 65536 ∧ e.routeLine + ceilDiv e.resultBytes 64 ≤ 65536) → joins (.croute k f) 0x12 1) ∧
      (∀ e, s.exchangeOf c (arg 0).toNat = some e → s.flag (F.bncStatusPresent (10 * c + e.routeBench % 10)) = false →
        f.dn.toNat + 1 ≤ 16 → Raises (.croute k f) s k (cpxFault 1) x.pc) ∧
      joins (.csync k f) 0x13 2)

open Sys2Proof Sys2Proof.Machine Sys2Proof.Say in
/-- 08_tenon.md R248, R259, R261, R263: the oldest operation of a unit completes and leaves the queue; what it writes is
the entry, the lines or the counter that it names. An operation for an absent bench raises CPX_FAULT with cause 1, one
on a core that is no control core raises ILLEGAL. -/
def Obligations.coprocessor_operations_complete : Prop :=
  ∀ (s : State) (c : ClusterId) (u : BitVec 4) (o : CpxOp) (rest : List CpxOp),
    let b := 10 * (c : Nat) + u.toNat
    let x := s.bench b
    (s.cluster c).queue = o :: rest → o.unit = u.toNat → o.holds = false →
    (u.toNat < 10 → s.flag (F.bncStatusOpen b) = true →
      Does (.cpxOpComplete c u) s (fun t => (t.cluster c).queue = rest ∧ (∀ d, d ≠ b → t.bench d = s.bench d)
        ∧ (o.kind = 0x00 → Clean s b (64 * argLine o.args 0) (64 * o.sub) → o.sub ≤ 32 → (x.entry o.entry).length = 512 →
            ∀ l, l < 512 → ((t.bench b).entry o.entry).getD l 0 =
              if l < 16 * o.sub then BitVec.ofNat 32 (num s b (64 * argLine o.args 0 + 4 * l) 4) else (x.entry o.entry).getD l 0)
        ∧ (o.kind = 0x02 → (t.bench b).entry o.entry = (x.entry o.entry2).map (Fp.primitive o.sub))
        ∧ (o.kind = 0x06 → (t.bench b).entry o.entry = (x.entry o.entry).set (o.arg 1 % 512) (o.args.getD 0 0))
        ∧ (o.kind = 0x10 → o.sub ≤ 32 → (x.entry o.entry).length = 512 →
            (∀ l, l < 16 * o.sub → num t b (64 * argLine o.args 0 + 4 * l) 4 = ((x.entry o.entry).getD l 0).toNat)
              ∧ StoreOutside s b (64 * argLine o.args 0) (64 * o.sub) t)
        ∧ (o.kind = 0x14 → (s.core (5 + c)).tenant = true → x.abandoned = false → (t.bench b).released = true)
        ∧ (o.kind = 0x14 → (s.core (5 + c)).tenant = false ∨ x.abandoned = true → (t.bench b).released = x.released)
        ∧ (o.kind = 0x01 → laneCvec o.sub = true →
            (t.bench b).entry o.entry = cvecLanes o.sub (x.entry o.entry) (x.entry o.entry2) (o.args.getD 0 0))
        ∧ (o.kind ≠ 0x10 → (t.bench b).store = x.store))) ∧
    (u.toNat < 10 → s.flag (F.bncStatusOpen b) = false → Does (.cpxOpComplete c u) s (fun t => t = s)) ∧
    (u.toNat = 15 → o.kind = 0x13 → Does (.cpxOpComplete c u) s (fun t =>
      (t.cluster c).queue = rest ∧ (∀ d, (t.bench d).store = (s.bench d).store)
        ∧ Tab.get 0 (t.cluster c).sync (o.arg 0 % 16) = Tab.get 0 (s.cluster c).sync (o.arg 0 % 16) + o.args.getD 1 0)) ∧
    (∀ (k : CoreId) (f : CpxFields), Free s k 4 →
      ((k : Nat) < 5 → Raises (.crel k f) s k (CoreFault.plain 1) (s.core k).pc) ∧
      (5 ≤ (k : Nat) → f.unit.toNat < 10 → s.flag (F.bncStatusPresent (10 * (k - 5) + f.unit.toNat)) = false →
        (s.cluster (k - 5)).queue.length < 16 →
        Raises (.crel k f) s k (cpxFault 1) (s.core k).pc))

open Sys2Proof Sys2Proof.Machine Sys2Proof.Say in
/-- 04_cutlists.md R126, R128, R129, R132, R133, R140, R494 and 12_rings.md R349: LOAD and STAGE of a set that fits commit or stage it, one
that does not fit or whose commit fails (R129) changes nothing, and one of a partition that the instance does not own is named
as missing; START of a lone device fixes the first cut's tick; STOP of a running set notes
the stop and one of a halted set completes at once; UNLOAD empties the partitions of the set. A LOAD or STAGE starts in the order
of fetching (R127). That a set which a RESTORE is reading for refuses START and UNLOAD is the model's choice (log 30). -/
def Obligations.operations_on_member_sets : Prop :=
  ∀ (s : State) (i : FnId) (r : RingId) (d : Desc), (i : Nat) ≠ 0 → s.bound = true →
    let s1 := s.launch i r d
    let n := d.w0 32 3
    let cs := s1.readMembers (d.le 8 8) n
    let m := d.w0 32 4
    (Starts s i r 1 0x01 d → s.loadTurn i r d.stamp = true → d.good 7 allBits 0 0 .none = true → 1 ≤ n → n ≤ 4 → s.anyFenced (partMask cs) = false →
      (s1.fit i false (cs.map Prod.fst) (cs.map Prod.snd) s1.acceptsLoad = none →
        Ends (.load i r true) s i r d Status.ok 0 (fun u => (∀ p ∈ maskList 4 (partMask cs), (u.part p).mates = partMask cs)
          ∧ ∀ c, cs = [c] → c.1.cutlist.partition < 4 →
            (u.part c.1.cutlist.partition).list = some c.1.cutlist ∧ (u.part c.1.cutlist.partition).state = .loaded)) ∧
      (s1.fit i false (cs.map Prod.fst) (cs.map Prod.snd) s1.acceptsLoad = none → Refuses (.load i r false) s i r d Status.internal 0) ∧
      (∀ commits x, s1.fit i false (cs.map Prod.fst) (cs.map Prod.snd) s1.acceptsLoad = some x →
        Refuses (.load i r commits) s i r d x.1 x.2)) ∧
    (Starts s i r 1 0x02 d → d.good 15 allBits 0xFFFFFFFF 0 .none = true → OwnSet s i m → s.startPending = false → s.restoring m = false → d.le 16 4 ≠ 0 →
      (maskList 4 m).any (fun p => (s.part p).halted) = false → s.run.take = none → s.run.startRecs = [] → s.inPlain = false → Does (.start i r) s (fun t =>
        t.run.phase = .armed ∧ t.run.parts = m ∧ t.run.id = d.le 8 8 ∧ t.run.passes = d.le 16 4
          ∧ t.run.start = some ⟨i, r, d.num⟩ ∧ t.run.firstTick % 4096 = 0 ∧ s.plain.tick + 64 ≤ t.run.firstTick
          ∧ t.run.resuming = (maskList 4 m).any (fun p => (s.part p).state == .stopped) ∧ t.parts = s.parts ∧ t.benches = s.benches)) ∧
    (Starts s i r 1 0x03 d → s.loadTurn i r d.stamp = true → d.good 7 allBits allBits 0 .none = true → 1 ≤ n → n ≤ 4 → s.run.swap = none → s.scheduled = true →
      s.goodSwapPoint (d.le 16 4) (d.le 20 4) = true → s.anyFenced (partMask cs) = false →
      (let s2 := s1.setNeeds ⟨i, r, d.num⟩ (partMask cs)
       s2.fit i true (cs.map Prod.fst) (cs.map Prod.snd) s2.acceptsStage = none) →
      cs.all (fun c => decide (d.le 20 4 < c.1.cutCount)) = true →
      Does (.stage i r true) s (fun t =>
        (∃ no, t.run.swap = some ⟨⟨i, r, d.num⟩, d.le 16 4, d.le 20 4, no, true, none⟩ ∧ (s.inPlain = false → no = false))
          ∧ ∀ c, cs = [c] → (t.part c.1.cutlist.partition).staged = some c.1.cutlist
            ∧ (t.part c.1.cutlist.partition).state = .staged) ∧
      Does (.stage i r false) s (fun t =>
        t = (s1.setNeeds ⟨i, r, d.num⟩ (partMask cs)).complete ⟨i, r, d.num⟩ Status.internal 0)) ∧
    (∀ commits p, Starts s i r 1 0x03 d → s.loadTurn i r d.stamp = true → d.good 7 allBits allBits 0 .none = true → 1 ≤ n → n ≤ 4 →
      (s.run.swap.isSome = true ∨ s.scheduled = false ∨ s.goodSwapPoint (d.le 16 4) (d.le 20 4) = false) →
      (cs.map (fun c => c.1.part)).find? (fun p => (s.part p).owner != some (i : Nat)) = some p →
      Refuses (.stage i r commits) s i r d Status.doesNotFit (noPartition p)) ∧
    (Starts s i r 1 0x04 d → d.good 15 0 0 0 .none = true → OwnSet s i m → s.startedSet m = true → s.run.phase ≠ .round →
      s.run.phase ≠ .idle → s.run.swap = none → Does (.stop i r) s (fun t =>
        t.run.stops = s.run.stops ++ [⟨i, r, d.num⟩] ∧ t.run.phase = s.run.phase
          ∧ t.run.stopCount = some (min (s.run.stopCount.getD (s.nextKerf + s.diameter + 1)) (s.nextKerf + s.diameter + 1)))) ∧
    (Starts s i r 1 0x04 d → d.good 15 0 0 0 .none = true → OwnSet s i m → s.startedSet m = false →
      (maskList 4 m).any (fun p => (s.part p).halted) = true →
      Refuses (.stop i r) s i r d Status.ok ((s.runOf m).pass + (s.runOf m).cut * 2 ^ 32)) ∧
    (Starts s i r 1 0x05 d → d.good 15 0 0 0 .none = true → OwnSet s i m → s.startedSet m = false → s.restoring m = false →
      Ends (.unload i r) s i r d Status.ok 0 (fun u => ∀ p ∈ maskList 4 m, (u.part p).state = .empty ∧ (u.part p).list = none
        ∧ (u.part p).owner = some (i : Nat)))

open Sys2Proof Sys2Proof.Machine Sys2Proof.Say in
/-- 05_roles.md R160; 06_plain.md R183, R184; 12_rings.md R286, R349: MUSTER of good operands begins the formation, DISSOLVE
ends the Plain, PAGE_COMMIT moves the slots of an idle pool; while no tenant is bound each operation is NOT_BOUND, and on the
manager's ring BAD_DESCRIPTOR, with nothing changed. That DISSOLVE is OK where no Plain is formed is the model's choice (log 19). -/
def Obligations.formation_and_page_operations : Prop :=
  ∀ (s : State) (i : FnId) (r : RingId) (d : Desc),
    ((i : Nat) ≠ 0 → s.bound = true → Starts s i r 1 0x06 d → d.good 0 allBits 0xFFFFFFFFFFFFFF 0xFFFFFFFF .none = true →
      s.ownsAny i = true → s.plainIdle = true → s.flag F.dvtPlainFormed = false → 2 ≤ d.le 16 2 → d.le 16 2 ≤ 512 →
      d.le 18 2 < d.le 16 2 → d.le 20 1 * d.le 21 1 * d.le 22 1 = d.le 16 2 → d.le 20 1 ≤ 16 → d.le 21 1 ≤ 16 → d.le 22 1 ≤ 16 →
      1 ≤ d.le 24 4 → d.le 24 4 ≤ 60000 →
      (∃ j ∈ usedLinks (d.le 20 1) (d.le 21 1) (d.le 22 1), s.fld (F.dvtLinkStatusState j) ≠ 5) → Does (.muster i r) s (fun t =>
        t.flag F.dvtPlainForming = true ∧ t.fld F.dvtPlainPlainSize = d.le 16 2 ∧ t.fld F.dvtPlainMemberIndex = d.le 18 2
          ∧ t.plain.formation = d.le 8 8 ∧ t.plain.dimX = d.le 20 1 ∧ t.plain.dimY = d.le 21 1 ∧ t.plain.dimZ = d.le 22 1
          ∧ t.plain.deadline = s.now + d.le 24 4 * 1000000 ∧ t.plain.op = some ⟨i, r, d.num⟩ ∧ t.plain.tick = s.plain.tick
          ∧ t.parts = s.parts)) ∧
    ((i : Nat) ≠ 0 → s.bound = true → Starts s i r 1 0x07 d → d.good 0 0 0 0 .none = true → s.ownsAny i = true → s.plainIdle = true →
      Ends (.dissolve i r) s i r d Status.ok 0 (fun u => u.flag F.dvtPlainFormed = false ∧ u.flag F.dvtPlainForming = false
        ∧ u.plain.tick = s.plain.tick ∧ u.parts = s.parts)) ∧
    (∀ (p : Nat) (l : Cutlist) (g : Region), (i : Nat) ≠ 0 → s.bound = true → Starts s i r 1 0x08 d →
      d.good 0x33 0xFFFF allBits 0 .none = true → p = d.w0 32 2 → (s.part p).owner = some (i : Nat) → (s.part p).fenced = false →
      (s.part p).list = some l → bitOf l.roles 2 = true → s.poolRegion p (d.le 8 2) = some g → d.w0 36 2 ≠ 3 → d.le 20 4 ≠ 0 →
      d.le 16 4 + d.le 20 4 ≤ g.size / 65536 →
      (s.scheduled = true → Does (.pageCommit i r) s (fun t =>
        t.run.commits = s.run.commits ++ [⟨⟨i, r, d.num⟩, p, g.memUnit, g.addr / 65536 + d.le 16 4, d.le 20 4, d.w0 36 2, s.nextKerf⟩]
          ∧ t.mems = s.mems)) ∧
      (s.scheduled = false → s.run.commits = [] → d.w0 36 2 = 2 → (s.part p).state = .loaded →
        (∀ k, k < d.le 20 4 → (s.granule g.memUnit (g.addr / 65536 + d.le 16 4 + k)).pool = true
          ∧ (s.granule g.memUnit (g.addr / 65536 + d.le 16 4 + k)).pstate = 1) →
        Does (.pageCommit i r) s (fun t =>
          (∀ k, k < d.le 20 4 → (t.granule g.memUnit (g.addr / 65536 + d.le 16 4 + k)).pstate = 2) ∧ t.run.commits = []
            ∧ (t.memUnit g.memUnit).bytes = (s.memUnit g.memUnit).bytes))) ∧
    (∀ (c : Instr) (op : Nat) (commits : Bool), (c = .load i r commits ∧ op = 0x01) ∨ (c = .start i r ∧ op = 0x02)
        ∨ (c = .stage i r commits ∧ op = 0x03) ∨ (c = .stop i r ∧ op = 0x04)
        ∨ (c = .unload i r ∧ op = 0x05) ∨ (c = .muster i r ∧ op = 0x06) ∨ (c = .dissolve i r ∧ op = 0x07) ∨ (c = .pageCommit i r ∧ op = 0x08) →
      Starts s i r 1 op d → (op = 0x01 ∨ op = 0x03 → s.loadTurn i r d.stamp = true) →
      (s.bound = false → s.secState ≠ 4 → Refuses c s i r d Status.notBound 0) ∧
      (s.secState = 4 → Refuses c s i r d Status.fenced 0) ∧
      (s.bound = true → (i : Nat) = 0 → c ≠ .unload i r → Refuses c s i r d Status.badDescriptor 0))

open Sys2Proof Sys2Proof.Machine Sys2Proof.Say in
/-- 12_rings.md R351: ASSIGN gives an unowned partition with unowned clusters to an instance, RELEASE takes an EMPTY one back,
GRANT and REVOKE add and remove the named device units and nothing else of the translation table; a queue pair that is granted is
in RESET (16_rdma.md R440). -/
def Obligations.partitions_and_grants : Prop :=
  ∀ (s : State) (r : RingId) (d : Desc), s.bound = true →
    let s1 := s.launch 0 r d
    let i := d.w0 32 6
    let p := d.w0 40 2
    (Starts s 0 r 1 0x20 d → d.good 0x1F3F 0xFFFF 0 0 .none = true → i ≠ 0 → s.insState i ≠ 0 → (s.part p).owner = none →
      maskList 16 (d.le 8 2) ≠ [] → (∀ k ∈ maskList 16 (d.le 8 2), s.benchMask k ≠ 0 ∧ s.clusterPart k = none) →
      Ends (.assign r) s 0 r d Status.ok 0 (fun u =>
        u.part p = { Part.init with owner := some i, clusters := d.le 8 2, roles := d.w0 42 3 }
          ∧ (∀ q, q ≠ p → u.part q = s.part q) ∧ u.fld (F.insStatusPartitions i) = listMask (u.ownedParts i)
          ∧ u.benches = s.benches ∧ u.mems = s.mems)) ∧
    (Starts s 0 r 1 0x20 d → d.good 0x1F3F 0xFFFF 0 0 .none = true → i ≠ 0 → s.insState i ≠ 0 → (s.part p).owner.isSome = true →
      Refuses (.assign r) s 0 r d Status.doesNotFit (misfit 0 0x03 p 0 0).2) ∧
    (∀ k, Starts s 0 r 1 0x20 d → d.good 0x1F3F 0xFFFF 0 0 .none = true → i ≠ 0 → s.insState i ≠ 0 → (s.part p).owner = none →
      (maskList 16 (d.le 8 2)).find? (fun k => s.benchMask k == 0 || (s.clusterPart k).isSome) = some k →
      Refuses (.assign r) s 0 r d Status.doesNotFit (misfit 0 0x05 p k 0).2) ∧
    (Starts s 0 r 1 0x21 d → d.good 0x300 0 0 0 .none = true → (s.part p).state = .empty →
      Ends (.release r) s 0 r d Status.ok 0 (fun u => u.part p = Part.init ∧ ∀ q, q ≠ p → u.part q = s.part q)) ∧
    (Starts s 0 r 1 0x21 d → d.good 0x300 0 0 0 .none = true → (s.part p).state ≠ .empty → Refuses (.release r) s 0 r d Status.badDescriptor 0) ∧
    (Starts s 0 r 1 0x22 d → d.good 0xF3F allBits 0xFFFFFFFF 0 .none = true → i ≠ 0 → s.insState i ≠ 0 → goodUnits d = true →
      (∀ g ∈ d.grants, s.holderOf g.kind g.unit = none ∧ s.unitOf i g.kind g.localIdx = none) →
      Ends (.grant r) s 0 r d Status.ok 0 (fun u =>
        u.fn i = { s1.fn i with grants := (s.fn i).grants ++ d.grants } ∧ (∀ j, j ≠ i → u.fn j = s1.fn j)
          ∧ ((∀ g ∈ d.grants, g.kind ≠ 2) → u = s1.setFn i { s1.fn i with grants := (s.fn i).grants ++ d.grants })
          ∧ (∀ g ∈ d.grants, g.kind = 2 → u.qp g.unit = Qp.init ∧ u.qpState g.unit = 0)
          ∧ (∀ n, (∀ g ∈ d.grants, g.kind = 2 → g.unit ≠ n) → u.qp n = s.qp n)
          ∧ { u with host := s.host, rma := s.rma, regs := s.regs } = s)) ∧
    (Starts s 0 r 1 0x23 d → d.good 0xF3F allBits 0xFFFFFFFF 0 .none = true → i ≠ 0 → s.insState i ≠ 0 → goodUnits d = true →
      (∀ g ∈ d.grants, g ∈ (s.fn i).grants) → Ends (.revoke r) s 0 r d Status.ok 0 (fun u =>
        (u.fn i).grants = (s.fn i).grants.filter (fun g => !d.grants.contains g) ∧ ∀ j, j ≠ i → (u.fn j).grants = (s.fn j).grants))

open Sys2Proof Sys2Proof.Machine Sys2Proof.Say in
/-- 12_rings.md R353 to R356: FREEZE of an instance at rest leaves it FROZEN, and of one whose set runs leaves it FREEZING with
a stop noted; THAW of a FROZEN instance leaves it ACTIVE; SAVE of a FROZEN one writes the image or says how long it is, with
INTEGRITY at most where memory is not healthy (log 16); RESTORE of an image whose checks pass, with this module's binding digest
(10_tenancy.md R306), leaves the instance FROZEN. -/
def Obligations.freeze_and_migration : Prop :=
  ∀ (s : State) (r : RingId) (d : Desc) (b : BindRec), s.bound = true → s.sec.record = some b →
    let i := d.w0 32 6
    i ≠ 0 →
    (Starts s 0 r 1 0x24 d → d.good 0x3F 0 0 0 .none = true → s.insState i = 1 → s.inPlain = false →
      (s.ownedParts i).any s.setParts.contains = false → s.drained i = true → (∀ p ∈ s.ownedParts i, (s.part p).runs = false) →
      (∀ j, (s.fn j).freeze = none) → Ends (.freeze r) s 0 r d Status.ok 0 (fun u =>
        u.fld (F.insStatusState i) = 3 ∧ (u.fn i).freeze = none ∧ u.parts = s.parts ∧ u.benches = s.benches ∧ u.mems = s.mems)) ∧
    (Starts s 0 r 1 0x24 d → d.good 0x3F 0 0 0 .none = true → s.insState i = 1 → s.inPlain = false →
      (s.ownedParts i).any s.setParts.contains = true → s.run.phase = .cut → s.run.swap = none →
      (s.ownedParts i).any (fun p => (s.part p).runs) = true → (∀ j, (s.fn j).freeze = none) → Does (.freeze r) s (fun t =>
        t.fld (F.insStatusState i) = 2 ∧ (t.fn i).freeze = some ⟨0, r, d.num⟩ ∧ t.run.stopCount.isSome = true ∧ t.run.phase = .cut
          ∧ t.parts = s.parts ∧ t.benches = s.benches ∧ t.mems = s.mems)) ∧
    (Starts s 0 r 1 0x27 d → d.good 0x3F 0 0 0 .none = true → s.insState i = 3 → Ends (.thaw r) s 0 r d Status.ok 0 (fun u =>
      u.fld (F.insStatusState i) = 1 ∧ u.parts = s.parts ∧ u.benches = s.benches ∧ u.mems = s.mems)) ∧
    (Starts s 0 r 1 0x25 d → d.good 0x3F allBits allBits 0 .none = true → s.insState i = 3 → b.migrates = true → s.engineUp = true →
      ∃ len, (d.le 16 8 < len ∧ Ends (.save r false) s 0 r d Status.noSpace len (fun u => u.host.mem = s.host.mem ∧ u.parts = s.parts)) ∨
        (len ≤ d.le 16 8 ∧ ∃ status, (status = Status.ok ∨ status = Status.integrity) ∧ (Healthy s → status = Status.ok)
          ∧ Ends (.save r false) s 0 r d status len (fun u =>
          Memory.readLE u.host.mem (d.le 8 8) 4 = 0x4E47494D ∧ Memory.readLE u.host.mem (d.le 8 8 + 6) 2 = i
            ∧ (∀ a, a < d.le 8 8 ∨ d.le 8 8 + len ≤ a → Memory.byte u.host.mem a = Memory.byte s.host.mem a)
            ∧ u.parts = s.parts ∧ u.benches = s.benches
            ∧ ∀ v, (u.memUnit v).bytes = (s.memUnit v).bytes ∧ (u.memUnit v).poison = (s.memUnit v).poison))) ∧
    (Starts s 0 r 1 0x25 d → d.good 0x3F allBits allBits 0 .none = true → s.insState i = 3 → b.migrates = true → s.engineUp = false →
      ∀ mismatch, Refuses (.save r mismatch) s 0 r d Status.internal 0) ∧
    (let h := Memory.read s.host.mem (d.le 8 8) 64
     let label := imageLabel b (fieldLE h 8 4) (fieldLE h 12 4)
     let n := fieldLE h 0x18 4
     let len := fieldLE h 0x10 8
     let ct := Memory.read s.host.mem (d.le 8 8 + 64) (len - 64)
     Starts s 0 r 1 0x26 d → d.good 0x3F allBits allBits 0 .none = true → s.insState i ≠ 0 → b.migrates = true →
      (List.range 256).any (s.ringEnabled i) = false → 64 ≤ d.le 16 8 → goodImage h (d.le 16 8) = true → s.imageFits i h = true →
      s.engineUp = true →
      (∀ pt x, openChunks (s.workingKey b label) imageIv h n 0 (len - 64 - 16 * n) ct = some pt →
        x = s.itemsOf (listMask (s.ownedParts i)) pt →
        (x.digest ≠ s.bindingDigest → Ends (.restoreImage r false) s 0 r d Status.integrity 0 (fun u =>
          u.parts = s.parts ∧ u.benches = s.benches ∧ u.mems = s.mems)) ∧
        (x.digest = s.bindingDigest → s.regionsFree i x = true → s.ringsFit i x = true → Ends (.restoreImage r false) s 0 r d Status.ok 0 (fun u => u.fld (F.insStatusState i) = 3)) ∧
        (x.digest = s.bindingDigest → s.regionsFree i x = false ∨ s.ringsFit i x = false → Ends (.restoreImage r false) s 0 r d Status.doesNotFit 0 (fun u =>
          u.parts = s.parts ∧ u.benches = s.benches ∧ u.mems = s.mems))) ∧
      (openChunks (s.workingKey b label) imageIv h n 0 (len - 64 - 16 * n) ct = none →
        Ends (.restoreImage r false) s 0 r d Status.integrity 0 (fun u => u.parts = s.parts ∧ u.benches = s.benches ∧ u.mems = s.mems)))

open Sys2Proof Sys2Proof.Machine Sys2Proof.Say in
/-- 20_checkpoint.md R508 to R521: a TAKE that passes its checks is in flight and pending until its stop kerf; once the zeroed
manifest is acknowledged its shards go to the queue pairs, and once they are acknowledged MANIFEST_COMMIT hands on the WRITE of the
signed manifest, whose acknowledge completes the TAKE with OK, its kerf and its duration; with a WRITE outstanding it waits, and a
failed WRITE, a poisoned line or no cipher pair ends it without a manifest. A RESTORE reads the manifest over its first queue pair and
checks it, then reads shard after shard, and where all are good leaves the partitions STOPPED at the position that the manifest names.
The items that come back (log 16), layouts that the spec leaves open (log 18), the start round that waits for a checkpoint (log 19),
and the READs of a RESTORE, piece by piece (log 30), are the model's. -/
def Obligations.checkpoints : Prop :=
  ∀ (s : State) (i : FnId) (r : RingId) (d : Desc),
    let m := d.w0 36 4
    (∀ qs, Starts s i r 1 9 d → d.w0 32 3 = 1 → s.bound = true → (i : Nat) ≠ 0 → goodCheckpoint d = true →
      s.checkLabel i [0x0A] d.label = .good → OwnSet s i m → s.takeQps i d = some qs → s.scheduled = true → s.run.parts = m →
      (∀ p ∈ s.setParts, (s.part p).list.map Cutlist.ckptCapable = some true) → s.run.take = none →
      s.takePassed (d.w0 40 2) (d.le 28 4) = false → (s.shardList m).length ≤ 800 → Does (.checkpointTake i r) s (fun t =>
        (let kerf := if d.w0 40 2 = 0 then s.demandKerf else none
         t.run = { s.run with
          take := some ⟨⟨i, r, d.num⟩, m, d.w0 40 2, d.w0 35 1 == 1, d.le 8 8, d.le 16 8, d.le 24 4, d.le 28 4, d.label, qs, kerf, none, none, none, false⟩
          noticed := (kerf.map (fun k => (3, k))).toList ++ s.run.noticed })
          ∧ (∃ f ∈ (t.ring i r).flight, f.num = d.num ∧ f.done = none)
          ∧ t.parts = s.parts ∧ t.benches = s.benches ∧ t.mems = s.mems ∧ t.host.far = s.host.far)) ∧
    (∀ (t0 : Take) (b : BindRec) (kerf at_ : Nat) (es : List Byte), s.run.take = some t0 → s.sec.record = some b →
      t0.stopped = some (kerf, at_) → t0.failed = none → t0.written = false → t0.shards = some es → s.engineUp = true →
      s.areaBusy t0 = false →
      (let body := s.manifestBody t0 kerf (s.collect t0.op.fn t0.mask) (s.shardList t0.mask).length es
       let n := t0.qps.getD 0 0
       s.qpState n = 2 ∨ s.qpState n = 3 → Does (.manifestCommit false) s (fun t =>
         t.run = { s.run with take := some { t0 with written := true } } ∧ t.host = s.host
           ∧ ∃ k w, 1 ≤ k ∧ k < Crypto.n384 ∧ (t.qp n).wqes = (s.qp n).wqes ++ [w] ∧ w.kind = 4 ∧ w.raddr = t0.area ∧ w.rkey = t0.rkey
             ∧ w.data = body ++ Crypto.ecdsaSign (s.signScalar b t0.label) k body))) ∧
    (∀ (t0 : Take) (kerf at_ : Nat), s.run.take = some t0 → t0.stopped = some (kerf, at_) → t0.failed = none →
      (let result := kerf % 2 ^ 32 + (s.now - at_) / 1000000 % 2 ^ 32 * 2 ^ 32
       let u := ({ s with run := { s.run with take := none } }).complete t0.op Status.ok result
       (t0.written = false ∨ s.areaBusy t0 = true → s.commitTake = s) ∧
       (t0.written = true → s.areaBusy t0 = false →
         ((s.run.start = none ∧ s.resumeWaits = false) ∨ s.run.phase ≠ .idle → s.commitTake = u) ∧
         (s.run.start.isSome = true ∨ s.resumeWaits = true → s.run.phase = .idle → s.commitTake = u.beginRound true)))) ∧
    (∀ (t0 : Take) (b : BindRec) (kerf at_ : Nat), s.run.take = some t0 → s.sec.record = some b → t0.stopped = some (kerf, at_) →
      t0.failed = none → s.engineUp = true → t0.written = true ∨ t0.shards = none ∨ s.areaBusy t0 = true →
      Does (.manifestCommit false) s (fun t => t = s)) ∧
    (∀ (t0 : Take) (b : BindRec) (kerf at_ status : Nat), s.run.take = some t0 → s.sec.record = some b → t0.stopped = some (kerf, at_) →
      t0.failed = some status → s.run.start = none → s.resumeWaits = false → ∀ mismatch, Does (.manifestCommit mismatch) s (fun t =>
        t = ({ s with run := { s.run with take := none } }).complete t0.op status 0)) ∧
    (∀ (t0 : Take) (b : BindRec) (kerf at_ : Nat) (mismatch : Bool), s.run.take = some t0 → s.sec.record = some b →
      t0.stopped = some (kerf, at_) → t0.failed = none → t0.written = false → s.engineUp = false ∨ mismatch = true →
      Does (.manifestCommit mismatch) s (fun t => t.run.take = none ∧ t.host.far = s.host.far)) ∧
    (∀ (t0 : Take) (b : BindRec) (kerf at_ : Nat), s.run.take = some t0 → s.sec.record = some b → t0.stopped = some (kerf, at_) →
      t0.shards = none → t0.failed = none → s.areaBusy t0 = false → s.engineUp = true →
      t0.qps ≠ [] → (∀ n ∈ t0.qps, s.qpState n = 2 ∨ s.qpState n = 3) →
      (let gen := fieldLE t0.label 24 4
       let w := (s.useKeys [b.shardLabel t0.id gen]).writeShards t0 (s.shardKey b t0.id gen) (s.collect t0.op.fn t0.mask) 0 65536 (s.shardList t0.mask)
       (w.2.1 = false → s.postShards.run.take = some { t0 with shards := some w.1 }) ∧ (w.2.1 = true → s.postShards.run.take = none))) ∧
    (∀ (n : Nat) (qs : List Nat) (mismatch : Bool), Starts s i r 1 9 d → d.w0 32 3 = 2 → s.bound = true →
      (i : Nat) ≠ 0 → goodCheckpoint d = true → s.checkLabel i [0x0A] d.label = .good → OwnSet s i m → s.takeQps i d = some (n :: qs) →
      s.startedSet m = false → s.restoring m = false →
      (∀ p ∈ maskList 4 m, (s.part p).state = .loaded ∨ ((s.part p).state = .stopped ∧ (s.part p).halted = true)) →
      s.readsInFlight n < 16 → Does (.checkpointRestore i r mismatch) s (fun t =>
        (∃ x ∈ t.restores, x.op = ⟨i, r, d.num⟩ ∧ x.mask = m ∧ x.id = d.le 8 8 ∧ x.label = d.label ∧ x.qps = n :: qs
          ∧ x.mismatch = mismatch ∧ x.man = none ∧ x.todo = [] ∧ x.failed = none)
          ∧ (∃ w, (t.qp n).wqes = (s.qp n).wqes ++ [w] ∧ w.kind = 5 ∧ w.op = some ⟨i, r, d.num⟩ ∧ w.raddr = d.le 16 8
              ∧ w.rkey = d.le 24 4 ∧ w.len = 65536)
          ∧ (∃ f ∈ (t.ring i r).flight, f.num = d.num ∧ f.done = none)
          ∧ t.parts = s.parts ∧ t.benches = s.benches ∧ t.mems = s.mems ∧ t.host.far = s.host.far ∧ t.run = s.run)) ∧
    (∀ (x : Restore) (b : BindRec), s.outstanding x.op = true → s.sec.record = some b → x.failed = none → x.todo = [] →
      s.reading x = false →
      (let ended : Nat → PState → State → Prop := fun status st t => ∃ u : State, t = u.complete x.op status 0
         ∧ (∀ p ∈ maskList 4 x.mask, (u.part p).state = st ∧ (u.part p).halted = false) ∧ (∀ y ∈ u.restores, y.op ≠ x.op)
         ∧ u.host.far = s.host.far
       let man := Memory.read x.buf 0 65536
       (∀ status, x.man = none → s.manifestFault b x.label man x.id x.mask = some status → ended status .loaded (s.stepRestore x)) ∧
       (x.man = none → s.manifestFault b x.label man x.id x.mask = none → s.engineUp = false ∨ x.mismatch = true →
         ended Status.internal .loaded (s.stepRestore x)) ∧
       (x.man = none → s.manifestFault b x.label man x.id x.mask = none → s.engineUp = true → x.mismatch = false →
         x ∈ s.restores → x.shard < fieldLE man 6 2 →
         ∃ y ∈ (s.stepRestore x).restores, y.op = x.op ∧ y.man = some man ∧ y.shard = x.shard ∧ y.buf = []) ∧
       (∀ m, x.man = some m → s.engineUp = true →
         (let got := let (off, n) := shardSpan m x.shard
            s.restoreShard x.mask (s.shardKey b x.id (fieldLE x.label 24 4)) m (Memory.read x.buf off n) x.id x.shard
          (got = none → ended Status.integrity .loaded (s.stepRestore x)) ∧
          (∀ (new : Option Saved) (v : Saved) (more : List Saved) (s2 : State), got = some (new, s2) →
            fieldLE m 6 2 ≤ x.shard + 1 → new.toList ++ x.items = v :: more →
            ended Status.ok .stopped (s.stepRestore x)
              ∧ (s.startPending = false → ∃ u : State, s.stepRestore x = u.complete x.op Status.ok 0 ∧ u.run.parts = x.mask
                ∧ u.run.pass = fieldLE m 0x20 4 ∧ u.run.cut = fieldLE m 0x24 4 ∧ u.run.epoch = fieldLE m 0x28 4
                ∧ u.run.kerfs = fieldLE m 0x18 8 + 1 ∧ u.run.phase = Run.init.phase ∧ u.plain.stretch = v.stretch))))))

open Sys2Proof Sys2Proof.Machine Sys2Proof.Say in
/-- 12_rings.md R338, R339, R342, R343, R346: a good doorbell moves the tail and a bad one is only counted; a value equal to the tail changes nothing; a fetch reads the
next descriptor once, of an SHF ring where the turn is its store queue pair's (14_shelf.md R388); a completion entry goes to slot HEAD of its ring and no other byte of host memory changes; a message
that is due leaves once, or waits where its vector is masked. -/
def Obligations.doorbells_fetches_completions_and_messages : Prop :=
  ∀ (s : State) (i : FnId) (r : RingId) (v : W64),
    let q := s.ring i r
    let n := s.fld (F.rngHeadCount i r)
    (s.doorbellAnswers i = true → s.ringActive i r = true → s.doorbellGood i r v.toNat = true → Does (.doorbell i r v) s (fun t =>
      t.fld (F.rngTailCount i r) = v.toNat ∧ (s.ringKind i r ≠ 7 → t.fld (F.rngHeadCount i r) = n)
        ∧ (3 ≤ s.ringKind i r → s.ringKind i r ≠ 7 → { t with regs := s.regs } = s)
        ∧ t.benches = s.benches ∧ t.mems = s.mems ∧ t.parts = s.parts)) ∧
    (s.doorbellAnswers i = true → s.ringActive i r = true → v.toNat = s.fld (F.rngTailCount i r) → Does (.doorbell i r v) s (fun t =>
      t = s)) ∧
    (s.doorbellAnswers i = true → s.ringActive i r = true → v.toNat ≠ s.fld (F.rngTailCount i r) →
      s.doorbellGood i r v.toNat = false → Does (.doorbell i r v) s (fun t =>
      t.fld (F.rngErrBadDoorbell i r) = min (2 ^ 16 - 1) (s.fld (F.rngErrBadDoorbell i r) + 1)
        ∧ t.fld (F.rngTailCount i r) = s.fld (F.rngTailCount i r) ∧ { t with regs := s.regs } = s)) ∧
    (s.canFetch i r = true → s.fld (F.rngTailCount i r) = (n + 1) % 2 ^ 32 → n < 2 ^ 32 → q.fetched = [] →
      (let bs := Memory.read s.host.mem (s.ringAddr i r + 64 * (n % s.ringSize i r)) 64
       (ringOpcodes i (s.ringKind i r)).contains (fieldLE bs 0 1) = true →
       (s.ringKind i r = 2 → (∀ p ∈ s.rma.qps, p.2.attach = none)
         ∧ ∀ k, s.sqpOf i r = some k → s.shelfPick.map Prod.fst = some k) → Does (.descriptorFetch i r false) s (fun t =>
        (t.ring i r).fetched = [⟨n, bs, s.host.fetchSeq⟩] ∧ t.host.fetchSeq = s.host.fetchSeq + 1 ∧ t.fld (F.rngHeadCount i r) = (n + 1) % 2 ^ 32 ∧ t.host.mem = s.host.mem
          ∧ (t.ring i r).flight = q.flight ∧ t.benches = s.benches ∧ t.mems = s.mems))) ∧
    (∀ k, s.canFetch i r = true → s.fld (F.rngTailCount i r) = (n + 1) % 2 ^ 32 → n < 2 ^ 32 → q.fetched = [] →
      s.ringKind i r = 2 → s.sqpOf i r = some k → s.shelfPick.map Prod.fst ≠ some k → (∀ p ∈ s.rma.qps, p.2.attach = none) →
      Does (.descriptorFetch i r false) s (fun t => t = s)) ∧
    (s.canFetch i r = true → Does (.descriptorFetch i r true) s (fun t =>
      t.fld (F.rngStatusState i r) = 3 ∧ t.fld (F.rngStatusError i r) = 8)) ∧
    (∀ (c : Cpl) (rest : List Cpl), q.waiting = c :: rest → s.ringKind i r = 8 → s.ringActive i r = true → s.dmaOk i = true →
      s.ringRoom i r = true →
      Does (.completionWrite i r false) s (fun t =>
        Memory.read t.host.mem (s.ringAddr i r + 16 * (n % s.ringSize i r)) 16 = c.entry n (s.ringSize i r)
          ∧ HostOutside s (s.ringAddr i r + 16 * (n % s.ringSize i r)) 16 t ∧ t.fld (F.rngHeadCount i r) = (n + 1) % 2 ^ 32
          ∧ (t.ring i r).waiting = rest ∧ (t.ring i r).unsignalled = q.unsignalled + 1 ∧ t.benches = s.benches ∧ t.mems = s.mems) ∧
      Does (.completionWrite i r true) s (fun t =>
        t.fld (F.rngStatusState i r) = 3 ∧ t.fld (F.rngStatusError i r) = 9 ∧ (t.ring i r).waiting = c :: rest)) ∧
    ((s.ringKind i r = 7 ∨ s.ringKind i r = 8) → s.ringActive i r = true → s.dmaOk i = true → s.messageDue i r = true →
      (let vec := s.fld (F.rngCfgVector i r)
       let e := Tab.get MsixEntry.init (s.fn i).msix vec
       Does (.msixMessage i r) s (fun t => (t.ring i r).unsignalled = 0
        ∧ (e.masked = false → (s.fn i).fmask = false → t.out = s.out ++ [.msix i vec e.addr e.data])
        ∧ (e.masked = true → t.out = s.out ∧ (Tab.get MsixEntry.init (t.fn i).msix vec).pending = true)
        ∧ { t with host := s.host, out := s.out } = s))) ∧
    (∀ vec : BitVec 8, vec.toNat < (s.fn i).vectors →
      s.barAnswers i ((if (i : Nat) = 0 then 0x580000 else 0x70000) + 16 * vec.toNat) = true →
      (let e := Tab.get MsixEntry.init (s.fn i).msix vec.toNat
       Does (.msixVectorUnmask i (some vec)) s (fun t =>
        Tab.get MsixEntry.init (t.fn i).msix vec.toNat = { e with masked := false, pending := e.pending && (s.fn i).fmask }
          ∧ t.out = s.out ++ (if e.pending && !(s.fn i).fmask then [.msix i vec.toNat e.addr e.data] else [])
          ∧ { t with host := s.host, out := s.out } = s))) ∧
    (s.host.published = true → ((i : Nat) = 0 ∨ s.insState i ≠ 0) → s.dmaOk i = false → Does (.msixVectorUnmask i none) s (fun t =>
      (t.fn i).fmask = false ∧ (t.fn i).msix = (s.fn i).msix ∧ { t with host := s.host } = s))

open Sys2Proof Sys2Proof.Machine Sys2Proof.Say in
/-- 12_rings.md R341, R345, R358, R359: a finished operation that is alone in its ring is handed to its CPL ring; a queue reset
empties the fetched list and leaves the ring RESETTING or DISABLED; mailbox messages go to the receive buffer, or are NO_SPACE
without one or while the manager is in D3hot, or to the slot of
their sequence, and an acknowledged slot is free. -/
def Obligations.completions_resets_and_mailboxes : Prop :=
  ∀ (s : State) (i : FnId) (r : RingId) (d : Desc),
    (∀ (f : Flight) (st res : Nat), (s.ring i r).flight = [f] → f.done = none → s.fld (F.rngStatusState i r) = 1 →
      s.fld (F.rngCfgCpl i r) ≠ (r : Nat) →
      (let t := s.complete ⟨i, r, f.num⟩ st res
       let q := s.fld (F.rngCfgCpl i r)
       (t.ring i q).waiting = (s.ring i q).waiting ++ [⟨st, f.num % s.ringSize i r, f.tag, r, res % 2 ^ 64, f.now⟩]
        ∧ (t.ring i r).flight = [] ∧ { t with host := s.host } = s ∧ t.host.mem = s.host.mem
        ∧ ∀ j, j ≠ (i : Nat) → t.fn j = s.fn j)) ∧
    (s.ringEnabled i r = true → s.ringKind i r ≠ 8 → Does (.queueReset i r) s (fun t =>
      (t.fld (F.rngStatusState i r) = 2 ∨ t.fld (F.rngStatusState i r) = 0) ∧ (t.ring i r).fetched = [])) ∧
    (s.ringEnabled i r = true → s.ringKind i r = 1 → s.run.start = none → (s.ring i r).flight = [] → (s.ring i r).fetched = [] →
      (s.ring i r).waiting = [] → Does (.queueReset i r) s (fun t =>
        t.fld (F.rngStatusState i r) = 0 ∧ t.fld (F.rngHeadCount i r) = 0 ∧ t.fld (F.rngTailCount i r) = 0
          ∧ t.ring i r = Ring.init ∧ t.host.mem = s.host.mem ∧ t.benches = s.benches ∧ t.parts = s.parts)) ∧
    (∀ q b, (i : Nat) ≠ 0 → Starts s i r 6 1 d → goodSend 0 d = true → seqFresh (d.le 16 4) (s.fn i).lastOut = true →
      (s.fn 0).d3hot = false → s.managerBuf = some (q, b) → Ends (.mbxSend i r) s i r d Status.ok 0 (fun u =>
        Memory.read u.host.mem b.addr (d.le 20 2) = Memory.read s.host.mem (d.le 8 8) (d.le 20 2)
          ∧ HostOutside s b.addr (d.le 20 2) u ∧ (u.fn i).lastOut = d.le 16 4 ∧ u.benches = s.benches ∧ u.mems = s.mems)) ∧
    ((i : Nat) ≠ 0 → Starts s i r 6 1 d → goodSend 0 d = true → seqFresh (d.le 16 4) (s.fn i).lastOut = true →
      (s.fn 0).d3hot = false → s.managerBuf = none → Refuses (.mbxSend i r) s i r d Status.noSpace 0) ∧
    (∀ rest, (i : Nat) ≠ 0 → (s.fn 0).d3hot = true → (s.ring i r).fetched = d :: rest → s.ringActive i r = true → s.insState i = 1 →
      s.ringKind i r = 6 → d.opcode = 1 → (bitOf (d.le 0 2) 9 = true → (s.ring i r).flight = []) → goodSend 0 d = true →
      seqFresh (d.le 16 4) (s.fn i).lastOut = true → Refuses (.mbxSend i r) s i r d Status.noSpace 0) ∧
    (Starts s 0 r 6 2 d → d.good 0 allBits 0 0 .none = true → Does (.recvBuf r) s (fun t =>
      (t.ring 0 r).bufs = (s.ring 0 r).bufs ++ [⟨d.num, false, d.le 8 8, 4096⟩] ∧ { t with host := s.host } = s
        ∧ t.host.mem = s.host.mem)) ∧
    (let k := d.w0 32 6
     let seq := d.le 16 4
     Starts s 0 r 6 1 d → goodSend 0x3F d = true → k ≠ 0 → s.insState k ≠ 0 → seqFresh seq (s.fn k).lastIn = true →
      (Tab.get MboxSlot.init (s.fn k).mbox (seq % 64)).full = false → Ends (.managerMbxSend r) s 0 r d Status.ok 0 (fun u =>
        Tab.get MboxSlot.init (u.fn k).mbox (seq % 64) = ⟨seq, true, Memory.read s.host.mem (d.le 8 8) (d.le 20 2)⟩
          ∧ (u.fn k).lastIn = seq ∧ u.benches = s.benches ∧ u.mems = s.mems)) ∧
    (∀ seq : W32, (i : Nat) ≠ 0 → Taken s i 0x10 false seq.toNat →
      (let x := Tab.get MboxSlot.init (s.fn i).mbox (seq.toNat % 64)
       (x.full = true → x.seq = seq.toNat → Does (.insMbxAck i seq) s (fun t =>
        Tab.get MboxSlot.init (t.fn i).mbox (seq.toNat % 64) = { x with full := false } ∧ { t with host := s.host } = s
          ∧ t.host.mem = s.host.mem ∧ ∀ j, j ≠ (i : Nat) → t.fn j = s.fn j)) ∧
       (¬ (x.full = true ∧ x.seq = seq.toNat) → Does (.insMbxAck i seq) s (fun t => t = s))))

open Sys2Proof Sys2Proof.Machine Sys2Proof.Say in
/-- 13_registers.md R367 to R371, R373, R375 to R377; 12_rings.md R335: a write that would change a reserved bit is discarded
whole; a write of a buffered field waits in the buffer; GLB_UPDATE makes the named blocks' buffers one pending group, and the
group applies as a whole; GLB_DISCARD forgets; GLB_COMPAT enters AQ-E7 mode and forgets the manager's buffer; a triple-stored
field with one differing copy is corrected. -/
def Obligations.register_writes_and_configuration_epochs : Prop :=
  ∀ (s : State) (i : FnId) (r : RingId) (v : W32),
    (∀ (a : BitVec 28) (wide : Bool) (w : W64), s.barAnswers i a.toNat = true → s.vectorAt i a.toNat = none → a.toNat % (if wide then 8 else 4) = 0 →
      (writeWords i a.toNat wide w.toNat).any (fun x => s.rvChange x.1 x.2.1 x.2.2) = true →
      Does (.registerWrite i a wide w) s (fun t =>
        t = if (i : Nat) = 0 then s.count F.glbRverrCount 1 else s.count (F.secViolCount i) 1)) ∧
    (∀ (a : BitVec 28) (w : W64), barAddr i a.toNat = (F.rngBaseLoAddr i r).addr → Taken s i a.toNat false w.toNat →
      ((i : Nat) ≠ 0 ∨ s.flag F.glbCompatE7 = false) → Does (.registerWrite i a false w) s (fun t =>
        t.regs.buf = bufferWrite s.regs.buf ⟨i, 5, F.rngBaseLoAddr i r, w.toNat % 2 ^ 32, if (i : Nat) = 0 then s.nodeSel else 0⟩ ∧ t.regs.val = s.regs.val
          ∧ { t with regs := s.regs } = s)) ∧
    (∀ (a : BitVec 28) (wide : Bool) (w : W64), s.barAnswers i a.toNat = false → Does (.registerWrite i a wide w) s (fun t => t = s)) ∧
    (let ws := s.regs.buf.filter (fun x => x.fn == (i : Nat))
     (i : Nat) ≠ 0 → Taken s i 8 false v.toNat → v.toNat % 2 = 1 → (ws.map (fun w => w.field.addr)).Nodup →
      (∀ w ∈ ws, ∃ q : RingId, w.field = F.rngBaseLoAddr i q ∨ w.field = F.rngBaseHiAddr i q) → Does (.insUpdate i v) s (fun t =>
        (∀ w ∈ ws, t.fld w.field = w.value % 2 ^ 32) ∧ t.regs.buf = s.regs.buf.filter (fun x => x.fn != (i : Nat))
          ∧ { t with regs := s.regs } = s)) ∧
    ((i : Nat) ≠ 0 → Taken s i 8 false v.toNat → v.toNat % 2 = 0 → Does (.insUpdate i v) s (fun t => t = s)) ∧
    (let mine : FieldWrite → Bool := fun w => w.fn == 0 && w.block != 15 && bitOf v.toNat w.block
     let ws := s.regs.buf.filter mine
     let meets : ApplyGroup → Bool := fun g => !g.posted && g.blocks.any (fun b => ws.any (fun w => w.block == b))
     let old := s.regs.pend.filter meets
     Taken s 0 8 false v.toNat →
      (s.flag F.glbCompatE7 = false → ws ≠ [] → Does (.glbUpdate v) s (fun t =>
        (∃ bs, t.regs.pend = s.regs.pend.filter (fun g => !meets g) ++ [⟨bs, old.flatMap ApplyGroup.sets ++ ws.map (fun w => { w with sel := s.nodeSel }), s.now, false⟩]
            ∧ ∀ b, b ∈ bs ↔ (∃ w ∈ ws, w.block = b) ∨ ∃ g ∈ old, b ∈ g.blocks)
          ∧ t.regs.buf = s.regs.buf.filter (fun w => !mine w) ∧ t.fld F.glbEpochApplied = s.fld F.glbEpochApplied
          ∧ { t with regs := s.regs } = s)) ∧
      (s.flag F.glbCompatE7 = true ∨ ws = [] → Does (.glbUpdate v) s (fun t => t = s))) ∧
    (Taken s 0 0x10 false v.toNat → s.flag F.glbCompatE7 = false → Does (.glbDiscard v) s (fun t =>
      (∀ w ∈ t.regs.buf, w ∈ s.regs.buf ∧ (w.fn = 0 → w.block ≠ 15 → bitOf v.toNat w.block = false))
        ∧ t.regs.val = s.regs.val ∧ { t with regs := s.regs } = s)) ∧
    (let stays := s.fld F.glbPendingMask ≠ 0 ∨ s.flag F.glbStatusBusy = true ∨ s.inPlain = true
     Taken s 0 0x18 false v.toNat → (¬ stays → Does (.glbCompat v) s (fun t =>
        t.flag F.glbCompatE7 = (v.toNat % 2 == 1)
          ∧ t.regs.buf = (if v.toNat % 2 = 1 ∧ s.flag F.glbCompatE7 = false then s.regs.buf.filter (fun w => w.fn != 0) else s.regs.buf)
          ∧ { t with regs := s.regs } = s)) ∧
      (stays → Does (.glbCompat v) s (fun t => t = s))) ∧
    (let due := s.regs.pend.filter (fun g => s.groupDue g && !(s.scheduled && s.swapsNow && g.blocks.any kerfBlock))
     let ws := due.flatMap ApplyGroup.sets
     let u := if s.scheduled = true ∧ (∃ g ∈ due, ∃ b ∈ g.blocks, kerfBlock b = true) then s.reachTick (s.run.since + s.kerfLength - 4) else s
     (∀ w ∈ ws, isAlloc w.field.addr = false
        ∧ (∀ x : State, x.appliedAt w.field.addr = x ∧ x.applyNode w.sel w.field w.value = x)
        ∧ w.field.addr ∉ [F.glbEpochApplied.addr, F.glbPendingMask.addr, F.glbStatusBusy.addr]) →
      (ws.map (fun w => w.field.addr)).Nodup → Does .configEpochApply s (fun t =>
        (∀ w ∈ ws, t.fld w.field = (if w.field = F.pwrCapWatts then min 1500 (max 300 w.value) else w.value) % 2 ^ w.field.width)
          ∧ t.regs.pend = u.regs.pend.filter (fun g => !due.contains g)
          ∧ t.fld F.glbEpochApplied = (u.fld F.glbEpochApplied + due.length) % 2 ^ 32
          ∧ (due ≠ [] → t.fld F.glbPendingMask = listMask (t.regs.pend.flatMap ApplyGroup.blocks) % 2 ^ 32)
          ∧ { t with regs := u.regs } = u)) ∧
    (∀ (vly : ValleyId) (k : Nat), valleyCluster vly = some k →
      (∀ j, j < 10 → s.regs.scrubFld (F.bncCtrlMapOut (10 * k + j)) ≠ .lost) → Does (.rwtScrub vly) s (fun t =>
        (∀ j, j < 10 → t.regs.scrubFld (F.bncCtrlMapOut (10 * k + j)) = .agree
            ∧ t.fld (F.bncCtrlMapOut (10 * k + j)) = s.fld (F.bncCtrlMapOut (10 * k + j)))
          ∧ t.fld F.glbVoteCorrected = min (2 ^ 16 - 1) (s.fld F.glbVoteCorrected
              + ((List.range 10).filter (fun j => s.regs.scrubFld (F.bncCtrlMapOut (10 * k + j)) == .corrected)).length)
          ∧ { t with regs := s.regs } = s)) ∧
    (∀ vly : ValleyId, (vly : Nat) ∈ [4, 9, 14, 19, 36, 39] → Does (.rwtScrub vly) s (fun t => t = s))

/-- The record sector of bank b takes one more record, and no other byte of flash changes but, where the sector was full,
those of the sector (09_firmware.md R270). -/
def Sys2Proof.Say.Appended (s : Sys2Proof.Machine.State) (b code seq : Nat) (t : Sys2Proof.Machine.State) : Prop :=
  open Sys2Proof.Machine in
  let n := ((s.recordSlots b).getLast?.map (· + 1)).getD 0
  let body := leBytes 4 code ++ leBytes 4 seq ++ List.replicate 52 0
  let a := bankBase b + 0x10000
  Memory.read t.fw.flash (a + 64 * (if n < 1024 then n else 0)) 64 = body ++ leBytes 4 (Crypto.crc32 body)
    ∧ ∀ k, (if n < 1024 then k < a + 64 * n ∨ a + 64 * n + 64 ≤ k else k < a ∨ a + 0x10000 ≤ k) →
        Memory.byte t.fw.flash k = Memory.byte s.fw.flash k

open Sys2Proof Sys2Proof.Machine Sys2Proof.Say in
/-- 09_firmware.md R270, R271, R273, R274, R278, R280 to R284: what the operations of FWC_CTRL and a boot leave. A DOWNLOAD
writes header and images to the bank that is not booted and no other byte of flash; ACTIVATE moves the selected cores to the
other images, once each has reached its quiet point, and what waited goes on where it is refused; COMMIT raises the fused version; ABANDON rejects the bank; each records it, and answers result and event. A boot
that ends early rejects its bank, or counts where that is COMMITTED. -/
def Obligations.firmware_operations_and_boot : Prop :=
  ∀ s : State,
    let addr := s.fld F.fwcSrcLoAddr + s.fld F.fwcSrcHiAddr * 2 ^ 32
    let len := s.fld F.fwcLenBytes
    let d := s.downloadBank
    let cores := maskList 21 s.fw.askCores
    let ends : State → Nat → Prop := fun t st => t.fld F.fwcStatusResult = st ∧ t.fld F.fwcStatusBusyOp = 0 ∧ t.request 14 = 0
      ∧ t.benches = s.benches ∧ t.mems = s.mems ∧ t.sec = s.sec ∧ t.mfg = s.mfg ∧ t.parts = s.parts
    (s.request 14 = 1 → s.dmaOk 0 = true → (s.bankState d).1 ≠ 2 → (s.bankState d).1 ≠ 3 → s.flag F.rcvStatusActive = false →
      s.downloadFault (Memory.read s.host.mem addr 0x260) len = none → Does .download s (fun t =>
        (∃ st, ends t st ∧ (st = Status.ok → Memory.read t.fw.flash (bankBase d + 0x10000) 8 = leBytes 4 1 ++ leBytes 4 0))
          ∧ Memory.read t.fw.flash (bankBase d) 0x260 = Memory.read s.host.mem addr 0x260
          ∧ Memory.read t.fw.flash (bankBase d + 0x20000) (len - 0x20000) = Memory.read s.host.mem (addr + 0x20000) (len - 0x20000)
          ∧ ∀ k, k < bankBase d ∨ bankBase d + 0x02000000 ≤ k → Memory.byte t.fw.flash k = Memory.byte s.fw.flash k)) ∧
    (s.request 14 = 1 → s.dmaOk 0 = true → ((s.bankState d).1 = 2 ∨ (s.bankState d).1 = 3 ∨ s.flag F.rcvStatusActive = true) →
      Does .download s (fun t => ends t Status.badDescriptor ∧ t.fw = s.fw)) ∧
    (∀ st, s.request 14 = 1 → s.dmaOk 0 = true → (s.bankState d).1 ≠ 2 → (s.bankState d).1 ≠ 3 → s.flag F.rcvStatusActive = false →
      s.downloadFault (Memory.read s.host.mem addr 0x260) len = some st → Does .download s (fun t => ends t st ∧ t.fw = s.fw)) ∧
    (∀ b, (b = 1 ∨ (b = 2 ∧ (s.bankState 1).1 ≠ 1 ∧ (s.bankState 1).1 ≠ 2)) → s.request 14 = 2 →
      ((s.bankState b).1 = 1 ∨ (s.bankState b).1 = 2) → s.flag F.rcvStatusActive = false →
      s.usable (s.header b) = true → s.goodProtect (s.header b) = true →
      (∀ k ∈ cores, s.switchRefused k = false ∧ s.notQuiet k = false
        ∧ (k = 0 ∨ (s.core k).held = true ∨ (s.goodImageOf b (kindOf k)).isSome = true)) →
      Does .activate s (fun t => ends t Status.ok
        ∧ ((s.bankState b).1 = 1 → Appended s b 2 0 t) ∧ ((s.bankState b).1 = 2 → t.fw.flash = s.fw.flash)
        ∧ (∀ k ∈ cores, ∀ e img, k ≠ 0 → (s.core k).held = false → s.goodImageOf b (kindOf k) = some (e, img) →
            Tab.get 0 t.fw.source k = b ∧ Tab.get [] t.fw.cache k = img ∧ (t.core k).digest = bytesAt e 0x10 48)
        ∧ ∀ k, k ∉ cores → Tab.get 0 t.fw.source k = Tab.get 0 s.fw.source k ∧ (k ≠ 0 → t.core k = s.core k))) ∧
    (∀ b, (b = 1 ∨ (b = 2 ∧ (s.bankState 1).1 ≠ 1 ∧ (s.bankState 1).1 ≠ 2)) → s.request 14 = 2 →
      ((s.bankState b).1 = 1 ∨ (s.bankState b).1 = 2) → s.flag F.rcvStatusActive = false → (∀ k ∈ cores, s.switchRefused k = false) →
      (s.usable (s.header b) = false ∨ s.goodProtect (s.header b) = false) →
      Does .activate s (fun t => ends t Status.versionMismatch ∧ t.fw = { s.fw with hold := 0 } ∧ t.cores = s.cores)) ∧
    (∀ b, (b = 1 ∨ (b = 2 ∧ (s.bankState 1).1 ≠ 1 ∧ (s.bankState 1).1 ≠ 2)) → s.request 14 = 2 →
      ((s.bankState b).1 = 1 ∨ (s.bankState b).1 = 2) → (s.flag F.rcvStatusActive = true ∨ ∃ k ∈ cores, s.switchRefused k = true) →
      Does .activate s (fun t => ends t Status.badDescriptor ∧ t.fw = { s.fw with hold := 0 } ∧ t.cores = s.cores)) ∧
    (∀ b, (b = 1 ∨ (b = 2 ∧ (s.bankState 1).1 ≠ 1 ∧ (s.bankState 1).1 ≠ 2)) → s.request 14 = 2 →
      ((s.bankState b).1 = 1 ∨ (s.bankState b).1 = 2) → s.flag F.rcvStatusActive = false → s.usable (s.header b) = true →
      s.goodProtect (s.header b) = true → (∀ k ∈ cores, s.switchRefused k = false) → (∃ k ∈ cores, s.notQuiet k = true) →
      Does .activate s (fun t => t.fw.hold = listMask cores ∧ { t with fw := s.fw } = s ∧ { t.fw with hold := s.fw.hold } = s.fw)) ∧
    (∀ b, s.request 14 = 3 → s.bootedBank = some b → (s.bankState b).1 = 3 → Does .commit s (fun t =>
      ends t Status.ok ∧ Appended s b 4 ((s.bankState (3 - b)).2 + 1) t ∧ t.fw.fused = max s.fw.fused (min 64 (svnOf (s.header b)))
        ∧ { t.fw with flash := s.fw.flash, fused := s.fw.fused } = s.fw)) ∧
    (∀ b, (b = 1 ∨ (b = 2 ∧ (s.bankState 1).1 ≠ 2 ∧ (s.bankState 1).1 ≠ 3)) → s.request 14 = 4 →
      ((s.bankState b).1 = 2 ∨ (s.bankState b).1 = 3) →
      (s.bootedBank = some b → Does .abandon s (fun t =>
        ends t Status.ok ∧ Appended s b 5 0 t ∧ { t.fw with flash := s.fw.flash, hold := s.fw.hold } = s.fw ∧ t.fw.hold = 0)) ∧
      (s.bootedBank ≠ some b →
        (∀ k < 21, Tab.get 0 s.fw.source k = b → s.switchRefused k = false
          ∧ s.notQuiet k = false ∧ (k = 0 ∨ (s.core k).held = true ∨ ((s.appendRecord b 5 0).goodImageOf (3 - b) (kindOf k)).isSome = true)) →
        Does .abandon s (fun t => ends t Status.ok ∧ Appended s b 5 0 t
          ∧ ∀ k < 21, k ≠ 0 → (if Tab.get 0 s.fw.source k = b ∧ (s.core k).held = false then Tab.get 0 t.fw.source k = 3 - b
              else Tab.get 0 t.fw.source k = Tab.get 0 s.fw.source k ∧ t.core k = s.core k))) ∧
      (s.bootedBank ≠ some b → (∀ k < 21, Tab.get 0 s.fw.source k = b → s.switchRefused k = false) →
        (∃ k < 21, Tab.get 0 s.fw.source k = b ∧ s.notQuiet k = true) → Does .abandon s (fun t =>
          t.fw.hold = listMask ((List.range 21).filter (fun k => Tab.get 0 s.fw.source k == b)) ∧ { t with fw := s.fw } = s
            ∧ { t.fw with hold := s.fw.hold } = s.fw))) ∧
    (∀ b u r, s.pins.released = true → s.selectBank = (some b, u) → (∀ k < 7, (u.goodImageOf b k).isSome = true) →
      u.goodProtect (u.header b) = true → r.failAt = none → s.secState ≠ 2 → s.secState ≠ 4 → Does (.boot r) s (fun t =>
        t.fld F.fwcBootStage = 8 ∧ t.flag F.hifStatusRtReady = true ∧ t.host.published = true ∧ t.pins.released = false
          ∧ t.secState = s.secState ∧ t.flag F.hifLinkUp = true ∧ t.mfg = s.mfg
          ∧ ∀ k < 21, (t.core k).held = false ∧ Tab.get 0 t.fw.source k = b ∧ Tab.get [] t.fw.cache k = u.imageOf b ((dirEntry (u.header b) (kindOf k)).getD []))) ∧
    (∀ b u r n, s.pins.released = true → s.selectBank = (some b, u) → u.bootStop b r = some n → Does (.boot r) s (fun t =>
      t.fld F.fwcBootStage = (n - 1) % 16 ∧ t.host = u.host ∧ t.pins = u.pins
        ∧ ((u.bankState b).1 ≠ 4 → Appended u b 5 0 t)
        ∧ ((u.bankState b).1 = 4 → t.logCounter 5 = (u.logCounter 5 + 1) % 2 ^ 64 ∧ t.bankState b = u.bankState b))) ∧
    (∀ u r, s.pins.released = true → s.selectBank = (none, u) → Does (.boot r) s (fun t =>
      t.fld F.fwcBootStage = 0xF ∧ t.host.imageless = true ∧ t.flag F.hifLinkUp = true ∧ t.flag F.hifStatusRtReady = true
        ∧ t.benches = s.benches ∧ t.sec = s.sec))

/-- A state that differs from s only in what posting an event may change. -/
def Sys2Proof.Say.Posts (s t : Sys2Proof.Machine.State) : Prop :=
  { t with regs := s.regs, host := s.host, pins := s.pins, out := s.out } = s

/-- A state that differs from s only in the SPDM state, the free values used, and what a message with its interrupt of the
security core may change. -/
def Sys2Proof.Say.Answered (s t : Sys2Proof.Machine.State) : Prop :=
  { t with cores := s.cores, pins := s.pins, rcv := s.rcv, host := s.host, dbg := s.dbg, regs := s.regs, out := s.out, log := s.log, run := s.run, sec := s.sec, freeCtr := s.freeCtr } = s

/-- The command is answered on the mailbox of function i with a code and bytes, and leaves this SPDM state. -/
def Sys2Proof.Say.Says (c : Sys2Proof.Instr) (s : Sys2Proof.Machine.State) (i code : Nat) (bytes : List Sys2Proof.Byte)
    (sec : Sys2Proof.Machine.Sec) : Prop :=
  Sys2Proof.Say.Does c s (fun t => t.out.getLast? = some (.doe i code bytes) ∧ t.sec = sec ∧ Sys2Proof.Say.Answered s t)

/-- The same with n bytes more: a signature, nonce or key share, whose value the rules leave open (log 12). -/
def Sys2Proof.Say.SaysMore (c : Sys2Proof.Instr) (s : Sys2Proof.Machine.State) (i code : Nat) (bytes : List Sys2Proof.Byte)
    (n : Nat) (sec : Sys2Proof.Machine.Sec) : Prop :=
  Sys2Proof.Say.Does c s (fun t => (∃ more, more.length = n ∧ t.out.getLast? = some (.doe i code (bytes ++ more)))
    ∧ t.sec = sec ∧ Sys2Proof.Say.Answered s t)

open Sys2Proof Sys2Proof.Machine Sys2Proof.Say in
/-- 10_tenancy.md R286, R309, R310; 21_debug.md R524: ARM and DISARM move SEC_STATUS.state between UNBOUND and ARMED; a good
debug ticket makes its rights hold until its time, every ticket is followed by a new nonce, and what ends the rights returns
the debug registers to reset; an operation in a state that does not accept it answers BAD_DESCRIPTOR. -/
def Obligations.security_operations_and_debug_rights : Prop :=
  ∀ s : State,
    let tk := Memory.read s.host.mem (s.fld F.secSrcLoAddr + s.fld F.secSrcHiAddr * 2 ^ 32) 256
    let ended : State → Prop := fun t => t.flag F.secStatusDebug = false ∧ t.dbg = Dbg.init
      ∧ (∀ a, 0xD00000 ≤ a → a < 0xD10000 → ((∀ p ∈ s.mfg.rvBits, p.1 ≠ a) → t.regs.word a = regReset a)
          ∧ ∀ v, s.mfg.rvBits.filter (fun p => p.1 == a) = [(a, v)] → t.regs.word a = regReset a ||| v) ∧ t.sec.notAfter = 0
      ∧ t.flag (F.vlyStatePowered 39) = false ∧ { t with dbg := s.dbg, regs := s.regs, benches := s.benches, sec := s.sec } = s
    (s.request 3 = 1 → s.secState = 0 → Does .arm s (fun t =>
      t.secState = 1 ∧ t.fld F.secStatusResult = Status.ok ∧ t.request 3 = 0 ∧ Posts s t)) ∧
    (s.request 3 = 1 → s.secState ≠ 0 → Does .arm s (fun t =>
      t.secState = s.secState ∧ t.fld F.secStatusResult = Status.badDescriptor ∧ { t with regs := s.regs } = s)) ∧
    (s.request 3 = 2 → s.secState = 1 → Does .disarm s (fun t =>
      t.secState = 0 ∧ t.fld F.secStatusResult = Status.ok ∧ t.request 3 = 0 ∧ Posts s t)) ∧
    (s.request 3 = 2 → s.secState ≠ 1 → Does .disarm s (fun t =>
      t.secState = s.secState ∧ t.fld F.secStatusResult = Status.badDescriptor ∧ { t with regs := s.regs } = s)) ∧
    (s.request 3 = 3 → s.secState ≠ 2 → s.secState ≠ 3 → ∀ steps, Does (.secCtrlUnbind steps) s (fun t =>
      t.secState = s.secState ∧ t.fld F.secStatusResult = Status.badDescriptor ∧ { t with regs := s.regs } = s)) ∧
    (s.request 3 = 4 → s.dmaOk 0 = true → s.ticketFault tk = none → Does .debugTicket s (fun t =>
      t.flag F.secStatusDebug = true ∧ t.fld F.dbgStatusRights = fieldLE tk 6 2 ∧ t.sec = { s.sec with notAfter := fieldLE tk 0x40 8 }
        ∧ t.fld F.secStatusResult = Status.ok ∧ t.secNonce = leBytes 32 (s.freeBits 256).toNat ∧ t.flag (F.vlyStatePowered 39) = true
        ∧ { t with regs := s.regs, freeCtr := s.freeCtr, sec := s.sec } = s)) ∧
    (∀ st, s.request 3 = 4 → s.dmaOk 0 = true → s.ticketFault tk = some st → Does .debugTicket s (fun t =>
      t.flag F.secStatusDebug = s.flag F.secStatusDebug ∧ t.fld F.secStatusResult = st ∧ t.secNonce = leBytes 32 (s.freeBits 256).toNat
        ∧ { t with regs := s.regs, freeCtr := s.freeCtr } = s)) ∧
    (s.request 3 = 5 → s.flag F.secStatusDebug = true → Does .debugLock s (fun t => ended t ∧ t.fld F.secStatusResult = Status.ok)) ∧
    (s.request 3 = 5 → s.flag F.secStatusDebug = false → Does .debugLock s (fun t =>
      t.fld F.secStatusResult = Status.ok ∧ { t with regs := s.regs } = s)) ∧
    (s.flag F.secStatusDebug = true → s.sec.notAfter ≤ s.fld F.timRtcSeconds → Does .debugRightsExpiry s ended) ∧
    (s.flag F.secStatusDebug = true → s.fld F.timRtcSeconds < s.sec.notAfter → Does .debugRightsExpiry s (fun t => t = s))

open Sys2Proof Sys2Proof.Machine Sys2Proof.Say in
/-- 10_tenancy.md R286, R293 to R298: BIND_NONCE makes a nonce. A BIND that passes every check raises the count of bindings by one
at once; done, it has noted the record, zeroized HBM under new keys, ended debug rights, and answers the binding digest. A request
that fails a check is answered with its status and changes nothing. An accepted unbind is UNBINDING, and done it has ended every
right, wiped tenant state and gone to UNBOUND. How many of its steps are done before the next command is the command's operand
(log 12). -/
def Obligations.binding_and_unbinding : Prop :=
  ∀ (s : State) (n : SessId) (req sig nonce : List Byte) (steps : BitVec 4),
    let x := s.session n
    let said : Nat → Nat → List Byte → List Byte := fun code st more => Config.vendorId ++ leBytes 1 code ++ leBytes 1 st ++ more
    let wiped : State → Prop := fun t =>
      t.secState = 0 ∧ t.sec.record = none ∧ t.sec.cache36 = [] ∧ t.sec.cache37 = [] ∧ t.eth.keys = [] ∧ t.benches = []
        ∧ t.shelf.blocks = [] ∧ t.shelf.size = [] ∧ t.rma.regs = [] ∧ t.mfg = s.mfg ∧ t.sec.work = none
        ∧ (∀ u, u < 16 → ∀ k, k < (if isHbm u then 2 ^ 36 else 2 ^ 31) → Memory.byte (t.memUnit u).bytes k = 0)
        ∧ ∀ k, k < 12 → t.flag (F.memStatusMappedOut k) = false → t.flag (F.memStatusKeyed k) = false
    (s.request 3 = 3 → (s.secState = 2 ∨ s.secState = 3) → Does (.secCtrlUnbind steps) s (fun t =>
      (steps.toNat < 9 → t.secState = 4 ∧ t.sec.work = some ⟨true, max 1 steps.toNat, [], .manager⟩)
        ∧ (9 ≤ steps.toNat → wiped t ∧ t.fld F.secStatusResult = Status.ok ∧ t.request 3 = 0))) ∧
    (s.host.published = true → s.host.imageless = false → s.spdmUp x.fn = true → x.established = true →
    (Does (.bindNonce n true) s (fun t =>
      let v := leBytes 32 (s.freeBits 256).toNat
      t.out.getLast? = some (.doe x.fn 0x7E (said 1 Status.ok v)) ∧ t.sec = (s.setSession n { x with nonce := some v }).sec ∧ Answered s t)) ∧
    (Says (.bindNonce n false) s x.fn 0x7F (leBytes 1 7) s.sec ∧ Says (.bind n false req steps) s x.fn 0x7F (leBytes 1 7) s.sec
      ∧ Says (.unbind n false sig nonce steps) s x.fn 0x7F (leBytes 1 7) s.sec) ∧
    (s.bindFault x.nonce req = none → Does (.bind n true req steps) s (fun t =>
      t.mfg = { s.mfg with bindings := s.mfg.bindings + 1 } ∧ t.fld F.secStatusBindings = s.mfg.bindings + 1
        ∧ t.flag F.secStatusDebug = false ∧ t.parts = s.parts ∧ t.shelf = s.shelf ∧ t.clusters = s.clusters
        ∧ (steps.toNat < 5 → t.secState = 2 ∧ t.sec.work = some ⟨false, max 1 steps.toNat, req, .session n⟩)
        ∧ (5 ≤ steps.toNat → t.secState = 3 ∧ t.sec.work = none ∧ t.sec.record = some ⟨req, bytesAt req 8 32, s.mfg.bindings + 1⟩
            ∧ t.out.getLast? = some (.doe x.fn 0x7E (said 2 Status.ok t.bindingDigest))
            ∧ (∀ u, u < 12 → ∀ k, k < 2 ^ 36 → Memory.byte (t.memUnit (stackUnit u)).bytes k = 0)
            ∧ (∀ k, k < 12 → t.flag (F.memStatusMappedOut k) = false → t.flag (F.memStatusKeyed k) = true)))) ∧
    (∀ st, s.bindFault x.nonce req = some st → Says (.bind n true req steps) s x.fn 0x7E (said 2 st []) s.sec) ∧
    (s.unbindFault x sig nonce = none → Does (.unbind n true sig nonce steps) s (fun t =>
      (steps.toNat < 9 → t.secState = 4 ∧ t.sec.work = some ⟨true, max 1 steps.toNat, [], .session n⟩)
        ∧ (9 ≤ steps.toNat → wiped t ∧ t.out.getLast? = some (.doe x.fn 0x7E (said 3 Status.ok []))))) ∧
    (∀ st, s.unbindFault x sig nonce = some st → Says (.unbind n true sig nonce steps) s x.fn 0x7E (said 3 st []) s.sec))

open Sys2Proof Sys2Proof.Machine Sys2Proof.Say in
/-- 10_tenancy.md R304: the SPDM responder. A request that the negotiation has reached is answered and moves it on; the others
are errors; at most four sessions are open at once; image-less service answers nothing (09_firmware.md R272). Codes and capability bits are the model's (log 12). -/
def Obligations.spdm_responder : Prop :=
  ∀ (s : State) (i : FnId) (n : SessId) (slot index : BitVec 8) (nonce : List Byte),
    let x := s.session n
    let neg := s.negotiated i
    let block := fun k => leBytes 1 k ++ s.measurement k
    let closed : Sec := { (s.setSession n Session.init).sec with
      work := s.sec.work.map (fun w => if w.reply = .session n then { w with reply := .nobody } else w) }
    (s.host.published = true → s.host.imageless = false → s.spdmUp i = true →
      Says (.getVersion i) s i 0x04 (leBytes 1 1 ++ leBytes 2 0x1200) (s.setNegotiated i .version).sec
      ∧ (neg ≠ .none → Says (.getCapabilities i false) s i 0x61 (leBytes 4 0x22D6) (s.setNegotiated i .caps).sec)
      ∧ (neg ≠ .none → Says (.getCapabilities i true) s i 0x7F (leBytes 1 7) s.sec)
      ∧ (neg = .caps ∨ neg = .algos → Says (.negotiateAlgorithms i true) s i 0x63
          (leBytes 4 0x4 ++ leBytes 4 0x80 ++ leBytes 4 0x2 ++ leBytes 2 0x10 ++ leBytes 2 0x2) (s.setNegotiated i .algos).sec)
      ∧ (neg = .caps ∨ neg = .algos → Says (.negotiateAlgorithms i false) s i 0x7F (leBytes 1 1) s.sec)
      ∧ (neg ≠ .algos → Says (.getDigests i) s i 0x7F (leBytes 1 4) s.sec ∧ Says (.getCertificate i slot) s i 0x7F (leBytes 1 4) s.sec
          ∧ Says (.keyExchange i false) s i 0x7F (leBytes 1 4) s.sec)
      ∧ (neg = .algos →
          Says (.getDigests i) s i 0x01 (leBytes 1 1 ++ Crypto.sha384 s.chain) s.sec
          ∧ Says (.getCertificate i 0) s i 0x02 (leBytes 1 0 ++ s.chain) s.sec
          ∧ (slot ≠ 0 → Says (.getCertificate i slot) s i 0x7F (leBytes 1 1) s.sec)
          ∧ SaysMore (.challenge i 0 nonce) s i 0x03 (leBytes 1 0 ++ Crypto.sha384 s.chain ++ nonce) 128 s.sec
          ∧ (slot ≠ 0 → Says (.challenge i slot nonce) s i 0x7F (leBytes 1 1) s.sec)
          ∧ SaysMore (.getMeasurements i 255) s i 0x60 (leBytes 1 11 ++ ((List.range 11).map (· + 1)).flatMap block) 128 s.sec
          ∧ SaysMore (.getMeasurements i 0) s i 0x60 (leBytes 1 11) 128 s.sec
          ∧ (1 ≤ index.toNat → index.toNat ≤ 11 → SaysMore (.getMeasurements i index) s i 0x60 (leBytes 1 1 ++ block index.toNat) 128 s.sec)
          ∧ (11 < index.toNat → index.toNat ≠ 255 → Says (.getMeasurements i index) s i 0x7F (leBytes 1 1) s.sec)
          ∧ Says (.keyExchange i true) s i 0x7F (leBytes 1 1) s.sec
          ∧ ((s.session n).opened = false → (∀ m, m < (n : Nat) → (s.session m).opened = true) →
              SaysMore (.keyExchange i false) s i 0x64 (leBytes 2 n) 240 (s.setSession n ⟨true, false, i, none⟩).sec)
          ∧ ((∀ m, m < 4 → (s.session m).opened = true) → Says (.keyExchange i false) s i 0x7F (leBytes 1 0x0A) s.sec))) ∧
    (s.host.published = true → s.host.imageless = false → s.spdmUp x.fn = true →
      (x.opened = true → x.established = false →
        Says (.finish n true) s x.fn 0x65 [] (s.setSession n { x with established := true }).sec
        ∧ Says (.finish n false) s x.fn 0x7F (leBytes 1 6) closed)
      ∧ (x.established = true →
        Says (.heartbeat n) s x.fn 0x68 [] s.sec ∧ Says (.keyUpdate n) s x.fn 0x69 [] s.sec
        ∧ Says (.endSession n) s x.fn 0x6C [] closed)
      ∧ (x.established = false → Says (.heartbeat n) s x.fn 0x7F (leBytes 1 2) s.sec)) ∧
    (s.host.published = true → s.host.imageless = true ∨ s.spdmUp i = false → Does (.getVersion i) s (fun t => t = s)) ∧
    (s.host.published = false → Does (.getVersion i) s (fun t => t = s.emit (.retry i)))

/-- Of everything but the functions of the host interface and the fields of registers, t is s. -/
def Sys2Proof.Say.OnlyFn (i : Nat) (s t : Sys2Proof.Machine.State) : Prop :=
  { t with host := s.host } = s ∧ { t.host with fns := s.host.fns } = s.host ∧ ∀ j, j ≠ i → t.fn j = s.fn j

open Sys2Proof Sys2Proof.Machine Sys2Proof.Say in
/-- 11_pcie.md R312, R313, R320, R323, R325, R326, R328 to R330, R332, R333: what VF Enable, the resets of functions, the power
states, PME and the requests that are not supported leave; before the Resource Table is published a configuration request is
only answered with a retry. Leaving D3hot lets messages go that waited; image-less service answers no object (09_firmware.md
R272). PME_En written with the D3hot entry and the AER bit of a request that is not supported are presumed of PCIe (log 10); that the
manager's FLR is over within its command is the model's reading (log 20). -/
def Obligations.functions_and_power_states : Prop :=
  ∀ (s : State) (i : FnId) (a : W64) (proto : BitVec 8),
    let absent : State → Prop := fun t => t.host.vfEnable = false ∧ (∀ j, 0 < j → j < 64 → t.insState j = 0) ∧ t.mfg = s.mfg
      ∧ t.sec.record = s.sec.record ∧ t.now = s.now ∧ t.mgmt = s.mgmt ∧ t.tim = s.tim
    let quiet := ∀ j v, (Tab.get MsixEntry.init (s.fn j).msix v).pending = false
    let messages : List Out → Prop := fun ms => ∀ m ∈ ms, ∃ j v x y, m = .msix j v x y
    (s.host.published = true → s.host.imageless = false → s.host.vfEnable = false → Does .vfEnable s (fun t =>
      t.host.vfEnable = true ∧ (∀ j, 0 < j → j < 64 → t.insState j = 1 ∧ t.fn j = { s.fn j with vectors := s.fld (F.hifMsixAllocCount j) })
        ∧ (s.evtRing 0 = none → (s.fn 0).d3hot = false → t.fn 0 = s.fn 0) ∧ Posts s t)) ∧
    (s.host.published = true → s.host.vfEnable = true → Does .vfEnableClear s absent) ∧
    (s.host.published = true → Does .managerFlr s (fun t =>
      absent t ∧ (t.fn 0).d3hot = false ∧ t.host.lowPower = false ∧ t.flag F.hifStatusLowpower = false ∧ t.flag F.glbStatusBusy = false ∧ t.regs.pend = [] ∧ (∀ w ∈ t.regs.buf, w.fn ≠ 0))) ∧
    (s.host.published = true → Does (.flr 0) s (fun t => absent t ∧ t.regs.pend = [] ∧ (∀ w ∈ t.regs.buf, w.fn ≠ 0))) ∧
    (s.host.published = true → (i : Nat) ≠ 0 → s.insState i ≠ 0 → Does (.flr i) s (fun t =>
      t.insState i = 1 ∧ (t.fn i).d3hot = false ∧ (t.fn i).binding = Rwt.of ((s.incarnation i + 1) % 4)
        ∧ (∀ w ∈ t.regs.buf, w.fn ≠ (i : Nat))
        ∧ t.mfg = s.mfg ∧ t.sec = s.sec ∧ t.tim = s.tim ∧ t.now = s.now)) ∧
    (∀ pme, s.host.published = true → Does (.d3hotEntry pme) s (fun t =>
      t.fn 0 = { s.fn 0 with d3hot := true, pmeEn := pme } ∧ OnlyFn 0 s t)) ∧
    ((s.fn 0).d3hot = true → s.mayLower = true → Does .lowpowerEntry s (fun t =>
      t.host = { s.host with lowPower := true } ∧ t.flag F.hifStatusLowpower = true
        ∧ (∀ k, k < 12 → s.flag (F.memStatusPresent k) = true → t.flag (F.memStatusSelfRefresh k) = true)
        ∧ { t with host := s.host, regs := s.regs } = s)) ∧
    ((s.fn 0).d3hot = true → Does .d0Entry s (fun t =>
      (t.fn 0).d3hot = false ∧ t.host.lowPower = false ∧ t.flag F.hifStatusLowpower = false ∧ t.pins.wakeN = false
        ∧ t.host.serviced = (s.host.serviced || (s.fn 0).pmeStatus)
        ∧ (∃ ms, t.out = s.out ++ (if s.pins.wakeN then [.pin "WAKE_N" true] else []) ++ ms ∧ messages ms
            ∧ (quiet → ms = [] ∧ t.fn 0 = { s.fn 0 with d3hot := false } ∧ ∀ j, j ≠ 0 → t.fn j = s.fn j))
        ∧ { t with host := s.host, regs := s.regs, pins := s.pins, out := s.out } = s)) ∧
    ((i : Nat) ≠ 0 → s.insState i ≠ 0 → s.host.published = true →
      Does (.instanceD3hot i) s (fun t => t.fn i = { s.fn i with d3hot := true } ∧ OnlyFn i s t)
      ∧ Does (.instanceD0Entry i) s (fun t => (t.fn i).d3hot = false ∧ (∀ j, j ≠ (i : Nat) → t.fn j = s.fn j)
        ∧ { t with host := s.host, out := s.out } = s
        ∧ ∃ ms, t.out = s.out ++ ms ∧ messages ms ∧ (quiet → ms = [] ∧ t.fn i = { s.fn i with d3hot := false }))) ∧
    (let retries : Instr → Nat → Prop := fun c k => Does c s (fun t => t.out = s.out ++ [.retry k] ∧ { t with out := s.out } = s)
     s.host.published = false → retries .vfEnable 0 ∧ retries .vfEnableClear 0 ∧ retries .managerFlr 0 ∧ retries (.flr i) i
      ∧ (∀ pme, retries (.d3hotEntry pme) 0) ∧ retries .pmeStatusClear 0 ∧ retries (.instanceD3hot i) i ∧ retries (.instanceD0Entry i) i
      ∧ retries (.doeObject i proto) i) ∧
    (Does .pmeResend s (fun t => { t with out := s.out } = s
      ∧ t.out = s.out ++ (if (s.fn 0).d3hot && (s.fn 0).pmeStatus && !s.host.serviced then [.pme] else []))) ∧
    (s.host.published = true → Does .pmeStatusClear s (fun t => t.fn 0 = { s.fn 0 with pmeStatus := false } ∧ t.host.serviced = false
      ∧ (∀ j, j ≠ 0 → t.fn j = s.fn j) ∧ { t with host := s.host } = s)) ∧
    (s.host.published = true → s.fnThere i = true → s.host.imageless = false → proto ≠ 1 → proto ≠ 2 → Does (.doeObject i proto) s (fun t =>
      t.out.getLast? = some (.doe i 0 doeDiscovery) ∧ t.sec = s.sec ∧ Answered s t)) ∧
    (s.host.published = true → s.host.imageless = true → Does (.doeObject i proto) s (fun t => t = s)) ∧
    (s.fnThere i = true → Does (.atomicopRequest i a) s (fun t => t.out = s.out ++ [.unsupported i]
      ∧ t.fn i = { s.fn i with aer := (s.fn i).aer ||| 2 ^ 20 } ∧ (∀ j, j ≠ (i : Nat) → t.fn j = s.fn j)
      ∧ { t with out := s.out, host := s.host } = s))

/-- After a reset of the whole device nothing that a program or a tenant put into it is left but what R495 and R538 keep: the
binding's record, manufacture data, host memory, the lifetime log and the shelf's contents. -/
def Sys2Proof.Say.Cleared (s t : Sys2Proof.Machine.State) : Prop :=
  t.benches = [] ∧ t.clusters = [] ∧ t.cores = [] ∧ t.mems = [] ∧ t.parts = [] ∧ t.links = [] ∧ t.run = Sys2Proof.Machine.Run.init
    ∧ t.plain = Sys2Proof.Machine.Plain.init ∧ t.eth = Sys2Proof.Machine.Eth.init ∧ t.rma = Sys2Proof.Machine.Rma.init
    ∧ t.dbg = Sys2Proof.Machine.Dbg.init ∧ t.sec.record = s.sec.record ∧ t.secState = s.secState ∧ t.host.published = false
    ∧ t.mfg = s.mfg ∧ t.now = s.now ∧ t.pending = s.pending

open Sys2Proof Sys2Proof.Machine Sys2Proof.Say in
/-- 11_pcie.md R327, R331; 17_time.md R459, R467; 22_module.md R533, R535 to R540: PERST_N, the supplies and the thermal trip. That
HIF_WAKE_EN lives over PERST_N and L4, the clocks over D3cold and the real-time clock over a loss of AUX_3V3, and that a loss of P54V
ends a power-cycle request, is the model's reading (log 22). -/
def Obligations.pins_supplies_and_thermal_trip : Prop :=
  ∀ (s : State) (straps : BitVec 3) (n : BitVec 5),
    (s.pins.perst = true → s.railsGood = true → s.rcv.levels = [] → Does .perstNAssert s (fun t =>
      Cleared s t ∧ t.pins.perst = false ∧ t.pins.released = false ∧ t.mgmt = s.mgmt ∧ t.fld F.rcvStatusLevel = 4
        ∧ t.fld F.hifWakeEnEnable = s.fld F.hifWakeEnEnable)) ∧
    (s.pins.perst = true → s.railsGood = false → Does .perstNAssert s (fun t =>
      t.pins = { s.pins with perst := false, released := false } ∧ { t with pins := s.pins } = s)) ∧
    (s.pins.perst = false → s.railsGood = true → Does .perstNDeassert s (fun t =>
      t.pins = { s.pins with perst := true, released := true, wakeN := false }
        ∧ t.host.serviced = (t.fn 0).pmeStatus
        ∧ (s.rcv.levels.any (fun l => l.level == 4) = true → { t with pins := s.pins, out := s.out, host := s.host } = s
            ∧ { t.host with serviced := s.host.serviced } = s.host)
        ∧ (s.rcv.levels.any (fun l => l.level == 4) = false → Cleared s t)
        ∧ (s.pins.wakeN = true → t.out.getLast? = some (.pin "WAKE_N" true)))) ∧
    (s.pins.perst = false → s.railsGood = false → Does .perstNDeassert s (fun t =>
      t.pins = { s.pins with perst := true } ∧ { t with pins := s.pins } = s)) ∧
    (s.pins.aux = false → Does (.aux3v3Apply straps) s (fun t =>
      let valid := s.flag F.timStatusRtcValid
      let rtc := s.fld F.timRtcSeconds
      t.pins.aux = true ∧ t.pins.straps = straps.toNat ∧ t.mgmt = Mgmt.init
        ∧ t.pins.wakeN = (s.pins.wakeN && !(s.pins.p54v && !s.pins.tripped && s.pins.perst))
        ∧ t.flag F.timStatusRtcValid = valid ∧ t.fld F.timRtcSeconds = rtc
        ∧ t.fld F.timNowNs = (if valid then rtc * 1000000000 else 0) % 2 ^ 64 ∧ (s.request 14 ≠ 1 → t.fw.flash = s.fw.flash) ∧ t.mfg = s.mfg ∧ t.now = s.now
        ∧ t.pins.released = (s.pins.released || (s.pins.p54v && !s.pins.tripped && s.pins.perst))
        ∧ (s.pins.p54v = false → t.benches = s.benches ∧ t.mems = s.mems ∧ t.parts = s.parts ∧ t.sec = s.sec))) ∧
    (s.pins.aux = true → Does .aux3v3Loss s (fun t =>
      t.pins.aux = false ∧ t.pins.wakeN = false ∧ t.pins.pwrcyc = none ∧ t.mgmt = Mgmt.init ∧ t.rcv = Rcv.init
        ∧ (s.pins.wakeN = true → Out.pin "WAKE_N" true ∈ t.out) ∧ (s.pins.pwrcyc.isSome = true → Out.pin "TRAY_PWRCYC_N" true ∈ t.out)
        ∧ t.fld F.hifWakeEnEnable = 0 ∧ (t.fn 0).pmeEn = false ∧ (t.fn 0).pmeStatus = false ∧ t.mfg = s.mfg
        ∧ (s.railsGood = true → Cleared s t ∧ t.pins.released = false)
        ∧ (s.railsGood = false → t.fld F.timRtcSeconds = s.fld F.timRtcSeconds ∧ t.benches = s.benches))) ∧
    (s.pins.p54v = false → Does .p54vApply s (fun t =>
      t.pins.p54v = true ∧ t.logCounter 1 = (if s.pins.aux then (s.logCounter 1 + 1) % 2 ^ 64 else s.logCounter 1)
        ∧ t.pins.tripped = (s.pins.tripped && s.stillHot) ∧ t.mfg = s.mfg ∧ t.now = s.now
        ∧ (s.pins.aux = true → (s.pins.tripped && s.stillHot) = false → s.pins.perst = true → t.pins.released = true))) ∧
    (s.pins.p54v = true → s.railsGood = true → Does .p54vLoss s (fun t =>
      Cleared s t ∧ t.pins = { s.pins with p54v := false, released := false } ∧ t.log = s.log ∧ t.tim = s.tim ∧ t.rcv = Rcv.init
        ∧ (s.regs.val.Pairwise (fun p q => p.1 < q.1) → ∀ a, 0x900000 ≤ a → a < 0xB00000 → t.regs.word a = s.regs.word a))) ∧
    (s.pins.p54v = true → s.railsGood = false → Does .p54vLoss s (fun t =>
      t.pins = { s.pins with p54v := false } ∧ t.rcv = Rcv.init ∧ { t with pins := s.pins, rcv := s.rcv } = s)) ∧
    (n.toNat ≤ 16 → s.railsGood = true → Does (.thermalTrip n) s (fun t =>
      t.benches = [] ∧ t.cores = [] ∧ t.mems = [] ∧ t.pins.tripped = true ∧ t.railsGood = false ∧ Out.pin "THERMTRIP_N" false ∈ t.out
        ∧ t.rcv.l5Pending = s.rcv.l5Pending ∧ t.rcv.l5Times = s.rcv.l5Times ∧ t.pins.pwrcyc = s.pins.pwrcyc
        ∧ t.log.events = s.log.events + 1 ∧ t.log.day.critical = s.log.day.critical + 1 ∧ t.mfg = s.mfg ∧ t.now = s.now)) ∧
    (16 < n.toNat → Does (.thermalTrip n) s (fun t => t = s))

open Sys2Proof Sys2Proof.Machine Sys2Proof.Say in
/-- 14_shelf.md R381 to R384, R405 to R407, R409; 18_power.md R488: namespace operations, on the namespace and the size they were asked
with, sanitize, channel failures, idling and refresh. FAILED that stays FAILED, the count that a sanitize erases, the stripes and where
their pages lie are the model's (log 28); a channel's map_out that its failure leaves as it is, log 21. What is programmed beside the data
of a refresh is a free value (log 30). -/
def Obligations.namespaces_sanitize_and_channels : Prop :=
  ∀ (s : State) (ch : ChanId) (nsb : BitVec 8) (lba : BitVec 40) (spare : BitVec 7),
    let ns := s.shelf.askNs
    let size := s.shelf.askSize
    let total := (s.shelf.size.map Prod.snd).foldl (· + ·) 0
    let emptied : State → Nat → Prop := fun t ns =>
      (∀ k, k < 2 ^ 40 → t.block ns k = List.replicate 4096 0)
        ∧ ∀ m k, m ≠ ns → k < 2 ^ 40 → t.block m k = s.block m k
    (s.request 6 = 1 → s.bound = true → s.fld F.shfStatusState ≠ 2 → s.nsSize ns = 0 → size ≠ 0 → total + size ≤ 49152 →
      s.flag F.shfSanitizeActive = false → Does .nsCreate s (fun t =>
        t.nsSize ns = size ∧ (∀ m, m ≠ ns → t.nsSize m = s.nsSize m) ∧ emptied t ns ∧ t.fld F.shfStatusResult = Status.ok
          ∧ t.request 6 = 0 ∧ Tab.get 0 t.shelf.inc ns = (Tab.get 0 s.shelf.inc ns + 1) % 256 ∧ Posts s { t with shelf := s.shelf })) ∧
    (s.request 6 = 2 → s.nsSize ns ≠ 0 → (s.holderOf 0 ns).isNone = true → Does .nsDelete s (fun t =>
      t.nsSize ns = 0 ∧ (∀ m, m ≠ ns → t.nsSize m = s.nsSize m) ∧ emptied t ns ∧ t.fld F.shfStatusResult = Status.ok
        ∧ t.shelf.inc = s.shelf.inc ∧ Posts s { t with shelf := s.shelf })) ∧
    (s.request 6 = 2 → (s.nsSize ns = 0 ∨ (s.holderOf 0 ns).isSome = true) → Does .nsDelete s (fun t =>
      t.shelf = s.shelf ∧ t.fld F.shfStatusResult = Status.badDescriptor ∧ Posts s t)) ∧
    (s.request 6 = 3 → s.nsSize ns ≠ 0 → Does .nsFormat s (fun t =>
      t.shelf = { s.shelf with formatting := s.shelf.formatting ++ [ns], lastCmd := s.now } ∧ t.request 6 = 0
        ∧ t.fld F.shfStatusPower = (if s.flag F.pwrStatusShelfHeld then 1 else 0)
        ∧ { t with shelf := s.shelf, regs := s.regs } = s)) ∧
    (s.shelf.formatting.contains nsb.toNat = true → Does (.nsFormatDone nsb) s (fun t =>
      emptied t nsb.toNat ∧ t.shelf.formatting = s.shelf.formatting.erase nsb.toNat ∧ t.shelf.size = s.shelf.size ∧ t.fld F.shfStatusResult = Status.ok
        ∧ Posts s { t with shelf := s.shelf })) ∧
    (s.request 6 = 4 → s.shelf.size = [] → s.flag F.shfSanitizeActive = false → Does .sanitize s (fun t =>
      t.flag F.shfSanitizeActive = true ∧ t.fld F.shfSanitizePercent = 0 ∧ t.fld F.shfSanitizeJournal = 0
        ∧ t.fld F.shfStatusState = (if s.fld F.shfStatusState = 4 then 4 else 3) ∧ t.fld F.shfStatusPower ≤ 1
        ∧ t.shelf = { s.shelf with lastCmd := s.now, erased := 0, before := s.fld F.shfStatusState } ∧ Posts s { t with shelf := s.shelf })) ∧
    (s.flag F.shfSanitizeActive = true → Does (.sanitizeDone spare) s (fun t =>
      let left := min 100 spare.toNat
      t.flag F.shfSanitizeActive = false ∧ (s.chans ≠ [] → t.fld F.shfSanitizePercent = 100) ∧ t.fld F.shfStatusSpare = left
        ∧ t.shelf = { s.shelf with blocks := [], page := [], stripe := 0, slot := 0, unread := [], left := [], erased := 2048 * s.chans.length }
        ∧ t.fld F.shfStatusResult = Status.ok ∧ (s.fld F.shfStatusState = 4 → t.fld F.shfStatusState = 4)
        ∧ (s.fld F.shfStatusState = 3 → 15 ≤ s.chans.length → t.fld F.shfStatusState
            = if left = 0 ∨ (s.shelf.before = 2 ∧ left ≤ 10) then 2 else if left < 10 then 1 else 0)
        ∧ t.benches = s.benches ∧ t.mems = s.mems)) ∧
    (s.flag (F.shfChanInService ch) = true →
      (let recent := (Tab.get [] s.shelf.failTimes ch).filter (fun x => decide (s.now ≤ x + 3600000000000))
       Does (.channelFailure ch) s (fun t =>
        Tab.get [] t.shelf.failTimes ch = s.now :: recent ∧ t.shelf.blocks = s.shelf.blocks ∧ t.shelf.size = s.shelf.size
          ∧ t.fld (F.shfChanFailures ch) = min (2 ^ (F.shfChanFailures ch).width - 1) (s.fld (F.shfChanFailures ch) + 1)
          ∧ t.flag (F.shfChanInService ch) = decide (recent.length < 2)
          ∧ t.fld (F.shfChanMapOut ch) = s.fld (F.shfChanMapOut ch)
          ∧ (2 ≤ recent.length → t.flag F.shfStatusRebuild = true
              ∧ Tab.get 0 t.shelf.left ch = if s.shelf.slot = 0 then s.shelf.stripe else s.shelf.stripe + 1)))) ∧
    (s.flag F.shfStatusRebuild = true → Does .rebuildDone s (fun t => t.flag F.shfStatusRebuild = false
      ∧ t.shelf.blocks = s.shelf.blocks ∧ (∀ k, s.shelf.blockLost s.chans k = true → Tab.get 0 t.shelf.page k = Tab.get 0 s.shelf.page k)
      ∧ { t with regs := s.regs, shelf := s.shelf } = s)) ∧
    (s.flag F.shfStatusRebuild = false → Does .rebuildDone s (fun t => t = s)) ∧
    (2 ≤ s.fld F.shfPwrMax → s.flag F.pwrStatusShelfHeld = false → s.shelf.cmds = [] → s.shelf.formatting = [] → s.flag F.shfSanitizeActive = false →
      s.shelf.lastCmd + s.fld F.shfPwrIdleMs * 1000000 ≤ s.now → Does .shelfIdleTimeout s (fun t =>
        t.fld F.shfStatusPower = s.fld F.shfPwrMax ∧ { t with regs := s.regs } = s)) ∧
    (s.shelf.cmds ≠ [] ∨ s.flag F.pwrStatusShelfHeld = true → Does .shelfIdleTimeout s (fun t => t = s)) ∧
    (Does (.dataRefresh nsb lba) s (fun t => { t with log := s.log, shelf := s.shelf } = s
      ∧ { t.shelf with page := s.shelf.page, stripe := s.shelf.stripe, slot := s.shelf.slot } = s.shelf
      ∧ (Tab.get [] s.shelf.blocks (blockKey nsb.toNat lba.toNat) ≠ [] → s.fld F.shfStatusPower < 2 →
          t.logCounter 10 = (s.logCounter 10 + 4096 + (Config.nandMore s.log.programs).toNat) % 2 ^ 64)))

/-- Store queue pair q, the one whose command is taken up next (R388), has ring r of function i, the next descriptor there is d with this opcode, in slot d.num, with the
expected sequence, and the shelf serves it: c is its command (14_shelf.md R389 to R392). -/
abbrev Sys2Proof.Say.Offered (s : Sys2Proof.Machine.State) (q i r slot opcode : Nat) (d : Sys2Proof.Machine.Desc)
    (c : Sys2Proof.Machine.ShelfCmd) : Prop :=
  s.shelfNext = some q ∧ Sys2Proof.Machine.bitOf s.fw.hold 3 = false ∧ s.sqpRing q = some (i, r) ∧ s.attachOf q = none ∧ s.next? i r 2 opcode = some d ∧ d.num % s.ringSize i r = slot
    ∧ d.w0 32 16 = Sys2Proof.Machine.Tab.get 0 s.shelf.expected q ∧ c = s.shelfCmd i (some ⟨i, r, d.num⟩) q slot d
    ∧ s.rcv.fencedForGood = false ∧ s.rcv.engineFenced 2 = false ∧ s.bound = true
    ∧ Sys2Proof.Machine.goodShelf false d = true
    ∧ (∀ l, c.label = some l → s.checkLabel i [0x06] l = .good)
    ∧ (∃ ns, c.ns = some ns ∧ (c.ranged = true → c.lba + c.count ≤ s.nsSize ns * 262144))
    ∧ (s.fld Sys2Proof.Machine.F.shfStatusState = 0 ∨ s.fld Sys2Proof.Machine.F.shfStatusState = 1) ∧ c.devmem = false

/-- The command is accepted behind those that wait, and starts where none of them holds it. -/
def Sys2Proof.Say.Accepts (ins : Sys2Proof.Instr) (s : Sys2Proof.Machine.State) (q i r slot opcode : Nat)
    (d : Sys2Proof.Machine.Desc) : Prop :=
  open Sys2Proof Sys2Proof.Machine Sys2Proof.Say in
  ∀ c, Offered s q i r slot opcode d c → s.shelf.cmds.all (fun e => e.started) = true → (∀ n, (s.qp n).attach = none) →
    Does ins s (fun t =>
      t.shelf.cmds = s.shelf.cmds ++ [{ c with started := s.shelfMayStart s.shelf.cmds c }]
        ∧ Tab.get 0 t.shelf.expected q = (d.w0 32 16 + 1) % 65536 ∧ t.shelf.blocks = s.shelf.blocks ∧ t.shelf.size = s.shelf.size
        ∧ t.fld F.shfStatusPower ≤ 1 ∧ t.host.mem = s.host.mem ∧ t.benches = s.benches ∧ t.mems = s.mems)

open Sys2Proof Sys2Proof.Machine Sys2Proof.Say in
/-- 14_shelf.md R388 to R394: a command of the expected sequence is accepted, and waits for those it overlaps or that a FLUSH
orders; a command out of sequence completes with BAD_DESCRIPTOR and changes no block. How a weight counts turns (log 28), and that
commands are taken up in the order they were fetched, those of class URGENT first (log 30), are the model's choices. -/
def Obligations.shelf_commands_are_accepted : Prop :=
  ∀ (s : State) (q : SqpId) (slot : BitVec 12) (i r : Nat) (d : Desc),
    Accepts (.shelfRead q slot) s q i r slot.toNat 1 d ∧ Accepts (.shelfWrite q slot) s q i r slot.toNat 2 d ∧
    Accepts (.shelfFlush q slot) s q i r slot.toNat 3 d ∧ Accepts (.shelfTrim q slot) s q i r slot.toNat 4 d ∧
    Accepts (.shelfStatus q slot) s q i r slot.toNat 5 d ∧
    (s.shelfNext = some (q : Nat) → s.sqpRing q = some (i, r) → s.attachOf q = none → s.next? i r 2 2 = some d → d.num % s.ringSize i r = slot.toNat →
      (let e := Tab.get 0 s.shelf.expected q
       d.w0 32 16 ≠ e → 32768 ≤ (e + 2 * 65536 - 1 - d.w0 32 16) % 65536 → Does (.shelfWrite q slot) s (fun t =>
        ∃ u : State, t = (u.complete ⟨i, r, d.num⟩ Status.badDescriptor 0).rejectPeers.flushPeers ∧ u.shelf.cmds = s.shelf.cmds
          ∧ u.shelf.blocks = s.shelf.blocks ∧ u.shelf.expected = s.shelf.expected))) ∧
    (∀ (a b : ShelfCmd), a.ranged = true → b.ranged = true → a.ns = b.ns → (a.writes = true ∨ b.writes = true) →
      a.lba < b.lba + b.count → b.lba < a.lba + a.count → a.waitsFor b = true ∧ b.waitsFor a = true) ∧
    (∀ (a b : ShelfCmd), a.q = b.q → a.opcode = 3 → b.writes = true → a.waitsFor b = true)

/-- A started command c changes the state as P says, leaves the list and completes with a status and a result, and what it
held starts. -/
def Sys2Proof.Say.ShelfEnds (s : Sys2Proof.Machine.State) (q : Sys2Proof.SqpId) (slot : BitVec 12) (m : Sys2Proof.MediaResult)
    (c : Sys2Proof.Machine.ShelfCmd) (status result : Nat) (P : Sys2Proof.Machine.State → Prop) : Prop :=
  open Sys2Proof Sys2Proof.Machine Sys2Proof.Say in
  Does (.shelfCommandDone q slot m) s (fun t => ∃ u, P u ∧ u.shelf.cmds = s.shelf.cmds.erase c ∧ u.benches = s.benches ∧ u.parts = s.parts
    ∧ t = (((u.endShelf c.op c.q c.slot c.tag status result).retireBlocks m.spare).shelfStart.rejectPeers.flushPeers.raiseFw 3 1))

open Sys2Proof Sys2Proof.Machine Sys2Proof.Say in
/-- 14_shelf.md R390, R393, R397 to R399: what a command does when the medium answers. A READ puts its blocks into host memory
and changes no block, one whose stripe has lost it reads as zeros with MEDIA_ERROR; a WRITE makes its blocks those of host memory and changes no other; a TRIM unmaps its blocks; a sealed
WRITE whose tag fails changes none. NO_SPACE read as more than 24 TiB mapped, and which page of a stripe is lost, are the model's (log 28).
A command of a function that an FLR has reset since has no effect (12_rings.md R352), and host data that meets an isolated V36 is read as
zero and written nowhere (01_architecture.md R24); what is programmed beside the data is a free value (log 30). -/
def Obligations.shelf_commands_complete : Prop :=
  ∀ (s : State) (q : SqpId) (slot : BitVec 12) (m : MediaResult) (c : ShelfCmd) (ns : Nat) (r : BindRec) (l : List Byte),
    s.shelf.cmds.find? (fun c => c.q == (q : Nat) && c.slot == slot.toNat && c.started) = some c →
    (c.old = true → ShelfEnds s q slot m c Status.ok 0 (fun u =>
      u.shelf.blocks = s.shelf.blocks ∧ u.host.mem = s.host.mem ∧ u.mems = s.mems)) ∧
    (c.old = false → (s.dmaOk ((s.holderOf 1 c.q).getD 0) = true ∨ c.devmem = true) → s.engineUp = true → m.mismatch = false → c.ns = some ns →
    c.lba + c.count ≤ 2 ^ 40 → s.shelfServes c.opcode = none →
    let lost : Nat → Bool := fun j => { s.shelf with unread := m.unread.foldl (fun l p => insertNat p l) s.shelf.unread }.blockLost s.chans (blockKey ns (c.lba + j))
    let room := s.shelf.noRoom ns c.lba c.count = false
    ((s.cutOff (Via.cipher true).gates).isSome = true → c.devmem = false → c.label = none →
      (c.opcode = 1 → (∀ j, j < c.count → lost j = false) → ShelfEnds s q slot m c Status.ok 0xFFFFFFFF (fun u =>
        u.shelf.blocks = s.shelf.blocks ∧ u.host.mem = s.host.mem ∧ u.mems = s.mems))
      ∧ (c.opcode = 2 → room → ShelfEnds s q slot m c Status.ok 0 (fun u => u.host.mem = s.host.mem
        ∧ ∀ j, j < c.count → u.block ns (c.lba + j) = List.replicate 4096 0))) ∧
    (s.cutOff (Via.cipher true).gates = none →
    (c.opcode = 1 → c.devmem = false → c.label = none → (∀ j, j < c.count → lost j = false) →
      ShelfEnds s q slot m c Status.ok 0xFFFFFFFF (fun u => u.shelf.blocks = s.shelf.blocks
        ∧ (∀ j, j < c.count → Memory.read u.host.mem (c.addr + 4096 * j) 4096 = s.block ns (c.lba + j))
        ∧ HostOutside s c.addr (4096 * c.count) u ∧ u.mems = s.mems)) ∧
    (c.opcode = 1 → c.devmem = false → c.label = none → c.count = 1 → lost 0 = true →
      ShelfEnds s q slot m c Status.mediaError 0 (fun u => u.shelf.blocks = s.shelf.blocks
        ∧ Memory.read u.host.mem c.addr 4096 = List.replicate 4096 0 ∧ HostOutside s c.addr 4096 u ∧ u.mems = s.mems)) ∧
    (c.opcode = 1 → c.devmem = false → c.label = some l → s.sec.record = some r → c.count = 1 → lost 0 = false →
      (let p := Crypto.gcmSeal (s.workingKey r l) (shelfIv c.nonce 0) (leBytes 8 c.lba) (s.block ns c.lba)
       ShelfEnds s q slot m c Status.ok 0xFFFFFFFF (fun u => u.shelf.blocks = s.shelf.blocks
        ∧ Memory.read u.host.mem c.addr (p.1 ++ p.2).length = p.1 ++ p.2 ∧ HostOutside s c.addr (p.1 ++ p.2).length u ∧ u.mems = s.mems))) ∧
    (c.opcode = 2 → c.devmem = false → c.label = none → room →
      ShelfEnds s q slot m c Status.ok 0 (fun u => u.host.mem = s.host.mem
        ∧ (∀ j, j < c.count → u.block ns (c.lba + j) = Memory.read s.host.mem (c.addr + 4096 * j) 4096)
        ∧ (∀ n k, k < 2 ^ 40 → (n ≠ ns ∨ k < c.lba ∨ c.lba + c.count ≤ k) → u.block n k = s.block n k)
        ∧ u.logCounter 9 = (s.logCounter 9 + 4096 * c.count) % 2 ^ 64
        ∧ u.logCounter 10 = (s.logCounter 10 + 4096 * c.count + (Config.nandMore s.log.programs).toNat) % 2 ^ 64)) ∧
    (c.opcode = 2 → c.devmem = false → c.label = none → ¬ room → ShelfEnds s q slot m c Status.noSpace 0 (fun u =>
      u.shelf.blocks = s.shelf.blocks ∧ u.host.mem = s.host.mem)) ∧
    (c.opcode = 2 → c.devmem = false → c.label = some l → s.sec.record = some r → c.count = 1 → room →
      (let key := s.workingKey r l
       let x := Crypto.gcmOpen key (shelfIv c.nonce 0) (leBytes 8 c.lba) (Memory.read s.host.mem c.addr 4096) (Memory.read s.host.mem (c.addr + 4096) 16)
       (∀ pt, x = some pt → ShelfEnds s q slot m c Status.ok 0 (fun u => Tab.get [] u.shelf.blocks (blockKey ns c.lba) = pt
        ∧ ∀ n k, k < 2 ^ 40 → (n ≠ ns ∨ k ≠ c.lba) → u.block n k = s.block n k)) ∧
       (x = none → ShelfEnds s q slot m c Status.integrity 0 (fun u => u.shelf.blocks = s.shelf.blocks)))) ∧
    (c.opcode = 1 → c.devmem = true → c.label = none → c.count = 1 → lost 0 = false →
      ShelfEnds s q slot m c Status.ok 0xFFFFFFFF (fun u => u.shelf.blocks = s.shelf.blocks ∧ u.host = s.host
        ∧ u.mems = (s.devWrite (.cipher true) (.inst ((s.holderOf 1 c.q).getD 0)) c.addr (s.block ns c.lba)).2.mems)) ∧
    (c.opcode = 2 → c.devmem = true → c.label = none → c.count = 1 → room →
      (let p := s.asBefore.devRead (.cipher true) (.inst ((s.holderOf 1 c.q).getD 0)) c.addr 4096
       p.2.1.integrity = false → ShelfEnds s q slot m c Status.ok 0 (fun u => Tab.get [] u.shelf.blocks (blockKey ns c.lba) = p.1
        ∧ ∀ n k, k < 2 ^ 40 → (n ≠ ns ∨ k ≠ c.lba) → u.block n k = s.block n k))) ∧
    (c.opcode = 4 → ShelfEnds s q slot m c Status.ok 0 (fun u =>
      (∀ j, j < c.count → u.block ns (c.lba + j) = List.replicate 4096 0)
        ∧ (∀ n k, k < 2 ^ 40 → (n ≠ ns ∨ k < c.lba ∨ c.lba + c.count ≤ k) → u.block n k = s.block n k) ∧ u.host.mem = s.host.mem)) ∧
    (c.opcode = 3 → ShelfEnds s q slot m c Status.ok 0 (fun u => u.shelf.blocks = s.shelf.blocks ∧ u.host.mem = s.host.mem)) ∧
    (c.opcode = 5 → ShelfEnds s q slot m c Status.ok (s.fld F.shfStatusState + s.fld F.shfSanitizePercent * 2 ^ 8
        + s.fld F.shfStatusSpare * 2 ^ 16 + s.fld F.shfStatusPower * 2 ^ 24 + s.nsSize ns * 2 ^ 32) (fun u =>
      u.shelf.blocks = s.shelf.blocks ∧ u.host.mem = s.host.mem))))

open Sys2Proof Sys2Proof.Machine in
/-- 10_tenancy.md R302 and 14_shelf.md R397: what AES-GCM seals it opens again, and the sealed text is as long as the plain
text. -/
def Obligations.sealed_text_opens_to_itself : Prop :=
  ∀ (key iv aad pt : List Byte), key.length = 32 → iv.length = 12 →
    Crypto.gcmOpen key iv aad (Crypto.gcmSeal key iv aad pt).1 (Crypto.gcmSeal key iv aad pt).2 = some pt
      ∧ (Crypto.gcmSeal key iv aad pt).1.length = pt.length ∧ (Crypto.gcmSeal key iv aad pt).2.length = 16

open Sys2Proof Sys2Proof.Machine Sys2Proof.Say in
/-- 15_ethernet.md R412, R415 to R418, R420, R421, R424, R427, R428: what becomes of a received frame. A bad one is counted and
dropped; one for the slow path joins it; one that no rule matches is counted; one that a rule sends to a queue goes into the
first posted buffer, which completes with its length and flags; one that a rule hands to the remote-memory engine or the time unit
waits there where it is one of theirs.
15_ethernet.md R416, R417, R427; log 15: service core 1 answers ARP, echo and neighbour discovery ahead of every service and
drops what it does not serve; POST takes a buffer onto the free list, of at most 64. The order in which a rule's addresses are compared,
and OK for a frame whose partial line write was refused, are the model's (log 30); that the time unit keeps the transport of the last
message, log 29. -/
def Obligations.frames_received_and_receive_buffers : Prop :=
  (
    ∀ (s : State) (p : PortId) (f : List Byte) (mm : Bool) (i r : Nat),
      let h := parseFrame f
      let rs := (s.port p).rules
      let long : Prop := f.length + 4 < 64 ∨ s.fld (F.ethPortCfgMaxFrame p) < f.length + 4
      (s.portUp p = false → Does (.frameReceived p f true mm) s (fun t => t = s)) ∧
      (s.portUp p = true → Does (.frameReceived p f false mm) s (fun t => t = s.count (F.ethRxErrFcs p) 1)) ∧
      (s.portUp p = true → long → Does (.frameReceived p f true mm) s (fun t => t = s.count (F.ethRxErrLength p) 1)) ∧
      (s.portUp p = true → ¬ long → isPause f = true → Does (.frameReceived p f true mm) s (fun t => t = s.count (F.ethRxCtrlPause p) 1)) ∧
      (s.portUp p = true → ¬ long → isPause f = false → h.slow = true →
        Does (.frameReceived p f true mm) s (fun t =>
          ((s.port p).slow.length < 4096 → t.eth = (s.setPort p { s.port p with slow := (s.port p).slow ++ [f] }).eth)
            ∧ (4096 ≤ (s.port p).slow.length → t = s.count (F.ethRxCtrlSlow p) 1) ∧ t.benches = s.benches ∧ t.mems = s.mems)) ∧
      (s.portUp p = true → ¬ long → isPause f = false → h.slow = false →
        ((∀ k < ruleCount rs, ruleMatches rs f h (ruleAt rs k) = false) → fieldLE rs 6 1 ≠ 2 →
          Does (.frameReceived p f true mm) s (fun t => t = s.count (F.ethRxDropNomatch p) 1)) ∧
        ∀ k, k < ruleCount rs → ruleMatches rs f h (ruleAt rs k) = true → (∀ j < k, ruleMatches rs f h (ruleAt rs j) = false) →
          let q := ruleAt rs k
          let n := fieldLE q 0x34 2
          let handed : Nat → Prop := fun u => Does (.frameReceived p f true mm) s (fun t =>
            t = s.setPort p { s.port p with handed := (s.port p).handed ++ [(u, f)] })
          fieldLE q 0x33 1 = 0 →
          (fieldLE q 0x32 1 = 3 → (h.proto = 17 ∧ h.ports.map Prod.snd = some 4791 → handed 3)
            ∧ (¬ (h.proto = 17 ∧ h.ports.map Prod.snd = some 4791) → Does (.frameReceived p f true mm) s (fun t => t = s))) ∧
          (fieldLE q 0x32 1 = 4 → (ptpOf f = none → Does (.frameReceived p f true mm) s (fun t => t = s))
            ∧ ∀ msg, ptpOf f = some msg → (s.pins.aux = true → s.sourceOn (ptpCode p) = true → ptpDomain msg = s.fld F.timCfgDomain →
                (ptpType msg = ptpSyncType ∨ ptpType msg = ptpAnnounceType) → Does (.frameReceived p f true mm) s (fun t =>
                  t = { s.setPort p { s.port p with handed := (s.port p).handed ++ [(4, f)] } with
                    tim := { s.tim with via := Tab.set 0 s.tim.via p (ptpVia f) } }))
              ∧ (ptpDomain msg ≠ s.fld F.timCfgDomain → Does (.frameReceived p f true mm) s (fun t => t = s))) ∧
          (fieldLE q 0x32 1 = 1 →
          (s.ethRing n 4 = none → Does (.frameReceived p f true mm) s (fun t => t = s.count (F.ethRxdropNobufCount n) 1)) ∧
          ∀ b rest, s.ethRing n 4 = some (i, r) → (s.ring i r).bufs = b :: rest → b.devmem = false → f.length ≤ b.len →
            s.dmaOk i = true → Does (.frameReceived p f true mm) s (fun t => ∃ u : State,
              (∃ l4, (∀ x, h.l4ok = some x → l4 = x) ∧ t = u.complete ⟨i, r, b.num⟩ Status.ok
                  (rxResult f.length true true false h.l3ok l4 k (s.fld (F.ethRsStatusVersion p))))
                ∧ Memory.read u.host.mem b.addr f.length = f ∧ HostOutside s b.addr f.length u ∧ (u.ring i r).bufs = rest
                ∧ { u with host := s.host, freeCtr := s.freeCtr } = s)))
  ) ∧ (
    ∀ (s : State) (p : PortId) (f : List Byte) (rest : List (List Byte)) (i : FnId) (r : RingId) (d : Desc),
      let h := parseFrame f
      let mac := s.macOf p
      let a1 := arpReply f h mac (s.ip4Of p)
      let a2 := echo4 f h mac (s.ip4Of p)
      let a3 := answer6 f h mac (s.ip6Of p)
      ((s.port p).slow = f :: rest → (s.core 4).alive = true →
        (∀ g, (a1 = some g ∨ (a1 = none ∧ (a2 = some g ∨ (a2 = none ∧ a3 = some g)))) → s.portUp p = true →
          Does (.slowPathService p) s (fun t => t.port p = { s.port p with slow := rest, ahead := (s.port p).ahead ++ [g] }
            ∧ (∀ j, j ≠ (p : Nat) → t.port j = s.port j) ∧ { t with eth := s.eth } = s)) ∧
        (∀ m ip, a1 = none → a2 = none → a3 = none → arpAnswer f h = some (m, ip) → (∀ n < 2048, s.wantsPeer p n ip = false) →
          Does (.slowPathService p) s (fun t => t = (s.setPort p { s.port p with slow := rest }).count (F.ethRxCtrlSlow p) 1)) ∧
        (a1 = none → a2 = none → a3 = none → arpAnswer f h = none → ndAnswer f h = none → Does (.slowPathService p) s (fun t =>
          t = (s.setPort p { s.port p with slow := rest }).count (F.ethRxCtrlSlow p) 1))) ∧
      ((s.port p).slow = [] → Does (.slowPathService p) s (fun t => t = s)) ∧
      (Starts s i r 4 1 d → (s.ring i r).bufs.length < 64 → s.bound = true → d.good 0x01000000 allBits 0xFFFFFFFF 0 .none = true →
        d.le 8 8 % 64 = 0 → d.le 16 4 % 64 = 0 → 256 ≤ d.le 16 4 → d.le 16 4 ≤ 65536 → Does (.post i r) s (fun t =>
          (t.ring i r).bufs = (s.ring i r).bufs ++ [⟨d.num, bitOf (d.w0 32 32) 24, d.le 8 8, d.le 16 4⟩]
            ∧ { t with host := s.host } = s ∧ t.host.mem = s.host.mem ∧ (∀ j, j ≠ (i : Nat) → t.fn j = s.fn j))) ∧
      (64 ≤ (s.ring i r).bufs.length → Does (.post i r) s (fun t => t = s)) ∧
      (Starts s i r 4 1 d → (s.ring i r).bufs.length < 64 → s.bound = true → d.le 8 8 % 64 ≠ 0 →
        Refuses (.post i r) s i r d Status.badDescriptor 0)
  )

open Sys2Proof Sys2Proof.Machine Sys2Proof.Say in
/-- 15_ethernet.md R414, R425, R426, R430 to R434, R463: a SEND queues its bytes with checksums, tag and seal as asked; a flow
key restarts its counter; the scheduler puts the frame that may send onto the line, those of service core 1 and the time unit first within 1% of the port's
rate (how that is counted is the model's choice, log 27; that a sealed payload ends with its UDP length, log 30); a
transmitted frame leaves and completes, with its time where a stamp was asked. -/
def Obligations.frames_sent : Prop :=
  ∀ (s : State) (p : PortId) (i : FnId) (r : RingId) (d : Desc),
    let w := d.le 16 8
    let len := bitsOf w 0 14
    let hdr := bitsOf w 16 14
    let bit := fun k => bitOf (d.w0 32 32) k
    let src := Memory.read s.host.mem (d.le 8 8) len
    let h := parseWhole src
    let tagged := fun (g : List Byte) => if bit 20 then addVlan g (bitsOf w 32 16) else g
    (∀ n, Starts s i r 3 1 d → s.bound = true → d.good 0x1FFFFF allBits 0x0000FFFF3FFF3FFF 0 .none = true → 14 ≤ len → len ≤ 9212 →
      s.ethOf i r = some n →
      (s.portUp (s.queuePort n) = false → Refuses (.ethSend i r false) s i r d Status.linkFailed 0) ∧
      (s.portUp (s.queuePort n) = true → bit 16 = false → bit 17 = false → Does (.ethSend i r false) s (fun t =>
        (t.port (s.queuePort n)).waiting = (s.port (s.queuePort n)).waiting
            ++ [⟨n, some ⟨i, r, d.num⟩, pad60 (tagged (if bit 18 then fillSums src else src)), bit 19, Status.ok⟩]
          ∧ t.host.mem = s.host.mem ∧ { t with host := s.host, eth := s.eth } = s ∧ t.eth.keys = s.eth.keys)) ∧
      (∀ k x b, s.portUp (s.queuePort n) = true → bit 16 = false → bit 17 = true → h.ports.isSome = true → h.proto = 17 → hdr = h.l4At + 8 →
        s.unitOf i 4 (d.w0 32 16) = some k → s.engineUp = true → s.cutOff (Via.cipher true).gates = none → x = Tab.get FlowKey.init s.eth.keys k → x.label ≠ [] →
        s.sec.record = some b → Does (.ethSend i r false) s (fun t =>
          (t.port (s.queuePort n)).waiting = (s.port (s.queuePort n)).waiting
              ++ [⟨n, some ⟨i, r, d.num⟩, pad60 (tagged (fillSums (sealFrame (s.workingKey b x.label) x.sender x.counter src hdr))), bit 19, Status.ok⟩]
            ∧ Tab.get FlowKey.init t.eth.keys k = { x with counter := (x.counter + 1) % 2 ^ 64 } ∧ t.host.mem = s.host.mem))) ∧
    (∀ k, Starts s i r 3 2 d → s.bound = true → d.good 0xFFFF 0xFFFFFFFF 0 0 .required = true →
      s.checkLabel i [0x07] d.label = .good → s.unitOf i 4 (d.w0 32 16) = some k →
      Ends (.setFlowKey i r) s i r d Status.ok 0 (fun u =>
        Tab.get FlowKey.init u.eth.keys k = ⟨d.label, d.le 8 4, 0⟩ ∧ (∀ j, j ≠ k → Tab.get FlowKey.init u.eth.keys j = Tab.get FlowKey.init s.eth.keys j)
          ∧ u.eth.ports = s.eth.ports ∧ u.benches = s.benches)) ∧
    (s.portUp p = true → (s.port p).line = none → 0 ≤ s.nodeTokens (portKey p) →
      (∀ g rest, (s.port p).ahead = g :: rest → (s.port p).aheadAt ≤ s.now → Does (.txFrameStart p) s (fun t =>
        t.port p = { s.port p with
            ahead := rest, line := some ⟨8192, none, g, false, Status.ok⟩, lineAt := s.deviceTime
            aheadAt := s.now + (g.length + 4) * 800000 / max 1 (modeRate (s.fld (F.ethPortStatusMode p))) }
          ∧ { t with eth := s.eth } = s)) ∧
      (∀ f, ((s.port p).ahead = [] ∨ s.now < (s.port p).aheadAt) → s.heads p = [f] → Does (.txFrameStart p) s (fun t =>
        (t.port p).line = some f ∧ (t.port p).waiting = (s.port p).waiting.erase f ∧ (t.port p).lineAt = s.deviceTime
          ∧ { t with eth := s.eth, rma := s.rma } = s)) ∧
      (((s.port p).ahead = [] ∨ s.now < (s.port p).aheadAt) → s.heads p = [] → Does (.txFrameStart p) s (fun t => t = s))) ∧
    (∀ f, (s.port p).line = some f → Does (.frameTransmitted p) s (fun t => ∃ u : State,
      u.out = s.out ++ [.frame p f.bytes] ∧ u.port p = { s.port p with line := none } ∧ { u with eth := s.eth, out := s.out } = s
        ∧ (f.op = none → t = u)
        ∧ ∀ o, f.op = some o → t = u.complete o f.status (if f.stamp && f.status == Status.ok then (s.port p).lineAt else 0)))

open Sys2Proof Sys2Proof.Machine Sys2Proof.Say in
/-- 15_ethernet.md R410, R411, R413, R414, R422, R423: a port comes up in the best common mode, and loses its frames when it goes
down; the third loss of lock within an hour maps a lane out; a rule set is checked, then switched between two frames, and its
version counts. -/
def Obligations.ports_and_rule_sets : Prop :=
  ∀ (s : State) (p : PortId) (modes : BitVec 4) (lane : BitVec 2),
    (s.portUp p = false → s.flag (F.ethPortCfgEnable p) = true → s.ownMode p ≠ 0 →
      (∀ m, (s.flag (F.ethPortCfgAutoneg p) = false ∧ m = s.ownMode p
          ∨ s.flag (F.ethPortCfgAutoneg p) = true ∧ m ≤ s.ownMode p ∧ 1 ≤ m ∧ m ≤ 3 ∧ bitOf modes.toNat m = true
            ∧ ∀ k, m < k → k ≤ s.ownMode p → bitOf modes.toNat k = false) → m < 4 →
        Does (.portUp p modes) s (fun t => t.portUp p = true ∧ t.fld (F.ethPortStatusMode p) = m ∧ t.eth = s.eth ∧ t.benches = s.benches)) ∧
      (s.flag (F.ethPortCfgAutoneg p) = true → (∀ m, 1 ≤ m → m ≤ s.ownMode p → bitOf modes.toNat m = false) →
        Does (.portUp p modes) s (fun t => t = s.wrapAdd (F.ethPortStatusAnFail p) 1))) ∧
    (s.portUp p = true → Does (.portUp p modes) s (fun t => t = s)) ∧
    (s.portUp p = true → Does (.portDown p) s (fun t =>
      t.portUp p = false ∧ t.fld (F.ethPortStatusMode p) = 0 ∧ t.port p = { s.port p with ahead := [], waiting := [], line := none }
        ∧ (∀ j, j ≠ (p : Nat) → t.port j = s.port j) ∧ t.eth.keys = s.eth.keys ∧ t.benches = s.benches ∧ t.mems = s.mems)) ∧
    (s.portUp p = false → Does (.portDown p) s (fun t => t = s)) ∧
    (bitOf (s.portLanes p) lane.toNat = true →
      (let recent := (Tab.get [] (s.port p).lockTimes lane.toNat).filter (fun x => decide (s.now ≤ x + 3600000000000))
       Does (.laneLossOfLock p lane) s (fun t =>
        Tab.get [] (t.port p).lockTimes lane.toNat = s.now :: recent
          ∧ (recent.length < 2 → { t with eth := s.eth } = s)
          ∧ (2 ≤ recent.length → bitOf (t.port p).failed lane.toNat = true
              ∧ t.fld (F.ethLaneCtrlMapOut p) = s.fld (F.ethLaneCtrlMapOut p) ∧ bitOf (t.portLanes p) lane.toNat = false
              ∧ t.portUp p = false)))) ∧
    (let a := s.fld (F.ethRsAddrLoAddr p) + s.fld (F.ethRsAddrHiAddr p) * 2 ^ 32
     let head := Memory.read s.host.mem a 0x240
     let rs := if ruleCount head ≤ 4096 then head ++ Memory.read s.host.mem (a + 0x240) (64 * ruleCount head) else head
     s.flag (F.ethRsStatusBusy p) = true → (s.port p).next = none → s.dmaOk 0 = true →
      (s.goodRules p rs = true → Does (.ruleSetCommit p) s (fun t =>
        t.port p = { s.port p with next := some rs } ∧ (∀ j, j ≠ (p : Nat) → t.port j = s.port j) ∧ { t with eth := s.eth } = s)) ∧
      (s.goodRules p rs = false → Does (.ruleSetCommit p) s (fun t =>
        t.flag (F.ethRsStatusBusy p) = false ∧ t.fld (F.ethRsStatusResult p) = Status.badDescriptor ∧ { t with regs := s.regs } = s))) ∧
    (∀ rs, (s.port p).next = some rs → Does (.ruleSetSwitch p) s (fun t =>
      t.port p = { s.port p with rules := rs, next := none } ∧ t.flag (F.ethRsStatusBusy p) = false
        ∧ t.fld (F.ethRsStatusResult p) = Status.ok
        ∧ t.fld (F.ethRsStatusVersion p) = (s.fld (F.ethRsStatusVersion p) + 1) % 2 ^ (F.ethRsStatusVersion p).width
        ∧ (∀ j, j ≠ (p : Nat) → t.port j = s.port j) ∧ { t with eth := s.eth, regs := s.regs } = s)) ∧
    ((s.port p).next = none → Does (.ruleSetSwitch p) s (fun t => t = s))

/-- Ring r of function i belongs to queue pair n, and its next operation is d. -/
abbrev Sys2Proof.Say.Work (s : Sys2Proof.Machine.State) (i r opcode n : Nat) (d : Sys2Proof.Machine.Desc) : Prop :=
  Sys2Proof.Say.Starts s i r 5 opcode d ∧ s.qpOf i r = some n ∧ n < 2048

/-- A WRITE (kind 1) or READ (kind 2) waits behind the others of its queue pair with the next PSNs. -/
def Sys2Proof.Say.Queues (c : Sys2Proof.Instr) (s : Sys2Proof.Machine.State) (i r n kind : Nat) (d : Sys2Proof.Machine.Desc)
    (data : List Sys2Proof.Byte) : Prop :=
  open Sys2Proof Sys2Proof.Machine Sys2Proof.Say in
  let x := s.qp n
  let len := d.le 28 4
  s.bound = true → d.good 0x10000 allBits allBits allBits .none = true → len ≠ 0 → len ≤ 2 ^ 31 → bitOf (d.w0 32 32) 16 = false →
    (s.qpState n = 2 ∨ s.qpState n = 3) → Does c s (fun t =>
      (t.qp n).wqes = x.wqes ++ [⟨some ⟨i, r, d.num⟩, kind, x.txPsn, x.packets len, false, d.le 8 8, d.le 16 8, d.le 24 4, len, data, false, 0, false, none⟩]
        ∧ (t.qp n).txPsn = (x.txPsn + x.packets len) % 2 ^ 24 ∧ (t.qp n).una = x.una ∧ (t.qp n).rxPsn = x.rxPsn
        ∧ (s.qpState n = 2 → t.eth = s.eth) ∧ (∀ m, m ≠ n → t.qp m = s.qp m) ∧ t.host.mem = s.host.mem ∧ t.mems = s.mems
        ∧ t.benches = s.benches)

open Sys2Proof Sys2Proof.Machine Sys2Proof.Say in
/-- 16_rdma.md R439 to R446, R452: work requests take their PSNs and wait or start; one for a queue pair in ERROR, INIT or RESET
is refused, in its turn; a sealed queue pair needs the cipher engine (10_tenancy.md R301); QP_MODIFY makes the transitions of the table and
refuses the others; registrations come and go; a label seals. BAD_DESCRIPTOR for a WRITE in RESET or INIT and for a DEREG of an unknown
rkey is the model's reading (log 21), the port rate while the port is down its choice (log 30). -/
def Obligations.queue_pairs_and_registrations : Prop :=
  ∀ (s : State) (i : FnId) (r : RingId) (n : Nat) (d : Desc) (q : QpId) (mm : Bool),
    let x := s.qp n
    let o : OpRef := ⟨i, r, d.num⟩
    let target := d.w0 32 3
    (x.sealing = none ∨ (s.engineUp = true ∧ mm = false ∧ s.cutOff (Via.cipher true).gates = none) →
      (Work s i r 1 n d → Queues (.rmaWrite i r mm) s i r n 1 d (Memory.read s.host.mem (d.le 8 8) (d.le 28 4)))
      ∧ (Work s i r 2 n d → s.readsInFlight n < 16 → Queues (.rmaRead i r mm) s i r n 2 d [])) ∧
    (Work s i r 1 n d → s.bound = true → d.good 0x10000 allBits allBits allBits .none = true → d.le 28 4 ≠ 0 → d.le 28 4 ≤ 2 ^ 31 →
      bitOf (d.w0 32 32) 16 = false → (s.qpState n = 2 ∨ s.qpState n = 3) → x.sealing.isSome = true → s.engineUp = false →
      (x.wqes = [] → Refuses (.rmaWrite i r mm) s i r d Status.internal 0)
      ∧ (x.wqes ≠ [] → Does (.rmaWrite i r mm) s (fun t => t.qp n = { x with
          wqes := x.wqes ++ [⟨some o, 0, x.txPsn, 0, false, 0, 0, 0, 0, [], false, 0, false, some Status.internal⟩] }
        ∧ (∀ m, m ≠ n → t.qp m = s.qp m) ∧ t.host.mem = s.host.mem ∧ t.mems = s.mems ∧ t.eth = s.eth))) ∧
    (s.qpOf i r = some n → 16 ≤ s.readsInFlight n → Does (.rmaRead i r mm) s (fun t => t = s)) ∧
    (Work s i r 1 n d → s.bound = true → d.good 0x10000 allBits allBits allBits .none = true → d.le 28 4 ≠ 0 → d.le 28 4 ≤ 2 ^ 31 →
      (s.qpState n = 4 → Refuses (.rmaWrite i r mm) s i r d Status.queueReset 0)
      ∧ (s.qpState n < 2 → Refuses (.rmaWrite i r mm) s i r d Status.badDescriptor 0)) ∧
    (Work s i r 0x10 n d → d.good 7 0 0 0 .none = true →
      (target = 0 → Ends (.qpModify i r) s i r d Status.ok 0 (fun u => u.qpState n = 0 ∧ u.qp n = Qp.init ∧ ∀ m, m ≠ n → u.qp m = s.qp m))
      ∧ (target = 1 → s.qpState n = 0 → Ends (.qpModify i r) s i r d Status.ok 0 (fun u =>
          u.qpState n = 1 ∧ u.rma = s.rma ∧ { u with host := s.host, regs := s.regs } = s))
      ∧ (target = 4 → Ends (.qpModify i r) s i r d Status.ok 0 (fun u =>
          u.qpState n = 4 ∧ (u.qp n).wqes = [] ∧ (u.qp n).msg = none ∧ ∀ m, m ≠ n → u.qp m = s.qp m))
      ∧ (target = 1 → s.qpState n ≠ 0 → Refuses (.qpModify i r) s i r d Status.badDescriptor 0)) ∧
    (Work s i r 0x10 n d → target = 2 → s.qpState n = 1 → x.resolving = none → d.good 0xF7 0x00FFFFFF3FFFFFFF allBits allBits .none = true →
      3 ≤ d.w0 37 3 → d.w0 37 3 ≤ 5 → (d.w0 36 1 ≠ 1 → d.le 20 4 = 0 ∧ d.le 24 8 = 0) → 128 * 2 ^ d.w0 37 3 + 130 ≤ s.fld (F.ethPortCfgMaxFrame (s.qpPort n)) →
      Does (.qpModify i r) s (fun t =>
        t.qp n = { x with ipv6 := d.w0 36 1 == 1, mtu := d.w0 37 3, peerQp := d.le 8 3, dscp := bitsOf (d.le 11 1) 0 6, rxPsn := d.le 12 3, peerIp := if d.w0 36 1 = 1 then bytesAt d.bytes 16 16 else (bytesAt d.bytes 16 16).take 4, txPsn := 0, una := 0, resolving := some o, peerMac := none }
          ∧ t.qpState n = 1 ∧ t.mems = s.mems)) ∧
    (Work s i r 0x10 n d → target = 3 → s.qpState n = 2 → d.good 0xFF07 0xFFFFFF 0 0 .none = true → 8 ≤ d.w0 43 5 → d.w0 43 5 ≤ 16 →
      Does (.qpModify i r) s (fun t => t.qpState n = 3 ∧ (t.qp n).una = d.le 8 3 ∧ (t.qp n).txPsn = (x.txPsn + d.le 8 3) % 2 ^ 24
        ∧ (t.qp n).retryCount = d.w0 40 3 ∧ (t.qp n).timeout = d.w0 43 5 ∧ t.fld (F.rmaQpStatusRetries n) = 0
        ∧ (t.qp n).rc = s.boundRate n (s.portRate (s.qpPort n) : Nat))) ∧
    (Work s i r 0x10 n d → target = 3 → s.qpState n ≠ 2 → Refuses (.qpModify i r) s i r d Status.badDescriptor 0) ∧
    (∀ o, (s.qp q).resolving = some o → Does (.peerResolveTimeout q) s (fun t => ∃ u : State, (u.qp q).resolving = none
      ∧ { u with rma := s.rma } = s ∧ u.qpState q = s.qpState q ∧ t = u.complete o Status.linkFailed 0)) ∧
    (∀ u off k, Work s i r 0x11 n d → s.bound = true → d.good 3 allBits allBits 0 .none = true → d.le 8 8 % 4096 = 0 → d.le 16 8 % 4096 = 0 →
      d.le 16 8 ≠ 0 → d.le 16 8 ≤ 2 ^ 36 → devAddr (d.le 8 8) = some (u, off) → off + d.le 16 8 ≤ (if isHbm u then 2 ^ 36 else 2 ^ 31) →
      (∀ g, g < ceilDiv (off % 65536 + d.le 16 8) 65536 → ∃ p, (s.granule u (off / 65536 + g)).owner = some p ∧ (s.part p).owner = some (i : Nat)) →
      k < 16384 → (Tab.get Registration.init s.rma.regs k).len = 0 → (∀ j, j < k → (Tab.get Registration.init s.rma.regs j).len ≠ 0) →
      ∃ check, check < 2 ^ 18 ∧ Ends (.reg i r) s i r d Status.ok (k + check * 2 ^ 14) (fun v =>
        v.registration (k + check * 2 ^ 14) = some ⟨i, d.le 8 8, d.le 16 8, d.w0 32 1 == 1, d.w0 33 1 == 1, check⟩
          ∧ v.rma.qps = s.rma.qps ∧ ∀ j, j ≠ k → Tab.get Registration.init v.rma.regs j = Tab.get Registration.init s.rma.regs j)) ∧
    (∀ y, Work s i r 0x12 n d → s.registration (d.le 8 4) = some y → y.inst = (i : Nat) → d.good 0 0xFFFFFFFF 0 0 .none = true →
      Ends (.dereg i r) s i r d Status.ok 0 (fun v => v.registration (d.le 8 4) = none ∧ v.rma.qps = s.rma.qps
        ∧ ∀ j, j ≠ d.le 8 4 % 2 ^ 14 → Tab.get Registration.init v.rma.regs j = Tab.get Registration.init s.rma.regs j)) ∧
    (Work s i r 0x12 n d → s.registration (d.le 8 4) = none → Refuses (.dereg i r) s i r d Status.badDescriptor 0) ∧
    (Work s i r 0x13 n d → s.bound = true → d.good 0 allBits 0 0 .required = true → s.qpState n = 1 → s.checkLabel i [0x08] d.label = .good →
      Ends (.qpSeal i r) s i r d Status.ok 0 (fun u => u.qp n = { x with sealing := some (d.label, d.le 8 4, d.le 12 4), sealCtr := 0 }
        ∧ u.flag (F.rmaQpStatusSealed n) = true ∧ u.qpState n = 1)) ∧
    (Work s i r 0x13 n d → s.bound = true → s.qpState n ≠ 1 → Refuses (.qpSeal i r) s i r d Status.badDescriptor 0) ∧
    (∀ sq k, Work s i r 0x14 n d → s.bound = true → d.good 0xFFFFF allBits 0 0xFFFFFFFF .none = true → 4 ≤ d.w0 48 4 → d.w0 48 4 ≤ 12 →
      s.unitOf i 1 (d.w0 32 16) = some sq → k < 16384 → (Tab.get Registration.init s.rma.regs k).len = 0 →
      (∀ j, j < k → (Tab.get Registration.init s.rma.regs j).len ≠ 0) →
      ∃ check, Ends (.attach i r) s i r d Status.ok (k + check * 2 ^ 14) (fun u =>
        (u.qp n).attach = some ⟨sq, d.w0 48 4, d.le 8 8, d.le 24 4, k + check * 2 ^ 14, [], 0, 0, 0, 0, []⟩ ∧ ∀ m, m ≠ n → u.qp m = s.qp m))

/-- Packet p0 reaches queue pair n in state s0: a rule has handed its frame over, its ICRC is right, n is in RTR or RTS, its seal
opens, and it is not marked CE (15_ethernet.md R421; 16_rdma.md R437, R447, R452). What is left is packet p and state s. -/
abbrev Sys2Proof.Say.Arrives (s0 : Sys2Proof.Machine.State) (p0 : Sys2Proof.RocePkt) (s : Sys2Proof.Machine.State)
    (p : Sys2Proof.RocePkt) (n : Nat) : Prop :=
  ∃ s1, s0.takeRma p0 = some s1 ∧ p0.icrcOk = true ∧ p0.qp.toNat = n ∧ n ≠ 1 ∧ n < 2048 ∧ (s1.qpHolder n).isSome = true
    ∧ (s1.qpState n = 2 ∨ s1.qpState n = 3) ∧ ((s1.qp n).sealing = none ∨ (s1.engineUp = true ∧ p0.mismatch = false))
    ∧ s1.openSeal n p0 = (some p, s) ∧ p0.ce = false

open Sys2Proof Sys2Proof.Machine Sys2Proof.Say in
/-- 16_rdma.md R437, R445, R447 to R450, R453: what a peer's packets do. A packet that fails its ICRC is only counted; a WRITE in
its turn stores its payload and advances the PSN; a repeated one stores nothing; one that a check refuses ends the queue pair
and stores nothing; a READ is served; its responses go to local memory, or to the RESTORE that asked (20_checkpoint.md R520); acknowledges free, NAKs end or go back; CNPs slow. When a
peer's READ ceases to be in flight is the model's reading (log 27). -/
def Obligations.packets_of_peers : Prop :=
  ∀ (s0 s : State) (p0 p : RocePkt) (n : Nat),
    let x := s.qp n
    let psn := p.psn.toNat
    let op := p.opcode.toNat
    let i := ((s.qpHolder n).getD (0, 0)).1
    let k := p.payload.length
    let c := p0.opcode.toNat
    (s0.takeRma p0 = none →
      (isWriteOp c = true → Does (.rdmaWritePacket p0) s0 (fun t => t = s0))
      ∧ (c = 0x0C → Does (.rdmaReadRequest p0) s0 (fun t => t = s0)) ∧ (c = 0x10 → Does (.rdmaReadResponse p0) s0 (fun t => t = s0))
      ∧ (c = 0x11 → Does (.acknowledge p0) s0 (fun t => t = s0) ∧ Does (.nakReceived p0) s0 (fun t => t = s0))
      ∧ (c = 0x81 → Does (.cnpReceived p0) s0 (fun t => t = s0))) ∧
    (s0.takeRma p0 = some s → p0.icrcOk = false →
      (isWriteOp c = true → Does (.rdmaWritePacket p0) s0 (fun t => t = s.count F.rmaRxDropIcrc 1))
      ∧ (c = 0x0C → Does (.rdmaReadRequest p0) s0 (fun t => t = s.count F.rmaRxDropIcrc 1))
      ∧ (c = 0x10 → Does (.rdmaReadResponse p0) s0 (fun t => t = s.count F.rmaRxDropIcrc 1))
      ∧ (c = 0x81 → Does (.cnpReceived p0) s0 (fun t => t = s.count F.rmaRxDropIcrc 1))) ∧
    (∀ label a b r, s0.takeRma p0 = some s → p0.icrcOk = true → p0.qp.toNat = n → n ≠ 1 → n < 2048 → (s.qpHolder n).isSome = true →
      (s.qpState n = 2 ∨ s.qpState n = 3) → x.sealing = some (label, a, b) → s.sec.record = some r → s.engineUp = true →
      p0.mismatch = false → p0.sender.toNat ≠ b → isWriteOp c = true →
      Does (.rdmaWritePacket p0) s0 (fun t => t = s.count F.rmaRxDrop2Integ 1)) ∧
    (Arrives s0 p0 s p n → op = 10 → psn = x.rxPsn → x.msg = none → (∀ m, (s.qp m).attach = none) → p.len.toNat = k → k ≠ 0 → k ≤ x.mtuBytes →
      s.peerCheck i true p.rkey.toNat p.va.toNat k = none → s.runServed (.inst i) true p.va.toNat k = true → s.addrFenced p.va.toNat k = false →
      (∀ u : State, { u with rma := s.rma } = s → (u.devWrite (.cipher x.sealing.isSome) (.inst i) p.va.toNat p.payload).1.integrity = false) → Does (.rdmaWritePacket p0) s0 (fun t =>
        (∃ u : State, { u with rma := s.rma } = s ∧ t.mems = (u.devWrite (.cipher x.sealing.isSome) (.inst i) p.va.toNat p.payload).2.mems)
          ∧ (t.qp n).rxPsn = (x.rxPsn + 1) % 2 ^ 24 ∧ (t.qp n).msn = (x.msn + 1) % 2 ^ 24 ∧ (t.qp n).msg = none
          ∧ t.qpState n = s.qpState n ∧ (∀ m, m ≠ n → t.qp m = s.qp m) ∧ t.host = s.host ∧ t.benches = s.benches)) ∧
    (Arrives s0 p0 s p n → isWriteOp op = true → psn ≠ x.rxPsn → Does (.rdmaWritePacket p0) s0 (fun t =>
      t.mems = s.mems ∧ t.host = s.host ∧ (t.qp n).rxPsn = x.rxPsn ∧ t.qpState n = s.qpState n
        ∧ (2 ^ 23 < psnDiff x.rxPsn psn → (t.qp n).nakSent = true))) ∧
    (Arrives s0 p0 s p n → op = 10 → psn = x.rxPsn → x.msg = none → p.len.toNat = k → k ≠ 0 → k ≤ x.mtuBytes → s.registration p.rkey.toNat = none →
      Does (.rdmaWritePacket p0) s0 (fun t => t.qpState n = 4 ∧ (t.qp n).wqes = [] ∧ t.mems = s.mems)) ∧
    (Arrives s0 p0 s p n → op = 0x0C → psn = x.rxPsn → p.len.toNat ≠ 0 → p.len.toNat ≤ 2 ^ 31 → s.readsServed n < 16 →
      s.peerCheck i false p.rkey.toNat p.va.toNat p.len.toNat = none → s.runServed (.inst i) false p.va.toNat p.len.toNat = true →
      s.addrFenced p.va.toNat p.len.toNat = false →
      (∀ u : State, { u with rma := s.rma } = s → (u.devRead (.cipher x.sealing.isSome) (.inst i) p.va.toNat p.len.toNat).2.1.integrity = false) →
      Does (.rdmaReadRequest p0) s0 (fun t => (t.qp n).rxPsn = (x.rxPsn + x.packets p.len.toNat) % 2 ^ 24
        ∧ (t.qp n).msn = (x.msn + 1) % 2 ^ 24 ∧ (t.qp n).wqes = x.wqes ∧ t.qpState n = s.qpState n ∧ (∀ m, m ≠ n → t.qp m = s.qp m)
        ∧ t.host = s.host)) ∧
    (Arrives s0 p0 s p n → op = 0x0C → psn = x.rxPsn → 16 ≤ s.readsServed n → Does (.rdmaReadRequest p0) s0 (fun t =>
      t.qpState n = 4 ∧ (t.qp n).wqes = [] ∧ t.mems = s.mems)) ∧
    (∀ w, Arrives s0 p0 s p n → (op = 0x0D ∨ op = 0x0E ∨ op = 0x0F ∨ op = 0x10) → s.openRead n = some w → s.qpState n = 3 →
      psn = (w.psn + w.got / x.mtuBytes) % 2 ^ 24 → k = min x.mtuBytes (w.len - w.got) → w.kind = 2 → w.devmem = false → s.dmaOk i = true →
      s.cutOff (Via.cipher x.sealing.isSome).gates = none → s.run.take = none → s.restores = [] →
      Does (.rdmaReadResponse p0) s0 (fun t => Memory.read t.host.mem (w.laddr + w.got) k = p.payload
        ∧ HostOutside s (w.laddr + w.got) k t ∧ t.mems = s.mems ∧ t.qpState n = 3)) ∧
    (∀ w y b, Arrives s0 p0 s p n → (op = 0x0D ∨ op = 0x0E ∨ op = 0x0F ∨ op = 0x10) → x.wqes = [w] → w.kind = 5 → w.refused = none →
      w.op = some y.op → s.qpState n = 3 → psn = (w.psn + w.got / x.mtuBytes) % 2 ^ 24 → k = min x.mtuBytes (w.len - w.got) → w.got + k < w.len →
      s.run.take = none → s.restores = [y] → y.todo = [] → y.failed = none → n ∈ y.qps → s.outstanding y.op = true → s.sec.record = some b →
      Does (.rdmaReadResponse p0) s0 (fun t => t.restores = [{ y with buf := Memory.write y.buf (w.laddr + w.got) p.payload }]
        ∧ t.host.mem = s.host.mem ∧ t.mems = s.mems ∧ t.qpState n = 3)) ∧
    (∀ w o, Arrives s0 p0 s p n → op = 0x11 → p.syndrome.toNat < 0x20 → s.qpState n = 3 → x.attach = none → x.wqes = [w] → w.kind = 1 → w.refused = none → w.op = some o →
      s.run.take = none → s.restores = [] →
      (let next := (psn + 1) % 2 ^ 24
       psnAtOrAfter next x.una = true → next ≠ x.una → psnAtOrAfter x.txPsn next = true → psnAtOrAfter next w.psn = true → w.pkts ≤ psnDiff next w.psn →
        Does (.acknowledge p0) s0 (fun t => (t.qp n).una = next ∧ (t.qp n).wqes = [] ∧ t.fld (F.rmaQpStatusRetries n) = 0
          ∧ t.qpState n = 3 ∧ t.mems = s.mems ∧ ∃ u : State, t = u.complete o (if w.spoilt || w.bad then Status.integrity else Status.ok) 0))) ∧
    (∀ w, Arrives s0 p0 s p n → op = 0x11 → 0x61 ≤ p.syndrome.toNat → p.syndrome.toNat ≤ 0x63 → s.qpState n = 3 → s.run.take = none → s.restores = [] → x.wqes = [w] →
      psn = w.psn → 0 < w.pkts → Does (.nakReceived p0) s0 (fun t =>
        t.qpState n = 4 ∧ (t.qp n).wqes = [] ∧ t.fld (F.rmaQpStatusLastNak n) = p.syndrome.toNat ∧ t.mems = s.mems)) ∧
    (Arrives s0 p0 s p n → op = 0x11 → p.syndrome.toNat = 0x60 → s.qpState n = 3 → s.run.take = none → s.restores = [] → Does (.nakReceived p0) s0 (fun t =>
      t.qpState n = 3 ∧ t.fld (F.rmaQpStatusLastNak n) = 0x60 ∧ t.mems = s.mems)) ∧
    (Arrives s0 p0 s p n → op = 0x81 → Does (.cnpReceived p0) s0 (fun t =>
      (t.qp n).frac = x.frac * 255 / 256 + 1 / 256 ∧ (t.qp n).incs = 0 ∧ (t.qp n).rc = s.boundRate n (x.rc * (1 - x.frac / 2))
        ∧ (t.qp n).rt = s.boundRate n x.rc ∧ (t.qp n).wqes = x.wqes ∧ { t with rma := s.rma, regs := s.regs } = s))

open Sys2Proof Sys2Proof.Machine Sys2Proof.Say in
/-- 16_rdma.md R450, R451, R453: a retransmission counts until the budget of expiries is used, then the queue pair ends; the
rate timers. -/
def Obligations.timers_of_queue_pairs : Prop :=
  ∀ (s : State) (q : QpId),
    let x := s.qp q
    (s.qpState q = 3 → x.wqes ≠ [] → s.run.take = none → s.restores = [] →
      (s.fld (F.rmaQpStatusRetries q) < x.retryCount → (x.sealing = none ∨ s.engineUp = true) → Does (.retransmitTimeout q) s (fun t =>
        t.fld (F.rmaQpStatusRetries q) = (s.fld (F.rmaQpStatusRetries q) + 1) % 2 ^ 4 ∧ t.qpState q = 3 ∧ (t.qp q).wqes = x.wqes
          ∧ (t.qp q).una = x.una ∧ t.host = s.host ∧ t.mems = s.mems))
      ∧ (x.retryCount ≤ s.fld (F.rmaQpStatusRetries q) → Does (.retransmitTimeout q) s (fun t =>
        t.qpState q = 4 ∧ (t.qp q).wqes = [] ∧ t.fld (F.rmaQpStatusRetries q) = (s.fld (F.rmaQpStatusRetries q) + 1) % 2 ^ 4 ∧ t.mems = s.mems))) ∧
    (s.qpState q ≠ 3 → Does (.retransmitTimeout q) s (fun t => t = s)) ∧
    (s.qpState q = 3 → Does (.rateDecayTimer q) s (fun t =>
      t.qp q = { x with frac := x.frac * 255 / 256 } ∧ (∀ m, m ≠ (q : Nat) → t.qp m = s.qp m) ∧ { t with rma := s.rma } = s)) ∧
    (s.qpState q = 3 → Does (.rateIncreaseTimer q) s (fun t =>
      let rt : Rat := if 5 < x.incs + 1 then x.rt + (s.fld F.rmaCcAiMbps : Nat) else x.rt
      (t.qp q).incs = x.incs + 1 ∧ (t.qp q).rc = s.boundRate q ((x.rc + rt) / 2) ∧ (t.qp q).rt = s.boundRate q rt
        ∧ (t.qp q).frac = x.frac ∧ (t.qp q).wqes = x.wqes ∧ { t with rma := s.rma, regs := s.regs } = s))

open Sys2Proof Sys2Proof.Machine Sys2Proof.Say in
/-- 17_time.md R458 to R464, R466: what the references do. A Sync that a rule has handed over is a good interval and, while the
source is selected, one of the last 16 measurements, by which the servo steers device time; PPS_IN gives phase only. A qualified
first source is selected, and a small offset is slewed, a large one stepped; an Announce gives the UTC offset and its port's data
set, by which the slave port and so the source may change; a selected source that is lost gives way to the next or to HOLDOVER,
which keeps the frequency of the last 64 s and ends in FREERUN. The servo's course and the choice of the slave port are the model's
(log 29), as are the UTC offset taken from any port while none is selected (log 21), and the tolerance of PPS_IN and the sign of an offset
(log 22). -/
def Obligations.references_select_slew_and_hold_over : Prop :=
  ∀ (s s1 : State) (p : PortId) (msg : List Byte) (d : Int) (src : RefSource),
    let c := refCode src
    let x := s.tim
    let ref := s.fld F.timStatusRef
    let measured : State → Nat → Int → State → Prop := fun s k d t =>
      (s.fld F.timStatusState = TimeState.locked → s.fld F.timStatusRef = k →
        t.tim.offsets = (d.natAbs :: x.offsets).take 16 ∧ (x.slew = 0 → x.step = none → t.tim.servo = d) ∧ t.fld F.timErrorNs = t.errorNow)
      ∧ (s.fld F.timStatusRef ≠ k → t.tim.offsets = x.offsets ∧ t.tim.servo = x.servo ∧ t.regs = s.regs)
      ∧ (∀ j, j ≠ k → Tab.get 0 t.tim.good j = Tab.get 0 x.good j) ∧ { t with tim := s.tim, regs := s.regs } = s
    let chosen : State → Nat → Int → State → Prop := fun s k d t =>
      t.fld F.timStatusState = TimeState.locked ∧ t.fld F.timStatusRef = k ∧ t.flag F.timStatusHolding = false ∧ t.tim.offsets = [d.natAbs]
        ∧ (d.natAbs ≤ 1000000 → t.tim.slew = d ∧ t.tim.step = none ∧ t.flag F.timStatusSlewing = (d != 0))
        ∧ (1000000 < d.natAbs → t.tim.slew = 0 ∧ t.tim.step = some d ∧ t.flag F.timStatusSlewing = false)
        ∧ t.tim.servo = 0 ∧ t.deviceTime = s.deviceTime ∧ { t with tim := s.tim, regs := s.regs } = s
    (s.takePtp ptpSyncType p = some (msg, s1) → Does (.ptpSync p d) s (fun t =>
      Tab.get 0 t.tim.good (ptpCode p) = min 4 (Tab.get 0 x.good (ptpCode p) + 1) ∧ Tab.get 0 t.tim.last (ptpCode p) = d
        ∧ measured s1 (ptpCode p) d t)) ∧
    (s.takePtp ptpSyncType p = none → Does (.ptpSync p d) s (fun t => t = s)) ∧
    (s.takePtp ptpAnnounceType p = none → Does (.ptpAnnounce p) s (fun t => t = s)) ∧
    (s.takePtp ptpAnnounceType p = some (msg, s1) →
      (let v : State := { s1 with tim := { x with sets := Tab.set [] x.sets p (announceSet msg) } }
       let mine := ref = ptpCode p ∨ ref = 0 ∨ ref = 3
       let u := if mine then v.setFld F.timUtcOffset (announceUtc msg) else v
       Does (.ptpAnnounce p) s (fun t => Tab.get [] t.tim.sets p = announceSet msg
        ∧ t.fld F.timUtcOffset = (if mine then announceUtc msg else s.fld F.timUtcOffset)
        ∧ { t with tim := s1.tim, regs := s1.regs } = s1
        ∧ (u.bestSource = ref → t.fld F.timStatusState = s.fld F.timStatusState ∧ t.fld F.timStatusRef = ref ∧ t.deviceTime = s.deviceTime)
        ∧ (u.bestSource ≠ ref → u.bestSource ≠ 0 → t.fld F.timStatusState = TimeState.locked ∧ t.fld F.timStatusRef = u.bestSource)
        ∧ (u.bestSource ≠ ref → u.bestSource = 0 → t.fld F.timStatusState = TimeState.holdover ∧ t.fld F.timStatusRef = 0)))) ∧
    (s.pins.aux = true → s.flag F.timCfgPpsIn = true → Does (.ppsInEdge d) s (fun t =>
      Tab.get 0 t.tim.good 3
          = (if Tab.get 0 x.good 3 ≠ 0 ∧ (wrapSecond (d - Tab.get 0 x.last 3)).natAbs ≤ 100000 then min 4 (Tab.get 0 x.good 3 + 1) else 1)
        ∧ Tab.get 0 t.tim.last 3 = s.offsetOf 3 d ∧ measured s 3 (s.offsetOf 3 d) t)) ∧
    ((s.offsetOf 3 d - d) % 1000000000 = 0) ∧
    (s.pins.aux = true → s.flag F.timCfgPpsIn = false → Does (.ppsInEdge d) s (fun t => t = s)) ∧
    (s.pins.aux = true → s.sourceOn c = true → 4 ≤ Tab.get 0 x.good c → c ∉ x.qualified →
      (let u : State := { s with tim := { x with qualified := insertNat c x.qualified } }
       (u.bestSource = c → Does (.referenceQualified src d) s (fun t => c ∈ t.tim.qualified ∧ chosen s c (u.offsetOf c d) t))
       ∧ (u.bestSource ≠ c → Does (.referenceQualified src d) s (fun t => t = u ∧ c ∈ t.tim.qualified)))) ∧
    (s.pins.aux = true → Tab.get 0 x.good c < 4 → Does (.referenceQualified src d) s (fun t => t = s)) ∧
    (s.pins.aux = true →
      (let u : State := { s with tim := { x with
         qualified := x.qualified.filter (· != c), good := Tab.set 0 x.good c 0
         sets := if c = 3 then x.sets else Tab.set [] x.sets (c - 1) [] } }
       (ref ≠ c → Does (.referenceLoss src) s (fun t => t = u))
       ∧ (ref = c → u.bestSource = 0 → Does (.referenceLoss src) s (fun t =>
          t.fld F.timStatusState = TimeState.holdover ∧ t.fld F.timStatusRef = 0 ∧ t.tim.since = s.now ∧ t.tim.e0 = s.fld F.timErrorNs
            ∧ t.tim.slew = 0 ∧ t.tim.step = none ∧ t.tim.servo = 0
            ∧ t.tim.freq = ((x.trims.filter (fun y => decide (s.now / 1000000000 < y.1 + 64))).map Prod.snd).foldl (· + ·) 0
            ∧ c ∉ t.tim.qualified ∧ t.deviceTime = s.deviceTime
            ∧ (x.held = true → t.fld F.timErrorNs = min (s.fld F.timErrorNs) 0xFFFFFFFE)))
       ∧ (∀ n, ref = c → u.bestSource = n → n ≠ 0 → Does (.referenceLoss src) s (fun t =>
          chosen s n (Tab.get 0 x.last n) t ∧ c ∉ t.tim.qualified)))) ∧
    (s.fld F.timStatusState = TimeState.holdover → Does .holdoverExpiry s (fun t =>
      t.fld F.timStatusState = TimeState.freerun ∧ t.now = max s.now (x.since + 86400 * 1000000000) ∧ t.benches = s.benches
        ∧ t.host = s.host)) ∧
    (s.fld F.timStatusState ≠ TimeState.holdover → Does .holdoverExpiry s (fun t => t = s))

/-- Device time runs at its own rate: it does not stand still, and nothing corrects it (17_time.md R458, R464). -/
abbrev Sys2Proof.Say.Steady (s : Sys2Proof.Machine.State) : Prop :=
  s.flag Sys2Proof.Machine.F.timStatusHolding = false ∧ s.tim.slew = 0
    ∧ (if s.fld Sys2Proof.Machine.F.timStatusState = Sys2Proof.Machine.TimeState.locked then s.tim.servo = 0 else s.tim.freq = 0)

open Sys2Proof Sys2Proof.Machine Sys2Proof.Say in
/-- 17_time.md R464, R466 to R468, R477: a second boundary of device time, its pulse and what it counts; a forward step arrives at
the reference's boundary where that comes first; the alarm of the real-time clock; an empty supercapacitor. That TIM_STEPS counts at the
begin of a step or stand-still, and the real-time clock's nominal rate, are the model's (log 22). -/
def Obligations.second_boundaries_and_the_real_time_clock : Prop :=
  ∀ s : State,
    let d := s.deviceTime
    let left := 1000000000 - d % 1000000000
    let pulse : List Out := if s.flag F.timCfgPpsOut then [.pin "PPS_OUT" true, .pin "PPS_OUT" false] else []
    (s.pins.aux = true → s.flag F.timStatusHolding = false → s.tim.step = none → Does .secondBoundary s (fun t =>
      t.deviceTime = (d / 1000000000 + 1) * 1000000000 % 2 ^ 64 ∧ (Steady s → t.now = s.now + left)
        ∧ t.out = s.out ++ pulse ∧ (s.railsGood = true → t.logCounter 0 = (s.logCounter 0 + 1) % 2 ^ 64 ∧ t.log.day.powered = s.log.day.powered + 1)
        ∧ (s.fld F.timStatusState = TimeState.locked →
            t.fld F.timRtcSeconds = t.deviceTime / 1000000000 % 2 ^ 32 ∧ t.flag F.timStatusRtcValid = true)
        ∧ t.benches = s.benches ∧ t.host = s.host)) ∧
    (∀ x : Int, s.pins.aux = true → s.flag F.timStatusHolding = false → s.tim.step = some x → 0 < x →
      (let first := 1000000000 - (d + x.toNat) % 1000000000
       (first ≤ left → Does .secondBoundary s (fun t =>
        t.deviceTime = ((d + x.toNat) / 1000000000 + 1) * 1000000000 % 2 ^ 64 ∧ t.now = s.now + first ∧ t.tim.step = none ∧ t.out = s.out
          ∧ t.fld F.timStepsCount = (s.fld F.timStepsCount + 1) % 2 ^ (F.timStepsCount).width))
       ∧ (left < first → Does .secondBoundary s (fun t =>
        t.deviceTime = (d / 1000000000 + 1) * 1000000000 % 2 ^ 64 ∧ t.tim.step = some x ∧ t.out = s.out ++ pulse
          ∧ t.fld F.timStepsCount = s.fld F.timStepsCount)))) ∧
    (∀ x : Int, s.pins.aux = true → s.flag F.timStatusHolding = false → s.tim.step = some x → x ≤ 0 → Does .secondBoundary s (fun t =>
      t.deviceTime = (d / 1000000000 + 1) * 1000000000 % 2 ^ 64 ∧ t.flag F.timStatusHolding = true ∧ t.out = s.out
        ∧ t.fld F.timStepsCount = (s.fld F.timStepsCount + 1) % 2 ^ (F.timStepsCount).width)) ∧
    (s.pins.aux = false → Does .secondBoundary s (fun t => t = s)) ∧
    (let alarm := s.fld F.timRtcAlarmSeconds
     let now := s.fld F.timRtcSeconds
     s.pins.aux = true → alarm ≠ 0 →
      (now ≤ alarm → s.tim.rtcFrac < 1000000000 → Does .rtcAlarm s (fun t =>
        t.fld F.timRtcSeconds = alarm ∧ t.flag F.hifWakeCauseRtcAlarm = true
          ∧ t.now = s.now + (if now < alarm then (alarm - now) * 1000000000 - s.tim.rtcFrac else 0)))
      ∧ (alarm < now → Does .rtcAlarm s (fun t => t = s))) ∧
    (Does .supercapEmpty s (fun t => t.fld F.timRtcSeconds = 0 ∧ t.flag F.timStatusRtcValid = false ∧ t.tim = { s.tim with rtcFrac := 0 }
      ∧ { t with tim := s.tim, regs := s.regs } = s ∧ t.deviceTime = s.deviceTime))

open Sys2Proof Sys2Proof.Machine Sys2Proof.Say in
/-- 17_time.md R469 to R471, R474, R476 to R478: a sample shows in its register and sets or clears the flags of its thresholds; the
hourly save writes the older copy of the counters with the next sequence number; a day closes; the manager's copy lies at its
address. -/
def Obligations.sensors_and_the_lifetime_log : Prop :=
  ∀ s : State,
    let a := s.fld F.tlmLogAddrLoAddr + s.fld F.tlmLogAddrHiAddr * 2 ^ 32
    let value : Nat → List Int → Option Int := fun n vals => if 5 ≤ n ∧ n ≤ 16 then some ↑(s.fld (F.memTempCurrent (n - 5))) else vals[n]?
    (∀ vals n, s.pins.aux = true → n < 25 → Does (.sensorSample vals) s (fun t =>
      (∀ v, value n vals = some v →
        t.fld (F.tlmSensorValue n) = unsigned 24 v
          ∧ t.flag (F.tlmSensorCrit n) = ((past n v (s.fld (F.tlmThreshCrit n)) || s.flag (F.tlmSensorCrit n)) && !(returned n v (s.fld (F.tlmThreshWarn n))))
          ∧ (returned n v (s.fld (F.tlmThreshWarn n)) = false →
              t.flag (F.tlmSensorWarn n) = (past n v (s.fld (F.tlmThreshWarn n)) || s.flag (F.tlmSensorWarn n))))
        ∧ (value n vals = none → t.fld (F.tlmSensorValue n) = s.fld (F.tlmSensorValue n))
        ∧ t.benches = s.benches ∧ t.mems = s.mems ∧ t.parts = s.parts)) ∧
    (∀ vals, s.pins.aux = false → Does (.sensorSample vals) s (fun t => t = s)) ∧
    (s.pins.aux = true → Does .hourlySave s (fun t =>
      let seq := s.log.saved + 1
      Memory.read t.fw.flash (copyAt seq) 180 = s.counterBytes seq ∧ t.log = { s.log with saved := seq }
        ∧ Memory.read t.fw.flash (copyAt (seq + 1)) 180 = Memory.read s.fw.flash (copyAt (seq + 1)) 180
        ∧ Memory.read t.fw.flash (logBase + 0x50000 + 64 * (s.log.days % 11264)) 64 = s.log.day.record
        ∧ { t with fw := s.fw, log := s.log, cores := s.cores } = s ∧ { t.fw with flash := s.fw.flash } = s.fw)) ∧
    (s.pins.aux = true → s.log.day.number < s.deviceTime / dayNs → Does .dayBoundary s (fun t =>
      t.now = s.now ∧ t.log.days = s.log.days + 1 ∧ t.log.day = { Day.init with number := t.deviceTime / dayNs }
        ∧ t.log.counters = s.log.counters ∧ t.benches = s.benches
        ∧ Memory.read t.fw.flash (logBase + 0x50000 + 64 * (s.log.days % 11264)) 64 = s.log.day.record)) ∧
    (s.pins.aux = true → s.deviceTime / dayNs ≤ s.log.day.number → Does .dayBoundary s (fun t =>
      (Steady s → t.now = s.now + (dayNs - s.deviceTime % dayNs)) ∧ t.log.days = s.log.days + 1
        ∧ t.log.day = { Day.init with number := t.deviceTime / dayNs } ∧ t.log.counters = s.log.counters
        ∧ (∃ e, s.log.day.energy ≤ e ∧ (s.scheduled = true ∨ s.railsGood = false → e = s.log.day.energy)
          ∧ Memory.read t.fw.flash (logBase + 0x50000 + 64 * (s.log.days % 11264)) 64 = ({ s.log.day with energy := e } : Day).record)
        ∧ t.benches = s.benches)) ∧
    (s.pins.aux = false → Does .dayBoundary s (fun t => t = s) ∧ Does .hourlySave s (fun t => t = s)) ∧
    (s.request 10 = 1 → s.dmaOk 0 = true → a % 4096 = 0 → Does .logRead s (fun t =>
      Memory.read t.host.mem a 0x3D0000 = Memory.read s.fw.flash (logBase + 0x30000) 0x3D0000 ∧ HostOutside s a 0x3D0000 t
        ∧ t.fld F.tlmLogStatusResult = Status.ok ∧ t.flag F.tlmLogStatusBusy = false ∧ t.request 10 = 0
        ∧ { t with host := s.host, regs := s.regs } = s)) ∧
    (s.request 10 = 1 → s.dmaOk 0 = true → a % 4096 ≠ 0 → Does .logRead s (fun t =>
      t.fld F.tlmLogStatusResult = Status.badDescriptor ∧ { t with regs := s.regs } = s))

/-- A request on a management bus is answered with a code and bytes, and management keeps what it has but for the changes of m
and, on the SMBus, the transaction that may lose arbitration; behind one that has lost the answer waits (17_time.md R472, R473;
log 17). -/
def Sys2Proof.Say.Replies (c : Sys2Proof.Instr) (s : Sys2Proof.Machine.State) (bus : Sys2Proof.MgmtBus) (code : Nat)
    (bytes : List Sys2Proof.Byte) (m : Sys2Proof.Machine.Mgmt) : Prop :=
  let smbus := bus = .smbus s.strapAddr
  let waits := smbus ∧ s.mgmt.lost ≠ 0
  Sys2Proof.Say.Does c s (fun t => t.out = (if waits then s.out else s.out ++ [.mgmt bus code bytes])
    ∧ t.mgmt = (if waits then { m with queue := m.queue ++ [(code, bytes)] } else if smbus then { m with smbus := some (code, bytes) } else m)
    ∧ { t with out := s.out, mgmt := s.mgmt } = s)

/-- The same where a part of the answer is a free value, and no transaction has lost the bus: the bytes are of one of the forms that
P takes. -/
def Sys2Proof.Say.RepliesSome (c : Sys2Proof.Instr) (s : Sys2Proof.Machine.State) (bus : Sys2Proof.MgmtBus) (code : Nat)
    (P : List Sys2Proof.Byte → Prop) : Prop :=
  (bus = .smbus s.strapAddr → s.mgmt.lost = 0) → Sys2Proof.Say.Does c s (fun t => (∃ bytes, P bytes ∧ t.out = s.out ++ [.mgmt bus code bytes])
    ∧ { t with out := s.out, mgmt := s.mgmt, freeCtr := s.freeCtr } = s ∧ t.mgmt.eid = s.mgmt.eid ∧ t.mgmt.receiver = s.mgmt.receiver)

open Sys2Proof Sys2Proof.Machine Sys2Proof.Say in
/-- 17_time.md R469, R472, R473; 11_pcie.md R332; 22_module.md R533, R534: the management endpoint's answers, on each bus that reaches it,
the addresses by which the buses reach it, and the transactions that lose arbitration on the SMBus: they are driven again at most 8 times,
and what waits behind one goes out after it; SMBALERT_N is low while an event is among them. Message layouts are the model's (log 17);
which events await the SMBus host is its reading (log 21). -/
def Obligations.management_endpoint : Prop :=
  ∀ (s : State) (bus : MgmtBus) (eid : BitVec 8) (record : W32) (id : BitVec 16) (op : BitVec 8) (n : Nat) (asked : BitVec 6),
    let alert : Bool → List Out := fun v => if v then [.pin "SMBALERT_N" true] else []
    (s.busUp bus = true →
      Replies (.mctpControl bus (.setEid eid)) s bus 1 (leBytes 2 0 ++ leBytes 1 eid.toNat ++ leBytes 1 0) { s.mgmt with eid := eid.toNat }
      ∧ Replies (.mctpControl bus .getEid) s bus 2 (leBytes 1 0 ++ leBytes 1 s.mgmt.eid ++ leBytes 2 0) s.mgmt
      ∧ RepliesSome (.mctpControl bus .getUuid) s bus 3 (fun bs => ∃ x, x.length = 16 ∧ bs = leBytes 1 0 ++ x)
      ∧ (∀ ty : BitVec 8, (ty = 0 ∨ ty = 0xFF ∨ ty = 1 ∨ ty = 0x7E →
          RepliesSome (.mctpControl bus (.getVersion ty)) s bus 4 (fun bs => ∃ x, x.length = 4 ∧ bs = leBytes 1 0 ++ leBytes 1 1 ++ x))
        ∧ (¬ (ty = 0 ∨ ty = 0xFF ∨ ty = 1 ∨ ty = 0x7E) → Replies (.mctpControl bus (.getVersion ty)) s bus 4 (leBytes 1 0x80) s.mgmt))
      ∧ Replies (.mctpControl bus .getTypes) s bus 5 (leBytes 1 0 ++ leBytes 1 2 ++ [0x01, 0x7E]) s.mgmt
      ∧ Replies (.mctpControl bus .getVendor) s bus 6 (leBytes 1 0 ++ leBytes 1 0xFF ++ leBytes 1 0 ++ Config.vendorId.take 2 ++ leBytes 2 1) s.mgmt
      ∧ (∀ cmd : BitVec 8, Replies (.mctpControl bus (.control cmd)) s bus cmd.toNat (leBytes 1 5) s.mgmt)
      ∧ Replies (.pldmDiscovery bus 0 ⟨4, asked⟩) s bus 4 (leBytes 1 0 ++ leBytes 8 0x5) s.mgmt
      ∧ Replies (.pldmDiscovery bus 0 ⟨5, 0⟩) s bus 5 (leBytes 1 0 ++ leBytes 32 (listMask [2, 3, 4, 5])) s.mgmt
      ∧ Replies (.pldmDiscovery bus 0 ⟨5, 2⟩) s bus 5 (leBytes 1 0 ++ leBytes 32 (listMask [0x02, 0x04, 0x10, 0x11, 0x12, 0x50, 0x51])) s.mgmt
      ∧ (asked = 0 ∨ asked = 2 → RepliesSome (.pldmDiscovery bus 0 ⟨3, asked⟩) s bus 3 (fun bs => ∃ x, x.length = 8 ∧ bs = leBytes 1 0 ++ leBytes 4 0 ++ leBytes 1 5 ++ x))
      ∧ (asked ≠ 0 → asked ≠ 2 → Replies (.pldmDiscovery bus 0 ⟨3, asked⟩) s bus 3 (leBytes 1 0x83) s.mgmt
          ∧ Replies (.pldmDiscovery bus 0 ⟨5, asked⟩) s bus 5 (leBytes 1 0x83) s.mgmt)
      ∧ (∀ (type : BitVec 6) (cmd : BitVec 8), (type = 0 ∧ cmd.toNat ∉ [2, 3, 4, 5])
            ∨ (type = 2 ∧ cmd.toNat ∉ [0x02, 0x04, 0x10, 0x11, 0x12, 0x50, 0x51]) ∨ (type ≠ 0 ∧ type ≠ 2) →
          Replies (.pldmDiscovery bus type ⟨cmd, asked⟩) s bus cmd.toNat (leBytes 1 5) s.mgmt)
      ∧ Replies (.setEventReceiver bus (some eid)) s bus 4 (leBytes 1 0) { s.mgmt with receiver := some (bus, eid.toNat) }
      ∧ Replies (.setEventReceiver bus none) s bus 4 (leBytes 1 0) { s.mgmt with receiver := none }
      ∧ RepliesSome (.getTid bus) s bus 2 (fun bs => ∃ tid, tid < 256 ∧ bs = leBytes 1 0 ++ leBytes 1 tid)
      ∧ RepliesSome (.getPdrRepositoryInfo bus) s bus 0x50 (fun bs => ∃ x y, x.length = 26 ∧ y.length = 9
            ∧ bs = leBytes 1 0 ++ leBytes 1 0 ++ x ++ leBytes 4 25 ++ y)
      ∧ (n = (if record = 0 then 1 else record.toNat) → n ≤ 25 → RepliesSome (.getPdr bus record) s bus 0x51 (fun bs => ∃ x, x.length = 64
            ∧ bs = leBytes 1 0 ++ leBytes 4 (if n = 25 then 0 else n + 1) ++ leBytes 4 n ++ leBytes 1 1 ++ leBytes 1 2 ++ leBytes 2 n ++ x))
      ∧ (25 < record.toNat → Replies (.getPdr bus record) s bus 0x51 (leBytes 1 0x82) s.mgmt)
      ∧ (id.toNat = n + 1 → n < 25 →
          Replies (.getSensorReading bus id) s bus 0x11 (leBytes 1 0 ++ leBytes 1 5 ++ leBytes 1 (Tab.get 0 s.mgmt.enables n)
            ++ leBytes 1 (if s.flag (F.tlmSensorCrit n) then 3 else if s.flag (F.tlmSensorWarn n) then 2 else 1)
            ++ le32 (signed 24 (s.fld (F.tlmSensorValue n)))) s.mgmt
          ∧ (op.toNat ≤ 2 → Replies (.setNumericSensorEnable bus id op) s bus 0x10 (leBytes 1 0) { s.mgmt with enables := Tab.set 0 s.mgmt.enables n op.toNat })
          ∧ (2 < op.toNat → Replies (.setNumericSensorEnable bus id op) s bus 0x10 (leBytes 1 0x81) s.mgmt)
          ∧ Replies (.getSensorThresholds bus id) s bus 0x12 (leBytes 1 0 ++ leBytes 1 5 ++
              (let pair := leBytes 4 (s.fld (F.tlmThreshWarn n)) ++ leBytes 4 (s.fld (F.tlmThreshCrit n)) ++ leBytes 4 0
               if n = 20 ∨ n = 23 ∨ n = 24 then leBytes 12 0 ++ pair else pair ++ leBytes 12 0)) s.mgmt)
      ∧ ((id.toNat = 0 ∨ 25 < id.toNat) →
          Replies (.getSensorReading bus id) s bus 0x11 (leBytes 1 0x80) s.mgmt
          ∧ Replies (.setNumericSensorEnable bus id op) s bus 0x10 (leBytes 1 0x80) s.mgmt
          ∧ Replies (.getSensorThresholds bus id) s bus 0x12 (leBytes 1 0x80) s.mgmt)
      ∧ Does (.hostAttention bus) s (fun t => t.fld ⟨F.hifWakeCauseRtcAlarm.addr, 1, 1⟩ = 1 ∧ Posts s t)) ∧
    (∀ ty : BitVec 8, Does (.mctpControl bus (.other ty)) s (fun t => t = s)) ∧
    (∀ a : BitVec 7,
      (s.pins.aux = true → bus = .i3c 0x7E ∨ bus = .i3c s.strapAddr → Does (.mctpControl bus (.i3cAddress a)) s (fun t =>
        t.mgmt = { s.mgmt with i3cAddr := some a } ∧ { t with mgmt := s.mgmt } = s ∧ t.busUp (.i3c a) = true))
      ∧ (s.pins.aux = false ∨ (bus ≠ .i3c 0x7E ∧ bus ≠ .i3c s.strapAddr) → Does (.mctpControl bus (.i3cAddress a)) s (fun t => t = s))
      ∧ (s.pins.straps < 8 → (s.busUp (.smbus a) = true ↔ s.pins.aux = true ∧ a.toNat = 0x48 + s.pins.straps))
      ∧ (s.busUp (.i3c a) = true ↔ s.pins.aux = true ∧ s.mgmt.i3cAddr = some a)) ∧
    (s.busUp bus = false → Does (.hostAttention bus) s (fun t => t = s) ∧ Does (.getTid bus) s (fun t => t = s)
      ∧ Does (.mctpControl bus .getEid) s (fun t => t = s)) ∧
    (s.pins.aux = true → s.mgmt.smbus.isSome = true → s.mgmt.lost = 0 → Does .smbusArbitrationLost s (fun t =>
      t.mgmt = { s.mgmt with lost := 1 } ∧ t.out = s.out ++ (if t.mgmt.awaits = true then [.pin "SMBALERT_N" false] else [])
        ∧ t.fld F.tlmMbusArbLost = min (2 ^ (F.tlmMbusArbLost).width - 1) (s.fld F.tlmMbusArbLost + 1)
        ∧ { t with mgmt := s.mgmt, out := s.out, regs := s.regs } = s)) ∧
    (∀ code bytes, s.pins.aux = true → s.mgmt.smbus = some (code, bytes) → s.mgmt.lost ≠ 0 →
      (s.mgmt.queue = [] → Does (.smbusRetry false) s (fun t => t.out = s.out ++ [.mgmt (.smbus s.strapAddr) code bytes] ++ alert s.mgmt.awaits
        ∧ t.mgmt = { s.mgmt with lost := 0 } ∧ { t with mgmt := s.mgmt, out := s.out } = s))
      ∧ (∀ k bs, s.mgmt.queue = [(k, bs)] → Does (.smbusRetry false) s (fun t =>
          t.out = s.out ++ [.mgmt (.smbus s.strapAddr) code bytes, .mgmt (.smbus s.strapAddr) k bs] ++ alert s.mgmt.awaits
            ∧ t.mgmt = { s.mgmt with smbus := some (k, bs), lost := 0, queue := [] }))
      ∧ (s.mgmt.lost < 8 → Does (.smbusRetry true) s (fun t => t.mgmt = { s.mgmt with lost := s.mgmt.lost + 1 }
          ∧ t.out = s.out ∧ t.log = s.log))
      ∧ (8 ≤ s.mgmt.lost → s.mgmt.queue = [] → Does (.smbusRetry true) s (fun t => t.mgmt = { s.mgmt with smbus := none, lost := 0 }
          ∧ t.out = s.out ++ alert s.mgmt.awaits ∧ t.log.events = s.log.events + 1
          ∧ t.fld F.tlmMbusArbDrop = min (2 ^ (F.tlmMbusArbDrop).width - 1) (s.fld F.tlmMbusArbDrop + 1)))) ∧
    (s.mgmt.smbus = some (0x0A, leBytes 6 0) → s.mgmt.lost ≠ 0 → s.mgmt.awaits = true) ∧
    (s.mgmt.smbus = none → Does (.smbusRetry false) s (fun t => t = s) ∧ Does .smbusArbitrationLost s (fun t => t = s))

/-- Recovery serves the fault at once at a level and is done with it: nothing else runs (19_recovery.md R492 to R500). -/
def Sys2Proof.Say.Serves (c : Sys2Proof.Instr) (s : Sys2Proof.Machine.State) (level cause : Nat)
    (P : Sys2Proof.Machine.State → Prop) : Prop :=
  open Sys2Proof Sys2Proof.Machine Sys2Proof.Say in
  s.rcv.faults = [] → s.rcv.levels = [] → s.rcv.done = [] → Does c s (fun t =>
    P t ∧ t.rcv.levels = [] ∧ t.rcv.faults = [] ∧ t.rcv.seq = s.rcv.seq + 1 ∧ t.fld F.rcvStatusLevel = level ∧ t.fld F.rcvStatusCause = cause
      ∧ t.flag F.rcvStatusActive = false ∧ t.fld (F.rcvCountCount level) = min (2 ^ 32 - 1) (s.fld (F.rcvCountCount level) + 1)
      ∧ t.mfg = s.mfg ∧ t.sec = s.sec ∧ t.now = s.now)

open Sys2Proof Sys2Proof.Machine Sys2Proof.Say in
/-- 18_power.md R480; 19_recovery.md R492, R493, R495, R497, R498: what the detectors of faults do where no scheduled work is
touched: slack raises a target by a step until 900 mV, then faults the valley; an engine without a heartbeat and a pass without an
acknowledge are served at L1; with scheduled work a halt is raised instead. Which ring engine lives in which valley is in part the model's
choice (log 30). -/
def Obligations.faults_are_served_at_their_level : Prop :=
  ∀ (s : State) (v : ValleyId) (k : BitVec 4),
    let mv := s.fld (F.pwrVtargetMv v)
    ((v : Nat) ≠ 38 → s.flag (F.vlyStatePowered v) = true → mv < 900 → Does (.slackLow v) s (fun t =>
      t.fld (F.pwrVtargetMv v) = min 900 (mv + 5) ∧ { t with regs := s.regs } = s
        ∧ ∀ w : ValleyId, w ≠ v → t.fld (F.pwrVtargetMv w) = s.fld (F.pwrVtargetMv w))) ∧
    ((v : Nat) = 38 ∨ s.flag (F.vlyStatePowered v) = false → Does (.slackLow v) s (fun t => t = s)) ∧
    ((v : Nat) ≠ 38 → s.flag (F.vlyStatePowered v) = true → 900 ≤ mv → ¬ ((v : Nat) < 20 ∧ (v : Nat) % 5 = 4) → s.touches (.valley v) = false →
      s.scopeQuiet 1 (.valley v) = true →
      Serves (.slackLow v) s 1 7 (fun t => (∀ c, valleyCluster v = some c → t.cluster c = Cluster.init) ∧ t.parts = s.parts)) ∧
    (900 ≤ mv → (v : Nat) < 20 → (v : Nat) % 5 = 4 → s.flag (F.vlyStatePowered v) = true → s.scheduled = true → s.run.halt = none →
      Does (.slackLow v) s (fun t => (∃ h, t.run.halt = some h ∧ h.seen.trouble = ⟨3, 0x07, v, .device, 0⟩)
        ∧ t.flag F.dvtPlainHaltPending = true ∧ t.rcv = s.rcv ∧ t.benches = s.benches)) ∧
    (s.touches (.valley v) = false → s.scopeQuiet 1 (.valley v) = true →
      Serves (.passAckTimeout v) s 1 7 (fun t => (∀ c, valleyCluster v = some c → t.cluster c = Cluster.init) ∧ t.parts = s.parts)) ∧
    (s.touches (.valley v) = true → s.run.halt = none → Does (.passAckTimeout v) s (fun t =>
      (∃ h, t.run.halt = some h ∧ h.seen.trouble = ⟨1, 0x07, v, .valley v, 0⟩) ∧ t.flag F.dvtPlainHaltPending = true ∧ t.rcv = s.rcv)) ∧
    (1 ≤ k.toNat → k.toNat ≤ 8 → s.rcv.engineFenced k.toNat = false →
      Serves (.engineHeartbeatTimeout k) s 1 8 (fun t => t.benches = s.benches ∧ t.parts = s.parts ∧ t.mems = s.mems
        ∧ t.rcv.engineFenced k.toNat = false)) ∧
    (8 < k.toNat ∨ k.toNat = 0 → Does (.engineHeartbeatTimeout k) s (fun t => t = s))

open Sys2Proof Sys2Proof.Machine Sys2Proof.Say in
/-- 19_recovery.md R495 to R503: the manager's requests, of which one of L4 supersedes a level that runs (R504), the copy of a record, the
bounds of the levels, and the last resort. The slot of a record (log 18) and that an L4 over its bound fails once (log 30) are the
model's. -/
def Obligations.levels_requests_and_their_bounds : Prop :=
  ∀ (s : State) (l : Level) (j : LinkId),
    let asked := s.fld F.rcvCtrlLevel
    let p := s.fld F.rcvCtrlPartition
    let slot := s.fld F.rcvCtrlSlot
    let a := s.fld F.rcvAddrLoAddr + s.fld F.rcvAddrHiAddr * 2 ^ 32
    (s.request 12 = 1 → ((s.flag F.rcvStatusActive = true ∧ asked ≠ 4) ∨ asked < 2 ∨ 5 < asked) → Does .rcvRequest s (fun t =>
      t.fld F.rcvResultResult = Status.badDescriptor ∧ t.request 12 = 0 ∧ { t with regs := s.regs } = s)) ∧
    (s.request 12 = 1 → s.flag F.rcvStatusActive = false → asked = 2 → (s.part p).list = none → (s.part p).retained = [] →
      Does .rcvRequest s (fun t => t.fld F.rcvResultResult = Status.doesNotFit ∧ t.request 12 = 0 ∧ { t with regs := s.regs } = s)) ∧
    (s.request 12 = 1 → s.flag F.rcvStatusActive = false → asked = 3 → s.scheduled = false → s.run.take = none → s.scopeQuiet 3 .device = true →
      Serves .rcvRequest s 3 9 (fun t => t.fld F.rcvResultResult = Status.ok ∧ (∀ b, b < 160 → t.bench b = Bench.init)
        ∧ t.log.events = s.log.events + 1)) ∧
    (s.request 12 = 1 → asked = 4 → Does .rcvRequest s (fun t =>
      Cleared s t ∧ t.fld F.rcvStatusLevel = 4 ∧ t.flag F.rcvStatusActive = true ∧ t.pins.released = true
        ∧ ∃ x, t.rcv.levels = [x] ∧ x.level = 4)) ∧
    (s.request 12 = 1 → s.flag F.rcvStatusActive = false → asked = 5 → Does .rcvRequest s (fun t =>
      t.rcv.l5Pending = true ∧ Out.pin "TRAY_PWRCYC_N" false ∈ t.out ∧ t.pins.pwrcyc = some s.now ∧ t.rcv.seq = s.rcv.seq + 1 ∧ t.fld F.rcvResultResult = Status.ok
        ∧ t.benches = s.benches ∧ t.parts = s.parts ∧ t.mems = s.mems)) ∧
    (∀ r cap, s.request 12 = 2 → s.dmaOk 0 = true → s.rcv.records.find? (fun r => (fieldLE r.1 0 4 + 15) % 16 == slot) = some (r, cap) →
      Does .rcvCopy s (fun t => Memory.read t.host.mem a (r ++ cap).length = r ++ cap ∧ HostOutside s a (r ++ cap).length t
        ∧ t.fld F.rcvResultResult = Status.ok ∧ t.request 12 = 0 ∧ { t with host := s.host, regs := s.regs } = s)) ∧
    (s.request 12 = 2 → s.dmaOk 0 = true → s.rcv.records = [] → Does .rcvCopy s (fun t =>
      t.fld F.rcvResultResult = Status.badDescriptor ∧ { t with regs := s.regs } = s)) ∧
    (s.rcv.levels = [] → Does .levelTimeout s (fun t => t = s) ∧ Does .fenceDrainTimeout s (fun t => t = s)) ∧
    (s.rcv.levels = [l] → l.overdue = false → l.level = 3 → Does .levelTimeout s (fun t =>
      Cleared s t ∧ t.fld F.rcvStatusLevel = 4 ∧ ∃ x, t.rcv.levels = [x] ∧ x.level = 4 ∧ x.escalated = true)) ∧
    (s.rcv.levels = [l] → l.overdue = false → l.level = 4 → (s.rcv.l4Failed.filter (fun x => decide (s.now ≤ x + 3600000000000))) = [] → Does .levelTimeout s (fun t =>
      t.rcv = { s.rcv with l4Failed := [s.now], levels := [{ l with overdue := true }] } ∧ { t with rcv := s.rcv } = s)) ∧
    (s.rcv.levels = [l] → l.overdue = true → Does .levelTimeout s (fun t => t = s)) ∧
    (s.rcv.levels = [l] → l.overdue = false → l.level = 4 → (s.rcv.l4Failed.filter (fun x => decide (s.now ≤ x + 3600000000000))) ≠ [] → Does .levelTimeout s (fun t =>
      t.rcv.l5Pending = true ∧ Out.pin "TRAY_PWRCYC_N" false ∈ t.out)) ∧
    (s.rcv.levels = [l] → l.level = 1 → l.seen.trouble.scope = .link j → Does .fenceDrainTimeout s (fun t =>
      t.rcv.levels = [] ∧ t.link j = { Link.init with failTimes := (s.link j).failTimes, coeff := (s.link j).coeff }
        ∧ t.rcv.seq = s.rcv.seq + 1 ∧ t.benches = s.benches)) ∧
    (s.rcv.l5Pending = true →
      (let recent := (s.rcv.l5Times.filter (fun x => decide (s.now ≤ x + 3600000000000))).length
       (recent < 4 → Does .pwrcycTimeout s (fun t => t.rcv.l5Pending = true ∧ t.mfg = s.mfg ∧ t.pins.pwrcyc = some s.now
          ∧ (s.railsGood = true → t.benches = [] ∧ t.mems = [] ∧ t.parts = [])
          ∧ (s.railsGood = false → t.benches = s.benches ∧ t.mems = s.mems ∧ t.parts = s.parts)
          ∧ Out.pin "TRAY_PWRCYC_N" false ∈ t.out ∧ t.rcv.l5Times.head? = some s.now))
       ∧ (4 ≤ recent → Does .pwrcycTimeout s (fun t => (s.railsGood = true → Cleared s t) ∧ t.rcv.l5Pending = false ∧ t.rcv.fencedForGood = true)))) ∧
    (s.rcv.l5Pending = false → Does .pwrcycTimeout s (fun t => t = s))

open Sys2Proof Sys2Proof.Machine Sys2Proof.Say in
/-- 21_debug.md R526, R527, R531, R532: the JTAG port shifts out the bypass bit where an instruction has no right, and what the
manual leaves open otherwise; DBGREG reads, and writes as the manager does (log 21); a sample of one bench is one record, which waits in its
cluster's FIFO of 256 until the buffer takes it, or is dropped and counted. How fast a FIFO drains is the model's choice (log 30). -/
def Obligations.jtag_and_sampling : Prop :=
  ∀ (s : State) (off : BitVec 8) (v : W64) (b : Nat),
    let shifts : Instr → Nat → Prop := fun c n => Does c s (fun t => (∃ bs, bs.length = n ∧ t.out = s.out ++ [.jtag bs])
      ∧ { t with out := s.out, freeCtr := s.freeCtr } = s)
    let bypassed : Instr → Prop := fun c => Does c s (fun t => t.out = s.out ++ [.jtag [0]] ∧ { t with out := s.out } = s)
    bypassed .bypass ∧ shifts .idcode 4 ∧
    (s.hasRight 3 = true → shifts .samplePreload 64) ∧ (s.hasRight 3 = false → bypassed .samplePreload) ∧
    (s.hasRight 3 = true → s.secState = 0 → shifts .extest 64) ∧ (s.hasRight 3 = false ∨ s.secState ≠ 0 → bypassed .extest) ∧
    (s.hasRight 3 = false → bypassed (.dbgreg off true v) ∧ bypassed (.dbgreg off false v)) ∧
    (s.hasRight 3 = true → off.toNat % 4 = 0 → Does (.dbgreg off false v) s (fun t =>
      (off.toNat % 8 ≠ 0 → t.out = s.out ++ [.jtag (leBytes 4 (s.readWord (0xD00000 + off.toNat)) ++ leBytes 4 0)])
        ∧ (off.toNat % 8 = 0 → t.out = s.out ++ [.jtag (leBytes 4 (s.readWord (0xD00000 + off.toNat)) ++ leBytes 4 (s.readWord (0xD00004 + off.toNat)))])
        ∧ { t with out := s.out } = s)) ∧
    (s.hasRight 3 = true → off.toNat % 4 ≠ 0 → Does (.dbgreg off true v) s (fun t => t = s)) ∧
    (s.hasRight 3 = true → (writeWords 0 0xD00008 true v.toNat).all (fun x => !s.rvChange x.1 x.2.1 x.2.2) = true →
      s.dbgAllowed F.dbgTraceCores = true → s.flag F.glbCompatE7 = false → Does (.dbgreg 8 true v) s (fun t =>
        (∃ w ∈ t.regs.buf, w.fn = 0 ∧ w.field = F.dbgTraceCores ∧ w.value = v.toNat % 2 ^ 21) ∧ t.regs.val = s.regs.val
          ∧ { t with regs := s.regs } = s)) ∧
    (s.hasRight 0 = true → s.flag F.dbgCtrlSample = true →
      (let tick := sampleTick (if s.scheduled then s.run.firstTick else 0) (2 ^ s.fld F.dbgCtrlPeriodLog2) s.plain.tick
       Does .pcSample s (fun t => t.plain = { s.plain with tick := max s.plain.tick tick }
        ∧ (s.sampledBenches = [b] → ∃ u : State, u.plain.tick = max s.plain.tick tick ∧ u.benches = s.benches ∧ u.run = s.run
            ∧ (let sub := u.samplerState b
               let k := dbgSource 1 sub b
               (k = clusterOf b)
               ∧ ((s.fn 0).d3hot = false → (Tab.get [] s.dbg.fifo k).length < 256 → t.dbg.dropped = s.dbg.dropped
                  ∧ Tab.get [] t.dbg.fifo k = Tab.get [] s.dbg.fifo k
                      ++ [u.dbgBytes 1 sub b ((s.bench b).slot % 2 ^ 12 + s.run.pass % 2 ^ 32 * 2 ^ 12)])
               ∧ ((s.fn 0).d3hot = true ∨ 256 ≤ (Tab.get [] s.dbg.fifo k).length → t.dbg.fifo = s.dbg.fifo ∧ t.dbg.dropped = s.dbg.dropped + 1)))
        ∧ t.benches = s.benches ∧ t.run = s.run))) ∧
    (s.fld (F.bncStatusFault b) = 0 →
      (s.run.phase.inKerf = true → b ∈ s.runningBenches → s.samplerState b = 7)
      ∧ (s.run.phase.inKerf = false → (s.flag (F.bncStatusOpen b) = true → s.samplerState b = 6)
        ∧ (s.flag (F.bncStatusOpen b) = false → s.samplerState b < 6 ∧ ((s.bench b).stall = none → s.flag (F.bncStatusRunning b) = false → s.samplerState b = 0)))) ∧
    (∀ k bs rest, s.dbg.fifo = [(k, bs :: rest)] → bs.length = 32 → s.dmaOk 0 = true → s.dbg.dropped = 0 →
      (let a := s.fld F.dbgBufLoAddr + s.fld F.dbgBufHiAddr * 2 ^ 32 + s.fld F.dbgWptrBytes % 2 ^ s.fld F.dbgBufCfgLog2Size
       Memory.read s.dbgDrain.host.mem a 32 = bs ∧ HostOutside s a 32 s.dbgDrain ∧ Tab.get [] s.dbgDrain.dbg.fifo k = rest
        ∧ s.dbgDrain.fld F.dbgWptrBytes = (s.fld F.dbgWptrBytes + 32) % 2 ^ (F.dbgWptrBytes).width)) ∧
    (s.hasRight 0 = false → Does .pcSample s (fun t => t = s))

open Sys2Proof Sys2Proof.Machine Sys2Proof.Say in
/-- A step of the block runs the command at the front of its queue on the state with the queue's rest. With nothing waiting at
least 4 ns pass, the queue stays empty, and no one-time counter changes, nor does anything of manufacture, but for the binding
counter, and that only while a bind or an unbind is under way (the model's tick, a DESIGN CHOICE of logs 1 and 12). -/
def Obligations.step_runs_front_command : Prop :=
  ∀ (s : State) (c : Instr) (rest : List Instr),
    (s.pending = c :: rest → step s = exec c { s with pending := rest }) ∧
    (s.pending = [] → ∃ t, step s = .next t ∧ t.pending = [] ∧ s.now + 4 ≤ t.now ∧ t.fw.fused = s.fw.fused
      ∧ { t.mfg with bindings := s.mfg.bindings } = s.mfg ∧ s.mfg.bindings ≤ t.mfg.bindings ∧ (s.sec.work = none → t.mfg = s.mfg))

open Sys2Proof Sys2Proof.Machine Sys2Proof.Say in
/-- What reset leaves: nothing waits and nothing has been sent; every register field reads the reset value of its register
table; the binding state is UNBOUND, AQ-E7 mode is off, every partition is EMPTY and unowned, rings and instances rest; the
cores are held with SW.priv set, PC 0 and their registers zero; every memory is in canonical form. That memories and the
registers without a stated reset value read zero is the model's choice (log 6). -/
def Obligations.reset_leaves_the_stated_values : Prop :=
  let s := State.reset
  s.pending = [] ∧ s.out = [] ∧ s.Canonical
    ∧ (∀ f : Field, s.fld f = bitsOf (regReset f.addr) f.lsb f.width)
    ∧ s.secState = 0 ∧ s.sec.record = none ∧ s.flag F.glbCompatE7 = false ∧ s.inPlain = false
    ∧ s.insState 1 = 0 ∧ s.fld (F.rngStatusState 0 0) = 0 ∧ s.fld (F.rngStatusState 1 255) = 0
    ∧ (∀ p, (s.part p).state = .empty ∧ (s.part p).owner = none ∧ (s.part p).fenced = false)
    ∧ (∀ k, (s.core k).held = true ∧ (s.core k).bit Sw.priv = true ∧ (s.core k).sw = 0x80#32 ∧ (s.core k).pc = 0 ∧ (s.core k).lc = 0
        ∧ ∀ r, (s.core k).pr r = 0 ∧ (s.core k).gr r = 0 ∧ (s.core k).cr r = 0)
    ∧ (∀ r q, (s.ring r q).flight = [] ∧ (s.ring r q).waiting = []) ∧ s.rcv.levels = [] ∧ s.run.phase = .idle

open Sys2Proof Sys2Proof.Machine Sys2Proof.Say in
/-- Whatever a step does, history only grows: time does not go back, nothing that has left the device is taken back, the
binding counter and the fused security version do not go back (10_tenancy.md R293; 09_firmware.md R271), manufacture data
stand; a command takes itself alone from the queue. -/
def Obligations.every_step_only_adds_to_history : Prop :=
  ∀ s t : State, step s = .next t → s.Later t ∧ t.pending = s.pending.tail

open Sys2Proof Sys2Proof.Machine Sys2Proof.Say in
/-- Every step keeps every memory in its canonical form: addresses strictly rising, no byte listed that reads as an unlisted one. -/
def Obligations.every_step_keeps_memories_canonical : Prop :=
  ∀ s t : State, s.Canonical → step s = .next t → t.Canonical

open Sys2Proof Sys2Proof.Machine Sys2Proof.Say in
/-- 07_memory.md R203: a read of device memory that may reach no byte of its range returns zeros, and a write that may reach none
is discarded; both are violations, and neither changes anything. A write that may reach its range changes neither a granule's
owner nor a page slot, nor any unit beside the ones it addresses. -/
def Obligations.accesses_without_reach_change_nothing : Prop :=
  ∀ (s : State) (via : Via) (w : Who) (a n : Nat) (bs : List Byte),
    ((∀ k u off, k < n → devAddr (a + k) = some (u, off) → s.mayReach w false u (off / 65536) = false) →
      s.devRead via w a n = (List.replicate n 0, ⟨decide (0 < n), false⟩, s)) ∧
    ((∀ k u off, k < bs.length → devAddr (a + k) = some (u, off) → s.mayReach w true u (off / 65536) = false) →
      s.devWrite via w a bs = (⟨decide (0 < bs.length), false⟩, s)) ∧
    (∀ u, ((s.devWrite via w a bs).2.memUnit u).gran = (s.memUnit u).gran) ∧
    (∀ u, (∀ k v off, k < bs.length → devAddr (a + k) = some (v, off) → v ≠ u) → (s.devWrite via w a bs).2.memUnit u = s.memUnit u)

open Sys2Proof Sys2Proof.Machine Sys2Proof.Say in
/-- 02_arithmetic.md R47, R50: terms may come in any order, and in parts: a window holds the same sum and the same special state. -/
def Obligations.accumulation_does_not_depend_on_order : Prop :=
  ∀ (x : Window) (ts us : List Term),
    (ts.Perm us → x.addTerms ts = x.addTerms us) ∧
    (x.addTerms (ts ++ us)).1 = ((x.addTerms ts).1.addTerms us).1 ∧ (x.addTerms ts).1.anchor = x.anchor

open Sys2Proof Sys2Proof.Machine Sys2Proof.Say in
/-- 02_arithmetic.md R49: a finite term whose top exponent lies more than 48 below the anchor contributes exactly zero, wherever
it stands among the terms and whatever its bits are. -/
def Obligations.far_terms_contribute_zero : Prop :=
  ∀ (x : Window) (neg : Bool) (n : Nat) (u l : Int) (ts us : List Term), u < x.anchor.toInt - 48 →
    x.addTerm (.fin neg n u l) = (x, false) ∧ x.addTerms (ts ++ .fin neg n u l :: us) = x.addTerms (ts ++ us)

open Sys2Proof Sys2Proof.Machine Sys2Proof.Say in
/-- 08_tenon.md R238: DIVS, DIVU, REMS and REMU raise no exception, whatever their operands: a divisor of zero gives the quotient
0xFFFF_FFFF and the dividend as remainder, and DIVS of 0x8000_0000 by -1 gives 0x8000_0000 and remainder 0. -/
def Obligations.division_raises_no_exception : Prop :=
  ∀ (s : State) (k : CoreId) (d a b : Gn),
    let x := s.core k
    let u := x.gr a.toNat
    let v := x.gr b.toNat
    (∀ c ∈ [Instr.divs k d a b, Instr.divu k d a b, Instr.rems k d a b, Instr.remu k d a b], ∃ r, AluRow c s k 4 d.toNat r none) ∧
    (v = 0 → AluRow (.divs k d a b) s k 4 d.toNat 0xFFFFFFFF#32 none ∧ AluRow (.divu k d a b) s k 4 d.toNat 0xFFFFFFFF#32 none
      ∧ AluRow (.rems k d a b) s k 4 d.toNat u none ∧ AluRow (.remu k d a b) s k 4 d.toNat u none) ∧
    (u = 0x80000000#32 → v = 0xFFFFFFFF#32 →
      AluRow (.divs k d a b) s k 4 d.toNat 0x80000000#32 none ∧ AluRow (.rems k d a b) s k 4 d.toNat 0 none)

open Sys2Proof Sys2Proof.Machine Sys2Proof.Say in
/-- 08_tenon.md R232: in component mode an MTS to SW changes bits [5:0] alone and raises no exception. -/
def Obligations.component_mode_changes_six_bits_of_sw : Prop :=
  ∀ (s : State) (k : CoreId) (g : Gn), (s.core k).bit Sw.priv = false → Free s k 4 → Does (.mts k g 0) s (fun t =>
    (∀ i, i < 6 → (t.core k).sw.getLsbD i = ((s.core k).gr g.toNat).getLsbD i)
      ∧ (∀ i, 6 ≤ i → (t.core k).sw.getLsbD i = (s.core k).sw.getLsbD i)
      ∧ (t.core k).pc = ((s.core k).pc + 4) &&& ~~~3#32 ∧ (t.core k).fcause = (s.core k).fcause ∧ (t.core k).p = (s.core k).p
      ∧ (t.core k).g = (s.core k).g ∧ (t.core k).c = (s.core k).c ∧ (t.core k).tcm = (s.core k).tcm ∧ OnlyCore k s t)
end

