-- ==== Sys2Proof/Laws/Tab.lean ====
section
/-! SUPPORT. Laws of tables and memories: what a table reads after a write, and that every operation keeps the canonical
form (keys strictly rising, no entry with the default). The reading laws hold of every list, canonical or not. -/

namespace Sys2Proof.Machine

section
variable {α : Type} (d : α)

theorem Tab.get_filter_ne (m : Tab α) {k j : Nat} (h : j ≠ k) :
    Tab.get d (m.filter (fun c => c.1 != k)) j = Tab.get d m j := by
  induction m with
  | nil => rfl
  | cons c t ih =>
    obtain ⟨a, v⟩ := c
    by_cases hk : a = k
    · have hja : j ≠ a := fun e => h (e.trans hk)
      simp [hk, Tab.get, ih, h]
    · simp [hk, Tab.get, ih]

theorem Tab.get_filter_eq (m : Tab α) (k : Nat) : Tab.get d (m.filter (fun c => c.1 != k)) k = d := by
  induction m with
  | nil => rfl
  | cons c t ih =>
    obtain ⟨a, v⟩ := c
    by_cases hk : a = k
    · simp [hk, ih]
    · simp [hk, Tab.get, ih, Ne.symm hk]

theorem Tab.get_put_self (m : Tab α) (k : Nat) (v : α) : Tab.get d (Tab.put m k v) k = v := by
  induction m with
  | nil => simp [Tab.put, Tab.get]
  | cons c t ih =>
    obtain ⟨a, w⟩ := c
    simp only [Tab.put]
    split
    · simp [Tab.get]
    · split
      · simp [Tab.get]
      · rename_i h _
        simp [Tab.get, ih, h]

theorem Tab.get_put_ne (m : Tab α) {k j : Nat} (v : α) (h : j ≠ k) : Tab.get d (Tab.put m k v) j = Tab.get d m j := by
  induction m with
  | nil => simp [Tab.put, Tab.get, h]
  | cons c t ih =>
    obtain ⟨a, w⟩ := c
    simp only [Tab.put]
    split
    · rename_i e
      subst e
      simp [Tab.get, h]
    · split
      · simp [Tab.get, h]
      · simp [Tab.get, ih]

variable [DecidableEq α]

/-- What was written at key k is read there. -/
@[simp] theorem Tab.get_set_self (m : Tab α) (k : Nat) (v : α) : Tab.get d (Tab.set d m k v) k = v := by
  unfold Tab.set Tab.erase
  split
  · rename_i e
    rw [Tab.get_filter_eq, e]
  · exact Tab.get_put_self d m k v

/-- Every other key reads as before. -/
theorem Tab.get_set_ne (m : Tab α) {k j : Nat} (v : α) (h : j ≠ k) :
    Tab.get d (Tab.set d m k v) j = Tab.get d m j := by
  unfold Tab.set Tab.erase
  split
  · exact Tab.get_filter_ne d m h
  · exact Tab.get_put_ne d m v h

/-- The same where the reader's default is another one. -/
theorem Tab.get_set_other (d' : α) (m : Tab α) {k j : Nat} (v : α) (h : j ≠ k) :
    Tab.get d' (Tab.set d m k v) j = Tab.get d' m j := by
  unfold Tab.set Tab.erase
  split
  · exact Tab.get_filter_ne d' m h
  · exact Tab.get_put_ne d' m v h

/-- Both cases in one. -/
theorem Tab.get_set (m : Tab α) (k j : Nat) (v : α) :
    Tab.get d (Tab.set d m k v) j = if j = k then v else Tab.get d m j := by
  split
  · rename_i e
    rw [e, Tab.get_set_self]
  · rename_i e
    exact Tab.get_set_ne d m v e

/-! ### The canonical form -/

theorem Tab.wfFrom_mono {m : Tab α} {lo lo' : Nat} (h : lo' ≤ lo) (w : Tab.wfFrom d lo m = true) :
    Tab.wfFrom d lo' m = true := by
  cases m with
  | nil => rfl
  | cons c t =>
    obtain ⟨a, v⟩ := c
    simp only [Tab.wfFrom, Bool.and_eq_true, decide_eq_true_eq] at w ⊢
    exact ⟨⟨h.trans w.1.1, w.1.2⟩, w.2⟩

theorem Tab.wfFrom_filter {m : Tab α} {lo : Nat} (p : Nat × α → Bool) (w : Tab.wfFrom d lo m = true) :
    Tab.wfFrom d lo (m.filter p) = true := by
  induction m generalizing lo with
  | nil => rfl
  | cons c t ih =>
    obtain ⟨a, v⟩ := c
    simp only [Tab.wfFrom, Bool.and_eq_true, decide_eq_true_eq] at w
    rw [List.filter_cons]
    split
    · simp only [Tab.wfFrom, Bool.and_eq_true, decide_eq_true_eq]
      exact ⟨w.1, ih w.2⟩
    · exact Tab.wfFrom_mono d (by omega) (ih w.2)

theorem Tab.wfFrom_put {m : Tab α} {lo k : Nat} {v : α} (hv : v ≠ d) (hk : lo ≤ k)
    (w : Tab.wfFrom d lo m = true) : Tab.wfFrom d lo (Tab.put m k v) = true := by
  induction m generalizing lo with
  | nil => simp [Tab.put, Tab.wfFrom, hv, hk]
  | cons c t ih =>
    obtain ⟨a, u⟩ := c
    simp only [Tab.wfFrom, Bool.and_eq_true, decide_eq_true_eq] at w
    simp only [Tab.put]
    split
    · rename_i e
      subst e
      simp only [Tab.wfFrom, Bool.and_eq_true, decide_eq_true_eq]
      exact ⟨⟨hk, hv⟩, w.2⟩
    · split
      · simp only [Tab.wfFrom, Bool.and_eq_true, decide_eq_true_eq]
        exact ⟨⟨hk, hv⟩, ⟨by omega, w.1.2⟩, w.2⟩
      · simp only [Tab.wfFrom, Bool.and_eq_true, decide_eq_true_eq]
        exact ⟨w.1, ih (by omega) w.2⟩

/-- A write keeps the canonical form. -/
@[simp] theorem Tab.wf_set {m : Tab α} (k : Nat) (v : α) (w : Tab.wf d m = true) : Tab.wf d (Tab.set d m k v) = true := by
  unfold Tab.wf Tab.set Tab.erase at *
  split
  · exact Tab.wfFrom_filter d _ w
  · rename_i hv
    exact Tab.wfFrom_put d hv (Nat.zero_le k) w

/-- Taking entries out keeps the canonical form. -/
theorem Tab.wf_filter {m : Tab α} (p : Nat × α → Bool) (w : Tab.wf d m = true) : Tab.wf d (m.filter p) = true :=
  Tab.wfFrom_filter d p w

end

/-! ### Memories -/

theorem Memory.byte_setByte (m : Memory) (a b : Nat) (v : Byte) :
    Memory.byte (Memory.setByte m a v) b = if b = a then v else Memory.byte m b :=
  Tab.get_set _ m a b v

@[simp] theorem Memory.wf_setByte {m : Memory} (a : Nat) (v : Byte) (w : Memory.wf m = true) :
    Memory.wf (Memory.setByte m a v) = true :=
  Tab.wf_set _ a v w

/-- Writing a run of bytes keeps the canonical form. -/
@[simp] theorem Memory.wf_write {m : Memory} (a : Nat) (bs : List Byte) (w : Memory.wf m = true) :
    Memory.wf (Memory.write m a bs) = true := by
  induction bs generalizing m a with
  | nil => exact w
  | cons b t ih => exact ih (a + 1) (Memory.wf_setByte a b w)

@[simp] theorem Memory.wf_writeLE {m : Memory} (a n v : Nat) (w : Memory.wf m = true) :
    Memory.wf (Memory.writeLE m a n v) = true :=
  Memory.wf_write a _ w

/-- Zeroing a run of bytes keeps the canonical form. -/
@[simp] theorem Memory.wf_zero {m : Memory} (a n : Nat) (w : Memory.wf m = true) : Memory.wf (Memory.zero m a n) = true := by
  unfold Memory.zero
  split
  · exact Tab.wf_filter _ _ w
  · exact Memory.wf_write a _ w

/-- A byte outside a written run reads as before. -/
theorem Memory.byte_write_outside (m : Memory) (a : Nat) (bs : List Byte) (b : Nat)
    (h : b < a ∨ a + bs.length ≤ b) : Memory.byte (Memory.write m a bs) b = Memory.byte m b := by
  induction bs generalizing m a with
  | nil => rfl
  | cons v t ih =>
    simp only [List.length_cons] at h
    rw [Memory.write, ih _ _ (by omega), Memory.byte_setByte]
    split
    · omega
    · rfl

/-- A byte inside a written run is the byte written there. -/
theorem Memory.byte_write_inside (m : Memory) (a : Nat) (bs : List Byte) (i : Nat) (h : i < bs.length) :
    Memory.byte (Memory.write m a bs) (a + i) = bs[i] := by
  induction bs generalizing m a i with
  | nil => simp at h
  | cons v t ih =>
    cases i with
    | zero =>
      rw [Memory.write, Memory.byte_write_outside _ _ _ _ (by omega), Memory.byte_setByte]
      simp
    | succ i =>
      simp only [List.length_cons] at h
      have e := ih (Memory.setByte m a v) (a + 1) i (by omega)
      rw [Memory.write, show a + (i + 1) = a + 1 + i by omega, e]
      simp

@[simp] theorem Memory.length_read (m : Memory) (a n : Nat) : (Memory.read m a n).length = n := by
  induction n generalizing a with
  | zero => rfl
  | succ n ih => simp [Memory.read, ih]

theorem Memory.getElem_read (m : Memory) (a n i : Nat) (h : i < (Memory.read m a n).length) :
    (Memory.read m a n)[i] = Memory.byte m (a + i) := by
  induction n generalizing a i with
  | zero => simp [Memory.read] at h
  | succ n ih =>
    cases i with
    | zero => simp [Memory.read]
    | succ i =>
      simp only [Memory.read, List.getElem_cons_succ]
      rw [ih]
      congr 1
      omega

/-- Reading back what was written. -/
@[simp] theorem Memory.read_write_self (m : Memory) (a : Nat) (bs : List Byte) :
    Memory.read (Memory.write m a bs) a bs.length = bs := by
  apply List.ext_getElem (by simp)
  intro i h1 h2
  rw [Memory.getElem_read, Memory.byte_write_inside _ _ _ _ h2]

/-- Reading bytes that a write does not touch. -/
theorem Memory.read_write_outside (m : Memory) (a : Nat) (bs : List Byte) (b n : Nat)
    (h : b + n ≤ a ∨ a + bs.length ≤ b) : Memory.read (Memory.write m a bs) b n = Memory.read m b n := by
  apply List.ext_getElem (by simp)
  intro i h1 h2
  rw [Memory.getElem_read, Memory.getElem_read]
  simp only [Memory.length_read] at h1
  exact Memory.byte_write_outside _ _ _ _ (by omega)

/-! ### Byte strings -/

@[simp] theorem length_leBytes (n v : Nat) : (leBytes n v).length = n := by
  induction n generalizing v with
  | zero => rfl
  | succ n ih => simp [leBytes, ih]

/-- The number that little-endian bytes of a number spell. -/
@[simp] theorem leNat_leBytes (n v : Nat) : leNat (leBytes n v) = v % 256 ^ n := by
  induction n generalizing v with
  | zero => simp [leBytes, leNat, Nat.mod_one]
  | succ n ih =>
    simp only [leBytes, leNat, ih, BitVec.toNat_ofNat]
    rw [show (2 : Nat) ^ 8 = 256 from rfl, Nat.pow_succ, Nat.mul_comm (256 ^ n) 256, Nat.mod_mul]

end Sys2Proof.Machine
end

