-- ==== Sys2Proof/Laws/State.lean ====
section
/-! SUPPORT. Laws of the named updates of State: which field and which sub-structure each one leaves, by rfl, and what is
read back after a write. -/

namespace Sys2Proof.Machine

/-! ### setFld -/

@[simp] theorem State.setFld_pending (s : State) (f : Field) (v : Nat) : (s.setFld f v).pending = s.pending := rfl
@[simp] theorem State.setFld_freeCtr (s : State) (f : Field) (v : Nat) : (s.setFld f v).freeCtr = s.freeCtr := rfl
@[simp] theorem State.setFld_now (s : State) (f : Field) (v : Nat) : (s.setFld f v).now = s.now := rfl
@[simp] theorem State.setFld_out (s : State) (f : Field) (v : Nat) : (s.setFld f v).out = s.out := rfl
@[simp] theorem State.setFld_host (s : State) (f : Field) (v : Nat) : (s.setFld f v).host = s.host := rfl
@[simp] theorem State.setFld_benches (s : State) (f : Field) (v : Nat) : (s.setFld f v).benches = s.benches := rfl
@[simp] theorem State.setFld_clusters (s : State) (f : Field) (v : Nat) : (s.setFld f v).clusters = s.clusters := rfl
@[simp] theorem State.setFld_cores (s : State) (f : Field) (v : Nat) : (s.setFld f v).cores = s.cores := rfl
@[simp] theorem State.setFld_mems (s : State) (f : Field) (v : Nat) : (s.setFld f v).mems = s.mems := rfl
@[simp] theorem State.setFld_parts (s : State) (f : Field) (v : Nat) : (s.setFld f v).parts = s.parts := rfl
@[simp] theorem State.setFld_run (s : State) (f : Field) (v : Nat) : (s.setFld f v).run = s.run := rfl
@[simp] theorem State.setFld_stowed (s : State) (f : Field) (v : Nat) : (s.setFld f v).stowed = s.stowed := rfl
@[simp] theorem State.setFld_plain (s : State) (f : Field) (v : Nat) : (s.setFld f v).plain = s.plain := rfl
@[simp] theorem State.setFld_links (s : State) (f : Field) (v : Nat) : (s.setFld f v).links = s.links := rfl
@[simp] theorem State.setFld_rcv (s : State) (f : Field) (v : Nat) : (s.setFld f v).rcv = s.rcv := rfl
@[simp] theorem State.setFld_sec (s : State) (f : Field) (v : Nat) : (s.setFld f v).sec = s.sec := rfl
@[simp] theorem State.setFld_dbg (s : State) (f : Field) (v : Nat) : (s.setFld f v).dbg = s.dbg := rfl
@[simp] theorem State.setFld_fw (s : State) (f : Field) (v : Nat) : (s.setFld f v).fw = s.fw := rfl
@[simp] theorem State.setFld_log (s : State) (f : Field) (v : Nat) : (s.setFld f v).log = s.log := rfl
@[simp] theorem State.setFld_pwr (s : State) (f : Field) (v : Nat) : (s.setFld f v).pwr = s.pwr := rfl
@[simp] theorem State.setFld_shelf (s : State) (f : Field) (v : Nat) : (s.setFld f v).shelf = s.shelf := rfl
@[simp] theorem State.setFld_eth (s : State) (f : Field) (v : Nat) : (s.setFld f v).eth = s.eth := rfl
@[simp] theorem State.setFld_rma (s : State) (f : Field) (v : Nat) : (s.setFld f v).rma = s.rma := rfl
@[simp] theorem State.setFld_tim (s : State) (f : Field) (v : Nat) : (s.setFld f v).tim = s.tim := rfl
@[simp] theorem State.setFld_mgmt (s : State) (f : Field) (v : Nat) : (s.setFld f v).mgmt = s.mgmt := rfl
@[simp] theorem State.setFld_pins (s : State) (f : Field) (v : Nat) : (s.setFld f v).pins = s.pins := rfl
@[simp] theorem State.setFld_mfg (s : State) (f : Field) (v : Nat) : (s.setFld f v).mfg = s.mfg := rfl
@[simp] theorem State.setFld_saved (s : State) (f : Field) (v : Nat) : (s.setFld f v).saved = s.saved := rfl
@[simp] theorem State.setFld_restores (s : State) (f : Field) (v : Nat) : (s.setFld f v).restores = s.restores := rfl
@[simp] theorem State.setFld_bench (s : State) (f : Field) (v : Nat) (c : Nat) : (s.setFld f v).bench c = s.bench c := rfl
@[simp] theorem State.setFld_cluster (s : State) (f : Field) (v : Nat) (c : Nat) : (s.setFld f v).cluster c = s.cluster c := rfl
@[simp] theorem State.setFld_core (s : State) (f : Field) (v : Nat) (c : Nat) : (s.setFld f v).core c = s.core c := rfl
@[simp] theorem State.setFld_memUnit (s : State) (f : Field) (v : Nat) (c : Nat) : (s.setFld f v).memUnit c = s.memUnit c := rfl
@[simp] theorem State.setFld_part (s : State) (f : Field) (v : Nat) (c : Nat) : (s.setFld f v).part c = s.part c := rfl
@[simp] theorem State.setFld_link (s : State) (f : Field) (v : Nat) (c : Nat) : (s.setFld f v).link c = s.link c := rfl
@[simp] theorem State.setFld_fn (s : State) (f : Field) (v : Nat) (c : Nat) : (s.setFld f v).fn c = s.fn c := rfl
@[simp] theorem State.setFld_ring (s : State) (f : Field) (v : Nat) (c q : Nat) : (s.setFld f v).ring c q = s.ring c q := rfl

/-! ### setFlag -/

@[simp] theorem State.setFlag_pending (s : State) (f : Field) (v : Bool) : (s.setFlag f v).pending = s.pending := rfl
@[simp] theorem State.setFlag_freeCtr (s : State) (f : Field) (v : Bool) : (s.setFlag f v).freeCtr = s.freeCtr := rfl
@[simp] theorem State.setFlag_now (s : State) (f : Field) (v : Bool) : (s.setFlag f v).now = s.now := rfl
@[simp] theorem State.setFlag_out (s : State) (f : Field) (v : Bool) : (s.setFlag f v).out = s.out := rfl
@[simp] theorem State.setFlag_host (s : State) (f : Field) (v : Bool) : (s.setFlag f v).host = s.host := rfl
@[simp] theorem State.setFlag_benches (s : State) (f : Field) (v : Bool) : (s.setFlag f v).benches = s.benches := rfl
@[simp] theorem State.setFlag_clusters (s : State) (f : Field) (v : Bool) : (s.setFlag f v).clusters = s.clusters := rfl
@[simp] theorem State.setFlag_cores (s : State) (f : Field) (v : Bool) : (s.setFlag f v).cores = s.cores := rfl
@[simp] theorem State.setFlag_mems (s : State) (f : Field) (v : Bool) : (s.setFlag f v).mems = s.mems := rfl
@[simp] theorem State.setFlag_parts (s : State) (f : Field) (v : Bool) : (s.setFlag f v).parts = s.parts := rfl
@[simp] theorem State.setFlag_run (s : State) (f : Field) (v : Bool) : (s.setFlag f v).run = s.run := rfl
@[simp] theorem State.setFlag_stowed (s : State) (f : Field) (v : Bool) : (s.setFlag f v).stowed = s.stowed := rfl
@[simp] theorem State.setFlag_plain (s : State) (f : Field) (v : Bool) : (s.setFlag f v).plain = s.plain := rfl
@[simp] theorem State.setFlag_links (s : State) (f : Field) (v : Bool) : (s.setFlag f v).links = s.links := rfl
@[simp] theorem State.setFlag_rcv (s : State) (f : Field) (v : Bool) : (s.setFlag f v).rcv = s.rcv := rfl
@[simp] theorem State.setFlag_sec (s : State) (f : Field) (v : Bool) : (s.setFlag f v).sec = s.sec := rfl
@[simp] theorem State.setFlag_dbg (s : State) (f : Field) (v : Bool) : (s.setFlag f v).dbg = s.dbg := rfl
@[simp] theorem State.setFlag_fw (s : State) (f : Field) (v : Bool) : (s.setFlag f v).fw = s.fw := rfl
@[simp] theorem State.setFlag_log (s : State) (f : Field) (v : Bool) : (s.setFlag f v).log = s.log := rfl
@[simp] theorem State.setFlag_pwr (s : State) (f : Field) (v : Bool) : (s.setFlag f v).pwr = s.pwr := rfl
@[simp] theorem State.setFlag_shelf (s : State) (f : Field) (v : Bool) : (s.setFlag f v).shelf = s.shelf := rfl
@[simp] theorem State.setFlag_eth (s : State) (f : Field) (v : Bool) : (s.setFlag f v).eth = s.eth := rfl
@[simp] theorem State.setFlag_rma (s : State) (f : Field) (v : Bool) : (s.setFlag f v).rma = s.rma := rfl
@[simp] theorem State.setFlag_tim (s : State) (f : Field) (v : Bool) : (s.setFlag f v).tim = s.tim := rfl
@[simp] theorem State.setFlag_mgmt (s : State) (f : Field) (v : Bool) : (s.setFlag f v).mgmt = s.mgmt := rfl
@[simp] theorem State.setFlag_pins (s : State) (f : Field) (v : Bool) : (s.setFlag f v).pins = s.pins := rfl
@[simp] theorem State.setFlag_mfg (s : State) (f : Field) (v : Bool) : (s.setFlag f v).mfg = s.mfg := rfl
@[simp] theorem State.setFlag_saved (s : State) (f : Field) (v : Bool) : (s.setFlag f v).saved = s.saved := rfl
@[simp] theorem State.setFlag_restores (s : State) (f : Field) (v : Bool) : (s.setFlag f v).restores = s.restores := rfl
@[simp] theorem State.setFlag_bench (s : State) (f : Field) (v : Bool) (c : Nat) : (s.setFlag f v).bench c = s.bench c := rfl
@[simp] theorem State.setFlag_cluster (s : State) (f : Field) (v : Bool) (c : Nat) : (s.setFlag f v).cluster c = s.cluster c := rfl
@[simp] theorem State.setFlag_core (s : State) (f : Field) (v : Bool) (c : Nat) : (s.setFlag f v).core c = s.core c := rfl
@[simp] theorem State.setFlag_memUnit (s : State) (f : Field) (v : Bool) (c : Nat) : (s.setFlag f v).memUnit c = s.memUnit c := rfl
@[simp] theorem State.setFlag_part (s : State) (f : Field) (v : Bool) (c : Nat) : (s.setFlag f v).part c = s.part c := rfl
@[simp] theorem State.setFlag_link (s : State) (f : Field) (v : Bool) (c : Nat) : (s.setFlag f v).link c = s.link c := rfl
@[simp] theorem State.setFlag_fn (s : State) (f : Field) (v : Bool) (c : Nat) : (s.setFlag f v).fn c = s.fn c := rfl
@[simp] theorem State.setFlag_ring (s : State) (f : Field) (v : Bool) (c q : Nat) : (s.setFlag f v).ring c q = s.ring c q := rfl

/-! ### count -/

@[simp] theorem State.count_pending (s : State) (f : Field) (n : Nat) : (s.count f n).pending = s.pending := rfl
@[simp] theorem State.count_freeCtr (s : State) (f : Field) (n : Nat) : (s.count f n).freeCtr = s.freeCtr := rfl
@[simp] theorem State.count_now (s : State) (f : Field) (n : Nat) : (s.count f n).now = s.now := rfl
@[simp] theorem State.count_out (s : State) (f : Field) (n : Nat) : (s.count f n).out = s.out := rfl
@[simp] theorem State.count_host (s : State) (f : Field) (n : Nat) : (s.count f n).host = s.host := rfl
@[simp] theorem State.count_benches (s : State) (f : Field) (n : Nat) : (s.count f n).benches = s.benches := rfl
@[simp] theorem State.count_clusters (s : State) (f : Field) (n : Nat) : (s.count f n).clusters = s.clusters := rfl
@[simp] theorem State.count_cores (s : State) (f : Field) (n : Nat) : (s.count f n).cores = s.cores := rfl
@[simp] theorem State.count_mems (s : State) (f : Field) (n : Nat) : (s.count f n).mems = s.mems := rfl
@[simp] theorem State.count_parts (s : State) (f : Field) (n : Nat) : (s.count f n).parts = s.parts := rfl
@[simp] theorem State.count_run (s : State) (f : Field) (n : Nat) : (s.count f n).run = s.run := rfl
@[simp] theorem State.count_stowed (s : State) (f : Field) (n : Nat) : (s.count f n).stowed = s.stowed := rfl
@[simp] theorem State.count_plain (s : State) (f : Field) (n : Nat) : (s.count f n).plain = s.plain := rfl
@[simp] theorem State.count_links (s : State) (f : Field) (n : Nat) : (s.count f n).links = s.links := rfl
@[simp] theorem State.count_rcv (s : State) (f : Field) (n : Nat) : (s.count f n).rcv = s.rcv := rfl
@[simp] theorem State.count_sec (s : State) (f : Field) (n : Nat) : (s.count f n).sec = s.sec := rfl
@[simp] theorem State.count_dbg (s : State) (f : Field) (n : Nat) : (s.count f n).dbg = s.dbg := rfl
@[simp] theorem State.count_fw (s : State) (f : Field) (n : Nat) : (s.count f n).fw = s.fw := rfl
@[simp] theorem State.count_log (s : State) (f : Field) (n : Nat) : (s.count f n).log = s.log := rfl
@[simp] theorem State.count_pwr (s : State) (f : Field) (n : Nat) : (s.count f n).pwr = s.pwr := rfl
@[simp] theorem State.count_shelf (s : State) (f : Field) (n : Nat) : (s.count f n).shelf = s.shelf := rfl
@[simp] theorem State.count_eth (s : State) (f : Field) (n : Nat) : (s.count f n).eth = s.eth := rfl
@[simp] theorem State.count_rma (s : State) (f : Field) (n : Nat) : (s.count f n).rma = s.rma := rfl
@[simp] theorem State.count_tim (s : State) (f : Field) (n : Nat) : (s.count f n).tim = s.tim := rfl
@[simp] theorem State.count_mgmt (s : State) (f : Field) (n : Nat) : (s.count f n).mgmt = s.mgmt := rfl
@[simp] theorem State.count_pins (s : State) (f : Field) (n : Nat) : (s.count f n).pins = s.pins := rfl
@[simp] theorem State.count_mfg (s : State) (f : Field) (n : Nat) : (s.count f n).mfg = s.mfg := rfl
@[simp] theorem State.count_saved (s : State) (f : Field) (n : Nat) : (s.count f n).saved = s.saved := rfl
@[simp] theorem State.count_restores (s : State) (f : Field) (n : Nat) : (s.count f n).restores = s.restores := rfl
@[simp] theorem State.count_bench (s : State) (f : Field) (n : Nat) (c : Nat) : (s.count f n).bench c = s.bench c := rfl
@[simp] theorem State.count_cluster (s : State) (f : Field) (n : Nat) (c : Nat) : (s.count f n).cluster c = s.cluster c := rfl
@[simp] theorem State.count_core (s : State) (f : Field) (n : Nat) (c : Nat) : (s.count f n).core c = s.core c := rfl
@[simp] theorem State.count_memUnit (s : State) (f : Field) (n : Nat) (c : Nat) : (s.count f n).memUnit c = s.memUnit c := rfl
@[simp] theorem State.count_part (s : State) (f : Field) (n : Nat) (c : Nat) : (s.count f n).part c = s.part c := rfl
@[simp] theorem State.count_link (s : State) (f : Field) (n : Nat) (c : Nat) : (s.count f n).link c = s.link c := rfl
@[simp] theorem State.count_fn (s : State) (f : Field) (n : Nat) (c : Nat) : (s.count f n).fn c = s.fn c := rfl
@[simp] theorem State.count_ring (s : State) (f : Field) (n : Nat) (c q : Nat) : (s.count f n).ring c q = s.ring c q := rfl

/-! ### wrapAdd -/

@[simp] theorem State.wrapAdd_pending (s : State) (f : Field) (n : Nat) : (s.wrapAdd f n).pending = s.pending := rfl
@[simp] theorem State.wrapAdd_freeCtr (s : State) (f : Field) (n : Nat) : (s.wrapAdd f n).freeCtr = s.freeCtr := rfl
@[simp] theorem State.wrapAdd_now (s : State) (f : Field) (n : Nat) : (s.wrapAdd f n).now = s.now := rfl
@[simp] theorem State.wrapAdd_out (s : State) (f : Field) (n : Nat) : (s.wrapAdd f n).out = s.out := rfl
@[simp] theorem State.wrapAdd_host (s : State) (f : Field) (n : Nat) : (s.wrapAdd f n).host = s.host := rfl
@[simp] theorem State.wrapAdd_benches (s : State) (f : Field) (n : Nat) : (s.wrapAdd f n).benches = s.benches := rfl
@[simp] theorem State.wrapAdd_clusters (s : State) (f : Field) (n : Nat) : (s.wrapAdd f n).clusters = s.clusters := rfl
@[simp] theorem State.wrapAdd_cores (s : State) (f : Field) (n : Nat) : (s.wrapAdd f n).cores = s.cores := rfl
@[simp] theorem State.wrapAdd_mems (s : State) (f : Field) (n : Nat) : (s.wrapAdd f n).mems = s.mems := rfl
@[simp] theorem State.wrapAdd_parts (s : State) (f : Field) (n : Nat) : (s.wrapAdd f n).parts = s.parts := rfl
@[simp] theorem State.wrapAdd_run (s : State) (f : Field) (n : Nat) : (s.wrapAdd f n).run = s.run := rfl
@[simp] theorem State.wrapAdd_stowed (s : State) (f : Field) (n : Nat) : (s.wrapAdd f n).stowed = s.stowed := rfl
@[simp] theorem State.wrapAdd_plain (s : State) (f : Field) (n : Nat) : (s.wrapAdd f n).plain = s.plain := rfl
@[simp] theorem State.wrapAdd_links (s : State) (f : Field) (n : Nat) : (s.wrapAdd f n).links = s.links := rfl
@[simp] theorem State.wrapAdd_rcv (s : State) (f : Field) (n : Nat) : (s.wrapAdd f n).rcv = s.rcv := rfl
@[simp] theorem State.wrapAdd_sec (s : State) (f : Field) (n : Nat) : (s.wrapAdd f n).sec = s.sec := rfl
@[simp] theorem State.wrapAdd_dbg (s : State) (f : Field) (n : Nat) : (s.wrapAdd f n).dbg = s.dbg := rfl
@[simp] theorem State.wrapAdd_fw (s : State) (f : Field) (n : Nat) : (s.wrapAdd f n).fw = s.fw := rfl
@[simp] theorem State.wrapAdd_log (s : State) (f : Field) (n : Nat) : (s.wrapAdd f n).log = s.log := rfl
@[simp] theorem State.wrapAdd_pwr (s : State) (f : Field) (n : Nat) : (s.wrapAdd f n).pwr = s.pwr := rfl
@[simp] theorem State.wrapAdd_shelf (s : State) (f : Field) (n : Nat) : (s.wrapAdd f n).shelf = s.shelf := rfl
@[simp] theorem State.wrapAdd_eth (s : State) (f : Field) (n : Nat) : (s.wrapAdd f n).eth = s.eth := rfl
@[simp] theorem State.wrapAdd_rma (s : State) (f : Field) (n : Nat) : (s.wrapAdd f n).rma = s.rma := rfl
@[simp] theorem State.wrapAdd_tim (s : State) (f : Field) (n : Nat) : (s.wrapAdd f n).tim = s.tim := rfl
@[simp] theorem State.wrapAdd_mgmt (s : State) (f : Field) (n : Nat) : (s.wrapAdd f n).mgmt = s.mgmt := rfl
@[simp] theorem State.wrapAdd_pins (s : State) (f : Field) (n : Nat) : (s.wrapAdd f n).pins = s.pins := rfl
@[simp] theorem State.wrapAdd_mfg (s : State) (f : Field) (n : Nat) : (s.wrapAdd f n).mfg = s.mfg := rfl
@[simp] theorem State.wrapAdd_saved (s : State) (f : Field) (n : Nat) : (s.wrapAdd f n).saved = s.saved := rfl
@[simp] theorem State.wrapAdd_restores (s : State) (f : Field) (n : Nat) : (s.wrapAdd f n).restores = s.restores := rfl
@[simp] theorem State.wrapAdd_bench (s : State) (f : Field) (n : Nat) (c : Nat) : (s.wrapAdd f n).bench c = s.bench c := rfl
@[simp] theorem State.wrapAdd_cluster (s : State) (f : Field) (n : Nat) (c : Nat) : (s.wrapAdd f n).cluster c = s.cluster c := rfl
@[simp] theorem State.wrapAdd_core (s : State) (f : Field) (n : Nat) (c : Nat) : (s.wrapAdd f n).core c = s.core c := rfl
@[simp] theorem State.wrapAdd_memUnit (s : State) (f : Field) (n : Nat) (c : Nat) : (s.wrapAdd f n).memUnit c = s.memUnit c := rfl
@[simp] theorem State.wrapAdd_part (s : State) (f : Field) (n : Nat) (c : Nat) : (s.wrapAdd f n).part c = s.part c := rfl
@[simp] theorem State.wrapAdd_link (s : State) (f : Field) (n : Nat) (c : Nat) : (s.wrapAdd f n).link c = s.link c := rfl
@[simp] theorem State.wrapAdd_fn (s : State) (f : Field) (n : Nat) (c : Nat) : (s.wrapAdd f n).fn c = s.fn c := rfl
@[simp] theorem State.wrapAdd_ring (s : State) (f : Field) (n : Nat) (c q : Nat) : (s.wrapAdd f n).ring c q = s.ring c q := rfl

/-! ### setRequest -/

@[simp] theorem State.setRequest_pending (s : State) (b v : Nat) : (s.setRequest b v).pending = s.pending := rfl
@[simp] theorem State.setRequest_freeCtr (s : State) (b v : Nat) : (s.setRequest b v).freeCtr = s.freeCtr := rfl
@[simp] theorem State.setRequest_now (s : State) (b v : Nat) : (s.setRequest b v).now = s.now := rfl
@[simp] theorem State.setRequest_out (s : State) (b v : Nat) : (s.setRequest b v).out = s.out := rfl
@[simp] theorem State.setRequest_host (s : State) (b v : Nat) : (s.setRequest b v).host = s.host := rfl
@[simp] theorem State.setRequest_benches (s : State) (b v : Nat) : (s.setRequest b v).benches = s.benches := rfl
@[simp] theorem State.setRequest_clusters (s : State) (b v : Nat) : (s.setRequest b v).clusters = s.clusters := rfl
@[simp] theorem State.setRequest_cores (s : State) (b v : Nat) : (s.setRequest b v).cores = s.cores := rfl
@[simp] theorem State.setRequest_mems (s : State) (b v : Nat) : (s.setRequest b v).mems = s.mems := rfl
@[simp] theorem State.setRequest_parts (s : State) (b v : Nat) : (s.setRequest b v).parts = s.parts := rfl
@[simp] theorem State.setRequest_run (s : State) (b v : Nat) : (s.setRequest b v).run = s.run := rfl
@[simp] theorem State.setRequest_stowed (s : State) (b v : Nat) : (s.setRequest b v).stowed = s.stowed := rfl
@[simp] theorem State.setRequest_plain (s : State) (b v : Nat) : (s.setRequest b v).plain = s.plain := rfl
@[simp] theorem State.setRequest_links (s : State) (b v : Nat) : (s.setRequest b v).links = s.links := rfl
@[simp] theorem State.setRequest_rcv (s : State) (b v : Nat) : (s.setRequest b v).rcv = s.rcv := rfl
@[simp] theorem State.setRequest_sec (s : State) (b v : Nat) : (s.setRequest b v).sec = s.sec := rfl
@[simp] theorem State.setRequest_dbg (s : State) (b v : Nat) : (s.setRequest b v).dbg = s.dbg := rfl
@[simp] theorem State.setRequest_fw (s : State) (b v : Nat) : (s.setRequest b v).fw = s.fw := rfl
@[simp] theorem State.setRequest_log (s : State) (b v : Nat) : (s.setRequest b v).log = s.log := rfl
@[simp] theorem State.setRequest_pwr (s : State) (b v : Nat) : (s.setRequest b v).pwr = s.pwr := rfl
@[simp] theorem State.setRequest_shelf (s : State) (b v : Nat) : (s.setRequest b v).shelf = s.shelf := rfl
@[simp] theorem State.setRequest_eth (s : State) (b v : Nat) : (s.setRequest b v).eth = s.eth := rfl
@[simp] theorem State.setRequest_rma (s : State) (b v : Nat) : (s.setRequest b v).rma = s.rma := rfl
@[simp] theorem State.setRequest_tim (s : State) (b v : Nat) : (s.setRequest b v).tim = s.tim := rfl
@[simp] theorem State.setRequest_mgmt (s : State) (b v : Nat) : (s.setRequest b v).mgmt = s.mgmt := rfl
@[simp] theorem State.setRequest_pins (s : State) (b v : Nat) : (s.setRequest b v).pins = s.pins := rfl
@[simp] theorem State.setRequest_mfg (s : State) (b v : Nat) : (s.setRequest b v).mfg = s.mfg := rfl
@[simp] theorem State.setRequest_saved (s : State) (b v : Nat) : (s.setRequest b v).saved = s.saved := rfl
@[simp] theorem State.setRequest_restores (s : State) (b v : Nat) : (s.setRequest b v).restores = s.restores := rfl
@[simp] theorem State.setRequest_bench (s : State) (b v : Nat) (c : Nat) : (s.setRequest b v).bench c = s.bench c := rfl
@[simp] theorem State.setRequest_cluster (s : State) (b v : Nat) (c : Nat) : (s.setRequest b v).cluster c = s.cluster c := rfl
@[simp] theorem State.setRequest_core (s : State) (b v : Nat) (c : Nat) : (s.setRequest b v).core c = s.core c := rfl
@[simp] theorem State.setRequest_memUnit (s : State) (b v : Nat) (c : Nat) : (s.setRequest b v).memUnit c = s.memUnit c := rfl
@[simp] theorem State.setRequest_part (s : State) (b v : Nat) (c : Nat) : (s.setRequest b v).part c = s.part c := rfl
@[simp] theorem State.setRequest_link (s : State) (b v : Nat) (c : Nat) : (s.setRequest b v).link c = s.link c := rfl
@[simp] theorem State.setRequest_fn (s : State) (b v : Nat) (c : Nat) : (s.setRequest b v).fn c = s.fn c := rfl
@[simp] theorem State.setRequest_ring (s : State) (b v : Nat) (c q : Nat) : (s.setRequest b v).ring c q = s.ring c q := rfl

/-! ### bumpFree -/

@[simp] theorem State.bumpFree_pending (s : State) : (s.bumpFree).pending = s.pending := rfl
@[simp] theorem State.bumpFree_now (s : State) : (s.bumpFree).now = s.now := rfl
@[simp] theorem State.bumpFree_out (s : State) : (s.bumpFree).out = s.out := rfl
@[simp] theorem State.bumpFree_regs (s : State) : (s.bumpFree).regs = s.regs := rfl
@[simp] theorem State.bumpFree_host (s : State) : (s.bumpFree).host = s.host := rfl
@[simp] theorem State.bumpFree_benches (s : State) : (s.bumpFree).benches = s.benches := rfl
@[simp] theorem State.bumpFree_clusters (s : State) : (s.bumpFree).clusters = s.clusters := rfl
@[simp] theorem State.bumpFree_cores (s : State) : (s.bumpFree).cores = s.cores := rfl
@[simp] theorem State.bumpFree_mems (s : State) : (s.bumpFree).mems = s.mems := rfl
@[simp] theorem State.bumpFree_parts (s : State) : (s.bumpFree).parts = s.parts := rfl
@[simp] theorem State.bumpFree_run (s : State) : (s.bumpFree).run = s.run := rfl
@[simp] theorem State.bumpFree_stowed (s : State) : (s.bumpFree).stowed = s.stowed := rfl
@[simp] theorem State.bumpFree_plain (s : State) : (s.bumpFree).plain = s.plain := rfl
@[simp] theorem State.bumpFree_links (s : State) : (s.bumpFree).links = s.links := rfl
@[simp] theorem State.bumpFree_rcv (s : State) : (s.bumpFree).rcv = s.rcv := rfl
@[simp] theorem State.bumpFree_sec (s : State) : (s.bumpFree).sec = s.sec := rfl
@[simp] theorem State.bumpFree_dbg (s : State) : (s.bumpFree).dbg = s.dbg := rfl
@[simp] theorem State.bumpFree_fw (s : State) : (s.bumpFree).fw = s.fw := rfl
@[simp] theorem State.bumpFree_log (s : State) : (s.bumpFree).log = s.log := rfl
@[simp] theorem State.bumpFree_pwr (s : State) : (s.bumpFree).pwr = s.pwr := rfl
@[simp] theorem State.bumpFree_shelf (s : State) : (s.bumpFree).shelf = s.shelf := rfl
@[simp] theorem State.bumpFree_eth (s : State) : (s.bumpFree).eth = s.eth := rfl
@[simp] theorem State.bumpFree_rma (s : State) : (s.bumpFree).rma = s.rma := rfl
@[simp] theorem State.bumpFree_tim (s : State) : (s.bumpFree).tim = s.tim := rfl
@[simp] theorem State.bumpFree_mgmt (s : State) : (s.bumpFree).mgmt = s.mgmt := rfl
@[simp] theorem State.bumpFree_pins (s : State) : (s.bumpFree).pins = s.pins := rfl
@[simp] theorem State.bumpFree_mfg (s : State) : (s.bumpFree).mfg = s.mfg := rfl
@[simp] theorem State.bumpFree_saved (s : State) : (s.bumpFree).saved = s.saved := rfl
@[simp] theorem State.bumpFree_restores (s : State) : (s.bumpFree).restores = s.restores := rfl
@[simp] theorem State.bumpFree_bench (s : State) (c : Nat) : (s.bumpFree).bench c = s.bench c := rfl
@[simp] theorem State.bumpFree_cluster (s : State) (c : Nat) : (s.bumpFree).cluster c = s.cluster c := rfl
@[simp] theorem State.bumpFree_core (s : State) (c : Nat) : (s.bumpFree).core c = s.core c := rfl
@[simp] theorem State.bumpFree_memUnit (s : State) (c : Nat) : (s.bumpFree).memUnit c = s.memUnit c := rfl
@[simp] theorem State.bumpFree_part (s : State) (c : Nat) : (s.bumpFree).part c = s.part c := rfl
@[simp] theorem State.bumpFree_link (s : State) (c : Nat) : (s.bumpFree).link c = s.link c := rfl
@[simp] theorem State.bumpFree_fn (s : State) (c : Nat) : (s.bumpFree).fn c = s.fn c := rfl
@[simp] theorem State.bumpFree_ring (s : State) (c q : Nat) : (s.bumpFree).ring c q = s.ring c q := rfl
@[simp] theorem State.bumpFree_fld (s : State) (g : Field) : (s.bumpFree).fld g = s.fld g := rfl
@[simp] theorem State.bumpFree_flag (s : State) (g : Field) : (s.bumpFree).flag g = s.flag g := rfl
@[simp] theorem State.bumpFree_request (s : State) (c : Nat) : (s.bumpFree).request c = s.request c := rfl

/-! ### emit -/

@[simp] theorem State.emit_pending (s : State) (m : Out) : (s.emit m).pending = s.pending := rfl
@[simp] theorem State.emit_freeCtr (s : State) (m : Out) : (s.emit m).freeCtr = s.freeCtr := rfl
@[simp] theorem State.emit_now (s : State) (m : Out) : (s.emit m).now = s.now := rfl
@[simp] theorem State.emit_regs (s : State) (m : Out) : (s.emit m).regs = s.regs := rfl
@[simp] theorem State.emit_host (s : State) (m : Out) : (s.emit m).host = s.host := rfl
@[simp] theorem State.emit_benches (s : State) (m : Out) : (s.emit m).benches = s.benches := rfl
@[simp] theorem State.emit_clusters (s : State) (m : Out) : (s.emit m).clusters = s.clusters := rfl
@[simp] theorem State.emit_cores (s : State) (m : Out) : (s.emit m).cores = s.cores := rfl
@[simp] theorem State.emit_mems (s : State) (m : Out) : (s.emit m).mems = s.mems := rfl
@[simp] theorem State.emit_parts (s : State) (m : Out) : (s.emit m).parts = s.parts := rfl
@[simp] theorem State.emit_run (s : State) (m : Out) : (s.emit m).run = s.run := rfl
@[simp] theorem State.emit_stowed (s : State) (m : Out) : (s.emit m).stowed = s.stowed := rfl
@[simp] theorem State.emit_plain (s : State) (m : Out) : (s.emit m).plain = s.plain := rfl
@[simp] theorem State.emit_links (s : State) (m : Out) : (s.emit m).links = s.links := rfl
@[simp] theorem State.emit_rcv (s : State) (m : Out) : (s.emit m).rcv = s.rcv := rfl
@[simp] theorem State.emit_sec (s : State) (m : Out) : (s.emit m).sec = s.sec := rfl
@[simp] theorem State.emit_dbg (s : State) (m : Out) : (s.emit m).dbg = s.dbg := rfl
@[simp] theorem State.emit_fw (s : State) (m : Out) : (s.emit m).fw = s.fw := rfl
@[simp] theorem State.emit_log (s : State) (m : Out) : (s.emit m).log = s.log := rfl
@[simp] theorem State.emit_pwr (s : State) (m : Out) : (s.emit m).pwr = s.pwr := rfl
@[simp] theorem State.emit_shelf (s : State) (m : Out) : (s.emit m).shelf = s.shelf := rfl
@[simp] theorem State.emit_eth (s : State) (m : Out) : (s.emit m).eth = s.eth := rfl
@[simp] theorem State.emit_rma (s : State) (m : Out) : (s.emit m).rma = s.rma := rfl
@[simp] theorem State.emit_tim (s : State) (m : Out) : (s.emit m).tim = s.tim := rfl
@[simp] theorem State.emit_mgmt (s : State) (m : Out) : (s.emit m).mgmt = s.mgmt := rfl
@[simp] theorem State.emit_pins (s : State) (m : Out) : (s.emit m).pins = s.pins := rfl
@[simp] theorem State.emit_mfg (s : State) (m : Out) : (s.emit m).mfg = s.mfg := rfl
@[simp] theorem State.emit_saved (s : State) (m : Out) : (s.emit m).saved = s.saved := rfl
@[simp] theorem State.emit_restores (s : State) (m : Out) : (s.emit m).restores = s.restores := rfl
@[simp] theorem State.emit_bench (s : State) (m : Out) (c : Nat) : (s.emit m).bench c = s.bench c := rfl
@[simp] theorem State.emit_cluster (s : State) (m : Out) (c : Nat) : (s.emit m).cluster c = s.cluster c := rfl
@[simp] theorem State.emit_core (s : State) (m : Out) (c : Nat) : (s.emit m).core c = s.core c := rfl
@[simp] theorem State.emit_memUnit (s : State) (m : Out) (c : Nat) : (s.emit m).memUnit c = s.memUnit c := rfl
@[simp] theorem State.emit_part (s : State) (m : Out) (c : Nat) : (s.emit m).part c = s.part c := rfl
@[simp] theorem State.emit_link (s : State) (m : Out) (c : Nat) : (s.emit m).link c = s.link c := rfl
@[simp] theorem State.emit_fn (s : State) (m : Out) (c : Nat) : (s.emit m).fn c = s.fn c := rfl
@[simp] theorem State.emit_ring (s : State) (m : Out) (c q : Nat) : (s.emit m).ring c q = s.ring c q := rfl
@[simp] theorem State.emit_fld (s : State) (m : Out) (g : Field) : (s.emit m).fld g = s.fld g := rfl
@[simp] theorem State.emit_flag (s : State) (m : Out) (g : Field) : (s.emit m).flag g = s.flag g := rfl
@[simp] theorem State.emit_request (s : State) (m : Out) (c : Nat) : (s.emit m).request c = s.request c := rfl

/-! ### setBench -/

@[simp] theorem State.setBench_pending (s : State) (b : Nat) (x : Bench) : (s.setBench b x).pending = s.pending := rfl
@[simp] theorem State.setBench_freeCtr (s : State) (b : Nat) (x : Bench) : (s.setBench b x).freeCtr = s.freeCtr := rfl
@[simp] theorem State.setBench_now (s : State) (b : Nat) (x : Bench) : (s.setBench b x).now = s.now := rfl
@[simp] theorem State.setBench_out (s : State) (b : Nat) (x : Bench) : (s.setBench b x).out = s.out := rfl
@[simp] theorem State.setBench_regs (s : State) (b : Nat) (x : Bench) : (s.setBench b x).regs = s.regs := rfl
@[simp] theorem State.setBench_host (s : State) (b : Nat) (x : Bench) : (s.setBench b x).host = s.host := rfl
@[simp] theorem State.setBench_clusters (s : State) (b : Nat) (x : Bench) : (s.setBench b x).clusters = s.clusters := rfl
@[simp] theorem State.setBench_cores (s : State) (b : Nat) (x : Bench) : (s.setBench b x).cores = s.cores := rfl
@[simp] theorem State.setBench_mems (s : State) (b : Nat) (x : Bench) : (s.setBench b x).mems = s.mems := rfl
@[simp] theorem State.setBench_parts (s : State) (b : Nat) (x : Bench) : (s.setBench b x).parts = s.parts := rfl
@[simp] theorem State.setBench_run (s : State) (b : Nat) (x : Bench) : (s.setBench b x).run = s.run := rfl
@[simp] theorem State.setBench_stowed (s : State) (b : Nat) (x : Bench) : (s.setBench b x).stowed = s.stowed := rfl
@[simp] theorem State.setBench_plain (s : State) (b : Nat) (x : Bench) : (s.setBench b x).plain = s.plain := rfl
@[simp] theorem State.setBench_links (s : State) (b : Nat) (x : Bench) : (s.setBench b x).links = s.links := rfl
@[simp] theorem State.setBench_rcv (s : State) (b : Nat) (x : Bench) : (s.setBench b x).rcv = s.rcv := rfl
@[simp] theorem State.setBench_sec (s : State) (b : Nat) (x : Bench) : (s.setBench b x).sec = s.sec := rfl
@[simp] theorem State.setBench_dbg (s : State) (b : Nat) (x : Bench) : (s.setBench b x).dbg = s.dbg := rfl
@[simp] theorem State.setBench_fw (s : State) (b : Nat) (x : Bench) : (s.setBench b x).fw = s.fw := rfl
@[simp] theorem State.setBench_log (s : State) (b : Nat) (x : Bench) : (s.setBench b x).log = s.log := rfl
@[simp] theorem State.setBench_pwr (s : State) (b : Nat) (x : Bench) : (s.setBench b x).pwr = s.pwr := rfl
@[simp] theorem State.setBench_shelf (s : State) (b : Nat) (x : Bench) : (s.setBench b x).shelf = s.shelf := rfl
@[simp] theorem State.setBench_eth (s : State) (b : Nat) (x : Bench) : (s.setBench b x).eth = s.eth := rfl
@[simp] theorem State.setBench_rma (s : State) (b : Nat) (x : Bench) : (s.setBench b x).rma = s.rma := rfl
@[simp] theorem State.setBench_tim (s : State) (b : Nat) (x : Bench) : (s.setBench b x).tim = s.tim := rfl
@[simp] theorem State.setBench_mgmt (s : State) (b : Nat) (x : Bench) : (s.setBench b x).mgmt = s.mgmt := rfl
@[simp] theorem State.setBench_pins (s : State) (b : Nat) (x : Bench) : (s.setBench b x).pins = s.pins := rfl
@[simp] theorem State.setBench_mfg (s : State) (b : Nat) (x : Bench) : (s.setBench b x).mfg = s.mfg := rfl
@[simp] theorem State.setBench_saved (s : State) (b : Nat) (x : Bench) : (s.setBench b x).saved = s.saved := rfl
@[simp] theorem State.setBench_restores (s : State) (b : Nat) (x : Bench) : (s.setBench b x).restores = s.restores := rfl
@[simp] theorem State.setBench_cluster (s : State) (b : Nat) (x : Bench) (c : Nat) : (s.setBench b x).cluster c = s.cluster c := rfl
@[simp] theorem State.setBench_core (s : State) (b : Nat) (x : Bench) (c : Nat) : (s.setBench b x).core c = s.core c := rfl
@[simp] theorem State.setBench_memUnit (s : State) (b : Nat) (x : Bench) (c : Nat) : (s.setBench b x).memUnit c = s.memUnit c := rfl
@[simp] theorem State.setBench_part (s : State) (b : Nat) (x : Bench) (c : Nat) : (s.setBench b x).part c = s.part c := rfl
@[simp] theorem State.setBench_link (s : State) (b : Nat) (x : Bench) (c : Nat) : (s.setBench b x).link c = s.link c := rfl
@[simp] theorem State.setBench_fn (s : State) (b : Nat) (x : Bench) (c : Nat) : (s.setBench b x).fn c = s.fn c := rfl
@[simp] theorem State.setBench_ring (s : State) (b : Nat) (x : Bench) (c q : Nat) : (s.setBench b x).ring c q = s.ring c q := rfl
@[simp] theorem State.setBench_fld (s : State) (b : Nat) (x : Bench) (g : Field) : (s.setBench b x).fld g = s.fld g := rfl
@[simp] theorem State.setBench_flag (s : State) (b : Nat) (x : Bench) (g : Field) : (s.setBench b x).flag g = s.flag g := rfl
@[simp] theorem State.setBench_request (s : State) (b : Nat) (x : Bench) (c : Nat) : (s.setBench b x).request c = s.request c := rfl

/-! ### setCluster -/

@[simp] theorem State.setCluster_pending (s : State) (k : Nat) (x : Cluster) : (s.setCluster k x).pending = s.pending := rfl
@[simp] theorem State.setCluster_freeCtr (s : State) (k : Nat) (x : Cluster) : (s.setCluster k x).freeCtr = s.freeCtr := rfl
@[simp] theorem State.setCluster_now (s : State) (k : Nat) (x : Cluster) : (s.setCluster k x).now = s.now := rfl
@[simp] theorem State.setCluster_out (s : State) (k : Nat) (x : Cluster) : (s.setCluster k x).out = s.out := rfl
@[simp] theorem State.setCluster_regs (s : State) (k : Nat) (x : Cluster) : (s.setCluster k x).regs = s.regs := rfl
@[simp] theorem State.setCluster_host (s : State) (k : Nat) (x : Cluster) : (s.setCluster k x).host = s.host := rfl
@[simp] theorem State.setCluster_benches (s : State) (k : Nat) (x : Cluster) : (s.setCluster k x).benches = s.benches := rfl
@[simp] theorem State.setCluster_cores (s : State) (k : Nat) (x : Cluster) : (s.setCluster k x).cores = s.cores := rfl
@[simp] theorem State.setCluster_mems (s : State) (k : Nat) (x : Cluster) : (s.setCluster k x).mems = s.mems := rfl
@[simp] theorem State.setCluster_parts (s : State) (k : Nat) (x : Cluster) : (s.setCluster k x).parts = s.parts := rfl
@[simp] theorem State.setCluster_run (s : State) (k : Nat) (x : Cluster) : (s.setCluster k x).run = s.run := rfl
@[simp] theorem State.setCluster_stowed (s : State) (k : Nat) (x : Cluster) : (s.setCluster k x).stowed = s.stowed := rfl
@[simp] theorem State.setCluster_plain (s : State) (k : Nat) (x : Cluster) : (s.setCluster k x).plain = s.plain := rfl
@[simp] theorem State.setCluster_links (s : State) (k : Nat) (x : Cluster) : (s.setCluster k x).links = s.links := rfl
@[simp] theorem State.setCluster_rcv (s : State) (k : Nat) (x : Cluster) : (s.setCluster k x).rcv = s.rcv := rfl
@[simp] theorem State.setCluster_sec (s : State) (k : Nat) (x : Cluster) : (s.setCluster k x).sec = s.sec := rfl
@[simp] theorem State.setCluster_dbg (s : State) (k : Nat) (x : Cluster) : (s.setCluster k x).dbg = s.dbg := rfl
@[simp] theorem State.setCluster_fw (s : State) (k : Nat) (x : Cluster) : (s.setCluster k x).fw = s.fw := rfl
@[simp] theorem State.setCluster_log (s : State) (k : Nat) (x : Cluster) : (s.setCluster k x).log = s.log := rfl
@[simp] theorem State.setCluster_pwr (s : State) (k : Nat) (x : Cluster) : (s.setCluster k x).pwr = s.pwr := rfl
@[simp] theorem State.setCluster_shelf (s : State) (k : Nat) (x : Cluster) : (s.setCluster k x).shelf = s.shelf := rfl
@[simp] theorem State.setCluster_eth (s : State) (k : Nat) (x : Cluster) : (s.setCluster k x).eth = s.eth := rfl
@[simp] theorem State.setCluster_rma (s : State) (k : Nat) (x : Cluster) : (s.setCluster k x).rma = s.rma := rfl
@[simp] theorem State.setCluster_tim (s : State) (k : Nat) (x : Cluster) : (s.setCluster k x).tim = s.tim := rfl
@[simp] theorem State.setCluster_mgmt (s : State) (k : Nat) (x : Cluster) : (s.setCluster k x).mgmt = s.mgmt := rfl
@[simp] theorem State.setCluster_pins (s : State) (k : Nat) (x : Cluster) : (s.setCluster k x).pins = s.pins := rfl
@[simp] theorem State.setCluster_mfg (s : State) (k : Nat) (x : Cluster) : (s.setCluster k x).mfg = s.mfg := rfl
@[simp] theorem State.setCluster_saved (s : State) (k : Nat) (x : Cluster) : (s.setCluster k x).saved = s.saved := rfl
@[simp] theorem State.setCluster_restores (s : State) (k : Nat) (x : Cluster) : (s.setCluster k x).restores = s.restores := rfl
@[simp] theorem State.setCluster_bench (s : State) (k : Nat) (x : Cluster) (c : Nat) : (s.setCluster k x).bench c = s.bench c := rfl
@[simp] theorem State.setCluster_core (s : State) (k : Nat) (x : Cluster) (c : Nat) : (s.setCluster k x).core c = s.core c := rfl
@[simp] theorem State.setCluster_memUnit (s : State) (k : Nat) (x : Cluster) (c : Nat) : (s.setCluster k x).memUnit c = s.memUnit c := rfl
@[simp] theorem State.setCluster_part (s : State) (k : Nat) (x : Cluster) (c : Nat) : (s.setCluster k x).part c = s.part c := rfl
@[simp] theorem State.setCluster_link (s : State) (k : Nat) (x : Cluster) (c : Nat) : (s.setCluster k x).link c = s.link c := rfl
@[simp] theorem State.setCluster_fn (s : State) (k : Nat) (x : Cluster) (c : Nat) : (s.setCluster k x).fn c = s.fn c := rfl
@[simp] theorem State.setCluster_ring (s : State) (k : Nat) (x : Cluster) (c q : Nat) : (s.setCluster k x).ring c q = s.ring c q := rfl
@[simp] theorem State.setCluster_fld (s : State) (k : Nat) (x : Cluster) (g : Field) : (s.setCluster k x).fld g = s.fld g := rfl
@[simp] theorem State.setCluster_flag (s : State) (k : Nat) (x : Cluster) (g : Field) : (s.setCluster k x).flag g = s.flag g := rfl
@[simp] theorem State.setCluster_request (s : State) (k : Nat) (x : Cluster) (c : Nat) : (s.setCluster k x).request c = s.request c := rfl

/-! ### setCore -/

@[simp] theorem State.setCore_pending (s : State) (k : Nat) (x : Core) : (s.setCore k x).pending = s.pending := rfl
@[simp] theorem State.setCore_freeCtr (s : State) (k : Nat) (x : Core) : (s.setCore k x).freeCtr = s.freeCtr := rfl
@[simp] theorem State.setCore_now (s : State) (k : Nat) (x : Core) : (s.setCore k x).now = s.now := rfl
@[simp] theorem State.setCore_out (s : State) (k : Nat) (x : Core) : (s.setCore k x).out = s.out := rfl
@[simp] theorem State.setCore_regs (s : State) (k : Nat) (x : Core) : (s.setCore k x).regs = s.regs := rfl
@[simp] theorem State.setCore_host (s : State) (k : Nat) (x : Core) : (s.setCore k x).host = s.host := rfl
@[simp] theorem State.setCore_benches (s : State) (k : Nat) (x : Core) : (s.setCore k x).benches = s.benches := rfl
@[simp] theorem State.setCore_clusters (s : State) (k : Nat) (x : Core) : (s.setCore k x).clusters = s.clusters := rfl
@[simp] theorem State.setCore_mems (s : State) (k : Nat) (x : Core) : (s.setCore k x).mems = s.mems := rfl
@[simp] theorem State.setCore_parts (s : State) (k : Nat) (x : Core) : (s.setCore k x).parts = s.parts := rfl
@[simp] theorem State.setCore_run (s : State) (k : Nat) (x : Core) : (s.setCore k x).run = s.run := rfl
@[simp] theorem State.setCore_stowed (s : State) (k : Nat) (x : Core) : (s.setCore k x).stowed = s.stowed := rfl
@[simp] theorem State.setCore_plain (s : State) (k : Nat) (x : Core) : (s.setCore k x).plain = s.plain := rfl
@[simp] theorem State.setCore_links (s : State) (k : Nat) (x : Core) : (s.setCore k x).links = s.links := rfl
@[simp] theorem State.setCore_rcv (s : State) (k : Nat) (x : Core) : (s.setCore k x).rcv = s.rcv := rfl
@[simp] theorem State.setCore_sec (s : State) (k : Nat) (x : Core) : (s.setCore k x).sec = s.sec := rfl
@[simp] theorem State.setCore_dbg (s : State) (k : Nat) (x : Core) : (s.setCore k x).dbg = s.dbg := rfl
@[simp] theorem State.setCore_fw (s : State) (k : Nat) (x : Core) : (s.setCore k x).fw = s.fw := rfl
@[simp] theorem State.setCore_log (s : State) (k : Nat) (x : Core) : (s.setCore k x).log = s.log := rfl
@[simp] theorem State.setCore_pwr (s : State) (k : Nat) (x : Core) : (s.setCore k x).pwr = s.pwr := rfl
@[simp] theorem State.setCore_shelf (s : State) (k : Nat) (x : Core) : (s.setCore k x).shelf = s.shelf := rfl
@[simp] theorem State.setCore_eth (s : State) (k : Nat) (x : Core) : (s.setCore k x).eth = s.eth := rfl
@[simp] theorem State.setCore_rma (s : State) (k : Nat) (x : Core) : (s.setCore k x).rma = s.rma := rfl
@[simp] theorem State.setCore_tim (s : State) (k : Nat) (x : Core) : (s.setCore k x).tim = s.tim := rfl
@[simp] theorem State.setCore_mgmt (s : State) (k : Nat) (x : Core) : (s.setCore k x).mgmt = s.mgmt := rfl
@[simp] theorem State.setCore_pins (s : State) (k : Nat) (x : Core) : (s.setCore k x).pins = s.pins := rfl
@[simp] theorem State.setCore_mfg (s : State) (k : Nat) (x : Core) : (s.setCore k x).mfg = s.mfg := rfl
@[simp] theorem State.setCore_saved (s : State) (k : Nat) (x : Core) : (s.setCore k x).saved = s.saved := rfl
@[simp] theorem State.setCore_restores (s : State) (k : Nat) (x : Core) : (s.setCore k x).restores = s.restores := rfl
@[simp] theorem State.setCore_bench (s : State) (k : Nat) (x : Core) (c : Nat) : (s.setCore k x).bench c = s.bench c := rfl
@[simp] theorem State.setCore_cluster (s : State) (k : Nat) (x : Core) (c : Nat) : (s.setCore k x).cluster c = s.cluster c := rfl
@[simp] theorem State.setCore_memUnit (s : State) (k : Nat) (x : Core) (c : Nat) : (s.setCore k x).memUnit c = s.memUnit c := rfl
@[simp] theorem State.setCore_part (s : State) (k : Nat) (x : Core) (c : Nat) : (s.setCore k x).part c = s.part c := rfl
@[simp] theorem State.setCore_link (s : State) (k : Nat) (x : Core) (c : Nat) : (s.setCore k x).link c = s.link c := rfl
@[simp] theorem State.setCore_fn (s : State) (k : Nat) (x : Core) (c : Nat) : (s.setCore k x).fn c = s.fn c := rfl
@[simp] theorem State.setCore_ring (s : State) (k : Nat) (x : Core) (c q : Nat) : (s.setCore k x).ring c q = s.ring c q := rfl
@[simp] theorem State.setCore_fld (s : State) (k : Nat) (x : Core) (g : Field) : (s.setCore k x).fld g = s.fld g := rfl
@[simp] theorem State.setCore_flag (s : State) (k : Nat) (x : Core) (g : Field) : (s.setCore k x).flag g = s.flag g := rfl
@[simp] theorem State.setCore_request (s : State) (k : Nat) (x : Core) (c : Nat) : (s.setCore k x).request c = s.request c := rfl

/-! ### setMemUnit -/

@[simp] theorem State.setMemUnit_pending (s : State) (u : Nat) (x : MemUnit) : (s.setMemUnit u x).pending = s.pending := rfl
@[simp] theorem State.setMemUnit_freeCtr (s : State) (u : Nat) (x : MemUnit) : (s.setMemUnit u x).freeCtr = s.freeCtr := rfl
@[simp] theorem State.setMemUnit_now (s : State) (u : Nat) (x : MemUnit) : (s.setMemUnit u x).now = s.now := rfl
@[simp] theorem State.setMemUnit_out (s : State) (u : Nat) (x : MemUnit) : (s.setMemUnit u x).out = s.out := rfl
@[simp] theorem State.setMemUnit_regs (s : State) (u : Nat) (x : MemUnit) : (s.setMemUnit u x).regs = s.regs := rfl
@[simp] theorem State.setMemUnit_host (s : State) (u : Nat) (x : MemUnit) : (s.setMemUnit u x).host = s.host := rfl
@[simp] theorem State.setMemUnit_benches (s : State) (u : Nat) (x : MemUnit) : (s.setMemUnit u x).benches = s.benches := rfl
@[simp] theorem State.setMemUnit_clusters (s : State) (u : Nat) (x : MemUnit) : (s.setMemUnit u x).clusters = s.clusters := rfl
@[simp] theorem State.setMemUnit_cores (s : State) (u : Nat) (x : MemUnit) : (s.setMemUnit u x).cores = s.cores := rfl
@[simp] theorem State.setMemUnit_parts (s : State) (u : Nat) (x : MemUnit) : (s.setMemUnit u x).parts = s.parts := rfl
@[simp] theorem State.setMemUnit_run (s : State) (u : Nat) (x : MemUnit) : (s.setMemUnit u x).run = s.run := rfl
@[simp] theorem State.setMemUnit_stowed (s : State) (u : Nat) (x : MemUnit) : (s.setMemUnit u x).stowed = s.stowed := rfl
@[simp] theorem State.setMemUnit_plain (s : State) (u : Nat) (x : MemUnit) : (s.setMemUnit u x).plain = s.plain := rfl
@[simp] theorem State.setMemUnit_links (s : State) (u : Nat) (x : MemUnit) : (s.setMemUnit u x).links = s.links := rfl
@[simp] theorem State.setMemUnit_rcv (s : State) (u : Nat) (x : MemUnit) : (s.setMemUnit u x).rcv = s.rcv := rfl
@[simp] theorem State.setMemUnit_sec (s : State) (u : Nat) (x : MemUnit) : (s.setMemUnit u x).sec = s.sec := rfl
@[simp] theorem State.setMemUnit_dbg (s : State) (u : Nat) (x : MemUnit) : (s.setMemUnit u x).dbg = s.dbg := rfl
@[simp] theorem State.setMemUnit_fw (s : State) (u : Nat) (x : MemUnit) : (s.setMemUnit u x).fw = s.fw := rfl
@[simp] theorem State.setMemUnit_log (s : State) (u : Nat) (x : MemUnit) : (s.setMemUnit u x).log = s.log := rfl
@[simp] theorem State.setMemUnit_pwr (s : State) (u : Nat) (x : MemUnit) : (s.setMemUnit u x).pwr = s.pwr := rfl
@[simp] theorem State.setMemUnit_shelf (s : State) (u : Nat) (x : MemUnit) : (s.setMemUnit u x).shelf = s.shelf := rfl
@[simp] theorem State.setMemUnit_eth (s : State) (u : Nat) (x : MemUnit) : (s.setMemUnit u x).eth = s.eth := rfl
@[simp] theorem State.setMemUnit_rma (s : State) (u : Nat) (x : MemUnit) : (s.setMemUnit u x).rma = s.rma := rfl
@[simp] theorem State.setMemUnit_tim (s : State) (u : Nat) (x : MemUnit) : (s.setMemUnit u x).tim = s.tim := rfl
@[simp] theorem State.setMemUnit_mgmt (s : State) (u : Nat) (x : MemUnit) : (s.setMemUnit u x).mgmt = s.mgmt := rfl
@[simp] theorem State.setMemUnit_pins (s : State) (u : Nat) (x : MemUnit) : (s.setMemUnit u x).pins = s.pins := rfl
@[simp] theorem State.setMemUnit_mfg (s : State) (u : Nat) (x : MemUnit) : (s.setMemUnit u x).mfg = s.mfg := rfl
@[simp] theorem State.setMemUnit_saved (s : State) (u : Nat) (x : MemUnit) : (s.setMemUnit u x).saved = s.saved := rfl
@[simp] theorem State.setMemUnit_restores (s : State) (u : Nat) (x : MemUnit) : (s.setMemUnit u x).restores = s.restores := rfl
@[simp] theorem State.setMemUnit_bench (s : State) (u : Nat) (x : MemUnit) (c : Nat) : (s.setMemUnit u x).bench c = s.bench c := rfl
@[simp] theorem State.setMemUnit_cluster (s : State) (u : Nat) (x : MemUnit) (c : Nat) : (s.setMemUnit u x).cluster c = s.cluster c := rfl
@[simp] theorem State.setMemUnit_core (s : State) (u : Nat) (x : MemUnit) (c : Nat) : (s.setMemUnit u x).core c = s.core c := rfl
@[simp] theorem State.setMemUnit_part (s : State) (u : Nat) (x : MemUnit) (c : Nat) : (s.setMemUnit u x).part c = s.part c := rfl
@[simp] theorem State.setMemUnit_link (s : State) (u : Nat) (x : MemUnit) (c : Nat) : (s.setMemUnit u x).link c = s.link c := rfl
@[simp] theorem State.setMemUnit_fn (s : State) (u : Nat) (x : MemUnit) (c : Nat) : (s.setMemUnit u x).fn c = s.fn c := rfl
@[simp] theorem State.setMemUnit_ring (s : State) (u : Nat) (x : MemUnit) (c q : Nat) : (s.setMemUnit u x).ring c q = s.ring c q := rfl
@[simp] theorem State.setMemUnit_fld (s : State) (u : Nat) (x : MemUnit) (g : Field) : (s.setMemUnit u x).fld g = s.fld g := rfl
@[simp] theorem State.setMemUnit_flag (s : State) (u : Nat) (x : MemUnit) (g : Field) : (s.setMemUnit u x).flag g = s.flag g := rfl
@[simp] theorem State.setMemUnit_request (s : State) (u : Nat) (x : MemUnit) (c : Nat) : (s.setMemUnit u x).request c = s.request c := rfl

/-! ### setPart -/

@[simp] theorem State.setPart_pending (s : State) (p : Nat) (x : Part) : (s.setPart p x).pending = s.pending := rfl
@[simp] theorem State.setPart_freeCtr (s : State) (p : Nat) (x : Part) : (s.setPart p x).freeCtr = s.freeCtr := rfl
@[simp] theorem State.setPart_now (s : State) (p : Nat) (x : Part) : (s.setPart p x).now = s.now := rfl
@[simp] theorem State.setPart_out (s : State) (p : Nat) (x : Part) : (s.setPart p x).out = s.out := rfl
@[simp] theorem State.setPart_regs (s : State) (p : Nat) (x : Part) : (s.setPart p x).regs = s.regs := rfl
@[simp] theorem State.setPart_host (s : State) (p : Nat) (x : Part) : (s.setPart p x).host = s.host := rfl
@[simp] theorem State.setPart_benches (s : State) (p : Nat) (x : Part) : (s.setPart p x).benches = s.benches := rfl
@[simp] theorem State.setPart_clusters (s : State) (p : Nat) (x : Part) : (s.setPart p x).clusters = s.clusters := rfl
@[simp] theorem State.setPart_cores (s : State) (p : Nat) (x : Part) : (s.setPart p x).cores = s.cores := rfl
@[simp] theorem State.setPart_mems (s : State) (p : Nat) (x : Part) : (s.setPart p x).mems = s.mems := rfl
@[simp] theorem State.setPart_run (s : State) (p : Nat) (x : Part) : (s.setPart p x).run = s.run := rfl
@[simp] theorem State.setPart_stowed (s : State) (p : Nat) (x : Part) : (s.setPart p x).stowed = s.stowed := rfl
@[simp] theorem State.setPart_plain (s : State) (p : Nat) (x : Part) : (s.setPart p x).plain = s.plain := rfl
@[simp] theorem State.setPart_links (s : State) (p : Nat) (x : Part) : (s.setPart p x).links = s.links := rfl
@[simp] theorem State.setPart_rcv (s : State) (p : Nat) (x : Part) : (s.setPart p x).rcv = s.rcv := rfl
@[simp] theorem State.setPart_sec (s : State) (p : Nat) (x : Part) : (s.setPart p x).sec = s.sec := rfl
@[simp] theorem State.setPart_dbg (s : State) (p : Nat) (x : Part) : (s.setPart p x).dbg = s.dbg := rfl
@[simp] theorem State.setPart_fw (s : State) (p : Nat) (x : Part) : (s.setPart p x).fw = s.fw := rfl
@[simp] theorem State.setPart_log (s : State) (p : Nat) (x : Part) : (s.setPart p x).log = s.log := rfl
@[simp] theorem State.setPart_pwr (s : State) (p : Nat) (x : Part) : (s.setPart p x).pwr = s.pwr := rfl
@[simp] theorem State.setPart_shelf (s : State) (p : Nat) (x : Part) : (s.setPart p x).shelf = s.shelf := rfl
@[simp] theorem State.setPart_eth (s : State) (p : Nat) (x : Part) : (s.setPart p x).eth = s.eth := rfl
@[simp] theorem State.setPart_rma (s : State) (p : Nat) (x : Part) : (s.setPart p x).rma = s.rma := rfl
@[simp] theorem State.setPart_tim (s : State) (p : Nat) (x : Part) : (s.setPart p x).tim = s.tim := rfl
@[simp] theorem State.setPart_mgmt (s : State) (p : Nat) (x : Part) : (s.setPart p x).mgmt = s.mgmt := rfl
@[simp] theorem State.setPart_pins (s : State) (p : Nat) (x : Part) : (s.setPart p x).pins = s.pins := rfl
@[simp] theorem State.setPart_mfg (s : State) (p : Nat) (x : Part) : (s.setPart p x).mfg = s.mfg := rfl
@[simp] theorem State.setPart_saved (s : State) (p : Nat) (x : Part) : (s.setPart p x).saved = s.saved := rfl
@[simp] theorem State.setPart_restores (s : State) (p : Nat) (x : Part) : (s.setPart p x).restores = s.restores := rfl
@[simp] theorem State.setPart_bench (s : State) (p : Nat) (x : Part) (c : Nat) : (s.setPart p x).bench c = s.bench c := rfl
@[simp] theorem State.setPart_cluster (s : State) (p : Nat) (x : Part) (c : Nat) : (s.setPart p x).cluster c = s.cluster c := rfl
@[simp] theorem State.setPart_core (s : State) (p : Nat) (x : Part) (c : Nat) : (s.setPart p x).core c = s.core c := rfl
@[simp] theorem State.setPart_memUnit (s : State) (p : Nat) (x : Part) (c : Nat) : (s.setPart p x).memUnit c = s.memUnit c := rfl
@[simp] theorem State.setPart_link (s : State) (p : Nat) (x : Part) (c : Nat) : (s.setPart p x).link c = s.link c := rfl
@[simp] theorem State.setPart_fn (s : State) (p : Nat) (x : Part) (c : Nat) : (s.setPart p x).fn c = s.fn c := rfl
@[simp] theorem State.setPart_ring (s : State) (p : Nat) (x : Part) (c q : Nat) : (s.setPart p x).ring c q = s.ring c q := rfl
@[simp] theorem State.setPart_fld (s : State) (p : Nat) (x : Part) (g : Field) : (s.setPart p x).fld g = s.fld g := rfl
@[simp] theorem State.setPart_flag (s : State) (p : Nat) (x : Part) (g : Field) : (s.setPart p x).flag g = s.flag g := rfl
@[simp] theorem State.setPart_request (s : State) (p : Nat) (x : Part) (c : Nat) : (s.setPart p x).request c = s.request c := rfl

/-! ### setLink -/

@[simp] theorem State.setLink_pending (s : State) (j : Nat) (x : Link) : (s.setLink j x).pending = s.pending := rfl
@[simp] theorem State.setLink_freeCtr (s : State) (j : Nat) (x : Link) : (s.setLink j x).freeCtr = s.freeCtr := rfl
@[simp] theorem State.setLink_now (s : State) (j : Nat) (x : Link) : (s.setLink j x).now = s.now := rfl
@[simp] theorem State.setLink_out (s : State) (j : Nat) (x : Link) : (s.setLink j x).out = s.out := rfl
@[simp] theorem State.setLink_regs (s : State) (j : Nat) (x : Link) : (s.setLink j x).regs = s.regs := rfl
@[simp] theorem State.setLink_host (s : State) (j : Nat) (x : Link) : (s.setLink j x).host = s.host := rfl
@[simp] theorem State.setLink_benches (s : State) (j : Nat) (x : Link) : (s.setLink j x).benches = s.benches := rfl
@[simp] theorem State.setLink_clusters (s : State) (j : Nat) (x : Link) : (s.setLink j x).clusters = s.clusters := rfl
@[simp] theorem State.setLink_cores (s : State) (j : Nat) (x : Link) : (s.setLink j x).cores = s.cores := rfl
@[simp] theorem State.setLink_mems (s : State) (j : Nat) (x : Link) : (s.setLink j x).mems = s.mems := rfl
@[simp] theorem State.setLink_parts (s : State) (j : Nat) (x : Link) : (s.setLink j x).parts = s.parts := rfl
@[simp] theorem State.setLink_run (s : State) (j : Nat) (x : Link) : (s.setLink j x).run = s.run := rfl
@[simp] theorem State.setLink_stowed (s : State) (j : Nat) (x : Link) : (s.setLink j x).stowed = s.stowed := rfl
@[simp] theorem State.setLink_plain (s : State) (j : Nat) (x : Link) : (s.setLink j x).plain = s.plain := rfl
@[simp] theorem State.setLink_rcv (s : State) (j : Nat) (x : Link) : (s.setLink j x).rcv = s.rcv := rfl
@[simp] theorem State.setLink_sec (s : State) (j : Nat) (x : Link) : (s.setLink j x).sec = s.sec := rfl
@[simp] theorem State.setLink_dbg (s : State) (j : Nat) (x : Link) : (s.setLink j x).dbg = s.dbg := rfl
@[simp] theorem State.setLink_fw (s : State) (j : Nat) (x : Link) : (s.setLink j x).fw = s.fw := rfl
@[simp] theorem State.setLink_log (s : State) (j : Nat) (x : Link) : (s.setLink j x).log = s.log := rfl
@[simp] theorem State.setLink_pwr (s : State) (j : Nat) (x : Link) : (s.setLink j x).pwr = s.pwr := rfl
@[simp] theorem State.setLink_shelf (s : State) (j : Nat) (x : Link) : (s.setLink j x).shelf = s.shelf := rfl
@[simp] theorem State.setLink_eth (s : State) (j : Nat) (x : Link) : (s.setLink j x).eth = s.eth := rfl
@[simp] theorem State.setLink_rma (s : State) (j : Nat) (x : Link) : (s.setLink j x).rma = s.rma := rfl
@[simp] theorem State.setLink_tim (s : State) (j : Nat) (x : Link) : (s.setLink j x).tim = s.tim := rfl
@[simp] theorem State.setLink_mgmt (s : State) (j : Nat) (x : Link) : (s.setLink j x).mgmt = s.mgmt := rfl
@[simp] theorem State.setLink_pins (s : State) (j : Nat) (x : Link) : (s.setLink j x).pins = s.pins := rfl
@[simp] theorem State.setLink_mfg (s : State) (j : Nat) (x : Link) : (s.setLink j x).mfg = s.mfg := rfl
@[simp] theorem State.setLink_saved (s : State) (j : Nat) (x : Link) : (s.setLink j x).saved = s.saved := rfl
@[simp] theorem State.setLink_restores (s : State) (j : Nat) (x : Link) : (s.setLink j x).restores = s.restores := rfl
@[simp] theorem State.setLink_bench (s : State) (j : Nat) (x : Link) (c : Nat) : (s.setLink j x).bench c = s.bench c := rfl
@[simp] theorem State.setLink_cluster (s : State) (j : Nat) (x : Link) (c : Nat) : (s.setLink j x).cluster c = s.cluster c := rfl
@[simp] theorem State.setLink_core (s : State) (j : Nat) (x : Link) (c : Nat) : (s.setLink j x).core c = s.core c := rfl
@[simp] theorem State.setLink_memUnit (s : State) (j : Nat) (x : Link) (c : Nat) : (s.setLink j x).memUnit c = s.memUnit c := rfl
@[simp] theorem State.setLink_part (s : State) (j : Nat) (x : Link) (c : Nat) : (s.setLink j x).part c = s.part c := rfl
@[simp] theorem State.setLink_fn (s : State) (j : Nat) (x : Link) (c : Nat) : (s.setLink j x).fn c = s.fn c := rfl
@[simp] theorem State.setLink_ring (s : State) (j : Nat) (x : Link) (c q : Nat) : (s.setLink j x).ring c q = s.ring c q := rfl
@[simp] theorem State.setLink_fld (s : State) (j : Nat) (x : Link) (g : Field) : (s.setLink j x).fld g = s.fld g := rfl
@[simp] theorem State.setLink_flag (s : State) (j : Nat) (x : Link) (g : Field) : (s.setLink j x).flag g = s.flag g := rfl
@[simp] theorem State.setLink_request (s : State) (j : Nat) (x : Link) (c : Nat) : (s.setLink j x).request c = s.request c := rfl

/-! ### setFn -/

@[simp] theorem State.setFn_pending (s : State) (i : Nat) (x : Fn) : (s.setFn i x).pending = s.pending := rfl
@[simp] theorem State.setFn_freeCtr (s : State) (i : Nat) (x : Fn) : (s.setFn i x).freeCtr = s.freeCtr := rfl
@[simp] theorem State.setFn_now (s : State) (i : Nat) (x : Fn) : (s.setFn i x).now = s.now := rfl
@[simp] theorem State.setFn_out (s : State) (i : Nat) (x : Fn) : (s.setFn i x).out = s.out := rfl
@[simp] theorem State.setFn_regs (s : State) (i : Nat) (x : Fn) : (s.setFn i x).regs = s.regs := rfl
@[simp] theorem State.setFn_benches (s : State) (i : Nat) (x : Fn) : (s.setFn i x).benches = s.benches := rfl
@[simp] theorem State.setFn_clusters (s : State) (i : Nat) (x : Fn) : (s.setFn i x).clusters = s.clusters := rfl
@[simp] theorem State.setFn_cores (s : State) (i : Nat) (x : Fn) : (s.setFn i x).cores = s.cores := rfl
@[simp] theorem State.setFn_mems (s : State) (i : Nat) (x : Fn) : (s.setFn i x).mems = s.mems := rfl
@[simp] theorem State.setFn_parts (s : State) (i : Nat) (x : Fn) : (s.setFn i x).parts = s.parts := rfl
@[simp] theorem State.setFn_run (s : State) (i : Nat) (x : Fn) : (s.setFn i x).run = s.run := rfl
@[simp] theorem State.setFn_stowed (s : State) (i : Nat) (x : Fn) : (s.setFn i x).stowed = s.stowed := rfl
@[simp] theorem State.setFn_plain (s : State) (i : Nat) (x : Fn) : (s.setFn i x).plain = s.plain := rfl
@[simp] theorem State.setFn_links (s : State) (i : Nat) (x : Fn) : (s.setFn i x).links = s.links := rfl
@[simp] theorem State.setFn_rcv (s : State) (i : Nat) (x : Fn) : (s.setFn i x).rcv = s.rcv := rfl
@[simp] theorem State.setFn_sec (s : State) (i : Nat) (x : Fn) : (s.setFn i x).sec = s.sec := rfl
@[simp] theorem State.setFn_dbg (s : State) (i : Nat) (x : Fn) : (s.setFn i x).dbg = s.dbg := rfl
@[simp] theorem State.setFn_fw (s : State) (i : Nat) (x : Fn) : (s.setFn i x).fw = s.fw := rfl
@[simp] theorem State.setFn_log (s : State) (i : Nat) (x : Fn) : (s.setFn i x).log = s.log := rfl
@[simp] theorem State.setFn_pwr (s : State) (i : Nat) (x : Fn) : (s.setFn i x).pwr = s.pwr := rfl
@[simp] theorem State.setFn_shelf (s : State) (i : Nat) (x : Fn) : (s.setFn i x).shelf = s.shelf := rfl
@[simp] theorem State.setFn_eth (s : State) (i : Nat) (x : Fn) : (s.setFn i x).eth = s.eth := rfl
@[simp] theorem State.setFn_rma (s : State) (i : Nat) (x : Fn) : (s.setFn i x).rma = s.rma := rfl
@[simp] theorem State.setFn_tim (s : State) (i : Nat) (x : Fn) : (s.setFn i x).tim = s.tim := rfl
@[simp] theorem State.setFn_mgmt (s : State) (i : Nat) (x : Fn) : (s.setFn i x).mgmt = s.mgmt := rfl
@[simp] theorem State.setFn_pins (s : State) (i : Nat) (x : Fn) : (s.setFn i x).pins = s.pins := rfl
@[simp] theorem State.setFn_mfg (s : State) (i : Nat) (x : Fn) : (s.setFn i x).mfg = s.mfg := rfl
@[simp] theorem State.setFn_saved (s : State) (i : Nat) (x : Fn) : (s.setFn i x).saved = s.saved := rfl
@[simp] theorem State.setFn_restores (s : State) (i : Nat) (x : Fn) : (s.setFn i x).restores = s.restores := rfl
@[simp] theorem State.setFn_bench (s : State) (i : Nat) (x : Fn) (c : Nat) : (s.setFn i x).bench c = s.bench c := rfl
@[simp] theorem State.setFn_cluster (s : State) (i : Nat) (x : Fn) (c : Nat) : (s.setFn i x).cluster c = s.cluster c := rfl
@[simp] theorem State.setFn_core (s : State) (i : Nat) (x : Fn) (c : Nat) : (s.setFn i x).core c = s.core c := rfl
@[simp] theorem State.setFn_memUnit (s : State) (i : Nat) (x : Fn) (c : Nat) : (s.setFn i x).memUnit c = s.memUnit c := rfl
@[simp] theorem State.setFn_part (s : State) (i : Nat) (x : Fn) (c : Nat) : (s.setFn i x).part c = s.part c := rfl
@[simp] theorem State.setFn_link (s : State) (i : Nat) (x : Fn) (c : Nat) : (s.setFn i x).link c = s.link c := rfl
@[simp] theorem State.setFn_fld (s : State) (i : Nat) (x : Fn) (g : Field) : (s.setFn i x).fld g = s.fld g := rfl
@[simp] theorem State.setFn_flag (s : State) (i : Nat) (x : Fn) (g : Field) : (s.setFn i x).flag g = s.flag g := rfl
@[simp] theorem State.setFn_request (s : State) (i : Nat) (x : Fn) (c : Nat) : (s.setFn i x).request c = s.request c := rfl

/-! ### setRing -/

@[simp] theorem State.setRing_pending (s : State) (i r : Nat) (x : Ring) : (s.setRing i r x).pending = s.pending := rfl
@[simp] theorem State.setRing_freeCtr (s : State) (i r : Nat) (x : Ring) : (s.setRing i r x).freeCtr = s.freeCtr := rfl
@[simp] theorem State.setRing_now (s : State) (i r : Nat) (x : Ring) : (s.setRing i r x).now = s.now := rfl
@[simp] theorem State.setRing_out (s : State) (i r : Nat) (x : Ring) : (s.setRing i r x).out = s.out := rfl
@[simp] theorem State.setRing_regs (s : State) (i r : Nat) (x : Ring) : (s.setRing i r x).regs = s.regs := rfl
@[simp] theorem State.setRing_benches (s : State) (i r : Nat) (x : Ring) : (s.setRing i r x).benches = s.benches := rfl
@[simp] theorem State.setRing_clusters (s : State) (i r : Nat) (x : Ring) : (s.setRing i r x).clusters = s.clusters := rfl
@[simp] theorem State.setRing_cores (s : State) (i r : Nat) (x : Ring) : (s.setRing i r x).cores = s.cores := rfl
@[simp] theorem State.setRing_mems (s : State) (i r : Nat) (x : Ring) : (s.setRing i r x).mems = s.mems := rfl
@[simp] theorem State.setRing_parts (s : State) (i r : Nat) (x : Ring) : (s.setRing i r x).parts = s.parts := rfl
@[simp] theorem State.setRing_run (s : State) (i r : Nat) (x : Ring) : (s.setRing i r x).run = s.run := rfl
@[simp] theorem State.setRing_stowed (s : State) (i r : Nat) (x : Ring) : (s.setRing i r x).stowed = s.stowed := rfl
@[simp] theorem State.setRing_plain (s : State) (i r : Nat) (x : Ring) : (s.setRing i r x).plain = s.plain := rfl
@[simp] theorem State.setRing_links (s : State) (i r : Nat) (x : Ring) : (s.setRing i r x).links = s.links := rfl
@[simp] theorem State.setRing_rcv (s : State) (i r : Nat) (x : Ring) : (s.setRing i r x).rcv = s.rcv := rfl
@[simp] theorem State.setRing_sec (s : State) (i r : Nat) (x : Ring) : (s.setRing i r x).sec = s.sec := rfl
@[simp] theorem State.setRing_dbg (s : State) (i r : Nat) (x : Ring) : (s.setRing i r x).dbg = s.dbg := rfl
@[simp] theorem State.setRing_fw (s : State) (i r : Nat) (x : Ring) : (s.setRing i r x).fw = s.fw := rfl
@[simp] theorem State.setRing_log (s : State) (i r : Nat) (x : Ring) : (s.setRing i r x).log = s.log := rfl
@[simp] theorem State.setRing_pwr (s : State) (i r : Nat) (x : Ring) : (s.setRing i r x).pwr = s.pwr := rfl
@[simp] theorem State.setRing_shelf (s : State) (i r : Nat) (x : Ring) : (s.setRing i r x).shelf = s.shelf := rfl
@[simp] theorem State.setRing_eth (s : State) (i r : Nat) (x : Ring) : (s.setRing i r x).eth = s.eth := rfl
@[simp] theorem State.setRing_rma (s : State) (i r : Nat) (x : Ring) : (s.setRing i r x).rma = s.rma := rfl
@[simp] theorem State.setRing_tim (s : State) (i r : Nat) (x : Ring) : (s.setRing i r x).tim = s.tim := rfl
@[simp] theorem State.setRing_mgmt (s : State) (i r : Nat) (x : Ring) : (s.setRing i r x).mgmt = s.mgmt := rfl
@[simp] theorem State.setRing_pins (s : State) (i r : Nat) (x : Ring) : (s.setRing i r x).pins = s.pins := rfl
@[simp] theorem State.setRing_mfg (s : State) (i r : Nat) (x : Ring) : (s.setRing i r x).mfg = s.mfg := rfl
@[simp] theorem State.setRing_saved (s : State) (i r : Nat) (x : Ring) : (s.setRing i r x).saved = s.saved := rfl
@[simp] theorem State.setRing_restores (s : State) (i r : Nat) (x : Ring) : (s.setRing i r x).restores = s.restores := rfl
@[simp] theorem State.setRing_bench (s : State) (i r : Nat) (x : Ring) (c : Nat) : (s.setRing i r x).bench c = s.bench c := rfl
@[simp] theorem State.setRing_cluster (s : State) (i r : Nat) (x : Ring) (c : Nat) : (s.setRing i r x).cluster c = s.cluster c := rfl
@[simp] theorem State.setRing_core (s : State) (i r : Nat) (x : Ring) (c : Nat) : (s.setRing i r x).core c = s.core c := rfl
@[simp] theorem State.setRing_memUnit (s : State) (i r : Nat) (x : Ring) (c : Nat) : (s.setRing i r x).memUnit c = s.memUnit c := rfl
@[simp] theorem State.setRing_part (s : State) (i r : Nat) (x : Ring) (c : Nat) : (s.setRing i r x).part c = s.part c := rfl
@[simp] theorem State.setRing_link (s : State) (i r : Nat) (x : Ring) (c : Nat) : (s.setRing i r x).link c = s.link c := rfl
@[simp] theorem State.setRing_fld (s : State) (i r : Nat) (x : Ring) (g : Field) : (s.setRing i r x).fld g = s.fld g := rfl
@[simp] theorem State.setRing_flag (s : State) (i r : Nat) (x : Ring) (g : Field) : (s.setRing i r x).flag g = s.flag g := rfl
@[simp] theorem State.setRing_request (s : State) (i r : Nat) (x : Ring) (c : Nat) : (s.setRing i r x).request c = s.request c := rfl

/-! ### setHostMem -/

@[simp] theorem State.setHostMem_pending (s : State) (m : Memory) : (s.setHostMem m).pending = s.pending := rfl
@[simp] theorem State.setHostMem_freeCtr (s : State) (m : Memory) : (s.setHostMem m).freeCtr = s.freeCtr := rfl
@[simp] theorem State.setHostMem_now (s : State) (m : Memory) : (s.setHostMem m).now = s.now := rfl
@[simp] theorem State.setHostMem_out (s : State) (m : Memory) : (s.setHostMem m).out = s.out := rfl
@[simp] theorem State.setHostMem_regs (s : State) (m : Memory) : (s.setHostMem m).regs = s.regs := rfl
@[simp] theorem State.setHostMem_benches (s : State) (m : Memory) : (s.setHostMem m).benches = s.benches := rfl
@[simp] theorem State.setHostMem_clusters (s : State) (m : Memory) : (s.setHostMem m).clusters = s.clusters := rfl
@[simp] theorem State.setHostMem_cores (s : State) (m : Memory) : (s.setHostMem m).cores = s.cores := rfl
@[simp] theorem State.setHostMem_mems (s : State) (m : Memory) : (s.setHostMem m).mems = s.mems := rfl
@[simp] theorem State.setHostMem_parts (s : State) (m : Memory) : (s.setHostMem m).parts = s.parts := rfl
@[simp] theorem State.setHostMem_run (s : State) (m : Memory) : (s.setHostMem m).run = s.run := rfl
@[simp] theorem State.setHostMem_stowed (s : State) (m : Memory) : (s.setHostMem m).stowed = s.stowed := rfl
@[simp] theorem State.setHostMem_plain (s : State) (m : Memory) : (s.setHostMem m).plain = s.plain := rfl
@[simp] theorem State.setHostMem_links (s : State) (m : Memory) : (s.setHostMem m).links = s.links := rfl
@[simp] theorem State.setHostMem_rcv (s : State) (m : Memory) : (s.setHostMem m).rcv = s.rcv := rfl
@[simp] theorem State.setHostMem_sec (s : State) (m : Memory) : (s.setHostMem m).sec = s.sec := rfl
@[simp] theorem State.setHostMem_dbg (s : State) (m : Memory) : (s.setHostMem m).dbg = s.dbg := rfl
@[simp] theorem State.setHostMem_fw (s : State) (m : Memory) : (s.setHostMem m).fw = s.fw := rfl
@[simp] theorem State.setHostMem_log (s : State) (m : Memory) : (s.setHostMem m).log = s.log := rfl
@[simp] theorem State.setHostMem_pwr (s : State) (m : Memory) : (s.setHostMem m).pwr = s.pwr := rfl
@[simp] theorem State.setHostMem_shelf (s : State) (m : Memory) : (s.setHostMem m).shelf = s.shelf := rfl
@[simp] theorem State.setHostMem_eth (s : State) (m : Memory) : (s.setHostMem m).eth = s.eth := rfl
@[simp] theorem State.setHostMem_rma (s : State) (m : Memory) : (s.setHostMem m).rma = s.rma := rfl
@[simp] theorem State.setHostMem_tim (s : State) (m : Memory) : (s.setHostMem m).tim = s.tim := rfl
@[simp] theorem State.setHostMem_mgmt (s : State) (m : Memory) : (s.setHostMem m).mgmt = s.mgmt := rfl
@[simp] theorem State.setHostMem_pins (s : State) (m : Memory) : (s.setHostMem m).pins = s.pins := rfl
@[simp] theorem State.setHostMem_mfg (s : State) (m : Memory) : (s.setHostMem m).mfg = s.mfg := rfl
@[simp] theorem State.setHostMem_saved (s : State) (m : Memory) : (s.setHostMem m).saved = s.saved := rfl
@[simp] theorem State.setHostMem_restores (s : State) (m : Memory) : (s.setHostMem m).restores = s.restores := rfl
@[simp] theorem State.setHostMem_bench (s : State) (m : Memory) (c : Nat) : (s.setHostMem m).bench c = s.bench c := rfl
@[simp] theorem State.setHostMem_cluster (s : State) (m : Memory) (c : Nat) : (s.setHostMem m).cluster c = s.cluster c := rfl
@[simp] theorem State.setHostMem_core (s : State) (m : Memory) (c : Nat) : (s.setHostMem m).core c = s.core c := rfl
@[simp] theorem State.setHostMem_memUnit (s : State) (m : Memory) (c : Nat) : (s.setHostMem m).memUnit c = s.memUnit c := rfl
@[simp] theorem State.setHostMem_part (s : State) (m : Memory) (c : Nat) : (s.setHostMem m).part c = s.part c := rfl
@[simp] theorem State.setHostMem_link (s : State) (m : Memory) (c : Nat) : (s.setHostMem m).link c = s.link c := rfl
@[simp] theorem State.setHostMem_fld (s : State) (m : Memory) (g : Field) : (s.setHostMem m).fld g = s.fld g := rfl
@[simp] theorem State.setHostMem_flag (s : State) (m : Memory) (g : Field) : (s.setHostMem m).flag g = s.flag g := rfl
@[simp] theorem State.setHostMem_request (s : State) (m : Memory) (c : Nat) : (s.setHostMem m).request c = s.request c := rfl

/-! ### What is read back -/

@[simp] theorem State.setBench_self (s : State) (b : Nat) (x : Bench) : (s.setBench b x).bench b = x := Tab.get_set_self _ _ _ _
theorem State.setBench_ne (s : State) {b c : Nat} (x : Bench) (h : c ≠ b) : (s.setBench b x).bench c = s.bench c := Tab.get_set_ne _ _ _ h
theorem State.setBench_get (s : State) (b c : Nat) (x : Bench) : (s.setBench b x).bench c = if c = b then x else s.bench c := Tab.get_set _ _ _ _ _

@[simp] theorem State.setCluster_self (s : State) (k : Nat) (x : Cluster) : (s.setCluster k x).cluster k = x := Tab.get_set_self _ _ _ _
theorem State.setCluster_ne (s : State) {k c : Nat} (x : Cluster) (h : c ≠ k) : (s.setCluster k x).cluster c = s.cluster c := Tab.get_set_ne _ _ _ h
theorem State.setCluster_get (s : State) (k c : Nat) (x : Cluster) : (s.setCluster k x).cluster c = if c = k then x else s.cluster c := Tab.get_set _ _ _ _ _

@[simp] theorem State.setCore_self (s : State) (k : Nat) (x : Core) : (s.setCore k x).core k = x := Tab.get_set_self _ _ _ _
theorem State.setCore_ne (s : State) {k c : Nat} (x : Core) (h : c ≠ k) : (s.setCore k x).core c = s.core c := Tab.get_set_ne _ _ _ h
theorem State.setCore_get (s : State) (k c : Nat) (x : Core) : (s.setCore k x).core c = if c = k then x else s.core c := Tab.get_set _ _ _ _ _

@[simp] theorem State.setMemUnit_self (s : State) (u : Nat) (x : MemUnit) : (s.setMemUnit u x).memUnit u = x := Tab.get_set_self _ _ _ _
theorem State.setMemUnit_ne (s : State) {u c : Nat} (x : MemUnit) (h : c ≠ u) : (s.setMemUnit u x).memUnit c = s.memUnit c := Tab.get_set_ne _ _ _ h
theorem State.setMemUnit_get (s : State) (u c : Nat) (x : MemUnit) : (s.setMemUnit u x).memUnit c = if c = u then x else s.memUnit c := Tab.get_set _ _ _ _ _

@[simp] theorem State.setPart_self (s : State) (p : Nat) (x : Part) : (s.setPart p x).part p = x := Tab.get_set_self _ _ _ _
theorem State.setPart_ne (s : State) {p c : Nat} (x : Part) (h : c ≠ p) : (s.setPart p x).part c = s.part c := Tab.get_set_ne _ _ _ h
theorem State.setPart_get (s : State) (p c : Nat) (x : Part) : (s.setPart p x).part c = if c = p then x else s.part c := Tab.get_set _ _ _ _ _

@[simp] theorem State.setLink_self (s : State) (j : Nat) (x : Link) : (s.setLink j x).link j = x := Tab.get_set_self _ _ _ _
theorem State.setLink_ne (s : State) {j c : Nat} (x : Link) (h : c ≠ j) : (s.setLink j x).link c = s.link c := Tab.get_set_ne _ _ _ h
theorem State.setLink_get (s : State) (j c : Nat) (x : Link) : (s.setLink j x).link c = if c = j then x else s.link c := Tab.get_set _ _ _ _ _

@[simp] theorem State.setFn_self (s : State) (i : Nat) (x : Fn) : (s.setFn i x).fn i = x := Tab.get_set_self _ _ _ _
theorem State.setFn_ne (s : State) {i c : Nat} (x : Fn) (h : c ≠ i) : (s.setFn i x).fn c = s.fn c := Tab.get_set_ne _ _ _ h
@[simp] theorem State.setRing_self (s : State) (i r : Nat) (x : Ring) : (s.setRing i r x).ring i r = x := by
  unfold State.setRing State.ring
  rw [State.setFn_self]
  exact Tab.get_set_self _ _ _ _
theorem State.setRing_ne (s : State) {i r c q : Nat} (x : Ring) (h : c ≠ i ∨ q ≠ r) : (s.setRing i r x).ring c q = s.ring c q := by
  unfold State.setRing State.ring
  by_cases e : c = i
  · subst e
    rw [State.setFn_self]
    exact Tab.get_set_ne _ _ _ (by simpa using h)
  · rw [State.setFn_ne _ _ e]
@[simp] theorem State.setHostMem_mem (s : State) (m : Memory) : (s.setHostMem m).host.mem = m := rfl
@[simp] theorem State.setHostMem_fn (s : State) (m : Memory) (i : Nat) : (s.setHostMem m).fn i = s.fn i := rfl
@[simp] theorem State.setHostMem_ring (s : State) (m : Memory) (i r : Nat) : (s.setHostMem m).ring i r = s.ring i r := rfl
@[simp] theorem State.setFn_mem (s : State) (i : Nat) (x : Fn) : (s.setFn i x).host.mem = s.host.mem := rfl
@[simp] theorem State.setRing_mem (s : State) (i r : Nat) (x : Ring) : (s.setRing i r x).host.mem = s.host.mem := rfl
@[simp] theorem State.emit_out (s : State) (m : Out) : (s.emit m).out = s.out ++ [m] := rfl
@[simp] theorem State.bumpFree_freeCtr (s : State) : s.bumpFree.freeCtr = s.freeCtr + 1 := rfl
@[simp] theorem State.setRequest_self (s : State) (b v : Nat) : (s.setRequest b v).request b = v := Tab.get_set_self _ _ _ _
theorem State.setRequest_ne (s : State) {b c : Nat} (v : Nat) (h : c ≠ b) : (s.setRequest b v).request c = s.request c :=
  Tab.get_set_ne _ _ _ h
@[simp] theorem State.setRequest_fld (s : State) (b v : Nat) (g : Field) : (s.setRequest b v).fld g = s.fld g := rfl
@[simp] theorem State.setRequest_flag (s : State) (b v : Nat) (g : Field) : (s.setRequest b v).flag g = s.flag g := rfl
@[simp] theorem State.setFld_request (s : State) (f : Field) (v c : Nat) : (s.setFld f v).request c = s.request c := rfl
@[simp] theorem State.setFlag_request (s : State) (f : Field) (v : Bool) (c : Nat) : (s.setFlag f v).request c = s.request c := rfl

/-! ### Register fields -/

theorem bitsOf_lt (v l n : Nat) : bitsOf v l n < 2 ^ n := Nat.mod_lt _ (Nat.two_pow_pos n)

/-- The field that was written reads as the value, cut to its width. -/
@[simp] theorem bitsOf_withBits_self (v l n x : Nat) : bitsOf (withBits v l n x) l n = x % 2 ^ n := by
  unfold bitsOf withBits
  have h1 : v % 2 ^ l < 2 ^ l := Nat.mod_lt _ (Nat.two_pow_pos l)
  rw [Nat.pow_add, show v % 2 ^ l + x % 2 ^ n * 2 ^ l + v / (2 ^ l * 2 ^ n) * (2 ^ l * 2 ^ n)
    = v % 2 ^ l + 2 ^ l * (x % 2 ^ n + 2 ^ n * (v / (2 ^ l * 2 ^ n))) by ring,
    Nat.add_mul_div_left _ _ (Nat.two_pow_pos l), Nat.div_eq_of_lt h1]
  simp

/-- A field below the written one is left. -/
theorem bitsOf_withBits_below (v l n x l' n' : Nat) (h : l' + n' ≤ l) : bitsOf (withBits v l n x) l' n' = bitsOf v l' n' := by
  unfold bitsOf withBits
  obtain ⟨k, rfl⟩ := Nat.exists_eq_add_of_le h
  have e : v % 2 ^ (l' + n' + k) + x % 2 ^ n * 2 ^ (l' + n' + k) + v / 2 ^ (l' + n' + k + n) * 2 ^ (l' + n' + k + n)
      = v % 2 ^ (l' + n' + k) + 2 ^ l' * (2 ^ n' * (2 ^ k * (x % 2 ^ n + v / 2 ^ (l' + n' + k + n) * 2 ^ n))) := by
    rw [show l' + n' + k + n = l' + n' + k + n from rfl, Nat.pow_add 2 (l' + n' + k) n, Nat.pow_add 2 (l' + n') k, Nat.pow_add 2 l' n']
    ring
  rw [e, Nat.add_mul_div_left _ _ (Nat.two_pow_pos l'), Nat.add_mul_mod_self_left]
  rw [Nat.pow_add 2 (l' + n') k, Nat.mod_mul, Nat.pow_add 2 l' n', Nat.mod_mul,
    show v % 2 ^ l' + 2 ^ l' * (v / 2 ^ l' % 2 ^ n') + 2 ^ l' * 2 ^ n' * (v / (2 ^ l' * 2 ^ n') % 2 ^ k)
      = v % 2 ^ l' + 2 ^ l' * (v / 2 ^ l' % 2 ^ n' + 2 ^ n' * (v / (2 ^ l' * 2 ^ n') % 2 ^ k)) by ring,
    Nat.add_mul_div_left _ _ (Nat.two_pow_pos l'), Nat.div_eq_of_lt (Nat.mod_lt _ (Nat.two_pow_pos l'))]
  simp

/-- A field above the written one is left. -/
theorem bitsOf_withBits_above (v l n x l' n' : Nat) (h : l + n ≤ l') : bitsOf (withBits v l n x) l' n' = bitsOf v l' n' := by
  unfold bitsOf withBits
  obtain ⟨k, rfl⟩ := Nat.exists_eq_add_of_le h
  congr 1
  have h1 : v % 2 ^ l < 2 ^ l := Nat.mod_lt _ (Nat.two_pow_pos l)
  have h2 : x % 2 ^ n < 2 ^ n := Nat.mod_lt _ (Nat.two_pow_pos n)
  have h3 : v % 2 ^ l + x % 2 ^ n * 2 ^ l < 2 ^ (l + n) := by
    rw [Nat.pow_add]
    calc v % 2 ^ l + x % 2 ^ n * 2 ^ l < 2 ^ l + x % 2 ^ n * 2 ^ l := by omega
      _ = (x % 2 ^ n + 1) * 2 ^ l := by ring
      _ ≤ 2 ^ n * 2 ^ l := Nat.mul_le_mul_right _ h2
      _ = 2 ^ l * 2 ^ n := by ring
  rw [Nat.pow_add 2 (l + n) k, ← Nat.div_div_eq_div_mul, ← Nat.div_div_eq_div_mul, Nat.mul_comm (v / 2 ^ (l + n)),
    Nat.add_mul_div_left _ _ (Nat.two_pow_pos (l + n)), Nat.div_eq_of_lt h3]
  simp

theorem vote_self (a : Nat) : vote a a a = some a := by simp [vote]

/-- A field that was written reads as the value, cut to its width: all three copies hold it (R373). -/
@[simp] theorem State.fld_setFld_self (s : State) (f : Field) (v : Nat) : (s.setFld f v).fld f = v % 2 ^ f.width := by
  simp [State.fld, State.setFld, Regs.fld, Regs.setFld, Regs.word, vote_self]

/-- A field of another register is left. -/
theorem State.fld_setFld_addr (s : State) {f g : Field} (v : Nat) (h : g.addr ≠ f.addr) : (s.setFld f v).fld g = s.fld g := by
  simp [State.fld, State.setFld, Regs.fld, Regs.setFld, Regs.word, lostValue, Tab.get_set_other, h]

/-- A field at other bits of the register is left. -/
theorem State.fld_setFld_bits (s : State) {f g : Field} (v : Nat) (h : g.lsb + g.width ≤ f.lsb ∨ f.lsb + f.width ≤ g.lsb) :
    (s.setFld f v).fld g = s.fld g := by
  by_cases e : g.addr = f.addr
  · have hb : ∀ w x, bitsOf (withBits w f.lsb f.width x) g.lsb g.width = bitsOf w g.lsb g.width := by
      intro w x
      rcases h with h | h
      · exact bitsOf_withBits_below _ _ _ _ _ _ h
      · exact bitsOf_withBits_above _ _ _ _ _ _ h
    simp [State.fld, State.setFld, Regs.fld, Regs.setFld, Regs.word, lostValue, e, hb]
  · exact State.fld_setFld_addr s v e

@[simp] theorem State.flag_setFlag_self (s : State) (f : Field) (v : Bool) (h : 0 < f.width) : (s.setFlag f v).flag f = v := by
  have h2 : 1 < 2 ^ f.width := Nat.one_lt_two_pow (by omega)
  cases v <;> simp [State.flag, State.setFlag, Nat.mod_eq_of_lt h2]

/-- Both ways in which a field is another field. -/
theorem State.fld_setFld_ne (s : State) {f g : Field} (v : Nat)
    (h : g.addr ≠ f.addr ∨ g.lsb + g.width ≤ f.lsb ∨ f.lsb + f.width ≤ g.lsb) : (s.setFld f v).fld g = s.fld g := by
  rcases h with h | h
  · exact State.fld_setFld_addr s v h
  · exact State.fld_setFld_bits s v h

theorem State.flag_setFlag_ne (s : State) {f g : Field} (v : Bool)
    (h : g.addr ≠ f.addr ∨ g.lsb + g.width ≤ f.lsb ∨ f.lsb + f.width ≤ g.lsb) : (s.setFlag f v).flag g = s.flag g := by
  simp only [State.flag, State.setFlag, State.fld_setFld_ne s _ h]

/-- A counter that saturates holds its old value plus n, at most its largest. -/
@[simp] theorem State.fld_count_self (s : State) (f : Field) (n : Nat) :
    (s.count f n).fld f = min (2 ^ f.width - 1) (s.fld f + n) := by
  unfold State.count
  rw [State.fld_setFld_self]
  exact Nat.mod_eq_of_lt (by have := Nat.two_pow_pos f.width; omega)

theorem State.fld_count_ne (s : State) {f g : Field} (n : Nat)
    (h : g.addr ≠ f.addr ∨ g.lsb + g.width ≤ f.lsb ∨ f.lsb + f.width ≤ g.lsb) : (s.count f n).fld g = s.fld g :=
  State.fld_setFld_ne s _ h

end Sys2Proof.Machine
end

