-- ==== Sys2Proof/Laws/Bench.lean ====
section
/-! SUPPORT. Laws of the issue of bench instructions: what passing to the next slot, the debug counters and the counting of
an operand read can change. -/

namespace Sys2Proof.Machine

/-- Passing to the next slot changes the slot and the loop alone (03_benches.md R96, R97). -/
theorem Bench.advance_form (x : Bench) (n : Nat) : ∃ sl lo, x.advance n = { x with slot := sl, loop := lo } := by
  unfold Bench.advance
  cases hl : x.loop with
  | none => exact ⟨_, _, rfl⟩
  | some l =>
    obtain ⟨first, last, left⟩ := l
    by_cases h : x.slot + n ≤ last
    · exact ⟨x.slot + n, some (first, last, left), by simp [h, ← hl]⟩
    · by_cases g : 1 < left
      · exact ⟨first, some (first, last, left - 1), by simp [h, g]⟩
      · exact ⟨x.slot + n, none, by simp [h, g]⟩

/-- A debug counter of a bench changes that bench's counters alone, if it changes anything (21_debug.md R529). -/
theorem State.benchCtr_form (s : State) (b sub n : Nat) :
    s.benchCtr b sub n = s ∨ ∃ cs, s.benchCtr b sub n = s.setBench b { s.bench b with ctrs := cs } := by
  unfold State.benchCtr
  split
  · exact .inr ⟨_, rfl⟩
  · exact .inl rfl

theorem State.benchCtr_bench (s : State) (b sub n : Nat) : ∃ cs, (s.benchCtr b sub n).bench b = { s.bench b with ctrs := cs } := by
  rcases s.benchCtr_form b sub n with h | ⟨cs, h⟩ <;> rw [h]
  · exact ⟨_, rfl⟩
  · exact ⟨cs, by simp⟩

theorem State.benchCtr_other (s : State) (b sub n : Nat) {c : Nat} (hc : c ≠ b) : (s.benchCtr b sub n).bench c = s.bench c := by
  rcases s.benchCtr_form b sub n with h | ⟨cs, h⟩ <;> rw [h]
  exact State.setBench_ne _ _ hc

/-- Where a bench issues and the operands are good, the sequencer passes on and the operation takes effect (R96, R542). -/
theorem State.issue_good (s : State) (b n : Nat) (body : State → State) (h : s.issues b = true) :
    s.issue b n true body = body (s.advance b n) := by
  simp [State.issue, h]

/-- Bad operands raise BAD_INSTRUCTION (R99). -/
theorem State.issue_bad (s : State) (b n : Nat) (body : State → State) (h : s.issues b = true) :
    s.issue b n false body = s.faultBench b 6 [] := by
  simp [State.issue, h]

/-- A bench that does not run does nothing with an instruction. -/
theorem State.issue_stopped (s : State) (b n : Nat) (good : Bool) (body : State → State)
    (h : s.flag (F.bncStatusRunning b) = false) : s.issue b n good body = s := by
  simp [State.issue, State.issues, h]

@[simp] theorem State.advance_bench_self (s : State) (b n : Nat) : (s.advance b n).bench b = (s.bench b).advance n := by
  simp [State.advance]

theorem State.advance_other (s : State) (b n : Nat) {c : Nat} (hc : c ≠ b) : (s.advance b n).bench c = s.bench c :=
  State.setBench_ne _ _ hc

@[simp] theorem State.advance_fld (s : State) (b n : Nat) (g : Field) : (s.advance b n).fld g = s.fld g := rfl
@[simp] theorem State.advance_flag (s : State) (b n : Nat) (g : Field) : (s.advance b n).flag g = s.flag g := rfl

/-- Counting the errors of an operand read changes BNC_ECC of the bench alone (R84). -/
theorem State.benchCountRead_form (s : State) (b : Nat) (lines : List Nat) :
    ∃ r : Regs, s.benchCountRead b lines = { s with regs := r }
      ∧ ∀ g : Field, g.addr ≠ (F.bncEccCorrected b).addr → r.fld g = s.regs.fld g := by
  have step : ∀ (s : State) (f : Field) (n : Nat), f.addr = (F.bncEccCorrected b).addr →
      ∃ r : Regs, (if n = 0 then s else s.count f n) = { s with regs := r }
        ∧ ∀ g : Field, g.addr ≠ (F.bncEccCorrected b).addr → r.fld g = s.regs.fld g := by
    intro s f n hf
    by_cases h : n = 0
    · exact ⟨s.regs, by simp [h], fun _ _ => rfl⟩
    · refine ⟨(s.count f n).regs, by simp [h]; rfl, fun g hg => ?_⟩
      exact State.fld_count_ne s n (.inl (hf ▸ hg))
  simp only [State.benchCountRead]
  generalize lines.filter (fun l => !(s.bench b).poison.contains l) = lines
  obtain ⟨r1, e1, h1⟩ := step s (F.bncEccCorrected b) ((lines.map (markCount (s.bench b).ce)).foldl (· + ·) 0) rfl
  obtain ⟨r2, e2, h2⟩ := step { s with regs := r1 } (F.bncEccUncorrected b)
    (lines.filter (lineMarked (s.bench b).ue)).length rfl
  refine ⟨r2, ?_, fun g hg => (h2 g hg).trans (h1 g hg)⟩
  rw [e1]
  exact e2

@[simp] theorem State.benchCountRead_bench (s : State) (b : Nat) (lines : List Nat) (c : Nat) :
    (s.benchCountRead b lines).bench c = s.bench c := by
  obtain ⟨r, h, -⟩ := s.benchCountRead_form b lines
  rw [h]
  rfl

theorem State.benchCountRead_fld (s : State) (b : Nat) (lines : List Nat) {g : Field}
    (h : g.addr ≠ (F.bncEccCorrected b).addr) : (s.benchCountRead b lines).fld g = s.fld g := by
  obtain ⟨r, e, k⟩ := s.benchCountRead_form b lines
  rw [e]
  exact k g h

/-- An operand read without an uncorrectable or a poisoned line hands over (R84). -/
theorem State.withLines_clean (s : State) (b : Nat) (lines : List Nat) (body : State → State)
    (h : (s.bench b).operandFault lines = none) : s.withLines b lines body = body (s.benchCountRead b lines) := by
  simp [State.withLines, h]

theorem State.withOperand_clean (s : State) (b a n : Nat) (body : List Byte → State → State) (hn : n ≠ 0)
    (h : (s.bench b).operandFault (linesOf a n) = none) :
    s.withOperand b a n body = body (Memory.read (s.bench b).store a n) (s.benchCountRead b (linesOf a n)) := by
  simp [State.withOperand, h, hn]

end Sys2Proof.Machine
end

