-- ==== Sys2Proof/Laws/Checkpoint.lean ====
section
/-! SUPPORT. Laws of restoring a checkpoint (20_checkpoint.md R520, R521): what a RESTORE does next, case by case. -/

namespace Sys2Proof.Machine

/-- A RESTORE whose operation is over is dropped. -/
theorem State.stepRestore_over (s : State) (x : Restore) (h : s.outstanding x.op = false) :
    s.stepRestore x = { s with restores := s.restores.filter (fun y => y.op != x.op) } := by
  simp [State.stepRestore, h]

/-- A failed READ ends it. -/
theorem State.stepRestore_failed (s : State) (x : Restore) (st : Nat) (h : s.outstanding x.op = true) (hf : x.failed = some st) :
    s.stepRestore x = s.failRestore x st := by
  simp [State.stepRestore, h, hf]

/-- Without a binding it ends with FENCED. -/
theorem State.stepRestore_unbound (s : State) (x : Restore) (h : s.outstanding x.op = true) (hf : x.failed = none)
    (hr : s.sec.record = none) : s.stepRestore x = s.failRestore x Status.fenced := by
  simp [State.stepRestore, h, hf, hr]

/-- What is left to ask for is asked for. -/
theorem State.stepRestore_asks (s : State) (x : Restore) (b : BindRec) (h : s.outstanding x.op = true) (hf : x.failed = none)
    (hr : s.sec.record = some b) (ht : x.todo ≠ []) : s.stepRestore x = s.askPieces x := by
  simp [State.stepRestore, h, hf, hr, ht]

/-- While bytes are to come it waits. -/
theorem State.stepRestore_waits (s : State) (x : Restore) (b : BindRec) (h : s.outstanding x.op = true) (hf : x.failed = none)
    (hr : s.sec.record = some b) (ht : x.todo = []) (hw : s.reading x = true) : s.stepRestore x = s := by
  simp [State.stepRestore, h, hf, hr, ht, hw]

/-- What has come whole is checked. -/
theorem State.stepRestore_checks (s : State) (x : Restore) (b : BindRec) (h : s.outstanding x.op = true) (hf : x.failed = none)
    (hr : s.sec.record = some b) (ht : x.todo = []) (hw : s.reading x = false) : s.stepRestore x = s.checkRestore b x := by
  simp [State.stepRestore, h, hf, hr, ht, hw]

/-- Bytes that arrive change the restores alone. -/
theorem State.arrive_frame (s : State) (o : Option OpRef) (off : Nat) (bs : List Byte) :
    { s.arrive o off bs with restores := s.restores } = s := rfl

@[simp] theorem State.stepRestores_nil (s : State) (h : s.restores = []) : s.stepRestores = s := by
  simp [State.stepRestores, h]

end Sys2Proof.Machine
end

