-- ==== Sys2Proof/WellFormed.lean ====
section
/-! DEFINITION. Which commands are well-formed: the lists that a command carries have the lengths that its rule gives them.
Unit numbers and fields are bounded by their types. A sequencer slot that breaks 03_benches.md R542 is well-formed: its
effect is the fault BAD_INSTRUCTION. -/

namespace Sys2Proof

/-- The well-formed commands: energies of 40 valleys (18_power.md R483), flit payloads of 640 bytes (06_plain.md R169),
Muster records of 256 bytes (R185), failing boot steps of 2 and more (09_firmware.md R274), signatures of 96 and nonces of 32 bytes (10_tenancy.md R294, R298), page numbers of 64
bits of a shelf command (14_shelf.md R379), frames with their Ethernet header, packets of at most 4,096 bytes of payload (16_rdma.md
R438), 25 sensor samples of 24 bits (17_time.md R469). -/
def Instr.wf (i : Instr) : Bool :=
  match i with
  | .nop _ _ => true
  | .endProg _ _ => true
  | .loop _ _ => true
  | .waitm _ _ => true
  | .sync _ _ => true
  | .openWin _ _ => true
  | .openWindowEnd _ => true
  | .mmt _ _ => true
  | .mms _ _ => true
  | .aclr _ _ => true
  | .aanc _ _ => true
  | .awb _ _ => true
  | .aexp _ _ => true
  | .aimp _ _ => true
  | .abias _ _ => true
  | .asamp _ _ => true
  | .spre _ _ _ => true
  | .sqnt _ _ => true
  | .sxch _ _ => true
  | .vecAdd _ _ => true
  | .vecSub _ _ => true
  | .vecMul _ _ => true
  | .vecFma _ _ => true
  | .vecDiv _ _ => true
  | .vecSqrt _ _ => true
  | .vecMax _ _ => true
  | .vecMin _ _ => true
  | .vecCmp _ _ => true
  | .vecSel _ _ => true
  | .ldf _ _ => true
  | .stf _ _ => true
  | .vecLdb _ _ => true
  | .vecStb _ _ => true
  | .vecMove _ _ => true
  | .bcst _ _ => true
  | .vdraw _ _ => true
  | .vred _ _ => true
  | .trnExp2 _ _ => true
  | .trnExp _ _ => true
  | .trnLog2 _ _ => true
  | .trnLog _ _ => true
  | .trnRcp _ _ => true
  | .trnRsqrt _ _ => true
  | .trnTanh _ _ => true
  | .trnSinpi _ _ => true
  | .trnCospi _ _ => true
  | .mns _ _ _ _ => true
  | .mhb _ _ _ _ => true
  | .mbb _ _ _ _ => true
  | .mlk _ _ _ _ => true
  | .maxAnchors _ _ _ _ => true
  | .moverTransferDone _ => true
  | .cutStart => true
  | .kerfStart => true
  | .kerfSeal => true
  | .kerfService => true
  | .kerfCommit p => decide (p.energy.length = 40)
  | .configEpochApply => true
  | .cutDeadlineExpiry _ => true
  | .stretchLatch _ => true
  | .flitRelease _ _ payload _ => decide (payload.length = 640)
  | .flitLost _ _ => true
  | .lossNoticeReceived _ _ _ => true
  | .replayFlitReceived _ _ payload _ _ => decide (payload.length = 640)
  | .linkFailure _ => true
  | .sealFlitReceived _ _ => true
  | .haltNoticeReceived _ _ _ => true
  | .checkpointNoticeReceived _ _ _ => true
  | .linkIdentity _ _ _ _ _ => true
  | .musterRecord _ record _ => decide (record.length = 256)
  | .startRecord _ _ _ => true
  | .haltReport _ _ _ => true
  | .musterTimeout => true
  | .runStart => true
  | .refreshStep _ => true
  | .stackTempRead _ _ => true
  | .selfRefreshEntry _ => true
  | .hbmEccWriteBack _ _ => true
  | .nstEccWriteBack _ _ => true
  | .slotZeroRewriteDone _ _ => true
  | .stackInterfaceFailure _ => true
  | .stackMapOutApply _ => true
  | .benchMapOutApply _ => true
  | .linkMapOutApply _ => true
  | .aluAdd _ _ _ _ => true
  | .aluAddc _ _ _ _ => true
  | .aluSub _ _ _ _ => true
  | .aluSubc _ _ _ _ => true
  | .aluAnd _ _ _ _ => true
  | .aluOr _ _ _ _ => true
  | .aluXor _ _ _ _ => true
  | .aluNot _ _ _ _ => true
  | .aluNeg _ _ _ _ => true
  | .aluMin _ _ _ _ => true
  | .aluMax _ _ _ _ => true
  | .aluCmp _ _ _ _ => true
  | .aluMov _ _ _ _ => true
  | .aluMul _ _ _ _ => true
  | .divs _ _ _ _ => true
  | .divu _ _ _ _ => true
  | .rems _ _ _ _ => true
  | .remu _ _ _ _ => true
  | .sext _ _ _ _ => true
  | .zext _ _ _ _ => true
  | .aluImmediate _ _ _ _ _ => true
  | .movi _ _ _ => true
  | .shl _ _ => true
  | .shr _ _ => true
  | .sar _ _ => true
  | .rol _ _ => true
  | .ror _ _ => true
  | .bitFieldExtract _ _ => true
  | .bitFieldInsert _ _ => true
  | .mac _ _ _ _ => true
  | .msu _ _ _ _ => true
  | .macu _ _ _ _ => true
  | .msuu _ _ _ _ => true
  | .mulc _ _ _ _ _ => true
  | .acl _ _ => true
  | .cmov _ _ _ => true
  | .mvc _ _ _ _ => true
  | .mvgc _ _ _ _ => true
  | .ldb _ _ _ => true
  | .ldbu _ _ _ => true
  | .ldh _ _ _ => true
  | .ldhu _ _ _ => true
  | .ldw _ _ _ => true
  | .ldp _ _ _ => true
  | .ldc _ _ _ => true
  | .stb _ _ _ => true
  | .sth _ _ _ => true
  | .stw _ _ _ => true
  | .stp _ _ _ => true
  | .stc _ _ _ => true
  | .padr _ _ _ _ => true
  | .padd _ _ _ _ => true
  | .psub _ _ _ _ => true
  | .pmov _ _ _ => true
  | .pget _ _ _ => true
  | .pput _ _ _ => true
  | .pcmp _ _ _ => true
  | .branch _ _ _ _ => true
  | .call _ _ => true
  | .callp _ _ => true
  | .jmp _ _ => true
  | .jmpp _ _ => true
  | .mfs _ _ _ => true
  | .mts _ _ _ => true
  | .ret _ => true
  | .reti _ _ => true
  | .trap _ _ => true
  | .fence _ => true
  | .wait _ => true
  | .halt _ => true
  | .rep _ _ => true
  | .repg _ _ => true
  | .repn _ _ => true
  | .interruptAssert _ _ _ => true
  | .wdtExpiry _ _ => true
  | .systemWindowTimeout _ _ _ => true
  | .cld _ _ => true
  | .cvec _ _ => true
  | .ctrn _ _ => true
  | .cdraw _ _ => true
  | .csamp _ _ => true
  | .crd _ _ => true
  | .cwr _ _ => true
  | .cwait _ _ => true
  | .cwb _ _ => true
  | .cmovc _ _ => true
  | .croute _ _ => true
  | .csync _ _ => true
  | .crel _ _ => true
  | .cpxOpComplete _ _ => true
  | .load _ _ _ => true
  | .start _ _ => true
  | .stage _ _ _ => true
  | .stop _ _ => true
  | .unload _ _ => true
  | .muster _ _ => true
  | .dissolve _ _ => true
  | .pageCommit _ _ => true
  | .checkpointTake _ _ => true
  | .manifestCommit _ => true
  | .checkpointRestore _ _ _ => true
  | .assign _ => true
  | .release _ => true
  | .grant _ => true
  | .revoke _ => true
  | .freeze _ => true
  | .save _ _ => true
  | .restoreImage _ _ => true
  | .thaw _ => true
  | .mbxSend _ _ => true
  | .recvBuf _ => true
  | .managerMbxSend _ => true
  | .insMbxAck _ _ => true
  | .insUpdate _ _ => true
  | .doorbell _ _ _ => true
  | .queueReset _ _ => true
  | .descriptorFetch _ _ _ => true
  | .completionWrite _ _ _ => true
  | .msixMessage _ _ => true
  | .glbUpdate _ => true
  | .glbDiscard _ => true
  | .glbCompat _ => true
  | .registerWrite _ _ _ _ => true
  | .rwtScrub _ => true
  | .download => true
  | .activate => true
  | .commit => true
  | .abandon => true
  | .boot r => r.failAt.all (fun (n : BitVec 3) => decide (2 ≤ n.toNat))
  | .arm => true
  | .disarm => true
  | .secCtrlUnbind _ => true
  | .debugTicket => true
  | .debugLock => true
  | .debugRightsExpiry => true
  | .bindNonce _ _ => true
  | .bind _ _ _ _ => true
  | .unbind _ _ sig nonce _ => decide (sig.length = 96) && decide (nonce.length = 32)
  | .getVersion _ => true
  | .getCapabilities _ _ => true
  | .negotiateAlgorithms _ _ => true
  | .getDigests _ => true
  | .getCertificate _ _ => true
  | .challenge _ _ nonce => decide (nonce.length = 32)
  | .getMeasurements _ _ => true
  | .keyExchange _ _ => true
  | .finish _ _ => true
  | .heartbeat _ => true
  | .keyUpdate _ => true
  | .endSession _ => true
  | .doeObject _ _ => true
  | .atomicopRequest _ _ => true
  | .perstNAssert => true
  | .perstNDeassert => true
  | .flr _ => true
  | .managerFlr => true
  | .vfEnable => true
  | .d3hotEntry _ => true
  | .lowpowerEntry => true
  | .d0Entry => true
  | .instanceD3hot _ => true
  | .pmeResend => true
  | .nsCreate => true
  | .nsDelete => true
  | .nsFormat => true
  | .nsFormatDone _ => true
  | .sanitize => true
  | .sanitizeDone _ => true
  | .shelfRead _ _ => true
  | .shelfWrite _ _ => true
  | .shelfFlush _ _ => true
  | .shelfTrim _ _ => true
  | .shelfStatus _ _ => true
  | .shelfCommandDone _ _ m => m.unread.all (fun p => decide (p < 2 ^ 64))
  | .channelFailure _ => true
  | .rebuildDone => true
  | .shelfIdleTimeout => true
  | .dataRefresh _ _ => true
  | .frameReceived _ bytes _ _ => decide (14 ≤ bytes.length)
  | .slowPathService _ => true
  | .post _ _ => true
  | .ethSend _ _ _ => true
  | .setFlowKey _ _ => true
  | .txFrameStart _ => true
  | .frameTransmitted _ => true
  | .portUp _ _ => true
  | .portDown _ => true
  | .laneLossOfLock _ _ => true
  | .ruleSetCommit _ => true
  | .ruleSetSwitch _ => true
  | .rmaWrite _ _ _ => true
  | .rmaRead _ _ _ => true
  | .qpModify _ _ => true
  | .peerResolveTimeout _ => true
  | .reg _ _ => true
  | .dereg _ _ => true
  | .qpSeal _ _ => true
  | .attach _ _ => true
  | .rdmaWritePacket p => decide (p.payload.length ≤ 4096)
  | .rdmaReadRequest p => decide (p.payload.length ≤ 4096)
  | .rdmaReadResponse p => decide (p.payload.length ≤ 4096)
  | .acknowledge p => decide (p.payload.length ≤ 4096)
  | .nakReceived p => decide (p.payload.length ≤ 4096)
  | .cnpReceived p => decide (p.payload.length ≤ 4096)
  | .retransmitTimeout _ => true
  | .rateDecayTimer _ => true
  | .rateIncreaseTimer _ => true
  | .ptpSync _ _ => true
  | .ptpAnnounce _ => true
  | .referenceLoss _ => true
  | .referenceQualified _ _ => true
  | .ppsInEdge _ => true
  | .secondBoundary => true
  | .holdoverExpiry => true
  | .rtcAlarm => true
  | .supercapEmpty => true
  | .sensorSample vals => decide (vals.length = 25) && vals.all (fun v => decide (-(2 ^ 23) ≤ v ∧ v < 2 ^ 23))
  | .mctpControl _ _ => true
  | .pldmDiscovery _ _ _ => true
  | .getTid _ => true
  | .setEventReceiver _ _ => true
  | .getPdrRepositoryInfo _ => true
  | .getPdr _ _ => true
  | .getSensorReading _ _ => true
  | .setNumericSensorEnable _ _ _ => true
  | .getSensorThresholds _ _ => true
  | .hostAttention _ => true
  | .smbusArbitrationLost => true
  | .smbusRetry _ => true
  | .logRead => true
  | .hourlySave => true
  | .dayBoundary => true
  | .slackLow _ => true
  | .rcvRequest => true
  | .rcvCopy => true
  | .levelTimeout => true
  | .fenceDrainTimeout => true
  | .engineHeartbeatTimeout _ => true
  | .passAckTimeout _ => true
  | .pwrcycTimeout => true
  | .pcSample => true
  | .bypass => true
  | .idcode => true
  | .samplePreload => true
  | .dbgreg _ _ _ => true
  | .extest => true
  | .aux3v3Apply _ => true
  | .aux3v3Loss => true
  | .p54vApply => true
  | .p54vLoss => true
  | .thermalTrip _ => true
  | .dovetailLossOfLock _ => true
  | .dovetailTrainingDone _ => true
  | .instanceD0Entry _ => true
  | .vfEnableClear => true
  | .msixVectorUnmask _ _ => true
  | .pmeStatusClear => true

end Sys2Proof
end

