-- ==== Sys2Proof/Laws/PerInstr.lean ====
section
/-! SUPPORT. One lemma for each command: it is well-formed exactly where the lists it carries have the lengths and ranges that
its rule gives them. -/

namespace Sys2Proof.Laws.Operands

/-- The lengths and ranges of the lists that a command carries (18_power.md R483, 06_plain.md R169 and R185, 09_firmware.md R274, 10_tenancy.md
R294 and R298, 14_shelf.md R390, 15_ethernet.md R415, 16_rdma.md R438, 17_time.md R469); a command without lists carries fields
that their types bound. -/
def Proper : Instr → Prop
  | .kerfCommit p => p.energy.length = 40
  | .flitRelease _ _ x _ => x.length = 640
  | .replayFlitReceived _ _ x _ _ => x.length = 640
  | .musterRecord _ x _ => x.length = 256
  | .boot r => ∀ n ∈ r.failAt, 2 ≤ n.toNat
  | .unbind _ _ sig nonce _ => sig.length = 96 ∧ nonce.length = 32
  | .challenge _ _ nonce => nonce.length = 32
  | .shelfCommandDone _ _ m => ∀ p ∈ m.unread, p < 2 ^ 64
  | .frameReceived _ x _ _ => 14 ≤ x.length
  | .rdmaWritePacket p => p.payload.length ≤ 4096
  | .rdmaReadRequest p => p.payload.length ≤ 4096
  | .rdmaReadResponse p => p.payload.length ≤ 4096
  | .acknowledge p => p.payload.length ≤ 4096
  | .nakReceived p => p.payload.length ≤ 4096
  | .cnpReceived p => p.payload.length ≤ 4096
  | .sensorSample vals => vals.length = 25 ∧ ∀ v ∈ vals, -(2 ^ 23) ≤ v ∧ v < 2 ^ 23
  | _ => True

/-- A command is well-formed exactly where its operands are proper. -/
def Statement (i : Instr) : Prop := i.wf = true ↔ Proper i
theorem nop (b : BenchId) (i : SeqWords) : Statement (.nop b i) := ⟨fun _ => trivial, fun _ => rfl⟩
theorem endProg (b : BenchId) (i : SeqWords) : Statement (.endProg b i) := ⟨fun _ => trivial, fun _ => rfl⟩
theorem loop (b : BenchId) (i : SeqWords) : Statement (.loop b i) := ⟨fun _ => trivial, fun _ => rfl⟩
theorem waitm (b : BenchId) (i : SeqWords) : Statement (.waitm b i) := ⟨fun _ => trivial, fun _ => rfl⟩
theorem sync (b : BenchId) (i : SeqWords) : Statement (.sync b i) := ⟨fun _ => trivial, fun _ => rfl⟩
theorem openWin (b : BenchId) (i : SeqWords) : Statement (.openWin b i) := ⟨fun _ => trivial, fun _ => rfl⟩
theorem openWindowEnd (b : BenchId) : Statement (.openWindowEnd b) := ⟨fun _ => trivial, fun _ => rfl⟩
theorem mmt (b : BenchId) (i : SeqWords) : Statement (.mmt b i) := ⟨fun _ => trivial, fun _ => rfl⟩
theorem mms (b : BenchId) (i : SeqWords) : Statement (.mms b i) := ⟨fun _ => trivial, fun _ => rfl⟩
theorem aclr (b : BenchId) (i : SeqWords) : Statement (.aclr b i) := ⟨fun _ => trivial, fun _ => rfl⟩
theorem aanc (b : BenchId) (i : SeqWords) : Statement (.aanc b i) := ⟨fun _ => trivial, fun _ => rfl⟩
theorem awb (b : BenchId) (i : SeqWords) : Statement (.awb b i) := ⟨fun _ => trivial, fun _ => rfl⟩
theorem aexp (b : BenchId) (i : SeqWords) : Statement (.aexp b i) := ⟨fun _ => trivial, fun _ => rfl⟩
theorem aimp (b : BenchId) (i : SeqWords) : Statement (.aimp b i) := ⟨fun _ => trivial, fun _ => rfl⟩
theorem abias (b : BenchId) (i : SeqWords) : Statement (.abias b i) := ⟨fun _ => trivial, fun _ => rfl⟩
theorem asamp (b : BenchId) (i : SeqWords) : Statement (.asamp b i) := ⟨fun _ => trivial, fun _ => rfl⟩
theorem spre (b : BenchId) (i : SeqWords) (x : Slot) : Statement (.spre b i x) := ⟨fun _ => trivial, fun _ => rfl⟩
theorem sqnt (b : BenchId) (i : SeqWords) : Statement (.sqnt b i) := ⟨fun _ => trivial, fun _ => rfl⟩
theorem sxch (b : BenchId) (i : SeqWords) : Statement (.sxch b i) := ⟨fun _ => trivial, fun _ => rfl⟩
theorem vecAdd (b : BenchId) (i : SeqWords) : Statement (.vecAdd b i) := ⟨fun _ => trivial, fun _ => rfl⟩
theorem vecSub (b : BenchId) (i : SeqWords) : Statement (.vecSub b i) := ⟨fun _ => trivial, fun _ => rfl⟩
theorem vecMul (b : BenchId) (i : SeqWords) : Statement (.vecMul b i) := ⟨fun _ => trivial, fun _ => rfl⟩
theorem vecFma (b : BenchId) (i : SeqWords) : Statement (.vecFma b i) := ⟨fun _ => trivial, fun _ => rfl⟩
theorem vecDiv (b : BenchId) (i : SeqWords) : Statement (.vecDiv b i) := ⟨fun _ => trivial, fun _ => rfl⟩
theorem vecSqrt (b : BenchId) (i : SeqWords) : Statement (.vecSqrt b i) := ⟨fun _ => trivial, fun _ => rfl⟩
theorem vecMax (b : BenchId) (i : SeqWords) : Statement (.vecMax b i) := ⟨fun _ => trivial, fun _ => rfl⟩
theorem vecMin (b : BenchId) (i : SeqWords) : Statement (.vecMin b i) := ⟨fun _ => trivial, fun _ => rfl⟩
theorem vecCmp (b : BenchId) (i : SeqWords) : Statement (.vecCmp b i) := ⟨fun _ => trivial, fun _ => rfl⟩
theorem vecSel (b : BenchId) (i : SeqWords) : Statement (.vecSel b i) := ⟨fun _ => trivial, fun _ => rfl⟩
theorem ldf (b : BenchId) (i : SeqWords) : Statement (.ldf b i) := ⟨fun _ => trivial, fun _ => rfl⟩
theorem stf (b : BenchId) (i : SeqWords) : Statement (.stf b i) := ⟨fun _ => trivial, fun _ => rfl⟩
theorem vecLdb (b : BenchId) (i : SeqWords) : Statement (.vecLdb b i) := ⟨fun _ => trivial, fun _ => rfl⟩
theorem vecStb (b : BenchId) (i : SeqWords) : Statement (.vecStb b i) := ⟨fun _ => trivial, fun _ => rfl⟩
theorem vecMove (b : BenchId) (i : SeqWords) : Statement (.vecMove b i) := ⟨fun _ => trivial, fun _ => rfl⟩
theorem bcst (b : BenchId) (i : SeqWords) : Statement (.bcst b i) := ⟨fun _ => trivial, fun _ => rfl⟩
theorem vdraw (b : BenchId) (i : SeqWords) : Statement (.vdraw b i) := ⟨fun _ => trivial, fun _ => rfl⟩
theorem vred (b : BenchId) (i : SeqWords) : Statement (.vred b i) := ⟨fun _ => trivial, fun _ => rfl⟩
theorem trnExp2 (b : BenchId) (i : SeqWords) : Statement (.trnExp2 b i) := ⟨fun _ => trivial, fun _ => rfl⟩
theorem trnExp (b : BenchId) (i : SeqWords) : Statement (.trnExp b i) := ⟨fun _ => trivial, fun _ => rfl⟩
theorem trnLog2 (b : BenchId) (i : SeqWords) : Statement (.trnLog2 b i) := ⟨fun _ => trivial, fun _ => rfl⟩
theorem trnLog (b : BenchId) (i : SeqWords) : Statement (.trnLog b i) := ⟨fun _ => trivial, fun _ => rfl⟩
theorem trnRcp (b : BenchId) (i : SeqWords) : Statement (.trnRcp b i) := ⟨fun _ => trivial, fun _ => rfl⟩
theorem trnRsqrt (b : BenchId) (i : SeqWords) : Statement (.trnRsqrt b i) := ⟨fun _ => trivial, fun _ => rfl⟩
theorem trnTanh (b : BenchId) (i : SeqWords) : Statement (.trnTanh b i) := ⟨fun _ => trivial, fun _ => rfl⟩
theorem trnSinpi (b : BenchId) (i : SeqWords) : Statement (.trnSinpi b i) := ⟨fun _ => trivial, fun _ => rfl⟩
theorem trnCospi (b : BenchId) (i : SeqWords) : Statement (.trnCospi b i) := ⟨fun _ => trivial, fun _ => rfl⟩
theorem mns (b : BenchId) (i : SeqWords) (x1 : Slot) (x2 : Slot) : Statement (.mns b i x1 x2) := ⟨fun _ => trivial, fun _ => rfl⟩
theorem mhb (b : BenchId) (i : SeqWords) (x1 : Slot) (x2 : Slot) : Statement (.mhb b i x1 x2) := ⟨fun _ => trivial, fun _ => rfl⟩
theorem mbb (b : BenchId) (i : SeqWords) (x1 : Slot) (x2 : Slot) : Statement (.mbb b i x1 x2) := ⟨fun _ => trivial, fun _ => rfl⟩
theorem mlk (b : BenchId) (i : SeqWords) (x1 : Slot) (x2 : Slot) : Statement (.mlk b i x1 x2) := ⟨fun _ => trivial, fun _ => rfl⟩
theorem maxAnchors (b : BenchId) (i : SeqWords) (x1 : Slot) (x2 : Slot) : Statement (.maxAnchors b i x1 x2) := ⟨fun _ => trivial, fun _ => rfl⟩
theorem moverTransferDone (b : BenchId) : Statement (.moverTransferDone b) := ⟨fun _ => trivial, fun _ => rfl⟩
theorem cutStart : Statement (.cutStart) := ⟨fun _ => trivial, fun _ => rfl⟩
theorem kerfStart : Statement (.kerfStart) := ⟨fun _ => trivial, fun _ => rfl⟩
theorem kerfSeal : Statement (.kerfSeal) := ⟨fun _ => trivial, fun _ => rfl⟩
theorem kerfService : Statement (.kerfService) := ⟨fun _ => trivial, fun _ => rfl⟩
theorem kerfCommit (p : KerfPower) : Statement (.kerfCommit p) := by simp [Statement, Proper, Instr.wf]
theorem configEpochApply : Statement (.configEpochApply) := ⟨fun _ => trivial, fun _ => rfl⟩
theorem cutDeadlineExpiry (w : Silent) : Statement (.cutDeadlineExpiry w) := ⟨fun _ => trivial, fun _ => rfl⟩
theorem stretchLatch (p : PowerSample) : Statement (.stretchLatch p) := ⟨fun _ => trivial, fun _ => rfl⟩
theorem flitRelease (j : LinkId) (index : BitVec 16) (payload : List Byte) (fixed : Bool) : Statement (.flitRelease j index payload fixed) := by simp [Statement, Proper, Instr.wf]
theorem flitLost (j : LinkId) (index : BitVec 16) : Statement (.flitLost j index) := ⟨fun _ => trivial, fun _ => rfl⟩
theorem lossNoticeReceived (j : LinkId) (index : BitVec 16) (fixed : Bool) : Statement (.lossNoticeReceived j index fixed) := ⟨fun _ => trivial, fun _ => rfl⟩
theorem replayFlitReceived (j : LinkId) (index : BitVec 16) (payload : List Byte) (corrects fixed : Bool) : Statement (.replayFlitReceived j index payload corrects fixed) := by simp [Statement, Proper, Instr.wf]
theorem linkFailure (j : LinkId) : Statement (.linkFailure j) := ⟨fun _ => trivial, fun _ => rfl⟩
theorem sealFlitReceived (j : LinkId) (f : SealFlit) : Statement (.sealFlitReceived j f) := ⟨fun _ => trivial, fun _ => rfl⟩
theorem haltNoticeReceived (j : LinkId) (value : BitVec 16) (fixed : Bool) : Statement (.haltNoticeReceived j value fixed) := ⟨fun _ => trivial, fun _ => rfl⟩
theorem checkpointNoticeReceived (j : LinkId) (value : BitVec 16) (fixed : Bool) : Statement (.checkpointNoticeReceived j value fixed) := ⟨fun _ => trivial, fun _ => rfl⟩
theorem linkIdentity (j : LinkId) (formation : W64) (member : BitVec 16) (peerLink : BitVec 3) (fixed : Bool) : Statement (.linkIdentity j formation member peerLink fixed) := ⟨fun _ => trivial, fun _ => rfl⟩
theorem musterRecord (j : LinkId) (record : List Byte) (fixed : Bool) : Statement (.musterRecord j record fixed) := by simp [Statement, Proper, Instr.wf]
theorem startRecord (j : LinkId) (record : StartRec) (fixed : Bool) : Statement (.startRecord j record fixed) := ⟨fun _ => trivial, fun _ => rfl⟩
theorem haltReport (j : LinkId) (report : HaltRep) (fixed : Bool) : Statement (.haltReport j report fixed) := ⟨fun _ => trivial, fun _ => rfl⟩
theorem musterTimeout : Statement (.musterTimeout) := ⟨fun _ => trivial, fun _ => rfl⟩
theorem runStart : Statement (.runStart) := ⟨fun _ => trivial, fun _ => rfl⟩
theorem refreshStep (s : StackId) : Statement (.refreshStep s) := ⟨fun _ => trivial, fun _ => rfl⟩
theorem stackTempRead (s : StackId) (temp : BitVec 8) : Statement (.stackTempRead s temp) := ⟨fun _ => trivial, fun _ => rfl⟩
theorem selfRefreshEntry (s : StackId) : Statement (.selfRefreshEntry s) := ⟨fun _ => trivial, fun _ => rfl⟩
theorem hbmEccWriteBack (s : StackId) (line : BitVec 30) : Statement (.hbmEccWriteBack s line) := ⟨fun _ => trivial, fun _ => rfl⟩
theorem nstEccWriteBack (d : DieId) (line : BitVec 25) : Statement (.nstEccWriteBack d line) := ⟨fun _ => trivial, fun _ => rfl⟩
theorem slotZeroRewriteDone (s : StackId) (granule : BitVec 20) : Statement (.slotZeroRewriteDone s granule) := ⟨fun _ => trivial, fun _ => rfl⟩
theorem stackInterfaceFailure (s : StackId) : Statement (.stackInterfaceFailure s) := ⟨fun _ => trivial, fun _ => rfl⟩
theorem stackMapOutApply (s : StackId) : Statement (.stackMapOutApply s) := ⟨fun _ => trivial, fun _ => rfl⟩
theorem benchMapOutApply (b : BenchId) : Statement (.benchMapOutApply b) := ⟨fun _ => trivial, fun _ => rfl⟩
theorem linkMapOutApply (j : LinkId) : Statement (.linkMapOutApply j) := ⟨fun _ => trivial, fun _ => rfl⟩
theorem aluAdd (k : CoreId) (gd : Gn) (gs1 : Gn) (gs2 : Gn) : Statement (.aluAdd k gd gs1 gs2) := ⟨fun _ => trivial, fun _ => rfl⟩
theorem aluAddc (k : CoreId) (gd : Gn) (gs1 : Gn) (gs2 : Gn) : Statement (.aluAddc k gd gs1 gs2) := ⟨fun _ => trivial, fun _ => rfl⟩
theorem aluSub (k : CoreId) (gd : Gn) (gs1 : Gn) (gs2 : Gn) : Statement (.aluSub k gd gs1 gs2) := ⟨fun _ => trivial, fun _ => rfl⟩
theorem aluSubc (k : CoreId) (gd : Gn) (gs1 : Gn) (gs2 : Gn) : Statement (.aluSubc k gd gs1 gs2) := ⟨fun _ => trivial, fun _ => rfl⟩
theorem aluAnd (k : CoreId) (gd : Gn) (gs1 : Gn) (gs2 : Gn) : Statement (.aluAnd k gd gs1 gs2) := ⟨fun _ => trivial, fun _ => rfl⟩
theorem aluOr (k : CoreId) (gd : Gn) (gs1 : Gn) (gs2 : Gn) : Statement (.aluOr k gd gs1 gs2) := ⟨fun _ => trivial, fun _ => rfl⟩
theorem aluXor (k : CoreId) (gd : Gn) (gs1 : Gn) (gs2 : Gn) : Statement (.aluXor k gd gs1 gs2) := ⟨fun _ => trivial, fun _ => rfl⟩
theorem aluNot (k : CoreId) (gd : Gn) (gs1 : Gn) (gs2 : Gn) : Statement (.aluNot k gd gs1 gs2) := ⟨fun _ => trivial, fun _ => rfl⟩
theorem aluNeg (k : CoreId) (gd : Gn) (gs1 : Gn) (gs2 : Gn) : Statement (.aluNeg k gd gs1 gs2) := ⟨fun _ => trivial, fun _ => rfl⟩
theorem aluMin (k : CoreId) (gd : Gn) (gs1 : Gn) (gs2 : Gn) : Statement (.aluMin k gd gs1 gs2) := ⟨fun _ => trivial, fun _ => rfl⟩
theorem aluMax (k : CoreId) (gd : Gn) (gs1 : Gn) (gs2 : Gn) : Statement (.aluMax k gd gs1 gs2) := ⟨fun _ => trivial, fun _ => rfl⟩
theorem aluCmp (k : CoreId) (gd : Gn) (gs1 : Gn) (gs2 : Gn) : Statement (.aluCmp k gd gs1 gs2) := ⟨fun _ => trivial, fun _ => rfl⟩
theorem aluMov (k : CoreId) (gd : Gn) (gs1 : Gn) (gs2 : Gn) : Statement (.aluMov k gd gs1 gs2) := ⟨fun _ => trivial, fun _ => rfl⟩
theorem aluMul (k : CoreId) (gd : Gn) (gs1 : Gn) (gs2 : Gn) : Statement (.aluMul k gd gs1 gs2) := ⟨fun _ => trivial, fun _ => rfl⟩
theorem divs (k : CoreId) (gd : Gn) (gs1 : Gn) (gs2 : Gn) : Statement (.divs k gd gs1 gs2) := ⟨fun _ => trivial, fun _ => rfl⟩
theorem divu (k : CoreId) (gd : Gn) (gs1 : Gn) (gs2 : Gn) : Statement (.divu k gd gs1 gs2) := ⟨fun _ => trivial, fun _ => rfl⟩
theorem rems (k : CoreId) (gd : Gn) (gs1 : Gn) (gs2 : Gn) : Statement (.rems k gd gs1 gs2) := ⟨fun _ => trivial, fun _ => rfl⟩
theorem remu (k : CoreId) (gd : Gn) (gs1 : Gn) (gs2 : Gn) : Statement (.remu k gd gs1 gs2) := ⟨fun _ => trivial, fun _ => rfl⟩
theorem sext (k : CoreId) (gd : Gn) (gs1 : Gn) (gs2 : Gn) : Statement (.sext k gd gs1 gs2) := ⟨fun _ => trivial, fun _ => rfl⟩
theorem zext (k : CoreId) (gd : Gn) (gs1 : Gn) (gs2 : Gn) : Statement (.zext k gd gs1 gs2) := ⟨fun _ => trivial, fun _ => rfl⟩
theorem aluImmediate (k : CoreId) (op : Option AluOp) (gd : Gn) (gs : Gn) (imm : Imm) : Statement (.aluImmediate k op gd gs imm) := ⟨fun _ => trivial, fun _ => rfl⟩
theorem movi (k : CoreId) (gd : Gn) (imm : Imm) : Statement (.movi k gd imm) := ⟨fun _ => trivial, fun _ => rfl⟩
theorem shl (k : CoreId) (f : ShiftFields) : Statement (.shl k f) := ⟨fun _ => trivial, fun _ => rfl⟩
theorem shr (k : CoreId) (f : ShiftFields) : Statement (.shr k f) := ⟨fun _ => trivial, fun _ => rfl⟩
theorem sar (k : CoreId) (f : ShiftFields) : Statement (.sar k f) := ⟨fun _ => trivial, fun _ => rfl⟩
theorem rol (k : CoreId) (f : ShiftFields) : Statement (.rol k f) := ⟨fun _ => trivial, fun _ => rfl⟩
theorem ror (k : CoreId) (f : ShiftFields) : Statement (.ror k f) := ⟨fun _ => trivial, fun _ => rfl⟩
theorem bitFieldExtract (k : CoreId) (f : ShiftFields) : Statement (.bitFieldExtract k f) := ⟨fun _ => trivial, fun _ => rfl⟩
theorem bitFieldInsert (k : CoreId) (f : ShiftFields) : Statement (.bitFieldInsert k f) := ⟨fun _ => trivial, fun _ => rfl⟩
theorem mac (k : CoreId) (cn : Cn) (gx : Gn) (gy : Gn) : Statement (.mac k cn gx gy) := ⟨fun _ => trivial, fun _ => rfl⟩
theorem msu (k : CoreId) (cn : Cn) (gx : Gn) (gy : Gn) : Statement (.msu k cn gx gy) := ⟨fun _ => trivial, fun _ => rfl⟩
theorem macu (k : CoreId) (cn : Cn) (gx : Gn) (gy : Gn) : Statement (.macu k cn gx gy) := ⟨fun _ => trivial, fun _ => rfl⟩
theorem msuu (k : CoreId) (cn : Cn) (gx : Gn) (gy : Gn) : Statement (.msuu k cn gx gy) := ⟨fun _ => trivial, fun _ => rfl⟩
theorem mulc (k : CoreId) (cn : Cn) (gx : Gn) (gy : Gn) (unsigned : Bool) : Statement (.mulc k cn gx gy unsigned) := ⟨fun _ => trivial, fun _ => rfl⟩
theorem acl (k : CoreId) (cn : Cn) : Statement (.acl k cn) := ⟨fun _ => trivial, fun _ => rfl⟩
theorem cmov (k : CoreId) (cn : Cn) (src : Cn) : Statement (.cmov k cn src) := ⟨fun _ => trivial, fun _ => rfl⟩
theorem mvc (k : CoreId) (gd : Gn) (cn : Cn) (sh : BitVec 6) : Statement (.mvc k gd cn sh) := ⟨fun _ => trivial, fun _ => rfl⟩
theorem mvgc (k : CoreId) (cn : Cn) (gx : Gn) (gy : Gn) : Statement (.mvgc k cn gx gy) := ⟨fun _ => trivial, fun _ => rfl⟩
theorem ldb (k : CoreId) (gd : Gn) (m : MemOp) : Statement (.ldb k gd m) := ⟨fun _ => trivial, fun _ => rfl⟩
theorem ldbu (k : CoreId) (gd : Gn) (m : MemOp) : Statement (.ldbu k gd m) := ⟨fun _ => trivial, fun _ => rfl⟩
theorem ldh (k : CoreId) (gd : Gn) (m : MemOp) : Statement (.ldh k gd m) := ⟨fun _ => trivial, fun _ => rfl⟩
theorem ldhu (k : CoreId) (gd : Gn) (m : MemOp) : Statement (.ldhu k gd m) := ⟨fun _ => trivial, fun _ => rfl⟩
theorem ldw (k : CoreId) (gd : Gn) (m : MemOp) : Statement (.ldw k gd m) := ⟨fun _ => trivial, fun _ => rfl⟩
theorem ldp (k : CoreId) (pd : Pn) (m : MemOp) : Statement (.ldp k pd m) := ⟨fun _ => trivial, fun _ => rfl⟩
theorem ldc (k : CoreId) (cn : Cn) (m : MemOp) : Statement (.ldc k cn m) := ⟨fun _ => trivial, fun _ => rfl⟩
theorem stb (k : CoreId) (gs : Gn) (m : MemOp) : Statement (.stb k gs m) := ⟨fun _ => trivial, fun _ => rfl⟩
theorem sth (k : CoreId) (gs : Gn) (m : MemOp) : Statement (.sth k gs m) := ⟨fun _ => trivial, fun _ => rfl⟩
theorem stw (k : CoreId) (gs : Gn) (m : MemOp) : Statement (.stw k gs m) := ⟨fun _ => trivial, fun _ => rfl⟩
theorem stp (k : CoreId) (ps : Pn) (m : MemOp) : Statement (.stp k ps m) := ⟨fun _ => trivial, fun _ => rfl⟩
theorem stc (k : CoreId) (cn : Cn) (m : MemOp) : Statement (.stc k cn m) := ⟨fun _ => trivial, fun _ => rfl⟩
theorem padr (k : CoreId) (pd : Pn) (ps : Pn) (imm : Disp) : Statement (.padr k pd ps imm) := ⟨fun _ => trivial, fun _ => rfl⟩
theorem padd (k : CoreId) (pd : Pn) (ps : Pn) (gi : Gn) : Statement (.padd k pd ps gi) := ⟨fun _ => trivial, fun _ => rfl⟩
theorem psub (k : CoreId) (pd : Pn) (ps : Pn) (gi : Gn) : Statement (.psub k pd ps gi) := ⟨fun _ => trivial, fun _ => rfl⟩
theorem pmov (k : CoreId) (pd : Pn) (ps : Pn) : Statement (.pmov k pd ps) := ⟨fun _ => trivial, fun _ => rfl⟩
theorem pget (k : CoreId) (ps : Pn) (gi : Gn) : Statement (.pget k ps gi) := ⟨fun _ => trivial, fun _ => rfl⟩
theorem pput (k : CoreId) (pd : Pn) (gi : Gn) : Statement (.pput k pd gi) := ⟨fun _ => trivial, fun _ => rfl⟩
theorem pcmp (k : CoreId) (pd : Pn) (ps : Pn) : Statement (.pcmp k pd ps) := ⟨fun _ => trivial, fun _ => rfl⟩
theorem branch (k : CoreId) (cond : BitVec 4) (off : BitVec 24) (sq : Squash) : Statement (.branch k cond off sq) := ⟨fun _ => trivial, fun _ => rfl⟩
theorem call (k : CoreId) (off : Target) : Statement (.call k off) := ⟨fun _ => trivial, fun _ => rfl⟩
theorem callp (k : CoreId) (pn : Pn) : Statement (.callp k pn) := ⟨fun _ => trivial, fun _ => rfl⟩
theorem jmp (k : CoreId) (off : Target) : Statement (.jmp k off) := ⟨fun _ => trivial, fun _ => rfl⟩
theorem jmpp (k : CoreId) (pn : Pn) : Statement (.jmpp k pn) := ⟨fun _ => trivial, fun _ => rfl⟩
theorem mfs (k : CoreId) (gd : Gn) (sr : BitVec 10) : Statement (.mfs k gd sr) := ⟨fun _ => trivial, fun _ => rfl⟩
theorem mts (k : CoreId) (gs : Gn) (sr : BitVec 10) : Statement (.mts k gs sr) := ⟨fun _ => trivial, fun _ => rfl⟩
theorem ret (k : CoreId) : Statement (.ret k) := ⟨fun _ => trivial, fun _ => rfl⟩
theorem reti (k : CoreId) (sq : Squash) : Statement (.reti k sq) := ⟨fun _ => trivial, fun _ => rfl⟩
theorem trap (k : CoreId) (sq : Squash) : Statement (.trap k sq) := ⟨fun _ => trivial, fun _ => rfl⟩
theorem fence (k : CoreId) : Statement (.fence k) := ⟨fun _ => trivial, fun _ => rfl⟩
theorem wait (k : CoreId) : Statement (.wait k) := ⟨fun _ => trivial, fun _ => rfl⟩
theorem halt (k : CoreId) : Statement (.halt k) := ⟨fun _ => trivial, fun _ => rfl⟩
theorem rep (k : CoreId) (n : BitVec 16) : Statement (.rep k n) := ⟨fun _ => trivial, fun _ => rfl⟩
theorem repg (k : CoreId) (gn : Gn) : Statement (.repg k gn) := ⟨fun _ => trivial, fun _ => rfl⟩
theorem repn (k : CoreId) (n : BitVec 16) : Statement (.repn k n) := ⟨fun _ => trivial, fun _ => rfl⟩
theorem interruptAssert (k : CoreId) (line : BitVec 5) (sq : Squash) : Statement (.interruptAssert k line sq) := ⟨fun _ => trivial, fun _ => rfl⟩
theorem wdtExpiry (k : CoreId) (sq : Squash) : Statement (.wdtExpiry k sq) := ⟨fun _ => trivial, fun _ => rfl⟩
theorem systemWindowTimeout (k : CoreId) (addr : W32) (sq : Squash) : Statement (.systemWindowTimeout k addr sq) := ⟨fun _ => trivial, fun _ => rfl⟩
theorem cld (k : CoreId) (x : CpxFields) : Statement (.cld k x) := ⟨fun _ => trivial, fun _ => rfl⟩
theorem cvec (k : CoreId) (x : CpxFields) : Statement (.cvec k x) := ⟨fun _ => trivial, fun _ => rfl⟩
theorem ctrn (k : CoreId) (x : CpxFields) : Statement (.ctrn k x) := ⟨fun _ => trivial, fun _ => rfl⟩
theorem cdraw (k : CoreId) (x : CpxFields) : Statement (.cdraw k x) := ⟨fun _ => trivial, fun _ => rfl⟩
theorem csamp (k : CoreId) (x : CpxFields) : Statement (.csamp k x) := ⟨fun _ => trivial, fun _ => rfl⟩
theorem crd (k : CoreId) (x : CpxFields) : Statement (.crd k x) := ⟨fun _ => trivial, fun _ => rfl⟩
theorem cwr (k : CoreId) (x : CpxFields) : Statement (.cwr k x) := ⟨fun _ => trivial, fun _ => rfl⟩
theorem cwait (k : CoreId) (x : CpxFields) : Statement (.cwait k x) := ⟨fun _ => trivial, fun _ => rfl⟩
theorem cwb (k : CoreId) (x : CpxFields) : Statement (.cwb k x) := ⟨fun _ => trivial, fun _ => rfl⟩
theorem cmovc (k : CoreId) (x : CpxFields) : Statement (.cmovc k x) := ⟨fun _ => trivial, fun _ => rfl⟩
theorem croute (k : CoreId) (x : CpxFields) : Statement (.croute k x) := ⟨fun _ => trivial, fun _ => rfl⟩
theorem csync (k : CoreId) (x : CpxFields) : Statement (.csync k x) := ⟨fun _ => trivial, fun _ => rfl⟩
theorem crel (k : CoreId) (x : CpxFields) : Statement (.crel k x) := ⟨fun _ => trivial, fun _ => rfl⟩
theorem cpxOpComplete (c : ClusterId) (unit : BitVec 4) : Statement (.cpxOpComplete c unit) := ⟨fun _ => trivial, fun _ => rfl⟩
theorem load (i : FnId) (r : RingId) (k : Bool) : Statement (.load i r k) := ⟨fun _ => trivial, fun _ => rfl⟩
theorem start (i : FnId) (r : RingId) : Statement (.start i r) := ⟨fun _ => trivial, fun _ => rfl⟩
theorem stage (i : FnId) (r : RingId) (k : Bool) : Statement (.stage i r k) := ⟨fun _ => trivial, fun _ => rfl⟩
theorem stop (i : FnId) (r : RingId) : Statement (.stop i r) := ⟨fun _ => trivial, fun _ => rfl⟩
theorem unload (i : FnId) (r : RingId) : Statement (.unload i r) := ⟨fun _ => trivial, fun _ => rfl⟩
theorem muster (i : FnId) (r : RingId) : Statement (.muster i r) := ⟨fun _ => trivial, fun _ => rfl⟩
theorem dissolve (i : FnId) (r : RingId) : Statement (.dissolve i r) := ⟨fun _ => trivial, fun _ => rfl⟩
theorem pageCommit (i : FnId) (r : RingId) : Statement (.pageCommit i r) := ⟨fun _ => trivial, fun _ => rfl⟩
theorem checkpointTake (i : FnId) (r : RingId) : Statement (.checkpointTake i r) := ⟨fun _ => trivial, fun _ => rfl⟩
theorem manifestCommit (m : Bool) : Statement (.manifestCommit m) := ⟨fun _ => trivial, fun _ => rfl⟩
theorem checkpointRestore (i : FnId) (r : RingId) (m : Bool) : Statement (.checkpointRestore i r m) := ⟨fun _ => trivial, fun _ => rfl⟩
theorem assign (r : RingId) : Statement (.assign r) := ⟨fun _ => trivial, fun _ => rfl⟩
theorem release (r : RingId) : Statement (.release r) := ⟨fun _ => trivial, fun _ => rfl⟩
theorem grant (r : RingId) : Statement (.grant r) := ⟨fun _ => trivial, fun _ => rfl⟩
theorem revoke (r : RingId) : Statement (.revoke r) := ⟨fun _ => trivial, fun _ => rfl⟩
theorem freeze (r : RingId) : Statement (.freeze r) := ⟨fun _ => trivial, fun _ => rfl⟩
theorem save (r : RingId) (m : Bool) : Statement (.save r m) := ⟨fun _ => trivial, fun _ => rfl⟩
theorem restoreImage (r : RingId) (m : Bool) : Statement (.restoreImage r m) := ⟨fun _ => trivial, fun _ => rfl⟩
theorem thaw (r : RingId) : Statement (.thaw r) := ⟨fun _ => trivial, fun _ => rfl⟩
theorem mbxSend (i : FnId) (r : RingId) : Statement (.mbxSend i r) := ⟨fun _ => trivial, fun _ => rfl⟩
theorem recvBuf (r : RingId) : Statement (.recvBuf r) := ⟨fun _ => trivial, fun _ => rfl⟩
theorem managerMbxSend (r : RingId) : Statement (.managerMbxSend r) := ⟨fun _ => trivial, fun _ => rfl⟩
theorem insMbxAck (i : FnId) (seq : W32) : Statement (.insMbxAck i seq) := ⟨fun _ => trivial, fun _ => rfl⟩
theorem insUpdate (i : FnId) (v : W32) : Statement (.insUpdate i v) := ⟨fun _ => trivial, fun _ => rfl⟩
theorem doorbell (i : FnId) (r : RingId) (v : W64) : Statement (.doorbell i r v) := ⟨fun _ => trivial, fun _ => rfl⟩
theorem queueReset (i : FnId) (r : RingId) : Statement (.queueReset i r) := ⟨fun _ => trivial, fun _ => rfl⟩
theorem descriptorFetch (i : FnId) (r : RingId) (err : Bool) : Statement (.descriptorFetch i r err) := ⟨fun _ => trivial, fun _ => rfl⟩
theorem completionWrite (i : FnId) (r : RingId) (err : Bool) : Statement (.completionWrite i r err) := ⟨fun _ => trivial, fun _ => rfl⟩
theorem msixMessage (i : FnId) (r : RingId) : Statement (.msixMessage i r) := ⟨fun _ => trivial, fun _ => rfl⟩
theorem glbUpdate (v : W32) : Statement (.glbUpdate v) := ⟨fun _ => trivial, fun _ => rfl⟩
theorem glbDiscard (v : W32) : Statement (.glbDiscard v) := ⟨fun _ => trivial, fun _ => rfl⟩
theorem glbCompat (v : W32) : Statement (.glbCompat v) := ⟨fun _ => trivial, fun _ => rfl⟩
theorem registerWrite (i : FnId) (addr : BitVec 28) (wide : Bool) (v : W64) : Statement (.registerWrite i addr wide v) := ⟨fun _ => trivial, fun _ => rfl⟩
theorem rwtScrub (v : ValleyId) : Statement (.rwtScrub v) := ⟨fun _ => trivial, fun _ => rfl⟩
theorem download : Statement (.download) := ⟨fun _ => trivial, fun _ => rfl⟩
theorem activate : Statement (.activate) := ⟨fun _ => trivial, fun _ => rfl⟩
theorem commit : Statement (.commit) := ⟨fun _ => trivial, fun _ => rfl⟩
theorem abandon : Statement (.abandon) := ⟨fun _ => trivial, fun _ => rfl⟩
theorem boot (r : BootRun) : Statement (.boot r) := by
  cases h : r.failAt <;> simp [Statement, Proper, Instr.wf, h]
theorem arm : Statement (.arm) := ⟨fun _ => trivial, fun _ => rfl⟩
theorem disarm : Statement (.disarm) := ⟨fun _ => trivial, fun _ => rfl⟩
theorem secCtrlUnbind (m : BitVec 4) : Statement (.secCtrlUnbind m) := ⟨fun _ => trivial, fun _ => rfl⟩
theorem debugTicket : Statement (.debugTicket) := ⟨fun _ => trivial, fun _ => rfl⟩
theorem debugLock : Statement (.debugLock) := ⟨fun _ => trivial, fun _ => rfl⟩
theorem debugRightsExpiry : Statement (.debugRightsExpiry) := ⟨fun _ => trivial, fun _ => rfl⟩
theorem bindNonce (n : SessId) (v : Bool) : Statement (.bindNonce n v) := ⟨fun _ => trivial, fun _ => rfl⟩
theorem bind (n : SessId) (v : Bool) (req : List Byte) (m : BitVec 4) : Statement (.bind n v req m) := ⟨fun _ => trivial, fun _ => rfl⟩
theorem unbind (n : SessId) (v : Bool) (sig : List Byte) (nonce : List Byte) (m : BitVec 4) : Statement (.unbind n v sig nonce m) := by simp [Statement, Proper, Instr.wf]
theorem getVersion (i : FnId) : Statement (.getVersion i) := ⟨fun _ => trivial, fun _ => rfl⟩
theorem getCapabilities (i : FnId) (unsupported : Bool) : Statement (.getCapabilities i unsupported) := ⟨fun _ => trivial, fun _ => rfl⟩
theorem negotiateAlgorithms (i : FnId) (offered : Bool) : Statement (.negotiateAlgorithms i offered) := ⟨fun _ => trivial, fun _ => rfl⟩
theorem getDigests (i : FnId) : Statement (.getDigests i) := ⟨fun _ => trivial, fun _ => rfl⟩
theorem getCertificate (i : FnId) (slot : BitVec 8) : Statement (.getCertificate i slot) := ⟨fun _ => trivial, fun _ => rfl⟩
theorem challenge (i : FnId) (slot : BitVec 8) (nonce : List Byte) : Statement (.challenge i slot nonce) := by simp [Statement, Proper, Instr.wf]
theorem getMeasurements (i : FnId) (index : BitVec 8) : Statement (.getMeasurements i index) := ⟨fun _ => trivial, fun _ => rfl⟩
theorem keyExchange (i : FnId) (mutualAuth : Bool) : Statement (.keyExchange i mutualAuth) := ⟨fun _ => trivial, fun _ => rfl⟩
theorem finish (n : SessId) (ok : Bool) : Statement (.finish n ok) := ⟨fun _ => trivial, fun _ => rfl⟩
theorem heartbeat (n : SessId) : Statement (.heartbeat n) := ⟨fun _ => trivial, fun _ => rfl⟩
theorem keyUpdate (n : SessId) : Statement (.keyUpdate n) := ⟨fun _ => trivial, fun _ => rfl⟩
theorem endSession (n : SessId) : Statement (.endSession n) := ⟨fun _ => trivial, fun _ => rfl⟩
theorem doeObject (i : FnId) (protocol : BitVec 8) : Statement (.doeObject i protocol) := ⟨fun _ => trivial, fun _ => rfl⟩
theorem atomicopRequest (i : FnId) (addr : W64) : Statement (.atomicopRequest i addr) := ⟨fun _ => trivial, fun _ => rfl⟩
theorem perstNAssert : Statement (.perstNAssert) := ⟨fun _ => trivial, fun _ => rfl⟩
theorem perstNDeassert : Statement (.perstNDeassert) := ⟨fun _ => trivial, fun _ => rfl⟩
theorem flr (i : FnId) : Statement (.flr i) := ⟨fun _ => trivial, fun _ => rfl⟩
theorem managerFlr : Statement (.managerFlr) := ⟨fun _ => trivial, fun _ => rfl⟩
theorem vfEnable : Statement (.vfEnable) := ⟨fun _ => trivial, fun _ => rfl⟩
theorem d3hotEntry (pme : Bool) : Statement (.d3hotEntry pme) := ⟨fun _ => trivial, fun _ => rfl⟩
theorem lowpowerEntry : Statement (.lowpowerEntry) := ⟨fun _ => trivial, fun _ => rfl⟩
theorem d0Entry : Statement (.d0Entry) := ⟨fun _ => trivial, fun _ => rfl⟩
theorem instanceD3hot (i : FnId) : Statement (.instanceD3hot i) := ⟨fun _ => trivial, fun _ => rfl⟩
theorem pmeResend : Statement (.pmeResend) := ⟨fun _ => trivial, fun _ => rfl⟩
theorem nsCreate : Statement (.nsCreate) := ⟨fun _ => trivial, fun _ => rfl⟩
theorem nsDelete : Statement (.nsDelete) := ⟨fun _ => trivial, fun _ => rfl⟩
theorem nsFormat : Statement (.nsFormat) := ⟨fun _ => trivial, fun _ => rfl⟩
theorem nsFormatDone (ns : BitVec 8) : Statement (.nsFormatDone ns) := ⟨fun _ => trivial, fun _ => rfl⟩
theorem sanitize : Statement (.sanitize) := ⟨fun _ => trivial, fun _ => rfl⟩
theorem sanitizeDone (spare : BitVec 7) : Statement (.sanitizeDone spare) := ⟨fun _ => trivial, fun _ => rfl⟩
theorem shelfRead (q : SqpId) (slot : BitVec 12) : Statement (.shelfRead q slot) := ⟨fun _ => trivial, fun _ => rfl⟩
theorem shelfWrite (q : SqpId) (slot : BitVec 12) : Statement (.shelfWrite q slot) := ⟨fun _ => trivial, fun _ => rfl⟩
theorem shelfFlush (q : SqpId) (slot : BitVec 12) : Statement (.shelfFlush q slot) := ⟨fun _ => trivial, fun _ => rfl⟩
theorem shelfTrim (q : SqpId) (slot : BitVec 12) : Statement (.shelfTrim q slot) := ⟨fun _ => trivial, fun _ => rfl⟩
theorem shelfStatus (q : SqpId) (slot : BitVec 12) : Statement (.shelfStatus q slot) := ⟨fun _ => trivial, fun _ => rfl⟩
theorem shelfCommandDone (q : SqpId) (slot : BitVec 12) (m : MediaResult) : Statement (.shelfCommandDone q slot m) := by simp [Statement, Proper, Instr.wf]
theorem channelFailure (ch : ChanId) : Statement (.channelFailure ch) := ⟨fun _ => trivial, fun _ => rfl⟩
theorem rebuildDone : Statement (.rebuildDone) := ⟨fun _ => trivial, fun _ => rfl⟩
theorem shelfIdleTimeout : Statement (.shelfIdleTimeout) := ⟨fun _ => trivial, fun _ => rfl⟩
theorem dataRefresh (ns : BitVec 8) (lba : BitVec 40) : Statement (.dataRefresh ns lba) := ⟨fun _ => trivial, fun _ => rfl⟩
theorem frameReceived (p : PortId) (bytes : List Byte) (fcsOk : Bool) (mismatch : Bool) : Statement (.frameReceived p bytes fcsOk mismatch) := by simp [Statement, Proper, Instr.wf]
theorem slowPathService (p : PortId) : Statement (.slowPathService p) := ⟨fun _ => trivial, fun _ => rfl⟩
theorem post (i : FnId) (r : RingId) : Statement (.post i r) := ⟨fun _ => trivial, fun _ => rfl⟩
theorem ethSend (i : FnId) (r : RingId) (mismatch : Bool) : Statement (.ethSend i r mismatch) := ⟨fun _ => trivial, fun _ => rfl⟩
theorem setFlowKey (i : FnId) (r : RingId) : Statement (.setFlowKey i r) := ⟨fun _ => trivial, fun _ => rfl⟩
theorem txFrameStart (p : PortId) : Statement (.txFrameStart p) := ⟨fun _ => trivial, fun _ => rfl⟩
theorem frameTransmitted (p : PortId) : Statement (.frameTransmitted p) := ⟨fun _ => trivial, fun _ => rfl⟩
theorem portUp (p : PortId) (peerModes : BitVec 4) : Statement (.portUp p peerModes) := ⟨fun _ => trivial, fun _ => rfl⟩
theorem portDown (p : PortId) : Statement (.portDown p) := ⟨fun _ => trivial, fun _ => rfl⟩
theorem laneLossOfLock (p : PortId) (lane : BitVec 2) : Statement (.laneLossOfLock p lane) := ⟨fun _ => trivial, fun _ => rfl⟩
theorem ruleSetCommit (p : PortId) : Statement (.ruleSetCommit p) := ⟨fun _ => trivial, fun _ => rfl⟩
theorem ruleSetSwitch (p : PortId) : Statement (.ruleSetSwitch p) := ⟨fun _ => trivial, fun _ => rfl⟩
theorem rmaWrite (i : FnId) (r : RingId) (m : Bool) : Statement (.rmaWrite i r m) := ⟨fun _ => trivial, fun _ => rfl⟩
theorem rmaRead (i : FnId) (r : RingId) (m : Bool) : Statement (.rmaRead i r m) := ⟨fun _ => trivial, fun _ => rfl⟩
theorem qpModify (i : FnId) (r : RingId) : Statement (.qpModify i r) := ⟨fun _ => trivial, fun _ => rfl⟩
theorem peerResolveTimeout (q : QpId) : Statement (.peerResolveTimeout q) := ⟨fun _ => trivial, fun _ => rfl⟩
theorem reg (i : FnId) (r : RingId) : Statement (.reg i r) := ⟨fun _ => trivial, fun _ => rfl⟩
theorem dereg (i : FnId) (r : RingId) : Statement (.dereg i r) := ⟨fun _ => trivial, fun _ => rfl⟩
theorem qpSeal (i : FnId) (r : RingId) : Statement (.qpSeal i r) := ⟨fun _ => trivial, fun _ => rfl⟩
theorem attach (i : FnId) (r : RingId) : Statement (.attach i r) := ⟨fun _ => trivial, fun _ => rfl⟩
theorem rdmaWritePacket (p : RocePkt) : Statement (.rdmaWritePacket p) := by simp [Statement, Proper, Instr.wf]
theorem rdmaReadRequest (p : RocePkt) : Statement (.rdmaReadRequest p) := by simp [Statement, Proper, Instr.wf]
theorem rdmaReadResponse (p : RocePkt) : Statement (.rdmaReadResponse p) := by simp [Statement, Proper, Instr.wf]
theorem acknowledge (p : RocePkt) : Statement (.acknowledge p) := by simp [Statement, Proper, Instr.wf]
theorem nakReceived (p : RocePkt) : Statement (.nakReceived p) := by simp [Statement, Proper, Instr.wf]
theorem cnpReceived (p : RocePkt) : Statement (.cnpReceived p) := by simp [Statement, Proper, Instr.wf]
theorem retransmitTimeout (q : QpId) : Statement (.retransmitTimeout q) := ⟨fun _ => trivial, fun _ => rfl⟩
theorem rateDecayTimer (q : QpId) : Statement (.rateDecayTimer q) := ⟨fun _ => trivial, fun _ => rfl⟩
theorem rateIncreaseTimer (q : QpId) : Statement (.rateIncreaseTimer q) := ⟨fun _ => trivial, fun _ => rfl⟩
theorem ptpSync (p : PortId) (offset : Int) : Statement (.ptpSync p offset) := ⟨fun _ => trivial, fun _ => rfl⟩
theorem ptpAnnounce (p : PortId) : Statement (.ptpAnnounce p) := ⟨fun _ => trivial, fun _ => rfl⟩
theorem referenceLoss (src : RefSource) : Statement (.referenceLoss src) := ⟨fun _ => trivial, fun _ => rfl⟩
theorem referenceQualified (src : RefSource) (d : Int) : Statement (.referenceQualified src d) := ⟨fun _ => trivial, fun _ => rfl⟩
theorem ppsInEdge (d : Int) : Statement (.ppsInEdge d) := ⟨fun _ => trivial, fun _ => rfl⟩
theorem secondBoundary : Statement (.secondBoundary) := ⟨fun _ => trivial, fun _ => rfl⟩
theorem holdoverExpiry : Statement (.holdoverExpiry) := ⟨fun _ => trivial, fun _ => rfl⟩
theorem rtcAlarm : Statement (.rtcAlarm) := ⟨fun _ => trivial, fun _ => rfl⟩
theorem supercapEmpty : Statement (.supercapEmpty) := ⟨fun _ => trivial, fun _ => rfl⟩
theorem sensorSample (vals : List Int) : Statement (.sensorSample vals) := by simp [Statement, Proper, Instr.wf]
theorem mctpControl (bus : MgmtBus) (op : MctpOp) : Statement (.mctpControl bus op) := ⟨fun _ => trivial, fun _ => rfl⟩
theorem pldmDiscovery (bus : MgmtBus) (type : BitVec 6) (ask : PldmAsk) : Statement (.pldmDiscovery bus type ask) := ⟨fun _ => trivial, fun _ => rfl⟩
theorem getTid (bus : MgmtBus) : Statement (.getTid bus) := ⟨fun _ => trivial, fun _ => rfl⟩
theorem setEventReceiver (bus : MgmtBus) (eid : Option (BitVec 8)) : Statement (.setEventReceiver bus eid) := ⟨fun _ => trivial, fun _ => rfl⟩
theorem getPdrRepositoryInfo (bus : MgmtBus) : Statement (.getPdrRepositoryInfo bus) := ⟨fun _ => trivial, fun _ => rfl⟩
theorem getPdr (bus : MgmtBus) (record : W32) : Statement (.getPdr bus record) := ⟨fun _ => trivial, fun _ => rfl⟩
theorem getSensorReading (bus : MgmtBus) (id : BitVec 16) : Statement (.getSensorReading bus id) := ⟨fun _ => trivial, fun _ => rfl⟩
theorem setNumericSensorEnable (bus : MgmtBus) (id : BitVec 16) (op : BitVec 8) : Statement (.setNumericSensorEnable bus id op) := ⟨fun _ => trivial, fun _ => rfl⟩
theorem getSensorThresholds (bus : MgmtBus) (id : BitVec 16) : Statement (.getSensorThresholds bus id) := ⟨fun _ => trivial, fun _ => rfl⟩
theorem hostAttention (bus : MgmtBus) : Statement (.hostAttention bus) := ⟨fun _ => trivial, fun _ => rfl⟩
theorem smbusArbitrationLost : Statement (.smbusArbitrationLost) := ⟨fun _ => trivial, fun _ => rfl⟩
theorem smbusRetry (lost : Bool) : Statement (.smbusRetry lost) := ⟨fun _ => trivial, fun _ => rfl⟩
theorem logRead : Statement (.logRead) := ⟨fun _ => trivial, fun _ => rfl⟩
theorem hourlySave : Statement (.hourlySave) := ⟨fun _ => trivial, fun _ => rfl⟩
theorem dayBoundary : Statement (.dayBoundary) := ⟨fun _ => trivial, fun _ => rfl⟩
theorem slackLow (v : ValleyId) : Statement (.slackLow v) := ⟨fun _ => trivial, fun _ => rfl⟩
theorem rcvRequest : Statement (.rcvRequest) := ⟨fun _ => trivial, fun _ => rfl⟩
theorem rcvCopy : Statement (.rcvCopy) := ⟨fun _ => trivial, fun _ => rfl⟩
theorem levelTimeout : Statement (.levelTimeout) := ⟨fun _ => trivial, fun _ => rfl⟩
theorem fenceDrainTimeout : Statement (.fenceDrainTimeout) := ⟨fun _ => trivial, fun _ => rfl⟩
theorem engineHeartbeatTimeout (kind : BitVec 4) : Statement (.engineHeartbeatTimeout kind) := ⟨fun _ => trivial, fun _ => rfl⟩
theorem passAckTimeout (v : ValleyId) : Statement (.passAckTimeout v) := ⟨fun _ => trivial, fun _ => rfl⟩
theorem pwrcycTimeout : Statement (.pwrcycTimeout) := ⟨fun _ => trivial, fun _ => rfl⟩
theorem pcSample : Statement (.pcSample) := ⟨fun _ => trivial, fun _ => rfl⟩
theorem bypass : Statement (.bypass) := ⟨fun _ => trivial, fun _ => rfl⟩
theorem idcode : Statement (.idcode) := ⟨fun _ => trivial, fun _ => rfl⟩
theorem samplePreload : Statement (.samplePreload) := ⟨fun _ => trivial, fun _ => rfl⟩
theorem dbgreg (off : BitVec 8) (write : Bool) (v : W64) : Statement (.dbgreg off write v) := ⟨fun _ => trivial, fun _ => rfl⟩
theorem extest : Statement (.extest) := ⟨fun _ => trivial, fun _ => rfl⟩
theorem aux3v3Apply (straps : BitVec 3) : Statement (.aux3v3Apply straps) := ⟨fun _ => trivial, fun _ => rfl⟩
theorem aux3v3Loss : Statement (.aux3v3Loss) := ⟨fun _ => trivial, fun _ => rfl⟩
theorem p54vApply : Statement (.p54vApply) := ⟨fun _ => trivial, fun _ => rfl⟩
theorem p54vLoss : Statement (.p54vLoss) := ⟨fun _ => trivial, fun _ => rfl⟩
theorem thermalTrip (sensor : BitVec 5) : Statement (.thermalTrip sensor) := ⟨fun _ => trivial, fun _ => rfl⟩
theorem dovetailLossOfLock (j : LinkId) : Statement (.dovetailLossOfLock j) := ⟨fun _ => trivial, fun _ => rfl⟩
theorem dovetailTrainingDone (j : LinkId) : Statement (.dovetailTrainingDone j) := ⟨fun _ => trivial, fun _ => rfl⟩
theorem instanceD0Entry (i : FnId) : Statement (.instanceD0Entry i) := ⟨fun _ => trivial, fun _ => rfl⟩
theorem vfEnableClear : Statement (.vfEnableClear) := ⟨fun _ => trivial, fun _ => rfl⟩
theorem msixVectorUnmask (i : FnId) (vec : Option (BitVec 8)) : Statement (.msixVectorUnmask i vec) := ⟨fun _ => trivial, fun _ => rfl⟩
theorem pmeStatusClear : Statement (.pmeStatusClear) := ⟨fun _ => trivial, fun _ => rfl⟩

end Sys2Proof.Laws.Operands
end

