-- ==== Sys2Proof/Laws/Sha.lean ====
section
/-! SUPPORT. SHA-384 over a run of zero blocks, in natural numbers: what a test over 64 KiB needs. -/

namespace Sys2Proof.Laws.Sha

open Sys2Proof Sys2Proof.Machine

/-- One round over numbers, with the sum of its constant and word. -/
def round (v : List Nat) (k : Nat) : List Nat :=
  match v with
  | [a, b, c, d, e, f, g, h] =>
    let rot := fun x n => x >>> n ||| (x <<< (64 - n)) % 18446744073709551616
    let t1 := (h + (rot e 14 ^^^ rot e 18 ^^^ rot e 41) + ((e &&& f) ^^^ ((18446744073709551615 - e) &&& g)) + k) % 18446744073709551616
    let t2 := (rot a 28 ^^^ rot a 34 ^^^ rot a 39) + ((a &&& b) ^^^ (a &&& c) ^^^ (b &&& c))
    [(t1 + t2) % 18446744073709551616, a, b, c, (d + t1) % 18446744073709551616, e, f, g]
  | _ => v

/-- One block of zeros. -/
def block (v : List Nat) : List Nat :=
  List.zipWith (fun a b => (a + b) % 18446744073709551616) v ((Crypto.shaK.map BitVec.toNat).foldl round v)

/-- n blocks of zeros; the condition makes the kernel evaluate each block before the next. -/
def blocks : Nat → List Nat → List Nat
  | 0, v => v
  | n + 1, v => bif v.all (fun x => Nat.ble x 0) then blocks n (block v) else blocks n (block v)

theorem round_toNat (v : List (BitVec 64)) (k : BitVec 64) (hv : v.length = 8) :
    (Crypto.shaRound v (k, 0)).map BitVec.toNat = round (v.map BitVec.toNat) k.toNat ∧ (Crypto.shaRound v (k, 0)).length = 8 := by
  match v, hv with
  | [a, b, c, d, e, f, g, h], _ =>
    refine ⟨?_, rfl⟩
    simp only [Crypto.shaRound, round, List.map_cons, List.map_nil, BitVec.toNat_add, BitVec.toNat_xor, BitVec.toNat_and,
      BitVec.toNat_not, BitVec.toNat_rotateRight, BitVec.ofNat_eq_ofNat, BitVec.toNat_ofNat]
    norm_num

theorem rounds_toNat (ks : List (BitVec 64)) (v : List (BitVec 64)) (hv : v.length = 8) :
    ((ks.map (fun k => (k, (0 : BitVec 64)))).foldl Crypto.shaRound v).map BitVec.toNat = (ks.map BitVec.toNat).foldl round (v.map BitVec.toNat)
      ∧ ((ks.map (fun k => (k, (0 : BitVec 64)))).foldl Crypto.shaRound v).length = 8 := by
  induction ks generalizing v with
  | nil => exact ⟨rfl, hv⟩
  | cons k ks ih =>
    obtain ⟨r, l⟩ := round_toNat v k hv
    simp only [List.map_cons, List.foldl_cons]
    rw [← r]
    exact ih _ l

theorem zip_zeros : Crypto.shaK.zip (Crypto.shaSched 64 (Crypto.beWords 16 (List.replicate 128 0)).reverse).reverse
    = Crypto.shaK.map (fun k => (k, (0 : BitVec 64))) := by decide +kernel

theorem block_toNat (v : List (BitVec 64)) (hv : v.length = 8) :
    (Crypto.shaBlock v (List.replicate 128 0)).map BitVec.toNat = block (v.map BitVec.toNat)
      ∧ (Crypto.shaBlock v (List.replicate 128 0)).length = 8 := by
  obtain ⟨r, l⟩ := rounds_toNat Crypto.shaK v hv
  unfold Crypto.shaBlock block
  simp only [zip_zeros]
  rw [← r]
  generalize List.foldl Crypto.shaRound v _ = w at l
  refine ⟨?_, by simp [hv, l]⟩
  simp only [List.map_zipWith, List.zipWith_map, BitVec.toNat_add]

/-- A run of n zero blocks, then the rest. -/
theorem blocks_toNat (n m : Nat) (v w : List (BitVec 64)) (r : List Byte) (hv : v.length = 8) (hw : w.map BitVec.toNat = blocks n (v.map BitVec.toNat)) :
    Crypto.shaBlocks (n + m) v (List.replicate (128 * n) 0 ++ r) = Crypto.shaBlocks m w r := by
  induction n generalizing v with
  | zero =>
    have e : w = v := by
      simp only [blocks] at hw
      exact List.map_injective_iff.mpr (fun a b h => BitVec.eq_of_toNat_eq h) hw
    simp [e]
  | succ n ih =>
    obtain ⟨b, l⟩ := block_toNat v hv
    have e : List.replicate (128 * (n + 1)) (0 : Byte) ++ r = List.replicate 128 0 ++ (List.replicate (128 * n) 0 ++ r) := by
      rw [← List.append_assoc, List.replicate_append_replicate]
      congr 2
      omega
    have k : (List.replicate 128 (0 : Byte)).length = 128 := List.length_replicate
    rw [show n + 1 + m = (n + m) + 1 by omega, Crypto.shaBlocks, e, List.take_left' k, List.drop_left' k]
    refine ih _ l ?_
    rw [hw, b]
    simp [blocks]

end Sys2Proof.Laws.Sha
end

