-- ==== Sys2Proof/Laws/Window.lean ====
section
/-! SUPPORT. Laws of windows: what adding terms can change, and when the anchor rule of 03_benches.md R75 holds. -/

namespace Sys2Proof.Machine

/-- Adding a term leaves the anchor. -/
@[simp] theorem Window.addTerm_anchor (x : Window) (t : Term) : (x.addTerm t).1.anchor = x.anchor := by
  cases t with
  | nan => rfl
  | inf => rfl
  | fin neg n u l =>
    simp only [Window.addTerm]
    split <;> rfl

/-- A term whose top exponent does not lie above the anchor raises nothing. -/
theorem Window.addTerm_fits (x : Window) (t : Term) (h : ∀ u, t.top = some u → u ≤ x.anchor.toInt) : (x.addTerm t).2 = false := by
  cases t with
  | nan => rfl
  | inf => rfl
  | fin neg n u l =>
    have := h u rfl
    simp only [Window.addTerm, Int.not_lt.mpr this, if_false]

@[simp] theorem Window.addTerms_nil (x : Window) : x.addTerms [] = (x, false) := rfl

/-- The flag of the terms so far only joins the flag of the rest. -/
theorem Window.foldl_addTerm (ts : List Term) (x : Window) (b : Bool) :
    ts.foldl (fun acc t => let (w, f) := acc.1.addTerm t; (w, acc.2 || f)) (x, b) = ((x.addTerms ts).1, b || (x.addTerms ts).2) := by
  induction ts generalizing x b with
  | nil => simp
  | cons t ts ih =>
    have h : x.addTerms (t :: ts) =
        ts.foldl (fun acc t => let (w, f) := acc.1.addTerm t; (w, acc.2 || f)) ((x.addTerm t).1, (x.addTerm t).2) := by
      simp [Window.addTerms]
    rw [h, ih, List.foldl_cons]
    simp only [ih, Bool.or_assoc]

/-- Terms are added one after the other. -/
theorem Window.addTerms_cons (x : Window) (t : Term) (ts : List Term) :
    x.addTerms (t :: ts) = (((x.addTerm t).1.addTerms ts).1, (x.addTerm t).2 || ((x.addTerm t).1.addTerms ts).2) := by
  conv_lhs => unfold Window.addTerms
  rw [List.foldl_cons, Window.foldl_addTerm]
  simp

/-- Terms that do not lie above the anchor raise nothing. -/
theorem Window.addTerms_fit (x : Window) (ts : List Term) (h : ∀ t ∈ ts, ∀ u, t.top = some u → u ≤ x.anchor.toInt) :
    (x.addTerms ts).2 = false := by
  induction ts generalizing x with
  | nil => rfl
  | cons t ts ih =>
    rw [Window.addTerms_cons, Window.addTerm_fits x t (h t (by simp)), Bool.false_or]
    exact ih _ (fun v hv u hu => by
      have := h v (by simp [hv]) u hu
      simpa using this)

/-- The top exponent of a product term is the one it is given (02_arithmetic.md R48). -/
theorem productTerm_top (a b : Fp.Val) (u la lb v : Int) (h : (productTerm a b u la lb).top = some v) : v = u := by
  unfold productTerm at h
  split at h <;> simp [Term.top] at h
  exact h.symm

theorem expX_le (e : Nat) (h : e < 256) : expX e ≤ 128 := by
  unfold expX
  omega

/-- A BF16 product term reaches at most 2^258 (02_arithmetic.md R45). -/
theorem bf16Term_top (a b : Nat) (u : Int) (h : (bf16Term a b).top = some u) : u ≤ 258 := by
  have := productTerm_top _ _ _ _ _ _ h
  have ha := expX_le (bitsOf a 7 8) (Nat.mod_lt _ (by decide))
  have hb := expX_le (bitsOf b 7 8) (Nat.mod_lt _ (by decide))
  omega

end Sys2Proof.Machine
end

