-- ==== Sys2Proof/Tests/Slice0.lean ====
section
/-! SUPPORT. Tests: an ill-formed command for each check of WellFormed, small examples from the manual, and for each clause
of a statement a state and operands that meet its conditions. -/

namespace Sys2Proof.Tests

set_option Elab.async false

open Sys2Proof Sys2Proof.Machine Sys2Proof.Say

/-- Bench b is present and runs. -/
def onBench (b : Nat) : State := (State.reset.setFlag (F.bncStatusPresent b) true).setFlag (F.bncStatusRunning b) true

/-- Operand words. -/
def words (a b c : Nat) : SeqWords := ⟨0, false, false, 0, BitVec.ofNat 32 a, BitVec.ofNat 32 b, BitVec.ofNat 32 c⟩


/-! ### Witnesses: benches -/

/-- Bench b with every window of sets 0 and 3 at anchor 200. -/
def anchored (b : Nat) : State :=
  let s := onBench b
  let w : Window := ⟨0, 0, 200⟩
  s.setBench b { s.bench b with wins := [(0, w), (1, w), (4095, w)], vreg := [(0, [0x3F800000#32, 0])] }

theorem witness_vector_operations_and_primitives_by_lane :
    (∀ n ∈ List.range 16, Ready (onBench 159) (159 : BenchId) (.vec n) (words 0xFFE0 0xFFFFFFFF 0xFFFFF) 0 0) ∧
    (∀ n ∈ List.range 9, Ready (onBench 159) (159 : BenchId) (.trn n) (words 0 0 0x3FF) 0 0) ∧ Full (onBench 159) 159 31 := by
  decide +kernel

theorem witness_vector_loads_stores_and_reductions :
    (Ready (onBench 0) (0 : BenchId) (.vec 0x0A) (words 0xFFE0 0 31) 0 0 ∧ Clean (onBench 0) 0 (64 * 0xFFE0) 2048) ∧
    (Ready (onBench 0) (0 : BenchId) (.vec 0x0B) (words 0xFFE0 0 0x3E0) 0 0 ∧ Full (onBench 0) 0 31) ∧
    (Ready (onBench 0) (0 : BenchId) (.vec 0x0C) (words 0xFFF0 0 31) 0 0 ∧ Clean (onBench 0) 0 (64 * 0xFFF0) 1024) ∧
    Ready (onBench 0) (0 : BenchId) (.vec 0x0D) (words 0xFFF0 0 0x3E0) 0 0 ∧
    (Ready (onBench 0) (0 : BenchId) .vdraw (words 0xFFFF 0xFFFFFFFF 30) 0 0 ∧ Clean (onBench 0) 0 (64 * 0xFFFF) 16) ∧
    (∀ k ∈ [0x3000000, 0x3800000],
      Ready (anchored 0) (0 : BenchId) .vred (words 0 1023 k) 0 0 ∧
      ((((anchored 0).bench 0).win 4095).addTerms (if bitOf k 23 then (((anchored 0).bench 0).vr 0).map singleTerm
        else List.zipWith fp32Term (((anchored 0).bench 0).vr 0) (((anchored 0).bench 0).vr 0))).2 = false) := by
  decide +kernel

theorem witness_accumulator_commands :
    Ready (onBench 0) (0 : BenchId) .aclr (words 0 0 0x1FFF) 0 0 ∧ Ready (onBench 0) (0 : BenchId) .aclr (words 0 0 0x400000) 0 0 ∧
    (∀ m ∈ [0, 0x800000, 0x1000000], Ready (onBench 0) (0 : BenchId) .aanc (words 0xFFFF 0 (0x1FFF + m)) 0 0 ∧
      Clean (onBench 0) 0 (64 * 0xFFFF) 2) ∧
    Ready (onBench 0) (0 : BenchId) .aanc { words 0 200 0x801FFF with split := true } 0 0 ∧
    (∀ j, j < 1 → (Tab.get 0x8000#16 ((onBench 0).bench 0).prescan (4095 + j)).toInt ≤
      ((suppliedAnchors ((onBench 0).bench 0).store { words 0 200 0x801FFF with split := true }).getD j 0).toInt) ∧
    (Ready (onBench 0) (0 : BenchId) .aimp (words 0xFFFF 0 0x4000) 0 0 ∧ Clean (onBench 0) 0 (64 * 0xFFFF) 64) ∧
    (Ready (anchored 0) (0 : BenchId) .abias (words 0xFFFF 0 0x2000) 0 0 ∧ Clean (anchored 0) 0 (64 * 0xFFFF) 8 ∧
      ∀ j, j < 2 → ((((anchored 0).bench 0).win (0 + j)).addTerms
        [singleTerm (BitVec.ofNat 32 (num (anchored 0) 0 (64 * 0xFFFF + 4 * j) 4))]).2 = false) := by
  decide +kernel

theorem witness_window_results :
    (∀ bf ∈ [false, true], Ready (onBench 0) (0 : BenchId) .awb { words 0xFFFF 0 0x1FFF with bf := bf } 0 0) ∧
    Ready (onBench 0) (0 : BenchId) .aexp (words 0xFFFF 0 0x4003) 0 0 ∧ Ready (onBench 0) (0 : BenchId) .sxch (words 0xFFFF 0 0x20000) 0 0 ∧
    (Ready (onBench 0) (0 : BenchId) .asamp (words 0 0xFFFF 16) 0 0 ∧
      ((onBench 0).bench 0).operandFault (linesOf 0 64 ++ [0xFFFF]) = none) := by
  decide +kernel

/-- Bench 0 with every window at anchor 300. -/
def allAnchored : State :=
  let s := onBench 0
  s.setBench 0 { s.bench 0 with wins := (List.range 4096).map (fun k => (k, ⟨0, 0, 300⟩)) }

theorem get_map {α : Type} (d v : α) (l : List Nat) (k : Nat) (h : k ∈ l) : Tab.get d (l.map (fun k => (k, v))) k = v := by
  induction l with
  | nil => cases h
  | cons a t ih =>
    by_cases e : k = a
    · simp [Tab.get, e]
    · simp only [List.map_cons, Tab.get, if_neg e]
      exact ih (by simpa [e] using h)

theorem allAnchored_win (k : Nat) (h : k < 4096) : ((allAnchored.bench 0).win k).anchor.toInt = 300 := by
  have : (allAnchored.bench 0).win k = ⟨0, 0, 300⟩ := by
    simp only [allAnchored, Bench.win, State.setBench_self]
    exact get_map _ _ _ _ (List.mem_range.mpr h)
  rw [this]
  decide

/-- BF16 terms break no anchor of 300. -/
theorem allAnchored_fits (stream : Bool) (m : Memory) (i : SeqWords) (f j : Nat) (hi : i.fc 16 4 = 8) (h : f + j < 4096) :
    (((allAnchored.bench 0).win (f + j)).addTerms ((mmaTerms m stream i).getD j [])).2 = false := by
  apply Window.addTerms_fit
  intro t ht u hu
  rw [allAnchored_win _ h]
  have hb : ∀ ts ∈ mmaTerms m stream i, t ∈ ts → u ≤ 300 := by
    intro ts hts hmem
    simp only [mmaTerms, List.mem_flatMap, List.mem_map] at hts
    obtain ⟨r, -, c, -, rfl⟩ := hts
    simp only [outputTerms, hi, if_true, List.mem_map] at hmem
    obtain ⟨e, -, rfl⟩ := hmem
    have := bf16Term_top _ _ _ hu
    omega
  by_cases hj : j < (mmaTerms m stream i).length
  · rw [List.getD_eq_getElem _ _ hj] at ht
    exact hb _ (List.getElem_mem hj) ht
  · rw [List.getD_eq_default _ _ (by omega)] at ht
    cases ht

/-- The largest MMT and MMS tile: window set 3, and for MMS the last group of 64 windows. -/
def tile (stream : Bool) : SeqWords := if stream then words 0xFC00 0x80100 0x3F880000 else words 0x10000 0x10100 0x3880000

theorem witness_matrix : ∀ stream ∈ [false, true],
    Ready allAnchored (0 : BenchId) (if stream then .mms else .mmt) (tile stream) 0 0 ∧
    (allAnchored.bench 0).operandFault (mmaLines stream (tile stream)) = none := by
  decide +kernel

theorem witness_prescan_and_quantize :
    (let i := words 0 0 0x880000
     let y : Slot := BitVec.ofNat 128 (0x001001 * 2 ^ 100 + 2 ^ 32 * 0 + 0x100 * 2 ^ 16)
     Ready (onBench 0) (0 : BenchId) .spre i y 0 ∧ ((onBench 0).bench 0).operandFault (spreLines i y) = none ∧ bitOf i.c.toNat 31 = false) ∧
    (let i := words 0 0xFFFE 0x3FF0014
     Ready (onBench 0) (0 : BenchId) .sqnt i 0 0 ∧ i.fc 4 12 = 1 ∧ Clean (onBench 0) 0 0 128) := by
  decide +kernel

/-- Bench 0 with a loop, an open window that has been released, and eight transfers in flight. -/
def busyBench : State :=
  let s := onBench 0
  let t := movShape 1 (words 0 0 0) 0 0
  s.setBench 0 { s.bench 0 with loop := some (1, 2, 3), window := some 33, released := true, flight := List.replicate 8 t }

/-- The same, stalled at a ninth. -/
def stalledBench : State := busyBench.setBench 0 { busyBench.bench 0 with stall := some (17, 0) }

theorem witness_sequencer_control :
    (∀ op ∈ [SeqOp.nop, .endProg], Ready (onBench 0) (0 : BenchId) op (words 0 0 0) 0 0) ∧
    (Ready (onBench 0) (0 : BenchId) .loop (words 255 0xFFFF 0) 0 0 ∧ ((onBench 0).bench 0).loop = none) ∧
    Ready (onBench 0) (0 : BenchId) .waitm (words 0xFFFFFFFF 0 0) 0 0 ∧ Ready (onBench 159) (159 : BenchId) .sync (words 0 0xFFFF 15) 0 0 ∧
    Ready (onBench 0) (0 : BenchId) .openWin (words 33 0 0) 0 0 ∧
    ((busyBench.bench 0).window.isSome = true ∧ (busyBench.bench 0).released = true) := by
  decide +kernel

/-- Extension slots of a transfer to the near store, to an HBM stack, and to a bench or link. -/
def movFar (op : Nat) : Slot := if op = 0 then 1 * 2 ^ 44 else if op = 1 then 2 * 2 ^ 44 else 5

theorem witness_mover_transfers :
    (∀ op ∈ [0, 1, 2, 3, 4], ∀ s ∈ [onBench 0, busyBench], Ready s (0 : BenchId) (.mov op) (words 0xFFFF 0 0) (movFar op) 0) ∧
    ((onBench 0).bench 0).flight.length < 8 ∧ 8 ≤ (busyBench.bench 0).flight.length ∧
    (busyBench.bench 0).flight = movShape 1 (words 0 0 0) 0 0 :: List.replicate 7 (movShape 1 (words 0 0 0) 0 0) ∧
    ((stalledBench.bench 0).flight = (busyBench.bench 0).flight ∧ (stalledBench.bench 0).stall = some (17, 0)) := by
  decide +kernel

/-! ### Witnesses: runs, the Plain and memory -/

/-- A cutlist of two cuts for cluster 0. -/
def runList : Cutlist :=
  { roles := 0, partition := 0, ckptCapable := true, plainSize := 2, memberIndex := 0, diameter := 1, cutCount := 2, loopStart := 0,
    clusterMask := 1, stackMask := 0, linkMask := 1, hash := [], family := [], drawing := [], cutRunHash := [],
    runs := [⟨2, 400, 128, 0, 0, false, true, true, true, 0⟩], benches := [], tables := [], regions := [], memslots := [],
    windows := [], exchange := [], images := [] }

/-- Partition 0 of instance 1 with bench 0, in a state. -/
def partState (p : PState) : Part :=
  { Part.init with state := p, owner := some 1, clusters := 1, mates := 1, list := some runList, roles := 1 }

/-- A run of partition 0 in a phase, at cut 1 of the first pass. -/
def inPhase (ph : RunPhase) : State :=
  let s := onBench 0
  { s with
    parts := [(0, partState .running)]
    run := { Run.init with parts := 1, phase := ph, passes := 1, cut := 1, kerfs := 1, firstTick := 4096, since := 4096, epoch := 1,
                           marks := [⟨1, 3840, some 5⟩] } }

/-- The same in a formed Plain of two members with link 0 in service. -/
def plainPhase (ph : RunPhase) : State :=
  (((((inPhase ph).setFlag F.dvtPlainFormed true).setFld F.dvtPlainPlainSize 2).setFld F.dvtPlainDiameter 1).setFld
    (F.dvtLinkStatusState 0) 3).setFld (F.dvtLinkStatusPeerMember 0) 1

/-- s with another run position. -/
def withRun (s : State) (f : Run → Run) : State := { s with run := f s.run }

theorem witness_schedule_events :
    (inPhase .armed).run.phase = .armed ∧ (inPhase .start).run.phase = .start ∧ (inPhase .drain).run.phase = .drain ∧
    (inPhase .sealed).run.phase = .sealed ∧ ((inPhase .cut).run.phase = .cut ∧ (inPhase .cut).schedule = some runList) ∧
    (inPhase .cut).runningBenches.contains 0 = true ∧ (inPhase .cut).flag (F.bncStatusRunning 0) = true := by
  decide +kernel

/-- A halt that is due. -/
def someHalt : Halt := ⟨1, ⟨⟨2, 0x01, 0, .bench 0, 0⟩, 0, 0, 0, 0, some 1, 0, 0⟩, []⟩

theorem witness_kerf_commit :
    (let s := withRun (inPhase .service) (fun r => { r with cut := 0 })
     s.run.phase = .service ∧ s.haltDue = false ∧ s.takeStops = false ∧ s.runOver = false ∧ s.stopDue = false) ∧
    (let s := inPhase .service
     s.haltDue = false ∧ s.takeStops = false ∧ s.swapsNow = false ∧ s.runOver = true) ∧
    (let s := withRun (inPhase .service) (fun r => { r with cut := 0, stopCount := some 1 })
     s.haltDue = false ∧ s.takeStops = false ∧ s.swapsNow = false ∧ s.runOver = false ∧ s.stopDue = true) ∧
    (withRun (inPhase .service) (fun r => { r with halt := some someHalt })).haltDue = true := by
  decide +kernel

theorem witness_deadline_and_stretch :
    (∀ ph ∈ [RunPhase.service, .start, .cut],
      let s := plainPhase ph
      s.scheduled = true ∧ s.serviceLinks.contains 0 = true ∧ s.inPlain = true ∧ s.sealDeadline 0 = some (1, 4096) ∧ s.expiresAt 4096 = true) ∧
    (let s := { plainPhase .idle with parts := [] }
     s.scheduled = false ∧ s.serviceLinks.contains 0 = true ∧ s.inPlain = true ∧ s.sealDeadline 0 = some (1, 4096)) ∧
    (let s := inPhase .service
     s.scheduled = true ∧ s.run.phase.inKerf = true ∧ s.expiresAt (s.run.since + s.kerfLength - 1) = true ∧
       s.touches (.valley 0) = true ∧ s.touches (.valley 33) = false) ∧
    (let s := withRun (inPhase .drain) (fun r => { r with kerfs := 32 })
     s.schedule = some runList ∧ s.run.phase = .drain ∧ s.run.kerfs % 32 = 0 ∧
       s.anyPast F.tlmThreshCrit = false ∧ s.anyPast F.tlmThreshWarn = false ∧
       (limitSensors.foldl (fun (s : State) n => (s.setFld (F.tlmSensorValue n) 0x7FFFFF).setFld (F.tlmThreshCrit n) 1) s).anyPast F.tlmThreshCrit = true) ∧
    ((inPhase .sealed).schedule = some runList ∧ (inPhase .sealed).run.phase ≠ .drain) := by
  decide +kernel

/-- Receive slots of link 0, one of bytes for line 3 of bench 0 and one of anchors for line 30 of it, in the cutlist's only slot
table. -/
def rxList : Cutlist := { runList with tables := [[⟨113, 1, 0, true, 0, 0, 3, 320, 1⟩, ⟨113, 1, 0, true, 1, 0, 30, 64, 2⟩]] }

/-- A run in a phase with those slots; link 0 has lost flit 0, and no valley is isolated. -/
def receiving (ph : RunPhase) : State :=
  let s := (List.range 40).foldl (fun (s : State) v => s.setFlag (F.vlyStateIsolated v) false) (plainPhase ph)
  let s : State := { s with parts := [(0, { partState .running with list := some rxList })] }
  s.setLink 0 { s.link 0 with unrestored := [0], lost := [0] }

theorem witness_flits_and_links :
    (let s := plainPhase .cut
     s.streams 0 = true ∧ s.flitTargets 0 0 = [] ∧ (s.link 0).held.contains 0 = false ∧ s.fld (F.dvtLinkStatusState 0) = 3 ∧
       s.scheduled = true ∧ { s with parts := [] }.scheduled = false) ∧
    (let s := (plainPhase .cut).setLink 0 { Link.init with failAt := some 4219 }
     s.fld (F.dvtLinkStatusState 0) = 3 ∧ (s.link 0).failAt = some 4219 ∧ s.failTick 0 = some 4219 ∧ s.expiresAt 4219 = true) ∧
    (let s := receiving .service
     s.fld (F.dvtLinkStatusState 0) = 3 ∧ s.run.phase = .service ∧ (s.link 0).unrestored.contains 0 = true ∧
       (s.link 0).lost.length - (s.link 0).unrestored.length < 8 ∧ (s.link 0).unrestored ≠ [] ∧ s.scheduled = true ∧
       (s.link 0).failAt = none ∧ (s.link 0).lost ≠ [] ∧ s.run.marks.head? = some ⟨1, 3840, some 5⟩ ∧ s.plain.tick ≤ 3840 + 123 ∧
       s.failTick 0 = some (3840 + 123) ∧ s.expiresAt (3840 + 123) = true) ∧
    (let s := receiving .cut
     (s.link 0).failAt = none ∧ (s.link 0).lost ≠ [] ∧ s.run.phase = .cut ∧ s.schedule = some rxList ∧ s.fld (F.dvtLinkStatusState 0) = 3) ∧
    (let s := (State.reset.setLink 0 { Link.init with unrestored := [7], lost := [7] }).setFld (F.dvtLinkStatusState 0) 3
     s.fld (F.dvtLinkStatusState 0) = 3 ∧ (s.link 0).unrestored ≠ [] ∧ s.scheduled = false) ∧
    State.reset.fld (F.dvtLinkStatusState 0) = 0 := by
  decide +kernel

theorem witness_parts_of_flits :
    (receiving .cut).streams 0 = true ∧
    ∀ s ∈ [receiving .cut, receiving .service],
      ((s.flitTargets 0 0).map (fun x => x.1.kind)).eraseDups = [0, 1] ∧
        ∀ x ∈ s.flitTargets 0 0, Landed s (s.flitTargets 0 0) x ∧ (∀ y ∈ s.flitTargets 0 0, y ≠ x → Apart x y) ∧
          (s.flitTargets 0 0).count x = 1 := by
  decide +kernel

theorem witness_seals_notices_and_reports :
    (let s := plainPhase .sealed
     let f : Nat → Nat → SealFlit := fun v k => ⟨BitVec.ofNat 64 v, BitVec.ofNat 64 k, 300, 0, 7, 0, none, none, 0, false⟩
     s.serviceLinks.contains 0 = true ∧ s.inPlain = true ∧ (s.link 0).seals = [] ∧ s.scheduled = true ∧
       s.sealOf (f 5 1).kerf.toNat = some 5 ∧ (f 5 1).sealVal.toNat = 5 ∧ (f 6 1).sealVal.toNat ≠ 5 ∧ (f 5 1).coeff ≠ 0 ∧
       (f 5 1).kerf.toNat / 32 = s.run.kerfs / 32 ∧ s.sealOf (f 5 2).kerf.toNat = none ∧ s.run.kerfs ≤ (f 5 2).kerf.toNat ∧
       (let w : Swap := ⟨⟨1, 0, 0⟩, 5, 1, false, true, none⟩
        let s := withRun s (fun r => { r with swap := some w })
        s.scheduled = true ∧ s.run.swap = some w ∧ s.voteKerf.any (fun k => decide (k ≤ (f 5 20).kerf.toNat)) = true ∧
          ({ f 5 20 with vote := some 1 } : SealFlit).vote.map BitVec.toNat ≠ s.swapVote)) ∧
    (let s := plainPhase .sealed
     let s : State := { s.setLink 0 { s.link 0 with seals := [1], rHere := 258 } with plain := { s.plain with parent := some 0 } }
     s.serviceLinks.contains 0 = true ∧ s.inPlain = true ∧ (s.link 0).seals ≠ [] ∧ s.plain.parent = some 0 ∧
       128 < ((s.link 0).rHere - 0) / 2 ∧ ((s.link 0).rHere - 516) / 2 < -128 ∧ s.scheduled = true) ∧
    (let s := withRun (plainPhase .cut) (fun r => { r with halt := some someHalt })
     s.scheduled = true ∧ s.run.halt = some someHalt ∧ someHalt.kerf ≤ s.kerfOf16 1 ∧ s.run.noticed.contains (2, s.kerfOf16 1) = false ∧
       (withRun s (fun r => { r with noticed := [(2, s.kerfOf16 1)] })).run.noticed.contains (2, s.kerfOf16 1) = true) ∧
    (∀ ph ∈ [RunPhase.cut, .drain],
     let s := plainPhase ph
     s.scheduled = true ∧ s.run.halt = none ∧ s.run.take = none ∧ s.run.reports.contains ⟨1, 3, 0, true⟩ = false ∧ s.rcv.records = [] ∧
       s.run.reports = [] ∧ (∀ k, k < 6 → (s.link k).diverged = false) ∧ s.run.haltSeq ≤ s.rcv.seq ∧ s.rcv.seq + 1 < 2 ^ 32) ∧
    (let k : Take := ⟨⟨1, 0, 0⟩, 1, 0, false, 5, 0, 0, 0, [], [], none, none, none, none, false⟩
     let s := withRun (plainPhase .cut) (fun r => { r with take := some k })
     s.scheduled = true ∧ s.run.take = some k ∧ k.trigger = 0 ∧ k.stopped = none ∧ k.stopKerf = none ∧
       s.run.noticed.contains (3, s.kerfOf16 7) = false ∧ (withRun s (fun r => { r with take := none })).run.take = none ∧
       (withRun s (fun r => { r with noticed := [(3, s.kerfOf16 7)] })).run.noticed.contains (3, s.kerfOf16 7) = true) := by
  decide +kernel

/-- A Plain of 2 x 1 x 2 that forms, links 0, 1, 4 and 5 ready and link 0 in service. -/
def forming : State :=
  let s := [0, 1, 4, 5].foldl (fun (s : State) j => s.setFld (F.dvtLinkStatusState j) 2) (onBench 0)
  let s := ((s.setFlag F.dvtPlainForming true).setFld F.dvtPlainPlainSize 4).setFld F.dvtPlainMemberIndex 0
  { s with plain := { s.plain with formation := 9, dimX := 2, dimY := 1, dimZ := 2, deadline := 2000, records := [[1]] } }

theorem witness_formation :
    (forming.flag F.dvtPlainForming = true ∧ forming.formingLinks.contains 0 = true ∧ forming.fld (F.dvtLinkStatusState 0) = 2 ∧
      forming.plain.formation = 9 ∧ neighbour 2 1 2 0 0 = 1 ∧ peerOf 0 = 1 ∧
      (forming.formingLinks.any (fun k => k != 0 && !(forming.link k).answered)) = true) ∧
    (let s := forming.formingLinks.foldl (fun (s : State) k => s.setLink k { s.link k with answered := k != 0 }) forming
     let s : State := { s with plain := { s.plain with records := [] } }
     s.flag F.dvtPlainForming = true ∧ s.formingLinks.contains 0 = true ∧ s.fld (F.dvtLinkStatusState 0) = 2 ∧ s.plain.records = [] ∧
       (s.formingLinks.any (fun k => k != 0 && !(s.link k).answered)) = false ∧ s.plain.early = [] ∧ 1 < s.fld F.dvtPlainPlainSize ∧
       s.run.phase ≠ .cut) ∧
    State.reset.flag F.dvtPlainForming = false ∧
    ((List.replicate 256 (7 : Byte)).length = 256 ∧ forming.plain.records ≠ [] ∧ forming.plain.records.contains (List.replicate 256 7) = false ∧
      forming.plain.records.length + 1 < forming.fld F.dvtPlainPlainSize) ∧
    (let s := plainPhase .round
     let r : StartRec := ⟨1, 0, 0, 0, 0, 0, 4000⟩
     s.run.phase = .round ∧ s.inPlain = true ∧ s.serviceLinks.contains 0 = true ∧ r.member.toNat ≠ s.fld F.dvtPlainMemberIndex ∧
       s.run.startRecs.contains r = false ∧
       (s.run.startRecs.filter (fun q => q.member != r.member)).length + 2 = s.fld F.dvtPlainPlainSize ∧
       startDiff s.startRecord (s.run.startRecs.filter (fun q => q.member != r.member) ++ [r]) = none) ∧
    (let s := plainPhase .idle
     s.run.phase = .idle ∧ s.inPlain = true ∧ s.serviceLinks.contains 0 = true ∧ s.fld F.dvtPlainMemberIndex ≠ 1 ∧ s.run.startRecs = []) := by
  decide +kernel

/-- Stack 11 present, with a pool granule whose rewrite runs, line 5 to write back and line 6 of near store 3 to rewrite. -/
def memBusy : State :=
  let s := State.reset.setFlag (F.memStatusPresent 11) true
  let s := s.setMemUnit (stackUnit 11) { MemUnit.init with writeback := [5], flips := [(5, [1, 2])], gran := [(7, ⟨some 0, true, 1, 0, true⟩)] }
  s.setMemUnit 3 { MemUnit.init with repoison := [6], ue := [48], writeback := [8], ce := [64] }

theorem witness_memory_events :
    (memBusy.flag (F.memStatusPresent 11) = true ∧ memBusy.flag (F.memStatusSelfRefresh 11) = false ∧ memBusy.refreshTick 11 = some 0 ∧
      memBusy.stackNamed 11 = false ∧ (State.reset.setFlag (F.memStatusPresent 0) true).holdsPool 0 = false ∧
      ({ State.reset with now := 1000000 } : State).stackNamed 0 = false ∧ (State.reset.memUnit (stackUnit 0)).accessAt + 1000000 ≤ 1000000) ∧
    ((memBusy.memUnit (stackUnit 11)).writeback.contains 5 = true ∧ (memBusy.memUnit 3).repoison.contains 6 = true ∧
      (memBusy.memUnit 3).repoison.contains 8 = false ∧ (memBusy.memUnit 3).writeback.contains 8 = true) ∧
    ((memBusy.granule (stackUnit 11) 7).pool = true ∧ (memBusy.granule (stackUnit 11) 7).rewriting = true ∧ memBusy.run.commits = []) := by
  decide +kernel

theorem witness_map_outs :
    (memBusy.rcv.faults = [] ∧ memBusy.rcv.levels = [] ∧ memBusy.rcv.done = []) ∧
    (let s := memBusy.setFlag (F.memStatusMapPending 11) true
     s.flag (F.memStatusMapPending 11) = true ∧ s.stackNamed 11 = false) ∧
    (let s := (onBench 159).setFlag (F.bncStatusMapPending 159) true
     s.flag (F.bncStatusMapPending 159) = true ∧ s.benchScheduled 159 = false) ∧
    (let s := State.reset.setFlag (F.dvtLinkStatusMapPending 5) true
     s.flag (F.dvtLinkStatusMapPending 5) = true ∧ s.flag F.dvtPlainFormed = false ∧ s.flag F.dvtPlainForming = false) ∧
    (let s := forming.setFlag (F.dvtLinkStatusMapPending 5) true
     s.flag (F.dvtLinkStatusMapPending 5) = true ∧ s.flag F.dvtPlainFormed = false ∧ s.plain.records ≠ []) := by
  decide +kernel

/-! ### Witnesses: Tenon cores and the coprocessor -/

/-- A core that runs at PC 0x100 with its stack at the top of the tightly coupled memory and the MPU off. -/
def runCore : Core := { Core.init with held := false, cfg := 1, pc := 0x100, p := [(7, 0x20000#32)], g := [(0, 0x80000000#32), (1, 0xFFFFFFFF#32)] }

/-- Core k is that core, changed. -/
def onCore (k : Nat) (f : Core → Core) : State := State.reset.setCore k (f runCore)

theorem reachable_of_off (x : Core) (h : x.mpuOn = false) (h2 : (x.setBit Sw.priv true).mpuOn = false) : Reachable x := by
  intro kind a _ _
  simp [Core.allowed, h, h2]

theorem witness_reachable : Reachable runCore ∧ Reachable (runCore.setBit Sw.priv false) :=
  ⟨reachable_of_off _ (by decide +kernel) (by decide +kernel), reachable_of_off _ (by decide +kernel) (by decide +kernel)⟩

/-- Every core that runs freely meets the conditions of the instructions that only need that; short and long forms. -/
theorem witness_free : ∀ k ∈ [(0 : CoreId), 20], Free (onCore k id) k 4 ∧ Free (onCore k id) k 8 ∧
    (Free (onCore k (fun x => x.setBit Sw.priv false)) k 4 ∧ ((onCore k (fun x => x.setBit Sw.priv false)).core k).bit Sw.priv = false) ∧
    ((onCore k id).core k).bit Sw.priv = true := by
  decide +kernel

/-- A frame fits for every vector of an exception or an interrupt. -/
theorem witness_entry : ∀ v ∈ [1, 2, 3, 5, 7, 8, 9, 10, 16, 47], EntryFits runCore v ∧ EntryFits (runCore.setBit Sw.priv false) v := by
  intro v hv
  have h : ∀ v ∈ [1, 2, 3, 5, 7, 8, 9, 10, 16, 47], ∀ x ∈ [runCore, runCore.setBit Sw.priv false],
      (x.pr 7).toNat % 4 = 0 ∧ 8 ≤ (x.pr 7).toNat ∧ (x.pr 7).toNat ≤ 0x20000 ∧ x.splim.toNat ≤ (x.pr 7).toNat - 8 ∧
        (x.vtb + BitVec.ofNat 32 (4 * v)).toNat % 4 = 0 ∧ (x.vtb + BitVec.ofNat 32 (4 * v)).toNat + 4 ≤ 0x20000 ∧
        ((x.vtb + BitVec.ofNat 32 (4 * v)).toNat + 4 ≤ (x.pr 7).toNat - 8 ∨ (x.pr 7).toNat ≤ (x.vtb + BitVec.ofNat 32 (4 * v)).toNat) ∧
        x.tcmUe.contains ((x.vtb + BitVec.ofNat 32 (4 * v)).toNat / 8) = false := by
    decide +kernel
  exact ⟨⟨witness_reachable.1, h v hv _ (by simp)⟩, ⟨witness_reachable.2, h v hv _ (by simp)⟩⟩

/-- Operands of a memory access in each addressing mode, at both ends of the tightly coupled memory, in the window and beyond. -/
theorem witness_loads_and_stores :
    (∀ a ∈ [0x0, 0x1FFF0, 0x40000000, 0x7FFFFFF0], ∀ n ∈ [1, 2, 4, 16],
      runCore.address ⟨0, 7, 0, 0, .long (BitVec.ofNat 32 a)⟩ n = some (BitVec.ofNat 32 a, 0) ∧ runCore.access false false a n = none ∧
        runCore.access true false a n = none) ∧
    (∀ m ∈ List.range 7, (runCore.address ⟨7, BitVec.ofNat 3 m, 0, 0, .short 4⟩ 4).isSome = true) ∧
    runCore.access false false 2 4 = some ⟨3, some 2, 0⟩ ∧ runCore.access true false 0x20000 4 = some ⟨7, some 0x20000, 0⟩ := by
  decide +kernel

theorem witness_control_flow :
    (∀ c ∈ List.range 15, (runCore.cond c).isSome = true) ∧
    ((runCore.pr 7).toNat % 4 = 0 ∧ 4 ≤ (runCore.pr 7).toNat ∧ (runCore.pr 7).toNat ≤ 0x20000 ∧
      runCore.splim.toNat ≤ (runCore.pr 7).toNat - 4) ∧
    (let x := runCore.setP 7 0x1FFFC
     (x.pr 7).toNat % 4 = 0 ∧ (x.pr 7).toNat < 0x20000 ∧ x.tcmUe.contains ((x.pr 7).toNat / 8) = false ∧
       Free (onCore 20 (fun x => x.setP 7 0x1FFFC)) 20 4) := by
  decide +kernel

theorem witness_reachable_below : Reachable (runCore.setP 7 0x1FFFC) ∧ Reachable (runCore.setP 7 0x1FFF8) :=
  ⟨reachable_of_off _ (by decide +kernel) (by decide +kernel), reachable_of_off _ (by decide +kernel) (by decide +kernel)⟩

theorem witness_system_registers :
    (∀ n ∈ [0x00, 0x0C, 0x10, 0x20, 0x3F, 0x40, 0x42], (runCore.sysReg 0 n).isSome = true) ∧
    openSysReg 0xA = true ∧ openSysReg 2 = false ∧ runCore.sysReg 0 0x41 = some 0 ∧ runCore.sysReg 0 0x43 = none ∧ runCore.sysReg 0 0x3FF = none ∧
    (runCore.setG 0 0xA5C3).gr 0 = 0xA5C3 ∧ runCore.gr 0 ≠ 0xA5C3 ∧ ((runCore.setP 7 0x1FFFE).pr 7).toNat % 4 ≠ 0 ∧
    (let x := runCore.setP 7 0x1FFF8
     (x.pr 7).toNat % 4 = 0 ∧ (x.pr 7).toNat + 8 ≤ 0x20000 ∧ x.tcmUe.contains ((x.pr 7).toNat / 8) = false ∧
       x.tcmUe.contains (((x.pr 7).toNat + 4) / 8) = false) := by
  decide +kernel

/-- A core in a repeat with n iterations left. -/
def repeating (n : Nat) (x : Core) : Core := { x.setBit Sw.rp true with lc := BitVec.ofNat 32 n }

theorem witness_fences_waits_and_repeats :
    (runCore.gr 0).toNat % 65536 = 0 ∧ (runCore.gr 1).toNat % 65536 ≠ 0 ∧
    (∀ n ∈ [1, 2, 0xFFFF],
      let s := onCore 20 (repeating n)
      let x := s.core 20
      x.alive = true ∧ x.waiting = false ∧ x.skip = false ∧ x.bit Sw.rp = true ∧ x.bit Sw.rn = false ∧ x.lc = BitVec.ofNat 32 n ∧
        x.wdtPend = false ∧ x.ipend = 0 ∧ x.fetchFault 4 = none ∧ s.traced 20 = false) := by
  decide +kernel

/-- A core whose line 6 is enabled at priority 15 and whose watchdog counts. -/
def readyCore : Core := { runCore.setBit Sw.ie true with ien := 0x40, ipri := [(0, 0x0F000000)], wdtLoad := 5, wdtLeft := 5000 }

theorem witness_core_events :
    (runCore.boundary = true ∧ runCore.bit Sw.ie = false) ∧
    (readyCore.boundary = true ∧ readyCore.ipend = 0 ∧ readyCore.bit Sw.ie = true ∧ readyCore.ien.getLsbD 6 = true ∧
      readyCore.plev < readyCore.prio 6 ∧ 6 ∈ coreLines 20 ∧ 0 ∈ coreLines 20 ∧ 7 ∉ coreLines 20 ∧ 3 ∉ coreLines 4 ∧ 31 ∉ coreLines 0 ∧ (readyCore.ien &&& (readyCore.ipend ||| (1#32 <<< 0))) = 0) ∧
    (let x := (readyCore.setBit Sw.rp true).setBit Sw.rn true
     x.wdtCounts = true ∧ x.bit Sw.rp = true ∧ x.bit Sw.rn = true) ∧
    (let x : Core := { readyCore with skip := true }
     x.wdtCounts = true ∧ x.skip = true) ∧
    (let x : Core := { readyCore with fresh := some 0 }
     x.wdtCounts = true ∧ x.fresh.isSome = true) ∧
    (readyCore.wdtCounts = true ∧ readyCore.skip = false ∧ readyCore.fresh = none ∧ readyCore.bit Sw.rp = false ∧ readyCore.wdtFirst = false ∧ readyCore.alive = true) ∧
    (spaceOf 0x40000000 = .window ∧ spaceOf 0x7FFFFFFF = .window) := by
  decide +kernel

theorem witness_ready_entry : ∀ v ∈ [10, 22], EntryFits readyCore v := by
  intro v hv
  have h : ∀ v ∈ [10, 22], ∀ x ∈ [readyCore],
      (x.pr 7).toNat % 4 = 0 ∧ 8 ≤ (x.pr 7).toNat ∧ (x.pr 7).toNat ≤ 0x20000 ∧ x.splim.toNat ≤ (x.pr 7).toNat - 8 ∧
        (x.vtb + BitVec.ofNat 32 (4 * v)).toNat % 4 = 0 ∧ (x.vtb + BitVec.ofNat 32 (4 * v)).toNat + 4 ≤ 0x20000 ∧
        ((x.vtb + BitVec.ofNat 32 (4 * v)).toNat + 4 ≤ (x.pr 7).toNat - 8 ∨ (x.pr 7).toNat ≤ (x.vtb + BitVec.ofNat 32 (4 * v)).toNat) ∧
        x.tcmUe.contains ((x.vtb + BitVec.ofNat 32 (4 * v)).toNat / 8) = false := by
    decide +kernel
  exact ⟨reachable_of_off _ (by decide +kernel) (by decide +kernel), h v hv _ (by simp)⟩

/-- Control core 20 with its cluster 15, bench 159 open, and the operand registers of an operation. -/
def cpxState (queue : List CpxOp) : State :=
  let s := ((onCore 20 (fun x => { x with g := [(10, 0xFFE0#32), (11, 0x100000#32), (12, 32#32)] })).setFlag (F.bncStatusPresent 159) true).setFlag
    (F.bncStatusOpen 159) true
  s.setCluster 15 { Cluster.init with queue := queue, nextTag := 63 }

/-- An operation of a kind for a unit. -/
def someOp (kind unit : Nat) : CpxOp := ⟨kind, unit, 7, 6, 32, false, 0, [0xFFE0#32, 0, 0]⟩

theorem witness_cpx_joins :
    (let s := cpxState (List.replicate 15 (someOp 0x06 8))
     Free s 20 4 ∧ (s.cluster 15).queue.length < 16 ∧ s.flag (F.bncStatusPresent 159) = true ∧ s.flag (F.bncStatusOpen 159) = true ∧
       ((s.core 20).gr 10).toNat % 65536 + 32 ≤ 65536 ∧ ((s.core 20).gr 11).toNat ≤ 2 ^ 20 ∧
       0 + ceilDiv (4 * ((s.core 20).gr 11).toNat) 64 ≤ 65536 ∧ (s.cluster 15).writesEntry 9 7 = false ∧
       Tab.get 0 (s.bench 159).entryFault 7 = 0 ∧ (s.cluster 15).queue.any (fun o => o.unit == 9) = false ∧
       (s.cluster 15).queue.any (fun o => o.unit == 8) = true ∧ (cmovcPlace (BitVec.ofNat 32 (9 * 65536 + 0xFFE0))).1 < 10 ∧
       (cmovcPlace (BitVec.ofNat 32 (9 * 65536 + 0xFFE0))).2 + ((s.core 20).gr 12).toNat ≤ 65536 ∧
       (s.cluster 15).queue.any CpxOp.holds = false ∧ (∀ n, n < 4 → s.exchangeOf 15 n = none)) ∧
    (let e : Exchange := ⟨2, 32, 1, false, 0, 1, 0, 0, 65535, 65534, 0, []⟩
     let s : State := { cpxState [] with parts := [(0, { partState .loaded with clusters := 0x8000, list := some { runList with exchange := [e] } })] }
     s.exchangeOf 15 0 = some e ∧ e.choiceLine + ceilDiv e.choiceBytes 64 = 65536 ∧ e.routeLine + ceilDiv e.resultBytes 64 = 65536 ∧
       s.exchangeOf 15 1 = none) ∧
    (let e : Exchange := ⟨2, 32, 1, false, 0, 1, 0, 0, 65535, 65534, 9, []⟩
     let s : State := { cpxState [] with parts := [(0, { partState .loaded with clusters := 0x8000, list := some { runList with exchange := [e] } })] }
     (s.exchangeOf 15 0).map (fun e => s.flag (F.bncStatusPresent (150 + e.routeBench % 10))) = some true ∧
       ((s.setFlag (F.bncStatusPresent 159) false).exchangeOf 15 0).map (fun e => (s.setFlag (F.bncStatusPresent 159) false).flag (F.bncStatusPresent
         (150 + e.routeBench % 10))) = some false ∧ 10 + 3 ≤ 16 ∧ 16 < 15 + 2 ∧ 16 < 13 + 4 ∧ 16 < 11 + 6) ∧
    (let s := cpxState []
     s.flag (F.bncStatusPresent 158) = true ∧ (s.setFlag (F.bncStatusPresent 158) false).flag (F.bncStatusPresent 158) = false ∧
       (cmovcPlace (BitVec.ofNat 32 (8 * 65536 + 0xFFE1))).1 = 8 ∧ 65536 < (cmovcPlace (BitVec.ofNat 32 (8 * 65536 + 0xFFE1))).2 + 32 ∧
       (cmovcPlace (BitVec.ofNat 32 (10 * 65536))).1 = 10) ∧
    (let s := cpxState [someOp 0x00 8, someOp 0x00 9]
     s.flag (F.bncStatusOpen 159) = true ∧ (s.cluster 15).queue.any CpxOp.holds = false ∧ (s.cluster 15).queue.any (fun o => o.unit == 9) = true) ∧
    (let s := cpxState [someOp 0x00 9, someOp 0x07 9]
     (s.cluster 15).queue.any CpxOp.holds = true ∧ (s.cluster 15).queue.any (fun o => o.unit == 9 && !o.holds) = true) ∧
    (let s := cpxState [someOp 0x00 8, someOp 0x07 9]
     (s.cluster 15).queue.any CpxOp.holds = true ∧ (s.cluster 15).busy 9 = false ∧ s.flag (F.bncStatusOpen 159) = true) ∧
    (∀ n ∈ [0, 9, 0x0A, 0x11], goodCvec n = true) ∧ goodCvec 0x12 = false := by
  decide +kernel

theorem witness_cpx_completes :
    (let s := cpxState [someOp 0x00 9, someOp 0x13 15]
     (s.cluster 15).queue = someOp 0x00 9 :: [someOp 0x13 15] ∧ (someOp 0x00 9).unit = 9 ∧ (someOp 0x00 9).holds = false ∧ s.flag (F.bncStatusOpen 159) = true ∧
       Clean s 159 (64 * argLine (someOp 0x00 9).args 0) (64 * 32) ∧ s.flag (F.bncStatusOpen 150) = false ∧
       Free (onCore 4 id) 4 4) ∧
    (∀ tenant ∈ [true, false],
      let s := cpxState [someOp 0x14 9]
      let s := s.setCore 20 { s.core 20 with tenant := tenant }
      (s.core 20).tenant = tenant ∧ (s.bench 159).abandoned = false) ∧
    ((someOp 0x01 9).sub = 32 ∧ laneCvec { someOp 0x01 9 with sub := 3 }.sub = true) ∧
    (let s := (cpxState []).setFlag (F.bncStatusPresent 159) false
     Free s 20 4 ∧ s.flag (F.bncStatusPresent 159) = false ∧ (s.cluster 15).queue.length < 16) := by
  decide +kernel

theorem witness_division :
    (runCore.gr 0 = 0x80000000 ∧ runCore.gr 1 = 0xFFFFFFFF ∧ runCore.gr 2 = 0) := by
  decide +kernel

/-! ### Witnesses: operations of rings -/

/-- A descriptor from its fields: byte, width in bytes, value. -/
def desc (l : List (Nat × Nat × Nat)) : Desc := ⟨0, Memory.read (l.foldl (fun m f => Memory.writeLE m f.1 f.2.1 f.2.2) []) 0 64, 0⟩

/-- Virtual functions are enabled, a tenant is bound, instance i is ACTIVE and ring r of function i has a kind and one fetched
descriptor. -/
def ringOn (s : State) (i r kind : Nat) (d : Desc) : State :=
  let s := { s with host := { s.host with vfEnable := true, published := true } }
  let s := (((s.setFld F.secStatusState 3).setFld (F.insStatusState i) 1).setFld (F.rngStatusState i r) 1).setFld (F.rngCfgKind i r) kind
  s.setRing i r { s.ring i r with fetched := [d] }

/-- A container of two cuts, no bench program and no region. -/
def container : List Byte :=
  leBytes 48 (0x4C545543 + 2 ^ 32 + 256 * 2 ^ 48 + 2 ^ 64 + 0xE9 * 2 ^ 80 + 0xB1 * 2 ^ 96 + 2 ^ 104 + 2 ^ 120 + 336 * 2 ^ 128
    + 2 * 2 ^ 192 + 2 ^ 208 + 2 * 2 ^ 256 + 2 ^ 320 + 20 * 2 ^ 360 + 0x300 * 2 ^ 368)
  ++ leBytes 48 0x7086ccd4dd7875f7ffa837ab04b79fd545c0fb57cc498002acebb6b876a2828f82f7f549936a12ee191b523ae7d1f787
  ++ List.replicate 96 0
  ++ leBytes 48 0xfbf3244ee086021f2f6a917bf976d34fd9182dd5e230871e913dfd1e6ffa91dfd6b56deaae1f9c2d9c7da1094f3c2f63
  ++ List.replicate 16 0
  ++ leBytes 32 (1 + 320 * 2 ^ 64 + 16 * 2 ^ 128) ++ leBytes 32 (4 + 320 * 2 ^ 64)
  ++ leBytes 16 (2 + 399 * 2 ^ 32 + 128 * 2 ^ 48 + 0xFFFF * 2 ^ 64 + 0xF * 2 ^ 88 + 0xFFFFFFFF * 2 ^ 96)

/-- Firmware 3.02 runs from bank A, partition 0 of instance 1 has cluster 0, and host memory holds the container at 0x1000
with its member table at 0x100. -/
def loadState (p : Part) (op : Desc) : State :=
  let s := { State.reset with
    fw := { Fw.init with source := [(0, 1)], flash := Memory.write [] 8 [3, 2] }
    host := { HostSide.init with mem := Memory.writeLE (Memory.writeLE (Memory.write [] 0x1000 container) 0x100 8 0x1000) 0x108 8 336 }
    parts := [(0, p)] }
  ringOn s 1 2 1 op

/-- LOAD of one member. -/
def loadDesc : Desc := desc [(0, 1, 0x01), (4, 1, 1), (8, 8, 0x100)]

set_option maxRecDepth 100000 in
theorem witness_load :
    (let s := loadState { Part.init with owner := some 1, clusters := 1, roles := 1 } loadDesc
     let s1 := s.launch 1 2 loadDesc
     let cs := s1.readMembers (loadDesc.le 8 8) 1
     s.bound = true ∧ Starts s 1 2 1 0x01 loadDesc ∧ s.loadTurn 1 2 loadDesc.stamp = true ∧ loadDesc.good 7 allBits 0 0 .none = true ∧ loadDesc.w0 32 3 = 1 ∧
       s.anyFenced (partMask cs) = false ∧ s1.fit 1 false (cs.map Prod.fst) (cs.map Prod.snd) s1.acceptsLoad = none) := by
  decide +kernel

/-- A container that does not fit: its member table names another length. -/
theorem witness_load_misfit :
    (let s := loadState { Part.init with owner := some 1, clusters := 1, roles := 1 } loadDesc
     let s := s.setHostMem (Memory.writeLE s.host.mem 0x108 8 320)
     let s1 := s.launch 1 2 loadDesc
     let cs := s1.readMembers (loadDesc.le 8 8) 1
     Starts s 1 2 1 0x01 loadDesc ∧ s.loadTurn 1 2 loadDesc.stamp = true ∧ s.anyFenced (partMask cs) = false ∧
       (s1.fit 1 false (cs.map Prod.fst) (cs.map Prod.snd) s1.acceptsLoad).isSome = true) := by
  decide +kernel

/-- START, STOP and UNLOAD of partition 0. -/
def setDesc (op : Nat) : Desc := desc [(0, 1, op), (4, 1, 1), (8, 8, if op = 2 then 77 else 0), (16, 4, if op = 2 then 10 else 0)]

/-- Partition 0 of instance 1 rests in a state. -/
def restState (p : Part) (op : Nat) : State := ringOn { State.reset with parts := [(0, p)] } 1 2 1 (setDesc op)

theorem witness_start_stop_and_unload :
    (∀ st ∈ [PState.loaded, .stopped],
      let s := restState (partState st) 2
      let d := setDesc 2
      s.bound = true ∧ Starts s 1 2 1 0x02 d ∧ d.good 15 allBits 0xFFFFFFFF 0 .none = true ∧ OwnSet s 1 (d.w0 32 4) ∧ s.startPending = false ∧ s.restoring (d.w0 32 4) = false ∧
        d.le 16 4 ≠ 0 ∧ (maskList 4 (d.w0 32 4)).any (fun p => (s.part p).halted) = false ∧ s.run.take = none ∧ s.run.startRecs = [] ∧
        s.inPlain = false) ∧
    (let s := ringOn (inPhase .cut) 1 2 1 (setDesc 4)
     let d := setDesc 4
     Starts s 1 2 1 0x04 d ∧ d.good 15 0 0 0 .none = true ∧ OwnSet s 1 (d.w0 32 4) ∧ s.startedSet (d.w0 32 4) = true ∧ s.run.phase = .cut ∧
       s.run.swap = none) ∧
    (let s := restState { partState .stopped with halted := true } 4
     let d := setDesc 4
     Starts s 1 2 1 0x04 d ∧ OwnSet s 1 (d.w0 32 4) ∧ s.startedSet (d.w0 32 4) = false ∧
       (maskList 4 (d.w0 32 4)).any (fun p => (s.part p).halted) = true) ∧
    (let s := restState (partState .loaded) 5
     let d := setDesc 5
     Starts s 1 2 1 0x05 d ∧ d.good 15 0 0 0 .none = true ∧ OwnSet s 1 (d.w0 32 4) ∧ s.startedSet (d.w0 32 4) = false ∧
       s.restoring (d.w0 32 4) = false) := by
  decide +kernel

/-- STAGE of the container for pass 5, cut 1. -/
def stageDesc : Desc := desc [(0, 1, 0x03), (4, 1, 1), (8, 8, 0x100), (16, 4, 5), (20, 4, 1)]

theorem witness_stage :
    (let s := withRun (loadState { partState .running with list := some { runList with plainSize := 1, diameter := 0 } } stageDesc)
       (fun r => { r with parts := 1, phase := .cut, passes := 10 })
     let s1 := s.launch 1 2 stageDesc
     let cs := s1.readMembers (stageDesc.le 8 8) 1
     let s2 := s1.setNeeds ⟨1, 2, 0⟩ (partMask cs)
     Starts s 1 2 1 0x03 stageDesc ∧ s.loadTurn 1 2 stageDesc.stamp = true ∧ stageDesc.good 7 allBits allBits 0 .none = true ∧ s.run.swap = none ∧ s.scheduled = true ∧
       s.goodSwapPoint 5 1 = true ∧ s.anyFenced (partMask cs) = false ∧
       s2.fit 1 true (cs.map Prod.fst) (cs.map Prod.snd) s2.acceptsStage = none ∧ cs.all (fun c => decide (1 < c.1.cutCount)) = true) ∧
    (let s := loadState Part.init stageDesc
     let cs := (s.launch 1 2 stageDesc).readMembers (stageDesc.le 8 8) 1
     Starts s 1 2 1 0x03 stageDesc ∧ s.loadTurn 1 2 stageDesc.stamp = true ∧ s.scheduled = false ∧ (cs.map (fun c => c.1.part)).find? (fun p => (s.part p).owner != some 1) = some 0) := by
  decide +kernel

/-- MUSTER of a Plain of two members, at the longest deadline. -/
def musterDesc : Desc := desc [(0, 1, 0x06), (8, 8, 9), (16, 2, 2), (18, 2, 1), (20, 1, 2), (21, 1, 1), (22, 1, 1), (24, 4, 60000)]

/-- An HBM page pool of 16 slots on stack 0 in a cache partition. -/
def poolList : Cutlist := { runList with roles := 4, stackMask := 1, regions := [⟨0xF000, true, 0, 2, 0x100000, 0x100000⟩] }

/-- PAGE_COMMIT of the last two slots. -/
def pageDesc : Desc := desc [(0, 1, 0x08), (4, 1, 0x20), (8, 2, 0xF000), (16, 4, 14), (20, 4, 2)]

/-- The slots of that pool are FREE. -/
def poolState (p : PState) : State :=
  let s := { State.reset with parts := [(0, { partState p with list := some poolList, roles := 4 })] }
  let s := s.setMemUnit 4 { MemUnit.init with gran := (List.range 16).map (fun k => (16 + k, ⟨some 0, true, 1, 0, false⟩)) }
  ringOn s 1 2 1 pageDesc

theorem witness_formation_and_pages :
    (let s := ringOn { State.reset with parts := [(0, { Part.init with owner := some 1 })] } 1 2 1 musterDesc
     let d := musterDesc
     Starts s 1 2 1 0x06 d ∧ d.good 0 allBits 0xFFFFFFFFFFFFFF 0xFFFFFFFF .none = true ∧ s.ownsAny 1 = true ∧ s.plainIdle = true ∧
       s.flag F.dvtPlainFormed = false ∧ d.le 16 2 = 2 ∧ d.le 18 2 < d.le 16 2 ∧ d.le 20 1 * d.le 21 1 * d.le 22 1 = d.le 16 2 ∧
       d.le 20 1 ≤ 16 ∧ 1 ≤ d.le 24 4 ∧ d.le 24 4 ≤ 60000 ∧
       (usedLinks (d.le 20 1) (d.le 21 1) (d.le 22 1)).any (fun j => s.fld (F.dvtLinkStatusState j) != 5) = true) ∧
    (let d := desc [(0, 1, 0x07)]
     let s := ringOn { State.reset with parts := [(0, { Part.init with owner := some 1 })] } 1 2 1 d
     Starts s 1 2 1 0x07 d ∧ d.good 0 0 0 0 .none = true ∧ s.ownsAny 1 = true ∧ s.plainIdle = true) ∧
    (∀ st ∈ [PState.loaded, .running],
      let s := poolState st
      let d := pageDesc
      Starts s 1 2 1 0x08 d ∧ d.good 0x33 0xFFFF allBits 0 .none = true ∧ d.w0 32 2 = 0 ∧ (s.part 0).owner = some 1 ∧ (s.part 0).fenced = false ∧
        (s.part 0).list = some poolList ∧ bitOf poolList.roles 2 = true ∧ s.poolRegion 0 (d.le 8 2) = some ⟨0xF000, true, 0, 2, 0x100000, 0x100000⟩ ∧
        d.w0 36 2 = 2 ∧ d.le 20 4 ≠ 0 ∧ d.le 16 4 + d.le 20 4 ≤ 0x100000 / 65536 ∧
        (∀ k, k < d.le 20 4 → (s.granule 4 (0x100000 / 65536 + d.le 16 4 + k)).pool = true ∧
          (s.granule 4 (0x100000 / 65536 + d.le 16 4 + k)).pstate = 1)) ∧
    (withRun (poolState .running) (fun r => { r with parts := 1, phase := .cut })).scheduled = true ∧
    (poolState .loaded).scheduled = false := by
  decide +kernel

theorem witness_without_tenant :
    (∀ op ∈ [1, 2, 3, 4, 5, 6, 7, 8], ∀ st ∈ [0, 4],
      let d := desc [(0, 1, op)]
      let s := (ringOn State.reset 1 2 1 d).setFld F.secStatusState st
      Starts s 1 2 1 op d ∧ (op = 1 ∨ op = 3 → s.loadTurn 1 2 d.stamp = true) ∧ s.bound = false ∧ s.secState = st) ∧
    (∀ op ∈ [1, 2, 3, 4, 6, 7, 8],
      let d := desc [(0, 1, op)]
      let s := ringOn State.reset 0 255 1 d
      Starts s 0 255 1 op d ∧ (op = 1 ∨ op = 3 → s.loadTurn 0 255 d.stamp = true) ∧ s.bound = true) := by
  decide +kernel

/-! ### Witnesses: manager operations, checkpoints, ring events and register writes -/

/-- A binding whose policy allows migration. -/
def binding : BindRec := ⟨Memory.read [(6, 1)] 0 416, List.replicate 32 0, 1⟩

/-- The manager's ring 0 with an operation; instance 63 is ACTIVE and owns what p says of partition 3. -/
def manage (p : Part) (d : Desc) : State :=
  let s := ringOn { State.reset with parts := [(3, p)], sec := { Sec.init with record := some binding } } 63 9 1 d
  let s := (s.setFld (F.rngStatusState 0 0) 1).setFld (F.rngCfgKind 0 0) 1
  s.setRing 0 0 { s.ring 0 0 with fetched := [d] }

/-- The operations of R351 on instance 63, partition 3 or units of kind 1. -/
def assignDesc : Desc := desc [(0, 1, 0x20), (4, 1, 63), (5, 1, 3), (8, 2, 0x8000)]
def releaseDesc : Desc := desc [(0, 1, 0x21), (5, 1, 3)]
def grantDesc (op kind : Nat) : Desc := desc [(0, 1, op), (4, 1, 63), (5, 1, kind), (8, 4, 0), (12, 4, 2), (16, 4, 5)]

theorem witness_partitions_and_grants :
    (let s := manage Part.init assignDesc
     let d := assignDesc
     s.bound = true ∧ Starts s 0 0 1 0x20 d ∧ d.good 0x1F3F 0xFFFF 0 0 .none = true ∧ d.w0 32 6 = 63 ∧ d.w0 40 2 = 3 ∧ s.insState 63 ≠ 0 ∧
       (s.part 3).owner = none ∧ maskList 16 (d.le 8 2) ≠ [] ∧ (∀ k ∈ maskList 16 (d.le 8 2), s.benchMask k ≠ 0 ∧ s.clusterPart k = none)) ∧
    (let d := assignDesc
     let s := manage Part.init d
     let s : State := { s with parts := (2, { partState .empty with clusters := 0x8000 }) :: s.parts }
     (s.part 3).owner = none ∧ (maskList 16 (d.le 8 2)).find? (fun k => s.benchMask k == 0 || (s.clusterPart k).isSome) = some 15) ∧
    (manage (partState .loaded) assignDesc).part 3 = partState .loaded ∧ (partState .loaded).owner.isSome = true ∧
    (let d := releaseDesc
     Starts (manage Part.init d) 0 0 1 0x21 d ∧ d.good 0x300 0 0 0 .none = true ∧ ((manage Part.init d).part 3).state = .empty ∧
       ((manage (partState .loaded) d).part 3).state ≠ .empty) ∧
    (∀ kind ∈ [0, 2],
     let d := grantDesc 0x22 kind
     let s := manage Part.init d
     Starts s 0 0 1 0x22 d ∧ d.good 0xF3F allBits 0xFFFFFFFF 0 .none = true ∧ goodUnits d = true ∧
       (∀ g ∈ d.grants, g.kind = kind ∧ s.holderOf g.kind g.unit = none ∧ s.unitOf 63 g.kind g.localIdx = none)) ∧
    (let d := grantDesc 0x23 0
     let s := manage Part.init d
     let s := s.setFn 63 { s.fn 63 with grants := d.grants }
     Starts s 0 0 1 0x23 d ∧ goodUnits d = true ∧ ∀ g ∈ d.grants, g ∈ (s.fn 63).grants) := by
  decide +kernel

/-- FREEZE, THAW, SAVE and RESTORE of instance 63; an image lies at 0x1000. -/
def freezeDesc (op len : Nat) : Desc := desc [(0, 1, op), (4, 1, 63), (8, 8, if len = 0 then 0 else 0x1000), (16, 8, len)]

/-- The same with partition 0 of instance 63 in a state, in a run's cut. -/
def frozen (st : PState) (v : Nat) (d : Desc) : State :=
  let s := (manage Part.init d).setFld (F.insStatusState 63) v
  { s with parts := [(0, { partState st with owner := some 63 })] }

theorem witness_freeze_and_thaw :
    (let d := freezeDesc 0x24 0
     let s := frozen .loaded 1 d
     s.bound = true ∧ s.sec.record = some binding ∧ Starts s 0 0 1 0x24 d ∧ d.good 0x3F 0 0 0 .none = true ∧ s.insState 63 = 1 ∧
       s.inPlain = false ∧ (s.ownedParts 63).any s.setParts.contains = false ∧ s.drained 63 = true ∧
       (∀ p ∈ s.ownedParts 63, (s.part p).runs = false)) ∧
    (let d := freezeDesc 0x24 0
     let s := withRun (frozen .running 1 d) (fun r => { r with parts := 1, phase := .cut, passes := 1 })
     Starts s 0 0 1 0x24 d ∧ s.insState 63 = 1 ∧ s.inPlain = false ∧ (s.ownedParts 63).any s.setParts.contains = true ∧ s.run.phase = .cut ∧
       s.run.swap = none ∧ (s.ownedParts 63).any (fun p => (s.part p).runs) = true) ∧
    (∀ j : Nat, j < 64 → ((frozen .loaded 1 (freezeDesc 0x24 0)).fn j).freeze = none) ∧
    (let d := freezeDesc 0x27 0
     Starts (frozen .loaded 3 d) 0 0 1 0x27 d ∧ (frozen .loaded 3 d).insState 63 = 3) ∧
    (let d := freezeDesc 0x25 81
     Starts (frozen .loaded 3 d) 0 0 1 0x25 d ∧ d.good 0x3F allBits allBits 0 .none = true ∧ (frozen .loaded 3 d).insState 63 = 3 ∧
       binding.migrates = true ∧ (frozen .loaded 3 d).engineUp = true ∧ ((frozen .loaded 3 d).setFld F.cphStatusPairs 0).engineUp = false) := by
  decide +kernel

theorem witness_healthy : Healthy (frozen .loaded 3 (freezeDesc 0x25 81)) := ⟨fun _ => ⟨rfl, rfl, rfl⟩, fun _ => ⟨rfl, rfl⟩⟩

/-- An image that seals one byte, as SAVE lays it out. -/
def image (s : State) : List Byte :=
  let x := Crypto.gcmSeal (s.workingKey binding (imageLabel binding 4 5)) (imageIv 0) (s.imageHeader 63 4 5 81 1) [9]
  s.imageHeader 63 4 5 81 1 ++ x.1 ++ x.2

/-- What that byte stands for, and a region of a stack that is absent. -/
def nothingSaved : Saved :=
  { benches := [], clusters := [], tenants := [], slots := [], pass := 0, cut := 0, epoch := 0, kerfs := 0, stretch := 0, runId := 0,
    passes := 0, rings := [], regs := [], held := [], grants := [], lists := [], memory := [], runs := [], digest := binding.digest }

/-- Items with a region on stack 0. -/
def regionSaved : Saved := { nothingSaved with lists := [(0, 1, some runList, [⟨0xF000, true, 0, 2, 0x100000, 0x100000⟩])] }

/-- Instance 63 has rings no more, and the image lies in host memory. -/
def restoring (bs : List Byte) : State :=
  let s := (manage Part.init (freezeDesc 0x26 81)).setFld (F.rngStatusState 63 9) 0
  { s with host := { s.host with mem := Memory.write [] 0x1000 bs }, saved := [([9], nothingSaved)] }

theorem witness_restore_header :
    (let d := freezeDesc 0x26 81
     let s := restoring ((manage Part.init d).imageHeader 63 4 5 81 1 ++ List.replicate 17 0)
     let h := Memory.read s.host.mem (d.le 8 8) 64
     Starts s 0 0 1 0x26 d ∧ d.good 0x3F allBits allBits 0 .none = true ∧ s.insState 63 ≠ 0 ∧ binding.migrates = true ∧
       (List.range 256).any (s.ringEnabled 63) = false ∧ 64 ≤ d.le 16 8 ∧ goodImage h (d.le 16 8) = true ∧ s.imageFits 63 h = true ∧
       s.engineUp = true ∧ s.itemsOf (listMask (s.ownedParts 63)) [9] = nothingSaved ∧ nothingSaved.digest = s.bindingDigest ∧ s.regionsFree 63 nothingSaved = true ∧
       s.ringsFit 63 nothingSaved = true ∧
       (let s : State := { s.setFlag (F.memStatusPresent 0) false with saved := [([9], regionSaved)] }
        s.itemsOf (listMask (s.ownedParts 63)) [9] = regionSaved ∧ s.regionsFree 63 regionSaved = false) ∧
       (let x : Saved := { nothingSaved with digest := [] }
        let s : State := { s with saved := [([9], x)] }
        s.itemsOf (listMask (s.ownedParts 63)) [9] = x ∧ x.digest ≠ s.bindingDigest)) := by
  decide +kernel

/-- The working key of the image's label. -/
theorem image_key : (restoring []).workingKey binding (imageLabel binding 4 5)
    = beBytes 32 1437512824161957852083689217990145805526589810310971636247353342597468742379 := by
  decide +kernel

/-- The image with its one sealed byte opens, and with another tag it does not. -/
theorem witness_restore_opens :
    (let d := freezeDesc 0x26 81
     let h := (manage Part.init d).imageHeader 63 4 5 81 1
     let key := beBytes 32 1437512824161957852083689217990145805526589810310971636247353342597468742379
     openChunks key imageIv h 1 0 1 (beBytes 17 82004906299528107850546676066991922281493) = some [9] ∧
       openChunks key imageIv h 1 0 1 (beBytes 17 82004906299528107850546676066991922281492) = none) := by
  decide +kernel

/-- TAKE or RESTORE of partition 0 with queue pair 2047 as local 0, under a label of purpose 0x0A. -/
def checkpointDesc (sub : Nat) : Desc :=
  desc [(0, 2, 0x109), (4, 1, 0x10 + sub), (7, 1, 1), (8, 8, 5), (16, 8, 0x10000), (32, 16, beNat (beBytes 16 56993351374407201826655471752970681588).reverse),
    (48, 2, 0xFFFF), (50, 1, 0x0A), (51, 1, 1)]

/-- A run, or a LOADED partition, with a binding and a queue pair in RTS. -/
def checkpointState (s : State) (sub : Nat) : State :=
  let s := ringOn { s with sec := { Sec.init with record := some binding } } 1 2 1 (checkpointDesc sub)
  (s.setFn 1 { s.fn 1 with grants := [⟨2, 2047, 0⟩] }).setFld (F.rmaQpStatusState 2047) 3

theorem witness_checkpoint_take :
    (let d := checkpointDesc 1
     let s := checkpointState (inPhase .cut) 1
     Starts s 1 2 1 9 d ∧ d.w0 32 3 = 1 ∧ s.bound = true ∧ goodCheckpoint d = true ∧ s.checkLabel 1 [0x0A] d.label = .good ∧
       OwnSet s 1 (d.w0 36 4) ∧ s.takeQps 1 d = some [2047] ∧ s.scheduled = true ∧ s.run.parts = d.w0 36 4 ∧
       (∀ p ∈ s.setParts, (s.part p).list.map Cutlist.ckptCapable = some true) ∧ s.run.take = none ∧
       s.takePassed (d.w0 40 2) (d.le 28 4) = false ∧ (s.shardList (d.w0 36 4)).length ≤ 800) := by
  decide +kernel

/-- A stopped TAKE whose shards, or a failure of them, are noted. -/
def stoppedTake (mask : Nat) (shards : Option (List Byte)) (failed : Option Nat) : Take :=
  ⟨⟨1, 2, 0⟩, mask, 0, true, 5, 0x10000, 0, 0, (checkpointDesc 1).label, [2047], some 1, some (1, 0), shards, failed, false⟩

/-- A WRITE of its area that waits for its acknowledge. -/
def areaWrite : Wqe := ⟨none, 4, 0, 16, false, 0, 0x10000, 0, 65536, [], false, 0, false, none⟩

/-- The run with that TAKE. -/
def stoppedIn (ph : RunPhase) (t0 : Take) : State := withRun (checkpointState (inPhase ph) 1) (fun r => { r with take := some t0 })

/-- Its manifest has been handed on. -/
def writtenTake (resume : Bool) : Take := { stoppedTake 1 (some []) none with written := true, resume := resume }

theorem witness_manifest_acknowledged : ∀ ph ∈ [RunPhase.service, .idle], ∀ resume ∈ [false, true],
    (stoppedIn ph (writtenTake resume)).run.take = some (writtenTake resume) ∧ (writtenTake resume).stopped = some (1, 0) ∧
      (writtenTake resume).failed = none ∧ (writtenTake resume).written = true ∧
      (stoppedIn ph (writtenTake resume)).areaBusy (writtenTake resume) = false ∧ (stoppedIn ph (writtenTake resume)).run.start = none ∧
      (stoppedIn ph (writtenTake resume)).resumeWaits = resume ∧ (stoppedIn ph (writtenTake resume)).run.phase = ph := by
  decide +kernel

theorem witness_manifest_commit :
    (∀ ph ∈ [RunPhase.service, .idle], ∀ start ∈ [none, some ⟨1, 2, 1⟩],
      let t0 := stoppedTake 1 (some []) none
      let s := withRun (stoppedIn ph t0) (fun r => { r with start := start })
      s.run.take = some t0 ∧ s.sec.record = some binding ∧ t0.stopped = some (1, 0) ∧ t0.failed = none ∧ t0.written = false ∧
        t0.shards = some [] ∧ s.engineUp = true ∧ s.areaBusy t0 = false ∧ s.qpState (t0.qps.getD 0 0) = 3 ∧ s.run.phase = ph ∧
        s.run.start = start) ∧
    (let t0 := stoppedTake 1 none none
     let s := stoppedIn .service t0
     s.run.take = some t0 ∧ s.sec.record = some binding ∧ t0.stopped = some (1, 0) ∧ t0.failed = none ∧ s.engineUp = true ∧ t0.shards = none ∧
       s.areaBusy t0 = false) ∧
    (let t0 := stoppedTake 1 (some []) none
     let s := stoppedIn .service t0
     let s := s.setQp 2047 { s.qp 2047 with wqes := [areaWrite] }
     s.run.take = some t0 ∧ s.engineUp = true ∧ s.areaBusy t0 = true) ∧
    (let t0 : Take := { stoppedTake 1 (some []) (some Status.linkFailed) with resume := false }
     let s := stoppedIn .service t0
     s.run.take = some t0 ∧ s.sec.record = some binding ∧ t0.failed = some Status.linkFailed ∧ s.run.start = none ∧ s.resumeWaits = false) ∧
    (let t0 := stoppedTake 1 none none
     let s := (stoppedIn .service t0).setFld F.cphStatusPairs 0
     s.run.take = some t0 ∧ s.sec.record = some binding ∧ t0.failed = none ∧ t0.written = false ∧ s.engineUp = false) := by
  decide +kernel

/-- Over a queue pair in RTR the WRITEs of a shard wait in the remote memory engine alone. -/
theorem writeChunks_waits (t : Take) (n : Nat) (fuel off : Nat) (ct : List Byte) (s : State) (h : s.qpState n = 2) :
    ∃ r, s.writeChunks t n fuel off ct = { s with rma := r } := by
  induction fuel generalizing s off ct with
  | zero => exact ⟨s.rma, rfl⟩
  | succ k ih =>
    unfold State.writeChunks
    split
    · exact ⟨s.rma, rfl⟩
    · have e : ∃ r, s.areaWrite t n off (ct.take 0x400010) = { s with rma := r } := by
        unfold State.areaWrite State.addWqe
        rw [if_neg (by simp [h])]
        exact ⟨_, if_neg (by rw [show ∀ x, (s.setQp n x).qpState n = s.qpState n from fun _ => rfl, h]; decide)⟩
      obtain ⟨r, hr⟩ := e
      rw [hr]
      exact ih _ _ { s with rma := r } h

theorem writeShards_last (s : State) (t : Take) (key : List Byte) (items : Saved) (j off c : Nat) (h : (s.clusterStores c).2.1 = true) :
    (s.writeShards t key items j off [.benches c]).2.1 = true := by
  unfold State.writeShards
  have e : s.shardPlain items (.benches c) = ((s.clusterStores c).1, true, (s.clusterStores c).2.2) := by
    show s.clusterStores c = _
    rw [← h]
  rw [e]
  rfl

theorem shardPlain_items (s : State) (items : Saved) :
    ∃ pt fc sv, s.shardPlain items .items = (pt, false, { s with freeCtr := fc, saved := sv }) := by
  unfold State.shardPlain
  simp only []
  have e : ∃ fc sv, (s.freePlain items).2 = { s with freeCtr := fc, saved := sv } := by
    unfold State.freePlain State.bumpFree
    exact ⟨_, _, rfl⟩
  obtain ⟨fc, sv, e⟩ := e
  exact ⟨_, fc, sv, congrArg (fun x => ((s.freePlain items).1, false, x)) e⟩

theorem writeShards_next (s u : State) (t : Take) (key : List Byte) (items : Saved) (j off : Nat) (src : ShardSrc) (rest : List ShardSrc)
    (pt : List Byte) (e : s.shardPlain items src = (pt, false, u)) : ∃ fuel ct o,
    (s.writeShards t key items j off (src :: rest)).2.1
      = ((u.writeChunks t (t.qps.getD (j % max 1 t.qps.length) 0) fuel off ct).writeShards t key items (j + 1) o rest).2.1 := by
  rw [State.writeShards, e]
  simp only [Bool.false_eq_true, if_false]
  exact ⟨_, _, _, rfl⟩

theorem writeShards_poisoned (s : State) (t : Take) (key : List Byte) (items : Saved) (off c : Nat)
    (h : s.qpState (t.qps.getD (0 % max 1 t.qps.length) 0) = 2)
    (hb : ∀ r fc sv, (({ s with rma := r, freeCtr := fc, saved := sv } : State).clusterStores c).2.1 = true) :
    (s.writeShards t key items 0 off [.items, .benches c]).2.1 = true := by
  obtain ⟨pt, fc, sv, e⟩ := shardPlain_items s items
  obtain ⟨fuel, ct, o, n⟩ := writeShards_next s _ t key items 0 off .items [.benches c] pt e
  obtain ⟨r, hr⟩ := writeChunks_waits t (t.qps.getD (0 % max 1 t.qps.length) 0) fuel off ct { s with freeCtr := fc, saved := sv } h
  rw [n, hr]
  exact writeShards_last _ _ _ _ _ _ _ (hb r fc sv)

theorem clusterStores_bad (s : State) (c : Nat) (hi : s.cutOff (storePath (10 * c)) = none) (hp : (s.bench (10 * c)).badLines ≠ []) :
    (s.clusterStores c).2.1 = true := by
  have keep : ∀ (f : List Byte × Bool × State → Nat → List Byte × Bool × State), (∀ a k, a.2.1 = true → (f a k).2.1 = true) →
      ∀ (l : List Nat) a, a.2.1 = true → (l.foldl f a).2.1 = true := by
    intro f hf l
    induction l with
    | nil => exact fun _ h => h
    | cons k l ih => exact fun a h => ih _ (hf a k h)
  unfold State.clusterStores
  rw [show List.range 10 = 0 :: List.range' 1 9 from rfl, List.foldl_cons]
  apply keep
  · intro a k h
    simp [h]
  · simp only [State.storeOut, Nat.add_zero, hi, Bool.false_or]
    simpa using hp

/-- A stopped TAKE of a bench store with a poisoned line, over a queue pair in RTR. -/
def poisonedStop : State :=
  let s := stoppedIn .service (stoppedTake 1 none none)
  let s := (s.setBench 0 { s.bench 0 with poison := [3] }).setFld (F.rmaQpStatusState 2047) 2
  (List.range 40).foldl (fun (s : State) v => s.setFlag (F.vlyStateIsolated v) false) s

theorem witness_post_shards :
    (let t0 := stoppedTake 0 none none
     let s := stoppedIn .service t0
     let gen := fieldLE t0.label 24 4
     t0.shards = none ∧ t0.failed = none ∧ s.areaBusy t0 = false ∧ t0.qps ≠ [] ∧ (∀ n ∈ t0.qps, s.qpState n = 3) ∧
       ((s.useKeys [binding.shardLabel t0.id gen]).writeShards t0 (s.shardKey binding t0.id gen) (s.collect t0.op.fn t0.mask) 0 65536
         (s.shardList t0.mask)).2.1 = false) ∧
    (let t0 := stoppedTake 1 none none
     let s := poisonedStop
     let gen := fieldLE t0.label 24 4
     s.run.take = some t0 ∧ s.sec.record = some binding ∧ s.engineUp = true ∧ s.areaBusy t0 = false ∧ t0.qps ≠ [] ∧
       (∀ n ∈ t0.qps, s.qpState n = 2) ∧ ((s.useKeys [binding.shardLabel t0.id gen]).writeShards t0 (s.shardKey binding t0.id gen) (s.collect t0.op.fn t0.mask) 0 65536
         (s.shardList t0.mask)).2.1 = true) := by
  refine ⟨by decide +kernel, by decide +kernel, by decide +kernel, by decide +kernel, by decide +kernel, by decide, by decide +kernel, ?_⟩
  have l : poisonedStop.shardList (stoppedTake 1 none none).mask = [.items, .benches 0] := by decide +kernel
  have q : ∀ ls ∈ [[binding.shardLabel (stoppedTake 1 none none).id (fieldLE (stoppedTake 1 none none).label 24 4)]],
      (poisonedStop.useKeys ls).qpState 2047 = 2 ∧ ((poisonedStop.useKeys ls).cutOff (storePath 0)).isNone = true ∧
        ((poisonedStop.useKeys ls).bench 0).badLines ≠ [] := by decide +kernel
  rw [l]
  obtain ⟨q1, q2, q3⟩ := q _ (List.mem_singleton.mpr rfl)
  generalize poisonedStop.useKeys _ = b at q1 q2 q3 ⊢
  refine writeShards_poisoned _ _ _ _ _ _ (by show b.qpState 2047 = 2; exact q1) (fun r fc sv => ?_)
  exact clusterStores_bad _ 0 (Option.isNone_iff_eq_none.mp q2) q3

/-- Ring 255 of instance 63, of a kind, with 2^3 entries at 0x5000, HEAD 2^32 - 1 and TAIL 0. -/
def nearWrap (kind : Nat) : State :=
  let s := ringOn State.reset 63 255 kind (desc [])
  let s := s.setRing 63 255 Ring.init
  ((((s.setFld (F.rngBaseLoAddr 63 255) 0x5000).setFld (F.rngCfgLog2Size 63 255) 3).setFld (F.rngHeadCount 63 255) (2 ^ 32 - 1)).setFld
    (F.rngTailCount 63 255) 0).setFld (F.rngCfgVector 63 255) 2

theorem witness_ring_events :
    (let s := nearWrap 1
     s.doorbellAnswers 63 = true ∧ s.ringActive 63 255 = true ∧ s.doorbellGood 63 255 7 = true ∧ s.doorbellGood 63 255 8 = false ∧ s.fld (F.rngTailCount 63 255) = 0 ∧
       s.doorbellGood 63 255 (2 ^ 32) = false ∧ s.canFetch 63 255 = true ∧
       s.fld (F.rngTailCount 63 255) = (s.fld (F.rngHeadCount 63 255) + 1) % 2 ^ 32 ∧ s.fld (F.rngHeadCount 63 255) < 2 ^ 32 ∧
       (s.ring 63 255).fetched = [] ∧
       (let s := s.setHostMem (Memory.write [] (0x5000 + 64 * 7) [9])
        (ringOpcodes 63 (s.ringKind 63 255)).contains (fieldLE (Memory.read s.host.mem
          (s.ringAddr 63 255 + 64 * (s.fld (F.rngHeadCount 63 255) % s.ringSize 63 255)) 64) 0 1) = true)) ∧
    (∀ k ∈ [1022, 1023],
     let s := nearWrap 2
     let s := (s.setHostMem (Memory.write [] (0x5000 + 64 * 7) [1])).setFn 63 { s.fn 63 with grants := [⟨1, 1023, 255⟩, ⟨1, 1022, 254⟩] }
     let s := ((s.setFld (F.rngStatusState 63 254) 1).setFld (F.rngCfgKind 63 254) 2).setFld (F.rngCfgLog2Size 63 254) 3
     let s := if k = 1022 then (s.setFld (F.rngTailCount 63 254) 1).setFld (F.shfQpCfgClass 1023) 2 else s
     s.canFetch 63 255 = true ∧ s.fld (F.rngTailCount 63 255) = (s.fld (F.rngHeadCount 63 255) + 1) % 2 ^ 32 ∧ (s.ring 63 255).fetched = [] ∧
       s.ringKind 63 255 = 2 ∧ s.rma.qps = [] ∧ s.sqpOf 63 255 = some 1023 ∧ s.shelfPick.map Prod.fst = some k ∧
       (ringOpcodes 63 2).contains (fieldLE (Memory.read s.host.mem
         (s.ringAddr 63 255 + 64 * (s.fld (F.rngHeadCount 63 255) % s.ringSize 63 255)) 64) 0 1) = true) ∧
    (let c : Cpl := ⟨1, 2, 3, 0, 5, true⟩
     let s := (nearWrap 8).setFld (F.rngTailCount 63 255) (2 ^ 32 - 1)
     let s := s.setRing 63 255 { Ring.init with waiting := [c] }
     (s.ring 63 255).waiting = [c] ∧ s.ringKind 63 255 = 8 ∧ s.ringActive 63 255 = true ∧ s.dmaOk 63 = true ∧ s.ringRoom 63 255 = true) ∧
    (let s := nearWrap 7
     let s := s.setRing 63 255 { Ring.init with unsignalled := 1, nowDue := true }
     s.ringKind 63 255 = 7 ∧ s.ringActive 63 255 = true ∧ s.dmaOk 63 = true ∧ s.messageDue 63 255 = true) ∧
    63 < (State.reset.fn 0).vectors ∧ (ringOn State.reset 0 1 1 (desc [])).barAnswers 0 (0x580000 + 16 * 63) = true ∧
    (let s := ringOn State.reset 63 1 1 (desc [])
     let s := s.setFn 63 { s.fn 63 with vectors := 1 }
     0 < (s.fn 63).vectors ∧ s.barAnswers 63 0x70000 = true) ∧
    (let s := ringOn State.reset 63 1 1 (desc [])
     let s := s.setFn 63 { s.fn 63 with d3hot := true }
     s.host.published = true ∧ s.insState 63 ≠ 0 ∧ s.dmaOk 63 = false) := by
  decide +kernel

/-- A SEND of 4,080 bytes, from instance 63 or to it. -/
def sendDesc (w : Nat) : Desc := desc [(0, 1, 1), (4, 1, w), (8, 8, 0x100), (16, 4, 64), (20, 2, 4080)]

/-- The manager's MBX ring 7 has posted one receive buffer. -/
def withBuf (s : State) : State :=
  let s := (s.setFld (F.rngStatusState 0 7) 1).setFld (F.rngCfgKind 0 7) 6
  s.setRing 0 7 { s.ring 0 7 with bufs := [⟨0, false, 0x8000, 4096⟩] }

theorem witness_completions_resets_and_mailboxes :
    (let f : Flight := ⟨7, 8, true, 1, none, 0⟩
     let s := ringOn State.reset 63 9 5 (desc [])
     let s := s.setRing 63 9 { Ring.init with flight := [f] }
     (s.ring 63 9).flight = [f] ∧ f.done = none ∧ s.fld (F.rngStatusState 63 9) = 1 ∧ s.fld (F.rngCfgCpl 63 9) ≠ 9) ∧
    (let s := (ringOn State.reset 1 0 1 (desc [])).setRing 1 0 Ring.init
     s.ringEnabled 1 0 = true ∧ s.ringKind 1 0 = 1 ∧ s.run.start = none ∧ (s.ring 1 0).flight = [] ∧ (s.ring 1 0).fetched = [] ∧
       (s.ring 1 0).waiting = []) ∧
    (let d := sendDesc 0
     let s := ringOn State.reset 63 9 6 d
     Starts s 63 9 6 1 d ∧ goodSend 0 d = true ∧ seqFresh (d.le 16 4) (s.fn 63).lastOut = true ∧ (s.fn 0).d3hot = false ∧
       s.managerBuf = none ∧ (withBuf s).managerBuf = some (7, ⟨0, false, 0x8000, 4096⟩) ∧ Starts (withBuf s) 63 9 6 1 d ∧
       seqFresh (2 ^ 31) 0 = true ∧
       (let s := s.setFn 0 { s.fn 0 with d3hot := true }
        (s.fn 0).d3hot = true ∧ (s.ring 63 9).fetched = [d] ∧ s.ringActive 63 9 = true ∧ s.insState 63 = 1 ∧ s.ringKind 63 9 = 6 ∧ d.opcode = 1 ∧
          (s.ring 63 9).flight = [])) ∧
    (let d := desc [(0, 1, 2), (8, 8, 0x8000)]
     Starts (ringOn State.reset 0 9 6 d) 0 9 6 2 d ∧ d.good 0 allBits 0 0 .none = true) ∧
    (let d := sendDesc 63
     let s := (ringOn State.reset 0 9 6 d).setFld (F.insStatusState 63) 1
     Starts s 0 9 6 1 d ∧ goodSend 0x3F d = true ∧ d.w0 32 6 = 63 ∧ s.insState 63 ≠ 0 ∧ seqFresh 64 (s.fn 63).lastIn = true ∧
       (Tab.get MboxSlot.init (s.fn 63).mbox (64 % 64)).full = false) ∧
    (let s := ringOn State.reset 63 9 6 (desc [])
     let s := s.setFn 63 { s.fn 63 with mbox := [(0, ⟨64, true, []⟩)] }
     let x := Tab.get MboxSlot.init (s.fn 63).mbox (64 % 64)
     Taken s 63 0x10 false 64 ∧ x.full = true ∧ x.seq = 64 ∧ Taken s 63 0x10 false 65 ∧
       (Tab.get MboxSlot.init (s.fn 63).mbox (65 % 64)).full = false) := by
  decide +kernel

/-- Function i answers register writes. -/
def open_ (i : Nat) : State := ringOn State.reset i 0 1 (desc [])

theorem witness_register_writes :
    (∀ i ∈ [0, 1],
      let s := open_ i
      let a := if i = 0 then 4 else 0
      s.barAnswers i a = true ∧ s.vectorAt i a = none ∧ (writeWords i a false (2 ^ 32 - 1)).any (fun x => s.rvChange x.1 x.2.1 x.2.2) = true) ∧
    (let s := open_ 1
     let a := (F.rngBaseLoAddr 1 0).addr - 0x100000000
     s.barAnswers 1 a = true ∧ s.vectorAt 1 a = none ∧ Taken s 1 a false 0x1000 ∧ barAddr 1 a = (F.rngBaseLoAddr 1 0).addr ∧
       State.reset.barAnswers 1 a = false) ∧
    (let s := open_ 1
     let s := { s with regs := { s.regs with buf := [⟨1, 5, F.rngBaseLoAddr 1 0, 0x1000, 0⟩, ⟨1, 5, F.rngBaseHiAddr 1 255, 2, 0⟩] } }
     let ws := s.regs.buf.filter (fun x => x.fn == 1)
     Taken s 1 8 false 1 ∧ Taken s 1 8 false 0 ∧ (ws.map (fun w => w.field.addr)).Nodup ∧ ws.length = 2) ∧
    (let f : FieldWrite := ⟨0, 9, F.timCfgRole, 2, 0⟩
     let s := open_ 0
     let s := { s with regs := { s.regs with buf := [f] } }
     Taken s 0 8 false (2 ^ 9) ∧ s.flag F.glbCompatE7 = false ∧ s.regs.pend = [] ∧
       s.regs.buf.filter (fun w => w.fn == 0 && w.block != 15 && bitOf (2 ^ 9) w.block) ≠ [] ∧ Taken s 0 0x10 false (2 ^ 9)) ∧
    (let s := open_ 0
     Taken s 0 0x18 false 1 ∧ s.fld F.glbPendingMask = 0 ∧ s.flag F.glbStatusBusy = false ∧ s.inPlain = false ∧
       (s.setFlag F.glbStatusBusy true).flag F.glbStatusBusy = true ∧ Taken (s.setFlag F.glbStatusBusy true) 0 0x18 false 1) ∧
    (∀ x ∈ [(9, F.timUtcOffset), (2, F.pwrVtargetMv 7)], ∀ b ∈ [State.reset, withRun (inPhase .service) (fun r => { r with drainAt := 1000 })],
     let g : ApplyGroup := ⟨[x.1], [⟨0, x.1, x.2, 2, 0⟩], 0, false⟩
     let s := open_ 0
     let s : State := { s with regs := { s.regs with pend := [g] }, run := b.run, parts := b.parts }
     let due := s.regs.pend.filter (fun g => s.groupDue g && !(s.scheduled && s.swapsNow && g.blocks.any kerfBlock))
     due = [g] ∧ isAlloc x.2.addr = false ∧ x.2.addr ∉ [F.glbEpochApplied.addr, F.glbPendingMask.addr, F.glbStatusBusy.addr]) ∧
    (inPhase .service).scheduled = true ∧ kerfBlock 2 = true ∧ kerfBlock 9 = false ∧
    (let f := F.bncCtrlMapOut 159
     let s := open_ 0
     let s := { s with regs := { s.regs with cpB := [(f.addr, 1)] } }
     valleyCluster 18 = some 15 ∧ s.regs.scrubFld f = .corrected ∧ ∀ m, m < 9 → s.regs.scrubFld (F.bncCtrlMapOut (150 + m)) = .agree) := by
  decide +kernel

/-- The fields of those groups set nothing off. -/
theorem witness_inert_field : ∀ f ∈ [F.timUtcOffset, F.pwrVtargetMv 7], ∀ x : State, x.appliedAt f.addr = x ∧ x.applyNode 0 f 2 = x := by
  intro f hf x
  simp only [List.mem_cons, List.not_mem_nil, or_false] at hf
  rcases hf with rfl | rfl <;> exact ⟨rfl, rfl⟩

/-! ### Witnesses: firmware -/

/-- SHA-384 of the one-byte image 0xA5, from an implementation outside the package. -/
def imageDigest : List Byte := leBytes 48 0x40ab2bd657410cc93b3dd2381960a1c15443bb5dac8afc8278068af7cf1313bba40a34259672a0358285020d4b3cef40

/-- The header of bundle 3.2.0 with svn 5: seven images of one byte at offset 0, and a signature that the key below accepts. -/
def fwHeader : List Byte :=
  leBytes 16 0x7050000020300e90001454e4554 ++ imageDigest
  ++ (List.range 7).flatMap (fun k => leBytes 16 (k + 0x300 + 2 ^ 64 + 1000 * 2 ^ 96) ++ imageDigest)
  ++ beBytes 48 0xceffe62061e4faf978999418ed34c0ed21a88d7be4dfabbd9c4db5aa448744f47278e3ad57654b06741ea9ea2fb6bee7
  ++ beBytes 48 0xceffe62061e4faf978999418ed34c0ed21a88d7be4dfabbd9c4db5aa448744f47278e3ad57654b06741ea9ea2fb6bee7

/-- Its signing key. -/
def fwKey : List Byte := [4] ++ beBytes 48 0xe1b83ef053ab637407d8b2ba457d6c47564fb44a28e4a5a9f7a93375a647615fa55bb5e85767bcd690715cbfafe946a3
  ++ beBytes 48 0x2a4e7db7c1e1575109a6b2296501f36b203fa2cf103ed05ad1f19753f5a99c84835dd2e81769e75f0a60a486bdb260cd

/-- The bytes of a list that are not zero, at rising addresses. -/
def cells : Nat → List Byte → Memory
  | _, [] => []
  | a, v :: t => if v = 0 then cells (a + 1) t else (a, v) :: cells (a + 1) t

theorem byte_cells_out (l : List Byte) (r : Memory) (a k : Nat) (h : k < a ∨ a + l.length ≤ k) :
    Memory.byte (cells a l ++ r) k = Memory.byte r k := by
  induction l generalizing a with
  | nil => rfl
  | cons v t ih =>
    simp only [List.length_cons] at h
    have := ih (a + 1) (by omega)
    by_cases e : v = 0
    · rw [cells, if_pos e, this]
    · rw [cells, if_neg e]
      simp only [Memory.byte, List.cons_append, Tab.get] at this ⊢
      rw [if_neg (by omega), this]

theorem read_cells_out (l : List Byte) (r : Memory) (a k n : Nat) (h : k + n ≤ a ∨ a + l.length ≤ k) :
    Memory.read (cells a l ++ r) k n = Memory.read r k n := by
  apply List.ext_getElem (by simp)
  intro i h1 h2
  simp only [Memory.length_read] at h1
  rw [Memory.getElem_read, Memory.getElem_read, byte_cells_out _ _ _ _ (by omega)]

theorem setByte_cells (l : List Byte) (r : Memory) (a k : Nat) (v : Byte) (h : a + l.length ≤ k) :
    Memory.setByte (cells a l ++ r) k v = cells a l ++ Memory.setByte r k v := by
  induction l generalizing a with
  | nil => rfl
  | cons w t ih =>
    simp only [List.length_cons] at h
    have := ih (a + 1) (by omega)
    by_cases e : w = 0
    · rw [cells, if_pos e, this]
    · rw [cells, if_neg e]
      by_cases z : v = Memory.unlisted
      · simp only [Memory.setByte, Tab.set, if_pos z, Tab.erase, List.cons_append, List.filter_cons] at this ⊢
        rw [if_pos (by simp; omega), this]
      · simp only [Memory.setByte, Tab.set, if_neg z, List.cons_append, Tab.put] at this ⊢
        rw [if_neg (by omega), if_neg (by omega), this]

theorem write_cells (l : List Byte) (bs : List Byte) (r : Memory) (a k : Nat) (h : a + l.length ≤ k) :
    Memory.write (cells a l ++ r) k bs = cells a l ++ Memory.write r k bs := by
  induction bs generalizing r k with
  | nil => rfl
  | cons v t ih => rw [Memory.write, Memory.write, setByte_cells _ _ _ _ _ h, ih _ _ (by omega)]

theorem filter_cells (l : List Byte) (r : Memory) (a : Nat) (p : Nat × Byte → Bool) (h : ∀ c, a ≤ c.1 → c.1 < a + l.length → p c = false) :
    (cells a l ++ r).filter p = r.filter p := by
  induction l generalizing a with
  | nil => rfl
  | cons w t ih =>
    have := ih (a + 1) (fun c h1 h2 => h c (by omega) (by simp only [List.length_cons]; omega))
    by_cases e : w = 0
    · rw [cells, if_pos e, this]
    · rw [cells, if_neg e, List.cons_append, List.filter_cons, h (a, w) (Nat.le_refl _) (by simp only [List.length_cons]; omega), this]
      rfl

theorem slot_lt (B N M x : Nat) (hn : N = 64 * M) (h1 : B ≤ x) (h2 : x < B + N) : (x - B) / 64 < M := by
  subst hn
  omega

theorem slots_lt (s : State) (b k : Nat) (h : k ∈ s.recordSlots b) : k < 1024 := by
  unfold State.recordSlots at h
  have h := List.mem_eraseDups.mp h
  obtain ⟨c, hc, rfl⟩ := List.mem_map.mp h
  have := of_decide_eq_true (List.mem_filter.mp hc).2
  exact slot_lt _ 0x10000 1024 _ (by decide +kernel) this.1 this.2

/-- The bytes of bank b's record sector. -/
def inSector (b : Nat) (c : Nat × Byte) : Bool := decide (bankBase b + 0x10000 ≤ c.1 ∧ c.1 < bankBase b + 0x10000 + 0x10000)

theorem slots_congr (s t : State) (b : Nat) (h : s.fw.flash.filter (inSector b) = t.fw.flash.filter (inSector b)) :
    s.recordSlots b = t.recordSlots b := by
  have e : ∀ u : State, u.recordSlots b = ((u.fw.flash.filter (inSector b)).map (fun c => (c.1 - (bankBase b + 0x10000)) / 64)).eraseDups :=
    fun u => rfl
  rw [e, e, h]

theorem records_congr (s t : State) (b : Nat) (h : s.recordSlots b = t.recordSlots b)
    (hr : ∀ k, k < 1024 → Memory.read s.fw.flash (bankBase b + 0x10000 + 64 * k) 64 = Memory.read t.fw.flash (bankBase b + 0x10000 + 64 * k) 64) :
    s.bankState b = t.bankState b := by
  have r : s.bankRecords b = t.bankRecords b := by
    unfold State.bankRecords
    rw [← h, List.map_congr_left (fun k hk => hr k (slots_lt s b k hk))]
  unfold State.bankState
  rw [r]

/-- The state of a bank does not depend on a header below its records or beyond them. -/
theorem bankState_cells (s : State) (l : List Byte) (r : Memory) (a b : Nat) (hf : s.fw.flash = cells a l ++ r)
    (h : a + l.length ≤ bankBase b + 0x10000 ∨ bankBase b + 0x10000 + 0x10000 ≤ a) (t : State) (ht : t.fw.flash = r) :
    s.bankState b = t.bankState b := by
  have hs : s.recordSlots b = t.recordSlots b := by
    apply slots_congr
    rw [hf, ht]
    apply filter_cells
    intro c h1 h2
    unfold inSector
    exact decide_eq_false (by rintro ⟨h3, h4⟩; omega)
  apply records_congr _ _ _ hs
  intro k hk
  rw [hf, ht]
  apply read_cells_out
  generalize bankBase b + 0x10000 = B at h ⊢
  rcases h with h | h
  · right; omega
  · left; omega

theorem read_cells (l : List Byte) (r : Memory) (a : Nat) (h : ∀ k, k < a + l.length → Memory.byte r k = 0) :
    Memory.read (cells a l ++ r) a l.length = l := by
  induction l generalizing a with
  | nil => rfl
  | cons v t ih =>
    have h' : ∀ k, k < a + 1 + t.length → Memory.byte r k = 0 := fun k hk => h k (by simp only [List.length_cons]; omega)
    have := ih (a + 1) h'
    by_cases e : v = 0
    · rw [cells, if_pos e, List.length_cons, Memory.read, this, byte_cells_out _ _ _ _ (by omega), h' a (by omega), e]
    · rw [cells, if_neg e, List.length_cons, Memory.read]
      have low : ∀ n b, a < b → Memory.read (((a, v) :: cells (a + 1) t) ++ r) b n = Memory.read (cells (a + 1) t ++ r) b n := by
        intro n
        induction n with
        | zero => intros; rfl
        | succ n ihn =>
          intro b hb
          rw [Memory.read, Memory.read, ihn _ (by omega)]
          simp only [Memory.byte, List.cons_append, Tab.get]
          rw [if_neg (by omega)]
      rw [low _ _ (by omega), this]
      simp only [Memory.byte, List.cons_append, Tab.get, if_true]

theorem byte_above (r : Memory) (n k : Nat) (h : r.all (fun c => decide (n ≤ c.1)) = true) (hk : k < n) : Memory.byte r k = 0 := by
  induction r with
  | nil => rfl
  | cons c t ih =>
    simp only [List.all_cons, Bool.and_eq_true, decide_eq_true_eq] at h
    simp only [Memory.byte, Tab.get] at ih ⊢
    rw [if_neg (by omega), ih h.2]

/-- Bank b's record of a state of R270 with a commit sequence, and its one image. -/
def recordCells (b code seq : Nat) : Memory :=
  let body := leBytes 4 code ++ leBytes 4 seq ++ List.replicate 52 0
  cells (bankBase b + 0x10000) (body ++ leBytes 4 (Crypto.crc32 body)) ++ [(bankBase b + 0x20000, 0xA5)]

/-- A flash and a fused version of 4. -/
def withFlash (s : State) (f : Memory) : State :=
  { s with mfg := { s.mfg with signer := fwKey }, fw := { s.fw with flash := f, fused := 4 } }

/-- Bank b holds the bundle in a state of R270 with a commit sequence. -/
def withBank (s : State) (b code seq : Nat) : State := withFlash s (cells (bankBase b) fwHeader ++ recordCells b code seq)

/-- An operation of FWC_CTRL is asked for, of all 21 cores. -/
def asked (s : State) (op : Nat) : State := { s with fw := { s.fw with askCores := 0x1FFFFF } }.setRequest 14 op

/-- The device has booted from bank b. -/
def booted (s : State) (b : Nat) : State := (s.setFld F.fwcBootStage 8).setFld F.fwcStatusBooted (b - 1)

/-- Manager memory holds the bundle at 0x10000. -/
def withBundle (s : State) : State :=
  let m := cells 0x10000 fwHeader ++ [(0x30000, 0xA5)]
  let s : State := { s with mfg := { s.mfg with signer := fwKey }, host := { s.host with mem := m, published := true } }
  (s.setFld F.fwcSrcLoAddr 0x10000).setFld F.fwcLenBytes 0x20001

theorem fwHeader_length : fwHeader.length = 0x260 := by decide +kernel

/-- The header's signature, version, length and images. -/
theorem fwHeader_good : Crypto.ecdsaVerify fwKey (fwHeader.take 0x200) (bytesAt fwHeader 0x200 96) = true := by decide +kernel

theorem bundle_header (s : State) : Memory.read (withBundle s).host.mem 0x10000 0x260 = fwHeader := by
  rw [← fwHeader_length]
  exact read_cells _ _ _ (fun k hk => byte_above _ 0x30000 k (by decide) (by rw [fwHeader_length] at hk; omega))

/-- The banks of the tests. -/
def cases : List (Nat × Nat × Nat) := [(1, 1, 0), (2, 1, 0), (1, 3, 0), (2, 3, 0), (2, 4, 7), (1, 2, 0)]

theorem case_bank {b code seq : Nat} (hc : (b, code, seq) ∈ cases) : b ∈ [1, 2] := by
  have : ∀ x ∈ cases, x.1 ∈ [1, 2] := by decide
  exact this _ hc

theorem header_of (s : State) (b code seq : Nat) (hc : (b, code, seq) ∈ cases) (hf : s.fw.flash = (withBank State.reset b code seq).fw.flash) :
    s.header b = fwHeader := by
  have h : ∀ x ∈ cases, (recordCells x.1 x.2.1 x.2.2).all (fun c => decide (bankBase x.1 + 0x10000 ≤ c.1)) = true := by decide +kernel
  unfold State.header
  rw [hf, ← fwHeader_length]
  exact read_cells _ _ _ (fun k hk => byte_above _ (bankBase b + 0x10000) k (h (b, code, seq) hc) (by rw [fwHeader_length] at hk; omega))

theorem witness_firmware_download :
    (let s := asked (withBundle State.reset) 1
     s.request 14 = 1 ∧ s.dmaOk 0 = true ∧ (s.bankState s.downloadBank).1 ≠ 2 ∧ (s.bankState s.downloadBank).1 ≠ 3 ∧
       s.flag F.rcvStatusActive = false ∧
       s.downloadFault (Memory.read s.host.mem (s.fld F.fwcSrcLoAddr + s.fld F.fwcSrcHiAddr * 2 ^ 32) 0x260) (s.fld F.fwcLenBytes) = none) ∧
    (let s := asked (withFlash (withBundle State.reset) (recordCells 1 3 0)) 1
     s.request 14 = 1 ∧ s.dmaOk 0 = true ∧ (s.bankState s.downloadBank).1 = 3) ∧
    (let s := asked (withBundle State.reset) 1
     s.downloadFault (Memory.read s.host.mem (s.fld F.fwcSrcLoAddr + s.fld F.fwcSrcHiAddr * 2 ^ 32) 0x260) 5 = some Status.badDescriptor) := by
  have a : (asked (withBundle State.reset) 1).fld F.fwcSrcLoAddr + (asked (withBundle State.reset) 1).fld F.fwcSrcHiAddr * 2 ^ 32 = 0x10000 := by
    decide +kernel
  have m : (asked (withBundle State.reset) 1).host.mem = (withBundle State.reset).host.mem := rfl
  have k : (asked (withBundle State.reset) 1).mfg.signer = fwKey := rfl
  have f : ∀ len, (asked (withBundle State.reset) 1).downloadFault (Memory.read (asked (withBundle State.reset) 1).host.mem
      ((asked (withBundle State.reset) 1).fld F.fwcSrcLoAddr + (asked (withBundle State.reset) 1).fld F.fwcSrcHiAddr * 2 ^ 32) 0x260) len =
        if goodLength fwHeader len then none else some Status.badDescriptor := by
    intro len
    have u : (asked (withBundle State.reset) 1).usable fwHeader = true ∧ (asked (withBundle State.reset) 1).goodProtect fwHeader = true := by
      decide +kernel
    rw [a, m, bundle_header]
    simp only [State.downloadFault, State.fwSigned, k, fwHeader_good, u]
    cases goodLength fwHeader len <;> simp
  exact ⟨⟨by decide +kernel, by decide +kernel, by decide +kernel, by decide +kernel, by decide +kernel,
    (f _).trans (by decide +kernel)⟩, by decide +kernel, (f 5).trans (by decide +kernel)⟩

/-- Directory entry k of the bundle. -/
def entryOf (k : Nat) : List Byte := leBytes 16 (k + 0x300 + 2 ^ 64 + 1000 * 2 ^ 96) ++ imageDigest

theorem entry_good : ∀ k < 7, dirEntry fwHeader k = some (entryOf k) ∧ fieldLE (entryOf k) 4 4 = 0 ∧ fieldLE (entryOf k) 8 4 = 1 ∧
    Crypto.sha384 [0xA5] = bytesAt (entryOf k) 0x10 48 := by
  decide +kernel

/-- Every image of the bundle in a bank is good. -/
theorem bank_images (s : State) (b : Nat) (h : s.header b = fwHeader) (hv : Memory.byte s.fw.flash (bankBase b + 0x20000) = 0xA5) :
    ∀ k < 7, (s.goodImageOf b k).isSome = true := by
  intro k hk
  obtain ⟨e1, e2, e3, e4⟩ := entry_good k hk
  have i : s.imageOf b (entryOf k) = [0xA5] := by
    rw [State.imageOf, e2, e3]
    simp only [Memory.read, Nat.add_zero, hv]
  rw [State.goodImageOf, h, e1]
  simp only [i, e4, if_true, Option.isSome_some]

/-- What depends on the records alone, without the header. -/
theorem bank_state (s t : State) (b code seq k : Nat) (hb : b ∈ [1, 2]) (hk : k ∈ [1, 2])
    (hf : s.fw.flash = cells (bankBase b) fwHeader ++ recordCells b code seq) (ht : t.fw.flash = recordCells b code seq) :
    s.bankState k = t.bankState k := by
  apply bankState_cells s _ _ _ k hf _ t ht
  · rw [fwHeader_length]
    simp only [List.mem_cons, List.not_mem_nil, or_false] at hb hk
    rcases hb with rfl | rfl <;> rcases hk with rfl | rfl <;> decide

/-- Bank b with its records and image alone. -/
def bare (b code seq : Nat) : State := withFlash State.reset (recordCells b code seq)

theorem bare_state : ∀ x ∈ cases, ∀ k ∈ [1, 2],
    (bare x.1 x.2.1 x.2.2).bankState k = if k = x.1 then (x.2.1, x.2.2) else (0, 0) := by decide +kernel

/-- Bank k of a state whose flash is that of withBank. -/
theorem states (s : State) (b code seq k : Nat) (hc : (b, code, seq) ∈ cases) (hk : k ∈ [1, 2])
    (hf : s.fw.flash = (withBank State.reset b code seq).fw.flash) : s.bankState k = if k = b then (code, seq) else (0, 0) := by
  rw [bank_state s (bare b code seq) b code seq k (case_bank hc) hk hf rfl, bare_state _ hc k hk]

theorem image_byte (s : State) (b code seq : Nat) (hc : (b, code, seq) ∈ cases)
    (hf : s.fw.flash = (withBank State.reset b code seq).fw.flash) : Memory.byte s.fw.flash (bankBase b + 0x20000) = 0xA5 := by
  have h : ∀ x ∈ cases, Memory.byte (recordCells x.1 x.2.1 x.2.2) (bankBase x.1 + 0x20000) = 0xA5 := by decide +kernel
  have f : (withBank State.reset b code seq).fw.flash = cells (bankBase b) fwHeader ++ recordCells b code seq := rfl
  rw [hf, f, byte_cells_out _ _ _ _ (by rw [fwHeader_length]; omega), h _ hc]

theorem witness_activate_refused :
    let s := (asked (withBank State.reset 1 1 0) 2).setFlag F.rcvStatusActive true
    s.request 14 = 2 ∧ s.flag F.rcvStatusActive = true ∧ (s.bankState 1).1 = 1 :=
  ⟨by decide +kernel, by decide +kernel, by
    rw [states ((asked (withBank State.reset 1 1 0) 2).setFlag F.rcvStatusActive true) 1 1 0 1 (by decide) (by decide) rfl]
    rfl⟩

/-- Every image of the bundle has protect 3. -/
theorem good_protect (s : State) : s.goodProtect fwHeader = true := Bool.or_eq_true_iff.mpr (.inr (by decide +kernel))

theorem witness_firmware_switches :
    (∀ b ∈ [1, 2],
      let s := asked (withBank State.reset b 1 0) 2
      (b = 1 ∨ (b = 2 ∧ (s.bankState 1).1 ≠ 1 ∧ (s.bankState 1).1 ≠ 2)) ∧ s.request 14 = 2 ∧ (s.bankState b).1 = 1 ∧
        s.flag F.rcvStatusActive = false ∧ s.usable (s.header b) = true ∧ s.goodProtect (s.header b) = true ∧
        (∀ k ∈ maskList 21 s.fw.askCores, s.switchRefused k = false ∧ s.notQuiet k = false ∧
          (k = 0 ∨ (s.core k).held = true ∨ (s.goodImageOf b (kindOf k)).isSome = true))) ∧
    (∀ b ∈ [1, 2],
      let s := booted (asked (withBank State.reset b 3 0) 3) b
      s.request 14 = 3 ∧ s.bootedBank = some b ∧ (s.bankState b).1 = 3) ∧
    (∀ b ∈ [1, 2],
      let s := booted (asked (withBank State.reset b 3 0) 4) b
      (b = 1 ∨ (b = 2 ∧ (s.bankState 1).1 ≠ 2 ∧ (s.bankState 1).1 ≠ 3)) ∧ s.request 14 = 4 ∧
        ((s.bankState b).1 = 2 ∨ (s.bankState b).1 = 3) ∧ s.bootedBank = some b ∧
        (booted (asked (withBank State.reset b 3 0) 4) (3 - b)).bootedBank ≠ some b ∧ ∀ k < 21, Tab.get 0 s.fw.source k ≠ b) ∧
    (∀ b ∈ [1, 2],
      let s := asked (withBank State.reset b 1 0) 2
      { s with fw := { s.fw with fused := 6 } }.usable (s.header b) = false) := by
  have q : ∀ b ∈ [1, 2],
      (∀ s ∈ [asked (withBank State.reset b 1 0) 2],
        s.request 14 = 2 ∧ s.flag F.rcvStatusActive = false ∧ (∀ k ∈ maskList 21 s.fw.askCores, s.switchRefused k = false ∧ s.notQuiet k = false) ∧
          s.fw.fused = 4) ∧
      (∀ s ∈ [booted (asked (withBank State.reset b 3 0) 3) b], s.request 14 = 3 ∧ s.bootedBank = some b) ∧
      (∀ s ∈ [booted (asked (withBank State.reset b 3 0) 4) b], s.request 14 = 4 ∧ s.bootedBank = some b ∧
        (booted (asked (withBank State.reset b 3 0) 4) (3 - b)).bootedBank ≠ some b ∧ ∀ k < 21, Tab.get 0 s.fw.source k ≠ b) := by decide +kernel
  have c1 : ∀ b ∈ [1, 2], (b, 1, 0) ∈ cases := by decide
  have c3 : ∀ b ∈ [1, 2], (b, 3, 0) ∈ cases := by decide
  have st : ∀ (b code : Nat) (s : State), (b, code, 0) ∈ cases → s.fw.flash = (withBank State.reset b code 0).fw.flash →
      (s.bankState b).1 = code ∧ (b = 2 → (s.bankState 1).1 = 0) := by
    intro b code s hc hf
    rw [states s b code 0 b hc (case_bank hc) hf, states s b code 0 1 hc (by decide) hf]
    exact ⟨by simp, fun h => by simp [h]⟩
  have two : ∀ b ∈ [1, 2], b = 1 ∨ b = 2 := by decide
  have us : svnOf fwHeader = 5 ∧ fieldLE fwHeader 6 2 = 0x00E9 := by decide +kernel
  refine ⟨fun b hb => ?_, fun b hb => ?_, fun b hb => ?_, fun b hb => ?_⟩
  · obtain ⟨q2, q4, q6, q8⟩ := (q b hb).1 _ (List.mem_singleton.mpr rfl)
    have hf : (asked (withBank State.reset b 1 0) 2).fw.flash = (withBank State.reset b 1 0).fw.flash := rfl
    generalize asked (withBank State.reset b 1 0) 2 = s at *
    obtain ⟨s1, s2⟩ := st b 1 s (c1 b hb) hf
    have hd := header_of s b 1 0 (c1 b hb) hf
    exact ⟨(two b hb).imp id (fun h => ⟨h, by rw [s2 h]; decide, by rw [s2 h]; decide⟩), q2, s1, q4,
      by rw [hd]; simp [State.usable, us, q8], by rw [hd]; exact good_protect s, fun k hk => ⟨(q6 k hk).1, (q6 k hk).2,
      .inr (.inr (bank_images s b (header_of s b 1 0 (c1 b hb) hf) (image_byte s b 1 0 (c1 b hb) hf) _ (by unfold kindOf; omega)))⟩⟩
  · obtain ⟨q2, q4⟩ := (q b hb).2.1 _ (List.mem_singleton.mpr rfl)
    have hf : (booted (asked (withBank State.reset b 3 0) 3) b).fw.flash = (withBank State.reset b 3 0).fw.flash := rfl
    generalize booted (asked (withBank State.reset b 3 0) 3) b = s at *
    exact ⟨q2, q4, (st b 3 s (c3 b hb) hf).1⟩
  · obtain ⟨q2, q4, q6⟩ := (q b hb).2.2 _ (List.mem_singleton.mpr rfl)
    have hf : (booted (asked (withBank State.reset b 3 0) 4) b).fw.flash = (withBank State.reset b 3 0).fw.flash := rfl
    generalize booted (asked (withBank State.reset b 3 0) 4) b = s at *
    obtain ⟨s1, s2⟩ := st b 3 s (c3 b hb) hf
    exact ⟨(two b hb).imp id (fun h => ⟨h, by rw [s2 h]; decide, by rw [s2 h]; decide⟩), q2, .inr s1, q4, q6⟩
  · have hd := header_of (asked (withBank State.reset b 1 0) 2) b 1 0 (c1 b hb) rfl
    simp [State.usable, hd, us]

/-- The bank with the bundle is a candidate, the empty one is not. -/
theorem bank_candidate (b code seq : Nat) (hc : (b, code, seq) ∈ cases) : (withBank State.reset b code seq).candidate b = true := by
  have h : (withBank State.reset b code seq).header b = fwHeader := header_of _ b code seq hc rfl
  have k : (withBank State.reset b code seq).mfg.signer = fwKey := rfl
  have f : (withBank State.reset b code seq).fw.fused = 4 := rfl
  simp only [State.candidate, h, State.fwSigned, State.usable, k, fwHeader_good, f]
  decide +kernel

/-- A core that a firmware operation waits for: the scheduler core with a STAGE, service core 0 with a started command. -/
def unquiet (s : State) : State :=
  { s with run := { s.run with swap := some ⟨⟨1, 2, 0⟩, 5, 1, false, true, none⟩ }
           shelf := { s.shelf with cmds := [⟨none, 0, 0, 0, 3, none, 0, 0, false, 0, 0, none, true, false⟩] } }

/-- The conditions beside those of the bank, which witness_firmware_switches shows: cores from the abandoned bank, quiet and not. -/
theorem witness_firmware_waits :
    (∀ k ∈ [2, 3], (unquiet State.reset).notQuiet k = true ∧ (unquiet State.reset).switchRefused k = false ∧ k ∈ maskList 21 0x1FFFFF) ∧
    (∀ b ∈ [1, 2],
      let s := booted (asked State.reset 4) (3 - b)
      let s : State := { s with fw := { s.fw with source := [(2, b), (3, b)] } }
      s.bootedBank ≠ some b ∧ (∀ k < 21, Tab.get 0 s.fw.source k = b → s.switchRefused k = false ∧ s.notQuiet k = false ∧ (s.core k).held = true) ∧
        (∀ k < 21, Tab.get 0 s.fw.source k = b → (unquiet s).switchRefused k = false) ∧
        (∃ k < 21, Tab.get 0 s.fw.source k = b ∧ (unquiet s).notQuiet k = true)) := by
  decide +kernel

set_option maxRecDepth 100000 in
theorem appended_attempt : (((withBank State.reset 1 2 0).appendRecord 1 3 0).bankState 1).1 ≠ 4 := by decide +kernel

theorem select_committed (s : State) (h1 : s.candidate 1 = false) (h2 : s.candidate 2 = true) (h : s.bankState 2 = (4, 7)) :
    s.selectBank = (some 2, s) := by
  simp [State.selectBank, List.filter, h1, h2, h]

theorem select_trial (s : State) (h1 : s.candidate 1 = true) (h2 : s.candidate 2 = false) (h : s.bankState 1 = (2, 0)) :
    s.selectBank = (some 1, s.appendRecord 1 3 0) := by
  simp [State.selectBank, List.filter, h1, h2, h]

/-- A boot whose security core does not start ends in step 2. -/
theorem stop_two (s : State) (b : Nat) : s.bootStop b ⟨some 2, [], 0⟩ = some 2 := by
  unfold State.bootStop
  split
  · rfl
  · simp

theorem witness_boot :
    (let s := withBank State.reset 2 4 7
     s.pins.released = true ∧ s.selectBank = (some 2, s) ∧ (∀ k < 7, (s.goodImageOf 2 k).isSome = true) ∧
       s.goodProtect (s.header 2) = true ∧ BootRun.good.failAt = none ∧ s.secState ≠ 2 ∧ s.secState ≠ 4 ∧
       s.bootStop 2 ⟨some 2, [], 0⟩ = some 2 ∧ (s.bankState 2).1 = 4) ∧
    (let s := withBank State.reset 1 2 0
     s.pins.released = true ∧ s.selectBank = (some 1, s.appendRecord 1 3 0) ∧ ((s.appendRecord 1 3 0).bankState 1).1 ≠ 4 ∧
       (s.appendRecord 1 3 0).bootStop 1 ⟨some 2, [], 0⟩ = some 2) ∧
    (State.reset.pins.released = true ∧ State.reset.selectBank.1 = none) := by
  have c2 := bank_candidate 2 4 7 (by decide)
  have c1 := bank_candidate 1 2 0 (by decide)
  have n1 : (withBank State.reset 2 4 7).candidate 1 = false := by decide +kernel
  have n2 : (withBank State.reset 1 2 0).candidate 2 = false := by decide +kernel
  have s2 : ((withBank State.reset 2 4 7).bankState 2) = (4, 7) := states _ 2 4 7 2 (by decide) (by decide) rfl
  have s1 : ((withBank State.reset 1 2 0).bankState 1) = (2, 0) := states _ 1 2 0 1 (by decide) (by decide) rfl
  refine ⟨⟨rfl, select_committed _ n1 c2 s2, bank_images _ 2 (header_of _ 2 4 7 (by decide) rfl) (image_byte _ 2 4 7 (by decide) rfl),
      by rw [header_of _ 2 4 7 (by decide) rfl]; exact good_protect _, rfl, by decide +kernel, by decide +kernel, stop_two _ _, by rw [s2]⟩,
    ⟨rfl, select_trial _ c1 n2 s1, appended_attempt, stop_two _ _⟩, by decide +kernel⟩

/-! ### Witnesses: a checkpoint that is restored -/

/-- The sealed byte of the one shard of a checkpoint, and its manifest: head, zeros and the signature of the binding's key. -/
def ckShard : List Byte := beBytes 17 41305694800968187643109682597024377400703
def ckHead : List Byte :=
  leBytes 16 (0x54534B43 + 2 ^ 32 + 2 ^ 48 + 5 * 2 ^ 64) ++ leBytes 272 (2 ^ 16)
  ++ beBytes 48 10831205034990843833782027712105750522795589159122788663394674075859602373272359921554850215615021489923638833714032
  ++ List.replicate 48 0 ++ leBytes 24 (2 ^ 64 + 0x10000 * 2 ^ 128)
  ++ beBytes 48 12456792546689826904774187182110113651281324879665355293511991880169995793599679213302217677317722915165468444983745
  ++ List.replicate 8 0
def ckBody : List Byte := ckHead ++ List.replicate 64976 0
def ckSig : List Byte :=
  beBytes 96 1034185839481682719866415711672643620493012746459739913350434332196071816455295853885883906658640919608724392493385520488207375006294931667863141069876848236427665337911988762520622521534085055516185248135378957863321744580071529856
def ckMan : List Byte := ckBody ++ ckSig

theorem ckHead_length : ckHead.length = 464 ∧ ckSig.length = 96 ∧ ckShard.length = 17 := by decide +kernel

/-- The hash value after the head's four blocks, and after each part of the zeros. -/
def ckStates : List (List (BitVec 64)) :=
  [[16957821287069802392#64, 12890961410412288041#64, 8782066335132070435#64, 8658577596005850547#64, 9509608748485433728#64,
      2918982639215108049#64, 892701509860558950#64, 6479609063026150913#64],
    [2306077465258724847#64, 4696370242022073768#64, 14729483902717637429#64, 16175167028053442239#64, 13471280467647003512#64,
      13096015150602964023#64, 17718105136499933603#64, 10115577941535394713#64],
    [5989409796083759963#64, 11094408233200811761#64, 1507392967027492582#64, 57721972928859763#64, 2571830578313291051#64,
      16666172787729361421#64, 9256222388344269723#64, 16522728913478431509#64],
    [529498360954642857#64, 7846714116675494531#64, 1259032569902410623#64, 4722792836439019811#64, 14351934836287001003#64,
      2920109188960821610#64, 8381922809472390174#64, 11345121149987782857#64],
    [18260558398677551621#64, 13275097376038603847#64, 1932944892927713681#64, 8115959269764858633#64, 1392514908827422354#64,
      5833385695540411822#64, 15907139418758950276#64, 5090339978101904702#64]]
def ckState (k : Nat) : List (BitVec 64) := ckStates.getD k []

theorem ck_blocks_0 : Laws.Sha.blocks 127 ((ckState 0).map BitVec.toNat) = (ckState 1).map BitVec.toNat := by decide +kernel
theorem ck_blocks_1 : Laws.Sha.blocks 127 ((ckState 1).map BitVec.toNat) = (ckState 2).map BitVec.toNat := by decide +kernel
theorem ck_blocks_2 : Laws.Sha.blocks 127 ((ckState 2).map BitVec.toNat) = (ckState 3).map BitVec.toNat := by decide +kernel
theorem ck_blocks_3 : Laws.Sha.blocks 126 ((ckState 3).map BitVec.toNat) = (ckState 4).map BitVec.toNat := by decide +kernel

/-- What follows the head and the 507 zero blocks: the last zeros, the padding and the length. -/
def ckTail : List Byte := List.replicate 32 0 ++ [0x80] ++ List.replicate 79 0 ++ beBytes 16 (8 * 65440)

theorem ck_head_block (k : Nat) (v : List (BitVec 64)) (a r : List Byte) (h : a.length = 128) :
    Crypto.shaBlocks (k + 1) v (a ++ r) = Crypto.shaBlocks k (Crypto.shaBlock v a) r := by
  rw [Crypto.shaBlocks, List.take_left' h, List.drop_left' h]

theorem ck_head : ∀ r, Crypto.shaBlocks 512 Crypto.shaInit (ckHead ++ List.replicate 48 0 ++ r) = Crypto.shaBlocks 508 (ckState 0) r := by
  intro r
  have c : ckHead ++ List.replicate 48 0 = (ckHead ++ List.replicate 48 0).take 128 ++ (((ckHead ++ List.replicate 48 0).drop 128).take 128
      ++ (((ckHead ++ List.replicate 48 0).drop 256).take 128 ++ (ckHead ++ List.replicate 48 0).drop 384)) := by decide +kernel
  have l : ((ckHead ++ List.replicate 48 0).take 128).length = 128 ∧ (((ckHead ++ List.replicate 48 0).drop 128).take 128).length = 128 ∧
      (((ckHead ++ List.replicate 48 0).drop 256).take 128).length = 128 ∧ ((ckHead ++ List.replicate 48 0).drop 384).length = 128 := by
    decide +kernel
  have e : Crypto.shaBlock (Crypto.shaBlock (Crypto.shaBlock (Crypto.shaBlock Crypto.shaInit ((ckHead ++ List.replicate 48 0).take 128))
      (((ckHead ++ List.replicate 48 0).drop 128).take 128)) (((ckHead ++ List.replicate 48 0).drop 256).take 128))
      ((ckHead ++ List.replicate 48 0).drop 384) = ckState 0 := by decide +kernel
  rw [c]
  simp only [List.append_assoc]
  rw [ck_head_block 511 _ _ _ l.1, ck_head_block 510 _ _ _ l.2.1, ck_head_block 509 _ _ _ l.2.2.1, ck_head_block 508 _ _ _ l.2.2.2, e]

theorem ck_zeros : Crypto.shaBlocks 508 (ckState 0) (List.replicate 64896 0 ++ ckTail) = Crypto.shaBlocks 1 (ckState 4) ckTail := by
  have z : List.replicate 64896 (0 : Byte) ++ ckTail = List.replicate (128 * 127) 0 ++ (List.replicate (128 * 127) 0 ++
      (List.replicate (128 * 127) 0 ++ (List.replicate (128 * 126) 0 ++ ckTail))) := by
    simp only [← List.append_assoc, List.replicate_append_replicate]
  rw [z, show 508 = 127 + 381 from rfl, Laws.Sha.blocks_toNat 127 381 _ (ckState 1) _ rfl ck_blocks_0.symm,
    show 381 = 127 + 254 from rfl, Laws.Sha.blocks_toNat 127 254 _ (ckState 2) _ rfl ck_blocks_1.symm,
    show 254 = 127 + 127 from rfl, Laws.Sha.blocks_toNat 127 127 _ (ckState 3) _ rfl ck_blocks_2.symm]
  exact Laws.Sha.blocks_toNat 126 1 _ (ckState 4) _ rfl ck_blocks_3.symm

theorem ckBody_length : ckBody.length = 65440 := by
  rw [ckBody, List.length_append, ckHead_length.1, List.length_replicate]

theorem ckBody_digest : Crypto.sha384 ckBody =
    beBytes 48 37695671753960793379895727842975522441822986729878233190637670905912547363149485502267029221372995221154761501460928 := by
  have m : ckBody ++ [0x80#8] ++ List.replicate 79 0#8 ++ beBytes 16 (8 * 65440)
      = ckHead ++ List.replicate 48 0 ++ (List.replicate 64896 0 ++ ckTail) := by
    have z : List.replicate 64976 (0 : Byte) = List.replicate 48 0 ++ (List.replicate 64896 0 ++ List.replicate 32 0) := by
      simp only [List.replicate_append_replicate]
    rw [ckBody, z, ckTail]
    simp only [List.append_assoc]
    rfl
  have l : (ckBody ++ [0x80#8] ++ List.replicate 79 0#8 ++ beBytes 16 (8 * 65440)).length / 128 = 512 := by
    have t : (beBytes 16 (8 * 65440)).length = 16 := by simp [beBytes]
    simp only [List.length_append, ckBody_length, List.length_replicate, List.length_singleton, t]
  have p : (128 - (65440 + 17) % 128) % 128 = 79 := by decide
  unfold Crypto.sha384
  simp only [ckBody_length, p]
  rw [l, m, ck_head, ck_zeros]
  decide +kernel

/-- A RESTORE of that checkpoint: partition 0 is LOADED. -/
def ckAsked : State := checkpointState { State.reset with parts := [(0, partState .loaded)] } 2

/-- It has read the manifest. -/
def ckRead : Restore :=
  { op := ⟨1, 2, 0⟩, mask := 1, id := 5, area := 0x10000, rkey := 0, label := (checkpointDesc 2).label, qps := [2047], mismatch := false,
    man := none, shard := 0, todo := [], buf := cells 0 ckMan, wrote := [], items := [], failed := none }

/-- The same, in flight. -/
def ckRestore : State :=
  { ckAsked.setRing 1 2 { ckAsked.ring 1 2 with flight := [⟨0, 0, false, 9, none, 1⟩] } with restores := [ckRead] }

theorem ck_signed : Crypto.ecdsaVerify (Crypto.ecPublic (ckRestore.signScalar binding (checkpointDesc 2).label)) ckBody ckSig = true := by
  have d : ckRestore.signScalar binding (checkpointDesc 2).label
      = 14196434470998503869433486814908427431184302452493760540033991447831389661185326242370835343743864229905678517137021 := by decide +kernel
  rw [d]
  unfold Crypto.ecdsaVerify
  rw [ckBody_digest]
  decide +kernel

theorem ckMan_length : ckMan.length = 65536 := by
  rw [ckMan, List.length_append, ckBody_length, ckHead_length.2.1]

theorem ck_manifest : Memory.read ckRead.buf 0 65536 = ckMan := by
  have h := read_cells ckMan [] 0 (fun k _ => rfl)
  rwa [ckMan_length, List.append_nil] at h

theorem ck_shard : Memory.read (cells 0x10000 ckShard) 0x10000 17 = ckShard := by
  have h := read_cells ckShard [] 0x10000 (fun k _ => rfl)
  rwa [ckHead_length.2.2, List.append_nil] at h

theorem ck_fields : fieldLE ckMan 6 2 = 1 ∧ fieldLE ckMan 0x10 2 = 0 ∧ fieldLE (manifestEntry ckMan 0) 8 8 = 1 ∧
    fieldLE (manifestEntry ckMan 0) 16 8 = 0x10000 ∧ bytesAt (manifestEntry ckMan 0) 24 48 = Crypto.sha384 ckShard ∧ entrySrc 0 (manifestEntry ckMan 0) = .items := by
  decide +kernel

theorem ck_good : ckRestore.manifestFault binding (checkpointDesc 2).label ckMan 5 1 = none := by
  have t : ckMan.take 0xFFA0 = ckBody := List.take_left' ckBody_length
  have u : ckMan.drop 0xFFA0 = ckSig := List.drop_left' ckBody_length
  have h1 : ¬ (fieldLE ckMan 0 4 ≠ 0x54534B43 ∨ fieldLE ckMan 4 2 ≠ 1 ∨ fieldLE ckMan 6 2 = 0 ∨ 800 < fieldLE ckMan 6 2) := by decide +kernel
  have h3 : ¬ (fieldLE ckMan 8 8 ≠ 5 ∨ bytesAt ckMan 0x30 48 ≠ ckRestore.familyHash 1 ∨ bytesAt ckMan 0x60 192 ≠ ckRestore.listHashes 1 ∨
      bytesAt ckMan 0x120 48 ≠ ckRestore.bindingDigest) := by decide +kernel
  have h4 : ¬ ((fieldLE ckMan 0x10 2, fieldLE ckMan 0x12 2) ≠ ckRestore.memberOf ∨
      ¬ (List.range (fieldLE ckMan 6 2)).all (fun j => ckRestore.shardFits 1 (entrySrc j (manifestEntry ckMan j))) = true) := by decide +kernel
  unfold State.manifestFault
  rw [if_neg h1, t, u, ck_signed, if_neg (by simp), if_neg h3, if_neg h4]

theorem ck_opens : openChunks (ckRestore.shardKey binding 5 (fieldLE (checkpointDesc 2).label 24 4)) (shardIv 0 0) (shardAad 5 0) 1 0 1 ckShard
    = some [9] := by
  have k : ckRestore.shardKey binding 5 (fieldLE (checkpointDesc 2).label 24 4)
      = beBytes 32 7784662523550593517038742649507284149836382431620819394683515648482038431335 := by decide +kernel
  rw [k]
  decide +kernel

theorem witness_checkpoint_restore :
    (let d := checkpointDesc 2
     let s := ckAsked
     Starts s 1 2 1 9 d ∧ d.w0 32 3 = 2 ∧ s.bound = true ∧ goodCheckpoint d = true ∧ s.checkLabel 1 [0x0A] d.label = .good ∧
       OwnSet s 1 (d.w0 36 4) ∧ s.takeQps 1 d = some [2047] ∧ s.startedSet (d.w0 36 4) = false ∧ s.restoring (d.w0 36 4) = false ∧
       (∀ p ∈ maskList 4 (d.w0 36 4), (s.part p).state = .loaded) ∧ s.readsInFlight 2047 < 16) ∧
    (let s := ckRestore
     s.outstanding ckRead.op = true ∧ s.sec.record = some binding ∧ ckRead.failed = none ∧ ckRead.todo = [] ∧ ckRead.man = none ∧
       s.reading ckRead = false ∧ s.engineUp = true ∧ ckRead.mismatch = false ∧ s.startPending = false ∧
       (∀ x ∈ [{ ckRead with man := some [], buf := cells 0x10000 ckShard }, { ckRead with buf := [] }], s.outstanding x.op = true ∧ s.reading x = false)) := by
  decide +kernel

theorem witness_restored_manifest :
    ckRead ∈ ckRestore.restores ∧ ckRestore.manifestFault binding ckRead.label (Memory.read ckRead.buf 0 65536) ckRead.id ckRead.mask = none ∧
      ckRead.shard < fieldLE (Memory.read ckRead.buf 0 65536) 6 2 ∧
      ckRestore.manifestFault binding ckRead.label (Memory.read [] 0 65536) ckRead.id ckRead.mask = some Status.badDescriptor := by
  rw [ck_manifest]
  exact ⟨List.mem_singleton.mpr rfl, ck_good, by rw [ck_fields.1]; decide, by decide +kernel⟩

/-- The RESTORE that has read the one shard, or nothing of it. -/
def ckPiece (buf : Memory) : Restore := { ckRead with man := some ckMan, buf := buf }

theorem ck_span : shardSpan ckMan 0 = (0x10000, 17) := by decide +kernel

theorem witness_restored_shard :
    (∃ v, ckRestore.restoreShard 1 (ckRestore.shardKey binding 5 (fieldLE (checkpointDesc 2).label 24 4)) ckMan
      (Memory.read (ckPiece (cells 0x10000 ckShard)).buf (shardSpan ckMan 0).1 (shardSpan ckMan 0).2) 5 0 = some (some v, ckRestore)) ∧
    ckRestore.restoreShard 1 (ckRestore.shardKey binding 5 (fieldLE (checkpointDesc 2).label 24 4)) ckMan
      (Memory.read (ckPiece []).buf (shardSpan ckMan 0).1 (shardSpan ckMan 0).2) 5 0 = none ∧ fieldLE ckMan 6 2 ≤ 0 + 1 := by
  obtain ⟨f1, f2, f3, f4, f5, f6⟩ := ck_fields
  have c : chunksOf 1 = 1 := by decide
  rw [ck_span]
  refine ⟨?_, ?_, by rw [f1]⟩
  · unfold State.restoreShard
    simp only [ckPiece, f2, f3, f5, f6, c]
    rw [ck_shard, if_neg (by simp), ck_opens]
    exact ⟨_, rfl⟩
  · unfold State.restoreShard
    simp only [ckPiece, f5]
    exact if_pos (by decide +kernel)

/-! ### Witnesses: the security core -/

/-- A published device whose function 0 is in D3hot or not. -/
def inD3 (b : Bool) : State :=
  let s : State := { State.reset with host := { State.reset.host with published := true } }
  s.setFn 0 { s.fn 0 with d3hot := b, pmeStatus := b }

/-- The security core runs. -/
def awake (s : State) : State := s.setCore 0 { s.core 0 with held := false }

/-- An operation of SEC_CTRL is asked for in a state of the tenancy. -/
def secAsked (state op : Nat) : State := (State.reset.setFld F.secStatusState state).setRequest 3 op

/-- A debug ticket with every right until second 9 and a signature that the key below accepts. -/
def ticket : List Byte :=
  leBytes 8 (0x47554244 + 2 ^ 32 + 31 * 2 ^ 48) ++ List.replicate 56 0 ++ leBytes 96 9
  ++ beBytes 48 0x4c597e6d00be8ba1da557bed75f96e8ab19eaa570d316db4c0c1dc5b5016392c68bf38f1a23b4f44bd12f8816731ea07
  ++ beBytes 48 0x4c597e6d00be8ba1da557bed75f96e8ab19eaa570d316db4c0c1dc5b5016392c68bf38f1a23b4f44bd12f8816731ea07

/-- Its signing key. -/
def ticketKey : List Byte := [4] ++ beBytes 48 0x788c455431b2d52a73ae745c5b92e0d28e7d008624c7ffa4814e4678afd0ef31dd8cd941fc2df596745364c913b4566f
  ++ beBytes 48 0x6e879e56598c4ddb5c3826e6fb8d10cfed7801c87c59587594c30691a1baaa495cd0259cdca850f513dcff7045baaf9f

theorem ticket_good : Crypto.ecdsaVerify ticketKey (ticket.take 0xA0) (bytesAt ticket 0xA0 96) = true := by decide +kernel

/-- The ticket lies at 0x400 of manager memory. -/
def ticketState : State :=
  let s := ((secAsked 1 4).setFld F.secSrcLoAddr 0x400).setFlag F.timStatusRtcValid true
  { s with mfg := { s.mfg with debugKey := ticketKey }, host := { s.host with mem := cells 0x400 ticket, published := true } }

theorem ticket_read : Memory.read ticketState.host.mem 0x400 256 = ticket := by
  have l : ticket.length = 256 := by decide +kernel
  have h := read_cells ticket [] 0x400 (fun k _ => rfl)
  rwa [l, List.append_nil] at h

theorem ticket_passes (s : State) (t : List Byte) (hs : s.secState = 1)
    (h1 : ¬ (fieldLE t 0 4 ≠ 0x47554244 ∨ fieldLE t 4 2 ≠ 1 ∨ 32 ≤ fieldLE t 6 2))
    (h2 : (bytesAt t 8 32 == s.secNonce && s.flag F.timStatusRtcValid && decide (s.fld F.timRtcSeconds < fieldLE t 0x40 8)) = true)
    (h3 : fieldLE t 0x28 16 = 0 ∧ fieldLE t 0x38 4 = 0) (h4 : Crypto.ecdsaVerify s.mfg.debugKey (t.take 0xA0) (bytesAt t 0xA0 96) = true) :
    s.ticketFault t = none := by
  unfold State.ticketFault
  simp only [if_neg h1, hs]
  exact if_pos ⟨h2, h3.1, h3.2, h4⟩

theorem witness_security_operations :
    (∀ op ∈ [1, 2, 3], ∀ st ∈ [0, 1, 4], (secAsked st op).request 3 = op ∧ (secAsked st op).secState = st) ∧
    (let s := ticketState
     s.request 3 = 4 ∧ s.dmaOk 0 = true ∧
       s.ticketFault (Memory.read s.host.mem (s.fld F.secSrcLoAddr + s.fld F.secSrcHiAddr * 2 ^ 32) 256) = none) ∧
    (let s := ticketState.setHostMem []
     s.request 3 = 4 ∧ s.dmaOk 0 = true ∧
       s.ticketFault (Memory.read s.host.mem (s.fld F.secSrcLoAddr + s.fld F.secSrcHiAddr * 2 ^ 32) 256) = some Status.badDescriptor) ∧
    (∀ b ∈ [false, true], let s := (secAsked 0 5).setFlag F.secStatusDebug b
      s.request 3 = 5 ∧ s.flag F.secStatusDebug = b) ∧
    (∀ n ∈ [0, 1], let s := State.reset.setFlag F.secStatusDebug true
      let s : State := { s with sec := { s.sec with notAfter := n } }
      s.flag F.secStatusDebug = true ∧ (s.sec.notAfter ≤ s.fld F.timRtcSeconds ↔ n = 0)) := by
  refine ⟨by decide +kernel, ⟨by decide +kernel, by decide +kernel, ?_⟩, by decide +kernel, by decide +kernel, by decide +kernel⟩
  have a : ticketState.fld F.secSrcLoAddr + ticketState.fld F.secSrcHiAddr * 2 ^ 32 = 0x400 := by decide +kernel
  rw [a, ticket_read]
  exact ticket_passes _ _ (by decide +kernel) (by decide +kernel) (by decide +kernel) (by decide +kernel) ticket_good

/-- A binding request with nonce 7 and policy 3, signed by a key whose private scalar is 1. -/
def bindRequest : List Byte :=
  leBytes 8 (0x444E4942 + 2 ^ 32 + 3 * 2 ^ 48) ++ beBytes 32 7 ++ beBytes 48 0x2ae0852c1bd41747b4c1ec59af66bcf4da07887afe0585e130c5ebb2c0bccf742a2c0c10f8995e5056a6ea2b9d9f910a
  ++ [4] ++ beBytes 48 Crypto.g384.1 ++ beBytes 48 Crypto.g384.2 ++ List.replicate 71 0
  ++ beBytes 48 0x8d999057ba3d2d969260045c55b97f089025959a6f434d651d207d19fb96e9e4fe0e86ebe0e64f85b96a9c75295df61
  ++ beBytes 48 0x24532f65c30ee4664de602979d011b7d5fca4e694fa85829040a1484f3a4bd6d8057db171dc26ba7885599b6b06f04e5

/-- The signature of an unbind with that nonce by that key. -/
def unbindSig : List Byte := beBytes 48 0x8d999057ba3d2d969260045c55b97f089025959a6f434d651d207d19fb96e9e4fe0e86ebe0e64f85b96a9c75295df61
  ++ beBytes 48 0xfdcd803cc1af535e67723987dd867e895b2989310bc8156c6ea715537b2a079211252e445666223161d0e8228bad7a2a

/-- The same binding, with the key alone. -/
def boundRecord : BindRec := ⟨List.replicate 0x58 0 ++ [4] ++ beBytes 48 Crypto.g384.1 ++ beBytes 48 Crypto.g384.2, [], 1⟩

/-- Session 3 on function 0 is established, with a nonce. -/
def inTalk (st : Nat) : State :=
  ({ awake (inD3 false) with sec := { Sec.init with record := some boundRecord } }.setFld F.secStatusState st).setSession 3
    ⟨true, true, 0, some (beBytes 32 7)⟩

theorem bind_signed : Crypto.ecdsaVerify (BindRec.tenantKey ⟨bindRequest, [], 0⟩) (bindRequest.take 256) (bytesAt bindRequest 256 96) = true := by
  decide +kernel

theorem unbind_signed : Crypto.ecdsaVerify boundRecord.tenantKey (beBytes 32 7 ++ boundRecord.tenantId) unbindSig = true := by
  decide +kernel

theorem bind_passes (s : State) (n : List Byte) (q : List Byte) (h1 : s.secState = 1)
    (h2 : ¬ (q.length ≠ 352 ∨ fieldLE q 0 4 ≠ 0x444E4942 ∨ fieldLE q 0xB9 7 ≠ 0 ∨ fieldLE q 0xE0 32 ≠ 0 ∨ 4 ≤ BindRec.policy ⟨q, [], 0⟩))
    (h3 : fieldLE q 4 2 = 1) (h4 : n = bytesAt q 8 32 ∧ bytesAt q 0x28 48 = Crypto.sha384 s.mfg.deviceKey)
    (h5 : Crypto.ecdsaVerify (BindRec.tenantKey ⟨q, [], 0⟩) (q.take 256) (bytesAt q 256 96) = true) (h6 : s.mfg.bindings < 4096) :
    s.bindFault (some n) q = none := by
  unfold State.bindFault
  simp only [ne_eq, h1, h3, h4, h5, not_true_eq_false, or_self, if_false, if_neg h2]
  exact if_neg (by omega)

theorem witness_binding_and_unbinding :
    (let s := inTalk 1
     let x := s.session 3
     s.host.published = true ∧ s.spdmUp x.fn = true ∧ x.established = true ∧ s.bindFault x.nonce bindRequest = none ∧
       s.bindFault x.nonce (bindRequest.set 6 4) = some Status.badDescriptor ∧
       s.unbindFault x unbindSig (beBytes 32 7) = some Status.badDescriptor) ∧
    (∀ st ∈ [2, 3], let s := inTalk st
     s.host.published = true ∧ s.spdmUp (s.session 3).fn = true ∧ (s.session 3).established = true ∧ s.unbindFault (s.session 3) unbindSig (beBytes 32 7) = none) ∧
    (∀ st ∈ [2, 3], (secAsked st 3).request 3 = 3 ∧ (secAsked st 3).secState = st) := by
  refine ⟨⟨rfl, by decide +kernel, by decide +kernel, ?_, by decide +kernel, by decide +kernel⟩, fun st hst => ⟨rfl, ?_, ?_, ?_⟩, by decide +kernel⟩
  · have x : ((inTalk 1).session 3).nonce = some (beBytes 32 7) := by decide +kernel
    simp only [x]
    exact bind_passes (inTalk 1) (beBytes 32 7) bindRequest (by decide +kernel) (by decide +kernel) (by decide +kernel) (by decide +kernel) bind_signed (by decide +kernel)
  · have h : ∀ st ∈ [2, 3], (inTalk st).spdmUp ((inTalk st).session 3).fn = true := by decide +kernel
    exact h st hst
  · have h : ∀ st ∈ [2, 3], ((inTalk st).session 3).established = true := by decide +kernel
    exact h st hst
  · have h := unbind_signed
    have q : ∀ st ∈ [2, 3], (inTalk st).tenantRecord = some boundRecord ∧ ((inTalk st).secState = 2 ∨ (inTalk st).secState = 3) ∧
        ((inTalk st).session 3).nonce = some (beBytes 32 7) := by decide +kernel
    obtain ⟨q1, q2, q3⟩ := q st hst
    unfold State.unbindFault
    simp only [q1]
    rw [if_neg (by omega), if_pos ⟨q3, h⟩]

/-- Function 63 exists and has negotiated up to a point; n of the four sessions are open. -/
def talking (x : Negotiated) (n : Nat) : State :=
  let s := awake (ringOn State.reset 63 0 1 (desc []))
  let s := s.setNegotiated 63 x
  (List.range n).foldl (fun s k => s.setSession k ⟨true, false, 63, none⟩) s

/-- It serves without an image. -/
def imageLessOne : State := { inD3 false with host := { (inD3 false).host with imageless := true } }

theorem witness_spdm_responder :
    (∀ x ∈ [Negotiated.none, .version, .caps, .algos], (talking x 0).host.published = true ∧ (talking x 0).host.imageless = false ∧ (talking x 0).spdmUp 63 = true ∧ (talking x 0).negotiated 63 = x) ∧
    (let s := talking .algos 3
     (s.session 3).opened = false ∧ ∀ m, m < 3 → (s.session m).opened = true) ∧
    (∀ m, m < 4 → ((talking .algos 4).session m).opened = true) ∧
    (∀ b ∈ [false, true], let s := (talking .algos 0).setSession 3 ⟨true, b, 63, none⟩
      s.host.published = true ∧ s.host.imageless = false ∧ s.spdmUp (s.session 3).fn = true ∧ (s.session 3).opened = true ∧ (s.session 3).established = b) ∧
    ((inD3 false).host.published = true ∧ (inD3 false).spdmUp 63 = false) ∧ State.reset.host.published = false ∧ (imageLessOne).host.imageless = true ∧ imageLessOne.host.published = true := by
  decide +kernel

/-! ### Witnesses: functions, power states and pins -/

theorem witness_functions_and_power_states :
    (let s := inD3 false
     s.host.published = true ∧ s.host.imageless = false ∧ s.host.vfEnable = false ∧ s.evtRing 0 = none ∧ (s.fn 0).d3hot = false) ∧
    (let s := { inD3 false with host := { (inD3 false).host with vfEnable := true } }
     s.host.published = true ∧ s.host.vfEnable = true) ∧
    (∀ i ∈ [1, 63], (open_ i).host.published = true ∧ (open_ i).insState i ≠ 0 ∧ (open_ i).fnThere i = true ∧ (open_ i).host.imageless = false) ∧
    State.reset.host.published = false ∧
    (((inD3 true).fn 0).d3hot = true ∧ (inD3 true).mayLower = true ∧ ((inD3 true).fn 0).pmeStatus = true) := by
  decide +kernel

/-- No vector of that device has a message that waits. -/
theorem witness_quiet : ∀ j v, (Tab.get MsixEntry.init ((inD3 true).fn j).msix v).pending = false := by
  intro j v
  by_cases h : j = 0
  · subst h; rfl
  · have e : Tab.get Fn.init State.reset.host.fns j = Fn.init := if_neg h
    unfold inD3 State.setFn State.fn
    simp only
    rw [Tab.get_set_ne _ _ _ h, e]
    rfl

/-- The pins of the module. -/
def pinned (perst aux p54v tripped : Bool) : State :=
  { State.reset with pins := { State.reset.pins with perst := perst, aux := aux, p54v := p54v, tripped := tripped } }

theorem witness_pins_supplies_and_thermal_trip :
    (∀ p ∈ [false, true], ∀ t ∈ [false, true], (pinned p true true t).pins.perst = p ∧ (pinned p true true t).railsGood = !t ∧
      (pinned p true true t).pins.p54v = true ∧ (pinned p true true t).rcv.levels = []) ∧
    ((pinned true false true false).pins.aux = false ∧ (pinned true true false true).pins.p54v = false ∧ (pinned true true true false).pins.aux = true) ∧
    (16 : BitVec 5).toNat ≤ 16 ∧ 16 < (17 : BitVec 5).toNat ∧ State.reset.railsGood = true := by
  decide +kernel

/-! ### Witnesses: the shelf -/

/-- An operation of SHF_CTRL is asked for namespace 255, of which function 63 has none, and which has a size. -/
def shelfAsked (op size : Nat) : State :=
  let s := ((State.reset.setRequest 6 op).setFld F.shfCtrlNs 255).setFld F.shfArgSizeGib 49152
  let s := s.setFld F.secStatusState 3
  { s with shelf := { s.shelf with size := (if size = 0 then [] else [(255, size)]), askNs := 255, askSize := 49152 } }

/-- The shelf with a namespace that formats, a sanitize that runs, and n channels in service. -/
def formatting (b : Bool) (n : Nat) : State :=
  let s := (List.range n).foldl (fun (s : State) c => s.setFlag (F.shfChanInService c) true) (State.reset.setFlag F.shfSanitizeActive b)
  let s := s.setFld F.shfStatusState (if b then 3 else 0)
  { s with shelf := { s.shelf with formatting := [255] } }

/-- A started READ of the last 1,024 blocks of namespace 255. -/
def shelfCmd (opcode count : Nat) (devmem : Bool) (label : Option (List Byte)) : ShelfCmd :=
  { op := some ⟨63, 9, 0⟩, q := 1023, slot := 4095, tag := 7, opcode := opcode, ns := some 255, lba := 262144 - count, count := count
    devmem := devmem, addr := if devmem then 2 ^ 44 else 0x100000000, nonce := 5, label := label, started := true, old := false }

theorem witness_namespaces_sanitize_and_channels :
    (let s := shelfAsked 1 0
     s.request 6 = 1 ∧ s.bound = true ∧ s.fld F.shfStatusState ≠ 2 ∧ s.nsSize s.shelf.askNs = 0 ∧ s.shelf.askSize ≠ 0 ∧
       (s.shelf.size.map Prod.snd).foldl (· + ·) 0 + s.shelf.askSize ≤ 49152 ∧ s.flag F.shfSanitizeActive = false) ∧
    (∀ op ∈ [2, 3], (shelfAsked op 1).request 6 = op ∧ (shelfAsked op 1).nsSize (shelfAsked op 1).shelf.askNs ≠ 0 ∧
      ((shelfAsked op 1).holderOf 0 255).isNone = true) ∧
    ((shelfAsked 2 0).request 6 = 2 ∧ (shelfAsked 2 0).nsSize (shelfAsked 2 0).shelf.askNs = 0) ∧
    (formatting false 0).shelf.formatting.contains (255 : BitVec 8).toNat = true ∧
    (∀ n ∈ [15, 16], (formatting true n).flag F.shfSanitizeActive = true ∧ (formatting true n).chans ≠ [] ∧
      (formatting true n).fld F.shfStatusState = 3 ∧ 15 ≤ (formatting true n).chans.length) ∧
    (∀ b, (State.reset.setFlag F.shfStatusRebuild b).flag F.shfStatusRebuild = b) ∧
    ((shelfAsked 4 0).request 6 = 4 ∧ (shelfAsked 4 0).shelf.size = [] ∧ (shelfAsked 4 0).flag F.shfSanitizeActive = false) ∧
    (State.reset.setFlag (F.shfChanInService 15) true).flag (F.shfChanInService (15 : ChanId)) = true ∧
    (let s := { State.reset.setFld F.shfPwrMax 3 with now := 1000000000000 }
     2 ≤ s.fld F.shfPwrMax ∧ s.flag F.pwrStatusShelfHeld = false ∧ s.shelf.cmds = [] ∧ s.shelf.formatting = [] ∧ s.flag F.shfSanitizeActive = false ∧
       s.shelf.lastCmd + s.fld F.shfPwrIdleMs * 1000000 ≤ s.now) ∧
    (let s := { State.reset with shelf := { State.reset.shelf with cmds := [shelfCmd 1 1024 false none] } }
     s.shelf.cmds ≠ []) ∧ (State.reset.setFlag F.pwrStatusShelfHeld true).flag F.pwrStatusShelfHeld = true := by
  decide +kernel

/-- A descriptor of store queue pair 1023: local namespace 63, the last count blocks of one GiB. -/
def shelfDesc (opcode count : Nat) : Desc :=
  desc ([(0, 1, opcode), (4, 2, 65535), (6, 1, 63)] ++
    (if opcode = 3 ∨ opcode = 5 then [] else [(8, 8, 262144 - count + (count - 1) * 2 ^ 40)]) ++
    (if opcode = 1 ∨ opcode = 2 then [(16, 8, 0x100000)] else []))

/-- Instance 63 has namespace 255 as local 63 and store queue pair 1023 as ring 9, whose next descriptor is d. -/
def shelfOn (d : Desc) : State :=
  let s := ringOn State.reset 63 9 2 d
  let s := s.setFn 63 { s.fn 63 with grants := [⟨0, 255, 63⟩, ⟨1, 1023, 9⟩] }
  { s with shelf := { s.shelf with size := [(255, 1)], expected := [(1023, 65535)] } }

theorem witness_shelf_commands_are_accepted :
    (∀ op ∈ [1, 2, 3, 4, 5],
      let d := shelfDesc op 1024
      let s := shelfOn d
      let c := s.shelfCmd 63 (some ⟨63, 9, d.num⟩) 1023 0 d
      s.shelfNext = some 1023 ∧ bitOf s.fw.hold 3 = false ∧ s.sqpRing 1023 = some (63, 9) ∧ s.next? 63 9 2 op = some d ∧ d.num % s.ringSize 63 9 = 0 ∧
        d.w0 32 16 = Tab.get 0 s.shelf.expected 1023 ∧ s.rcv.fencedForGood = false ∧ s.rcv.engineFenced 2 = false ∧ s.bound = true ∧
        goodShelf false d = true ∧ c.label = none ∧ c.ns = some 255 ∧ (c.ranged = true → c.lba + c.count ≤ s.nsSize 255 * 262144) ∧
        s.fld F.shfStatusState = 0 ∧ c.devmem = false ∧ s.shelf.cmds.all (fun e => e.started) = true) ∧
    (∀ op ∈ [1, 2, 3, 4, 5], (shelfOn (shelfDesc op 1024)).rma.qps = []) ∧
    (let d := shelfDesc 2 1
     let s := shelfOn d
     let s := { s with shelf := { s.shelf with expected := [(1023, 65534)] } }
     let e := Tab.get 0 s.shelf.expected 1023
     s.shelfNext = some 1023 ∧ s.sqpRing 1023 = some (63, 9) ∧ s.next? 63 9 2 2 = some d ∧ d.w0 32 16 ≠ e ∧ 32768 ≤ (e + 2 * 65536 - 1 - d.w0 32 16) % 65536) ∧
    (let a := shelfCmd 2 1024 false none
     let b := shelfCmd 1 1 false none
     a.ranged = true ∧ b.ranged = true ∧ a.ns = b.ns ∧ a.writes = true ∧ a.lba < b.lba + b.count ∧ b.lba < a.lba + a.count ∧
       (shelfCmd 3 1 false none).q = a.q ∧ a.writes = true) := by
  decide +kernel

/-- Without a peer's attachment no store queue pair is attached. -/
theorem no_attach (s : State) (h : s.rma.qps = []) : (∀ n, (s.qp n).attach = none) ∧ ∀ q, s.attachOf q = none := by
  have a : ∀ n, (s.qp n).attach = none := fun n => by simp [State.qp, h, Tab.get, Qp.init]
  refine ⟨a, fun q => ?_⟩
  unfold State.attachOf
  apply List.findSome?_eq_none_iff.mpr
  intro n _
  have := a n
  unfold State.qp at this
  simp only [this]

/-- Command c of store queue pair 1023 is under way, and function 63 owns what it names. -/
def shelfDone (c : ShelfCmd) : State :=
  let s := ringOn { State.reset with parts := [(0, { partState .loaded with owner := some 63 })] } 63 9 2 (desc [])
  let s := s.setFn 63 { s.fn 63 with grants := [⟨0, 255, 63⟩, ⟨1, 1023, 9⟩] }
  let s := s.setMemUnit 0 { MemUnit.init with gran := [(0, ⟨some 0, false, 0, 0, false⟩)] }
  let s := s.setFlag (F.vlyStateIsolated 36) false
  { s with shelf := { s.shelf with size := [(255, 1)], cmds := [c] }, sec := { Sec.init with record := some binding } }

/-- A label of purpose 0x06 of instance 63. -/
def shelfLabel : List Byte := mkLabel binding.tenantId 63 0x06 1 0 0

theorem witness_shelf_commands_complete :
    (∀ c ∈ [shelfCmd 1 1024 false none, shelfCmd 1 1 false (some shelfLabel), shelfCmd 2 1024 false none, shelfCmd 2 1 false (some shelfLabel),
        shelfCmd 1 1 true none, shelfCmd 2 1 true none, shelfCmd 4 1024 false none, shelfCmd 3 1 false none, shelfCmd 5 1 false none],
      let s := shelfDone c
      s.shelf.cmds.find? (fun c => c.q == ((1023 : SqpId) : Nat) && c.slot == (4095 : BitVec 12).toNat && c.started) = some c ∧
        c.old = false ∧ s.cutOff (Via.cipher true).gates = none ∧
        s.dmaOk ((s.holderOf 1 c.q).getD 0) = true ∧ s.engineUp = true ∧ c.ns = some 255 ∧ c.lba + c.count ≤ 2 ^ 40 ∧
        s.sec.record = some binding ∧ s.shelfServes c.opcode = none ∧ s.shelf.noRoom 255 c.lba c.count = false ∧
        ∀ j, j < c.count → s.shelf.blockLost s.chans (blockKey 255 (c.lba + j)) = false) ∧
    (∀ op ∈ [1, 2],
      let c := shelfCmd op 1 false none
      ((shelfDone c).setFlag (F.vlyStateIsolated 36) true).cutOff (Via.cipher true).gates ≠ none ∧
        ({ c with old := true } : ShelfCmd) ∈ (shelfDone { c with old := true }).shelf.cmds) ∧
    (let c := shelfCmd 1 1 false none
     let s := shelfDone c
     let s : State := { s with shelf := { s.shelf with page := [(blockKey 255 c.lba, 4)], unread := [3, 4] } }
     s.shelf.blockLost s.chans (blockKey 255 (c.lba + 0)) = true) ∧
    (let c := shelfCmd 2 1 true none
     (shelfDone c).mayReach (.inst 63) false 0 0 = true ∧ ((shelfDone c).asBefore.devRead (.cipher true) (.inst (((shelfDone c).holderOf 1 c.q).getD 0)) c.addr 4096).2.1.integrity = false) := by
  decide +kernel

/-- A shelf that holds more than its user capacity has no room for another block. -/
theorem witness_no_room (s : State) (lba : Nat) :
    ({ s.shelf with blocks := List.replicate (userBlocks + 1) (0, [1]) } : Shelf).noRoom 255 lba 1 = true := by
  simp only [Shelf.noRoom, List.length_replicate]
  exact decide_eq_true (by omega)

theorem gf_zero (n : Nat) (y z : BitVec 128) : Crypto.gfMulFrom n 0 y z = z := by
  induction n generalizing y z with
  | zero => rfl
  | succ n ih =>
    rw [Crypto.gfMulFrom]
    have h : ((0 : BitVec 128) >>> 1 ^^^ (if (0 : BitVec 128).getLsbD 0 then 0xE1000000000000000000000000000000#128 else 0)) = 0 := by decide
    rw [h, ih]
    split <;> simp

theorem ghash_zeros (h : BitVec 128) (n k : Nat) (r : List Byte) :
    Crypto.ghashBlocks h (n + k) 0 (List.replicate (16 * n) 0 ++ r) = Crypto.ghashBlocks h k 0 r := by
  induction n with
  | zero => simp
  | succ n ih =>
    have e : List.replicate (16 * (n + 1)) (0 : Byte) ++ r = List.replicate 16 0 ++ (List.replicate (16 * n) 0 ++ r) := by
      rw [← List.append_assoc, List.replicate_append_replicate]
      congr 2
      omega
    have b : beNat (List.replicate 16 (0 : Byte)) = 0 := by decide
    have l : (List.replicate 16 (0 : Byte)).length = 16 := List.length_replicate
    rw [show n + 1 + k = (n + k) + 1 by omega, Crypto.ghashBlocks, e, List.take_left' l, List.drop_left' l, b]
    have g : Crypto.gfMul (0 ^^^ BitVec.ofNat 128 0) h = 0 := gf_zero 128 h 0
    rw [g]
    exact ih

/-- The tag of a block of zeros with 8 zero bytes of additional data. -/
theorem zero_tag (key iv : List Byte) :
    Crypto.gcmTag key iv (List.replicate 8 0) (List.replicate 4096 0) =
      List.zipWith (· ^^^ ·) (beBytes 16 (Crypto.ghashBlocks (BitVec.ofNat 128 (beNat (Crypto.aesEncrypt key (List.replicate 16 0)))) 1 0
        (beBytes 8 64 ++ beBytes 8 32768)).toNat) (Crypto.aesEncrypt key (iv ++ beBytes 4 1)) := by
  have z : ∀ n, 16 ∣ n → Crypto.padBlocks (List.replicate n 0) = List.replicate n 0 := by
    intro n hn
    have e : (16 - n % 16) % 16 = 0 := by omega
    simp only [Crypto.padBlocks, List.length_replicate, e, List.replicate_zero, List.append_nil]
  have p8 : Crypto.padBlocks (List.replicate 8 0) = List.replicate 16 0 := by decide
  have m : Crypto.padBlocks (List.replicate 8 0) ++ Crypto.padBlocks (List.replicate 4096 0) ++ beBytes 8 (8 * (List.replicate 8 (0 : Byte)).length)
      ++ beBytes 8 (8 * (List.replicate 4096 (0 : Byte)).length) = List.replicate (16 * 257) 0 ++ (beBytes 8 64 ++ beBytes 8 32768) := by
    rw [p8, z 4096 (by omega), List.length_replicate, List.length_replicate, List.replicate_append_replicate, List.append_assoc]
  have l : (List.replicate (16 * 257) (0 : Byte) ++ (beBytes 8 64 ++ beBytes 8 32768)).length / 16 = 257 + 1 := by
    rw [List.length_append, List.length_replicate]
    decide +kernel
  have g : ∀ h : BitVec 128, Crypto.ghash h (List.replicate 8 0) (List.replicate 4096 0) = Crypto.ghashBlocks h 1 0 (beBytes 8 64 ++ beBytes 8 32768) := by
    intro h
    rw [← ghash_zeros h 257 1]
    unfold Crypto.ghash
    rw [m]
    show Crypto.ghashBlocks h (_ / 16) 0 _ = _
    rw [l]
  unfold Crypto.gcmTag
  simp only [g]

/-- A sealed WRITE of block 0 with a block of zeros and some tag at 0x100000000. -/
def sealedWrite (tag : Nat) : State :=
  (shelfDone { shelfCmd 2 1 false (some shelfLabel) with lba := 0 }).setHostMem (cells 0x100001000 (beBytes 16 tag))

theorem sealed_memory (tag : Nat) : Memory.read (sealedWrite tag).host.mem 0x100000000 4096 = List.replicate 4096 0 ∧
    Memory.read (sealedWrite tag).host.mem 0x100001000 16 = beBytes 16 tag := by
  have e : (sealedWrite tag).host.mem = cells 0x100001000 (beBytes 16 tag) ++ [] := (List.append_nil _).symm
  have l : (beBytes 16 tag).length = 16 := by simp [beBytes]
  rw [e]
  constructor
  · rw [read_cells_out _ _ _ _ _ (.inl (by decide +kernel))]
    apply List.ext_getElem (by rw [Memory.length_read, List.length_replicate])
    intro i h1 h2
    rw [Memory.getElem_read, List.getElem_replicate]
    rfl
  · have h := read_cells (beBytes 16 tag) [] 0x100001000 (fun k _ => rfl)
    rwa [l] at h

/-- The key of the label, and the tag that it gives. -/
theorem shelf_key (tag : Nat) : (sealedWrite tag).workingKey binding shelfLabel = beBytes 32 14740865786844489628289090345806892771446274290786661083692323190727922978203 := by
  have h : State.reset.workingKey binding shelfLabel = beBytes 32 14740865786844489628289090345806892771446274290786661083692323190727922978203 := by decide +kernel
  exact h

theorem shelf_tag : Crypto.gcmTag (beBytes 32 14740865786844489628289090345806892771446274290786661083692323190727922978203) (shelfIv 5 0) (leBytes 8 0) (List.replicate 4096 0) = beBytes 16 168814787623102986449683339945733937233 := by
  have z : leBytes 8 0 = List.replicate 8 0 := by decide
  rw [z, zero_tag]
  decide +kernel

theorem witness_sealed_write :
    (Crypto.gcmOpen ((sealedWrite 168814787623102986449683339945733937233).workingKey binding shelfLabel) (shelfIv 5 0) (leBytes 8 0)
      (Memory.read (sealedWrite 168814787623102986449683339945733937233).host.mem 0x100000000 4096) (Memory.read (sealedWrite 168814787623102986449683339945733937233).host.mem 0x100001000 16)).isSome = true ∧
    (Crypto.gcmOpen ((sealedWrite 0).workingKey binding shelfLabel) (shelfIv 5 0) (leBytes 8 0)
      (Memory.read (sealedWrite 0).host.mem 0x100000000 4096) (Memory.read (sealedWrite 0).host.mem 0x100001000 16)) = none := by
  have n : beBytes 16 168814787623102986449683339945733937233 ≠ beBytes 16 0 := by decide +kernel
  constructor
  · rw [(sealed_memory _).1, (sealed_memory _).2, shelf_key, Crypto.gcmOpen, shelf_tag, if_pos rfl, Option.isSome_some]
  · rw [(sealed_memory _).1, (sealed_memory _).2, shelf_key, Crypto.gcmOpen, shelf_tag, if_neg n]

/-! ### Witnesses: Ethernet -/

/-- The frames of the tests: EtherType v and n bytes that follow the header. -/
def frameOf (ty : Nat) (rest : List Byte) (n : Nat) : List Byte := List.replicate 12 0 ++ beBytes 2 ty ++ rest ++ List.replicate (n - 14 - rest.length) 0

/-- An IPv4 header with a protocol and a payload of n bytes, from and to address 0. -/
def ip4Header (proto n : Nat) : List Byte := [0x45, 0] ++ beBytes 2 (20 + n) ++ [0, 0, 0, 0, 64] ++ beBytes 1 proto ++ List.replicate 10 0

/-- A rule set of one rule, which matches every frame and sends it to queue 511. -/
def allTo511 : List Byte :=
  beBytes 4 0x524C4553 ++ [1, 0] ++ List.replicate 0x23A 0 ++ List.replicate 0x32 0 ++ [1, 0] ++ leBytes 2 511 ++ List.replicate 10 0

/-- Port 1 is up; function 63 has Ethernet queue 511 as local 4, with transmit ring 8 and receive ring 9. -/
def netOn (kind r : Nat) (d : Desc) : State :=
  let s := ringOn State.reset 63 r kind d
  let s := s.setFn 63 { s.fn 63 with grants := [⟨3, 511, 4⟩, ⟨4, 255, 7⟩] }
  let s := (s.setFlag (F.ethPortStatusUp 1) true).setFld (F.ethQmapPort 511) 1
  let s := (s.setFld (F.ethPortCfgMaxFrame 1) 9216).setPort 1 { s.port 1 with rules := allTo511 }
  let s := s.setCore 4 { s.core 4 with held := false }
  { s with sec := { Sec.init with record := some binding } }

/-- The same with a receive buffer in ring 9. -/
def netBuf : State :=
  let s := netOn 4 9 (desc [])
  s.setRing 63 9 { s.ring 63 9 with bufs := [⟨0, false, 0x8000, 256⟩] }

/-- A UDP frame of 60 bytes. -/
def udpFrame : List Byte := frameOf 0x0800 (ip4Header 17 26 ++ beBytes 8 (0x1234123400000000 + 26 * 2 ^ 16)) 60

/-- A rule set of one rule, which matches every frame, with an action. -/
def allFor (action : Nat) : List Byte :=
  beBytes 4 0x524C4553 ++ [1, 0] ++ List.replicate 0x23A 0 ++ List.replicate 0x32 0 ++ beBytes 1 action ++ List.replicate 13 0

/-- A message of IEEE 1588 of a type and a domain, and its frame. -/
def ptpMsg (type domain : Nat) : List Byte := beBytes 1 type ++ [2, 0, 64] ++ beBytes 1 domain ++ List.replicate 42 0 ++ List.replicate 17 9
def ptpFrame (type domain : Nat) : List Byte := frameOf 0x88F7 (ptpMsg type domain) 78

/-- Port 1 hands frames to a unit; the device is an ordinary clock of domain 255 that listens on port 1. -/
def handing (action : Nat) : State :=
  let s := ((netBuf.setFld F.timCfgRole 1).setFld F.timCfgPrio0 2).setFld F.timCfgDomain 255
  s.setPort 1 { s.port 1 with rules := allFor action }

theorem witness_frames_handed_over :
    (∀ x ∈ [(3, frameOf 0x0800 (ip4Header 17 26 ++ beBytes 8 (0x12B7 * 2 ^ 32 + 26 * 2 ^ 16)) 60), (3, udpFrame), (4, udpFrame),
        (4, ptpFrame 0 255), (4, ptpFrame 11 255), (4, ptpFrame 0 254)],
      let s := handing x.1
      let f := x.2
      let h := parseFrame f
      s.portUp 1 = true ∧ ¬ (f.length + 4 < 64 ∨ s.fld (F.ethPortCfgMaxFrame 1) < f.length + 4) ∧ isPause f = false ∧ h.slow = false ∧
        0 < ruleCount (s.port 1).rules ∧ ruleMatches (s.port 1).rules f h (ruleAt (s.port 1).rules 0) = true ∧
        (let q := ruleAt (s.port 1).rules 0
         fieldLE q 0x32 1 = x.1 ∧ fieldLE q 0x33 1 = 0)) ∧
    (let h := parseFrame (frameOf 0x0800 (ip4Header 17 26 ++ beBytes 8 (0x12B7 * 2 ^ 32 + 26 * 2 ^ 16)) 60)
     h.proto = 17 ∧ h.ports.map Prod.snd = some 4791) ∧
    (parseFrame udpFrame).ports.map Prod.snd ≠ some 4791 ∧ ptpOf udpFrame = none ∧
    (∀ ty ∈ [0, 11], ptpOf (ptpFrame ty 255) = some (ptpMsg ty 255) ∧ ptpType (ptpMsg ty 255) = ty ∧
      (handing 4).pins.aux = true ∧ (handing 4).sourceOn (ptpCode 1) = true ∧ ptpDomain (ptpMsg ty 255) = (handing 4).fld F.timCfgDomain) ∧
    (ptpOf (ptpFrame 0 254) = some (ptpMsg 0 254) ∧ ptpDomain (ptpMsg 0 254) ≠ (handing 4).fld F.timCfgDomain) := by
  decide +kernel

theorem witness_frames_received :
    (let s := netBuf
     let f := udpFrame
     let h := parseFrame f
     s.portUp 1 = true ∧ ¬ (f.length + 4 < 64 ∨ s.fld (F.ethPortCfgMaxFrame 1) < f.length + 4) ∧ isPause f = false ∧ h.slow = false ∧
       0 < ruleCount (s.port 1).rules ∧ ruleMatches (s.port 1).rules f h (ruleAt (s.port 1).rules 0) = true ∧
       (let q := ruleAt (s.port 1).rules 0
        fieldLE q 0x34 2 = 511 ∧ fieldLE q 0x32 1 = 1 ∧ fieldLE q 0x33 1 = 0) ∧
       s.ethRing 511 4 = some (63, 9) ∧ (s.ring 63 9).bufs = [⟨0, false, 0x8000, 256⟩] ∧ f.length ≤ 256 ∧ s.dmaOk 63 = true) ∧
    (let s := State.reset.setPort 1 { Port.init with rules := allTo511 }
     s.ethRing 511 4 = none) ∧
    (let s := State.reset
     s.portUp 1 = false ∧ ruleCount (s.port 1).rules = 0 ∧ fieldLE (s.port 1).rules 6 1 ≠ 2) ∧
    (udpFrame.dropLast.length + 4 < 64) ∧
    (isPause (frameOf 0x8808 [0, 1] 60) = true ∧ (frameOf 0x8808 [0, 1] 60).length + 4 = 64) ∧
    (isPause (frameOf 0x0806 [] 60) = false ∧ (parseFrame (frameOf 0x0806 [] 60)).slow = true) ∧
    (List.replicate 4096 udpFrame).length = 4096 ∧ (netBuf.port 1).slow.length < 4096 := by
  decide +kernel

/-- An ARP request, an echo request and a neighbour solicitation for address 0, and a frame that is none of them. -/
def slowFrames : List (List Byte) :=
  [frameOf 0x0806 (beBytes 4 0x00010800 ++ beBytes 4 0x06040001) 60, frameOf 0x0800 (ip4Header 1 26 ++ [8]) 60,
    frameOf 0x86DD (beBytes 8 0x60000000002C3AFF ++ List.replicate 32 0 ++ [135]) 98, frameOf 0x1234 [] 60]

/-- POST of a buffer of 64 KiB. -/
def postDesc (a : Nat) : Desc := desc [(0, 1, 1), (8, 8, a), (16, 4, 65536)]

theorem witness_slow_path_and_receive_buffers :
    (∀ k ∈ List.range 4,
      let f := slowFrames.getD k []
      let s := netBuf.setPort 1 { Port.init with slow := [f] }
      let h := parseFrame f
      (s.port 1).slow = [f] ∧ (s.core 4).alive = true ∧ s.portUp 1 = true ∧
        (arpReply f h (s.macOf 1) (s.ip4Of 1)).isSome = (k == 0) ∧ (echo4 f h (s.macOf 1) (s.ip4Of 1)).isSome = (k == 1) ∧
        (answer6 f h (s.macOf 1) (s.ip6Of 1)).isSome = (k == 2) ∧ arpAnswer f h = none ∧ ndAnswer f h = none) ∧
    (let f := frameOf 0x0806 (beBytes 4 0x00010800 ++ beBytes 4 0x06040002) 60
     let s := netBuf.setPort 1 { Port.init with slow := [f] }
     let h := parseFrame f
     arpReply f h (s.macOf 1) (s.ip4Of 1) = none ∧ echo4 f h (s.macOf 1) (s.ip4Of 1) = none ∧ answer6 f h (s.macOf 1) (s.ip6Of 1) = none ∧
       arpAnswer f h = some (List.replicate 6 0, List.replicate 4 0) ∧ ∀ n ∈ List.range 2048, s.wantsPeer 1 n (List.replicate 4 0) = false) ∧
    (State.reset.port 1).slow = [] ∧
    (let d := postDesc 0x8000
     let s := netOn 4 9 d
     Starts s 63 9 4 1 d ∧ (s.ring 63 9).bufs.length < 64 ∧ s.bound = true ∧ d.good 0x01000000 allBits 0xFFFFFFFF 0 .none = true ∧
       d.le 8 8 % 64 = 0 ∧ d.le 16 4 % 64 = 0 ∧ 256 ≤ d.le 16 4 ∧ d.le 16 4 ≤ 65536) ∧
    (let d := postDesc 0x8020
     Starts (netOn 4 9 d) 63 9 4 1 d ∧ d.le 8 8 % 64 ≠ 0) ∧
    (let s := netBuf.setRing 63 9 { netBuf.ring 63 9 with bufs := List.replicate 64 ⟨0, false, 0x8000, 256⟩ }
     64 ≤ (s.ring 63 9).bufs.length) := by
  decide +kernel

/-- SEND of len bytes, with the bits of word 0 and a sealed header of 42 bytes. -/
def ethSendDesc (len bits : Nat) : Desc :=
  desc [(0, 1, 1), (4, 2, 7), (6, 1, bits), (8, 8, 0x8000), (16, 2, len), (18, 2, if bits = 2 then 42 else 0)]

/-- SET_FLOW_KEY of key 255. -/
def flowKeyDesc : Desc :=
  desc [(0, 2, 0x102), (4, 2, 7), (8, 4, 0xFFFFFFFF), (32, 16, beNat (beBytes 16 56993351374407201826655471752970681588).reverse),
    (48, 2, 0xFFFF), (50, 1, 0x07), (51, 1, 1)]

/-- Port 1 has a frame ahead, one that waits, or one on the line. -/
def waitingOn (ahead : List (List Byte)) (waiting : List TxFrame) (line : Option TxFrame) : State :=
  netBuf.setPort 1 { Port.init with ahead := ahead, waiting := waiting, line := line }

theorem witness_frames_sent :
    (∀ b ∈ [0, 2, 0x1C],
      let d := ethSendDesc (if b = 2 then 60 else 9212) b
      let s := netOn 3 8 d
      let s := (s.setHostMem (Memory.write [] 0x8000 udpFrame)).setFlag (F.vlyStateIsolated 36) false
      let s : State := { s with eth := { s.eth with keys := [(255, ⟨shelfLabel, 5, 9⟩)] } }
      Starts s 63 8 3 1 d ∧ s.bound = true ∧ d.good 0x1FFFFF allBits 0x0000FFFF3FFF3FFF 0 .none = true ∧ 14 ≤ bitsOf (d.le 16 8) 0 14 ∧
        bitsOf (d.le 16 8) 0 14 ≤ 9212 ∧ s.ethOf 63 8 = some 511 ∧ s.portUp (s.queuePort 511) = true ∧ bitOf (d.w0 32 32) 16 = false ∧
        bitOf (d.w0 32 32) 17 = (b == 2) ∧ s.unitOf 63 4 (d.w0 32 16) = some 255 ∧ s.engineUp = true ∧ s.cutOff (Via.cipher true).gates = none ∧
        (Tab.get FlowKey.init s.eth.keys 255).label ≠ [] ∧ s.sec.record = some binding) ∧
    (let d := ethSendDesc 60 2
     let h := parseWhole udpFrame
     h.ports.isSome = true ∧ h.proto = 17 ∧ bitsOf (d.le 16 8) 16 14 = h.l4At + 8 ∧ bitsOf (d.le 16 8) 0 14 = udpFrame.length ∧
       Memory.read (Memory.write [] 0x8000 udpFrame) (d.le 8 8) 60 = udpFrame) ∧
    ((netOn 3 8 (ethSendDesc 60 0)).setFlag (F.ethPortStatusUp 1) false).portUp ((netOn 3 8 (ethSendDesc 60 0)).queuePort 511) = false ∧
    (let d := flowKeyDesc
     let s := netOn 3 8 d
     Starts s 63 8 3 2 d ∧ d.good 0xFFFF 0xFFFFFFFF 0 0 .required = true ∧ s.checkLabel 63 [0x07] d.label = .good ∧
       s.unitOf 63 4 (d.w0 32 16) = some 255) ∧
    (let f : TxFrame := ⟨511, some ⟨63, 8, 0⟩, udpFrame, true, 0⟩
     (∀ s ∈ [waitingOn [udpFrame] [] none, waitingOn [] [f] none, waitingOn [] [] none],
       s.portUp 1 = true ∧ (s.port 1).line = none ∧ 0 ≤ s.nodeTokens (portKey 1) ∧ (s.port 1).aheadAt ≤ s.now) ∧
     (∀ w ∈ [[], [f]],
       let s := waitingOn [udpFrame] w none
       let s := s.setPort 1 { s.port 1 with aheadAt := 1 }
       s.portUp 1 = true ∧ s.now < (s.port 1).aheadAt ∧ s.heads 1 = w) ∧
     (waitingOn [] [f] none).heads 1 = [f] ∧ (waitingOn [] [] none).heads 1 = [] ∧ ((waitingOn [] [] (some f)).port 1).line = some f) := by
  decide +kernel

/-- Port 1 is enabled for 800 Gb/s on all its lanes. -/
def portCfg (autoneg : Bool) : State :=
  let s := ((State.reset.setFlag (F.ethPortCfgEnable 1) true).setFlag (F.ethPortCfgAutoneg 1) autoneg).setFld (F.ethPortCfgMode 1) 3
  s.setLanes 1 15

/-- A commit of the rule set at an address. -/
def ruleState (bs : List Byte) : State :=
  let s := (State.reset.setFlag (F.ethRsStatusBusy 1) true).setFld (F.ethRsAddrLoAddr 1) 0x8000
  let s := s.setFld (F.ethQmapPort 511) 1
  { s with host := { s.host with published := true, mem := cells 0x8000 bs } }

theorem witness_ports_and_rule_sets :
    ((portCfg false).portUp 1 = false ∧ (portCfg false).flag (F.ethPortCfgEnable 1) = true ∧ (portCfg false).flag (F.ethPortCfgAutoneg 1) = false ∧
      (portCfg false).ownMode 1 = 3) ∧
    (let s := portCfg true
     s.portUp 1 = false ∧ s.flag (F.ethPortCfgAutoneg 1) = true ∧ s.ownMode 1 = 3 ∧ bitOf (6 : BitVec 4).toNat 2 = true ∧
       bitOf (6 : BitVec 4).toNat 3 = false ∧ ∀ m ∈ [1, 2, 3], bitOf (1 : BitVec 4).toNat m = false) ∧
    netBuf.portUp 1 = true ∧ State.reset.portUp 1 = false ∧ bitOf ((portCfg true).portLanes 1) (3 : BitVec 2).toNat = true ∧
    (let s : State := { portCfg true with now := 3600000000000 }
     let s := s.setPort 1 { s.port 1 with lockTimes := [(3, [0, 0])] }
     bitOf (s.portLanes 1) 3 = true ∧
       2 ≤ ((Tab.get [] (s.port 1).lockTimes 3).filter (fun x => decide (s.now ≤ x + 3600000000000))).length) ∧
    (let s := State.reset.setPort 1 { Port.init with next := some allTo511 }
     (s.port 1).next = some allTo511) ∧ (State.reset.port 1).next = none := by
  decide +kernel

theorem allTo511_good : State.goodRules (ruleState allTo511) 1 allTo511 = true ∧ ruleCount (allTo511.take 0x240) = 1 := by
  decide +kernel

theorem witness_rule_set_commit : ∀ b ∈ [true, false],
    let s := ruleState (if b then allTo511 else [])
    let a := s.fld (F.ethRsAddrLoAddr 1) + s.fld (F.ethRsAddrHiAddr 1) * 2 ^ 32
    a = 0x8000 ∧ s.flag (F.ethRsStatusBusy 1) = true ∧ (s.port 1).next = none ∧ s.dmaOk 0 = true ∧
      (b = false → s.goodRules 1 (Memory.read s.host.mem a 0x240) = false) := by
  decide +kernel

theorem read_append (m : Memory) (a n k : Nat) : Memory.read m a (n + k) = Memory.read m a n ++ Memory.read m (a + n) k := by
  induction n generalizing a with
  | zero => simp [Memory.read]
  | succ n ih => rw [show n + 1 + k = (n + k) + 1 by omega, Memory.read, ih, Memory.read, List.cons_append, show a + 1 + n = a + (n + 1) by omega]

theorem witness_good_rule_set :
    let s := ruleState allTo511
    let a := s.fld (F.ethRsAddrLoAddr 1) + s.fld (F.ethRsAddrHiAddr 1) * 2 ^ 32
    let head := Memory.read s.host.mem a 0x240
    let rs := if ruleCount head ≤ 4096 then head ++ Memory.read s.host.mem (a + 0x240) (64 * ruleCount head) else head
    s.goodRules 1 rs = true := by
  intro s a head rs
  have ha : a = 0x8000 := (witness_rule_set_commit true (by decide)).1
  have full : Memory.read s.host.mem 0x8000 (0x240 + 64) = allTo511 := by
    have h := read_cells allTo511 [] 0x8000 (fun k _ => rfl)
    have l : allTo511.length = 0x240 + 64 := by decide +kernel
    rwa [l, List.append_nil] at h
  rw [read_append] at full
  have n : (Memory.read s.host.mem 0x8000 0x240).length = 0x240 := Memory.length_read _ _ _
  have hh : head = allTo511.take 0x240 := by
    rw [← full, List.take_left' n, ← ha]
  have hc : ruleCount head = 1 := by rw [hh]; exact allTo511_good.2
  have hr : rs = allTo511 := by
    show (if ruleCount head ≤ 4096 then head ++ Memory.read s.host.mem (a + 0x240) (64 * ruleCount head) else head) = allTo511
    rw [hc, if_pos (by omega), ha, ← full]
    show Memory.read s.host.mem a 0x240 ++ _ = _
    rw [ha]
  rw [hr]
  exact allTo511_good.1

/-! ### Witnesses: the remote memory engine -/

/-- Function 63 has queue pair 2047 at ring 9 in state st, store queue pair 1023 as local 7, and granule 32767 of die 3. -/
def rmaOn (st : Nat) (x : Qp) (d : Desc) : State :=
  let s := ringOn { State.reset with parts := [(0, { partState .loaded with owner := some 63 })] } 63 9 5 d
  let s := s.setFn 63 { s.fn 63 with grants := [⟨2, 2047, 9⟩, ⟨1, 1023, 7⟩] }
  let s := s.setMemUnit 3 { MemUnit.init with gran := [(32767, ⟨some 0, false, 0, 0, false⟩)] }
  let s := ((s.setFld (F.rmaQpStatusState 2047) st).setFld (F.ethPortCfgMaxFrame 0) 9216).setQp 2047 x
  let s : State := { s with rma := { s.rma with regs := [(0, ⟨63, 0x130000000000 + 2 ^ 31 - 4096, 4096, true, true, 0⟩)] } }
  { s with sec := { Sec.init with record := some binding } }

/-- The last page of die 3. -/
def lastPage : Nat := 0x130000000000 + 2 ^ 31 - 4096

/-- A WRITE or READ of 2 GiB. -/
def workDesc (op : Nat) : Desc := desc [(0, 1, op), (8, 8, 0x8000), (16, 8, 0x9000), (24, 4, 5), (28, 4, 2 ^ 31)]

/-- QP_MODIFY. -/
def modifyDesc (target : Nat) (v6 : Bool) : Desc :=
  desc ([(0, 1, 0x10)] ++
    (if target = 2 then [(4, 1, 2 + 16 * v6.toNat + 32 * 5), (8, 3, 77), (12, 3, 9), (16, 4, 0x0100000A)] ++ (if v6 then [(24, 8, 5)] else [])
     else if target = 3 then [(4, 1, 3), (5, 1, 7 + 8 * 16), (8, 3, 5)] else [(4, 1, target)]))

theorem witness_work_requests :
    (∀ op ∈ [1, 2], ∀ st ∈ [0, 1, 2, 3, 4],
      let d := workDesc op
      let s := rmaOn st Qp.init d
      Work s 63 9 op 2047 d ∧ s.bound = true ∧ d.good 0x10000 allBits allBits allBits .none = true ∧ d.le 28 4 ≠ 0 ∧ d.le 28 4 ≤ 2 ^ 31 ∧
        bitOf (d.w0 32 32) 16 = false ∧ s.qpState 2047 = st ∧ s.readsInFlight 2047 < 16) ∧
    (let s := (rmaOn 3 { Qp.init with sealing := some (shelfLabel, 5, 9) } (workDesc 1)).setFld F.cphStatusPairs 0
     Work s 63 9 1 2047 (workDesc 1) ∧ (s.qp 2047).sealing.isSome = true ∧ s.engineUp = false ∧ s.qpState 2047 = 3) ∧
    (rmaOn 3 Qp.init (workDesc 1)).engineUp = true ∧
    (let w : Wqe := ⟨none, 2, 0, 1, false, 0, 0, 0, 1, [], false, 0, false, none⟩
     let s := rmaOn 3 { Qp.init with wqes := List.replicate 16 w } (desc [])
     s.qpOf 63 9 = some 2047 ∧ 16 ≤ s.readsInFlight 2047) := by
  decide +kernel

theorem witness_queue_pair_states :
    (∀ target ∈ [0, 1, 4], ∀ st ∈ [0, 3],
      let d := modifyDesc target false
      Work (rmaOn st Qp.init d) 63 9 0x10 2047 d ∧ d.good 7 0 0 0 .none = true ∧ d.w0 32 3 = target ∧ (rmaOn st Qp.init d).qpState 2047 = st) := by
  decide +kernel

theorem witness_queue_pair_to_rtr :
    (∀ v6 ∈ [false, true],
      let d := modifyDesc 2 v6
      let s := rmaOn 1 Qp.init d
      Work s 63 9 0x10 2047 d ∧ d.w0 32 3 = 2 ∧ s.qpState 2047 = 1 ∧ (s.qp 2047).resolving = none ∧
        d.good 0xF7 0x00FFFFFF3FFFFFFF allBits allBits .none = true ∧ 3 ≤ d.w0 37 3 ∧ d.w0 37 3 ≤ 5 ∧
        (d.w0 36 1 ≠ 1 → d.le 20 4 = 0 ∧ d.le 24 8 = 0) ∧ 128 * 2 ^ d.w0 37 3 + 130 ≤ s.fld (F.ethPortCfgMaxFrame (s.qpPort 2047))) := by
  decide +kernel

theorem witness_queue_pair_to_rts :
    (∀ st ∈ [1, 2],
      let d := modifyDesc 3 false
      Work (rmaOn st Qp.init d) 63 9 0x10 2047 d ∧ d.w0 32 3 = 3 ∧ (rmaOn st Qp.init d).qpState 2047 = st ∧
        d.good 0xFF07 0xFFFFFF 0 0 .none = true ∧ 8 ≤ d.w0 43 5 ∧ d.w0 43 5 ≤ 16) ∧
    ((rmaOn 1 { Qp.init with resolving := some ⟨63, 9, 0⟩ } (desc [])).qp 2047).resolving = some ⟨63, 9, 0⟩ := by
  decide +kernel

/-- REG, DEREG, QP_SEAL and ATTACH. -/
def regDesc : Desc := desc [(0, 1, 0x11), (4, 1, 3), (8, 8, lastPage), (16, 8, 4096)]
def deregDesc (key : Nat) : Desc := desc [(0, 1, 0x12), (8, 4, key)]
def sealDesc : Desc :=
  desc [(0, 2, 0x113), (8, 8, 0xFFFFFFFF), (32, 16, beNat (beBytes 16 56993351374407201826655471752970681588).reverse),
    (48, 2, 0xFFFF), (50, 1, 0x08), (51, 1, 1)]
def attachDesc : Desc := desc [(0, 1, 0x14), (4, 2, 7), (6, 1, 12), (8, 8, 0x9000), (24, 4, 5)]

theorem witness_registrations :
    (let d := regDesc
     let s := rmaOn 2 Qp.init d
     Work s 63 9 0x11 2047 d ∧ s.bound = true ∧ d.good 3 allBits allBits 0 .none = true ∧ d.le 8 8 % 4096 = 0 ∧ d.le 16 8 % 4096 = 0 ∧
       d.le 16 8 ≠ 0 ∧ d.le 16 8 ≤ 2 ^ 36 ∧ devAddr (d.le 8 8) = some (3, 2 ^ 31 - 4096) ∧ 2 ^ 31 - 4096 + d.le 16 8 ≤ 2 ^ 31 ∧ isHbm 3 = false ∧
       ceilDiv ((2 ^ 31 - 4096) % 65536 + d.le 16 8) 65536 = 1 ∧
       (s.granule 3 ((2 ^ 31 - 4096) / 65536 + 0)).owner = some 0 ∧ (s.part 0).owner = some 63 ∧
       (Tab.get Registration.init s.rma.regs 1).len = 0 ∧ ∀ j, j < 1 → (Tab.get Registration.init s.rma.regs j).len ≠ 0) ∧
    (let d := deregDesc 0
     let s := rmaOn 2 Qp.init d
     Work s 63 9 0x12 2047 d ∧ s.registration (d.le 8 4) = some ⟨63, lastPage, 4096, true, true, 0⟩ ∧ d.good 0 0xFFFFFFFF 0 0 .none = true) ∧
    (let d := deregDesc 0x4000
     let s := rmaOn 2 Qp.init d
     Work s 63 9 0x12 2047 d ∧ s.registration (d.le 8 4) = none) ∧
    (∀ st ∈ [1, 2],
      let d := sealDesc
      let s := rmaOn st Qp.init d
      Work s 63 9 0x13 2047 d ∧ s.bound = true ∧ d.good 0 allBits 0 0 .required = true ∧ s.qpState 2047 = st ∧
        s.checkLabel 63 [0x08] d.label = .good) ∧
    (let d := attachDesc
     let s := rmaOn 2 Qp.init d
     Work s 63 9 0x14 2047 d ∧ s.bound = true ∧ d.good 0xFFFFF allBits 0 0xFFFFFFFF .none = true ∧ 4 ≤ d.w0 48 4 ∧ d.w0 48 4 ≤ 12 ∧
       s.unitOf 63 1 (d.w0 32 16) = some 1023) := by
  decide +kernel

/-- A packet to queue pair 2047. -/
def packet (op psn len syn : Nat) (payload : List Byte) : RocePkt :=
  ⟨true, false, 2047, BitVec.ofNat 8 op, false, BitVec.ofNat 24 psn, BitVec.ofNat 64 (lastPage + 4095), 0, BitVec.ofNat 32 len,
    BitVec.ofNat 8 syn, 0, 0, 0, 0, 0, false, payload⟩

/-- Its frame, which a rule hands to the engine, and what is left once the engine has taken it. -/
def roceFrame (p : RocePkt) : List Byte := frameOf 0x0800 (ip4Header 17 60 ++ beBytes 8 (0x12B7 * 2 ^ 32 + 60 * 2 ^ 16) ++ bthBytes p) 94
def arriving (s : State) (p : RocePkt) : State := s.setPort 0 { s.port 0 with handed := [(3, roceFrame p)] }
def arrived (s : State) (p : RocePkt) : State := ((arriving s p).takeRma p).getD s

/-- The packet reaches queue pair 2047, which is not sealed. -/
abbrev Reaches (s : State) (p : RocePkt) : Prop :=
  ((arriving s p).takeRma p).isSome = true ∧ p.icrcOk = true ∧ p.qp.toNat = 2047 ∧ ((arrived s p).qpHolder 2047).isSome = true ∧
    ((arrived s p).qpState 2047 = 2 ∨ (arrived s p).qpState 2047 = 3) ∧ ((arrived s p).qp 2047).sealing = none ∧ p.ce = false

theorem arrives (s : State) (p : RocePkt) (h : Reaches s p) : Arrives (arriving s p) p (arrived s p) p 2047 := by
  obtain ⟨h1, h2, h3, h4, h5, h6, h7⟩ := h
  obtain ⟨u, hu⟩ := Option.isSome_iff_exists.mp h1
  have e : arrived s p = u := by simp [arrived, hu]
  refine ⟨arrived s p, by rw [e, hu], h2, h3, by decide, by decide, h4, h5, .inl h6, ?_, h7⟩
  unfold State.openSeal
  rw [h6]

/-- A queue pair that expects PSN 2^24 - 1. -/
def lastPsn : Qp := { Qp.init with rxPsn := 2 ^ 24 - 1, mtu := 5 }

/-- A wait of a queue pair. -/
def wait (kind psn len : Nat) : Wqe := ⟨some ⟨63, 9, 0⟩, kind, psn, 1, false, 0x8000, 0x9000, 0, len, [], false, 0, false, none⟩

theorem witness_write_packets :
    (let p := packet 10 (2 ^ 24 - 1) 1 0 [7]
     let s := arrived (rmaOn 2 lastPsn (desc [])) p
     Reaches (rmaOn 2 lastPsn (desc [])) p ∧ p.opcode.toNat = 10 ∧ p.psn.toNat = (s.qp 2047).rxPsn ∧ (s.qp 2047).msg = none ∧ (s.qp 2047).attach = none ∧
       p.len.toNat = p.payload.length ∧ p.payload.length ≠ 0 ∧ p.payload.length ≤ (s.qp 2047).mtuBytes ∧
       s.peerCheck 63 true p.rkey.toNat p.va.toNat 1 = none ∧ s.runServed (.inst 63) true p.va.toNat 1 = true ∧
       s.addrFenced p.va.toNat 1 = false ∧ ((s.qpHolder 2047).getD (0, 0)).1 = 63) ∧
    (let p := packet 10 0 1 0 [7]
     Reaches (rmaOn 3 lastPsn (desc [])) p ∧ isWriteOp p.opcode.toNat = true ∧ p.psn.toNat ≠ lastPsn.rxPsn) ∧
    (let s := rmaOn 3 lastPsn (desc [])
     let s : State := { s with rma := { s.rma with regs := [] } }
     Reaches s (packet 10 (2 ^ 24 - 1) 1 0 [7]) ∧ (arrived s (packet 10 (2 ^ 24 - 1) 1 0 [7])).registration 0 = none) ∧
    (∀ op ∈ [10, 0x0C, 0x10, 0x11, 0x81],
      let p := packet op 0 1 0 []
      let s := rmaOn 3 lastPsn (desc [])
      p.opcode.toNat = op ∧ s.takeRma p = none ∧ ((arriving s { p with icrcOk := false }).takeRma { p with icrcOk := false }).isSome = true) ∧
    (let p := { packet 10 0 1 0 [7] with sender := 8 }
     let s := arrived (rmaOn 3 { lastPsn with sealing := some (shelfLabel, 5, 9) } (desc [])) p
     ((arriving (rmaOn 3 { lastPsn with sealing := some (shelfLabel, 5, 9) } (desc [])) p).takeRma p).isSome = true ∧ p.icrcOk = true ∧
       p.qp.toNat = 2047 ∧ (s.qpHolder 2047).isSome = true ∧ s.qpState 2047 = 3 ∧ (s.qp 2047).sealing = some (shelfLabel, 5, 9) ∧
       s.sec.record = some binding ∧ s.engineUp = true ∧ p.mismatch = false ∧ p.sender.toNat ≠ 9) := by
  decide +kernel

/-- No queue pair of those states is attached. -/
theorem witness_no_attachment : ∀ m, ((arrived (rmaOn 2 lastPsn (desc [])) (packet 10 (2 ^ 24 - 1) 1 0 [7])).qp m).attach = none := by
  have e : (arrived (rmaOn 2 lastPsn (desc [])) (packet 10 (2 ^ 24 - 1) 1 0 [7])).rma.qps = [(2047, lastPsn)] := by decide +kernel
  intro m
  unfold State.qp
  rw [e]
  by_cases h : m = 2047
  · subst h; rfl
  · simp [Tab.get, h, Qp.init]

theorem witness_read_packets :
    (let p := packet 0x0C (2 ^ 24 - 1) 1 0 []
     let s := arrived (rmaOn 2 lastPsn (desc [])) p
     Reaches (rmaOn 2 lastPsn (desc [])) p ∧ s.readsServed 2047 < 16 ∧
       (let w := (rmaOn 2 lastPsn (desc [])).setPort 0 { Port.init with waiting := List.replicate 16 ⟨4096 + 2047, none, roceFrame (packet 0x10 0 0 0 []), false, 0⟩ }
        Reaches w p ∧ 16 ≤ (arrived w p).readsServed 2047) ∧ p.opcode.toNat = 0x0C ∧ p.psn.toNat = (s.qp 2047).rxPsn ∧ p.len.toNat ≠ 0 ∧ p.len.toNat ≤ 2 ^ 31 ∧
       s.peerCheck 63 false p.rkey.toNat p.va.toNat p.len.toNat = none ∧ s.runServed (.inst 63) false p.va.toNat p.len.toNat = true ∧
       s.addrFenced p.va.toNat p.len.toNat = false) ∧
    (∀ op ∈ [0x0D, 0x0E, 0x0F, 0x10],
      let p := packet op 3 0 0 [7]
      let s := arrived (rmaOn 3 { lastPsn with wqes := [wait 2 3 1] } (desc [])) p
      Reaches (rmaOn 3 { lastPsn with wqes := [wait 2 3 1] } (desc [])) p ∧ s.run.take = none ∧ s.restores = [] ∧
        s.cutOff (Via.cipher false).gates = none ∧ p.opcode.toNat = op ∧ s.openRead 2047 = some (wait 2 3 1) ∧ s.qpState 2047 = 3 ∧
        p.psn.toNat = (3 + 0 / (s.qp 2047).mtuBytes) % 2 ^ 24 ∧ p.payload.length = min (s.qp 2047).mtuBytes (1 - 0) ∧ s.dmaOk 63 = true) := by
  decide +kernel

/-- A RESTORE of function 63 that reads two bytes over queue pair 2047. -/
def ckReading : Restore := { ckRead with op := ⟨63, 9, 0⟩, qps := [2047], buf := [] }

theorem witness_restore_packets : ∀ op ∈ [0x0D, 0x0E, 0x0F, 0x10],
    let p := packet op 3 0 0 (List.replicate 4096 7)
    let w := { wait 5 3 8192 with pkts := 2 }
    let s0 := rmaOn 3 { lastPsn with wqes := [w] } (desc [])
    let s0 : State := { s0.setRing 63 9 { s0.ring 63 9 with flight := [⟨0, 0, false, 9, none, 1⟩] } with restores := [ckReading] }
    let s := arrived s0 p
    Reaches s0 p ∧ p.opcode.toNat = op ∧ (s.qp 2047).wqes = [w] ∧ w.kind = 5 ∧ w.refused = none ∧ w.op = some ckReading.op ∧ s.qpState 2047 = 3 ∧
      p.psn.toNat = (w.psn + w.got / (s.qp 2047).mtuBytes) % 2 ^ 24 ∧ p.payload.length = min (s.qp 2047).mtuBytes (w.len - w.got) ∧
      w.got + p.payload.length < w.len ∧ s.run.take = none ∧ s.restores = [ckReading] ∧ ckReading.todo = [] ∧ ckReading.failed = none ∧
      2047 ∈ ckReading.qps ∧ s.outstanding ckReading.op = true ∧ s.sec.record = some binding := by
  decide +kernel

theorem witness_acknowledges :
    (∀ syn ∈ [0, 0x1F],
      let p := packet 0x11 3 0 syn []
      let s := arrived (rmaOn 3 { lastPsn with wqes := [wait 1 3 1], una := 3, txPsn := 4 } (desc [])) p
      let next := (p.psn.toNat + 1) % 2 ^ 24
      Reaches (rmaOn 3 { lastPsn with wqes := [wait 1 3 1], una := 3, txPsn := 4 } (desc [])) p ∧ s.run.take = none ∧ s.restores = [] ∧ (wait 1 3 1).refused = none ∧ p.opcode.toNat = 0x11 ∧ p.syndrome.toNat < 0x20 ∧ s.qpState 2047 = 3 ∧ (s.qp 2047).wqes = [wait 1 3 1] ∧
        psnAtOrAfter next 3 = true ∧ next ≠ 3 ∧ psnAtOrAfter 4 next = true ∧ 1 ≤ psnDiff next 3) := by
  decide +kernel

theorem witness_naks_and_congestion :
    (∀ syn ∈ [0x60, 0x61, 0x63],
      let p := packet 0x11 3 0 syn []
      let s := arrived (rmaOn 3 { lastPsn with wqes := [wait 1 3 1], una := 3, txPsn := 4 } (desc [])) p
      Reaches (rmaOn 3 { lastPsn with wqes := [wait 1 3 1], una := 3, txPsn := 4 } (desc [])) p ∧ p.opcode.toNat = 0x11 ∧
        p.syndrome.toNat = syn ∧ s.qpState 2047 = 3 ∧ s.run.take = none ∧ s.restores = [] ∧
        (s.qp 2047).wqes = [wait 1 3 1] ∧ p.psn.toNat = 3) ∧
    (Reaches (rmaOn 3 lastPsn (desc [])) (packet 0x81 0 0 0 []) ∧ (packet 0x81 0 0 0 []).opcode.toNat = 0x81) := by
  decide +kernel

theorem witness_timers_of_queue_pairs :
    (∀ n ∈ [6, 7],
      let s := (rmaOn 3 { lastPsn with wqes := [wait 1 3 1], retryCount := 7 } (desc [])).setFld (F.rmaQpStatusRetries 2047) n
      s.qpState 2047 = 3 ∧ (s.qp 2047).wqes ≠ [] ∧ s.run.take = none ∧ s.restores = [] ∧ (s.qp 2047).sealing = none ∧ s.fld (F.rmaQpStatusRetries 2047) = n ∧ (s.qp 2047).retryCount = 7) ∧
    (rmaOn 2 lastPsn (desc [])).qpState 2047 ≠ 3 := by
  decide +kernel

theorem no_marks (l : Nat) : lineMarked [] l = false := by simp [lineMarked]

/-- A line without marks in a die is found without poison. -/
theorem look_clean (s : State) (u line : Nat) (h : isHbm u = false) (p : (s.memUnit u).poison = []) (e : (s.memUnit u).ue = []) :
    (s.lookLine u line).poisoned = false := by
  simp [State.lookLine, h, p, e, no_marks]

theorem readLine_clean (s : State) (via : Via) (u line : Nat) (h : isHbm u = false) (p : (s.memUnit u).poison = [])
    (e : (s.memUnit u).ue = []) : (s.readLine via u line).2.1 = false := by
  unfold State.readLine
  split
  · rfl
  · simp only [State.touch, h, if_false, Bool.false_eq_true]
    split
    · rfl
    · exact look_clean s u line h p e

theorem mergeLine_clean (s : State) (via : Via) (u line o : Nat) (bs : List Byte) (h : isHbm u = false) (p : (s.memUnit u).poison = [])
    (e : (s.memUnit u).ue = []) : (s.mergeLine via u line o bs).1 = false := by
  unfold State.mergeLine
  split
  · rfl
  · simp only [State.touch, h, if_false, Bool.false_eq_true, look_clean s u line h p e]
    split <;> rfl

/-- One byte of device memory: the flag is that of its line. -/
theorem devRead_byte (u : State) (via : Via) (w : Who) (a k off : Nat) (ha : devAddr a = some (k, off)) :
    (u.devRead via w a 1).2.1.integrity = (u.mayReach w false k (off / 65536) && (u.readLine via k (off / 64)).2.1) := by
  have m : min 1 (64 - a % 64) = 1 := by omega
  unfold State.devRead
  show (u.readRun via w (1 + 1) a 1).2.1.integrity = _
  unfold State.readRun
  simp only [Nat.one_ne_zero, if_false, m, ha]
  cases u.mayReach w false k (off / 65536) <;> simp [State.readRun, Met.none]

theorem devWrite_byte (u : State) (via : Via) (w : Who) (a k off : Nat) (v : Byte) (ha : devAddr a = some (k, off)) :
    (u.devWrite via w a [v]).1.integrity = (u.mayReach w true k (off / 65536) && (u.mergeLine via k (off / 64) (a % 64) [v]).1) := by
  have m : min 1 (64 - a % 64) = 1 := by omega
  have f : [v].length / 64 + 2 = 1 + 1 := by simp
  unfold State.devWrite
  rw [f]
  unfold State.writeRun
  simp only [List.cons_ne_nil, if_false, List.length_singleton, m, ha]
  cases u.mayReach w true k (off / 65536) <;> simp [State.writeRun, Met.none]

/-- A peer's access to the last byte of the last page meets no poison, whatever the engine holds. -/
theorem witness_clean_page (u : State) (via : Via) (b : State)
    (hb : b ∈ [arrived (rmaOn 2 lastPsn (desc [])) (packet 10 (2 ^ 24 - 1) 1 0 [7]), arrived (rmaOn 2 lastPsn (desc [])) (packet 0x0C (2 ^ 24 - 1) 1 0 [])])
    (h : { u with rma := b.rma } = b) :
    (u.devWrite via (.inst 63) (lastPage + 4095) [7]).1.integrity = false ∧ (u.devRead via (.inst 63) (lastPage + 4095) 1).2.1.integrity = false := by
  have mems : u.mems = b.mems := by rw [← h]
  have q : ∀ s ∈ [arrived (rmaOn 2 lastPsn (desc [])) (packet 10 (2 ^ 24 - 1) 1 0 [7]), arrived (rmaOn 2 lastPsn (desc [])) (packet 0x0C (2 ^ 24 - 1) 1 0 [])],
      (s.memUnit 3).poison = [] ∧ (s.memUnit 3).ue = [] := by decide +kernel
  obtain ⟨p, e⟩ : (u.memUnit 3).poison = [] ∧ (u.memUnit 3).ue = [] := by
    unfold State.memUnit
    rw [mems]
    exact q _ hb
  have a : devAddr (lastPage + 4095) = some (3, 2 ^ 31 - 1) := by decide +kernel
  rw [devWrite_byte u _ _ _ _ _ _ a, devRead_byte u _ _ _ _ _ a, readLine_clean u _ _ _ rfl p e, mergeLine_clean u _ _ _ _ _ rfl p e]
  simp

/-! ### Witnesses: time -/

/-- The time unit with a role, PPS_IN and the priorities 3, 2, 1; the state and reference of TIM_STATUS. -/
def timeOn (st ref : Nat) (x : Tim) : State :=
  let s := (((State.reset.setFld F.timCfgRole 1).setFlag F.timCfgPpsIn true).setFld F.timCfgDomain 255).setFld F.timCfgPrio0 3
  let s := (((s.setFld F.timCfgPrio1 2).setFld F.timCfgPrio2 1).setFld F.timStatusState st).setFld F.timStatusRef ref
  { s with tim := x }

/-- The same with a message that a rule has handed over on port 1. -/
def heardOn (s : State) (type : Nat) : State := s.setPort 1 { s.port 1 with handed := [(4, ptpFrame type 255)] }

theorem witness_messages_of_time :
    (∀ ref ∈ [2, 3], ((heardOn (timeOn 1 ref Tim.init) 0).takePtp ptpSyncType 1).map
      (fun x => (x.1, x.2.fld F.timStatusState, x.2.fld F.timStatusRef)) = some (ptpMsg 0 255, TimeState.locked, ref)) ∧
    (timeOn 1 2 Tim.init).takePtp ptpSyncType 1 = none ∧ (timeOn 1 2 Tim.init).takePtp ptpAnnounceType 1 = none ∧
    (∀ q ∈ [(2, [2], 2), (0, [], 0), (3, [2], 2), (2, [], 0), (1, [], 0), (1, [2], 2)],
      let x := { Tim.init with qualified := q.2.1 }
      ((heardOn (timeOn 1 q.1 x) 11).takePtp ptpAnnounceType 1).map (fun y =>
        let v : State := { y.2 with tim := { x with sets := Tab.set [] x.sets 1 (announceSet y.1) } }
        let u := if q.1 = ptpCode 1 ∨ q.1 = 0 ∨ q.1 = 3 then v.setFld F.timUtcOffset (announceUtc y.1) else v
        (y.2.fld F.timStatusRef, u.bestSource)) = some (q.1, q.2.2)) := by
  decide +kernel

theorem witness_references :
    ((timeOn 0 0 Tim.init).pins.aux = true ∧ (timeOn 0 0 Tim.init).flag F.timCfgPpsIn = true ∧ State.reset.flag F.timCfgPpsIn = false) ∧
    (∀ c ∈ [2, 3],
      let x := { Tim.init with good := [(c, 4)], qualified := [5 - c] }
      let s := timeOn 0 0 x
      s.sourceOn c = true ∧ 4 ≤ Tab.get 0 x.good c ∧ c ∉ x.qualified ∧
        (let u : State := { s with tim := { x with qualified := insertNat c x.qualified } }
         (u.bestSource = c ↔ c = 3))) ∧
    Tab.get 0 Tim.init.good (refCode .ppsIn) < 4 ∧
    (∀ q ∈ [[3], [2, 3]],
      let x := { Tim.init with qualified := q, held := true }
      let s := timeOn 1 3 x
      let u : State := { s with tim := { x with qualified := x.qualified.filter (· != 3), good := Tab.set 0 x.good 3 0 } }
      s.pins.aux = true ∧ s.fld F.timStatusRef = 3 ∧ refCode .ppsIn = 3 ∧ (u.bestSource = 0 ↔ q = [3])) ∧
    (timeOn 2 0 Tim.init).fld F.timStatusState = TimeState.holdover ∧ State.reset.fld F.timStatusState ≠ TimeState.holdover := by
  decide +kernel

theorem witness_second_boundaries :
    (∀ x ∈ [none, some 5, some 0, some (-5)],
      let s := timeOn 1 3 { Tim.init with step := x }
      s.pins.aux = true ∧ s.flag F.timStatusHolding = false ∧ s.tim.step = x ∧ Steady s) ∧
    (∀ d ∈ [0, 999999998],
      let s := (timeOn 1 3 { Tim.init with step := some 5 }).setFld F.timNowNs d
      s.pins.aux = true ∧ s.flag F.timStatusHolding = false ∧
        ((1000000000 - (s.deviceTime + 5) % 1000000000) ≤ 1000000000 - s.deviceTime % 1000000000 ↔ d = 0)) ∧
    (pinned true false true false).pins.aux = false ∧
    (∀ n ∈ [2 ^ 32 - 2, 2 ^ 32 - 1],
      let s := (State.reset.setFld F.timRtcAlarmSeconds (2 ^ 32 - 1)).setFld F.timRtcSeconds n
      s.pins.aux = true ∧ s.fld F.timRtcAlarmSeconds ≠ 0 ∧ s.fld F.timRtcSeconds ≤ s.fld F.timRtcAlarmSeconds ∧ s.tim.rtcFrac < 1000000000) ∧
    (let s := (State.reset.setFld F.timRtcAlarmSeconds 1).setFld F.timRtcSeconds 2
     s.fld F.timRtcAlarmSeconds < s.fld F.timRtcSeconds) := by
  decide +kernel

/-! ### Witnesses: sensors, the lifetime log and the management endpoint -/

/-- The manager asks for the lifetime log at an address. -/
def logAsked (a : Nat) : State :=
  let s := (State.reset.setRequest 10 1).setFld F.tlmLogAddrLoAddr a
  { s with host := { s.host with published := true } }

/-- The SMBus has a last transaction, which has lost arbitration n times. -/
def lostOn (n : Nat) : State := { State.reset with mgmt := { Mgmt.init with smbus := some (4, [0]), lost := n } }

theorem witness_sensors_and_the_lifetime_log :
    State.reset.pins.aux = true ∧ State.reset.deviceTime / dayNs ≤ State.reset.log.day.number ∧ Steady State.reset ∧
    (let s := State.reset.setFld F.timNowNs dayNs
     s.pins.aux = true ∧ s.log.day.number < s.deviceTime / dayNs) ∧
    (∀ a ∈ [0x8000, 0x8004], let s := logAsked a
      s.request 10 = 1 ∧ s.dmaOk 0 = true ∧ ((s.fld F.tlmLogAddrLoAddr + s.fld F.tlmLogAddrHiAddr * 2 ^ 32) % 4096 = 0 ↔ a = 0x8000)) := by
  decide +kernel

theorem witness_management_endpoint :
    (∀ b ∈ [MgmtBus.smbus 0x4F, .i3c 8, .vdm], ({ inD3 false with mgmt := { Mgmt.init with i3cAddr := some 8 } } : State).busUp b = true ∧
      (pinned true false true false).busUp b = false) ∧
    ((inD3 false).mgmt.lost = 0 ∧ (lostOn 8).mgmt.lost ≠ 0 ∧ (lostOn 8).busUp (.smbus 0x4F) = true) ∧
    (State.reset.pins.straps < 8 ∧ State.reset.pins.aux = true ∧ (pinned true false true false).pins.aux = false ∧ State.reset.strapAddr = 0x4F) ∧
    (let m : Mgmt := { Mgmt.init with smbus := some (0x0A, leBytes 6 0), lost := 1 }
     m.smbus = some (0x0A, leBytes 6 0) ∧ m.lost ≠ 0) ∧
    (({ lostOn 8 with mgmt := { (lostOn 8).mgmt with queue := [(2, [1])] } } : State).mgmt.queue = [(2, [1])]) ∧
    ((0 : W32) = 0 ∧ 1 ≤ 25 ∧ (25 : W32).toNat = 25 ∧ 25 < (26 : W32).toNat ∧ (25 : BitVec 16).toNat = 24 + 1) ∧
    (2 : BitVec 8).toNat ≤ 2 ∧ 2 < (3 : BitVec 8).toNat ∧ (0 : BitVec 16).toNat = 0 ∧ 25 < (26 : BitVec 16).toNat ∧
    ((lostOn 0).mgmt.smbus.isSome = true ∧ (lostOn 0).mgmt.lost = 0 ∧ (lostOn 0).pins.aux = true) ∧
    (∀ n ∈ [7, 8], (lostOn n).mgmt.smbus = some (4, [0]) ∧ (lostOn n).mgmt.lost = n ∧ (lostOn n).mgmt.queue = []) ∧ State.reset.mgmt.smbus = none := by
  decide +kernel

/-! ### Witnesses: faults, recovery and debugging -/

/-- A valley is powered and has a target voltage. -/
def valleyOn (s : State) (v mv : Nat) : State := (s.setFlag (F.vlyStatePowered v) true).setFld (F.pwrVtargetMv v) mv

theorem witness_faults :
    (∀ v ∈ [0, 37, 39], ∀ mv ∈ [899, 900],
      let s := valleyOn State.reset v mv
      v ≠ 38 ∧ s.flag (F.vlyStatePowered v) = true ∧ s.fld (F.pwrVtargetMv v) = mv ∧ ¬ (v < 20 ∧ v % 5 = 4) ∧
        s.touches (.valley v) = false ∧ s.scopeQuiet 1 (.valley v) = true) ∧
    State.reset.flag (F.vlyStatePowered 0) = false ∧
    (State.reset.rcv.faults = [] ∧ State.reset.rcv.levels = [] ∧ State.reset.rcv.done = []) ∧
    (let s := valleyOn (inPhase .cut) 4 900
     900 ≤ s.fld (F.pwrVtargetMv 4) ∧ s.flag (F.vlyStatePowered 4) = true ∧ s.scheduled = true ∧ s.touches (.valley 4) = true ∧
       s.run.halt = none) ∧
    (∀ k ∈ [1, 8], State.reset.rcv.engineFenced k = false) := by
  decide +kernel

/-- The manager asks for a level, or for a record. -/
def levelAsked (op level : Nat) : State :=
  let s := (State.reset.setRequest 12 op).setFld F.rcvCtrlLevel level
  { s with host := { s.host with published := true } }

/-- A running level. -/
def levelRun (level : Nat) (sc : Scope) (failed : List Nat) : State :=
  { State.reset with rcv := { State.reset.rcv with levels := [⟨level, ⟨⟨level, 7, 0, sc, 0⟩, 0, 0, 0, 0, none, 0, 0⟩, 0, false, 0, none, 0, [], [], false⟩], l4Failed := failed } }

theorem witness_levels_and_requests :
    (∀ n ∈ [0, 1, 2, 3, 4, 5, 6],
      let s := levelAsked 1 n
      s.request 12 = 1 ∧ (s.setFlag F.rcvStatusActive true).flag F.rcvStatusActive = true ∧ s.flag F.rcvStatusActive = false ∧ s.fld F.rcvCtrlLevel = n ∧ (s.part (s.fld F.rcvCtrlPartition)).list = none ∧
        (s.part (s.fld F.rcvCtrlPartition)).retained = [] ∧ s.scheduled = false ∧ s.run.take = none ∧ s.scopeQuiet 3 .device = true) ∧
    (let r := leBytes 4 16 ++ List.replicate 60 0
     let s := (levelAsked 2 0).setFld F.rcvCtrlSlot 15
     let s : State := { s with rcv := { s.rcv with records := [(r, [7])] } }
     s.request 12 = 2 ∧ s.dmaOk 0 = true ∧ s.rcv.records.find? (fun r => (fieldLE r.1 0 4 + 15) % 16 == s.fld F.rcvCtrlSlot) = some (r, [7])) ∧
    ((levelAsked 2 0).request 12 = 2 ∧ (levelAsked 2 0).dmaOk 0 = true ∧ (levelAsked 2 0).rcv.records = []) ∧
    (∀ f ∈ [[], [0]], let s := levelRun 4 .device f
      s.rcv.levels.map (fun l => (l.level, l.overdue)) = [(4, false)] ∧ ((s.rcv.l4Failed.filter (fun x => decide (s.now ≤ x + 3600000000000))) = [] ↔ f = [])) ∧
    ((levelRun 3 .device []).rcv.levels.map (fun l => (l.level, l.overdue)) = [(3, false)]) ∧
    ((levelRun 4 .device []).rcv.levels.map (fun l => { l with overdue := true })).map (fun l => l.overdue) = [true] ∧
    ((levelRun 1 (.link 6) []).rcv.levels.map (fun l => (l.level, l.seen.trouble.scope)) = [(1, .link 6)]) ∧
    (∀ n ∈ [3, 4], let s := { State.reset with rcv := { State.reset.rcv with l5Pending := true, l5Times := List.replicate n 0 } }
      s.rcv.l5Pending = true ∧ s.railsGood = true ∧ { s with pins := { s.pins with p54v := false } }.railsGood = false ∧
        (s.rcv.l5Times.filter (fun x => decide (s.now ≤ x + 3600000000000))).length = n) := by
  decide +kernel

/-- Debug right n holds. -/
def withRight (n : Nat) : State := (State.reset.setFlag F.secStatusDebug true).setFld F.dbgStatusRights (2 ^ n)

theorem witness_jtag_and_sampling :
    (withRight 3).hasRight 3 = true ∧ State.reset.hasRight 3 = false ∧ (withRight 3).secState = 0 ∧ (secAsked 3 0).secState ≠ 0 ∧
    ((0 : BitVec 8).toNat % 4 = 0 ∧ (253 : BitVec 8).toNat % 4 ≠ 0) ∧
    (let s := (withRight 3).setFld F.dbgStatusRights 10
     s.hasRight 3 = true ∧ (writeWords 0 0xD00008 true 5).all (fun x => !s.rvChange x.1 x.2.1 x.2.2) = true ∧
       s.dbgAllowed F.dbgTraceCores = true ∧ s.flag F.glbCompatE7 = false) ∧
    (let s := ((withRight 0).setFlag F.dbgCtrlSample true).setFld F.dbgCtrlClusters 1
     let s := (List.range 160).foldl (fun s b => s.setFlag (F.bncStatusPresent b) (b == 9)) s
     s.hasRight 0 = true ∧ s.flag F.dbgCtrlSample = true ∧ s.sampledBenches = [9] ∧ (s.fn 0).d3hot = false ∧ (Tab.get [] s.dbg.fifo 0).length < 256 ∧
       (s.setFn 0 { s.fn 0 with d3hot := true }).fn 0 = { s.fn 0 with d3hot := true } ∧ s.fld (F.bncStatusFault 9) = 0) ∧
    ((inPhase .service).run.phase.inKerf = true ∧ 0 ∈ (inPhase .service).runningBenches ∧ (inPhase .service).fld (F.bncStatusFault 0) = 0) ∧
    (let s := inD3 false
     let s : State := { s with dbg := { s.dbg with fifo := [(0, [List.replicate 32 7])] } }
     s.dmaOk 0 = true ∧ s.dbg.dropped = 0 ∧ s.dbg.fifo = [(0, [List.replicate 32 7])] ∧ (List.replicate 32 (7 : Byte)).length = 32) ∧
    State.reset.hasRight 0 = false := by
  decide +kernel

/-! ### Witnesses: the machine -/

theorem witness_machine :
    ({ State.reset with pending := [.arm] }.pending = [Instr.arm] ∧ State.reset.pending = []) ∧
    (let s := State.reset
     s.mayReach (.inst 1) false 0 0 = false ∧ devAddr (2 ^ 44) = some (0, 0)) ∧
    (let x : Window := ⟨0, 0, 200⟩
     (151 : Int) < x.anchor.toInt - 48 ∧ [Term.fin false 1 0 0, .fin true 1 0 0].Perm [.fin true 1 0 0, .fin false 1 0 0]) := by
  decide +kernel

/-- A step answers a next state, and reset's memories are canonical. -/
theorem witness_step : (∃ t, step State.reset = .next t) ∧ State.reset.Canonical := ⟨⟨_, rfl⟩, rfl, rfl, rfl, nofun, nofun, nofun,
  fun e h => absurd (show e ∈ [] from h) (by simp), nofun, nofun⟩

/-- No byte of an address hole can be reached, and no byte of a unit that no partition owns. -/
theorem witness_without_reach (k u off : Nat) (_ : k < 4) (_ : devAddr (2 ^ 44 + k) = some (u, off)) :
    State.reset.mayReach (.inst 1) true u (off / 65536) = false := by
  have g : State.reset.granule u (off / 65536) = Granule.init := rfl
  simp [State.mayReach, g, Granule.init]

/-! ### Small examples -/

/-- The state after a command. -/
def after (c : Instr) (s : State) : State :=
  match exec c s with
  | .next t => t
  | _ => s

/-- Each check of WellFormed refuses a command whose list has another length, or a number out of range, and takes the same
command at the bound. -/
theorem test_ill_formed :
  let z := fun n => List.replicate n (0 : Byte)
  let p := fun n => { packet 10 0 1 0 [] with payload := z n }
  ([(Instr.kerfCommit ⟨0, List.replicate 39 0⟩, Instr.kerfCommit ⟨0, List.replicate 40 0⟩), (.flitRelease 0 0 (z 639) true, .flitRelease 0 0 (z 640) true),
    (.replayFlitReceived 0 0 (z 641) true true, .replayFlitReceived 0 0 (z 640) true true), (.musterRecord 0 (z 255) false, .musterRecord 0 (z 256) false),
    (.boot ⟨some 1, [], 0⟩, .boot ⟨some 2, [], 0⟩), (.unbind 0 true (z 95) (z 32) 9, .unbind 0 true (z 96) (z 32) 9), (.unbind 0 true (z 96) (z 31) 9, .unbind 0 true (z 96) (z 32) 9), (.challenge 0 0 (z 33), .challenge 0 0 (z 32)),
    (.shelfCommandDone 0 0 ⟨[2 ^ 64], none, false⟩, .shelfCommandDone 0 0 ⟨[2 ^ 64 - 1], none, false⟩),
    (.frameReceived 0 (z 13) true false, .frameReceived 0 (z 14) true false), (.rdmaWritePacket (p 4097), .rdmaWritePacket (p 4096)),
    (.rdmaReadRequest (p 4097), .rdmaReadRequest (p 4096)), (.rdmaReadResponse (p 4097), .rdmaReadResponse (p 4096)),
    (.acknowledge (p 4097), .acknowledge (p 4096)), (.nakReceived (p 4097), .nakReceived (p 4096)), (.cnpReceived (p 4097), .cnpReceived (p 4096)),
    (.sensorSample (List.replicate 24 0), .sensorSample (List.replicate 25 0)), (.sensorSample (List.replicate 25 (2 ^ 23)), .sensorSample (List.replicate 25 (-(2 ^ 23))))]).all (fun x => !x.1.wf && x.2.wf) = true := by
  decide +kernel

/-- 1 + 2 = 3 (02_arithmetic.md R56). By hand. -/
theorem test_vec_add :
    (let s := onBench 0
     let s := s.setBench 0 { s.bench 0 with vreg := [(0, [0x3F800000#32]), (1, [0x40000000#32])] }
     lane (after (.vecAdd 0 (words 0 0 1027)) s) 0 3 0 = 0x40400000#32) := by
  decide +kernel

/-- SHA-384 of "abc" (FIPS 180-4), CRC-32 of "123456789", and AES-256-GCM of a zero block under a zero key (test case 14 of the GCM
specification). -/
theorem test_sha384 : Crypto.sha384 (Crypto.ascii "abc") =
    beBytes 48 0xcb00753f45a35e8bb5a03d699ac65007272c32ab0eded1631a8b605a43ff5bed8086072ba1e7cc2358baeca134c825a7 := by decide +kernel

theorem test_crc32 : Crypto.crc32 (Crypto.ascii "123456789") = 0xCBF43926 := by decide +kernel

theorem test_gcm : Crypto.gcmSeal (List.replicate 32 0) (List.replicate 12 0) [] (List.replicate 16 0) =
    (beBytes 16 0xcea7403d4d606b6e074ec5d3baf39d18, beBytes 16 0xd0d1c8a799996bf0265b98b5d48ab919) := by decide +kernel

/-- An exact 2^3, and 1/2. By hand. -/
theorem test_primitives :
    (let s := onBench 0
     let s := s.setBench 0 { s.bench 0 with vreg := [(0, [0x40400000#32, 0x40000000#32])] }
     lane (after (.trnExp2 0 (words 0 0 1)) s) 0 1 0 = 0x41000000#32 ∧ lane (after (.trnRcp 0 (words 0 0 1)) s) 0 1 1 = 0x3F000000#32) := by
  decide +kernel

/-- CMP of a below b unsigned sets c, and the PC goes on (08_tenon.md R237). -/
theorem test_cmp :
    (let t := after (.aluCmp 4 0 0 1) (onCore 4 id)
     (t.core 4).bit Sw.c = true ∧ (t.core 4).bit Sw.z = false ∧ (t.core 4).pc = 0x104) := by
  decide +kernel

/-- Words written out bit by bit: an AANC slot (class 2, op 1) with wait 5 and split, an undefined op of that class, a branch on
condition 1 by 3 words, a CREL of bench 9 with notify, and an op code that R261 does not define (03_benches.md R94, R95;
08_tenon.md R236, R237, R260, R261). By hand. -/
theorem test_words :
    decodeSlot 7 0x00000003000000020000000110005012 0 0 = some (.aanc 7 ⟨5, true, false, 0, 1, 2, 3⟩) ∧ decodeSlot 7 0x72 0 0 = none ∧
    decodeBranch 20 0x71000003#32 ⟨0, 0⟩ = some (.branch 20 1 3 ⟨0, 0⟩) ∧
    decodeCpx 20 0xB5240001#32 = some (.crel 20 ⟨9, 0, 0, 0, 0, true⟩) ∧ decodeCpx 20 0xB2000000#32 = none := by
  decide +kernel

/-- ARM takes UNBOUND to ARMED (10_tenancy.md R286). -/
theorem test_arm : (after .arm (secAsked 0 1)).secState = 1 := by decide +kernel

/-- A namespace that is created has its size and reads as zeros (14_shelf.md R383). -/
theorem test_ns_create : (after .nsCreate (shelfAsked 1 0)).nsSize 255 = 49152 := by decide +kernel

/-- A step at the front of the queue: DISARM leaves ARM waiting. -/
theorem test_step : (match step { secAsked 1 2 with pending := [.disarm, .arm] } with
    | .next t => t.pending == [.arm] && t.secState == 0
    | _ => false) = true := by
  decide +kernel

end Sys2Proof.Tests
end

section
/-! How a window takes terms: what one term adds, marks and raises, that terms commute, and the statements about
accumulation that follow (02_arithmetic.md R47, R49, R50). -/

namespace Sys2Proof.Machine

/-- Joining special states (R47) does not depend on their order. -/
theorem mergeSpecial_right_comm (s a b : BitVec 8) :
    mergeSpecial (mergeSpecial s a) b = mergeSpecial (mergeSpecial s b) a := by
  have or_lt (c d : BitVec 8) (hc : c.toNat < 4) (hd : d.toNat < 4) : (c ||| d).toNat < 4 :=
    BitVec.toNat_or c d ▸ Nat.or_lt_two_pow (n := 2) hc hd
  unfold mergeSpecial
  by_cases hs : 4 ≤ s.toNat
  · simp [hs]
  by_cases ha : 4 ≤ a.toNat
  · simp [ha]
  by_cases hb : 4 ≤ b.toNat
  · simp [hb]
  have hsa := or_lt s a (by omega) (by omega)
  have hsb := or_lt s b (by omega) (by omega)
  simp [-BitVec.toNat_or, hs, ha, hb, Nat.not_le.mpr hsa, Nat.not_le.mpr hsb, BitVec.or_assoc, BitVec.or_comm a b]

/-- What a term adds to W at anchor A: nothing unless it is finite and not above the anchor. -/
def Term.summand (A : Int) : Term → BitVec 112
  | .fin neg n u l => if A < u then 0 else BitVec.ofInt 112 (termAt A neg n u l)
  | _ => 0

/-- The special state a term leaves. -/
def Term.mark (s : BitVec 8) : Term → BitVec 8
  | .nan => mergeSpecial s 4
  | .inf neg => mergeSpecial s (if neg then 2 else 1)
  | .fin .. => s

/-- A finite term above anchor A (03_benches.md R75). -/
def Term.isAbove (A : Int) : Term → Bool
  | .fin _ _ u _ => decide (A < u)
  | _ => false

/-- What adding one term does: W, special state and flag each depend on their own part of the window and on the anchor. -/
theorem Window.addTerm_eq (x : Window) (t : Term) :
    x.addTerm t = (⟨x.w + t.summand x.anchor.toInt, t.mark x.special, x.anchor⟩, t.isAbove x.anchor.toInt) := by
  cases t with
  | nan => simp [addTerm, Term.summand, Term.mark, Term.isAbove]
  | inf neg => simp [addTerm, Term.summand, Term.mark, Term.isAbove]
  | fin neg n u l =>
    by_cases h : x.anchor.toInt < u <;> simp [addTerm, Term.summand, Term.mark, Term.isAbove, h]

theorem Term.mark_right_comm (s : BitVec 8) (t u : Term) : u.mark (t.mark s) = t.mark (u.mark s) := by
  cases t with
  | fin => rfl
  | nan | inf =>
    cases u with
    | fin => rfl
    | nan | inf => exact mergeSpecial_right_comm _ _ _

/-- Two terms leave the same window in either order. -/
theorem Window.addTerm_right_comm (x : Window) (t u : Term) :
    ((x.addTerm t).1.addTerm u).1 = ((x.addTerm u).1.addTerm t).1 := by
  simp only [addTerm_eq, Term.mark_right_comm x.special t u, BitVec.add_assoc,
    BitVec.add_comm (t.summand x.anchor.toInt)]

/-- The flag of a term is the same after another term. -/
theorem Window.addTerm_addTerm_flag (x : Window) (t u : Term) : ((x.addTerm t).1.addTerm u).2 = (x.addTerm u).2 := by
  simp only [addTerm_eq]

@[simp] theorem Window.addTerms_anchor (x : Window) (ts : List Term) : (x.addTerms ts).1.anchor = x.anchor := by
  induction ts generalizing x with
  | nil => rfl
  | cons t ts ih => simp [addTerms_cons, ih]

/-- Terms are added in parts. -/
theorem Window.addTerms_append (x : Window) (ts us : List Term) :
    x.addTerms (ts ++ us) =
      (((x.addTerms ts).1.addTerms us).1, (x.addTerms ts).2 || ((x.addTerms ts).1.addTerms us).2) := by
  induction ts generalizing x with
  | nil => simp
  | cons t ts ih => simp [addTerms_cons, ih, Bool.or_assoc]

theorem Window.addTerms_perm (x : Window) {ts us : List Term} (h : ts.Perm us) : x.addTerms ts = x.addTerms us := by
  induction h generalizing x with
  | nil => rfl
  | cons t _ ih => rw [addTerms_cons, addTerms_cons, ih]
  | swap t u ts =>
    simp only [addTerms_cons, addTerm_addTerm_flag, addTerm_right_comm x u t, Bool.or_left_comm]
  | trans _ _ ih₁ ih₂ => rw [ih₁, ih₂]

/-- Settles O57: two terms commute, so permuted terms do; the flag of a term depends on the anchor alone. -/
theorem accumulationDoesNotDependOnOrder : Obligations.accumulation_does_not_depend_on_order := by
  intro x ts us
  exact ⟨x.addTerms_perm, by rw [x.addTerms_append], x.addTerms_anchor ts⟩

/-- A term beyond the spread limit (R49) leaves the window and raises nothing. -/
theorem Window.addTerm_far (x : Window) (neg : Bool) (n : Nat) {u : Int} (l : Int) (h : u < x.anchor.toInt - 48) :
    x.addTerm (.fin neg n u l) = (x, false) := by
  have below : ¬ x.anchor.toInt < u := by omega
  simp [addTerm, termAt, h, below]

/-- Settles O58: after the terms before it the anchor is still the same, so the far term leaves the window there. -/
theorem farTermsContributeZero : Obligations.far_terms_contribute_zero := by
  intro x neg n u l ts us h
  have far : (x.addTerms ts).1.addTerm (.fin neg n u l) = ((x.addTerms ts).1, false) :=
    Window.addTerm_far _ neg n l (by rwa [x.addTerms_anchor ts])
  exact ⟨x.addTerm_far neg n l h, by simp only [Window.addTerms_append, Window.addTerms_cons, far, Bool.false_or]⟩

end Sys2Proof.Machine
end

section
/-! Every step keeps every memory in canonical form (07_memory.md R200; 03_benches.md R82, R92). For each operation
    that
answers a state there is one lemma under its name in `State.Canonical`, so that the proof for a composed operation
reads as the operation does: `h.setFld.ringPut`. -/

namespace Sys2Proof.Machine

/-! ### Tables whose entries all have a property -/

theorem Tab.get_of_forall {α : Type} {P : α → Prop} {d : α} {m : Tab α} (h : ∀ e ∈ m, P e.2) (hd : P d) (k : Nat) :
    P (Tab.get d m k) := by
  induction m with
  | nil => exact hd
  | cons c m ih =>
    rw [List.forall_mem_cons] at h
    rw [Tab.get]
    split
    · exact h.1
    · exact ih h.2

theorem Tab.forall_put {α : Type} {P : α → Prop} {m : Tab α} (h : ∀ e ∈ m, P e.2) {v : α} (hv : P v) (k : Nat) :
    ∀ e ∈ Tab.put m k v, P e.2 := by
  induction m with
  | nil => simpa [Tab.put] using hv
  | cons c m ih =>
    rw [List.forall_mem_cons] at h
    rw [Tab.put]
    split
    · exact List.forall_mem_cons.2 ⟨hv, h.2⟩
    · split
      · exact List.forall_mem_cons.2 ⟨hv, List.forall_mem_cons.2 h⟩
      · exact List.forall_mem_cons.2 ⟨h.1, ih h.2⟩

theorem Tab.forall_set {α : Type} [DecidableEq α] {P : α → Prop} {d : α} {m : Tab α} (h : ∀ e ∈ m, P e.2) {v : α} (hv
    : P v)
    (k : Nat) : ∀ e ∈ Tab.set d m k v, P e.2 := by
  unfold Tab.set Tab.erase
  split
  · exact fun e he => h e (List.mem_of_mem_filter he)
  · exact Tab.forall_put h hv k

/-! ### What the canonical form speaks of -/

/-- The tightly coupled memory of a core is in canonical form. -/
def Core.Canonical (x : Core) : Prop := Memory.wf x.tcm = true

/-- The bytes of a memory unit are. -/
def MemUnit.Canonical (x : MemUnit) : Prop := Memory.wf x.bytes = true

/-- The ring of an attached queue pair is. -/
def Qp.Canonical (x : Qp) : Prop := ∀ a, x.attach = some a → Memory.wf a.ring = true

/-- The benches that a checkpoint holds are. -/
def Saved.Canonical (x : Saved) : Prop := ∀ e ∈ x.benches, e.2.Canonical

/-- What a RESTORE has read is. -/
def Restore.Canonical (x : Restore) : Prop := Memory.wf x.buf = true ∧ ∀ v ∈ x.items, v.Canonical

theorem cleanMemory_wf (n : Nat) (cells : Memory) : Memory.wf (cleanMemory n cells) = true := by
  have step (m : Memory) (hm : Memory.wf m = true) :
      Memory.wf (cells.foldl (fun m c => if c.1 < n then Memory.write m c.1 [c.2] else m) m) = true := by
    induction cells generalizing m with
    | nil => exact hm
    | cons c cells ih =>
      refine ih _ ?_
      dsimp only
      split
      · exact Memory.wf_write _ _ hm
      · exact hm
  exact step [] rfl

theorem Bench.canonical_init : Bench.init.Canonical := ⟨rfl, rfl, rfl⟩
theorem Core.canonical_init : Core.init.Canonical := rfl
theorem MemUnit.canonical_init : MemUnit.init.Canonical := rfl
theorem Qp.canonical_init : Qp.init.Canonical := nofun

/-! A change of anything but the memories keeps the canonical form. -/

theorem Bench.Canonical.others {x : Bench} (h : x.Canonical) {po ue ce vr wi pr tk fl sl lo st wd re ab en ef mu ct} :
    Bench.Canonical { x with
        poison := po, ue := ue, ce := ce, vreg := vr, wins := wi, prescan := pr, tokens := tk, flight := fl
        slot := sl, loop := lo, stall := st, window := wd, released := re, abandoned := ab, entries := en
        entryFault := ef, mute := mu, ctrs := ct } := h

theorem Core.Canonical.others {x : Core} (h : x.Canonical)
    {p g c pc sw lc vtb sp cfg fc fa cy cq ip ie pi mb ml wl wt wf tu po lk ha wa he fr sk wp re di te} :
    Core.Canonical { x with
        p := p, g := g, c := c, pc := pc, sw := sw, lc := lc, vtb := vtb, splim := sp, cfg := cfg, fcause := fc
        faddr := fa, cycle := cy, cpxsq := cq, ipend := ip, ien := ie, ipri := pi, mpuBase := mb, mpuLim := ml
        wdtLoad := wl, wdtLeft := wt, wdtFirst := wf, tcmUe := tu, posted := po, lockup := lk, halted := ha
        waiting := wa, held := he, fresh := fr, skip := sk, wdtPend := wp, retired := re, digest := di, tenant := te }
        := h

theorem MemUnit.Canonical.others {x : MemUnit} (h : x.Canonical) {po ce ue fl rp wb gr ra c0 c1 aa bf ut} :
    MemUnit.Canonical { x with
        poison := po, ce := ce, ue := ue, flips := fl, repoison := rp, writeback := wb, gran := gr, refreshAt := ra
        cool0 := c0, cool1 := c1, accessAt := aa, before := bf, ueTimes := ut } := h

theorem Qp.Canonical.others {x : Qp} (h : x.Canonical)
    {i6 mt pq ds ip rx tx un rc ti rs pm wq ms ns uk lc se sc r1 r2 fr ic tk ta mn} :
    Qp.Canonical { x with
        ipv6 := i6, mtu := mt, peerQp := pq, dscp := ds, peerIp := ip, rxPsn := rx, txPsn := tx, una := un
        retryCount := rc, timeout := ti, resolving := rs, peerMac := pm, wqes := wq, msg := ms, nakSent := ns
        unacked := uk, lastCnp := lc, sealing := se, sealCtr := sc, rc := r1, rt := r2, frac := fr, incs := ic
        tokens := tk, tokAt := ta, msn := mn } := h

theorem Bench.Canonical.ite {c : Prop} [Decidable c] {x y : Bench} (hx : x.Canonical) (hy : y.Canonical) :
    (if c then x else y).Canonical := by
  split
  · exact hx
  · exact hy

theorem Core.Canonical.ite {c : Prop} [Decidable c] {x y : Core} (hx : x.Canonical) (hy : y.Canonical) :
    (if c then x else y).Canonical := by
  split
  · exact hx
  · exact hy

theorem MemUnit.Canonical.foldl {α : Type} {f : MemUnit → α → MemUnit} {l : List α} {x : MemUnit} (h : x.Canonical)
    (hf : ∀ {y : MemUnit}, y.Canonical → ∀ a, (f y a).Canonical) : (l.foldl f x).Canonical := by
  induction l generalizing x with
  | nil => exact h
  | cons a l ih => exact ih (hf h a)

theorem Bench.Canonical.withProg {x : Bench} (h : x.Canonical) {m : Memory} (hm : Memory.wf m = true) :
    Bench.Canonical { x with prog := m } := ⟨h.1, hm, h.2.2⟩

theorem Bench.Canonical.withStaging {x : Bench} (h : x.Canonical) {m : Memory} (hm : Memory.wf m = true) :
    Bench.Canonical { x with staging := m } := ⟨h.1, h.2.1, hm⟩

theorem Core.Canonical.of_push {x y : Core} (h : x.Canonical) {v : W32} (e : x.push v = .ok y) : y.Canonical := by
  unfold Core.push at e
  extract_lets sp a at e
  split at e
  · cases e
  · split at e
    · cases e
    · split at e
      · cases e
      · cases e
        unfold Core.store
        split
        · exact h
        · exact Memory.wf_write _ _ h

theorem Core.Canonical.of_enter {x y : Core} (h : x.Canonical) {vector resume prio answer}
    (e : x.enter vector resume prio answer = some y) : y.Canonical := by
  unfold Core.enter at e
  split at e
  · cases e
  · next hy =>
    split at e
    · cases e
    · next hz =>
      extract_lets sw sw' cause z a target at e
      split at e
      · cases e
      · cases e
        have hw := (h.of_push hy).of_push hz
        exact hw

theorem Attach.put_ring (a : Attach) (off : Nat) (bs : List Byte) :
    (a.put off bs).ring = if 4096 < off + bs.length then
      Memory.write a.ring (off - 4096) ((bs.drop (4096 - off)).take (64 * 2 ^ a.log2 - (off - 4096))) else a.ring :=
          by
  simp only [Attach.put, apply_ite Attach.ring, ite_self]

theorem Attach.wf_put {a : Attach} (h : Memory.wf a.ring = true) (off : Nat) (bs : List Byte) :
    Memory.wf (a.put off bs).ring = true := by
  rw [Attach.put_ring]
  split
  · exact Memory.wf_write _ _ h
  · exact h

/-- What the body of an instruction gives is in canonical form. -/
def Did.Canonical : Did → Prop
  | .done s _ => s.Canonical
  | .faultIn s _ => s.Canonical
  | .waitIn s => s.Canonical
  | _ => True

theorem Did.Canonical.ite {c : Prop} [Decidable c] {x y : Did} (hx : x.Canonical) (hy : y.Canonical) :
    (if c then x else y).Canonical := by
  split
  · exact hx
  · exact hy

/-- An instruction answers a next state in canonical form. -/
def NextCanonical (r : Host.Outcome State Fault Refusal) : Prop := ∃ t, r = .next t ∧ t.Canonical

theorem NextCanonical.next {s : State} (h : s.Canonical) : NextCanonical (.next s) := ⟨s, rfl, h⟩

set_option maxRecDepth 4000 in
theorem State.rejectPeersFor_succ (s : State) (fuel : Nat) : s.rejectPeersFor (fuel + 1) =
    match s.shelfPick with
    | none => s
    | some (q, _) => match s.attachOf q with
      | none => s
      | some (n, a) => match a.next? (a.head % 2 ^ a.log2) with
        | none => s
        | some d =>
          if 1 ≤ d.opcode ∧ d.opcode ≤ 5 then s
          else State.rejectPeersFor (match (s.takePeer n a).shelfSeq q (d.w0 32 16) with
            | (none, s) => s
            | (some _, s) => s.peerComplete q (a.head % 2 ^ a.log2) (d.le 2 2) Status.badDescriptor 0) fuel := rfl

namespace State.Canonical
variable {s : State}

theorem others (h : s.Canonical) {pe fc no ou re cl pa ru sw pl li rc se db lo pw sh et ti mg pi mf} :
    State.Canonical { s with
        pending := pe, freeCtr := fc, now := no, out := ou, regs := re, clusters := cl, parts := pa, run := ru
        stowed := sw, plain := pl, links := li, rcv := rc, sec := se, dbg := db, log := lo, pwr := pw, shelf := sh
        eth := et, tim := ti, mgmt := mg, pins := pi, mfg := mf } := h
theorem withHost (h : s.Canonical) {fn vf pu im ta vi en fs lp sd} :
    State.Canonical { s with host := { s.host with
        fns := fn, vfEnable := vf, published := pu, imageless := im, table := ta, views := vi, enabled := en
        fetchSeq := fs, lowPower := lp, serviced := sd } } := h
theorem withFw (h : s.Canonical) {fu ca so wd da ac ho} :
    State.Canonical { s with fw := { s.fw with
        fused := fu, cache := ca, source := so, wdt := wd, data := da, askCores := ac, hold := ho } } := h
theorem withRma (h : s.Canonical) {rr} : State.Canonical { s with rma := { s.rma with regs := rr } } := h

theorem ite {c : Prop} [Decidable c] {t u : State} (ht : t.Canonical) (hu : u.Canonical) : (if c then t else
    u).Canonical := by
  split
  · exact ht
  · exact hu

theorem ite_fst {α : Type} {c : Prop} [Decidable c] {p q : State × α} (hp : p.1.Canonical) (hq : q.1.Canonical) :
    (if c then p else q).1.Canonical := by
  split
  · exact hp
  · exact hq

theorem ite_snd {α : Type} {c : Prop} [Decidable c] {p q : α × State} (hp : p.2.Canonical) (hq : q.2.Canonical) :
    (if c then p else q).2.Canonical := by
  split
  · exact hp
  · exact hq

theorem ite_snd_snd {α β : Type} {c : Prop} [Decidable c] {p q : α × β × State} (hp : p.2.2.Canonical)
    (hq : q.2.2.Canonical) : (if c then p else q).2.2.Canonical := by
  split
  · exact hp
  · exact hq

theorem foldl {α : Type} {f : State → α → State} {l : List α} (h : s.Canonical)
    (hf : ∀ {t : State}, t.Canonical → ∀ a, (f t a).Canonical) : (l.foldl f s).Canonical := by
  induction l generalizing s with
  | nil => exact h
  | cons a l ih => exact ih (hf h a)

theorem foldl_mem {α : Type} {f : State → α → State} {l : List α} (h : s.Canonical)
    (hf : ∀ {t : State}, t.Canonical → ∀ a ∈ l, (f t a).Canonical) : (l.foldl f s).Canonical := by
  induction l generalizing s with
  | nil => exact h
  | cons a l ih => exact ih (hf h a List.mem_cons_self) (fun ht b hb => hf ht b (List.mem_cons_of_mem a hb))

theorem foldl_fst {α β : Type} {f : State × β → α → State × β} {l : List α} {p : State × β} (h : p.1.Canonical)
    (hf : ∀ {q : State × β}, q.1.Canonical → ∀ a, (f q a).1.Canonical) : (l.foldl f p).1.Canonical := by
  induction l generalizing p with
  | nil => exact h
  | cons a l ih => exact ih (hf h a)

theorem foldl_snd {α β : Type} {f : β × State → α → β × State} {l : List α} {p : β × State} (h : p.2.Canonical)
    (hf : ∀ {q : β × State}, q.2.Canonical → ∀ a, (f q a).2.Canonical) : (l.foldl f p).2.Canonical := by
  induction l generalizing p with
  | nil => exact h
  | cons a l ih => exact ih (hf h a)

theorem foldl_snd_snd {α β γ : Type} {f : β × γ × State → α → β × γ × State} {l : List α} {p : β × γ × State}
    (h : p.2.2.Canonical) (hf : ∀ {q : β × γ × State}, q.2.2.Canonical → ∀ a, (f q a).2.2.Canonical) :
    (l.foldl f p).2.2.Canonical := by
  induction l generalizing p with
  | nil => exact h
  | cons a l ih => exact ih (hf h a)

theorem foldl_both {α β : Type} {P : β → Prop} {f : β × State → α → β × State} {l : List α} {p : β × State} (hp : P
    p.1)
    (h : p.2.Canonical)
    (hf : ∀ {q : β × State}, P q.1 → q.2.Canonical → ∀ a, P (f q a).1 ∧ (f q a).2.Canonical) :
    P (l.foldl f p).1 ∧ (l.foldl f p).2.Canonical := by
  induction l generalizing p with
  | nil => exact ⟨hp, h⟩
  | cons a l ih => exact ih (hf hp h a).1 (hf hp h a).2

theorem of_snd_eq {α : Type} {p : α × State} {a : α} (h : p.2.Canonical) (e : p = (a, s)) : s.Canonical := by
  subst e
  exact h

theorem of_snd_snd_eq {α β : Type} {p : α × β × State} {a : α} {b : β} (h : p.2.2.Canonical) (e : p = (a, b, s)) :
    s.Canonical := by
  subst e
  exact h

/-! What a state in canonical form holds. -/

theorem hostMem (h : s.Canonical) : Memory.wf s.host.mem = true := h.1
theorem farMem (h : s.Canonical) : Memory.wf s.host.far = true := h.2.1
theorem flash (h : s.Canonical) : Memory.wf s.fw.flash = true := h.2.2.1
theorem mems (h : s.Canonical) : ∀ e ∈ s.mems, e.2.Canonical := h.2.2.2.1
theorem benches (h : s.Canonical) : ∀ e ∈ s.benches, e.2.Canonical := h.2.2.2.2.1
theorem cores (h : s.Canonical) : ∀ e ∈ s.cores, e.2.Canonical := h.2.2.2.2.2.1
theorem qps (h : s.Canonical) : ∀ e ∈ s.rma.qps, e.2.Canonical := h.2.2.2.2.2.2.1
theorem saved (h : s.Canonical) : ∀ e ∈ s.saved, e.2.Canonical := h.2.2.2.2.2.2.2.1
theorem restores (h : s.Canonical) : ∀ x ∈ s.restores, x.Canonical := h.2.2.2.2.2.2.2.2

theorem bench (h : s.Canonical) (b : Nat) : (s.bench b).Canonical := Tab.get_of_forall h.benches Bench.canonical_init
    b
theorem core (h : s.Canonical) (k : Nat) : (s.core k).Canonical := Tab.get_of_forall h.cores Core.canonical_init k
theorem memUnit (h : s.Canonical) (u : Nat) : (s.memUnit u).Canonical := Tab.get_of_forall h.mems
    MemUnit.canonical_init u
theorem qp (h : s.Canonical) (n : Nat) : (s.qp n).Canonical := Tab.get_of_forall h.qps Qp.canonical_init n

theorem of_attachOf (h : s.Canonical) {q n : Nat} {a : Attach} (e : s.attachOf q = some (n, a)) : Memory.wf a.ring =
    true := by
  obtain ⟨k, -, hk⟩ := List.exists_of_findSome?_eq_some e
  split at hk
  · next hb =>
    split at hk
    · cases hk
      exact h.qp _ _ hb
    · cases hk
  · cases hk

/-! What may be put into it. -/

theorem withHostMem (h : s.Canonical) {m : Memory} (hm : Memory.wf m = true) :
    State.Canonical { s with host := { s.host with mem := m } } := ⟨hm, h.2⟩
theorem withFar (h : s.Canonical) {m : Memory} (hm : Memory.wf m = true) :
    State.Canonical { s with host := { s.host with far := m } } := ⟨h.1, hm, h.2.2⟩
theorem withFlash (h : s.Canonical) {m : Memory} (hm : Memory.wf m = true) :
    State.Canonical { s with fw := { s.fw with flash := m } } := ⟨h.1, h.2.1, hm, h.2.2.2⟩
theorem zeroFlash (h : s.Canonical) {a n} :
    State.Canonical { s with fw := { s.fw with flash := Memory.zero s.fw.flash a n } } := h.withFlash (Memory.wf_zero
        a n h.flash)
theorem withMems (h : s.Canonical) {m : Tab MemUnit} (hm : ∀ e ∈ m, e.2.Canonical) : State.Canonical { s with mems :=
    m } :=
  ⟨h.hostMem, h.farMem, h.flash, hm, h.benches, h.cores, h.qps, h.saved, h.restores⟩
theorem withBenches (h : s.Canonical) {m : Tab Bench} (hm : ∀ e ∈ m, e.2.Canonical) : State.Canonical { s with benches
    := m } :=
  ⟨h.hostMem, h.farMem, h.flash, h.mems, hm, h.cores, h.qps, h.saved, h.restores⟩
theorem withCores (h : s.Canonical) {m : Tab Core} (hm : ∀ e ∈ m, e.2.Canonical) : State.Canonical { s with cores := m
    } :=
  ⟨h.hostMem, h.farMem, h.flash, h.mems, h.benches, hm, h.qps, h.saved, h.restores⟩
theorem withQps (h : s.Canonical) {m : Tab Qp} (hm : ∀ e ∈ m, e.2.Canonical) :
    State.Canonical { s with rma := { s.rma with qps := m } } :=
  ⟨h.hostMem, h.farMem, h.flash, h.mems, h.benches, h.cores, hm, h.saved, h.restores⟩
theorem withSaved (h : s.Canonical) {m} (hm : ∀ e ∈ m, e.2.Canonical) : State.Canonical { s with saved := m } :=
  ⟨h.hostMem, h.farMem, h.flash, h.mems, h.benches, h.cores, h.qps, hm, h.restores⟩
theorem withRestores (h : s.Canonical) {m} (hm : ∀ x ∈ m, x.Canonical) : State.Canonical { s with restores := m } :=
  ⟨h.hostMem, h.farMem, h.flash, h.mems, h.benches, h.cores, h.qps, h.saved, hm⟩

theorem filterRestores (h : s.Canonical) {p} : State.Canonical { s with restores := s.restores.filter p } :=
  h.withRestores fun x hx => h.restores x (List.mem_of_mem_filter hx)
theorem mapRestores (h : s.Canonical) {f : Restore → Restore} (hf : ∀ x, x.Canonical → (f x).Canonical) :
    State.Canonical { s with restores := s.restores.map f } :=
  h.withRestores (List.forall_mem_map.2 fun x hx => hf x (h.restores x hx))
theorem setHostMem (h : s.Canonical) {a bs} : (s.setHostMem (Memory.write s.host.mem a bs)).Canonical :=
  h.withHostMem (Memory.wf_write a bs h.hostMem)
theorem putBench (h : s.Canonical) {b x} (hx : x.Canonical) : (s.setBench b x).Canonical :=
  h.withBenches (Tab.forall_set h.benches hx b)
theorem putCore (h : s.Canonical) {k x} (hx : x.Canonical) : (s.setCore k x).Canonical :=
  h.withCores (Tab.forall_set h.cores hx k)
theorem putMemUnit (h : s.Canonical) {u x} (hx : x.Canonical) : (s.setMemUnit u x).Canonical :=
  h.withMems (Tab.forall_set h.mems hx u)
theorem putQp (h : s.Canonical) {n x} (hx : x.Canonical) : (s.setQp n x).Canonical :=
  h.withQps (Tab.forall_set h.qps hx n)

/-! A bench, a core, a memory unit or a queue pair with its memories as they were. -/

theorem setBench (h : s.Canonical) {b po ue ce vr wi pr tk fl sl lo st wd re ab en ef mu ct} :
    (s.setBench b { s.bench b with
        poison := po, ue := ue, ce := ce, vreg := vr, wins := wi, prescan := pr, tokens := tk, flight := fl
        slot := sl, loop := lo, stall := st, window := wd, released := re, abandoned := ab, entries := en
        entryFault := ef, mute := mu, ctrs := ct }).Canonical :=
  h.putBench (h.bench b).others
theorem setCore (h : s.Canonical)
    {k p g c pc sw lc vtb sp cfg fc fa cy cq ip ie pi mb ml wl wt wf tu po lk ha wa he fr sk wp re di te} :
    (s.setCore k { s.core k with
        p := p, g := g, c := c, pc := pc, sw := sw, lc := lc, vtb := vtb, splim := sp, cfg := cfg, fcause := fc
        faddr := fa, cycle := cy, cpxsq := cq, ipend := ip, ien := ie, ipri := pi, mpuBase := mb, mpuLim := ml
        wdtLoad := wl, wdtLeft := wt, wdtFirst := wf, tcmUe := tu, posted := po, lockup := lk, halted := ha
        waiting := wa, held := he, fresh := fr, skip := sk, wdtPend := wp, retired := re, digest := di, tenant := te }).Canonical :=
  h.putCore (h.core k).others
theorem setMemUnit (h : s.Canonical) {u po ce ue fl rp wb gr ra c0 c1 aa bf ut} :
    (s.setMemUnit u { s.memUnit u with
        poison := po, ce := ce, ue := ue, flips := fl, repoison := rp, writeback := wb, gran := gr, refreshAt := ra
        cool0 := c0, cool1 := c1, accessAt := aa, before := bf, ueTimes := ut }).Canonical :=
  h.putMemUnit (h.memUnit u).others
theorem setQp (h : s.Canonical) {n i6 mt pq ds ip rx tx un rc ti rs pm wq ms ns uk lc se sc r1 r2 fr ic tk ta mn} :
    (s.setQp n { s.qp n with
        ipv6 := i6, mtu := mt, peerQp := pq, dscp := ds, peerIp := ip, rxPsn := rx, txPsn := tx, una := un
        retryCount := rc, timeout := ti, resolving := rs, peerMac := pm, wqes := wq, msg := ms, nakSent := ns
        unacked := uk, lastCnp := lc, sealing := se, sealCtr := sc, rc := r1, rt := r2, frac := fr, incs := ic
        tokens := tk, tokAt := ta, msn := mn }).Canonical :=
  h.putQp (h.qp n).others

end State.Canonical

/-! ### Machine/Ops -/

namespace State.Canonical
variable {s : State}

theorem setFld (h : s.Canonical) {f v} : (s.setFld f v).Canonical := h.others
theorem setFlag (h : s.Canonical) {f v} : (s.setFlag f v).Canonical := h.setFld
theorem count (h : s.Canonical) {f n} : (s.count f n).Canonical := h.setFld
theorem wrapAdd (h : s.Canonical) {f n} : (s.wrapAdd f n).Canonical := h.setFld
theorem bumpFree (h : s.Canonical) : s.bumpFree.Canonical := h.others
theorem emit (h : s.Canonical) {m} : (s.emit m).Canonical := h.others
theorem setCluster (h : s.Canonical) {k x} : (s.setCluster k x).Canonical := h.others
theorem markLine (h : s.Canonical) {k line} : (s.markLine k line).Canonical := .ite h h.setCore
theorem setPart (h : s.Canonical) {p x} : (s.setPart p x).Canonical := h.others
theorem setLink (h : s.Canonical) {j x} : (s.setLink j x).Canonical := h.others
theorem setFn (h : s.Canonical) {i x} : (s.setFn i x).Canonical := h.withHost
theorem setRing (h : s.Canonical) {i r x} : (s.setRing i r x).Canonical := h.setFn
theorem violate (h : s.Canonical) {i} : (s.violate i).Canonical := .ite h h.count
theorem violateIf (h : s.Canonical) {b i} : (s.violateIf b i).Canonical := .ite h.violate h
theorem retryConfig (h : s.Canonical) {i} : (s.retryConfig i).Canonical := .ite h h.emit

theorem wake (h : s.Canonical) {bit} : (s.wake bit).Canonical :=
  .ite (.ite h.setFld (.ite h.setFld.setFn.others.emit (.ite h.setFld.setFn.emit h.setFld))) h.setFld

theorem ringPut (h : s.Canonical) {i r bytes now} : (s.ringPut i r bytes now).Canonical := h.setHostMem.setFld.setRing

theorem reportLost (h : s.Canonical) {i r} : (s.reportLost i r).Canonical := .ite h h.setRing.ringPut

theorem event (h : s.Canonical) {i code subject detail} : (s.event i code subject detail).Canonical := by
  unfold State.event
  dsimp only
  split
  · exact .ite h.wake h
  · exact .ite (.ringPut (.reportLost (.ite h.wake h))) (.setRing (.reportLost (.ite h.wake h)))

theorem eventBoth (h : s.Canonical) {owner code subject detail} : (s.eventBoth owner code subject detail).Canonical
    := by
  unfold State.eventBoth
  dsimp only
  split
  exacts [h.event, h.event.event]

theorem handOver (h : s.Canonical) {i r c} : (s.handOver i r c).Canonical := h.setRing

theorem settleReset (h : s.Canonical) {i r} : (s.settleReset i r).Canonical :=
  .ite h.setFld.setFld.setFld.setFlag.setRing.withHost h

theorem flush (h : s.Canonical) {i r} : (s.flush i r).Canonical :=
  .settleReset (.foldl h.setRing (fun h _ => h.handOver))

theorem writeCpl (h : s.Canonical) {i r} : (s.writeCpl i r).Canonical := by
  unfold State.writeCpl
  dsimp only
  split
  exacts [h, .ite h.setRing.ringPut.settleReset h]

theorem writeCpls (h : s.Canonical) : s.writeCpls.Canonical :=
  .foldl h (fun h _ => .foldl h (fun h _ => .foldl h (fun h _ => h.writeCpl)))

theorem complete (h : s.Canonical) {o status result} : (s.complete o status result).Canonical := h.setRing.flush

theorem launch (h : s.Canonical) {i r d} : (s.launch i r d).Canonical := h.setRing

theorem setNeeds (h : s.Canonical) {o mask} : (s.setNeeds o mask).Canonical := h.setRing

theorem dropRegs (h : s.Canonical) {gone} : (s.dropRegs gone).Canonical := h.others

theorem withOp (h : s.Canonical) {i r kind opcode body} (hbody : ∀ {t a b}, t.Canonical → (body t a b).Canonical) :
    (s.withOp i r kind opcode body).Canonical := by
  unfold State.withOp
  split
  exacts [h, .ite h.launch.complete (hbody h.launch)]

theorem setRequest (h : s.Canonical) {b v} : (s.setRequest b v).Canonical := h.others

end State.Canonical

/-! ### Machine/OpsSec -/

namespace State.Canonical
variable {s : State}

theorem useKey (h : s.Canonical) {label} : (s.useKey label).Canonical :=
  .ite (.others (.ite h h.wrapAdd)) (.others (.ite h h.wrapAdd))

theorem useKeys (h : s.Canonical) {labels} : (s.useKeys labels).Canonical := .foldl h (fun h _ => h.useKey)

theorem useBound (h : s.Canonical) {labels} : (s.useBound labels).Canonical := by
  unfold State.useBound
  split
  exacts [h, h.useKeys]

end State.Canonical

/-! ### Machine/OpsLog -/

namespace State.Canonical
variable {s : State}

theorem flashWrite (h : s.Canonical) {a bs} : (s.flashWrite a bs).Canonical :=
  (h.withFlash (Memory.wf_write _ _ h.flash)).markLine

theorem logCount (h : s.Canonical) {i n} : (s.logCount i n).Canonical := h.others

theorem program (h : s.Canonical) {n} : (s.program n).Canonical := h.others

theorem logRing (h : s.Canonical) {off size n bs} : (s.logRing off size n bs).Canonical :=
  .flashWrite (.ite h.zeroFlash h)

theorem logEvent (h : s.Canonical) {code subject detail} : (s.logEvent code subject detail).Canonical :=
  h.logRing.others

theorem logEnergy (h : s.Canonical) {n} : (s.logEnergy n).Canonical := h.others

theorem alert (h : s.Canonical) {body} (hbody : ∀ {t}, t.Canonical → (body t).Canonical) : (s.alert body).Canonical
    :=
  .ite (hbody h) (hbody h).emit

theorem sendMgmt (h : s.Canonical) {bus code bytes} : (s.sendMgmt bus code bytes).Canonical := by
  unfold State.sendMgmt
  split
  exacts [.ite (h.alert (fun h => h.others)) h.emit.others, h.emit]

theorem drainMgmt (h : s.Canonical) : s.drainMgmt.Canonical := .foldl h.others (fun h _ => h.sendMgmt)

theorem platformEvent (h : s.Canonical) {code bytes} : (s.platformEvent code bytes).Canonical := by
  unfold State.platformEvent
  split
  exacts [h, h.sendMgmt]

theorem critical (h : s.Canonical) {code detail} : (s.critical code detail).Canonical :=
  h.event.logEvent.others.platformEvent

end State.Canonical

/-! ### Machine/OpsMem -/

namespace State.Canonical
variable {s : State}

theorem setGranule (h : s.Canonical) {u g x} : (s.setGranule u g x).Canonical := h.setMemUnit
theorem countCorrected (h : s.Canonical) {u n} : (s.countCorrected u n).Canonical := .ite h (.ite h.count h.count)
theorem countUncorrected (h : s.Canonical) {u} : (s.countUncorrected u).Canonical := .ite h.count.logCount h.count
theorem touch (h : s.Canonical) {u} : (s.touch u).Canonical := .ite (h.setFld.putMemUnit (h.memUnit _).others) h
theorem countIsolated (h : s.Canonical) {v} : (s.countIsolated v).Canonical := h.count

theorem hostRead (h : s.Canonical) {via a n} : (s.hostRead via a n).2.Canonical := by
  unfold State.hostRead
  split
  exacts [h.count, h]

theorem hostWrite (h : s.Canonical) {via a bs} : (s.hostWrite via a bs).Canonical := by
  unfold State.hostWrite
  split
  exacts [h.count, h.setHostMem]

theorem countLook (h : s.Canonical) {u k} : (s.countLook u k).Canonical :=
  .ite (.setMemUnit (.countUncorrected (.ite h.countCorrected.count h.countCorrected))) (.ite h.countCorrected.count
    h.countCorrected)

theorem readLine (h : s.Canonical) {via u line} : (s.readLine via u line).2.2.Canonical := by
  unfold State.readLine
  split
  exacts [h.countIsolated, .ite_snd_snd h.touch h.touch.countLook.setMemUnit]

end State.Canonical

namespace MemUnit.Canonical
variable {x : MemUnit}

theorem putLine (h : x.Canonical) {line bytes poisoned} : (x.putLine line bytes poisoned).Canonical := by
  unfold MemUnit.putLine MemUnit.Canonical
  dsimp only
  split
  · exact Memory.wf_zero _ _ h
  · exact Memory.wf_write _ _ h

theorem writeBack (h : x.Canonical) {line} : (x.writeBack line).Canonical := h.others

end MemUnit.Canonical

namespace State.Canonical
variable {s : State}

theorem writeLine (h : s.Canonical) {via u line bytes poisoned} : (s.writeLine via u line bytes poisoned).Canonical
    := by
  unfold State.writeLine
  split
  exacts [h.countIsolated, .ite (h.touch.putMemUnit (h.touch.memUnit _).putLine) h.touch]

theorem mergeLine (h : s.Canonical) {via u line o bytes} : (s.mergeLine via u line o bytes).2.Canonical := by
  unfold State.mergeLine
  split
  · exact h.countIsolated
  · have hp : State.Canonical (if isHbm u then
          ((s.touch u).countLook u ((s.touch u).lookLine u line)).count (F.memIntegPoisonWrite (u - 4)) 1
        else ((s.touch u).countCorrected u ((s.touch u).lookLine u line).fixed).count (F.nstEccUncorrected u) 1) :=
      .ite h.touch.countLook.count h.touch.countCorrected.count
    exact .ite_snd h.touch (.ite_snd (hp.putMemUnit (hp.memUnit u).putLine)
      (h.touch.countLook.putMemUnit (h.touch.countLook.memUnit u).putLine))

theorem readLines (h : s.Canonical) {via u line n} : (s.readLines via u line n).2.2.Canonical := by
  induction n generalizing s line with
  | zero => exact h
  | succ n ih => exact ih h.readLine

theorem writeLines (h : s.Canonical) {via u bad line n bytes} : (s.writeLines via u bad line n bytes).Canonical := by
  induction n generalizing s line bytes with
  | zero => exact h
  | succ n ih => exact ih h.writeLine

theorem readRun (h : s.Canonical) {via w fuel a n} : (s.readRun via w fuel a n).2.2.Canonical := by
  induction fuel generalizing s a n with
  | zero => exact h
  | succ fuel ih =>
    rw [State.readRun]
    split
    · exact h
    · dsimp only
      split
      · exact ih h
      · exact .ite_snd_snd (ih h.readLine) (ih h)

theorem devRead (h : s.Canonical) {via w a n} : (s.devRead via w a n).2.2.Canonical := h.readRun

theorem writeRun (h : s.Canonical) {via w fuel a bs} : (s.writeRun via w fuel a bs).2.Canonical := by
  induction fuel generalizing s a bs with
  | zero => exact h
  | succ fuel ih =>
    rw [State.writeRun]
    split
    · exact h
    · dsimp only
      split
      · exact ih h
      · exact .ite_snd (ih (.ite_snd h.writeLine h.mergeLine)) (ih h)

theorem devWrite (h : s.Canonical) {via w a bs} : (s.devWrite via w a bs).2.Canonical := h.writeRun

end State.Canonical

namespace MemUnit.Canonical
variable {x : MemUnit}

theorem zeroRange (h : x.Canonical) {off n} : (x.zeroRange off n).Canonical := Memory.wf_zero _ _ h

end MemUnit.Canonical

namespace State.Canonical
variable {s : State}

theorem zeroRange (h : s.Canonical) {u off n} : (s.zeroRange u off n).Canonical :=
  h.touch.putMemUnit (h.touch.memUnit _).zeroRange

theorem zeroUnit (h : s.Canonical) {u} : (s.zeroUnit u).Canonical := h.zeroRange

theorem setGranules (h : s.Canonical) {r f} : (s.setGranules r f).Canonical := .foldl h (fun h _ => h.setGranule)

theorem holdRegion (h : s.Canonical) {p pool keep r} : (s.holdRegion p pool keep r).Canonical := h.setGranules

theorem dropRegion (h : s.Canonical) {r} : (s.dropRegion r).Canonical := h.setGranules

theorem pruneRegs (h : s.Canonical) : s.pruneRegs.Canonical := h.withRma

theorem zeroRegion (h : s.Canonical) {r} : (s.zeroRegion r).Canonical := h.zeroRange

theorem benchCountRead (h : s.Canonical) {b lines} : (s.benchCountRead b lines).Canonical :=
  .ite (.ite h h.count) (.count (.ite h h.count))

theorem storeOut (h : s.Canonical) {b} : (s.storeOut b).2.2.Canonical := by
  unfold State.storeOut
  split
  exacts [h.count, h.benchCountRead]

theorem storeIn (h : s.Canonical) {b store bad} (hm : Memory.wf store = true) : (s.storeIn b store bad).Canonical := by
  unfold State.storeIn
  split
  · exact h.count
  · exact h.putBench ⟨hm, (h.bench b).2⟩

end State.Canonical

namespace Bench.Canonical
variable {x : Bench}

theorem putLine (h : x.Canonical) {line bytes poisoned} : (x.putLine line bytes poisoned).Canonical :=
  ⟨Memory.wf_write _ _ h.1, h.2⟩

theorem writeBytes (h : x.Canonical) {a bs} : (x.writeBytes a bs).Canonical := ⟨Memory.wf_write _ _ h.1, h.2⟩

end Bench.Canonical

namespace State.Canonical
variable {s : State}

theorem benchMoverLine (h : s.Canonical) {b line} : (s.benchMoverLine b line).2.2.Canonical := h.benchCountRead

theorem zeroBenchStores (h : s.Canonical) {bs} : (s.zeroBenchStores bs).Canonical :=
  .foldl h (fun h _ => h.putBench ⟨rfl, (h.bench _).2⟩)

end State.Canonical

/-! ### Machine/OpsRun -/

namespace State.Canonical
variable {s : State}

theorem runEnds (h : s.Canonical) : s.runEnds.Canonical := by
  refine .foldl h (fun h _ => ?_)
  split
  exacts [h, h.event]

theorem detachedEnds (h : s.Canonical) : s.detachedEnds.Canonical := .ite h.runEnds h

theorem bringSet (h : s.Canonical) {mask} : (s.bringSet mask).Canonical := .ite h h.others

theorem dropSets (h : s.Canonical) {mask} : (s.dropSets mask).Canonical := by
  refine .ite ?_ (.setFlag (.others ?_))
  · split
    exacts [h.others, .ite h.others h.others.complete]
  · split
    exacts [h.others, .ite h.others h.others.complete]

theorem notice (h : s.Canonical) {links aux value} : (s.notice links aux value).Canonical :=
  .foldl h (fun h _ => .foldl h (fun h _ => .ite h.setLink h.emit))

theorem sendData (h : s.Canonical) {j payload} : (s.sendData j payload).Canonical := h.setLink.emit

theorem sendControl (h : s.Canonical) {j type content} : (s.sendControl j type content).Canonical :=
  .ite h.setLink h.setLink.emit

theorem flushControl (h : s.Canonical) {j} : (s.flushControl j).Canonical :=
  .foldl h.setLink (fun h _ => h.sendControl)

theorem flood (h : s.Canonical) {links type content} : (s.flood links type content).Canonical :=
  .foldl h (fun h _ => h.sendControl)

theorem flushNotices (h : s.Canonical) {j} : (s.flushNotices j).Canonical := .foldl h.setLink (fun h _ => h.emit)

theorem setHalt (h : s.Canonical) {h'} : (s.setHalt h').Canonical := by
  unfold State.setHalt
  dsimp only
  split
  exacts [h.setFlag.others, h.setFlag.others]

theorem addFault (h : s.Canonical) {t'} : (s.addFault t').Canonical := h.others

theorem haltNow (h : s.Canonical) {t'} : (s.haltNow t').Canonical :=
  .markLine (.wake (.ite h.setHalt.notice h.setHalt))

theorem raiseHalt (h : s.Canonical) {t'} : (s.raiseHalt t').Canonical := .ite h.haltNow h.addFault

theorem benchFault (h : s.Canonical) {b code lines} : (s.benchFault b code lines).Canonical := by
  unfold State.benchFault
  dsimp only
  split
  exacts [h.setFld.setFlag.raiseHalt, h.setFld.setFlag.raiseHalt]

end State.Canonical

namespace Bench.Canonical
variable {x : Bench}

theorem advance (h : x.Canonical) {n} : (x.advance n).Canonical := by
  unfold Bench.advance
  dsimp only
  split
  exacts [h.others, .ite h.others (.ite h.others h.others)]

end Bench.Canonical

namespace State.Canonical
variable {s : State}

theorem advance (h : s.Canonical) {b n} : (s.advance b n).Canonical := h.putBench (h.bench _).advance
theorem stalled (h : s.Canonical) {b} : (s.stalled b).Canonical := h.wrapAdd

end State.Canonical

/-! ### Machine/OpsCore -/

namespace State.Canonical
variable {s : State}

theorem dbgPut (h : s.Canonical) {bytes} : (s.dbgPut bytes).Canonical := h.setHostMem.setFld

theorem dbgRecord (h : s.Canonical) {type sub unit payload} : (s.dbgRecord type sub unit payload).Canonical :=
  .ite h.count.others h.bumpFree.others

theorem dbgDrain (h : s.Canonical) : s.dbgDrain.Canonical := by
  refine .ite h (.ite (.foldl h (fun h _ => ?_)) (.others (.bumpFree (.dbgPut (.foldl h (fun h _ => ?_))))))
  · split
    exacts [h, h.dbgPut.others]
  · split
    exacts [h, h.dbgPut.others]

theorem traceRec (h : s.Canonical) {k sub pc high} : (s.traceRec k sub pc high).Canonical := .ite h.dbgRecord h

theorem benchCtr (h : s.Canonical) {b sub n} : (s.benchCtr b sub n).Canonical := .ite h.setBench h

theorem clusterCtr (h : s.Canonical) {k sub n} : (s.clusterCtr k sub n).Canonical := .ite h.others h

end State.Canonical

namespace Core.Canonical
variable {x : Core}

theorem setBit (h : x.Canonical) {i v} : (x.setBit i v).Canonical := h.others
theorem setG (h : x.Canonical) {i v} : (x.setG i v).Canonical := h.others
theorem setP (h : x.Canonical) {i v} : (x.setP i v).Canonical := h.others
theorem setC (h : x.Canonical) {i v} : (x.setC i v).Canonical := h.others

theorem store (h : x.Canonical) {a bs} : (x.store a bs).Canonical := by
  unfold Core.store
  split
  · exact h
  · exact Memory.wf_write _ _ h

end Core.Canonical

namespace State.Canonical
variable {s : State}

theorem markWatcher (h : s.Canonical) {k} : (s.markWatcher k).Canonical := .ite h.markLine (.ite h h.markLine)

theorem report (h : s.Canonical) {k} : (s.report k).Canonical := by
  refine .ite h.markWatcher.addFault (.ite h.markWatcher.addFault ?_)
  split
  exacts [h.markWatcher.raiseHalt, h.markWatcher.addFault]

theorem lockup (h : s.Canonical) {k} : (s.lockup k).Canonical :=
  .ite h.setCore.logCount.report.setFlag h.setCore.logCount.report

theorem squash (h : s.Canonical) {k q} : (s.squash k q).Canonical :=
  .ite h h.setCore.wrapAdd.traceRec.setCluster.clusterCtr

theorem setQueue (h : s.Canonical) {c q} : (s.setQueue c q).Canonical := h.setCluster.setFld.setFld

theorem dropHeld (h : s.Canonical) {k} : (s.dropHeld k).Canonical := by
  unfold State.dropHeld
  split
  exacts [h, h.setCore.traceRec.setQueue.clusterCtr]

theorem killStream (h : s.Canonical) {c} : (s.killStream c).Canonical := by
  unfold State.killStream
  split
  exacts [h, h.setCore.traceRec.wrapAdd.bumpFree.setQueue.clusterCtr]

theorem kill (h : s.Canonical) {k q} : (s.kill k q).Canonical := by
  unfold State.kill
  dsimp only
  split
  exacts [h.dropHeld.squash, .ite h.dropHeld h.dropHeld.squash.bumpFree]

theorem enterVector (h : s.Canonical) {k vector resume prio q} : (s.enterVector k vector resume prio q).Canonical := by
  unfold State.enterVector
  extract_lets x
  split
  · exact h.kill.lockup
  · next y e =>
    have hy : y.Canonical := (h.core k).of_enter e
    exact .putCore (.kill (.traceRec (.ite h.bumpFree h))) hy.others

theorem abandonRoutine (h : s.Canonical) {k} : (s.abandonRoutine k).Canonical :=
  .ite (.foldl h (fun h _ => .ite h.setBench h)) h

theorem takeException (h : s.Canonical) {k f resume q} : (s.takeException k f resume q).Canonical :=
  h.abandonRoutine.setCore.enterVector

theorem pollInterrupt (h : s.Canonical) {k q} : (s.pollInterrupt k q).Canonical := by
  refine .ite ?_ h
  split
  exacts [h, h.setCore.enterVector]

theorem raiseLine (h : s.Canonical) {k line q} : (s.raiseLine k line q).Canonical := h.setCore.pollInterrupt

theorem raiseCluster (h : s.Canonical) {k line} : (s.raiseCluster k line).Canonical := h.raiseLine

theorem raiseControl (h : s.Canonical) {line} : (s.raiseControl line).Canonical :=
  .foldl h (fun h _ => .ite h.raiseCluster h)

theorem raiseFw (h : s.Canonical) {k line} : (s.raiseFw k line).Canonical := .ite h.raiseLine h

theorem faultBench (h : s.Canonical) {b code lines} : (s.faultBench b code lines).Canonical :=
  h.benchFault.raiseCluster

end State.Canonical

namespace Core.Canonical
variable {x : Core}

theorem restarted {image wdt} : (x.restarted image wdt).Canonical := Memory.wf_write (m := []) _ _ rfl

end Core.Canonical

namespace State.Canonical
variable {s : State}

theorem restartCore (h : s.Canonical) {k} : (s.restartCore k).Canonical :=
  .ite (h.putCore .restarted).setFlag (h.putCore .restarted)

theorem issue (h : s.Canonical) {b n good body} (hbody : ∀ {t}, t.Canonical → (body t).Canonical) : (s.issue b n good
    body).Canonical :=
  .ite (.ite (hbody h.advance) h.faultBench) h

theorem withLines (h : s.Canonical) {b lines body} (hbody : ∀ {t}, t.Canonical → (body t).Canonical) : (s.withLines b
    lines body).Canonical := by
  unfold State.withLines
  split
  exacts [h.benchCountRead.faultBench, hbody h.benchCountRead]

theorem withOperand (h : s.Canonical) {b a n body} (hbody : ∀ {a t}, t.Canonical → (body a t).Canonical) :
    (s.withOperand b a n body).Canonical := by
  unfold State.withOperand
  dsimp only
  split
  exacts [h.benchCountRead.faultBench, hbody h.benchCountRead]

end State.Canonical

/-! ### Machine/BenchCtl -/

namespace State.Canonical
variable {s : State}

theorem seq (h : s.Canonical) {b op i x1 x2 body} (hbody : ∀ {t}, t.Canonical → (body t).Canonical) : (s.seq b op i
    x1 x2 body).Canonical :=
  h.issue hbody

theorem resume (h : s.Canonical) {b} : (s.resume b).Canonical := by
  unfold State.resume
  dsimp only
  split
  exacts [h, .ite h h.setBench]

theorem resumeCluster (h : s.Canonical) {k} : (s.resumeCluster k).Canonical := .foldl h (fun h _ => h.resume)

theorem addSync (h : s.Canonical) {k c n} : (s.addSync k c n).Canonical := h.setCluster.resumeCluster

theorem execNop (h : s.Canonical) {b i} : NextCanonical (execNop b i s) := .next (h.seq (fun h => h))

theorem execEndProg (h : s.Canonical) {b i} : NextCanonical (execEndProg b i s) := .next (h.seq (fun h => h.setFlag))

theorem execLoop (h : s.Canonical) {b i} : NextCanonical (execLoop b i s) := .next (h.issue (fun h => h.setBench))

theorem execWaitm (h : s.Canonical) {b i} : NextCanonical (execWaitm b i s) :=
  .next (h.seq (fun h => h.setBench.resume))

theorem execSync (h : s.Canonical) {b i} : NextCanonical (execSync b i s) :=
  .next (h.seq (fun h => h.addSync.setBench.resume))

theorem execOpenWin (h : s.Canonical) {b i} : NextCanonical (execOpenWin b i s) :=
  .next (h.seq (fun h => h.setBench.setFlag.raiseCluster))

theorem execOpenWindowEnd (h : s.Canonical) {b} : NextCanonical (execOpenWindowEnd b s) := by
  refine .next ?_
  split
  exacts [h, .setBench (.ite h.setBench.setFlag h.setBench.setFlag.faultBench)]

end State.Canonical

/-! ### Machine/BenchMma -/

namespace Bench.Canonical
variable {x : Bench}

theorem setWins (h : x.Canonical) {n ws} : (x.setWins n ws).Canonical := by
  induction ws generalizing x n with
  | nil => exact h
  | cons w ws ih => exact ih h.others

end Bench.Canonical

namespace State.Canonical
variable {s : State}

theorem accumulate (h : s.Canonical) {b n ts} : (s.accumulate b n ts).Canonical := by
  unfold State.accumulate
  dsimp only
  split
  exacts [h.faultBench, h.putBench (h.bench _).setWins]

theorem mma (h : s.Canonical) {b stream i} : (s.mma b stream i).Canonical :=
  .withLines (.ite h.stalled.benchCtr h) (fun h => h.accumulate.benchCtr.benchCtr)

theorem execMmt (h : s.Canonical) {b i} : NextCanonical (execMmt b i s) := .next (h.seq (fun h => h.mma))

theorem execMms (h : s.Canonical) {b i} : NextCanonical (execMms b i s) := .next (h.seq (fun h => h.mma))

theorem execAclr (h : s.Canonical) {b i} : NextCanonical (execAclr b i s) :=
  .next (h.seq (fun h => h.putBench (h.bench _).setWins))

theorem execAanc (h : s.Canonical) {b i} : NextCanonical (execAanc b i s) :=
  .next (h.seq (fun h => h.withLines (fun h => .ite (.ite h.setBench.faultBench (h.putBench (h.bench _).setWins))
    (h.putBench (h.bench _).setWins))))

theorem execAwb (h : s.Canonical) {b i} : NextCanonical (execAwb b i s) :=
  .next (h.seq (fun h => h.putBench (h.bench _).writeBytes))

theorem execAexp (h : s.Canonical) {b i} : NextCanonical (execAexp b i s) :=
  .next (h.seq (fun h => h.putBench (h.bench _).writeBytes))

theorem execAimp (h : s.Canonical) {b i} : NextCanonical (execAimp b i s) :=
  .next (h.seq (fun h => h.withOperand (fun h => h.putBench (h.bench _).setWins)))

theorem execAbias (h : s.Canonical) {b i} : NextCanonical (execAbias b i s) :=
  .next (h.seq (fun h => h.withOperand (fun h => h.accumulate)))

theorem execAsamp (h : s.Canonical) {b i} : NextCanonical (execAsamp b i s) :=
  .next (h.seq (fun h => h.withLines (fun h => h.putBench (h.bench _).writeBytes)))

end State.Canonical

namespace Bench.Canonical
variable {x : Bench}

theorem setPrescan (h : x.Canonical) {n acc vs} : (x.setPrescan n acc vs).Canonical := by
  induction vs generalizing x n with
  | nil => exact h
  | cons v vs ih => exact ih h.others

end Bench.Canonical

namespace State.Canonical
variable {s : State}

theorem execSpre (h : s.Canonical) {b i x} : NextCanonical (execSpre b i x s) :=
  .next (h.seq (fun h => h.withLines (fun h => h.putBench (h.bench _).setPrescan)))

theorem execSqnt (h : s.Canonical) {b i} : NextCanonical (execSqnt b i s) :=
  .next (h.seq (fun h => h.withOperand (fun h => h.putBench (h.bench _).writeBytes.writeBytes)))

theorem execSxch (h : s.Canonical) {b i} : NextCanonical (execSxch b i s) :=
  .next (h.seq (fun h => h.putBench (h.bench _).writeBytes))

end State.Canonical

/-! ### Machine/BenchVec -/

namespace Bench.Canonical
variable {x : Bench}

theorem setVr (h : x.Canonical) {n v} : (x.setVr n v).Canonical := h.others

end Bench.Canonical

namespace State.Canonical
variable {s : State}

theorem vec3 (h : s.Canonical) {b op i f} : (s.vec3 b op i f).Canonical :=
  h.seq (fun h => (h.putBench (h.bench _).setVr).benchCtr)

theorem execVecAdd (h : s.Canonical) {b i} : NextCanonical (execVecAdd b i s) := .next h.vec3

theorem execVecSub (h : s.Canonical) {b i} : NextCanonical (execVecSub b i s) := .next h.vec3

theorem execVecMul (h : s.Canonical) {b i} : NextCanonical (execVecMul b i s) := .next h.vec3

theorem execVecFma (h : s.Canonical) {b i} : NextCanonical (execVecFma b i s) := .next h.vec3

theorem execVecDiv (h : s.Canonical) {b i} : NextCanonical (execVecDiv b i s) := .next h.vec3

theorem execVecSqrt (h : s.Canonical) {b i} : NextCanonical (execVecSqrt b i s) := .next h.vec3

theorem execVecMax (h : s.Canonical) {b i} : NextCanonical (execVecMax b i s) := .next h.vec3

theorem execVecMin (h : s.Canonical) {b i} : NextCanonical (execVecMin b i s) := .next h.vec3

theorem execVecCmp (h : s.Canonical) {b i} : NextCanonical (execVecCmp b i s) := .next h.vec3

theorem execVecSel (h : s.Canonical) {b i} : NextCanonical (execVecSel b i s) := .next h.vec3

theorem execVecMove (h : s.Canonical) {b i} : NextCanonical (execVecMove b i s) := .next h.vec3

theorem execBcst (h : s.Canonical) {b i} : NextCanonical (execBcst b i s) := .next h.vec3

theorem execLdf (h : s.Canonical) {b i} : NextCanonical (execLdf b i s) :=
  .next (h.seq (fun h => h.withOperand (fun h => (h.putBench (h.bench _).setVr).benchCtr)))

theorem execStf (h : s.Canonical) {b i} : NextCanonical (execStf b i s) :=
  .next (h.seq (fun h => (h.putBench (h.bench _).writeBytes).benchCtr))

theorem execVecLdb (h : s.Canonical) {b i} : NextCanonical (execVecLdb b i s) :=
  .next (h.seq (fun h => h.withOperand (fun h => (h.putBench (h.bench _).setVr).benchCtr)))

theorem execVecStb (h : s.Canonical) {b i} : NextCanonical (execVecStb b i s) :=
  .next (h.seq (fun h => (h.putBench (h.bench _).writeBytes).benchCtr))

theorem execVdraw (h : s.Canonical) {b i} : NextCanonical (execVdraw b i s) :=
  .next (h.seq (fun h => h.withOperand (fun h => (h.putBench (h.bench _).setVr.setVr).benchCtr)))

theorem execVred (h : s.Canonical) {b i} : NextCanonical (execVred b i s) :=
  .next (h.seq (fun h => h.accumulate.benchCtr))

theorem trn (h : s.Canonical) {b n i} : (s.trn b n i).Canonical :=
  h.seq (fun h => (h.putBench (h.bench _).setVr).benchCtr)

theorem execTrnExp2 (h : s.Canonical) {b i} : NextCanonical (execTrnExp2 b i s) := .next h.trn

theorem execTrnExp (h : s.Canonical) {b i} : NextCanonical (execTrnExp b i s) := .next h.trn

theorem execTrnLog2 (h : s.Canonical) {b i} : NextCanonical (execTrnLog2 b i s) := .next h.trn

theorem execTrnLog (h : s.Canonical) {b i} : NextCanonical (execTrnLog b i s) := .next h.trn

theorem execTrnRcp (h : s.Canonical) {b i} : NextCanonical (execTrnRcp b i s) := .next h.trn

theorem execTrnRsqrt (h : s.Canonical) {b i} : NextCanonical (execTrnRsqrt b i s) := .next h.trn

theorem execTrnTanh (h : s.Canonical) {b i} : NextCanonical (execTrnTanh b i s) := .next h.trn

theorem execTrnSinpi (h : s.Canonical) {b i} : NextCanonical (execTrnSinpi b i s) := .next h.trn

theorem execTrnCospi (h : s.Canonical) {b i} : NextCanonical (execTrnCospi b i s) := .next h.trn

end State.Canonical

/-! ### Machine/BenchMov -/

namespace State.Canonical
variable {s : State}

theorem mov (h : s.Canonical) {b op i x1 x2} : (s.mov b op i x1 x2).Canonical :=
  .ite h.setBench (h.seq (fun h => h.setBench))

theorem execMns (h : s.Canonical) {b i x1 x2} : NextCanonical (execMns b i x1 x2 s) := .next h.mov

theorem execMhb (h : s.Canonical) {b i x1 x2} : NextCanonical (execMhb b i x1 x2 s) := .next h.mov

theorem execMbb (h : s.Canonical) {b i x1 x2} : NextCanonical (execMbb b i x1 x2 s) := .next h.mov

theorem execMlk (h : s.Canonical) {b i x1 x2} : NextCanonical (execMlk b i x1 x2 s) := .next h.mov

theorem execMaxAnchors (h : s.Canonical) {b i x1 x2} : NextCanonical (execMaxAnchors b i x1 x2 s) := .next h.mov

theorem zeroIn (h : s.Canonical) {b toLocal line} : (s.zeroIn b toLocal line).Canonical :=
  .ite (h.putBench (h.bench _).putLine) h

theorem keepBefore (h : s.Canonical) {u line} : (s.keepBefore u line).Canonical := .ite h.setMemUnit h

theorem endBefore (h : s.Canonical) : s.endBefore.Canonical := h.withMems (List.forall_mem_map.2 h.mems)

theorem memLine (h : s.Canonical) {b who toLocal local_ addr} : (s.memLine b who toLocal local_ addr).2.Canonical :=
    by
  unfold State.memLine
  split
  · exact .ite_snd (.ite_snd (h.readLine.putBench (h.readLine.bench _).putLine)
      h.benchMoverLine.keepBefore.writeLine) h.zeroIn
  · exact h.zeroIn

theorem benchLine (h : s.Canonical) {src dst srcLine dstLine max} : (s.benchLine src dst srcLine dstLine
    max).Canonical :=
  .ite (h.benchMoverLine.benchMoverLine.putBench (h.benchMoverLine.benchMoverLine.bench _).putLine)
    (h.benchMoverLine.putBench (h.benchMoverLine.bench _).putLine)

theorem fabricLine (h : s.Canonical) {b t' st} : (s.fabricLine b t' st).2.Canonical := by
  refine .ite_snd ?_ h.zeroIn
  split
  exacts [h.countIsolated.zeroIn, .ite h.benchLine h.benchLine]

theorem fillSlot (h : s.Canonical) {e k bytes} : (s.fillSlot e k bytes).Canonical := .foldl h (fun h _ => h.setLink)

theorem sendSlot (h : s.Canonical) {e} : (s.sendSlot e).Canonical := .foldl h.setLink (fun h _ => .ite h.sendData h)

theorem linkLine (h : s.Canonical) {b t' st} : (s.linkLine b t' st).Canonical := by
  refine .ite h ?_
  split
  exacts [h, h.countIsolated, h.benchCountRead.fillSlot]

theorem moveLink (h : s.Canonical) {b t'} : (s.moveLink b t').Canonical := by
  unfold State.moveLink
  split
  exacts [h, .ite h h.sendSlot]

theorem moveLine (h : s.Canonical) {b t' st} : (s.moveLine b t' st).2.Canonical :=
  .ite_snd h.linkLine (.ite_snd h.memLine h.fabricLine)

theorem noteMiss (h : s.Canonical) {b t' n line} : (s.noteMiss b t' n line).Canonical := by
  unfold State.noteMiss
  split
  exacts [h, .ite h.setPart h]

theorem moveEach (h : s.Canonical) {b tr n sts} : (s.moveEach b tr n sts).2.Canonical := by
  induction sts generalizing s n with
  | nil => exact h
  | cons st sts ih => exact ih h.noteMiss.moveLine

theorem moveSome (h : s.Canonical) {b t' n} : (s.moveSome b t' n).2.Canonical :=
  .ite_snd h h.benchCtr.moveEach.violateIf

theorem moveLines (h : s.Canonical) {b t'} : (s.moveLines b t').Canonical := .ite h.moveSome.moveLink h.moveSome

theorem moveOn (h : s.Canonical) {b} : (s.moveOn b).Canonical := by
  refine .foldl h (fun h _ => ?_)
  split
  exacts [h, h.bumpFree.moveSome.setBench]

theorem execMoverTransferDone (h : s.Canonical) {b} : NextCanonical (execMoverTransferDone b s) := by
  refine .next ?_
  split
  exacts [h, h.setBench.moveLines.setBench.resume]

end State.Canonical

/-! ### Machine/OpsClock -/

namespace State.Canonical
variable {s : State}

theorem showError (h : s.Canonical) : s.showError.Canonical := h.setFld
theorem approach (h : s.Canonical) {d} : (s.approach d).Canonical := h.others.setFlag.setFlag

theorem selectSource (h : s.Canonical) {c d} : (s.selectSource c d).Canonical :=
  h.setFld.setFld.others.approach.showError

theorem enterHoldover (h : s.Canonical) : s.enterHoldover.Canonical :=
  h.others.setFld.setFld.setFlag.setFlag.showError

theorem goodInterval (h : s.Canonical) {c good d} : (s.goodInterval c good d).Canonical := h.others

theorem measure (h : s.Canonical) {c d} : (s.measure c d).Canonical := .ite h.others.showError h

theorem reselect (h : s.Canonical) : s.reselect.Canonical :=
  .ite h.others (.ite h.others.enterHoldover h.others.selectSource)

end State.Canonical

/-! ### Machine/OpsTime -/

namespace State.Canonical
variable {s : State}

theorem passRtc (h : s.Canonical) {n} : (s.passRtc n).Canonical := h.others.setFld

theorem passDevice (h : s.Canonical) {n} : (s.passDevice n).Canonical :=
  .ite h (.ite (.ite h.others h.others.setFlag.setFld) h.others.setFlag.setFld)

theorem passClocks (h : s.Canonical) {n} : (s.passClocks n).Canonical :=
  .ite h.passDevice.passRtc.others.showError h.passDevice.passRtc.others

end State.Canonical

namespace Core.Canonical
variable {x : Core}

theorem countCycles (h : x.Canonical) {k t' n} : (x.countCycles k t' n).Canonical := .ite h h.others
theorem countWdt (h : x.Canonical) {n} : (x.countWdt n).Canonical := .ite h.others h

end Core.Canonical

namespace State.Canonical
variable {s : State}

theorem passStall (h : s.Canonical) {t' n b} : (s.passStall t' n b).Canonical := by
  unfold State.passStall
  split
  exacts [h, .ite (.ite h.wrapAdd.others h.wrapAdd) h]

theorem passEnergy (h : s.Canonical) {n} : (s.passEnergy n).Canonical := .ite h h.others.logEnergy

theorem passTime (h : s.Canonical) {n} : (s.passTime n).Canonical := by
  have hs : (((s.passEnergy n).passClocks n).benches.foldl (fun t p => t.passStall s.now n p.1)
      ((s.passEnergy n).passClocks n)).Canonical := .foldl h.passEnergy.passClocks (fun h _ => h.passStall)
  exact others (hs.withCores (m := List.map _ _) (List.forall_mem_map.2 fun e he =>
    Core.Canonical.countWdt (Core.Canonical.countCycles (hs.cores e he))))

theorem passTicks (h : s.Canonical) {n} : (s.passTicks n).Canonical := h.passTime

theorem reachTick (h : s.Canonical) {t'} : (s.reachTick t').Canonical := h.passTicks

end State.Canonical

/-! ### Machine/OpsKerf -/

namespace State.Canonical
variable {s : State}

theorem sendSeals (h : s.Canonical) : s.sendSeals.Canonical :=
  .foldl h (fun h _ => h.sendControl.bumpFree.flushNotices)

theorem markKerf (h : s.Canonical) {start} : (s.markKerf start).Canonical := h.others

theorem markSeal (h : s.Canonical) {v} : (s.markSeal v).Canonical := h.others

theorem startBench (h : s.Canonical) {b} : (s.startBench b).Canonical := h.setBench.setFlag.setFlag.setFld

end State.Canonical

namespace MemUnit.Canonical
variable {x : MemUnit}

theorem rewritePoison (h : x.Canonical) : x.rewritePoison.Canonical := .foldl h (fun h _ => h.putLine)

end MemUnit.Canonical

namespace State.Canonical
variable {s : State}

theorem rewritePoison (h : s.Canonical) : s.rewritePoison.Canonical :=
  .foldl h (fun h _ => h.putMemUnit (h.memUnit _).rewritePoison)

theorem replayLink (h : s.Canonical) {j} : (s.replayLink j).Canonical := .setLink (.foldl h (fun h _ => h.emit.emit))

end State.Canonical

/-! ### Machine/OpsValley -/

namespace State.Canonical
variable {s : State}

theorem closePasses (h : s.Canonical) {v} : (s.closePasses v).Canonical := h.setFlag
theorem openPasses (h : s.Canonical) {v} : (s.openPasses v).Canonical := h.setFlag
theorem powerValley (h : s.Canonical) {v on} : (s.powerValley v on).Canonical := h.setFlag.setFlag.setFld

theorem gateValley (h : s.Canonical) {v} : (s.gateValley v).Canonical :=
  .ite (.ite h.powerValley.setFlag.closePasses h.powerValley.setFlag) h

theorem restStack (h : s.Canonical) {k} : (s.restStack k).Canonical := .ite h.setFlag h

theorem restStacks (h : s.Canonical) : s.restStacks.Canonical := .foldl h (fun h _ => h.restStack)

theorem gateValleys (h : s.Canonical) : s.gateValleys.Canonical := .restStacks (.foldl h (fun h _ => h.gateValley))

theorem setSelfRefresh (h : s.Canonical) {v} : (s.setSelfRefresh v).Canonical := .foldl h (fun h _ => h.setFlag)

theorem leaveLowPower (h : s.Canonical) : s.leaveLowPower.Canonical :=
  .setFlag (.withHost (.ite h.setSelfRefresh.restStacks h))

theorem settleLow (h : s.Canonical) : s.settleLow.Canonical := .ite h.leaveLowPower h

theorem raiseClock (h : s.Canonical) {v raised} : (s.raiseClock v raised).Canonical :=
  .ite h (.ite h.setFld.bumpFree h.setFld)

theorem setTarget (h : s.Canonical) {v mv} : (s.setTarget v mv).Canonical :=
  .others (.ite h.setFld h.setFld.raiseClock)

end State.Canonical

/-! ### Machine/OpsPlain -/

namespace State.Canonical
variable {s : State}

theorem sendIdentity (h : s.Canonical) {j} : (s.sendIdentity j).Canonical := h.sendControl

theorem dropPlain (h : s.Canonical) : s.dropPlain.Canonical :=
  .gateValley (.others (.foldl h.setFlag.setFlag.setFld.setFld.setFld (fun h _ => .ite h.setLink.setFld h.setLink)))

theorem linkEvent (h : s.Canonical) {j} : (s.linkEvent j).Canonical := h.event

theorem setLinkState (h : s.Canonical) {j v} : (s.setLinkState j v).Canonical := .ite h h.setFld.gateValley.linkEvent

theorem refuseMuster (h : s.Canonical) {status result} : (s.refuseMuster status result).Canonical := by
  unfold State.refuseMuster
  split
  exacts [h.dropPlain, h.dropPlain.complete]

theorem judgeMuster (h : s.Canonical) : s.judgeMuster.Canonical := by
  refine .ite h ?_
  split
  · exact h.refuseMuster
  · dsimp only
    split
    · exact h.setFlag.setFlag.setFld.setFld.others.settleLow
    · exact h.setFlag.setFlag.setFld.setFld.others.settleLow.complete

theorem takeRecord (h : s.Canonical) {j r} : (s.takeRecord j r).Canonical := .ite h h.flood.others

theorem alignLink (h : s.Canonical) {j} : (s.alignLink j).Canonical := h.setFld.bumpFree

theorem sendRecord (h : s.Canonical) : s.sendRecord.Canonical :=
  .ite (.judgeMuster (.foldl (.others (.flood (.useBound (.foldl h (fun h _ => h.alignLink))))) (fun h _ =>
    h.takeRecord))) h

theorem forwardPart (h : s.Canonical) {t' a bytes} : (s.forwardPart t' a bytes).Canonical :=
  .foldl (.ite h.setLink h) (fun h _ => .ite h.setLink.sendData h.setLink)

theorem landPart (h : s.Canonical) {payload whole e a o n} : (s.landPart payload whole e a o n).Canonical := by
  unfold State.landPart
  dsimp only
  split
  · exact .ite h h.forwardPart
  · exact h.countIsolated
  · exact h.putBench (.ite (h.bench _).writeBytes.others (h.bench _).writeBytes)

theorem landFlit (h : s.Canonical) {j f payload whole} : (s.landFlit j f payload whole).Canonical :=
  .foldl h (fun h _ => h.landPart)

theorem poisonFlit (h : s.Canonical) {j f} : (s.poisonFlit j f).Canonical := by
  refine .foldl h (fun h _ => ?_)
  dsimp only
  split
  exacts [h.forwardPart, h.countIsolated, h.setBench]

end State.Canonical

/-! ### Machine/Fit -/

namespace State.Canonical
variable {s : State}

theorem loadWindow (h : s.Canonical) {c bytes} : (s.loadWindow c bytes).Canonical :=
  h.putCore (Memory.wf_write _ _ (Memory.wf_zero _ _ (h.core _)))

theorem fillRegion (h : s.Canonical) {images r} : (s.fillRegion images r).Canonical :=
  .ite h.zeroRegion (.ite h.zeroRegion.devWrite h)

theorem fillList (h : s.Canonical) {l} : (s.fillList l).Canonical := .foldl h (fun h _ => h.fillRegion)

theorem takeRegion (h : s.Canonical) {p roles images r} : (s.takeRegion p roles images r).Canonical :=
  h.holdRegion.fillRegion

theorem dropOld (h : s.Canonical) {old new} : (s.dropOld old new).Canonical :=
  .pruneRegs (.foldl h (fun h _ => .foldl h (fun h _ => .ite h h.zeroRange.setGranule)))

theorem loadPrograms (h : s.Canonical) {clusters l} : (s.loadPrograms clusters l).Canonical :=
  .foldl h (fun h b => h.putBench ((h.bench b).withProg (Memory.wf_write _ _ rfl)))

theorem loadWindows (h : s.Canonical) {clusters l} : (s.loadWindows clusters l).Canonical :=
  .foldl h (fun h _ => h.loadWindow)

theorem takeMemory (h : s.Canonical) {p l} : (s.takeMemory p l).Canonical :=
  .foldl h.dropOld (fun h _ => h.takeRegion)

theorem wakeStacks (h : s.Canonical) {l} : (s.wakeStacks l).Canonical := .foldl h (fun h _ => h.setFlag)

theorem commitList (h : s.Canonical) {l} : (s.commitList l).Canonical :=
  h.wakeStacks.takeMemory.loadPrograms.loadWindows.setPart

theorem stageList (h : s.Canonical) {l} : (s.stageList l).Canonical :=
  .setPart (.foldl (.wakeStacks (.foldl h (fun h b => h.putBench ((h.bench b).withStaging (Memory.wf_write _ _ rfl)))))
    (fun h _ => h.takeRegion))

theorem unstage (h : s.Canonical) {p} : (s.unstage p).Canonical := by
  unfold State.unstage
  split
  · exact h
  · exact .setPart (.foldl (.pruneRegs (.foldl h (fun h _ => h.zeroRegion.dropRegion)))
      (fun h b => h.putBench ((h.bench b).withStaging rfl)))

theorem unloadPart (h : s.Canonical) {p} : (s.unloadPart p).Canonical :=
  .setPart (.foldl (.foldl h.unstage.dropOld (fun h b => h.putBench ((h.bench b).withProg rfl)))
    (fun h _ => h.loadWindow))

end State.Canonical

/-! ### Machine/OpsPages -/

namespace State.Canonical
variable {s : State}

theorem moveSlot (h : s.Canonical) {u g new} : (s.moveSlot u g new).Canonical :=
  .ite h.zeroRange.setGranule h.setGranule

theorem applyCommit (h : s.Canonical) {c} : (s.applyCommit c).Canonical :=
  .ite (.complete (.foldl h (fun h _ => h.moveSlot))) h.complete

theorem applyCommits (h : s.Canonical) {cs held} : (applyCommits cs held s).2.Canonical := by
  induction cs generalizing s held with
  | nil => exact h
  | cons c cs ih =>
    rw [Machine.applyCommits]
    exact .ite_snd (ih h) (ih h.applyCommit)

theorem runCommits (h : s.Canonical) : s.runCommits.Canonical := h.applyCommits.others

end State.Canonical

/-! ### Machine/Kerf -/

namespace State.Canonical
variable {s : State}

theorem execRunStart (h : s.Canonical) : NextCanonical (execRunStart s) := by
  refine .next (.ite ?_ h)
  extract_lets t fresh parts u v w x y r plain pwr z z'
  have ht : t.Canonical := h.reachTick
  have hu : u.Canonical := .ite (.foldl ht (fun h _ => h.setBench)) ht
  have hv : v.Canonical := .ite (.foldl hu (fun h _ => h.setCluster)) hu
  have hw : w.Canonical := .ite (.foldl hv (fun h _ => h.fillList)) hv
  have hy : y.Canonical := .foldl (.foldl hw (fun h _ => h.setPart))
    (fun h _ => .ite (h.setFlag.putMemUnit (h.memUnit _).others) h)
  clear_value y
  have hz : z'.Canonical := .ite (.foldl (.others hy) (fun h _ => h.setLink)) (.others hy)
  exact hz.setFlag.settleLow

theorem execCutStart (h : s.Canonical) : NextCanonical (execCutStart s) :=
  .next (.ite (.raiseControl (.others (.foldl (.foldl h.reachTick (fun h _ => h.startBench)) (fun h _ =>
    h.setLink)))) h)

theorem execKerfStart (h : s.Canonical) : NextCanonical (execKerfStart s) := by
  refine .next ?_
  split
  · exact .raiseFw (.raiseFw (.raiseControl (.foldl (.foldl (.markKerf (.others (.foldl h.reachTick (fun h _ =>
      h.flushNotices)))) (fun h _ => h.flushControl)) (fun h _ => .ite h.faultBench h))))
  · exact h

theorem differs (h : s.Canonical) {j} : (s.differs j).Canonical := h.setLink.raiseHalt

theorem compareSeal (h : s.Canonical) {j own f} : (s.compareSeal j own f).Canonical := .ite h h.differs

theorem execKerfSeal (h : s.Canonical) : NextCanonical (execKerfSeal s) :=
  .next (.ite (.foldl (.endBefore (.markSeal (.others (.ite h.reachTick.sendSeals h.reachTick)))) (fun h _ => .foldl
    h.setLink (fun h _ => h.compareSeal))) h)

theorem execKerfService (h : s.Canonical) : NextCanonical (execKerfService s) :=
  .next (.ite (.others (.rewritePoison (.foldl h.reachTick (fun h _ => h.replayLink)))) h)

theorem execCutDeadlineExpiry (h : s.Canonical) {w} : NextCanonical (execCutDeadlineExpiry w s) := by
  refine .next ?_
  split
  · split
    exacts [h, .ite h.reachTick.setLink.raiseHalt h]
  · exact .ite h.reachTick.raiseHalt h

theorem showStretch (h : s.Canonical) : s.showStretch.Canonical := .ite h.setFld.setFlag h.setFld.setFlag.setFld

theorem execStretchLatch (h : s.Canonical) {p} : NextCanonical (execStretchLatch p s) := by
  refine .next ?_
  split
  exacts [h, .ite h.setFld.setFld.setFld.setFld.others.showStretch.raiseFw h]

end State.Canonical

/-! ### Machine/OpsTable -/

namespace State.Canonical
variable {s : State}

theorem rebuildTable (h : s.Canonical) : s.rebuildTable.Canonical := .ite h.setFld.withHost.event h

theorem dropBench (h : s.Canonical) {b} : (s.dropBench b).Canonical :=
  h.setFlag.setFlag.setFlag.gateValley.rebuildTable

theorem benchMapOut (h : s.Canonical) {b} : (s.benchMapOut b).Canonical :=
  .ite h.setFld (.ite (.ite h (.ite h.setFlag h.dropBench)) (.ite h.setFlag.setFlag.setFlag.gateValley.rebuildTable
    h.setFlag))

theorem dropStack (h : s.Canonical) {k} : (s.dropStack k).Canonical :=
  (h.putMemUnit MemUnit.canonical_init).setFlag.setFlag.setFlag.setFlag.setFlag.gateValley.pruneRegs.rebuildTable

theorem firmwareMapOut (h : s.Canonical) {k} : (s.firmwareMapOut k).Canonical :=
  .ite h (.ite h.setFld.critical.setFlag h.setFld.critical.dropStack)

theorem stackMapOut (h : s.Canonical) {k} : (s.stackMapOut k).Canonical :=
  .ite (.ite h (.ite h.setFlag h.dropStack)) h.setFlag

end State.Canonical

/-! ### Machine/PlainEv -/

namespace State.Canonical
variable {s : State}

theorem countFixed (h : s.Canonical) {j fixed} : (s.countFixed j fixed).Canonical := .ite h.wrapAdd h

theorem execFlitRelease (h : s.Canonical) {j index payload fixed} : NextCanonical (execFlitRelease j index payload
    fixed s) :=
  .next (.ite h.countFixed.setLink.landFlit h)

theorem execFlitLost (h : s.Canonical) {j index} : NextCanonical (execFlitLost j index s) :=
  .next (.ite (.count (.notice (.ite h.poisonFlit.setLink h))) h)

theorem execLossNoticeReceived (h : s.Canonical) {j index fixed} : NextCanonical (execLossNoticeReceived j index
    fixed s) :=
  .next (.ite h.countFixed.setLink h.countFixed)

theorem execReplayFlitReceived (h : s.Canonical) {j index payload corrects fixed} : NextCanonical
    (execReplayFlitReceived j index payload corrects fixed s) :=
  .next (.ite h.countFixed.landFlit.setLink h.countFixed)

theorem failLink (h : s.Canonical) {j} : (s.failLink j).Canonical :=
  .raiseHalt (.ite h.count.logCount.setLink.setLinkState.setFld.critical.setLinkState.rebuildTable
    h.count.logCount.setLink.setLinkState)

theorem execLinkFailure (h : s.Canonical) {j} : NextCanonical (execLinkFailure j s) := by
  refine .next (.ite (.ite ?_ h.failLink) h)
  split
  exacts [h, .ite h.reachTick.failLink h]

theorem execDovetailLossOfLock (h : s.Canonical) {j} : NextCanonical (execDovetailLossOfLock j s) :=
  .next (.ite (.ite h.setLink h.setLink.failLink) (.ite h.setLink.setLinkState h))

theorem execDovetailTrainingDone (h : s.Canonical) {j} : NextCanonical (execDovetailTrainingDone j s) :=
  .next (.ite (.ite h.setLink.setLinkState.sendIdentity h.setLink.setLinkState) h)

theorem mergeSeal (h : s.Canonical) {f} : (s.mergeSeal f).Canonical := by
  unfold State.mergeSeal
  extract_lets plain t run u
  have ht : t.Canonical := .ite h.others h
  have hu : u.Canonical := by
    unfold u
    split
    exacts [.ite (.others ht) ht, ht]
  split
  exacts [hu, .ite (.others hu) hu]

theorem takeOffset (h : s.Canonical) {j f} : (s.takeOffset j f).Canonical :=
  .ite (.differs (.ite h.setFld.others.setFld h.setFld)) (.ite h.setFld.others.setFld h.setFld)

theorem execSealFlitReceived (h : s.Canonical) {j f} : NextCanonical (execSealFlitReceived j f s) := by
  refine .next ?_
  extract_lets t k first u link v w
  have ht : t.Canonical := h.countFixed
  have hu : u.Canonical := .ite ht ht.takeOffset
  have hv : v.Canonical := hu.setLink
  have hw : w.Canonical := .ite hv.mergeSeal hv
  refine .ite ?_ ht
  split
  · exact hw.compareSeal
  · exact .ite hw.setLink hw

theorem execHaltNoticeReceived (h : s.Canonical) {j value fixed} : NextCanonical (execHaltNoticeReceived j value
    fixed s) :=
  .next (.ite (.ite h.countFixed.setHalt.notice.wake h.countFixed) h.countFixed)

theorem execCheckpointNoticeReceived (h : s.Canonical) {j value fixed} : NextCanonical (execCheckpointNoticeReceived
    j value fixed s) := by
  refine .next (.ite ?_ h.countFixed)
  dsimp only
  split
  · exact .ite h.countFixed.others.notice.raiseHalt h.countFixed.others.notice.others
  · exact h.countFixed.others.notice.raiseHalt

theorem execLinkIdentity (h : s.Canonical) {j formation member peerLink fixed} : NextCanonical (execLinkIdentity j
    formation member peerLink fixed s) :=
  .next (.ite (.ite h.countFixed.refuseMuster (.ite h.countFixed.refuseMuster
    h.countFixed.setFld.setLink.setLinkState.sendRecord)) h.countFixed)

theorem execMusterRecord (h : s.Canonical) {j record fixed} : NextCanonical (execMusterRecord j record fixed s) :=
  .next (.ite (.ite h.countFixed.others (.ite h.countFixed h.countFixed.takeRecord.judgeMuster)) h.countFixed)

theorem execMusterTimeout (h : s.Canonical) : NextCanonical (execMusterTimeout s) := by
  refine .next (.ite ?_ h)
  dsimp only
  split
  exacts [h.passTime.refuseMuster, h.passTime.refuseMuster]

theorem endRound (h : s.Canonical) {status result} : (s.endRound status result).Canonical := by
  unfold State.endRound
  dsimp only
  split
  exacts [.others (.ite h.detachedEnds h), .complete (.others (.ite h.detachedEnds h))]

theorem judgeStart (h : s.Canonical) : s.judgeStart.Canonical := by
  refine .ite h ?_
  split
  exacts [h.endRound, h.others]

theorem execStartRecord (h : s.Canonical) {j record fixed} : NextCanonical (execStartRecord j record fixed s) :=
  .next (.ite (.ite h.countFixed.flood.others.judgeStart h.countFixed.flood.others) h.countFixed)

end State.Canonical

/-! ### Machine/ComputeRing -/

namespace State.Canonical
variable {s : State}

theorem inLoadTurn (h : s.Canonical) {i r opcode op} (hop : ∀ {t}, t.Canonical → (op t).Canonical) : (s.inLoadTurn i
    r opcode op).Canonical := by
  unfold State.inLoadTurn
  split
  exacts [h, .ite (hop h) h]

theorem computeOp (h : s.Canonical) {i r opcode good body} (hbody : ∀ {t a b}, t.Canonical → (body t a b).Canonical)
    : (s.computeOp i r opcode good body).Canonical := by
  refine h.withOp (fun h => ?_)
  split
  exacts [h.complete, .ite (hbody h) h.complete]

theorem withMask (h : s.Canonical) {o mask body} (hbody : ∀ {t}, t.Canonical → (body t).Canonical) : (s.withMask o
    mask body).Canonical := by
  unfold State.withMask
  split
  exacts [h.complete, .ite (hbody h) h.complete]

theorem cancelStart (h : s.Canonical) : s.cancelStart.Canonical := .endRound (.others (.ite h.detachedEnds h))

theorem doLoad (h : s.Canonical) {commits o d} : (State.doLoad commits s o d).Canonical := by
  unfold State.doLoad
  extract_lets n cs mask t u v
  have hu : u.Canonical := .foldl (.dropSets (.foldl h (fun h _ => h.commitList))) (fun h _ => h.setPart)
  have hv : v.Canonical := .ite hu.bringSet hu
  refine .ite h.complete (.ite h.complete ?_)
  split
  · exact h.complete
  · exact .ite h.complete (.complete (.ite hv.gateValleys hv.gateValleys.runCommits))

theorem execLoad (h : s.Canonical) {i r commits} : NextCanonical (execLoad i r commits s) :=
  .next (h.inLoadTurn (fun h => h.computeOp (fun h => h.doLoad)))

theorem noteSwap (h : s.Canonical) {o pass cut} : (s.noteSwap o pass cut).Canonical := h.others

theorem doStage (h : s.Canonical) {commits o d} : (doStage commits s o d).Canonical := by
  refine .ite h.complete (.ite ?_ (.ite h.complete ?_))
  · split
    exacts [h.complete, h.complete]
  · dsimp only
    split
    · exact .ite h.setNeeds.others h.setNeeds.complete
    · exact .ite h.setNeeds.complete (.ite h.setNeeds.complete (.noteSwap (.gateValleys (.foldl h.setNeeds (fun h _
        => h.stageList)))))

theorem execStage (h : s.Canonical) {i r commits} : NextCanonical (execStage i r commits s) :=
  .next (h.inLoadTurn (fun h => h.computeOp (fun h => h.doStage)))

theorem endStage (h : s.Canonical) {status result} : (s.endStage status result).Canonical := by
  unfold State.endStage
  dsimp only
  split
  · exact .gateValleys (.foldl h (fun h _ => h.unstage))
  · exact .complete (.others (.gateValleys (.foldl h (fun h _ => h.unstage))))

theorem beginRound (h : s.Canonical) {resuming} : (s.beginRound resuming).Canonical :=
  .judgeStart (.ite h.others.flood h.others)

theorem doStart (h : s.Canonical) {o d} : (s.doStart o d).Canonical :=
  h.withMask (fun h => .ite h.complete (.ite h.complete (.ite h.complete (.ite h.complete (.ite
    h.setNeeds.bringSet.others h.setNeeds.bringSet.others.beginRound)))))

theorem execStart (h : s.Canonical) {i r} : NextCanonical (execStart i r s) :=
  .next (h.computeOp (fun h => h.doStart))

theorem fetchStop (h : s.Canonical) : s.fetchStop.Canonical := by
  refine .others ?_
  split
  exacts [.ite h h.endStage, h]

theorem doStop (h : s.Canonical) {o d} : (s.doStop o d).Canonical :=
  h.withMask (fun h => .ite h.cancelStart.complete (.ite h.setNeeds.fetchStop.others (.ite h.complete h.complete)))

theorem execStop (h : s.Canonical) {i r} : NextCanonical (execStop i r s) := .next (h.computeOp (fun h => h.doStop))

theorem doUnload (h : s.Canonical) {o d} : (s.doUnload o d).Canonical :=
  h.withMask (fun h => .ite h.complete (.complete (.ite (.gateValleys (.dropSets (.foldl h (fun h _ =>
    h.unloadPart)))) (.runCommits (.gateValleys (.dropSets (.foldl h (fun h _ => h.unloadPart))))))))

theorem execUnload (h : s.Canonical) {i r} : NextCanonical (execUnload i r s) := by
  refine .next ?_
  split
  exacts [h, .ite h (h.computeOp (fun h => h.doUnload))]

theorem formLink (h : s.Canonical) {j} : (s.formLink j).Canonical :=
  .ite (.ite h.setLink.sendIdentity h.setLink) (.ite h.setLink h.setLink.setLinkState)

theorem doMuster (h : s.Canonical) {o d} : (s.doMuster o d).Canonical :=
  .ite h.complete (.ite h.complete (.sendRecord (.foldl h.others.setFlag.gateValley.setFld.setFld (fun h _ =>
    h.formLink))))

theorem execMuster (h : s.Canonical) {i r} : NextCanonical (execMuster i r s) :=
  .next (h.computeOp (fun h => h.doMuster))

theorem doDissolve (h : s.Canonical) {o x} : (s.doDissolve o x).Canonical :=
  .ite h.complete (.ite h.complete (.complete (.ite h.dropPlain h)))

theorem execDissolve (h : s.Canonical) {i r} : NextCanonical (execDissolve i r s) :=
  .next (h.computeOp (fun h => h.doDissolve))

theorem doPageCommit (h : s.Canonical) {o d} : (s.doPageCommit o d).Canonical := by
  refine .ite h.complete (.ite h.complete (.ite h.complete ?_))
  split
  · exact h.complete
  · refine .ite h.complete ?_
    split
    exacts [h.complete, .ite h.complete (.ite h.setNeeds.others h.setNeeds.others.runCommits)]

theorem execPageCommit (h : s.Canonical) {i r} : NextCanonical (execPageCommit i r s) :=
  .next (h.computeOp (fun h => h.doPageCommit))

end State.Canonical

/-! ### Machine/OpsShelf -/

namespace State.Canonical
variable {s : State}

theorem cipherMismatch (h : s.Canonical) : s.cipherMismatch.Canonical :=
  .ite h.bumpFree.count.others.setFld.critical.rebuildTable h.bumpFree.count.others

theorem setShelfState (h : s.Canonical) {st} : (s.setShelfState st).Canonical :=
  .ite h (.ite (.critical (.foldl h.setFld (fun h _ => h.event))) (.ite (.critical (.foldl h.setFld (fun h _ =>
    h.event))) (.foldl h.setFld (fun h _ => h.event))))

theorem updateShelf (h : s.Canonical) : s.updateShelf.Canonical := .ite h h.setShelfState

theorem retireBlocks (h : s.Canonical) {spare} : (s.retireBlocks spare).Canonical := by
  unfold State.retireBlocks
  split
  exacts [h, h.setFld.updateShelf]

theorem wakeShelf (h : s.Canonical) : s.wakeShelf.Canonical := h.setFld.others

theorem shelfStart (h : s.Canonical) : s.shelfStart.Canonical := .ite h h.others

theorem peerComplete (h : s.Canonical) {q slot tag status result} :
    (s.peerComplete q slot tag status result).Canonical := by
  unfold State.peerComplete
  split
  · exact h
  · next n _ =>
    dsimp only
    split
    · exact h
    · next a ha => exact h.putQp (n := n) (fun b hb => by cases hb; exact h.qp n a ha)

theorem endShelf (h : s.Canonical) {op q slot tag status result} : (s.endShelf op q slot tag status result).Canonical
    := by
  unfold State.endShelf
  split
  exacts [h.complete, h.peerComplete]

theorem shelfReset (h : s.Canonical) {q} : (s.shelfReset q).Canonical :=
  .shelfStart (.foldl h.others (fun h _ => h.endShelf))

end State.Canonical

/-! ### Machine/OpsRing -/

namespace State.Canonical
variable {s : State}

theorem enableRing (h : s.Canonical) {i r} : (s.enableRing i r).Canonical := by
  refine .ite h (.ite h.setFld (.withHost ?_))
  split
  exacts [h.setFld.setRing.setFld.others, h.setFld.setRing.setFld]

theorem ringError (h : s.Canonical) {i r code} : (s.ringError i r code).Canonical := h.setFld.setFld.event

theorem fetchOne (h : s.Canonical) {i r} : (s.fetchOne i r).Canonical := .ite h.setRing.setFld.withHost h

theorem signal (h : s.Canonical) {i vec} : (s.signal i vec).Canonical := .ite h.setFn h.emit

theorem dropFetched (h : s.Canonical) {i r status} : (s.dropFetched i r status).Canonical := h.setRing

theorem detachStart (h : s.Canonical) {i r} : (s.detachStart i r).Canonical := by
  unfold State.detachStart
  split
  exacts [.ite h.others.complete h, h]

theorem dropBufs (h : s.Canonical) {i r status} : (s.dropBufs i r status).Canonical :=
  .foldl h.setRing (fun h _ => h.complete)

end State.Canonical

/-! ### Machine/OpsEth -/

namespace State.Canonical
variable {s : State}

theorem setPort (h : s.Canonical) {p x} : (s.setPort p x).Canonical := h.others
theorem portEvent (h : s.Canonical) {p} : (s.portEvent p).Canonical := h.event.raiseFw

theorem dropPort (h : s.Canonical) {p} : (s.dropPort p).Canonical := by
  refine .ite (.portEvent (.foldl h.setPort.setFlag.setFld (fun h _ => ?_))) h
  split
  exacts [h.complete, h]

theorem setLanes (h : s.Canonical) {p lanes} : (s.setLanes p lanes).Canonical := .ite h h.dropPort.setFld.rebuildTable

theorem applyLanes (h : s.Canonical) {p} : (s.applyLanes p).Canonical := h.setLanes

theorem doPost (h : s.Canonical) {o d} : (s.doPost o d).Canonical := by
  unfold State.doPost
  dsimp only
  split
  exacts [h.complete, .ite h.setRing h.complete]

theorem takeBuf (h : s.Canonical) {i r} : (s.takeBuf i r).Canonical := .withOp (.ite h.fetchOne h) (fun h => h.doPost)

theorem takeBufs (h : s.Canonical) {i r n fuel} : (s.takeBufs i r n fuel).Canonical := by
  induction fuel generalizing s with
  | zero => exact h
  | succ fuel ih => exact .ite h (ih h.takeBuf)

theorem writeFrame (h : s.Canonical) {i r bs sealed l3 l4 rule version} :
    (s.writeFrame i r bs sealed l3 l4 rule version).Canonical := by
  refine .foldl (.violateIf (.foldl_snd h.setRing fun {q} hq x => ?_)) (fun h _ => h.complete)
  exact .ite_snd hq.devWrite hq.hostWrite

theorem noBuffer (h : s.Canonical) {n} : (s.noBuffer n).Canonical := h.count

theorem fencedBufs (h : s.Canonical) {i r n bad} : (s.fencedBufs i r n bad).Canonical :=
  .foldl h.noBuffer.setRing (fun h _ => h.complete)

theorem flowKey (h : s.Canonical) {k} : (s.flowKey k).2.Canonical := by
  unfold State.flowKey
  dsimp only
  split
  exacts [h.useKey, h.bumpFree]

theorem sendBytes (h : s.Canonical) {via i devmem addr len} : (s.sendBytes via i devmem addr len).2.2.Canonical :=
  .ite_snd_snd h.devRead h.hostRead

theorem deliver (h : s.Canonical) {p n rule sealed f h' mismatch} :
    (s.deliver p n rule sealed f h' mismatch).Canonical := by
  unfold State.deliver
  split
  · exact h.noBuffer
  · extract_lets need t used hostBuf bad version l4 u
    have ht : t.Canonical := h.takeBufs
    have hu : u.Canonical := .ite ht.bumpFree ht
    refine .ite ht.fencedBufs (.ite ht.noBuffer ?_)
    split
    · exact hu.writeFrame
    · refine .ite hu (.ite hu.cipherMismatch ?_)
      dsimp only
      split
      · exact hu.flowKey.count
      · exact hu.flowKey.writeFrame

theorem slowFrame (h : s.Canonical) {p f} : (s.slowFrame p f).Canonical := .ite h.count h.setPort.raiseFw

theorem sendAhead (h : s.Canonical) {p f} : (s.sendAhead p f).Canonical := .ite h.setPort h

theorem ptpSend (h : s.Canonical) {p kind flags corr seq body} : (s.ptpSend p kind flags corr seq body).Canonical :=
  h.sendAhead

theorem ptpAnswer (h : s.Canonical) {p m} : (s.ptpAnswer p m).Canonical :=
  .ite (.ite (.ite h.ptpSend.ptpSend h.ptpSend) h) (.ite h.ptpSend h)

theorem hand (h : s.Canonical) {p unit f} : (s.hand p unit f).Canonical := by
  refine .ite (.ite h.setPort h) ?_
  split
  exacts [h, .ite h (.ite h.setPort.others h.others.ptpAnswer)]

theorem ptpBeat (h : s.Canonical) : s.ptpBeat.Canonical :=
  .others (.foldl h (fun h _ => .ite h (.ite (.ptpSend (.ite (.ite h.ptpSend.ptpSend.ptpSend h.ptpSend.ptpSend) (.ite
    h h.ptpSend))) (.ite (.ite h.ptpSend.ptpSend.ptpSend h.ptpSend.ptpSend) (.ite h h.ptpSend)))))

theorem classify (h : s.Canonical) {p f h' mismatch} : (s.classify p f h' mismatch).Canonical := by
  unfold State.classify
  extract_lets rs t
  split
  · exact .ite h.count.slowFrame h.count
  · extract_lets r u
    have hu : u.Canonical := .ite h.wake h
    split
    exacts [hu.deliver, hu.slowFrame, hu.hand, hu.hand, hu]

theorem setNode (h : s.Canonical) {k x} : (s.setNode k x).Canonical := h.others

theorem drr (h : s.Canonical) {key cands fuel last} : (s.drr key cands fuel last).2.Canonical := by
  induction fuel generalizing s last with
  | zero => exact h
  | succ fuel ih =>
    rw [State.drr]
    refine .ite_snd h.setNode ?_
    split
    · exact h
    · exact ih h.setNode

theorem pickIn (h : s.Canonical) {p v hs} : (s.pickIn p v hs).2.Canonical := by
  unfold State.pickIn
  dsimp only
  split
  exacts [h.drr, h.drr.setNode.setNode]

theorem pickFrame (h : s.Canonical) {p} : (s.pickFrame p).2.Canonical := by
  unfold State.pickFrame
  dsimp only
  split
  · exact h
  · split
    · next e => exact h.drr.pickIn.of_snd_eq e
    · next e => exact (h.drr.pickIn.of_snd_eq e).setPort

theorem charge (h : s.Canonical) {k l} : (s.charge k l).Canonical := h.setNode

theorem chargePath (h : s.Canonical) {p f} : (s.chargePath p f).Canonical :=
  .charge (.charge (.charge (.ite h h.setQp)))

theorem enqueue (h : s.Canonical) {p f} : (s.enqueue p f).Canonical := .ite h.setPort h

theorem applyNode (h : s.Canonical) {sel f v} : (s.applyNode sel f v).Canonical :=
  .ite h.setNode (.ite h.setNode (.ite h.setNode (.ite h.setNode (.ite h.setNode (.ite h.setNode h)))))

theorem etxReset (h : s.Canonical) {i r status} : (s.etxReset i r status).Canonical :=
  .foldl (.foldl h (fun h _ => h.setPort)) (fun h _ => h.complete)

end State.Canonical

/-! ### Machine/OpsRma -/

namespace State.Canonical
variable {s : State}

theorem sendRoce (h : s.Canonical) {n opcode ackReq psn ext payload} : (s.sendRoce n opcode ackReq psn ext
    payload).Canonical := by
  unfold State.sendRoce
  dsimp only
  split
  exacts [.ite h (h.useKey.putQp (h.qp _).others).enqueue, h.enqueue]

theorem sendAck (h : s.Canonical) {n psn syndrome} : (s.sendAck n psn syndrome).Canonical := h.setQp.sendRoce

theorem sendFrom (h : s.Canonical) {n w k} : (s.sendFrom n w k).Canonical :=
  .ite h.sendRoce (.foldl h (fun h _ => h.sendRoce))

theorem goBack (h : s.Canonical) {n} : (s.goBack n).Canonical := .foldl h (fun h _ => h.sendFrom)

theorem addWqe (h : s.Canonical) {n w} : (s.addWqe n w).Canonical := .ite h.setQp.sendFrom h.setQp

theorem loseRestore (h : s.Canonical) {o status} : (s.loseRestore o status).Canonical :=
  h.mapRestores fun y hy => by split <;> exact hy

theorem loseTake (h : s.Canonical) {status} : (s.loseTake status).Canonical := h.others

theorem endWqe (h : s.Canonical) {w status} : (s.endWqe w status).Canonical := by
  have ht {c st} : State.Canonical (if w.kind ≠ 4 then s
      else if c = Status.ok then { s with host := { s.host with far := Memory.write s.host.far w.raddr w.data } }
      else s.loseTake st) := .ite h (.ite (h.withFar (Memory.wf_write _ _ h.farMem)) h.loseTake)
  refine .ite (.ite ht ht.loseRestore) ?_
  split
  · exact ht.complete
  · exact ht

theorem refuseWqe (h : s.Canonical) {n o status} : (s.refuseWqe n o status).Canonical := .ite h.complete h.setQp

theorem popWqes (h : s.Canonical) {n fuel} : (s.popWqes n fuel).Canonical := by
  induction fuel generalizing s with
  | zero => exact h
  | succ fuel ih =>
    rw [State.popWqes]
    dsimp only
    split
    · exact h
    · exact .ite (ih h.setQp.endWqe) h

theorem ackTo (h : s.Canonical) {n psn} : (s.ackTo n psn).Canonical := .ite h.setQp.setFld.popWqes h

theorem dropRoce (h : s.Canonical) {n p} : (s.dropRoce n p).Canonical := .foldl h (fun h _ => .ite h.setPort h)

theorem qpFail (h : s.Canonical) {n statusOf} : (s.qpFail n statusOf).Canonical := by
  unfold State.qpFail
  dsimp only
  split
  · exact .complete (.raiseFw (.dropRoce (.foldl h.setQp.setFld (fun h _ => h.endWqe))))
  · exact .raiseFw (.dropRoce (.foldl h.setQp.setFld (fun h _ => h.endWqe)))

theorem qpError (h : s.Canonical) {n} : (s.qpError n).Canonical := h.qpFail

theorem failAt (h : s.Canonical) {n psn status} : (s.failAt n psn status).Canonical := by
  unfold State.failAt
  split
  exacts [h.qpError, h.qpFail]

theorem failOldest (h : s.Canonical) {n status} : (s.failOldest n status).Canonical := by
  refine .ite h.failAt ?_
  split
  exacts [h.qpError, h.qpFail]

theorem register (h : s.Canonical) {x} : (s.register x).2.Canonical := by
  unfold State.register
  split
  exacts [h, h.bumpFree.withRma]

theorem refusePeer (h : s.Canonical) {n psn rkey syndrome status} : (s.refusePeer n psn rkey syndrome
    status).Canonical := by
  unfold State.refusePeer
  dsimp only
  split
  exacts [h.sendAck.qpError, h.sendAck.qpError.handOver]

theorem flushPeer (h : s.Canonical) {n fuel} : (s.flushPeer n fuel).Canonical := by
  induction fuel generalizing s with
  | zero => exact h
  | succ fuel ih =>
    rw [State.flushPeer]
    dsimp only
    split
    · exact h
    · next a ha =>
      split
      · exact h
      · exact .ite (ih (h.putQp (fun b hb => by cases hb; exact h.qp n a ha)).addWqe) h

theorem flushPeers (h : s.Canonical) : s.flushPeers.Canonical := .foldl h (fun h _ => h.flushPeer)

theorem setRate (h : s.Canonical) {n rc rt} : (s.setRate n rc rt).Canonical := h.setQp.setFld

theorem qpClear (h : s.Canonical) {n} : (s.qpClear n).Canonical := (h.putQp Qp.canonical_init).setFld.setFlag.setFld

theorem qpReset (h : s.Canonical) {n} : (s.qpReset n).Canonical := h.qpError.dropRoce.qpClear

theorem detachSqp (h : s.Canonical) {n} : (s.detachSqp n).Canonical := by
  unfold State.detachSqp
  split
  · exact h
  · exact (h.putQp (n := n) (fun a ha => by cases ha)).setFlag

theorem rmaOrphan (h : s.Canonical) {i} : (s.rmaOrphan i).Canonical :=
  .foldl h.withRma (fun h _ => h.qpError.detachSqp)

end State.Canonical

/-! ### Machine/OpsCkpt -/

namespace State.Canonical
variable {s : State}

theorem freePlain (h : s.Canonical) {x} (hx : x.Canonical) : (s.freePlain x).2.Canonical :=
  h.bumpFree.bumpFree.withSaved (List.forall_mem_cons.2 ⟨hx, h.saved⟩)

end State.Canonical

namespace Bench.Canonical
variable {x : Bench}

theorem clean : x.clean.Canonical := ⟨cleanMemory_wf _ _, rfl, rfl⟩

end Bench.Canonical

namespace State.Canonical
variable {s : State}

theorem clusterStores (h : s.Canonical) {c} : (s.clusterStores c).2.2.Canonical :=
  .foldl_snd_snd h (fun h _ => h.storeOut)

theorem collect (h : s.Canonical) (i mask : Nat) : (s.collect i mask).Canonical :=
  List.forall_mem_map.2 fun b _ => ⟨rfl, (h.bench b).2⟩

theorem cleanItems (s : State) (mask : Nat) (x : Saved) : (s.cleanItems mask x).Canonical :=
  List.forall_mem_map.2 fun _ _ => Bench.Canonical.clean

theorem itemsOf (h : s.Canonical) (mask : Nat) (plain : List Byte) : (s.itemsOf mask plain).Canonical := by
  unfold State.itemsOf
  split
  · next e => exact h.saved _ (List.mem_of_find?_eq_some e)
  · exact cleanItems s mask _

theorem shardPlain (h : s.Canonical) {items src} (hx : items.Canonical) : (s.shardPlain items src).2.2.Canonical := by
  unfold State.shardPlain
  split
  exacts [h.freePlain hx, h.devRead, h.clusterStores]

theorem areaWrite (h : s.Canonical) {t' n off bs} : (s.areaWrite t' n off bs).Canonical := .ite h.loseTake h.addWqe

theorem writeChunks (h : s.Canonical) {tk n fuel off ct} : (s.writeChunks tk n fuel off ct).Canonical := by
  induction fuel generalizing s off ct with
  | zero => exact h
  | succ fuel ih => exact .ite h (ih h.areaWrite)

theorem writeShards (h : s.Canonical) {tk key items j off srcs} (hx : items.Canonical) :
    (s.writeShards tk key items j off srcs).2.2.Canonical := by
  induction srcs generalizing s j off with
  | nil => exact h
  | cons src srcs ih => exact .ite_snd_snd (h.shardPlain hx) (ih (h.shardPlain hx).writeChunks)

theorem putItems (h : s.Canonical) {x} : (s.putItems x).Canonical :=
  .foldl (.foldl (.foldl (.foldl h (fun h _ => h.setBench)) (fun h _ => h.setCluster)) (fun h _ => h.loadWindow))
    (fun h _ => h.setGranule)

theorem putPosition (h : s.Canonical) {mask m x} : (s.putPosition mask m x).Canonical :=
  .ite h.dropSets.others h.dropSets.bringSet.others

theorem endTake (h : s.Canonical) {status result} : (s.endTake status result).Canonical := by
  unfold State.endTake
  split
  exacts [h, .ite h.others.complete.beginRound h.others.complete]

theorem failTake (h : s.Canonical) {status} : (s.failTake status).Canonical := by
  unfold State.failTake
  split
  exacts [h, .ite h.endTake h]

theorem settleTake (h : s.Canonical) : s.settleTake.Canonical := by
  unfold State.settleTake
  split
  exacts [h.failTake, h]

theorem commitTake (h : s.Canonical) : s.commitTake.Canonical := by
  unfold State.commitTake
  split
  · exact h
  · split
    exacts [.ite h.endTake h, h]

theorem postShards (h : s.Canonical) : s.postShards.Canonical := by
  unfold State.postShards
  split
  · refine .ite h (.ite h.failTake ?_)
    dsimp only
    generalize hp : State.writeShards _ _ _ _ _ _ _ = p
    have hw : p.2.2.Canonical := hp ▸ h.useKeys.writeShards (h.collect _ _)
    exact .ite hw.failTake hw.others
  · exact h

theorem stopForTake (h : s.Canonical) : s.stopForTake.Canonical := by
  unfold State.stopForTake
  extract_lets pos t
  have ht : t.Canonical := .foldl h (fun h _ => h.setPart)
  split
  · exact h
  · have hu {tk q run} : (State.areaWrite { t with run := run } tk q 0 (List.replicate 65536 0)).Canonical :=
      ht.others.areaWrite
    refine .ite hu.setFlag ?_
    split
    exacts [hu.setFlag.runEnds, .complete (.others hu.setFlag)]

end State.Canonical

/-! ### Machine/OpsRestore -/

namespace State.Canonical
variable {s : State}

theorem wipeRestore (h : s.Canonical) {mask clusters} : (s.wipeRestore mask clusters).Canonical :=
  .foldl (.zeroBenchStores (.foldl h (fun h _ => h.zeroRegion))) (fun h _ => h.setPart)

theorem setRestore (h : s.Canonical) {x} (hx : x.Canonical) : (s.setRestore x).Canonical :=
  h.mapRestores fun y hy => by split <;> assumption

theorem endRestore (h : s.Canonical) {x status} : (s.endRestore x status).Canonical := h.filterRestores.complete

theorem failRestore (h : s.Canonical) {x status} : (s.failRestore x status).Canonical := h.wipeRestore.endRestore

theorem askPieces (h : s.Canonical) {x} : (s.askPieces x).Canonical := by
  refine mapRestores (.foldl_fst h fun {q} hq p => ?_) fun y hy => ?_
  · exact .ite_fst (p := (_, _)) hq.loseRestore (.ite_fst (p := (_, _)) (q := (_, _)) hq hq.addWqe)
  · split
    · exact hy
    · exact hy

theorem arrive (h : s.Canonical) {o off bs} : (s.arrive o off bs).Canonical := by
  refine h.mapRestores fun y hy => ?_
  split
  · exact ⟨Memory.wf_write _ _ hy.1, hy.2⟩
  · exact hy

theorem nextShard (h : s.Canonical) {x m} (hx : x.Canonical) : (s.nextShard x m).Canonical := by
  have hy : Restore.Canonical { x with todo := x.shardPieces m x.shard, buf := [] } := ⟨rfl, hx.2⟩
  refine .ite (h.setRestore hy).askPieces ?_
  split
  · exact h.failRestore
  · exact .endRestore (.ite (.foldl h.putItems.putPosition (fun h _ => h.setPart))
      (.setFlag (.foldl h.putItems.putPosition (fun h _ => h.setPart))))

theorem restoreShard (h : s.Canonical) {mask key m ct id j new t}
    (e : s.restoreShard mask key m ct id j = some (new, t)) : (∀ v ∈ new, v.Canonical) ∧ t.Canonical := by
  unfold State.restoreShard at e
  extract_lets e' n at e
  split at e
  · cases e
  · split at e
    · cases e
    · split at e
      · cases e
        exact ⟨fun v hv => by cases hv; exact h.itemsOf _ _, h⟩
      · cases e
        exact ⟨nofun, h.devWrite⟩
      · cases e
        exact ⟨nofun, .foldl h (fun h _ => h.storeIn (Memory.wf_write _ _ rfl))⟩

theorem checkRestore (h : s.Canonical) {r x} (hx : x.Canonical) : (s.checkRestore r x).Canonical := by
  unfold State.checkRestore
  extract_lets gen m t
  have ht : t.Canonical := h.useKeys
  split
  · split
    · exact ht.failRestore
    · exact .ite ht.failRestore (.ite ht.cipherMismatch.failRestore (ht.useKeys.nextShard hx))
  · refine .ite h.failRestore ?_
    split
    split
    · exact h.failRestore
    · next items t e =>
      obtain ⟨hi, ht⟩ := h.restoreShard e
      exact ht.nextShard ⟨hx.1, List.forall_mem_append.2 ⟨fun v hv => hi v (Option.mem_toList.1 hv), hx.2⟩⟩

theorem stepRestore (h : s.Canonical) {x} (hx : x.Canonical) : (s.stepRestore x).Canonical := by
  unfold State.stepRestore
  refine .ite h.filterRestores ?_
  split
  exacts [h.failRestore, h.failRestore, .ite h.askPieces (.ite h (h.checkRestore hx))]

theorem stepRestores (h : s.Canonical) : s.stepRestores.Canonical :=
  .foldl_mem h (fun ht x hx => ht.stepRestore (h.restores x hx))

theorem areaStep (h : s.Canonical) : s.areaStep.Canonical := h.postShards.commitTake.stepRestores

end State.Canonical

/-! ### Machine/Checkpoint -/

namespace State.Canonical
variable {s : State}

theorem checkpointOp (h : s.Canonical) {o d body} (hbody : ∀ {t}, t.Canonical → (body t).Canonical) : (s.checkpointOp
    o d body).Canonical := by
  unfold State.checkpointOp
  split
  · exact h.complete
  · refine .ite h.complete ?_
    split
    exacts [h.complete, h.violate.complete, hbody h]

theorem doTake (h : s.Canonical) {o d} : (s.doTake o d).Canonical := by
  refine h.checkpointOp (fun h => h.withMask (fun h => ?_))
  split
  · exact h.complete
  · refine .ite h.complete (.ite h.complete ?_)
    dsimp only
    split
    exacts [h.setNeeds.others, .ite h.setNeeds.others.notice h.setNeeds.others]

theorem execCheckpointTake (h : s.Canonical) {i r} : NextCanonical (execCheckpointTake i r s) := by
  refine .next ?_
  split
  exacts [h, .ite h (h.withOp (fun h => .ite h.doTake (h.checkpointOp (fun h => h.complete))))]

theorem execManifestCommit (h : s.Canonical) {mismatch} : NextCanonical (execManifestCommit mismatch s) := by
  refine .next ?_
  split
  · split
    · exact h
    · refine .ite h.settleTake (.ite h (.ite h.failTake (.ite h.cipherMismatch.failTake ?_)))
      split
      exacts [h, .ite h h.useKeys.bumpFree.others.areaWrite.settleTake]
  · exact h

theorem doRestore (h : s.Canonical) {mismatch o d} : (s.doRestore mismatch o d).Canonical := by
  refine h.checkpointOp (fun h => h.withMask (fun {t} h => ?_))
  split
  · exact h.complete
  · refine .ite h.complete (.ite h.complete (.askPieces (h.setNeeds.withRestores ?_)))
    exact List.forall_mem_append.2 ⟨h.restores, List.forall_mem_singleton.2 ⟨rfl, nofun⟩⟩

theorem execCheckpointRestore (h : s.Canonical) {i r mismatch} : NextCanonical (execCheckpointRestore i r mismatch s)
    := by
  refine .next ?_
  split
  exacts [h, .ite (h.withOp (fun h => h.doRestore)) h]

end State.Canonical

/-! ### Machine/Tenon -/

namespace State.Canonical
variable {s : State}

theorem syncRec (h : s.Canonical) {k} : (s.syncRec k).Canonical := .ite (h.traceRec.putCore (h.core _).others) h

theorem expire (h : s.Canonical) {k q} : (s.expire k q).Canonical :=
  .ite h.kill.restartCore.report h.setCore.logEvent.logCount.takeException

theorem retire (h : s.Canonical) {k len old next} : (s.retire k len old next).Canonical := by
  unfold State.retire
  extract_lets x y after again x' z t u v
  have hy : y.Canonical := (h.core k).others
  have hz : z.Canonical := .ite hy.others (.ite hy.setBit.setBit.others hy.others)
  have ht : t.Canonical := h.putCore hz
  have hu : u.Canonical := .ite ht.syncRec ht
  have hv : v.Canonical := .ite hu.expire hu
  exact hv.pollInterrupt

theorem instr (h : s.Canonical) {k len rep single body}
    (hbody : ∀ {t x}, t.Canonical → x.Canonical → (body t x).Canonical) :
    (s.instr k len rep single body).Canonical := by
  unfold State.instr
  extract_lets x y t
  have hskip : t.Canonical := h.putCore (h.core k).setBit.setBit.others
  refine .ite h (.ite (.ite hskip.expire hskip.pollInterrupt) ?_)
  split
  · exact h.takeException
  · split
    · split
      · exact (h.putCore (h.core k).setBit.setBit.others).takeException
      · exact h.takeException
    · have hd := hbody h (h.core k)
      generalize body s (s.core k) = d at hd
      cases d with
      | done t next => exact State.Canonical.retire hd
      | fault f => exact h.takeException
      | faultIn t f => exact State.Canonical.takeException hd
      | wait => exact h
      | waitIn t => exact hd

theorem plainInstr (h : s.Canonical) {k len f} (hf : ∀ {x}, x.Canonical → (f x).Canonical) : (s.plainInstr k len
    f).Canonical :=
  h.instr (fun h hx => h.putCore (hf hx))

end State.Canonical

namespace Core.Canonical
variable {x : Core}

theorem setFlags (h : x.Canonical) {r cv} : (x.setFlags r cv).Canonical := h.setBit.setBit.setBit.setBit

theorem alu (h : x.Canonical) {op gd a b} : (x.alu op gd a b).Canonical :=
  .ite (.setFlags (.ite h h.setG)) (.ite h h.setG)

end Core.Canonical

namespace State.Canonical
variable {s : State}

theorem aluOp (h : s.Canonical) {k op gd gs1 gs2} : (s.aluOp k op gd gs1 gs2).Canonical :=
  h.instr (fun h hx => h.putCore hx.alu)

theorem execAluAdd (h : s.Canonical) {k gd gs1 gs2} : NextCanonical (execAluAdd k gd gs1 gs2 s) := .next h.aluOp

theorem execAluAddc (h : s.Canonical) {k gd gs1 gs2} : NextCanonical (execAluAddc k gd gs1 gs2 s) := .next h.aluOp

theorem execAluSub (h : s.Canonical) {k gd gs1 gs2} : NextCanonical (execAluSub k gd gs1 gs2 s) := .next h.aluOp

theorem execAluSubc (h : s.Canonical) {k gd gs1 gs2} : NextCanonical (execAluSubc k gd gs1 gs2 s) := .next h.aluOp

theorem execAluAnd (h : s.Canonical) {k gd gs1 gs2} : NextCanonical (execAluAnd k gd gs1 gs2 s) := .next h.aluOp

theorem execAluOr (h : s.Canonical) {k gd gs1 gs2} : NextCanonical (execAluOr k gd gs1 gs2 s) := .next h.aluOp

theorem execAluXor (h : s.Canonical) {k gd gs1 gs2} : NextCanonical (execAluXor k gd gs1 gs2 s) := .next h.aluOp

theorem execAluNot (h : s.Canonical) {k gd gs1 gs2} : NextCanonical (execAluNot k gd gs1 gs2 s) := .next h.aluOp

theorem execAluNeg (h : s.Canonical) {k gd gs1 gs2} : NextCanonical (execAluNeg k gd gs1 gs2 s) := .next h.aluOp

theorem execAluMin (h : s.Canonical) {k gd gs1 gs2} : NextCanonical (execAluMin k gd gs1 gs2 s) := .next h.aluOp

theorem execAluMax (h : s.Canonical) {k gd gs1 gs2} : NextCanonical (execAluMax k gd gs1 gs2 s) := .next h.aluOp

theorem execAluCmp (h : s.Canonical) {k gd gs1 gs2} : NextCanonical (execAluCmp k gd gs1 gs2 s) := .next h.aluOp

theorem execAluMov (h : s.Canonical) {k gd gs1 gs2} : NextCanonical (execAluMov k gd gs1 gs2 s) := .next h.aluOp

theorem execAluMul (h : s.Canonical) {k gd gs1 gs2} : NextCanonical (execAluMul k gd gs1 gs2 s) := .next h.aluOp

theorem execDivs (h : s.Canonical) {k gd gs1 gs2} : NextCanonical (execDivs k gd gs1 gs2 s) := .next h.aluOp

theorem execDivu (h : s.Canonical) {k gd gs1 gs2} : NextCanonical (execDivu k gd gs1 gs2 s) := .next h.aluOp

theorem execRems (h : s.Canonical) {k gd gs1 gs2} : NextCanonical (execRems k gd gs1 gs2 s) := .next h.aluOp

theorem execRemu (h : s.Canonical) {k gd gs1 gs2} : NextCanonical (execRemu k gd gs1 gs2 s) := .next h.aluOp

theorem execSext (h : s.Canonical) {k gd gs1 gs2} : NextCanonical (execSext k gd gs1 gs2 s) := .next h.aluOp

theorem execZext (h : s.Canonical) {k gd gs1 gs2} : NextCanonical (execZext k gd gs1 gs2 s) := .next h.aluOp

theorem execAluImmediate (h : s.Canonical) {k op gd gs imm} : NextCanonical (execAluImmediate k op gd gs imm s) := by
  refine .next ?_
  split
  exacts [h.instr (fun _ _ => trivial), h.instr (fun h hx => h.putCore hx.alu)]

theorem execMovi (h : s.Canonical) {k gd imm} : NextCanonical (execMovi k gd imm s) :=
  .next (h.instr (fun h hx => h.putCore hx.alu))

end State.Canonical

namespace Core.Canonical
variable {x : Core}

theorem shiftResult (h : x.Canonical) {num gd a b r} : (x.shiftResult num gd a b r).Canonical :=
  .ite h.setG.setFlags h.setG

end Core.Canonical

namespace State.Canonical
variable {s : State}

theorem shiftOp (h : s.Canonical) {k op f} : (s.shiftOp k op f).Canonical := h.plainInstr (fun hx => hx.shiftResult)
theorem execShl (h : s.Canonical) {k f} : NextCanonical (execShl k f s) := .next h.shiftOp
theorem execShr (h : s.Canonical) {k f} : NextCanonical (execShr k f s) := .next h.shiftOp
theorem execSar (h : s.Canonical) {k f} : NextCanonical (execSar k f s) := .next h.shiftOp
theorem execRol (h : s.Canonical) {k f} : NextCanonical (execRol k f s) := .next h.shiftOp
theorem execRor (h : s.Canonical) {k f} : NextCanonical (execRor k f s) := .next h.shiftOp

theorem execBitFieldExtract (h : s.Canonical) {k f} : NextCanonical (execBitFieldExtract k f s) :=
  .next (h.plainInstr (fun hx => hx.shiftResult))

theorem execBitFieldInsert (h : s.Canonical) {k f} : NextCanonical (execBitFieldInsert k f s) :=
  .next (h.plainInstr (fun hx => hx.shiftResult))

theorem accOp (h : s.Canonical) {k u sub cn gx gy} : (s.accOp k u sub cn gx gy).Canonical :=
  h.plainInstr (fun hx => hx.setC)

theorem execMac (h : s.Canonical) {k cn gx gy} : NextCanonical (execMac k cn gx gy s) := .next h.accOp

theorem execMsu (h : s.Canonical) {k cn gx gy} : NextCanonical (execMsu k cn gx gy s) := .next h.accOp

theorem execMacu (h : s.Canonical) {k cn gx gy} : NextCanonical (execMacu k cn gx gy s) := .next h.accOp

theorem execMsuu (h : s.Canonical) {k cn gx gy} : NextCanonical (execMsuu k cn gx gy s) := .next h.accOp

theorem execMulc (h : s.Canonical) {k cn gx gy unsigned} : NextCanonical (execMulc k cn gx gy unsigned s) :=
  .next (h.plainInstr (fun hx => hx.setC))

theorem execAcl (h : s.Canonical) {k cn} : NextCanonical (execAcl k cn s) := .next (h.plainInstr (fun hx => hx.setC))

theorem execCmov (h : s.Canonical) {k cn src} : NextCanonical (execCmov k cn src s) :=
  .next (h.plainInstr (fun hx => hx.setC))

theorem execMvc (h : s.Canonical) {k gd cn sh} : NextCanonical (execMvc k gd cn sh s) :=
  .next (h.plainInstr (fun hx => .ite hx.setG.setBit hx.setG))

theorem execMvgc (h : s.Canonical) {k cn gx gy} : NextCanonical (execMvgc k cn gx gy s) :=
  .next (h.plainInstr (fun hx => hx.setC))

theorem loadOp (h : s.Canonical) {k n m put} (hput : ∀ {x a}, x.Canonical → (put x a).Canonical) : (s.loadOp k n m
    put).Canonical := by
  refine h.instr (fun h hx => ?_)
  split
  · trivial
  · split
    · trivial
    · dsimp only
      split
      exacts [.ite (h.putCore (hput hx.setP)).bumpFree trivial, h.putCore (hput hx.setP)]

theorem storeOp (h : s.Canonical) {k n m get} : (s.storeOp k n m get).Canonical := by
  refine h.instr (fun h hx => ?_)
  split
  · trivial
  · split
    exacts [trivial, h.putCore (.setP (.ite hx hx.store))]

theorem execLdb (h : s.Canonical) {k gd m} : NextCanonical (execLdb k gd m s) := .next (h.loadOp (fun hx => hx.setG))

theorem execLdbu (h : s.Canonical) {k gd m} : NextCanonical (execLdbu k gd m s) :=
  .next (h.loadOp (fun hx => hx.setG))

theorem execLdh (h : s.Canonical) {k gd m} : NextCanonical (execLdh k gd m s) := .next (h.loadOp (fun hx => hx.setG))

theorem execLdhu (h : s.Canonical) {k gd m} : NextCanonical (execLdhu k gd m s) :=
  .next (h.loadOp (fun hx => hx.setG))

theorem execLdw (h : s.Canonical) {k gd m} : NextCanonical (execLdw k gd m s) := .next (h.loadOp (fun hx => hx.setG))

theorem execLdp (h : s.Canonical) {k pd m} : NextCanonical (execLdp k pd m s) := .next (h.loadOp (fun hx => hx.setP))

theorem execLdc (h : s.Canonical) {k cn m} : NextCanonical (execLdc k cn m s) := .next (h.loadOp (fun hx => hx.setC))

theorem execStb (h : s.Canonical) {k gs m} : NextCanonical (execStb k gs m s) := .next h.storeOp

theorem execSth (h : s.Canonical) {k gs m} : NextCanonical (execSth k gs m s) := .next h.storeOp

theorem execStw (h : s.Canonical) {k gs m} : NextCanonical (execStw k gs m s) := .next h.storeOp

theorem execStp (h : s.Canonical) {k ps m} : NextCanonical (execStp k ps m s) := .next h.storeOp

theorem execStc (h : s.Canonical) {k cn m} : NextCanonical (execStc k cn m s) := .next h.storeOp

theorem execPadr (h : s.Canonical) {k pd ps imm} : NextCanonical (execPadr k pd ps imm s) := by
  cases imm with
  | short v => exact .next (h.plainInstr (fun hx => hx.setP))
  | long v => exact .next (h.plainInstr (fun hx => hx.setP))

theorem execPadd (h : s.Canonical) {k pd ps gi} : NextCanonical (execPadd k pd ps gi s) :=
  .next (h.plainInstr (fun hx => hx.setP))

theorem execPsub (h : s.Canonical) {k pd ps gi} : NextCanonical (execPsub k pd ps gi s) :=
  .next (h.plainInstr (fun hx => hx.setP))

theorem execPmov (h : s.Canonical) {k pd ps} : NextCanonical (execPmov k pd ps s) :=
  .next (h.plainInstr (fun hx => hx.setP))

theorem execPget (h : s.Canonical) {k ps gi} : NextCanonical (execPget k ps gi s) :=
  .next (h.plainInstr (fun hx => hx.setG))

theorem execPput (h : s.Canonical) {k pd gi} : NextCanonical (execPput k pd gi s) :=
  .next (h.plainInstr (fun hx => hx.setP))

theorem execPcmp (h : s.Canonical) {k pd ps} : NextCanonical (execPcmp k pd ps s) :=
  .next (h.plainInstr (fun hx => hx.setFlags))

theorem execBranch (h : s.Canonical) {k cond off sq} : NextCanonical (execBranch k cond off sq s) := by
  refine .next (h.instr (fun h hx => ?_))
  split
  · trivial
  · exact State.Canonical.ite h.traceRec h.traceRec.squash

theorem of_popWord (h : s.Canonical) {x a v t} (e : s.popWord x a = .ok (v, t)) : t.Canonical := by
  unfold State.popWord at e
  split at e
  · cases e
  · split at e
    · cases e
      exact h.bumpFree
    · cases e
      exact h

theorem callTo (h : s.Canonical) {k len target} : (s.callTo k len target).Canonical := by
  refine h.instr (fun {t x} h hx => ?_)
  split
  · trivial
  · next e => exact h.putCore (hx.of_push e)

theorem execCall (h : s.Canonical) {k off} : NextCanonical (execCall k off s) := .next h.callTo

theorem execCallp (h : s.Canonical) {k pn} : NextCanonical (execCallp k pn s) := .next h.callTo

theorem execJmp (h : s.Canonical) {k off} : NextCanonical (execJmp k off s) := .next (h.instr (fun h _ => h))

theorem execJmpp (h : s.Canonical) {k pn} : NextCanonical (execJmpp k pn s) := .next (h.instr (fun h _ => h))

theorem execRet (h : s.Canonical) {k} : NextCanonical (execRet k s) := by
  refine .next (h.instr (fun {t x} h hx => ?_))
  split
  · trivial
  · next e => exact (h.of_popWord e).putCore hx.setP

theorem execMfs (h : s.Canonical) {k gd sr} : NextCanonical (execMfs k gd sr s) := by
  refine .next (h.instr (fun h hx => .ite trivial ?_))
  split
  exacts [h.putCore hx.setG, (h.putCore hx.setG).bumpFree]

end State.Canonical

namespace Core.Canonical
variable {x : Core}

theorem setSysReg (h : x.Canonical) {n v} : (x.setSysReg n v).Canonical := by
  refine .ite (.ite h (.ite h.others h.others)) (.ite h.others ?_)
  split
  exacts [h.others, h.others, h.others, h.others, .ite h h.others, h.others, h.others, h]

end Core.Canonical

namespace State.Canonical
variable {s : State}

theorem execMts (h : s.Canonical) {k gs sr} : NextCanonical (execMts k gs sr s) :=
  .next (.ite h.restartCore.report (h.instr (fun h hx => .ite trivial (.ite (h.putCore (.ite hx.others hx))
    (h.putCore hx.setSysReg)))))

theorem execReti (h : s.Canonical) {k sq} : NextCanonical (execReti k sq s) := by
  refine .next (h.instr (fun {t x} h hx => .ite trivial ?_))
  split
  · trivial
  · next e =>
    split
    · trivial
    · next e' => exact (((h.of_popWord e).of_popWord e').putCore hx.setP.others).traceRec.squash

theorem execTrap (h : s.Canonical) {k sq} : NextCanonical (execTrap k sq s) :=
  .next (.ite h.takeException (h.instr (fun _ _ => trivial)))

theorem execFence (h : s.Canonical) {k} : NextCanonical (execFence k s) :=
  .next (h.instr (fun h hx => h.putCore hx.others))

theorem execWait (h : s.Canonical) {k} : NextCanonical (execWait k s) :=
  .next (h.instr (fun h hx => h.putCore hx.others))

theorem execHalt (h : s.Canonical) {k} : NextCanonical (execHalt k s) :=
  .next (h.instr (fun h hx => .ite trivial (h.putCore hx.others)))

end State.Canonical

namespace Core.Canonical
variable {x : Core}

theorem startRepeat (h : x.Canonical) {n rn} : (x.startRepeat n rn).Canonical := h.setBit.setBit.others

end Core.Canonical

namespace State.Canonical
variable {s : State}

theorem execRep (h : s.Canonical) {k n} : NextCanonical (execRep k n s) :=
  .next (h.instr (fun h hx => .ite trivial (h.putCore hx.startRepeat)))

theorem execRepg (h : s.Canonical) {k gn} : NextCanonical (execRepg k gn s) :=
  .next (h.instr (fun h hx => h.putCore (.ite hx.others hx.startRepeat)))

theorem execRepn (h : s.Canonical) {k n} : NextCanonical (execRepn k n s) :=
  .next (h.instr (fun h hx => .ite trivial (h.putCore hx.startRepeat)))

theorem execInterruptAssert (h : s.Canonical) {k line sq} : NextCanonical (execInterruptAssert k line sq s) :=
  .next (.ite h.raiseLine h)

theorem execWdtExpiry (h : s.Canonical) {k sq} : NextCanonical (execWdtExpiry k sq s) :=
  .next (.ite (.ite h.passTime.setCore h.passTime.expire) h)

theorem execSystemWindowTimeout (h : s.Canonical) {k addr sq} : NextCanonical (execSystemWindowTimeout k addr sq s)
    :=
  .next (.ite h.takeException h)

end State.Canonical

/-! ### Machine/Cpx -/

namespace Bench.Canonical
variable {x : Bench}

theorem setEntry (h : x.Canonical) {e v fault} : (x.setEntry e v fault).Canonical := h.others

end Bench.Canonical

namespace State.Canonical
variable {s : State}

theorem spendTag (h : s.Canonical) {c} : (s.spendTag c).Canonical := h.setCluster

theorem cpxGate (h : s.Canonical) {c check waits bad body} (hbody : ∀ {t}, t.Canonical → (body t).Canonical) :
    (s.cpxGate c check waits bad body).Canonical := by
  refine .ite trivial (.ite trivial ?_)
  split
  · exact h.spendTag
  · refine .ite trivial ?_
    split
    exacts [h.spendTag, hbody h.spendTag]

theorem cpx (h : s.Canonical) {k kind f count onBench good runs benches entries} : (s.cpx k kind f count onBench good
    runs benches entries).Canonical :=
  h.instr (fun h _ => .ite trivial (h.cpxGate (fun h => h.traceRec.clusterCtr.setQueue)))

theorem cpxHold (h : s.Canonical) {k x kind f check waits bad body}
    (hbody : ∀ {t}, t.Canonical → (body t).Canonical) : (s.cpxHold k x kind f check waits bad body).Canonical := by
  unfold State.cpxHold
  extract_lets c q here go
  have hgo : go.Canonical := .ite h.setQueue h.spendTag
  refine .ite trivial (.ite trivial ?_)
  split
  · exact hgo
  · refine .ite (.ite trivial h.spendTag.setQueue) ?_
    split
    · exact hgo
    · exact hbody hgo.traceRec.clusterCtr

theorem execCld (h : s.Canonical) {k x} : NextCanonical (execCld k x s) := .next h.cpx

theorem execCvec (h : s.Canonical) {k x} : NextCanonical (execCvec k x s) := .next h.cpx

theorem execCtrn (h : s.Canonical) {k x} : NextCanonical (execCtrn k x s) := .next h.cpx

theorem execCdraw (h : s.Canonical) {k x} : NextCanonical (execCdraw k x s) := .next h.cpx

theorem execCsamp (h : s.Canonical) {k x} : NextCanonical (execCsamp k x s) := .next h.cpx

theorem execCrd (h : s.Canonical) {k x} : NextCanonical (execCrd k x s) :=
  .next (h.instr (fun h hx => .ite trivial (h.cpxHold (fun h =>
    State.Canonical.ite (h.putCore hx.setG).markLine (h.putCore hx.setG)))))

theorem execCwr (h : s.Canonical) {k x} : NextCanonical (execCwr k x s) := .next h.cpx

theorem execCwait (h : s.Canonical) {k x} : NextCanonical (execCwait k x s) :=
  .next (h.instr (fun h _ => .ite trivial (h.cpxHold (fun h => State.Canonical.ite h.markLine h))))

theorem execCwb (h : s.Canonical) {k x} : NextCanonical (execCwb k x s) := .next h.cpx

theorem execCmovc (h : s.Canonical) {k x} : NextCanonical (execCmovc k x s) := .next h.cpx

theorem execCroute (h : s.Canonical) {k x} : NextCanonical (execCroute k x s) := .next h.cpx

theorem execCsync (h : s.Canonical) {k x} : NextCanonical (execCsync k x s) := .next h.cpx

theorem execCrel (h : s.Canonical) {k x} : NextCanonical (execCrel k x s) := .next h.cpx

theorem routeStep (h : s.Canonical) {c i} : (s.routeStep c i).Canonical := by
  unfold State.routeStep
  split
  · exact h
  · exact h.benchCountRead.clusterCtr.putBench (.ite (h.benchCountRead.bench _).writeBytes.others
      (h.benchCountRead.bench _).writeBytes)

theorem runBenchOp (h : s.Canonical) {c o} : (s.runBenchOp c o).Canonical := by
  have set {t : State} (ht : t.Canonical) {b e v fault} : (t.setBench b ((t.bench b).setEntry e v fault)).Canonical :=
    ht.putBench (ht.bench b).setEntry
  refine .ite (set h.benchCountRead) (.ite (.ite (set h.benchCtr) (set h.benchCtr)) (.ite (set h.benchCtr) (.ite ?_
    (.ite (set h.benchCountRead) (.ite (set h) (.ite (h.putBench (h.bench _).writeBytes) (.ite ?_ h)))))))
  · exact set (set h.benchCtr)
  · exact .bumpFree (.clusterCtr (.ite h.setBench h))

theorem runClusterOp (h : s.Canonical) {c o} : (s.runClusterOp c o).Canonical :=
  .ite (.clusterCtr (.foldl h (fun h _ => h.benchLine))) (.ite h.routeStep h.addSync)

theorem execCpxOpComplete (h : s.Canonical) {c unit} : NextCanonical (execCpxOpComplete c unit s) := by
  refine .next ?_
  dsimp only
  split
  · exact h
  · split
    · exact h
    · exact .ite h (.ite (.raiseCluster (.ite h.setQueue.runBenchOp h.setQueue.runClusterOp)) (.ite
        h.setQueue.runBenchOp h.setQueue.runClusterOp))

end State.Canonical

/-! ### Machine/OpsBank -/

namespace State.Canonical
variable {s : State}

theorem showBanks (h : s.Canonical) : s.showBanks.Canonical := h.setFld.setFld.setFld

theorem appendRecord (h : s.Canonical) {b code seq} : (s.appendRecord b code seq).Canonical :=
  .showBanks (.flashWrite (.ite h h.zeroFlash))

theorem eraseSector (h : s.Canonical) {b} : (s.eraseSector b).Canonical := h.zeroFlash.markLine.showBanks

theorem cutDownload (h : s.Canonical) : s.cutDownload.Canonical := .ite h.eraseSector h

end State.Canonical

/-! ### Machine/OpsRecord -/

namespace State.Canonical
variable {s : State}

theorem fencePart (h : s.Canonical) {v p} : (s.fencePart v p).Canonical :=
  .ite (.foldl h.setPart (fun h _ => h.raiseFw)) h.setPart

theorem setFence (h : s.Canonical) {v sc} : (s.setFence v sc).Canonical := by
  unfold State.setFence
  split
  · exact .foldl h (fun h _ => h.fencePart)
  · exact .foldl (.foldl h (fun h _ => h.fencePart)) (fun h _ => h.setFlag)
  · exact h.setFlag
  · exact h.others
  · exact h
  · exact h
  · exact h.others

theorem fencePeer (h : s.Canonical) {c} : (s.fencePeer c).Canonical := h.others.peerComplete.shelfStart

theorem fenceOp (h : s.Canonical) {o} : (s.fenceOp o).Canonical := by
  unfold State.fenceOp
  extract_lets r t u run v dead killCmd killWqe killQp killFrame plain shelf rma w
  have ht : t.Canonical := h.others
  have hv : v.Canonical := by
    unfold v
    split
    · exact .ite (.others (.foldl ht (fun h _ => h.unstage))) ht
    · exact ht
  clear_value v
  have hw : w.Canonical := ⟨hv.hostMem, hv.farMem, hv.flash, hv.mems, hv.benches, hv.cores,
    List.forall_mem_map.2 fun e he => hv.qps e he, hv.saved, hv.filterRestores.restores⟩
  exact .shelfStart (.complete (.setRing (.foldl hw (fun h _ => h.setPort))))

theorem recoveryEvent (h : s.Canonical) {bs} : (s.recoveryEvent bs).Canonical := h.eventBoth

theorem writeRecord (h : s.Canonical) {l} : (s.writeRecord l).Canonical :=
  .ite (.logCount (.logEvent (.ite h.others.setFld.recoveryEvent h.others.setFld))) (.ite
    h.others.setFld.recoveryEvent h.others.setFld)

end State.Canonical

/-! ### Machine/Shelf -/

namespace State.Canonical
variable {s : State}

theorem endNsOp (h : s.Canonical) {ns status} : (s.endNsOp ns status).Canonical :=
  .foldl h.setFld (fun h _ => h.event)

theorem shfOp (h : s.Canonical) {op body} (hbody : ∀ {t a}, t.Canonical → (body t a).Canonical) : (s.shfOp op
    body).Canonical :=
  .ite (hbody h.setRequest) h

theorem execNsCreate (h : s.Canonical) : NextCanonical (execNsCreate s) :=
  .next (h.shfOp (fun h => .ite h.endNsOp (.ite h.endNsOp (.ite h.endNsOp h.others.endNsOp))))

theorem execNsDelete (h : s.Canonical) : NextCanonical (execNsDelete s) :=
  .next (h.shfOp (fun h => .ite h.endNsOp h.others.endNsOp))

theorem execNsFormat (h : s.Canonical) : NextCanonical (execNsFormat s) :=
  .next (h.shfOp (fun h => .ite h.endNsOp h.wakeShelf.others))

theorem execNsFormatDone (h : s.Canonical) {ns} : NextCanonical (execNsFormatDone ns s) :=
  .next (.ite h.others.endNsOp.wake.shelfStart h)

theorem showSanitize (h : s.Canonical) : s.showSanitize.Canonical := h.setFld.setFld

theorem execSanitize (h : s.Canonical) : NextCanonical (execSanitize s) :=
  .next (h.shfOp (fun h => .ite h.endNsOp (.ite h.wakeShelf.others.setFlag.showSanitize.settleLow
    h.wakeShelf.others.setFlag.showSanitize.settleLow.setShelfState)))

theorem execSanitizeDone (h : s.Canonical) {spare} : NextCanonical (execSanitizeDone spare s) :=
  .next (.ite h.others.setFlag.showSanitize.setFld.setShelfState.endNsOp.wake h)

theorem shelfCheck (h : s.Canonical) {i remote c d} : (s.shelfCheck i remote c d).Canonical := by
  refine .ite h.endShelf ?_
  split
  · exact h.endShelf
  · refine .ite h.endShelf ?_
    dsimp only
    split
    · exact h.endShelf
    · exact h.violate.endShelf
    · split
      · exact h.endShelf
      · split
        · exact .ite h.violate.others h.violate.endShelf
        · refine .ite h.endShelf (.ite h.endShelf (.others ?_))
          split
          exacts [.ite h.setNeeds h, h]

theorem shelfSeq (h : s.Canonical) {q seq} : (s.shelfSeq q seq).2.Canonical := .ite_snd h.others (.ite_snd h.count h)

theorem dropFlight (h : s.Canonical) {o} : (s.dropFlight o).Canonical := h.setRing.flush

theorem fetchTurn (h : s.Canonical) {i r} : (s.fetchTurn i r).Canonical := by
  unfold State.fetchTurn
  split
  · exact h.fetchOne
  · split
    exacts [h, .ite h.others.fetchOne h]

theorem takePeer (h : s.Canonical) {n a} (ha : Memory.wf a.ring = true) : (s.takePeer n a).Canonical :=
  State.Canonical.others (h.putQp (n := n) (fun b hb => by cases hb; exact ha))

theorem rejectPeersFor (h : s.Canonical) {fuel} : (s.rejectPeersFor fuel).Canonical := by
  induction fuel generalizing s with
  | zero => exact h
  | succ fuel ih =>
    rw [State.rejectPeersFor_succ]
    split
    · exact h
    · split
      · exact h
      · next e =>
        split
        · exact h
        · refine .ite h (ih ?_)
          have ht {n q seq} := (h.takePeer (n := n) (h.of_attachOf e)).shelfSeq (q := q) (seq := seq)
          split
          · next e => exact ht.of_snd_eq e
          · next e => exact (ht.of_snd_eq e).peerComplete

theorem rejectPeers (h : s.Canonical) : s.rejectPeers.Canonical := h.rejectPeersFor

theorem shelfTake (h : s.Canonical) {q slot opcode} : (s.shelfTake q slot opcode).Canonical := by
  unfold State.shelfTake
  refine .ite h ?_
  split
  · exact h
  · split
    · next e =>
      split
      · exact h
      · refine .ite h ?_
        have ht {n q seq} := ((h.takePeer (n := n) (h.of_attachOf e)).wakeShelf).shelfSeq (q := q) (seq := seq)
        split
        · next e => exact (ht.of_snd_eq e).rejectPeers
        · next e => exact (ht.of_snd_eq e).peerComplete.rejectPeers
        · next e => exact (ht.of_snd_eq e).shelfCheck.shelfStart.rejectPeers
    · split
      · exact h
      · refine .ite h ?_
        dsimp only
        split
        · next e => exact (h.launch.wakeShelf.shelfSeq.of_snd_eq e).dropFlight
        · next e => exact (h.launch.wakeShelf.shelfSeq.of_snd_eq e).complete
        · next e => exact (h.launch.wakeShelf.shelfSeq.of_snd_eq e).shelfCheck.shelfStart

theorem execShelfRead (h : s.Canonical) {q slot} : NextCanonical (execShelfRead q slot s) :=
  .next h.shelfTake.rejectPeers.flushPeers

theorem execShelfWrite (h : s.Canonical) {q slot} : NextCanonical (execShelfWrite q slot s) :=
  .next h.shelfTake.rejectPeers.flushPeers

theorem execShelfFlush (h : s.Canonical) {q slot} : NextCanonical (execShelfFlush q slot s) :=
  .next h.shelfTake.rejectPeers.flushPeers

theorem execShelfTrim (h : s.Canonical) {q slot} : NextCanonical (execShelfTrim q slot s) :=
  .next h.shelfTake.rejectPeers.flushPeers

theorem execShelfStatus (h : s.Canonical) {q slot} : NextCanonical (execShelfStatus q slot s) :=
  .next h.shelfTake.rejectPeers.flushPeers

theorem readOut (h : s.Canonical) {i c key j lost} : (s.readOut i c key j lost).2.Canonical := by
  unfold State.readOut
  extract_lets ns data a
  refine .ite_snd (.ite_snd (.foldl_snd h fun {q} hq k => ?_) h.devWrite) ?_
  · split
    · exact hq
    · exact .ite_snd hq.writeLine hq
  · split
    · exact h.hostWrite
    · exact h.hostWrite

theorem readBlocks (h : s.Canonical) {i c key lost n} : (s.readBlocks i c key lost n).2.Canonical := by
  induction n with
  | zero => exact h
  | succ n ih => exact ih.readOut

theorem writeIn (h : s.Canonical) {i c key j} : (s.writeIn i c key j).2.2.Canonical := by
  unfold State.writeIn
  split
  · split
    split
    next e => exact h.devRead.of_snd_snd_eq e
  · split
    · split
      next e => exact h.hostRead.of_snd_eq e
    · split
      next e =>
        split
        · exact h.hostRead.of_snd_eq e
        · exact h.hostRead.of_snd_eq e

theorem gather (h : s.Canonical) {i c key n j} : (s.gather i c key n j).2.2.2.Canonical := by
  induction n generalizing s j with
  | zero => exact h
  | succ n ih =>
    have hw : (s.writeIn i c key j).2.2.Canonical := h.writeIn
    rw [State.gather]
    generalize s.writeIn i c key j = p at hw ⊢
    exact ih hw

theorem tearBlock (h : s.Canonical) {c j new} : (s.tearBlock c j new).Canonical := .ite h.bumpFree.others h.bumpFree

theorem tearCommand (h : s.Canonical) {c} : (s.tearCommand c).Canonical :=
  .ite h (.ite (.foldl h (fun h _ => h.tearBlock)) (.ite (.ite h (.foldl h (fun h _ => h.tearBlock))) h))

theorem shelfOrphan (h : s.Canonical) {i} : (s.shelfOrphan i).Canonical :=
  .shelfStart (.others (.foldl h (fun h _ => h.tearCommand)))

theorem shelfFinish (h : s.Canonical) {i c m} : (s.shelfFinish i c m).1.Canonical := by
  unfold State.shelfFinish
  extract_lets ns key t u shelf v lost
  have hu : u.Canonical := .ite h.useKeys.useBound h.useKeys
  have hv : v.Canonical := hu.others
  clear_value lost
  split
  · exact hu
  · refine .ite_fst hu (.ite_fst hu.cipherMismatch ?_)
    split
    · cases lost with
      | nil => exact hv.readBlocks.others.violateIf
      | cons j rest => exact hv.readBlocks.others.violateIf
    · dsimp only
      split
      · exact hu.gather.violateIf
      · exact .ite_fst hu.gather.violateIf (.program (.logCount (.others hu.gather.violateIf)))
    · exact hu.others
    · exact hu
    · exact hu

theorem execShelfCommandDone (h : s.Canonical) {q slot m} : NextCanonical (execShelfCommandDone q slot m s) := by
  refine .next ?_
  split
  · exact h
  · exact .ite h (.raiseFw (.flushPeers (.rejectPeers (.shelfStart (.retireBlocks (.endShelf (.others (.ite_fst h
      h.shelfFinish))))))))

theorem dropChannel (h : s.Canonical) {ch} : (s.dropChannel ch).Canonical :=
  .ite h.setFlag.setFlag.others.gateValley.rebuildTable.updateShelf h

theorem execChannelFailure (h : s.Canonical) {ch} : NextCanonical (execChannelFailure ch s) :=
  .next (.ite (.ite h.count.raiseFw.others.critical.dropChannel h.count.raiseFw.others) h)

theorem mapUnlisted (h : s.Canonical) : s.mapUnlisted.Canonical := .foldl h (fun h _ => .ite h.critical.dropChannel h)

theorem execRebuildDone (h : s.Canonical) : NextCanonical (execRebuildDone s) := .next (.ite h.setFlag.others h)

theorem execShelfIdleTimeout (h : s.Canonical) : NextCanonical (execShelfIdleTimeout s) := .next (.ite h.setFld h)

theorem execDataRefresh (h : s.Canonical) {ns lba} : NextCanonical (execDataRefresh ns lba s) :=
  .next (.ite (.ite h.program h.program.others) h)

end State.Canonical

/-! ### Machine/OpsReset -/

namespace State.Canonical
variable {s : State}

theorem dropRun (h : s.Canonical) : s.dropRun.Canonical :=
  .foldl h.others.endBefore.setFlag.setFlag (fun h _ => h.flushControl)

theorem dropRuns (h : s.Canonical) : s.dropRuns.Canonical := h.dropRun.others

theorem clearBenchStatus (h : s.Canonical) {b} : (s.clearBenchStatus b).Canonical := h.setFlag.setFlag.setFld

theorem resetSequencer (h : s.Canonical) {b} : (s.resetSequencer b).Canonical := h.setBench.clearBenchStatus

theorem resetBench (h : s.Canonical) {b} : (s.resetBench b).Canonical := by
  have hy : Bench.Canonical { Bench.init with
      store := (s.bench b).store, poison := (s.bench b).poison, ue := (s.bench b).ue, ce := (s.bench b).ce
      prog := Memory.write [] 0 (s.benchProgram b) } := ⟨(h.bench b).1, Memory.wf_write _ _ rfl, rfl⟩
  exact (h.putBench hy).clearBenchStatus

theorem resetCore (h : s.Canonical) {k} : (s.resetCore k).Canonical := .restartCore (.ite h.killStream h)

theorem resetLink (h : s.Canonical) {j} : (s.resetLink j).Canonical := .ite h.setLink h.setLink.setLinkState

theorem fenceFetched (h : s.Canonical) {i r d} : (s.fenceFetched i r d).Canonical := by
  unfold State.fenceFetched
  extract_lets o t
  have ht : t.Canonical := h.launch
  split
  · exact ht.complete
  · split
    · next e => exact (ht.shelfSeq.of_snd_eq e).dropFlight
    · next e => exact (ht.shelfSeq.of_snd_eq e).complete

theorem resetEngine (h : s.Canonical) {kind} : (s.resetEngine kind).Canonical :=
  .ite (.others (.foldl h (fun h _ => .foldl h (fun h _ => .ite (.foldl h (fun h _ => h.fenceFetched)) h)))) (.foldl
    h (fun h _ => .foldl h (fun h _ => .ite (.foldl h (fun h _ => h.fenceFetched)) h)))

theorem resetCluster (h : s.Canonical) {c} : (s.resetCluster c).Canonical :=
  .setCluster (.resetCore (.foldl h (fun h _ => h.resetBench)))

theorem resetValley (h : s.Canonical) {v} : (s.resetValley v).Canonical := by
  unfold State.resetValley
  split
  · exact h.resetCluster
  · exact .ite (.foldl h (fun h _ => h.resetLink)) (.ite (.foldl h.resetEngine (fun h _ => h.resetCore)) (.ite
      h.resetEngine (.ite (.foldl h (fun h _ => h.resetEngine)) (.ite h.resetEngine h))))

theorem behindPasses (h : s.Canonical) {vs reset} (hreset : ∀ {t}, t.Canonical → (reset t).Canonical) :
    (s.behindPasses vs reset).Canonical :=
  .foldl (hreset (.foldl h (fun h _ => h.closePasses))) (fun h _ => h.openPasses)

theorem resetParts (h : s.Canonical) {mask} : (s.resetParts mask).Canonical :=
  .foldl (.foldl (.foldl h (fun h _ => h.unstage)) (fun h _ => h.resetCluster)) (fun h _ => .ite h.setPart h)

theorem retainPart (h : s.Canonical) {p} : (s.retainPart p).Canonical := h.unstage.setPart

theorem fwcDone (h : s.Canonical) {op status} : (s.fwcDone op status).Canonical := h.setRequest.setFld.setFld.event

theorem fenceDownload (h : s.Canonical) : s.fenceDownload.Canonical := .ite h.cutDownload.fwcDone h

theorem resetCompute (h : s.Canonical) : s.resetCompute.Canonical :=
  .fenceDownload (.gateValleys (.pruneRegs (.dropRuns (.foldl (.foldl (.foldl (.foldl h (fun h _ => h.retainPart))
    (fun h _ => (h.putBench Bench.canonical_init).clearBenchStatus)) (fun h _ => h.resetCluster)) (fun h _ =>
    h.putMemUnit MemUnit.canonical_init)))))

theorem tearShelf (h : s.Canonical) : s.tearShelf.Canonical := .foldl h (fun h _ => h.tearCommand)

theorem warmReset (h : s.Canonical) : s.warmReset.Canonical := by
  unfold State.warmReset
  extract_lets t kept reset host rcv sec fw shelf tim pins u
  have ht : t.Canonical := h.tearShelf.cutDownload
  have hu : u.Canonical := ⟨ht.hostMem, ht.farMem, ht.flash, List.forall_mem_nil _, List.forall_mem_nil _,
    List.forall_mem_nil _, List.forall_mem_nil _, ht.saved, List.forall_mem_nil _⟩
  clear_value u kept
  exact .setFld (.foldl hu (fun h _ => h.setFld))

theorem railsOff (h : s.Canonical) : s.railsOff.Canonical := h.warmReset.others

theorem dropFrames (h : s.Canonical) {i} : (s.dropFrames i).Canonical := .foldl h (fun h _ => h.setPort)

theorem clearFn (h : s.Canonical) {i} : (s.clearFn i).Canonical := by
  unfold State.clearFn
  extract_lets on f t fn u v plain w run x y drop pend regs host
  have ht : t.Canonical := by
    unfold t
    split
    · exact h
    · exact h.complete
  have hx : x.Canonical := .others (.others ht.setFn.shelfOrphan.rmaOrphan.dropFrames)
  have hy : y.Canonical := .ite (.foldl hx (fun h _ => h.setFld.setFld.setFld.setFlag)) hx.dropRegs
  exact ⟨hy.hostMem, hy.farMem, hy.2.2⟩

theorem showInstance (h : s.Canonical) {i} : (s.showInstance i).Canonical := h.setFld.setFld

theorem nextIncarnation (h : s.Canonical) {i} : (s.nextIncarnation i).Canonical := h.setFn

theorem emptyPart (h : s.Canonical) {p} : (s.emptyPart p).Canonical :=
  h.unloadPart.behindPasses (fun h => .foldl (.foldl h (fun h _ => (h.putBench
    Bench.canonical_init).clearBenchStatus)) (fun h _ => h.killStream.setCluster))

theorem sendHaltReport (h : s.Canonical) {cause detail faulting} : (s.sendHaltReport cause detail faulting).Canonical
    :=
  h.flood

theorem tellHalt (h : s.Canonical) {cause detail} : (s.tellHalt cause detail).Canonical :=
  h.notice.wake.sendHaltReport

theorem announceHalt (h : s.Canonical) {cause detail} : (s.announceHalt cause detail).Canonical :=
  .ite (.ite h.sendHaltReport h.tellHalt) h

theorem showLevel (h : s.Canonical) {level cause} : (s.showLevel level cause).Canonical := h.setFlag.setFld.setFld

theorem resetScope (h : s.Canonical) {level sc} : (s.resetScope level sc).Canonical := by
  unfold State.resetScope
  split
  · split
    exacts [h.resetSequencer, h.killStream, h]
  · split
    exacts [h.resetBench, h.resetLink, h.resetCore, h.resetValley, h.resetEngine, h]
  · exact h.resetParts
  · exact h.resetCompute
  · exact h

theorem closeLevel (h : s.Canonical) {l} : (s.closeLevel l).Canonical := h.writeRecord.others.showLevel

theorem finishLevel (h : s.Canonical) {l} : (s.finishLevel l).Canonical :=
  (h.behindPasses (fun h => h.resetScope)).setFence.closeLevel

theorem fenceScope (h : s.Canonical) {level sc} : (s.fenceScope level sc).Canonical :=
  .foldl (.foldl h (fun h _ => h.fenceOp)) (fun h _ => h.fencePeer)

theorem completeLevels (h : s.Canonical) {mask} : (s.completeLevels mask).Canonical :=
  .foldl h (fun h _ => .ite h.fenceScope.finishLevel h)

theorem resetInstanceTo (h : s.Canonical) {i cause detail last} : (s.resetInstanceTo i cause detail last).Canonical
    :=
  .event (.gateValleys (.showInstance (.nextIncarnation (.foldl (.dropSets (.ite (.dropRun (.clearFn (.ite
    h.completeLevels.setFld.event.announceHalt h.completeLevels.setFld.event))) (.clearFn (.ite
    h.completeLevels.setFld.event.announceHalt h.completeLevels.setFld.event)))) (fun h _ =>
    h.fencePart.count.emptyPart.writeRecord.fencePart.showLevel)))))

theorem resetInstance (h : s.Canonical) {i cause detail} : (s.resetInstance i cause detail).Canonical :=
  h.resetInstanceTo

end State.Canonical

/-! ### Machine/OpsRegs -/

namespace State.Canonical
variable {s : State}

theorem resetKind (h : s.Canonical) {i r} : (s.resetKind i r).Canonical := by
  unfold State.resetKind
  split
  · exact h.detachStart
  · split
    exacts [h.shelfReset, h]
  · exact h.etxReset
  · exact h.dropBufs
  · split
    exacts [h.qpError, h]
  · exact h.dropBufs
  · exact h

theorem queueReset (h : s.Canonical) {i r} : (s.queueReset i r).Canonical :=
  .ite h (.flush (.ite h.setFld.resetKind.dropFetched h.setFld.dropFetched.resetKind))

theorem sendPending (h : s.Canonical) {i vec} : (s.sendPending i vec).Canonical := .ite h.setFn.emit h

theorem sendAllPending (h : s.Canonical) {i} : (s.sendAllPending i).Canonical := .foldl h (fun h _ => h.sendPending)

theorem setVector (h : s.Canonical) {i vec e} : (s.setVector i vec e).Canonical := h.setFn

theorem writeVector (h : s.Canonical) {i vec w v} : (s.writeVector i vec w v).Canonical := by
  unfold State.writeVector
  dsimp only
  split
  exacts [h.setVector, h.setVector, h.setVector, h.setVector.sendPending]

theorem showPending (h : s.Canonical) : s.showPending.Canonical := h.setFld

theorem askOp (h : s.Canonical) {block top op result} : (s.askOp block top op result).Canonical :=
  .ite h (.ite h.setRequest h.setFld)

theorem askShelf (h : s.Canonical) : s.askShelf.Canonical := .ite h (.ite h.setRequest.others h.endNsOp)

theorem askFirmware (h : s.Canonical) : s.askFirmware.Canonical :=
  .ite h (.ite h.withFw.setRequest.setFld h.setFld.event)

theorem linkMapOut (h : s.Canonical) {j} : (s.linkMapOut j).Canonical :=
  .ite (.ite h (.ite h.setFlag h.setLinkState.gateValley.rebuildTable.sendRecord)) (.ite
    h.setFlag.setLinkState.gateValley.rebuildTable h.setFlag)

theorem channelMapOut (h : s.Canonical) {c} : (s.channelMapOut c).Canonical := .ite h.dropChannel h

theorem ringEnable (h : s.Canonical) {i r} : (s.ringEnable i r).Canonical :=
  .ite h.enableRing (.ite h.setFlag h.queueReset)

theorem portConfig (h : s.Canonical) {p} : (s.portConfig p).Canonical := .gateValleys (.ite h.dropPort h)

theorem ruleCommit (h : s.Canonical) {p} : (s.ruleCommit p).Canonical := .ite h.setFlag.setFlag h.setFlag

theorem appliedAt (h : s.Canonical) {a} : (s.appliedAt a).Canonical := by
  unfold State.appliedAt
  split
  · exact h.ringEnable
  · refine .ite h (.ite (.ite h.stackMapOut h) (.ite (.ite h.benchMapOut h) (.ite h.askFirmware.raiseFw (.ite
      h.raiseFw (.ite h.askOp (.ite h.askShelf (.ite h.askOp (.ite (.ite h.setRequest.setFlag h.askOp) (.ite
      h.showStretch (.ite h.reselect (.ite h.setFld ?_)))))))))))
    split
    · exact h.channelMapOut
    · split
      · exact h.linkMapOut
      · exact .foldl h (fun h _ => .ite h.applyLanes (.ite h.portConfig (.ite h.ruleCommit h)))

theorem applySets (h : s.Canonical) {ws} : (s.applySets ws).Canonical :=
  .foldl (.foldl (.ite h.setFlag h) (fun h _ => h.setFld.applyNode)) (fun h _ => h.appliedAt)

theorem strobe (h : s.Canonical) {mask} : (s.strobe mask).Canonical := .ite h h.others.showPending

theorem discardBuffers (h : s.Canonical) {mask} : (s.discardBuffers mask).Canonical := .ite h h.others

theorem setCompat (h : s.Canonical) {on} : (s.setCompat on).Canonical := .ite h (.setFlag (.ite h.others h))

theorem applyGroup (h : s.Canonical) {g} : (s.applyGroup g).Canonical :=
  .showPending (.ite h.others.applySets.wrapAdd.setFlag h.others.applySets.wrapAdd)

theorem applyDue (h : s.Canonical) : s.applyDue.Canonical := .foldl h (fun h _ => h.applyGroup)

theorem insUpdate (h : s.Canonical) {i} : (s.insUpdate i).Canonical := h.others.applySets

theorem mbxAck (h : s.Canonical) {i seq} : (s.mbxAck i seq).Canonical := .ite h.setFn h

theorem writeNow (h : s.Canonical) {row b v} : (s.writeNow row b v).Canonical :=
  .foldl h (fun h _ => .ite h (.ite h.setFld (.ite h.setFld h)))

theorem ringReset (h : s.Canonical) {b v} : (s.ringReset b v).Canonical := by
  unfold State.ringReset
  split
  exacts [.ite h.setFlag.queueReset h, h]

theorem e7Write (h : s.Canonical) {ws} : (s.e7Write ws).Canonical :=
  .foldl (.ite h.setFlag (.ite h h.setFlag.others.showPending)) (fun h _ => .ite h.setCompat (.ringReset (.writeNow
    (.ite h.applySets h))))

theorem writeReg (h : s.Canonical) {i row b v} : (s.writeReg i row b v).Canonical :=
  .ite h.strobe (.ite h.discardBuffers (.ite h.setCompat (.ite (.ite h.insUpdate h) (.ite h.mbxAck
    h.others.writeNow.ringReset))))

end State.Canonical

/-! ### Machine/Rings -/

namespace State.Canonical
variable {s : State}

theorem execDoorbell (h : s.Canonical) {i r v} : NextCanonical (execDoorbell i r v s) := by
  refine .next (.ite (.ite h (.ite ?_ h.count)) h)
  dsimp only
  split
  exacts [h.setFld.raiseFw, h.setFld.raiseFw, h.setFld.reportLost, h.setFld]

theorem rejectHeads (h : s.Canonical) {i r fuel} : (s.rejectHeads i r fuel).Canonical := by
  induction fuel generalizing s with
  | zero => exact h
  | succ fuel ih =>
    rw [State.rejectHeads]
    split
    · exact h
    · extract_lets kind o t u
      have ht : t.Canonical := h.launch
      refine .ite h (ih ?_)
      unfold u
      split
      · split
        · next e => exact (ht.shelfSeq.of_snd_eq e).dropFlight
        · next e => exact (ht.shelfSeq.of_snd_eq e).complete
      · exact ht.complete

theorem execDescriptorFetch (h : s.Canonical) {i r err} : NextCanonical (execDescriptorFetch i r err s) :=
  .next (.ite h.ringError (.ite (.rejectPeers (.rejectHeads (.foldl h (fun h _ => h.fetchTurn)))) (.rejectHeads
    (.foldl h (fun h _ => h.fetchOne)))))

theorem execCompletionWrite (h : s.Canonical) {i r err} : NextCanonical (execCompletionWrite i r err s) :=
  .next (.ite h.ringError h.writeCpl)

theorem execMsixMessage (h : s.Canonical) {i r} : NextCanonical (execMsixMessage i r s) :=
  .next (.ite h.setRing.signal h)

theorem execQueueReset (h : s.Canonical) {i r} : NextCanonical (execQueueReset i r s) := .next h.queueReset

theorem doMbxSend (h : s.Canonical) {o d} : (s.doMbxSend o d).Canonical := by
  refine .ite h.complete (.ite h.complete (.ite h.complete ?_))
  split
  exacts [h.complete, h.setHostMem.setRing.setFn.complete.complete]

theorem sendAnyway (h : s.Canonical) {i r} : (s.sendAnyway i r).Canonical := by
  unfold State.sendAnyway
  split
  exacts [h, .ite h.launch.doMbxSend h]

theorem execMbxSend (h : s.Canonical) {i r} : NextCanonical (execMbxSend i r s) :=
  .next (.ite h (.ite h.sendAnyway (h.withOp (fun h => h.doMbxSend))))

theorem execRecvBuf (h : s.Canonical) {r} : NextCanonical (execRecvBuf r s) :=
  .next (h.withOp (fun h => .ite h.setRing h.complete))

theorem doManagerSend (h : s.Canonical) {o d} : (s.doManagerSend o d).Canonical :=
  .ite h.complete (.ite h.complete (.ite h.complete h.setFn.event.complete))

theorem execManagerMbxSend (h : s.Canonical) {r} : NextCanonical (execManagerMbxSend r s) :=
  .next (h.withOp (fun h => h.doManagerSend))

end State.Canonical

/-! ### Machine/RegWrite -/

namespace State.Canonical
variable {s : State}

theorem regWrite (h : s.Canonical) {i a wide v} : (s.regWrite i a wide v).Canonical := by
  refine .ite h ?_
  split
  · exact .ite h.writeVector.writeVector h.writeVector
  · exact .ite (.ite h.count h.violate) (.ite h.e7Write (.foldl h (fun h _ => h.writeReg)))

theorem execGlbUpdate (h : s.Canonical) {v} : NextCanonical (execGlbUpdate v s) := .next h.regWrite

theorem execGlbDiscard (h : s.Canonical) {v} : NextCanonical (execGlbDiscard v s) := .next h.regWrite

theorem execGlbCompat (h : s.Canonical) {v} : NextCanonical (execGlbCompat v s) := .next h.regWrite

theorem execRegisterWrite (h : s.Canonical) {i addr wide v} : NextCanonical (execRegisterWrite i addr wide v s) :=
  .next h.regWrite

theorem execInsUpdate (h : s.Canonical) {i v} : NextCanonical (execInsUpdate i v s) := .next (.ite h h.regWrite)

theorem execInsMbxAck (h : s.Canonical) {i seq} : NextCanonical (execInsMbxAck i seq s) := .next (.ite h h.regWrite)

theorem execConfigEpochApply (h : s.Canonical) : NextCanonical (execConfigEpochApply s) :=
  .next (.foldl (.ite h.reachTick h) (fun h _ => h.applyGroup))

theorem execMsixVectorUnmask (h : s.Canonical) {i vec} : NextCanonical (execMsixVectorUnmask i vec s) := by
  refine .next ?_
  split
  exacts [.ite h.setVector.sendPending h, .ite h.setFn.sendAllPending h.retryConfig]

end State.Canonical

/-! ### Machine/Debug -/

namespace State.Canonical
variable {s : State}

theorem execPcSample (h : s.Canonical) : NextCanonical (execPcSample s) :=
  .next (.ite (.foldl h.reachTick (fun h _ => h.bumpFree.dbgRecord)) h)

theorem execBypass (h : s.Canonical) : NextCanonical (execBypass s) := .next h.emit

theorem execIdcode (h : s.Canonical) : NextCanonical (execIdcode s) := .next h.bumpFree.emit

theorem shiftBoundary (h : s.Canonical) : s.shiftBoundary.Canonical := h.bumpFree.emit

theorem execSamplePreload (h : s.Canonical) : NextCanonical (execSamplePreload s) :=
  .next (.ite h.shiftBoundary h.emit)

theorem execExtest (h : s.Canonical) : NextCanonical (execExtest s) := .next (.ite h.shiftBoundary h.emit)

theorem execDbgreg (h : s.Canonical) {off write v} : NextCanonical (execDbgreg off write v s) :=
  .next (.ite h.emit (.ite h (.ite (.ite h.count (.foldl h (fun h _ => h.writeReg))) h.emit)))

end State.Canonical

/-! ### Machine/OpsFreeze -/

namespace State.Canonical
variable {s : State}

theorem setInstance (h : s.Canonical) {i st} : (s.setInstance i st).Canonical := h.setFld.event

theorem settleFreezes (h : s.Canonical) : s.settleFreezes.Canonical := by
  refine .foldl h (fun h _ => ?_)
  split
  exacts [h, .ite h.setFn.setInstance.complete h]

theorem regionImage (h : s.Canonical) {r} : (s.regionImage r).2.Canonical := .ite_snd h.readLines h

theorem imageMemory (h : s.Canonical) {rs} : (s.imageMemory rs).2.Canonical := .foldl_snd h (fun h _ => h.regionImage)

theorem storeOut_wf (h : s.Canonical) {b} : Memory.wf (s.storeOut b).1 = true := by
  unfold State.storeOut
  split
  · rfl
  · have hl (l : List Nat) (m : Memory) (hm : Memory.wf m = true) :
        Memory.wf (l.foldl (fun m l => Memory.zero m (64 * l) 64) m) = true := by
      induction l generalizing m with
      | nil => exact hm
      | cons a l ih => exact ih _ (Memory.wf_zero _ _ hm)
    exact hl _ _ (h.bench b).1

theorem imageBenches_both (h : s.Canonical) {bs} :
    (∀ e ∈ (s.imageBenches bs).1, e.2.Canonical) ∧ (s.imageBenches bs).2.Canonical := by
  unfold State.imageBenches
  refine foldl_both (P := fun l : List (Nat × Bench) => ∀ e ∈ l, e.2.Canonical) (List.forall_mem_nil _) h
    (fun hq hs b => ⟨?_, hs.storeOut⟩)
  exact List.forall_mem_append.2 ⟨hq, List.forall_mem_singleton.2 ⟨hs.storeOut_wf, (hs.storeOut.bench b).2⟩⟩

theorem imageBenches (h : s.Canonical) {bs} : (s.imageBenches bs).2.Canonical := h.imageBenches_both.2

theorem imageBenches_forall (h : s.Canonical) {bs} : ∀ e ∈ (s.imageBenches bs).1, e.2.Canonical := h.imageBenches_both.1

theorem imageItems (h : s.Canonical) {i} : (s.imageItems i).2.2.Canonical := h.imageBenches.imageMemory

theorem imageItems_saved (h : s.Canonical) {i} : (s.imageItems i).1.Canonical := h.imageBenches_forall

theorem putRings (h : s.Canonical) {i x} : (s.putRings i x).Canonical :=
  .withHost (.setFn (.foldl h.others (fun h _ => h.others)))

theorem putGrants (h : s.Canonical) {i gs} : (s.putGrants i gs).Canonical := h.setFn

theorem putPart (h : s.Canonical) {x} : (s.putPart x).Canonical := by
  refine .setPart ?_
  split
  · exact .foldl h (fun h _ => h.holdRegion)
  · exact .wakeStacks (.loadPrograms (.foldl h (fun h _ => h.holdRegion)))

theorem putRegion (h : s.Canonical) {x} : (s.putRegion x).Canonical := h.zeroRange.writeLines

theorem putImage (h : s.Canonical) {i x} (hx : x.Canonical) : (s.putImage i x).Canonical := by
  have hm : State.Canonical (x.memory.foldl State.putRegion
      (x.lists.foldl State.putPart ((s.putRings i x).putGrants i x.grants))) :=
    .foldl (.foldl h.putRings.putGrants (fun h _ => h.putPart)) (fun h _ => h.putRegion)
  exact .others (.putItems (.foldl_mem hm (fun h p hp => h.storeIn (hx p hp).1)))

end State.Canonical

/-! ### Machine/OpsTenant -/

namespace State.Canonical
variable {s : State}

theorem setSecState (h : s.Canonical) {v} : (s.setSecState v).Canonical := h.setFld.event
theorem debugValley (h : s.Canonical) {on} : (s.debugValley on).Canonical := h.setFlag.powerValley

theorem dropDebug (h : s.Canonical) : s.dropDebug.Canonical :=
  .debugValley (.foldl h.setFlag.dropRegs.others (fun h _ => h.setBench))

theorem endDebug (h : s.Canonical) : s.endDebug.Canonical := .ite h.dropDebug h

theorem beginDebug (h : s.Canonical) {rights notAfter} : (s.beginDebug rights notAfter).Canonical :=
  h.setFlag.setFld.others.debugValley

theorem setKeyed (h : s.Canonical) {v} : (s.setKeyed v).Canonical := .foldl h (fun h _ => h.setFlag)

theorem zeroHbm (h : s.Canonical) : s.zeroHbm.Canonical := .foldl h (fun h _ => h.zeroUnit)

theorem answer (h : s.Canonical) {i code bytes} : (s.answer i code bytes).Canonical := h.raiseFw.emit

theorem setSession (h : s.Canonical) {n x} : (s.setSession n x).Canonical := h.others

theorem closeSession (h : s.Canonical) {n} : (s.closeSession n).Canonical := h.setSession.others

theorem vendorAnswer (h : s.Canonical) {i code status content} : (s.vendorAnswer i code status content).Canonical :=
  h.answer

theorem replyBind (h : s.Canonical) {w} : (s.replyBind w).Canonical := by
  unfold State.replyBind
  split
  exacts [h, h.setFld, .ite h.vendorAnswer h.vendorAnswer]

theorem logOpaque (h : s.Canonical) {off n} : (s.logOpaque off n).Canonical := h.flashWrite.bumpFree

theorem recordBinding (h : s.Canonical) {r} : (s.recordBinding r).Canonical :=
  .others (.logOpaque (.ite h.zeroFlash h))

theorem voidBinding (h : s.Canonical) : s.voidBinding.Canonical := by
  refine .others ?_
  split
  exacts [h.logOpaque, h]

theorem journalPoint (h : s.Canonical) {n} : (s.journalPoint n).Canonical :=
  .others (.logOpaque (.ite h.zeroFlash h))

theorem wipeTenant (h : s.Canonical) : s.wipeTenant.Canonical := by
  unfold State.wipeTenant
  extract_lets t u v w x y shelf rma
  have ht : t.Canonical := .foldl h (fun h _ => h.clearBenchStatus)
  clear_value t
  have hu : u.Canonical := ⟨ht.hostMem, ht.farMem, ht.flash, ht.mems, List.forall_mem_nil _, ht.cores, ht.qps, ht.saved,
    ht.restores⟩
  have hv : v.Canonical := .foldl hu (fun h _ => .ite h h.loadWindow)
  have hy : y.Canonical := .foldl (.foldl (.foldl hv (fun h _ => h.zeroUnit)) (fun h _ => h.qpReset))
    (fun h _ => h.setPort)
  clear_value y
  exact ⟨hy.hostMem, hy.2⟩

theorem cryptoErase (h : s.Canonical) : s.cryptoErase.Canonical := h.setKeyed.others

theorem zeroQuarter (h : s.Canonical) {q} : (s.zeroQuarter q).Canonical := .foldl h (fun h _ => h.zeroRange)

theorem beginUnbind (h : s.Canonical) : s.beginUnbind.Canonical :=
  .ite h.setSecState.endDebug (.ite h.setSecState.endDebug.raiseHalt h.setSecState.endDebug.tellHalt)

theorem resetInstances (h : s.Canonical) : s.resetInstances.Canonical := .foldl h (fun h _ => h.resetInstance)

theorem unbindPoint (h : s.Canonical) {n} : (s.unbindPoint n).Canonical :=
  .ite h.beginUnbind.journalPoint (.ite h.resetInstances.journalPoint (.ite h.wipeTenant.journalPoint (.ite
    h.zeroQuarter.journalPoint (.ite h.cryptoErase.journalPoint h.voidBinding.setSecState))))

theorem bindPoint (h : s.Canonical) {q n} : (s.bindPoint q n).Canonical :=
  .ite h.setSecState.endDebug.others.setFld (.ite h.recordBinding (.ite h.setKeyed (.ite h.zeroHbm
    h.setSecState.useBound)))

theorem workStep (h : s.Canonical) : s.workStep.Canonical := by
  unfold State.workStep
  split
  · exact h
  · exact .ite (.replyBind (.others (.ite h.unbindPoint h.bindPoint))) (.others (.ite h.unbindPoint h.bindPoint))

theorem workSteps (h : s.Canonical) {n} : (s.workSteps n).Canonical := by
  induction n generalizing s with
  | zero => exact h
  | succ n ih => exact ih h.workStep

theorem startWork (h : s.Canonical) {w n} : (s.startWork w n).Canonical := h.others.workSteps

theorem runUnbind (h : s.Canonical) : s.runUnbind.Canonical := h.startWork

theorem resumeBinding (h : s.Canonical) : s.resumeBinding.Canonical := by
  unfold State.resumeBinding
  split
  · exact .startWork (.ite h.setKeyed h)
  · exact h.setSecState
  · exact h.setKeyed.zeroHbm.setSecState
  · exact h.setKeyed.zeroHbm
  · exact h

end State.Canonical

/-! ### Machine/Recover -/

namespace State.Canonical
variable {s : State}

theorem settleLevels (h : s.Canonical) : s.settleLevels.Canonical := .foldl h (fun h _ => .ite h.finishLevel h)
theorem fenceDevice (h : s.Canonical) : s.fenceDevice.Canonical := .ite h.setFence.fenceScope.writeCpls h.setFence

theorem startL4 (h : s.Canonical) {seen escalated prev} : (s.startL4 seen escalated prev).Canonical :=
  h.fenceDevice.warmReset.others.count.showLevel

theorem abandon (h : s.Canonical) {level sc} : (s.abandon level sc).2.Canonical :=
  .foldl h (fun h _ => h.setFence.closeLevel)

theorem beginLevel (h : s.Canonical) {seen level sc escalated prev} : (s.beginLevel seen level sc escalated
    prev).Canonical := by
  refine .ite h.abandon.startL4 (.settleLevels ?_)
  split
  · exact .ite h.abandon.count.setFence.others.showLevel.failTake h.abandon.count.setFence.others.showLevel
  · exact h.abandon.count.setFence.others.showLevel

theorem requestL5 (h : s.Canonical) {seen} : (s.requestL5 seen).Canonical := h.count.writeRecord.critical.emit.others

theorem endPwrcyc (h : s.Canonical) : s.endPwrcyc.Canonical := by
  unfold State.endPwrcyc
  split
  exacts [h, .ite h.others.emit h]

theorem serve (h : s.Canonical) {seen} : (s.serve seen).Canonical := by
  refine .ite h.requestL5 ?_
  split
  · exact h.count
  · split
    exacts [h.beginLevel, h.beginLevel]

theorem serveReports (h : s.Canonical) : s.serveReports.Canonical :=
  .settleLevels (.foldl h.others (fun h _ => h.serve))

theorem sanitizeOn (h : s.Canonical) : s.sanitizeOn.Canonical := by
  unfold State.sanitizeOn
  extract_lets n shelf t fw u
  have hu : u.Canonical := .ite (.others h.zeroFlash) (.others h)
  exact .ite h hu.logOpaque.showSanitize

theorem idle (h : s.Canonical) : s.idle.Canonical := by
  unfold State.idle
  extract_lets t u v w
  have ht : t.Canonical := h.passTicks
  clear_value t
  have hu : u.Canonical := .foldl ht (fun h _ => h.moveOn)
  have hv : v.Canonical := .ite hu hu.runCommits
  clear_value v
  have hf : (if v.scheduled = true then v else (List.range 12).foldl State.firmwareMapOut v).Canonical :=
    .ite hv (.foldl hv (fun h _ => h.firmwareMapOut))
  have hw : w.Canonical :=
    hf.serveReports.settleFreezes.workStep.sanitizeOn.settleTake.stepRestores.settleLow.endPwrcyc.dbgDrain
  clear_value w
  exact hw.pollInterrupt.pollInterrupt

theorem fenceAll (h : s.Canonical) : s.fenceAll.Canonical := .foldl h (fun h _ => h.fenceScope)

theorem finishL4 (h : s.Canonical) : s.finishL4.Canonical := .foldl h (fun h _ => h.closeLevel)

theorem valleyFault (h : s.Canonical) {t'} : (s.valleyFault t').Canonical := .ite h.haltNow h.addFault.serveReports

theorem requestLevel (h : s.Canonical) {t'} : (s.requestLevel t').Canonical := .ite h.haltNow h.addFault.serveReports

theorem execRcvRequest (h : s.Canonical) : NextCanonical (execRcvRequest s) :=
  .next (.ite (.ite h.setRequest.setFld (.ite h.setRequest.setFld (.ite h.setRequest.setFld.requestLevel (.ite
    h.setRequest.setFld.requestLevel (.ite h.setRequest.setFld.beginLevel h.setRequest.setFld.requestL5))))) h)

theorem execRcvCopy (h : s.Canonical) : NextCanonical (execRcvCopy s) := by
  refine .next (.ite ?_ h)
  dsimp only
  split
  exacts [h.setRequest.setFld, h.setRequest.setHostMem.setFld]

theorem execLevelTimeout (h : s.Canonical) : NextCanonical (execLevelTimeout s) := by
  refine .next ?_
  split
  exacts [h, .ite h (.ite (.ite h.others.requestL5 h.others) h.setFence.closeLevel.beginLevel)]

theorem execFenceDrainTimeout (h : s.Canonical) : NextCanonical (execFenceDrainTimeout s) :=
  .next h.fenceAll.settleLevels

theorem execEngineHeartbeatTimeout (h : s.Canonical) {kind} : NextCanonical (execEngineHeartbeatTimeout kind s) :=
  .next (.ite h.addFault.serveReports h)

theorem execPassAckTimeout (h : s.Canonical) {v} : NextCanonical (execPassAckTimeout v s) := .next h.valleyFault

theorem execPwrcycTimeout (h : s.Canonical) : NextCanonical (execPwrcycTimeout s) :=
  .next (.ite (.ite (.requestL5 (.ite h.endPwrcyc.startL4 h.endPwrcyc)) (.others (.ite h.endPwrcyc.startL4
    h.endPwrcyc))) h)

end State.Canonical

/-! ### Machine/Endpoint -/

namespace State.Canonical
variable {s : State}

theorem clearInstances (h : s.Canonical) : s.clearInstances.Canonical :=
  .withHost (.foldl h (fun h _ => h.resetInstanceTo))

theorem managerL3 (h : s.Canonical) : s.managerL3.Canonical :=
  .settleLevels (.fenceAll (.ite h (.beginLevel (.ite h h.announceHalt))))

theorem emptyBuffers (h : s.Canonical) : s.emptyBuffers.Canonical := h.others.showPending

theorem managerReset (h : s.Canonical) : s.managerReset.Canonical :=
  h.leaveLowPower.clearFn.managerL3.clearInstances.emptyBuffers.setFlag

theorem execFlr (h : s.Canonical) {i} : NextCanonical (execFlr i s) :=
  .next (.ite h.retryConfig (.ite h.managerReset (.ite h h.resetInstance)))

theorem execManagerFlr (h : s.Canonical) : NextCanonical (execManagerFlr s) :=
  .next (.ite h.managerReset h.retryConfig)

theorem execVfEnable (h : s.Canonical) : NextCanonical (execVfEnable s) :=
  .next (.ite (.foldl h.withHost (fun h _ => h.setFn.setFld.showInstance.event)) h.retryConfig)

theorem execVfEnableClear (h : s.Canonical) : NextCanonical (execVfEnableClear s) :=
  .next (.ite h.clearInstances h.retryConfig)

theorem execD3hotEntry (h : s.Canonical) {pme} : NextCanonical (execD3hotEntry pme s) :=
  .next (.ite h.setFn h.retryConfig)

theorem execLowpowerEntry (h : s.Canonical) : NextCanonical (execLowpowerEntry s) :=
  .next (.ite h.withHost.setSelfRefresh.setFlag h)

theorem execD0Entry (h : s.Canonical) : NextCanonical (execD0Entry s) :=
  .next (.ite (.foldl (.withHost (.ite h.setFn.leaveLowPower.others.emit h.setFn.leaveLowPower)) (fun h _ =>
    h.sendAllPending)) h.retryConfig)

theorem execInstanceD3hot (h : s.Canonical) {i} : NextCanonical (execInstanceD3hot i s) :=
  .next (.ite h.setFn h.retryConfig)

theorem execInstanceD0Entry (h : s.Canonical) {i} : NextCanonical (execInstanceD0Entry i s) :=
  .next (.ite h.setFn.sendAllPending h.retryConfig)

theorem execPmeResend (h : s.Canonical) : NextCanonical (execPmeResend s) := .next (.ite h.emit h)

theorem execPmeStatusClear (h : s.Canonical) : NextCanonical (execPmeStatusClear s) :=
  .next (.ite h.setFn.withHost h.retryConfig)

theorem execDoeObject (h : s.Canonical) {i protocol} : NextCanonical (execDoeObject i protocol s) :=
  .next (.ite h.retryConfig (.ite h.raiseFw.emit h))

theorem execAtomicopRequest (h : s.Canonical) {i} (addr) : NextCanonical (execAtomicopRequest i addr s) :=
  .next (.ite h.setFn.emit h)

end State.Canonical

/-! ### Machine/Eth -/

namespace State.Canonical
variable {s : State}

theorem execFrameReceived (h : s.Canonical) {p bytes fcsOk mismatch} : NextCanonical (execFrameReceived p bytes fcsOk
    mismatch s) :=
  .next (.ite h (.ite h.count (.ite h.count (.ite h.count (.ite h.slowFrame h.classify)))))

theorem resolved (h : s.Canonical) {p mac ip} : (s.resolved p mac ip).Canonical := by
  refine .foldl (.ite h.count h) (fun h _ => ?_)
  dsimp only
  split
  exacts [h, h.setQp.setFld.complete]

theorem execSlowPathService (h : s.Canonical) {p} : NextCanonical (execSlowPathService p s) := by
  refine .next ?_
  split
  · exact h
  · refine .ite h ?_
    dsimp only
    split
    · exact h.setPort.sendAhead
    · exact h.setPort.sendAhead
    · exact h.setPort.sendAhead
    · split
      exacts [h.setPort.resolved, h.setPort.resolved, h.setPort.count]

theorem execPost (h : s.Canonical) {i r} : NextCanonical (execPost i r s) :=
  .next (.ite h (h.withOp (fun h => h.doPost)))

theorem queueFrame (h : s.Canonical) {o n ts f poisoned} : (s.queueFrame o n ts f poisoned).Canonical := h.enqueue

theorem doEthSend (h : s.Canonical) {mismatch o d} : (s.doEthSend mismatch o d).Canonical := by
  unfold State.doEthSend
  dsimp only
  split
  · exact h.complete
  · refine .ite h.complete ?_
    split
    · exact h.violate.complete
    · refine .ite h.complete (.ite (.ite h.sendBytes.violateIf.complete ?_) h.sendBytes.violateIf.queueFrame)
      split
      · exact h.sendBytes.violateIf.violateIf.complete
      · exact .ite h.sendBytes.violateIf.complete (.ite h.sendBytes.violateIf.cipherMismatch.complete
          h.sendBytes.violateIf.flowKey.others.queueFrame)

theorem execEthSend (h : s.Canonical) {i r mismatch} : NextCanonical (execEthSend i r mismatch s) :=
  .next (h.withOp (fun h => h.doEthSend))

theorem doSetFlowKey (h : s.Canonical) {o d} : (s.doSetFlowKey o d).Canonical := by
  unfold State.doSetFlowKey
  split
  · exact h.complete
  · refine .ite h.complete ?_
    split
    · exact h.complete
    · exact h.violate.complete
    · split
      exacts [h.violate.complete, h.others.complete]

theorem execSetFlowKey (h : s.Canonical) {i r} : NextCanonical (execSetFlowKey i r s) :=
  .next (h.withOp (fun h => h.doSetFlowKey))

theorem execTxFrameStart (h : s.Canonical) {p} : NextCanonical (execTxFrameStart p s) := by
  refine .next (.ite h ?_)
  dsimp only
  split
  · exact h.setPort.charge
  · split
    · exact h
    · next e => exact (h.pickFrame.of_snd_eq e).setPort.chargePath

theorem execFrameTransmitted (h : s.Canonical) {p} : NextCanonical (execFrameTransmitted p s) := by
  refine .next ?_
  extract_lets x
  split
  · exact h
  · extract_lets t
    have ht : t.Canonical := h.setPort.emit
    split
    · exact ht
    · exact ht.complete

theorem execPortUp (h : s.Canonical) {p peerModes} : NextCanonical (execPortUp p peerModes s) := by
  refine .next (.ite h ?_)
  dsimp only
  split
  exacts [h.wrapAdd, h.setFlag.setFld.portEvent]

theorem execPortDown (h : s.Canonical) {p} : NextCanonical (execPortDown p s) := .next h.dropPort

theorem execLaneLossOfLock (h : s.Canonical) {p lane} : NextCanonical (execLaneLossOfLock p lane s) :=
  .next (.ite (.ite h.setPort.setPort.critical.applyLanes h.setPort) h)

theorem execRuleSetCommit (h : s.Canonical) {p} : NextCanonical (execRuleSetCommit p s) :=
  .next (.ite h (.ite h.setPort h.setFlag.setFld))

theorem execRuleSetSwitch (h : s.Canonical) {p} : NextCanonical (execRuleSetSwitch p s) := by
  refine .next ?_
  split
  exacts [h, h.setPort.wrapAdd.setFlag.setFld]

end State.Canonical

/-! ### Machine/OpsFw -/

namespace State.Canonical
variable {s : State}

theorem runImage (h : s.Canonical) {b k e img} : (s.runImage b k e img).Canonical := h.withFw.setCore.resetCore

theorem startCores (h : s.Canonical) {b} : (s.startCores b).Canonical := by
  refine .foldl h (fun h _ => ?_)
  split
  exacts [h, h.runImage]

theorem selectBank (h : s.Canonical) : s.selectBank.2.Canonical := by
  unfold State.selectBank
  dsimp only
  split
  · exact .appendRecord (.foldl h (fun h _ => h.appendRecord))
  · exact .foldl h (fun h _ => h.appendRecord)

end State.Canonical

/-! ### Machine/Firmware -/

namespace State.Canonical
variable {s : State}

theorem publish (h : s.Canonical) {full} : (s.publish full).Canonical := h.withHost.setFlag
theorem trainLink (h : s.Canonical) : s.trainLink.Canonical := h.bumpFree.setFlag.setFld.setFld.setFlag

theorem imageLess (h : s.Canonical) : s.imageLess.Canonical :=
  (State.Canonical.others h.withHost).setFld.showBanks.trainLink.publish

theorem mapDisabled (h : s.Canonical) : s.mapDisabled.Canonical :=
  .foldl h (fun h _ => .ite h.setFlag.setFlag.setFld h)

theorem mapFailed (h : s.Canonical) {r} : (s.mapFailed r).Canonical :=
  .foldl (.foldl h (fun h _ => h.setFlag.setFlag.critical)) (fun h _ => h.setFld.dropStack.critical)

theorem bootFrom (h : s.Canonical) {b r} : (s.bootFrom b r).Canonical :=
  .finishL4 (.publish (.others (.trainLink (.resumeBinding (.showBanks (.setFld (.setFld (.setFld (.setFlag (.ite
    (.showSanitize (.gateValleys (.mapUnlisted (.mapFailed (.mapDisabled (.withFw (.foldl h.startCores (fun h _ =>
    h.setFlag)))))))) (.gateValleys (.mapUnlisted (.mapFailed (.mapDisabled (.withFw (.foldl h.startCores (fun h _ =>
    h.setFlag)))))))))))))))))

theorem bootFails (h : s.Canonical) {b} : (s.bootFails b).Canonical :=
  .ite h.logEvent.logCount h.logEvent.appendRecord

theorem execBoot (h : s.Canonical) {r} : NextCanonical (execBoot r s) := by
  refine .next (.ite ?_ h)
  split
  · next e => exact (h.selectBank.of_snd_eq e).imageLess
  · next e =>
    have ht := h.selectBank.of_snd_eq e
    split
    · exact ht.setFld.bootFails
    · exact ht.bootFrom

theorem writeBank (h : s.Canonical) {b addr len} : (s.writeBank b addr len).Canonical := by
  unfold State.writeBank
  extract_lets hd area base flash fw t u
  have hf : Memory.wf flash = true := Memory.wf_zero _ _ h.flash
  have ht : t.Canonical := (h.withFlash hf).flashWrite.flashWrite
  have hu : u.Canonical := ht.showBanks.setFld
  exact .ite hu.appendRecord.logCount.fwcDone hu.fwcDone

theorem execDownload (h : s.Canonical) : NextCanonical (execDownload s) := by
  refine .next (.ite (.ite h.fwcDone ?_) h)
  split
  exacts [h.fwcDone, h.writeBank]

theorem switchCores (h : s.Canonical) {b ks} : (s.switchCores b ks).1.Canonical := by
  induction ks generalizing s with
  | nil => exact h
  | cons k ks ih =>
    rw [State.switchCores]
    refine .ite_fst (ih h) ?_
    split
    · exact h.resetCore
    · exact ih h.runImage

theorem holdCores (h : s.Canonical) {cores} : (s.holdCores cores).Canonical := h.withFw

theorem switchEnd (h : s.Canonical) {op status} : (s.switchEnd op status).Canonical :=
  h.withFw.shelfStart.rejectPeers.fwcDone

theorem switchDone (h : s.Canonical) {release op status} : (s.switchDone release op status).Canonical :=
  .switchEnd (.ite h h.rebuildTable)

theorem execActivate (h : s.Canonical) : NextCanonical (execActivate s) := by
  refine .next (.ite ?_ h)
  dsimp only
  split
  · exact h.switchEnd
  · exact .ite h.switchEnd (.ite h.switchEnd (.ite h.holdCores (.switchDone (.switchCores (.ite h.appendRecord h)))))

theorem execCommit (h : s.Canonical) : NextCanonical (execCommit s) := by
  refine .next (.ite ?_ h)
  split
  exacts [h.fwcDone, .ite h.withFw.appendRecord.showBanks.fwcDone h.fwcDone]

theorem execAbandon (h : s.Canonical) : NextCanonical (execAbandon s) := by
  refine .next (.ite ?_ h)
  split
  exacts [h.switchEnd, .ite h.switchEnd (.ite h.holdCores h.appendRecord.switchCores.switchDone)]

end State.Canonical

/-! ### Machine/KerfCommit -/

namespace State.Canonical
variable {s : State}

theorem addEnergy (h : s.Canonical) {p} : (s.addEnergy p).Canonical :=
  .others (.logEnergy (.wrapAdd (.foldl h (fun h _ => h.wrapAdd))))

theorem lowerTargets (h : s.Canonical) {p} : (s.lowerTargets p).Canonical :=
  .foldl h (fun h _ => .ite (.ite h.raiseClock h.setTarget) h.raiseClock)

theorem endStops (h : s.Canonical) {pos} : (s.endStops pos).Canonical := .foldl h.others (fun h _ => h.complete)

theorem endStart (h : s.Canonical) {status result} : (s.endStart status result).Canonical := by
  unfold State.endStart
  split
  exacts [h, h.others.complete]

theorem endPendingTake (h : s.Canonical) {status} : (s.endPendingTake status).Canonical := by
  unfold State.endPendingTake
  split
  exacts [h, .ite h h.others.complete]

theorem setStates (h : s.Canonical) {st halted} : (s.setStates st halted).Canonical := .foldl h (fun h _ => h.setPart)

theorem idleRun (h : s.Canonical) : s.idleRun.Canonical := h.others.setFlag

theorem endRun (h : s.Canonical) : s.endRun.Canonical :=
  h.setStates.idleRun.endStart.endStops.endPendingTake.runEnds.runCommits

theorem stopRun (h : s.Canonical) : s.stopRun.Canonical :=
  h.setStates.idleRun.endStart.endStops.endPendingTake.runEnds

theorem haltEvents (h : s.Canonical) {cause} : (s.haltEvents cause).Canonical := .foldl h (fun h _ => h.eventBoth)

theorem nameCause (h : s.Canonical) {cause detail m} : (s.nameCause cause detail m).Canonical := by
  unfold State.nameCause
  dsimp only
  split
  · exact .ite h h.writeRecord
  · exact .recoveryEvent (.ite (.haltEvents (.others (.ite h h.writeRecord))) (.others (.ite h h.writeRecord)))

theorem nameReport (h : s.Canonical) {report} : (s.nameReport report).Canonical := .ite h.nameCause h

theorem nameDiverged (h : s.Canonical) : s.nameDiverged.Canonical := .ite (.foldl h (fun h _ => .ite h h.nameCause)) h

theorem nameReports (h : s.Canonical) : s.nameReports.Canonical :=
  .ite (.nameDiverged (.foldl h (fun h _ => h.nameReport))) h

theorem execHaltReport (h : s.Canonical) {j report fixed} : NextCanonical (execHaltReport j report fixed s) :=
  .next (.ite (.ite h.countFixed.flood.others h.countFixed.flood.others.nameReport.nameDiverged) h.countFixed)

theorem haltRun (h : s.Canonical) {h'} : (s.haltRun h').Canonical :=
  .others (.ite (.foldl (.ite h.endStage.setStates.idleRun.others.detachedEnds.endStart.endStops.endPendingTake
    h.endStage.setStates.idleRun.others.detachedEnds.endStart.endStops.endPendingTake.haltEvents) (fun h _ =>
    h.sendHaltReport)) (.ite h.endStage.setStates.idleRun.others.detachedEnds.endStart.endStops.endPendingTake
    h.endStage.setStates.idleRun.others.detachedEnds.endStart.endStops.endPendingTake.haltEvents))

theorem swapPart (h : s.Canonical) {p} : (s.swapPart p).Canonical := by
  unfold State.swapPart
  split
  · exact h
  · exact .setPart (.loadWindows (.foldl (.foldl (.fillList (.foldl h.dropOld (fun h _ => h.holdRegion)))
      (fun h b => h.putBench (((h.bench b).withProg (h.bench b).2.2).withStaging rfl))) (fun h _ => h.setBench)))

theorem swapKerfDone (h : s.Canonical) {w} : (s.swapKerfDone w).Canonical :=
  .ite (.complete (.gateValleys (.others (.foldl h (fun h _ => h.swapPart))))) h.endStage

theorem swapStep (h : s.Canonical) : s.swapStep.Canonical := by
  unfold State.swapStep
  split
  exacts [h, .ite h.swapKerfDone h]

theorem snapshot (h : s.Canonical) : s.snapshot.Canonical :=
  .foldl (.foldl h (fun h _ => .others (.setBench (.foldl h (fun h _ => h.dbgRecord))))) (fun h _ => .others (.foldl
    h (fun h _ => h.dbgRecord)))

theorem snapshotStep (h : s.Canonical) : s.snapshotStep.Canonical := .ite h.snapshot h

theorem noteCkpt (h : s.Canonical) : s.noteCkpt.Canonical := by
  unfold State.noteCkpt
  split
  exacts [h, .ite h.others h]

theorem passOn (h : s.Canonical) {pos len} : (s.passOn pos len).Canonical := h.others

theorem stretchStep (h : s.Canonical) : s.stretchStep.Canonical := .ite h.others.showStretch h

theorem commitPhase (h : s.Canonical) : s.commitPhase.Canonical := by
  unfold State.commitPhase
  extract_lets len next swaps atEnd t ckpt stop u pos resume v w
  have hu : u.Canonical := .foldl h.noteCkpt.swapStep.runCommits.applyDue (fun h _ => h.firmwareMapOut)
  clear_value u
  have hv : v.Canonical := hu.stopForTake
  have hw : w.Canonical := .ite hu (.ite (.ite hv hv.endStops) (.ite hu.endRun (.ite hu.stopRun hu)))
  refine .ite ?_ hw.stretchStep.passOn
  split
  exacts [h, h.runCommits.applyDue.haltRun.passOn.serveReports.nameReports]

theorem execKerfCommit (h : s.Canonical) {p} : NextCanonical (execKerfCommit p s) :=
  .next (.ite (.commitPhase (.snapshotStep (.foldl h.reachTick.addEnergy.lowerTargets (fun h _ => h.setLink)))) h)

end State.Canonical

/-! ### Machine/Manager -/

namespace State.Canonical
variable {s : State}

theorem managerOp (h : s.Canonical) {r opcode good body} (hbody : ∀ {t a b}, t.Canonical → (body t a b).Canonical) :
    (s.managerOp r opcode good body).Canonical := by
  refine h.withOp (fun h => ?_)
  split
  exacts [h.complete, .ite (hbody h) (.ite h.violate.complete h.complete)]

theorem withInstance (h : s.Canonical) {o d body} (hbody : ∀ {t a}, t.Canonical → (body t a).Canonical) :
    (s.withInstance o d body).Canonical :=
  .ite h.complete (hbody h)

theorem doAssign (h : s.Canonical) {o d} : (s.doAssign o d).Canonical := by
  refine h.withInstance (fun h => .ite h.complete (.ite h.complete ?_))
  split
  exacts [h.complete, h.setPart.showInstance.rebuildTable.complete]

theorem execAssign (h : s.Canonical) {r} : NextCanonical (execAssign r s) := .next (h.managerOp (fun h => h.doAssign))

theorem doRelease (h : s.Canonical) {o d} : (s.doRelease o d).Canonical := by
  refine .ite h.complete (.complete (.rebuildTable (.pruneRegs ?_)))
  split
  exacts [h.unloadPart.setPart, h.unloadPart.setPart.showInstance]

theorem execRelease (h : s.Canonical) {r} : NextCanonical (execRelease r s) :=
  .next (h.managerOp (fun h => h.doRelease))

theorem doGrant (h : s.Canonical) {o d} : (s.doGrant o d).Canonical :=
  h.withInstance (fun h => .ite h.complete (.ite h.complete (.ite h.complete (.complete (.setFn (.foldl h (fun h _ =>
    h.qpClear)))))))

theorem execGrant (h : s.Canonical) {r} : NextCanonical (execGrant r s) := .next (h.managerOp (fun h => h.doGrant))

theorem endCommands (h : s.Canonical) {i p} : (s.endCommands i p).Canonical :=
  .shelfStart (.foldl h.others (fun h _ => h.endShelf))

theorem endLine (h : s.Canonical) {i r} : (s.endLine i r).Canonical := by
  refine .foldl h (fun h _ => ?_)
  split
  · exact h
  · split
    exacts [h, .ite h.setPort.complete h]

theorem endUnit (h : s.Canonical) {i g} : (s.endUnit i g).Canonical := by
  unfold State.endUnit
  split
  · exact h.endCommands
  · exact h.endCommands
  · exact h.qpError
  · exact .foldl h (fun h _ => h.etxReset.endLine.dropBufs)
  · exact h.others

theorem doRevoke (h : s.Canonical) {o d} : (s.doRevoke o d).Canonical :=
  h.withInstance (fun h => .ite h.complete (.complete (.setFn (.foldl h (fun h _ => h.endUnit)))))

theorem execRevoke (h : s.Canonical) {r} : NextCanonical (execRevoke r s) := .next (h.managerOp (fun h => h.doRevoke))

theorem doFreeze (h : s.Canonical) {o d} : (s.doFreeze o d).Canonical := by
  refine h.withInstance (fun h => .ite h.complete (.settleFreezes (.ite ?_ h.setFn.setInstance)))
  split
  · exact .ite h.setFn.setInstance.cancelStart h.setFn.setInstance
  · exact h.setFn.setInstance.cancelStart
  · exact h.setFn.setInstance.fetchStop

theorem execFreeze (h : s.Canonical) {r} : NextCanonical (execFreeze r s) := .next (h.managerOp (fun h => h.doFreeze))

theorem doThaw (h : s.Canonical) {o d} : (s.doThaw o d).Canonical :=
  h.withInstance (fun h => .ite h.setInstance.complete h.complete)

theorem execThaw (h : s.Canonical) {r} : NextCanonical (execThaw r s) := .next (h.managerOp (fun h => h.doThaw))

theorem doSave (h : s.Canonical) {mismatch o d} : (s.doSave mismatch o d).Canonical := by
  refine h.withInstance (fun {t i} h => ?_)
  split
  · exact h.complete
  · have hi := (h.bumpFree.bumpFree.imageItems (i := i)).freePlain (h.bumpFree.bumpFree.imageItems_saved (i := i))
    exact .ite h.complete (.ite h.complete (.ite h.cipherMismatch.complete
      (.ite hi.complete hi.useKey.setHostMem.complete)))

theorem execSave (h : s.Canonical) {r mismatch} : NextCanonical (execSave r mismatch s) :=
  .next (h.managerOp (fun h => h.doSave))

theorem doRestoreImage (h : s.Canonical) {mismatch o d} : (s.doRestoreImage mismatch o d).Canonical := by
  refine h.withInstance (fun {t i} h => ?_)
  extract_lets hd
  split
  · exact h.complete
  · refine .ite h.complete (.ite h.complete (.ite h.complete (.ite h.cipherMismatch.complete ?_)))
    dsimp only
    split
    · exact h.useKey.complete
    · exact .ite h.useKey.complete (.ite
        (h.useKey.putImage (h.useKey.itemsOf _ _)).gateValleys.setInstance.complete h.useKey.complete)

theorem execRestoreImage (h : s.Canonical) {r mismatch} : NextCanonical (execRestoreImage r mismatch s) :=
  .next (h.managerOp (fun h => h.doRestoreImage))

end State.Canonical

/-! ### Machine/MemEvents -/

namespace State.Canonical
variable {s : State}

theorem patrol (h : s.Canonical) {k} : (s.patrol k).Canonical := by
  unfold State.patrol
  extract_lets u first t m hit v
  have hv : v.Canonical := .foldl h.bumpFree (fun h _ => h.readLine)
  exact hv.putMemUnit (.foldl (hv.memUnit u) (fun h _ => h.writeBack))

theorem execRefreshStep (h : s.Canonical) {k} : NextCanonical (execRefreshStep k s) := by
  refine .next (.ite h ?_)
  split
  exacts [h, .ite h.reachTick.setMemUnit h.reachTick.patrol]

theorem execStackTempRead (h : s.Canonical) {k temp} : NextCanonical (execStackTempRead k temp s) :=
  .next (.ite h.setFld.setFld.setMemUnit.setFld h)

theorem execSelfRefreshEntry (h : s.Canonical) {k} : NextCanonical (execSelfRefreshEntry k s) :=
  .next (.ite h.setFlag h)

theorem execHbmEccWriteBack (h : s.Canonical) {k line} : NextCanonical (execHbmEccWriteBack k line s) :=
  .next (.ite (h.putMemUnit (h.memUnit _).writeBack) h)

theorem execNstEccWriteBack (h : s.Canonical) {d line} : NextCanonical (execNstEccWriteBack d line s) :=
  .next (.ite (h.putMemUnit (h.memUnit _).putLine) (.ite (h.putMemUnit (h.memUnit _).writeBack) h))

theorem execSlotZeroRewriteDone (h : s.Canonical) {k granule} : NextCanonical (execSlotZeroRewriteDone k granule s)
    :=
  .next (.ite (.ite h.setGranule.others h.setGranule.runCommits) h)

theorem execStackInterfaceFailure (h : s.Canonical) {k} : NextCanonical (execStackInterfaceFailure k s) :=
  .next (.ite (.ite h.setFld.dropStack.critical (.ite h.setFld.dropStack.critical.raiseHalt
    h.setFld.dropStack.critical.addFault.serveReports)) h)

theorem execStackMapOutApply (h : s.Canonical) {k} : NextCanonical (execStackMapOutApply k s) :=
  .next (.ite h.dropStack h)

theorem execBenchMapOutApply (h : s.Canonical) {b} : NextCanonical (execBenchMapOutApply b s) :=
  .next (.ite h.dropBench h)

theorem execLinkMapOutApply (h : s.Canonical) {j} : NextCanonical (execLinkMapOutApply j s) :=
  .next (.ite h.setFlag.setLinkState.gateValley.rebuildTable.sendRecord h)

end State.Canonical

/-! ### Machine/Telemetry -/

namespace State.Canonical
variable {s : State}

theorem crossed (h : s.Canonical) {n detail} : (s.crossed n detail).Canonical :=
  .ite h.event.raiseFw h.event.raiseFw.logEvent

theorem sample (h : s.Canonical) {n v} : (s.sample n v).Canonical := by
  unfold State.sample
  extract_lets warn crit t u x y
  have ht : t.Canonical := h.setFld
  have hu : u.Canonical := ht.setFlag.crossed
  have hx : x.Canonical := .ite (.ite hu.wake hu) ht
  have hy : y.Canonical := .ite hx.setFlag.crossed.critical hx
  exact .ite hy.setFlag.setFlag.crossed hy

theorem dayPeaks (h : s.Canonical) : s.dayPeaks.Canonical := h.others

theorem execSensorSample (h : s.Canonical) {vals} : NextCanonical (execSensorSample vals s) := by
  refine .next (.ite (.dayPeaks (.foldl h (fun h _ => .ite h.sample ?_))) h)
  split
  exacts [h.sample, h]

theorem saveDay (h : s.Canonical) : s.saveDay.Canonical := h.logRing

theorem execHourlySave (h : s.Canonical) : NextCanonical (execHourlySave s) :=
  .next (.ite h.flashWrite.others.saveDay h)

theorem execDayBoundary (h : s.Canonical) : NextCanonical (execDayBoundary s) :=
  .next (.ite (.others (.saveDay (.ite h.passTime h))) h)

theorem readLog (h : s.Canonical) : s.readLog.Canonical := h.others

theorem execLogRead (h : s.Canonical) : NextCanonical (execLogRead s) :=
  .next (.ite (.ite h.setRequest.setFlag.setFld h.setRequest.setFlag.setHostMem.setFld) h)

end State.Canonical

/-! ### Machine/Mgmt -/

namespace State.Canonical
variable {s : State}

theorem onBus (h : s.Canonical) {bus body} (hbody : ∀ {t}, t.Canonical → (body t).Canonical) : (s.onBus bus
    body).Canonical :=
  .ite (hbody h) h

theorem execMctpControl (h : s.Canonical) {bus op} : NextCanonical (execMctpControl bus op s) := by
  refine .next ?_
  split
  · exact h.onBus (fun h => h.others.sendMgmt)
  · exact h.onBus (fun h => h.sendMgmt)
  · exact h.onBus (fun h => h.bumpFree.sendMgmt)
  · exact h.onBus (fun h => .ite h.bumpFree.sendMgmt h.sendMgmt)
  · exact h.onBus (fun h => h.sendMgmt)
  · exact h.onBus (fun h => h.sendMgmt)
  · exact h.onBus (fun h => h.sendMgmt)
  · exact h
  · exact .ite h.others h

theorem execPldmDiscovery (h : s.Canonical) {bus type ask} : NextCanonical (execPldmDiscovery bus type ask s) := by
  refine .next (h.onBus (fun h => .ite h.sendMgmt (.ite ?_ (.ite h h.sendMgmt))))
  split
  exacts [h.sendMgmt, .ite h.bumpFree.sendMgmt h.sendMgmt]

theorem execGetTid (h : s.Canonical) {bus} : NextCanonical (execGetTid bus s) :=
  .next (h.onBus (fun h => h.bumpFree.sendMgmt))

theorem execSetEventReceiver (h : s.Canonical) {bus eid} : NextCanonical (execSetEventReceiver bus eid s) :=
  .next (h.onBus (fun h => h.others.sendMgmt))

theorem execGetPdrRepositoryInfo (h : s.Canonical) {bus} : NextCanonical (execGetPdrRepositoryInfo bus s) :=
  .next (h.onBus (fun h => h.bumpFree.sendMgmt))

theorem execGetPdr (h : s.Canonical) {bus record} : NextCanonical (execGetPdr bus record s) := by
  refine .next (h.onBus (fun h => ?_))
  dsimp only
  split
  exacts [h.sendMgmt, h.bumpFree.sendMgmt]

theorem execGetSensorReading (h : s.Canonical) {bus id} : NextCanonical (execGetSensorReading bus id s) := by
  refine .next (h.onBus (fun h => ?_))
  split
  exacts [h.sendMgmt, h.sendMgmt]

theorem execSetNumericSensorEnable (h : s.Canonical) {bus id op} : NextCanonical (execSetNumericSensorEnable bus id
    op s) := by
  refine .next (h.onBus (fun h => ?_))
  split
  exacts [h.sendMgmt, .ite h.sendMgmt h.others.sendMgmt]

theorem execGetSensorThresholds (h : s.Canonical) {bus id} : NextCanonical (execGetSensorThresholds bus id s) := by
  refine .next (h.onBus (fun h => ?_))
  split
  exacts [h.sendMgmt, h.sendMgmt]

theorem execHostAttention (h : s.Canonical) {bus} : NextCanonical (execHostAttention bus s) :=
  .next (h.onBus (fun h => h.wake))

theorem loseBus (h : s.Canonical) : s.loseBus.Canonical :=
  h.count.alert (fun h => .ite h.others h.others.count.logEvent.drainMgmt)

theorem execSmbusArbitrationLost (h : s.Canonical) : NextCanonical (execSmbusArbitrationLost s) :=
  .next (.ite h.loseBus h)

theorem execSmbusRetry (h : s.Canonical) {lost} : NextCanonical (execSmbusRetry lost s) := by
  refine .next ?_
  split
  exacts [h, .ite h (.ite h.loseBus (h.alert (fun h => h.emit.drainMgmt)))]

end State.Canonical

/-! ### Machine/ModulePins -/

namespace State.Canonical
variable {s : State}

theorem release (h : s.Canonical) : s.release.Canonical := by
  unfold State.release
  extract_lets t u
  have ht : t.Canonical := .ite h h.warmReset
  have hu : u.Canonical := .ite ht.emit ht
  exact .ite (.others hu.withHost) h

theorem execPerstNAssert (h : s.Canonical) : NextCanonical (execPerstNAssert s) :=
  .next (.ite (.ite h.others.beginLevel h.others) h)

theorem execPerstNDeassert (h : s.Canonical) : NextCanonical (execPerstNDeassert s) := .next (.ite h h.others.release)

theorem startV38 (h : s.Canonical) {straps} : (s.startV38 straps).Canonical :=
  h.dropRegs.others.setFld.setFlag.setFld.readLog

theorem execAux3v3Apply (h : s.Canonical) {straps} : NextCanonical (execAux3v3Apply straps s) :=
  .next (.ite h h.startV38.release)

theorem execAux3v3Loss (h : s.Canonical) : NextCanonical (execAux3v3Loss s) := by
  refine .next (.ite ?_ h)
  extract_lets t u fn v w x y
  have ht : t.Canonical := .ite h.railsOff h
  have hv : v.Canonical := ht.setFld.setFld.setFn
  have hw : w.Canonical := .ite hv.emit hv
  have hx : x.Canonical := .ite hw.emit hw
  have hy : y.Canonical := .ite hx.emit hx
  exact hy.others

theorem execP54vApply (h : s.Canonical) : NextCanonical (execP54vApply s) := by
  refine .next (.ite h ?_)
  extract_lets pins t u pins' v
  have hu : u.Canonical := .ite (.logCount (.others h)) (.others h)
  have hv : v.Canonical := .ite (.emit (.others hu)) hu
  exact hv.release

theorem execP54vLoss (h : s.Canonical) : NextCanonical (execP54vLoss s) :=
  .next (.ite (.others (.ite h.railsOff h)) h)

theorem execThermalTrip (h : s.Canonical) {sensor} : NextCanonical (execThermalTrip sensor s) :=
  .next (.ite h.railsOff.others.emit.critical h)

end State.Canonical

/-! ### Machine/Power -/

namespace State.Canonical
variable {s : State}

theorem execSlackLow (h : s.Canonical) {v} : NextCanonical (execSlackLow v s) :=
  .next (.ite h (.ite h.setTarget (.ite h.valleyFault h.valleyFault)))

end State.Canonical

/-! ### Machine/Rdma -/

namespace State.Canonical
variable {s : State}

theorem rmaOp (h : s.Canonical) {i r opcode body} (hbody : ∀ {t a b c}, t.Canonical → (body t a b c).Canonical) :
    (s.rmaOp i r opcode body).Canonical := by
  refine h.withOp (fun h => ?_)
  split
  exacts [h.violate.complete, hbody h]

theorem boundRmaOp (h : s.Canonical) {i r opcode body} (hbody : ∀ {t a b c}, t.Canonical → (body t a b c).Canonical)
    : (s.boundRmaOp i r opcode body).Canonical := by
  refine h.rmaOp (fun h => ?_)
  split
  exacts [h.complete, hbody h]

theorem doWork (h : s.Canonical) {kind mismatch o n d} : (s.doWork kind mismatch o n d).Canonical := by
  unfold State.doWork
  extract_lets devmem len
  refine .ite h.refuseWqe (.ite h.complete (.ite h.complete (.ite h.refuseWqe (.ite h.refuseWqe
    (.ite h.cipherMismatch.refuseWqe ?_)))))
  split
  next e =>
    have ht := (ite_snd_snd h.sendBytes h).of_snd_snd_eq e
    exact .addWqe (.ite ht.violateIf.setNeeds ht.violateIf)

theorem execRmaWrite (h : s.Canonical) {i r mismatch} : NextCanonical (execRmaWrite i r mismatch s) :=
  .next (h.boundRmaOp (fun h => h.doWork))

theorem execRmaRead (h : s.Canonical) {i r mismatch} : NextCanonical (execRmaRead i r mismatch s) := by
  refine .next ?_
  split
  exacts [.ite h (h.boundRmaOp (fun h => h.doWork)), h.boundRmaOp (fun h => h.doWork)]

theorem toRtr (h : s.Canonical) {o n d} : (s.toRtr o n d).Canonical :=
  .ite h.complete (.ite h.complete h.setQp.sendAhead)

theorem toRts (h : s.Canonical) {o n d} : (s.toRts o n d).Canonical :=
  .ite h.complete h.setQp.setRate.setFld.setFld.complete.goBack

theorem doModify (h : s.Canonical) {o n d} : (s.doModify o n d).Canonical := by
  unfold State.doModify
  dsimp only
  split
  · exact .ite h.qpReset.complete h.complete
  · exact .ite h.qpError.complete h.complete
  · exact .ite h.setFld.complete h.complete
  · exact .ite h.complete h.toRtr
  · exact h.toRts
  · exact h.complete

theorem execQpModify (h : s.Canonical) {i r} : NextCanonical (execQpModify i r s) :=
  .next (h.rmaOp (fun h => h.doModify))

theorem execPeerResolveTimeout (h : s.Canonical) {q} : NextCanonical (execPeerResolveTimeout q s) := by
  refine .next ?_
  split
  exacts [h, h.setQp.complete]

theorem doReg (h : s.Canonical) {o x d} : (s.doReg o x d).Canonical := by
  unfold State.doReg
  extract_lets a n owned
  refine .ite h.complete (.ite h.complete ?_)
  split
  · next e => exact (h.register.of_snd_eq e).complete
  · next e => exact (h.register.of_snd_eq e).complete

theorem execReg (h : s.Canonical) {i r} : NextCanonical (execReg i r s) := .next (h.boundRmaOp (fun h => h.doReg))

theorem doDereg (h : s.Canonical) {o x d} : (s.doDereg o x d).Canonical := by
  unfold State.doDereg
  dsimp only
  split
  exacts [h.complete, .ite h.complete h.withRma.complete]

theorem execDereg (h : s.Canonical) {i r} : NextCanonical (execDereg i r s) := .next (h.rmaOp (fun h => h.doDereg))

theorem doSeal (h : s.Canonical) {o n d} : (s.doSeal o n d).Canonical := by
  refine .ite h.complete ?_
  split
  exacts [h.complete, h.violate.complete, h.setQp.setFlag.complete]

theorem execQpSeal (h : s.Canonical) {i r} : NextCanonical (execQpSeal i r s) :=
  .next (h.boundRmaOp (fun h => h.doSeal))

theorem doAttach (h : s.Canonical) {o n d} : (s.doAttach o n d).Canonical := by
  unfold State.doAttach
  extract_lets log2
  refine .ite h.complete ?_
  split
  · exact h.violate.complete
  · split
    · next e => exact (h.register.of_snd_eq e).complete
    · next e =>
      have ht := h.register.of_snd_eq e
      exact ((State.Canonical.others ht).putQp (n := n) (fun a ha => by cases ha; rfl)).setFlag.complete

theorem execAttach (h : s.Canonical) {i r} : NextCanonical (execAttach i r s) :=
  .next (h.boundRmaOp (fun h => h.doAttach))

theorem congested (h : s.Canonical) {n ce} : (s.congested n ce).Canonical := .ite h.setQp.sendRoce h

theorem openSeal (h : s.Canonical) {n p} : (s.openSeal n p).2.Canonical := by
  unfold State.openSeal
  split
  exacts [.ite_snd h h.useKey, h]

theorem failRead (h : s.Canonical) {n p} : (s.failRead n p).Canonical := .ite h.failAt h

theorem of_takeRma (h : s.Canonical) {p t} (e : s.takeRma p = some t) : t.Canonical := by
  obtain ⟨k, -, hk⟩ := List.exists_of_findSome?_eq_some e
  obtain ⟨u, -, rfl⟩ := Option.map_eq_some_iff.1 hk
  exact h.setPort

theorem rxPacket (h : s.Canonical) {p body} (hbody : ∀ {t a b}, t.Canonical → (body t a b).Canonical) :
    (s.rxPacket p body).Canonical := by
  unfold State.rxPacket
  split
  · exact h
  · next e =>
    have ht := h.of_takeRma e
    refine .ite ht.count (.ite ht.count (.ite ht.failRead (.ite ht.cipherMismatch.failRead ?_)))
    split
    · next e => exact (ht.openSeal.of_snd_eq e).count
    · next e => exact hbody (ht.openSeal.of_snd_eq e)

theorem inOrder (h : s.Canonical) {n psn duplicate body} (hduplicate : ∀ {t}, t.Canonical → (duplicate t).Canonical)
    (hbody : ∀ {t}, t.Canonical → (body t).Canonical) : (s.inOrder n psn duplicate body).Canonical :=
  .ite (hbody h.setQp) (.ite (hduplicate h) (.ite h h.setQp.sendAck))

theorem peerStore (h : s.Canonical) {n i a bs} : (s.peerStore n i a bs).2.Canonical :=
  .ite_snd h (.ite_snd h h.devWrite)

theorem peerWrite (h : s.Canonical) {n i rkey a bs} : (s.peerWrite n i rkey a bs).2.Canonical := by
  unfold State.peerWrite
  split
  · next w hw =>
    refine .ite_snd (h.putQp (n := n) (fun b hb => ?_)) h.peerStore
    cases hb
    exact Attach.wf_put (h.qp n w hw) a bs
  · exact h.peerStore

theorem ackDue (h : s.Canonical) {n psn ackReq} : (s.ackDue n psn ackReq).Canonical := .ite h.sendAck h.setQp

theorem runWrite (h : s.Canonical) {n p} : (s.runWrite n p).Canonical := by
  unfold State.runWrite
  extract_lets x psn i op opens closes
  split
  extract_lets k
  refine .ite h.refusePeer ?_
  split
  · exact h.refusePeer
  · split
    · exact h.refusePeer
    · split
      · next e => exact (h.peerWrite.of_snd_eq e).refusePeer
      · next e =>
        have ht := h.peerWrite.of_snd_eq e
        exact (ht.putQp (ht.qp n).others).ackDue.rejectPeers.flushPeer

theorem execRdmaWritePacket (h : s.Canonical) {p} : NextCanonical (execRdmaWritePacket p s) :=
  .next (.ite h (h.rxPacket (fun h => h.congested.inOrder (fun h => h.sendAck) (fun h => h.runWrite))))

theorem sendResponse (h : s.Canonical) {n psn data} : (s.sendResponse n psn data).Canonical :=
  .foldl h (fun h _ => h.sendRoce)

theorem runRead (h : s.Canonical) {n p fresh} : (s.runRead n p fresh).Canonical := by
  refine .ite h.refusePeer ?_
  split
  · exact h.refusePeer
  · exact .ite h.refusePeer (.ite h.refusePeer (.ite h.devRead.refusePeer (.sendResponse (.ite h.devRead.setQp
      h.devRead))))

theorem execRdmaReadRequest (h : s.Canonical) {p} : NextCanonical (execRdmaReadRequest p s) :=
  .next (.ite h (h.rxPacket (fun h => h.congested.inOrder (fun h => h.runRead) (fun h => h.runRead))))

theorem execRdmaReadResponse (h : s.Canonical) {p} : NextCanonical (execRdmaReadResponse p s) := by
  refine .next (.ite h (h.rxPacket (fun h => ?_)))
  dsimp only
  split
  · exact h.congested
  · exact .ite h.congested (.areaStep (.popWqes (.ackTo (.setQp (.violateIf (.ite_snd h.congested.arrive (.ite_snd
      h.congested.devWrite h.congested.hostWrite)))))))

theorem execAcknowledge (h : s.Canonical) {p} : NextCanonical (execAcknowledge p s) :=
  .next (.ite h (h.rxPacket (fun h => .ite h.ackTo.areaStep.flushPeer h)))

theorem sendAgain (h : s.Canonical) {n} : (s.sendAgain n).Canonical := .ite h.failOldest.settleTake h.goBack

theorem takeOver (h : s.Canonical) {n status} : (s.takeOver n status).Canonical := .ite h.loseTake h

theorem execNakReceived (h : s.Canonical) {p} : NextCanonical (execNakReceived p s) :=
  .next (.ite h (h.rxPacket (fun h => .ite h (.ite h.setFld.ackTo.areaStep.sendAgain
    h.setFld.ackTo.areaStep.takeOver.failAt.settleTake))))

theorem execCnpReceived (h : s.Canonical) {p} : NextCanonical (execCnpReceived p s) :=
  .next (.ite h (h.rxPacket (fun h => h.setQp.setRate)))

theorem execRetransmitTimeout (h : s.Canonical) {q} : NextCanonical (execRetransmitTimeout q s) :=
  .next (.ite h (.ite h.setFld.takeOver.failOldest.settleTake h.setFld.sendAgain))

theorem execRateDecayTimer (h : s.Canonical) {q} : NextCanonical (execRateDecayTimer q s) := .next (.ite h.setQp h)

theorem execRateIncreaseTimer (h : s.Canonical) {q} : NextCanonical (execRateIncreaseTimer q s) :=
  .next (.ite h.setQp.setRate h)

end State.Canonical

/-! ### Machine/Scrub -/

namespace State.Canonical
variable {s : State}

theorem countLost (h : s.Canonical) : s.countLost.Canonical := h.count.critical

theorem scrubField (h : s.Canonical) {f lost} (hlost : ∀ {t}, t.Canonical → (lost t).Canonical) : (s.scrubField f
    lost).Canonical := by
  unfold State.scrubField
  split
  exacts [h, h.setFld.count, hlost h.setFld.countLost]

theorem scrubBinding (h : s.Canonical) {i} : (s.scrubBinding i).Canonical := by
  unfold State.scrubBinding
  dsimp only
  split
  exacts [h, h.setFn.count, h.countLost.resetInstance]

theorem scrubFence (h : s.Canonical) {p} : (s.scrubFence p).Canonical := by
  unfold State.scrubFence
  dsimp only
  split
  exacts [h, h.setPart.count, h.countLost.fencePart]

theorem scrubEngine (h : s.Canonical) {k} : (s.scrubEngine k).Canonical := by
  unfold State.scrubEngine
  dsimp only
  split
  exacts [h, h.setFence.count, h.countLost.setFence]

theorem scrubFirmware (h : s.Canonical) : s.scrubFirmware.Canonical :=
  .foldl (.foldl (.scrubField (.scrubField (.foldl h (fun h _ => h.scrubField (fun h => h.setTarget))) (fun h =>
    h.dropDebug)) (fun h => h.runUnbind)) (fun h _ => h.scrubFence)) (fun h _ => h.scrubEngine)

theorem execRwtScrub (h : s.Canonical) {v} : NextCanonical (execRwtScrub v s) := by
  refine .next ?_
  dsimp only
  split
  · exact .foldl h (fun h _ => h.scrubField (fun h => h.benchMapOut))
  · exact .ite (h.scrubField (fun h => h.stackMapOut)) (.ite (.foldl h (fun h _ => h.scrubBinding)) (.ite (.foldl h
      (fun h _ => h.scrubField (fun h => h.applyLanes))) (.ite (.foldl h (fun h _ => h.scrubField (fun h =>
      h.linkMapOut))) (.ite (.foldl h (fun h _ => h.scrubField (fun h => h.channelMapOut))) (.ite h.scrubFirmware
      (.ite (.foldl h (fun h _ => (h.scrubField (fun h => h.powerValley)).scrubField (fun h => h))) h))))))

end State.Canonical

/-! ### Machine/Security -/

namespace State.Canonical
variable {s : State}

theorem secDone (h : s.Canonical) {status} : (s.secDone status).Canonical := h.setRequest.setFld
theorem execArm (h : s.Canonical) : NextCanonical (execArm s) := .next (.ite (.ite h.setSecState.secDone h.secDone) h)

theorem execDisarm (h : s.Canonical) : NextCanonical (execDisarm s) :=
  .next (.ite (.ite h.setSecState.secDone h.secDone) h)

theorem acceptUnbind (h : s.Canonical) {reply steps} : (s.acceptUnbind reply steps).Canonical :=
  h.fenceAll.settleLevels.startWork

theorem execSecCtrlUnbind (h : s.Canonical) {steps} : NextCanonical (execSecCtrlUnbind steps s) :=
  .next (.ite (.ite h.setRequest.acceptUnbind h.secDone) h)

theorem renewNonce (h : s.Canonical) : s.renewNonce.Canonical := .foldl h.bumpFree (fun h _ => h.setFld)

theorem execDebugTicket (h : s.Canonical) : NextCanonical (execDebugTicket s) := by
  refine .next (.ite ?_ h)
  dsimp only
  split
  exacts [h.renewNonce.secDone, h.beginDebug.renewNonce.secDone]

theorem execDebugLock (h : s.Canonical) : NextCanonical (execDebugLock s) := .next (.ite h.endDebug.secDone h)

theorem execDebugRightsExpiry (h : s.Canonical) : NextCanonical (execDebugRightsExpiry s) := .next (.ite h.endDebug h)

theorem spdmError (h : s.Canonical) {i code} : (s.spdmError i code).Canonical := h.answer

theorem inSession (h : s.Canonical) {n body} (hbody : ∀ {t a}, t.Canonical → (body t a).Canonical) : (s.inSession n
    body).Canonical :=
  .ite h.retryConfig (.ite h (.ite (hbody h) h.spdmError))

theorem vendorMessage (h : s.Canonical) {n vendor body} (hbody : ∀ {t a}, t.Canonical → (body t a).Canonical) :
    (s.vendorMessage n vendor body).Canonical :=
  h.inSession (fun h => .ite (hbody h) h.spdmError)

theorem execBindNonce (h : s.Canonical) {n vendor} : NextCanonical (execBindNonce n vendor s) :=
  .next (h.vendorMessage (fun h => h.bumpFree.setSession.vendorAnswer))

theorem execBind (h : s.Canonical) {n vendor req steps} : NextCanonical (execBind n vendor req steps s) := by
  refine .next (h.vendorMessage (fun h => ?_))
  split
  exacts [h.vendorAnswer, h.startWork]

theorem execUnbind (h : s.Canonical) {n vendor sig nonce steps} : NextCanonical (execUnbind n vendor sig nonce steps
    s) := by
  refine .next (h.vendorMessage (fun h => ?_))
  split
  exacts [h.vendorAnswer, h.acceptUnbind]

end State.Canonical

/-! ### Machine/Spdm -/

namespace State.Canonical
variable {s : State}

theorem setNegotiated (h : s.Canonical) {i x} : (s.setNegotiated i x).Canonical := h.others

theorem onMailbox (h : s.Canonical) {i reached body} (hbody : ∀ {t}, t.Canonical → (body t).Canonical) : (s.onMailbox
    i reached body).Canonical :=
  .ite h.retryConfig (.ite h (.ite (hbody h) h.spdmError))

theorem answerFree (h : s.Canonical) {i code bytes n} : (s.answerFree i code bytes n).Canonical := h.bumpFree.answer

theorem execGetVersion (h : s.Canonical) {i} : NextCanonical (execGetVersion i s) :=
  .next (h.onMailbox (fun h => h.setNegotiated.answer))

theorem execGetCapabilities (h : s.Canonical) {i unsupported} : NextCanonical (execGetCapabilities i unsupported s)
    :=
  .next (h.onMailbox (fun h => .ite h.spdmError h.setNegotiated.answer))

theorem execNegotiateAlgorithms (h : s.Canonical) {i offered} : NextCanonical (execNegotiateAlgorithms i offered s)
    :=
  .next (h.onMailbox (fun h => .ite h.setNegotiated.answer h.spdmError))

theorem execGetDigests (h : s.Canonical) {i} : NextCanonical (execGetDigests i s) :=
  .next (h.onMailbox (fun h => h.answer))

theorem execGetCertificate (h : s.Canonical) {i slot} : NextCanonical (execGetCertificate i slot s) :=
  .next (h.onMailbox (fun h => .ite h.answer h.spdmError))

theorem execChallenge (h : s.Canonical) {i slot nonce} : NextCanonical (execChallenge i slot nonce s) :=
  .next (h.onMailbox (fun h => .ite h.answerFree h.spdmError))

theorem execGetMeasurements (h : s.Canonical) {i index} : NextCanonical (execGetMeasurements i index s) :=
  .next (h.onMailbox (fun h => .ite h.answerFree (.ite h.answerFree (.ite h.answerFree h.spdmError))))

theorem execKeyExchange (h : s.Canonical) {i mutualAuth} : NextCanonical (execKeyExchange i mutualAuth s) := by
  refine .next (h.onMailbox (fun h => .ite h.spdmError ?_))
  split
  exacts [h.spdmError, h.setSession.answerFree]

theorem execFinish (h : s.Canonical) {n ok} : NextCanonical (execFinish n ok s) :=
  .next (.ite h.retryConfig (.ite h (.ite (.ite h.setSession.answer h.closeSession.spdmError) h.spdmError)))

theorem execHeartbeat (h : s.Canonical) {n} : NextCanonical (execHeartbeat n s) :=
  .next (h.inSession (fun h => h.answer))

theorem execKeyUpdate (h : s.Canonical) {n} : NextCanonical (execKeyUpdate n s) :=
  .next (h.inSession (fun h => h.answer))

theorem execEndSession (h : s.Canonical) {n} : NextCanonical (execEndSession n s) :=
  .next (h.inSession (fun h => h.closeSession.answer))

end State.Canonical

/-! ### Machine/TimeEv -/

namespace State.Canonical
variable {s : State}

theorem of_takePtp (h : s.Canonical) {kind p m t} (e : s.takePtp kind p = some (m, t)) : t.Canonical := by
  unfold State.takePtp at e
  extract_lets x mine at e
  split at e
  · cases e
  · obtain ⟨u, -, hu⟩ := Option.bind_eq_some_iff.1 e
    obtain ⟨m', -, hm⟩ := Option.map_eq_some_iff.1 hu
    cases hm
    exact h.setPort

theorem execPtpSync (h : s.Canonical) {p offset} : NextCanonical (execPtpSync p offset s) := by
  refine .next ?_
  split
  · exact h
  · next e => exact (h.of_takePtp e).goodInterval.measure

theorem execPtpAnnounce (h : s.Canonical) {p} : NextCanonical (execPtpAnnounce p s) := by
  refine .next ?_
  split
  · exact h
  · next e =>
    have ht := h.of_takePtp e
    exact .reselect (.ite (State.Canonical.others ht).setFld ht)

theorem execPpsInEdge (h : s.Canonical) {d} : NextCanonical (execPpsInEdge d s) :=
  .next (.ite h.goodInterval.measure h)

theorem execReferenceQualified (h : s.Canonical) {src d} : NextCanonical (execReferenceQualified src d s) :=
  .next (.ite (.ite h.others.selectSource h.others) h)

theorem execReferenceLoss (h : s.Canonical) {src} : NextCanonical (execReferenceLoss src s) :=
  .next (.ite (.ite (.ite h.others.enterHoldover h.others.selectSource) h.others) h)

theorem execHoldoverExpiry (h : s.Canonical) : NextCanonical (execHoldoverExpiry s) :=
  .next (.ite h.passTime.setFld.showError h)

theorem countSecond (h : s.Canonical) : s.countSecond.Canonical := .ite h.logCount.logCount.others h.logCount

theorem rtcTakes (h : s.Canonical) : s.rtcTakes.Canonical := .ite h.others.setFld.setFlag h

theorem pulse (h : s.Canonical) : s.pulse.Canonical := .ite h.emit.emit h

theorem execSecondBoundary (h : s.Canonical) : NextCanonical (execSecondBoundary s) := by
  refine .next (.ite (.ptpBeat (.rtcTakes (.countSecond (.ite h.passTime.setFld.wrapAdd.setFlag ?_)))) h)
  split
  exacts [h.passTime.setFld.wrapAdd.others.showError, h.passTime.setFld.pulse]

theorem execRtcAlarm (h : s.Canonical) : NextCanonical (execRtcAlarm s) := .next (.ite (.wake (.ite h.passTime h)) h)

theorem execSupercapEmpty (h : s.Canonical) : NextCanonical (execSupercapEmpty s) := .next h.others.setFld.setFlag

end State.Canonical

/-! ### Machine/Dispatch -/

namespace State.Canonical
variable {s : State}

theorem exec (h : s.Canonical) (i : Instr) : NextCanonical (exec i s) := by
  cases i
  exacts [
    h.execNop, h.execEndProg, h.execLoop, h.execWaitm, h.execSync, h.execOpenWin, h.execOpenWindowEnd, h.execMmt,
    h.execMms, h.execAclr, h.execAanc, h.execAwb, h.execAexp, h.execAimp, h.execAbias, h.execAsamp, h.execSpre,
    h.execSqnt, h.execSxch, h.execVecAdd, h.execVecSub, h.execVecMul, h.execVecFma, h.execVecDiv, h.execVecSqrt,
    h.execVecMax, h.execVecMin, h.execVecCmp, h.execVecSel, h.execLdf, h.execStf, h.execVecLdb, h.execVecStb,
    h.execVecMove, h.execBcst, h.execVdraw, h.execVred, h.execTrnExp2, h.execTrnExp, h.execTrnLog2, h.execTrnLog,
    h.execTrnRcp, h.execTrnRsqrt, h.execTrnTanh, h.execTrnSinpi, h.execTrnCospi, h.execMns, h.execMhb, h.execMbb,
    h.execMlk, h.execMaxAnchors, h.execMoverTransferDone, h.execCutStart, h.execKerfStart, h.execKerfSeal,
    h.execKerfService, h.execKerfCommit, h.execConfigEpochApply, h.execCutDeadlineExpiry, h.execStretchLatch,
    h.execFlitRelease, h.execFlitLost, h.execLossNoticeReceived, h.execReplayFlitReceived, h.execLinkFailure,
    h.execSealFlitReceived, h.execHaltNoticeReceived, h.execCheckpointNoticeReceived, h.execLinkIdentity,
    h.execMusterRecord, h.execStartRecord, h.execHaltReport, h.execMusterTimeout, h.execRunStart, h.execRefreshStep,
    h.execStackTempRead, h.execSelfRefreshEntry, h.execHbmEccWriteBack, h.execNstEccWriteBack,
    h.execSlotZeroRewriteDone, h.execStackInterfaceFailure, h.execStackMapOutApply, h.execBenchMapOutApply,
    h.execLinkMapOutApply, h.execAluAdd, h.execAluAddc, h.execAluSub, h.execAluSubc, h.execAluAnd, h.execAluOr,
    h.execAluXor, h.execAluNot, h.execAluNeg, h.execAluMin, h.execAluMax, h.execAluCmp, h.execAluMov, h.execAluMul,
    h.execDivs, h.execDivu, h.execRems, h.execRemu, h.execSext, h.execZext, h.execAluImmediate, h.execMovi, h.execShl,
    h.execShr, h.execSar, h.execRol, h.execRor, h.execBitFieldExtract, h.execBitFieldInsert, h.execMac, h.execMsu,
    h.execMacu, h.execMsuu, h.execMulc, h.execAcl, h.execCmov, h.execMvc, h.execMvgc, h.execLdb, h.execLdbu,
    h.execLdh, h.execLdhu, h.execLdw, h.execLdp, h.execLdc, h.execStb, h.execSth, h.execStw, h.execStp, h.execStc,
    h.execPadr, h.execPadd, h.execPsub, h.execPmov, h.execPget, h.execPput, h.execPcmp, h.execBranch, h.execCall,
    h.execCallp, h.execJmp, h.execJmpp, h.execMfs, h.execMts, h.execRet, h.execReti, h.execTrap, h.execFence,
    h.execWait, h.execHalt, h.execRep, h.execRepg, h.execRepn, h.execInterruptAssert, h.execWdtExpiry,
    h.execSystemWindowTimeout, h.execCld, h.execCvec, h.execCtrn, h.execCdraw, h.execCsamp, h.execCrd, h.execCwr,
    h.execCwait, h.execCwb, h.execCmovc, h.execCroute, h.execCsync, h.execCrel, h.execCpxOpComplete, h.execLoad,
    h.execStart, h.execStage, h.execStop, h.execUnload, h.execMuster, h.execDissolve, h.execPageCommit,
    h.execCheckpointTake, h.execManifestCommit, h.execCheckpointRestore, h.execAssign, h.execRelease, h.execGrant,
    h.execRevoke, h.execFreeze, h.execSave, h.execRestoreImage, h.execThaw, h.execMbxSend, h.execRecvBuf,
    h.execManagerMbxSend, h.execInsMbxAck, h.execInsUpdate, h.execDoorbell, h.execQueueReset, h.execDescriptorFetch,
    h.execCompletionWrite, h.execMsixMessage, h.execGlbUpdate, h.execGlbDiscard, h.execGlbCompat, h.execRegisterWrite,
    h.execRwtScrub, h.execDownload, h.execActivate, h.execCommit, h.execAbandon, h.execBoot, h.execArm, h.execDisarm,
    h.execSecCtrlUnbind, h.execDebugTicket, h.execDebugLock, h.execDebugRightsExpiry, h.execBindNonce, h.execBind,
    h.execUnbind, h.execGetVersion, h.execGetCapabilities, h.execNegotiateAlgorithms, h.execGetDigests,
    h.execGetCertificate, h.execChallenge, h.execGetMeasurements, h.execKeyExchange, h.execFinish, h.execHeartbeat,
    h.execKeyUpdate, h.execEndSession, h.execDoeObject, (h.execAtomicopRequest 0), h.execPerstNAssert,
    h.execPerstNDeassert, h.execFlr, h.execManagerFlr, h.execVfEnable, h.execD3hotEntry, h.execLowpowerEntry,
    h.execD0Entry, h.execInstanceD3hot, h.execPmeResend, h.execNsCreate, h.execNsDelete, h.execNsFormat,
    h.execNsFormatDone, h.execSanitize, h.execSanitizeDone, h.execShelfRead, h.execShelfWrite, h.execShelfFlush,
    h.execShelfTrim, h.execShelfStatus, h.execShelfCommandDone, h.execChannelFailure, h.execRebuildDone,
    h.execShelfIdleTimeout, h.execDataRefresh, h.execFrameReceived, h.execSlowPathService, h.execPost, h.execEthSend,
    h.execSetFlowKey, h.execTxFrameStart, h.execFrameTransmitted, h.execPortUp, h.execPortDown, h.execLaneLossOfLock,
    h.execRuleSetCommit, h.execRuleSetSwitch, h.execRmaWrite, h.execRmaRead, h.execQpModify, h.execPeerResolveTimeout,
    h.execReg, h.execDereg, h.execQpSeal, h.execAttach, h.execRdmaWritePacket, h.execRdmaReadRequest,
    h.execRdmaReadResponse, h.execAcknowledge, h.execNakReceived, h.execCnpReceived, h.execRetransmitTimeout,
    h.execRateDecayTimer, h.execRateIncreaseTimer, h.execPtpSync, h.execPtpAnnounce, h.execReferenceLoss,
    h.execReferenceQualified, h.execPpsInEdge, h.execSecondBoundary, h.execHoldoverExpiry, h.execRtcAlarm,
    h.execSupercapEmpty, h.execSensorSample, h.execMctpControl, h.execPldmDiscovery, h.execGetTid,
    h.execSetEventReceiver, h.execGetPdrRepositoryInfo, h.execGetPdr, h.execGetSensorReading,
    h.execSetNumericSensorEnable, h.execGetSensorThresholds, h.execHostAttention, h.execSmbusArbitrationLost,
    h.execSmbusRetry, h.execLogRead, h.execHourlySave, h.execDayBoundary, h.execSlackLow, h.execRcvRequest,
    h.execRcvCopy, h.execLevelTimeout, h.execFenceDrainTimeout, h.execEngineHeartbeatTimeout, h.execPassAckTimeout,
    h.execPwrcycTimeout, h.execPcSample, h.execBypass, h.execIdcode, h.execSamplePreload, h.execDbgreg, h.execExtest,
    h.execAux3v3Apply, h.execAux3v3Loss, h.execP54vApply, h.execP54vLoss, h.execThermalTrip, h.execDovetailLossOfLock,
    h.execDovetailTrainingDone, h.execInstanceD0Entry, h.execVfEnableClear, h.execMsixVectorUnmask,
    h.execPmeStatusClear]

end State.Canonical

/-! ### Machine/Step -/

namespace State.Canonical
variable {s : State}

theorem step (h : s.Canonical) : NextCanonical (Machine.step s) := by
  unfold Machine.step
  split
  · exact .next h.idle
  · exact State.Canonical.exec h.others _

end State.Canonical

/-! ### The obligation -/

/-- Settles O55: every operation writes its memories with `Memory.write` and `Memory.zero` or with a memory it has. -/
theorem everyStepKeepsMemoriesCanonical : Obligations.every_step_keeps_memories_canonical := by
  unfold Obligations.every_step_keeps_memories_canonical
  intro s t hs h
  obtain ⟨u, hu, hc⟩ := hs.step
  cases h.symm.trans hu
  exact hc

end Sys2Proof.Machine
end
section
/-! How a bench operation completes: which parts of the bench it can reach, and the rules for issue, operand reads, windows
and bytes of the store that the statements about benches share (03_benches.md R67 to R103, R542 to R545). -/

namespace Sys2Proof.Machine
open Sys2Proof.Say

/-! ### Benches that differ in place and counters alone -/

/-- Bench z is x but for the sequencer's place and the debug counters. -/
def Bench.Like (x z : Bench) : Prop := ∃ sl lo cs, z = { x with slot := sl, loop := lo, ctrs := cs }

theorem Bench.like_refl (x : Bench) : x.Like x := ⟨_, _, _, rfl⟩

theorem Bench.like_advance (x : Bench) (n : Nat) : x.Like (x.advance n) := by
  obtain ⟨sl, lo, e⟩ := x.advance_form n
  exact ⟨sl, lo, x.ctrs, e⟩

namespace Bench.Like
variable {x z w : Bench}

theorem trans (h : x.Like z) (g : z.Like w) : x.Like w := by
  obtain ⟨sl, lo, cs, rfl⟩ := h
  obtain ⟨sl', lo', cs', rfl⟩ := g
  exact ⟨sl', lo', cs', rfl⟩

theorem vr (h : x.Like z) (r : Nat) : z.vr r = x.vr r := by obtain ⟨_, _, _, rfl⟩ := h; rfl
theorem win (h : x.Like z) (k : Nat) : z.win k = x.win k := by obtain ⟨_, _, _, rfl⟩ := h; rfl
theorem store (h : x.Like z) : z.store = x.store := by obtain ⟨_, _, _, rfl⟩ := h; rfl
theorem prescan (h : x.Like z) : z.prescan = x.prescan := by obtain ⟨_, _, _, rfl⟩ := h; rfl
theorem getWins (h : x.Like z) (f n : Nat) : z.getWins f n = x.getWins f n := by obtain ⟨_, _, _, rfl⟩ := h; rfl
theorem prescans (h : x.Like z) (f n : Nat) : z.prescans f n = x.prescans f n := by obtain ⟨_, _, _, rfl⟩ := h; rfl
theorem operandFault (h : x.Like z) (ls : List Nat) : z.operandFault ls = x.operandFault ls := by
  obtain ⟨_, _, _, rfl⟩ := h; rfl

theorem setVr (h : x.Like z) (d : Nat) (v : List W32) : (x.setVr d v).Like (z.setVr d v) := by
  obtain ⟨_, _, _, rfl⟩ := h; exact ⟨_, _, _, rfl⟩
theorem writeBytes (h : x.Like z) (a : Nat) (bs : List Byte) : (x.writeBytes a bs).Like (z.writeBytes a bs) := by
  obtain ⟨_, _, _, rfl⟩ := h; exact ⟨_, _, _, rfl⟩

end Bench.Like

/-! ### What else an operation can change -/

theorem onlyBench_refl (b : Nat) (s : State) : OnlyBench b s s := ⟨rfl, fun _ _ => rfl⟩

theorem onlyBench_setBench (b : Nat) (s : State) (x : Bench) : OnlyBench b s (s.setBench b x) :=
  ⟨rfl, fun _ h => State.setBench_ne _ _ h⟩

theorem onlyBench_trans {b : Nat} {s t u : State} (h : OnlyBench b s t) (g : OnlyBench b t u) : OnlyBench b s u := by
  obtain ⟨hs, hb⟩ := h
  obtain ⟨gs, gb⟩ := g
  refine ⟨?_, fun c hc => (gb c hc).trans (hb c hc)⟩
  calc { u with benches := s.benches }
      = { ({ u with benches := t.benches } : State) with benches := s.benches } := rfl
    _ = { t with benches := s.benches } := by rw [gs]
    _ = s := hs

theorem State.advance_like (s : State) (b n : Nat) : (s.bench b).Like ((s.advance b n).bench b) := by
  rw [State.advance_bench_self]
  exact (s.bench b).like_advance n

theorem onlyBench_advance (b n : Nat) (s : State) : OnlyBench b s (s.advance b n) := onlyBench_setBench _ _ _

theorem onlyBench_benchCtr (b sub n : Nat) (s : State) : OnlyBench b s (s.benchCtr b sub n) := by
  rcases s.benchCtr_form b sub n with e | ⟨cs, e⟩ <;> rw [e]
  · exact onlyBench_refl b s
  · exact onlyBench_setBench b s _

theorem onlyBench_regs {b : Nat} {s t : State} (h : OnlyBench b s t) : t.regs = s.regs :=
  show ({ t with benches := s.benches } : State).regs = s.regs by rw [h.1]

theorem onlyBench_cluster {b : Nat} {s t : State} (h : OnlyBench b s t) (c : Nat) : t.cluster c = s.cluster c :=
  show ({ t with benches := s.benches } : State).cluster c = s.cluster c by rw [h.1]

theorem onlyBenchEcc_of_onlyBench {b : Nat} {s t : State} (h : OnlyBench b s t) : OnlyBenchEcc b s t := by
  have hr := onlyBench_regs h
  exact ⟨by rw [← hr]; exact h.1, h.2, fun g _ => by simp only [State.fld, hr]⟩

theorem onlyBenchEcc_benchCountRead (b : Nat) (ls : List Nat) (s : State) : OnlyBenchEcc b s (s.benchCountRead b ls) := by
  refine ⟨?_, fun c _ => s.benchCountRead_bench b ls c, fun g hg => s.benchCountRead_fld b ls hg⟩
  obtain ⟨r, e, -⟩ := s.benchCountRead_form b ls
  rw [e]

theorem onlyBenchEcc_trans {b : Nat} {s t u : State} (h : OnlyBenchEcc b s t) (g : OnlyBenchEcc b t u) :
    OnlyBenchEcc b s u := by
  obtain ⟨hs, hb, hf⟩ := h
  obtain ⟨gs, gb, gf⟩ := g
  refine ⟨?_, fun c hc => (gb c hc).trans (hb c hc), fun f hne => (gf f hne).trans (hf f hne)⟩
  calc { u with benches := s.benches, regs := s.regs }
      = { ({ u with benches := t.benches, regs := t.regs } : State) with benches := s.benches, regs := s.regs } := rfl
    _ = { t with benches := s.benches, regs := s.regs } := by rw [gs]
    _ = s := hs

/-! ### Where an operation leaves its bench -/

/-- From s to t bench b has gone over to y, its place and counters apart, and nothing else has changed. -/
structure Goes (b : Nat) (s t : State) (y : Bench) : Prop where
  only : OnlyBench b s t
  bench : y.Like (t.bench b)

/-- The same, where also the error counts of bench b may have advanced (R84). -/
structure GoesEcc (b : Nat) (s t : State) (y : Bench) : Prop where
  only : OnlyBenchEcc b s t
  bench : y.Like (t.bench b)

theorem goes_setBench {s : State} {b : Nat} {y z : Bench} (h : y.Like z) : Goes b s (s.setBench b z) y :=
  ⟨onlyBench_setBench b s z, by rwa [State.setBench_self]⟩

theorem Goes.benchCtr {s t : State} {b : Nat} {y : Bench} (h : Goes b s t y) (sub n : Nat) :
    Goes b s (t.benchCtr b sub n) y := by
  refine ⟨onlyBench_trans h.only (onlyBench_benchCtr b sub n t), h.bench.trans ?_⟩
  obtain ⟨cs, e⟩ := t.benchCtr_bench b sub n
  exact ⟨_, _, cs, e⟩

/-- An operation whose operands are good passes on and takes effect (R96, R542). -/
theorem State.seq_good {s : State} {b : Nat} {op : SeqOp} {i : SeqWords} {x1 x2 : Slot} (h : Ready s b op i x1 x2)
    (body : State → State) : s.seq b op i x1 x2 body = body (s.advance b (1 + op.ext)) := by
  rw [State.seq, h.2, State.issue_good _ _ _ _ h.1]

section
variable {s : State} {b : Nat} {op : SeqOp} {i : SeqWords} {x1 x2 : Slot} {y : Bench}

theorem goes_seq {body : State → State} (hr : Ready s b op i x1 x2)
    (h : ∀ u, (s.bench b).Like (u.bench b) → Goes b u (body u) y) : Goes b s (s.seq b op i x1 x2 body) y := by
  rw [State.seq_good hr]
  obtain ⟨only, bench⟩ := h (s.advance b (1 + op.ext)) (s.advance_like b _)
  exact ⟨onlyBench_trans (onlyBench_advance b _ s) only, bench⟩

/-- With clean operand lines the body takes effect once the bench has passed on and its errors are counted (R84). -/
theorem State.seq_withLines_good {body : State → State} {ls : List Nat} (hr : Ready s b op i x1 x2)
    (hc : (s.bench b).operandFault ls = none) :
    s.seq b op i x1 x2 (fun s => s.withLines b ls body) = body ((s.advance b (1 + op.ext)).benchCountRead b ls) := by
  have like := s.advance_like b (1 + op.ext)
  rw [State.seq_good hr, State.withLines_clean _ _ _ _ (by rw [like.operandFault, hc])]

theorem onlyBenchEcc_issue (b n : Nat) (ls : List Nat) (s : State) :
    OnlyBenchEcc b s ((s.advance b n).benchCountRead b ls) :=
  onlyBenchEcc_trans (onlyBenchEcc_of_onlyBench (onlyBench_advance b n s)) (onlyBenchEcc_benchCountRead b ls _)

theorem like_issue (b n : Nat) (ls : List Nat) (s : State) :
    (s.bench b).Like (((s.advance b n).benchCountRead b ls).bench b) := by
  rw [State.benchCountRead_bench]
  exact s.advance_like b n

/-- An operation with operand lines that hold no error (R84). -/
theorem goesEcc_seq_withLines {body : State → State} {ls : List Nat} (hr : Ready s b op i x1 x2)
    (hc : (s.bench b).operandFault ls = none) (h : ∀ u, (s.bench b).Like (u.bench b) → Goes b u (body u) y) :
    GoesEcc b s (s.seq b op i x1 x2 (fun s => s.withLines b ls body)) y := by
  rw [State.seq_withLines_good hr hc]
  obtain ⟨only, bench⟩ := h _ (like_issue b (1 + op.ext) ls s)
  exact ⟨onlyBenchEcc_trans (onlyBenchEcc_issue b _ ls s) (onlyBenchEcc_of_onlyBench only), bench⟩

/-- An operation on n bytes of the store that hold no error (R84). -/
theorem goesEcc_seq_withOperand {body : List Byte → State → State} {a n : Nat} (hr : Ready s b op i x1 x2)
    (hc : Clean s b a n)
    (h : ∀ u, (s.bench b).Like (u.bench b) → Goes b u (body (Memory.read (s.bench b).store a n) u) y) :
    GoesEcc b s (s.seq b op i x1 x2 (fun s => s.withOperand b a n body)) y := by
  have like := s.advance_like b (1 + op.ext)
  have clean : ((s.advance b (1 + op.ext)).bench b).operandFault (if n = 0 then [] else linesOf a n) = none := by
    split
    · rfl
    · rw [like.operandFault, hc]
  rw [State.seq_good hr]
  simp only [State.withOperand, clean, State.benchCountRead_bench, like.store]
  obtain ⟨only, bench⟩ := h _ (like_issue b (1 + op.ext) (linesOf a n) s)
  exact ⟨onlyBenchEcc_trans (onlyBenchEcc_issue b _ _ s) (onlyBenchEcc_of_onlyBench only), bench⟩
end

/-! ### Vector registers -/

@[simp] theorem Bench.vr_setVr (x : Bench) (d q : Nat) (v : List W32) :
    (x.setVr d v).vr q = if q = d then v else x.vr q := Tab.get_set _ _ _ _ _

theorem vecFrame_of_like {s t : State} {b d : Nat} {v : List W32} (h : ((s.bench b).setVr d v).Like (t.bench b)) :
    VecFrame s b [d] t := by
  refine ⟨?_, fun q hq => ?_⟩
  · obtain ⟨sl, lo, cs, e⟩ := h
    exact ⟨_, sl, lo, cs, e⟩
  · rw [h.vr, Bench.vr_setVr, if_neg (by simpa using hq)]

theorem lane_of_like {s t : State} {b d l : Nat} {v : List W32} (h : ((s.bench b).setVr d v).Like (t.bench b)) :
    lane t b d l = v.getD l 0 := by
  rw [lane, h.vr, Bench.vr_setVr, if_pos rfl]

end Sys2Proof.Machine
end
section
/-! The vector operations on registers and the TRN primitives (03_benches.md R545, R81; 02_arithmetic.md R59). -/

namespace Sys2Proof.Machine
open Sys2Proof.Say

section
variable {c : Instr} {s : State} {b n : Nat} {i : SeqWords}

/-- An operation that is vec3 of f gives each lane of vd as f of the lanes of its operands. -/
theorem lanes_of_vec3 {op : Nat} {f : W32 → W32 → W32 → W32} (hc : exec c s = .next (s.vec3 b op i f))
    (hr : Ready s b (.vec op) i 0 0) : Lanes c s b i f := by
  intro h1 h2 h3
  have goes : Goes b s (s.vec3 b op i f) _ := goes_seq hr fun u hu => by
    simp only [hu.vr]
    exact (goes_setBench (hu.setVr i.vd _)).benchCtr 6 1
  refine ⟨_, hc, fun l hl => ?_, vecFrame_of_like goes.bench, goes.only⟩
  rw [lane_of_like goes.bench]
  simp [lane, List.getD_eq_getElem?_getD, h1, h2, h3, hl]

/-- A primitive gives each lane of vd from the lane of vs1. -/
theorem trn_of_trn (hc : exec c s = .next (s.trn b n i)) : Trn c s b n i := by
  intro hr h1
  have goes : Goes b s (s.trn b n i) _ := goes_seq hr fun u hu => by
    simp only [hu.vr]
    exact (goes_setBench (hu.setVr i.vd _)).benchCtr 6 1
  refine ⟨_, hc, fun l hl => ?_, vecFrame_of_like goes.bench, goes.only⟩
  rw [lane_of_like goes.bench]
  simp [lane, h1, hl]

end

/-- Settles O1: each form is its function under the one lane rule of its class. -/
theorem vectorOperationsAndPrimitivesByLane : Obligations.vector_operations_and_primitives_by_lane :=
  ⟨fun _ _ _ => ⟨lanes_of_vec3 rfl, lanes_of_vec3 rfl, lanes_of_vec3 rfl, lanes_of_vec3 rfl, lanes_of_vec3 rfl,
      lanes_of_vec3 rfl, lanes_of_vec3 rfl, lanes_of_vec3 rfl, lanes_of_vec3 rfl, lanes_of_vec3 rfl,
      lanes_of_vec3 rfl, lanes_of_vec3 rfl⟩,
    fun _ _ _ => ⟨trn_of_trn rfl, trn_of_trn rfl, trn_of_trn rfl, trn_of_trn rfl, trn_of_trn rfl, trn_of_trn rfl,
      trn_of_trn rfl, trn_of_trn rfl, trn_of_trn rfl⟩⟩

end Sys2Proof.Machine
end
section
/-! Bytes of a store and windows of a bench: what is read back after an operation has written them (03_benches.md R71,
R73, R82). -/

namespace Sys2Proof.Machine
open Sys2Proof.Say

/-! ### Numbers and bytes of a memory -/

theorem Memory.take_drop_read (m : Memory) (a : Nat) {n o k : Nat} (h : o + k ≤ n) :
    ((Memory.read m a n).drop o).take k = Memory.read m (a + o) k := by
  apply List.ext_getElem (by simp; omega)
  intro j _ _
  simp [Memory.getElem_read, Nat.add_assoc]

theorem Memory.fieldLE_read (m : Memory) (a : Nat) {n o k : Nat} (h : o + k ≤ n) :
    fieldLE (Memory.read m a n) o k = Memory.readLE m (a + o) k := by
  rw [fieldLE, Memory.take_drop_read m a h, Memory.readLE]

theorem Memory.words32_read (m : Memory) (a : Nat) {n k : Nat} (h : 4 * k ≤ n) :
    words32 (Memory.read m a n) k = (List.range k).map (fun j => BitVec.ofNat 32 (Memory.readLE m (a + 4 * j) 4)) := by
  refine List.map_congr_left fun j hj => ?_
  rw [Memory.fieldLE_read m a (by have := List.mem_range.mp hj; omega)]

theorem Memory.read_write_inside (m : Memory) (a : Nat) (bs : List Byte) {o k : Nat} (h : o + k ≤ bs.length) :
    Memory.read (Memory.write m a bs) (a + o) k = (bs.drop o).take k := by
  apply List.ext_getElem (by simp; omega)
  intro j h1 _
  have hj : o + j < bs.length := by simp at h1; omega
  rw [Memory.getElem_read, Nat.add_assoc, Memory.byte_write_inside _ _ _ _ hj]
  simp

section
variable {α : Type} {f : α → List Byte} {k : Nat} (hf : ∀ x, (f x).length = k)
include hf

theorem length_flatMap_const (xs : List α) : (xs.flatMap f).length = k * xs.length := by
  induction xs with
  | nil => simp
  | cons x xs ih => simp [ih, hf, Nat.mul_add, Nat.add_comm]

/-- Piece j of pieces of k bytes one behind the other. -/
theorem take_drop_flatMap (xs : List α) {j : Nat} (hj : j < xs.length) :
    ((xs.flatMap f).drop (k * j)).take k = f xs[j] := by
  induction xs generalizing j with
  | nil => simp at hj
  | cons x xs ih =>
    cases j with
    | zero => simp [hf]
    | succ j =>
      rw [List.flatMap_cons, Nat.mul_succ, Nat.add_comm, List.drop_append, List.drop_eq_nil_of_le (by simp [hf]), hf]
      simpa using ih (by simpa using hj)

theorem Memory.read_write_flatMap (m : Memory) (a : Nat) (xs : List α) {j : Nat} (hj : j < xs.length) :
    Memory.read (Memory.write m a (xs.flatMap f)) (a + k * j) k = f xs[j] := by
  rw [Memory.read_write_inside, take_drop_flatMap hf xs hj]
  rw [length_flatMap_const hf]
  calc k * j + k = k * (j + 1) := rfl
    _ ≤ k * xs.length := Nat.mul_le_mul_left k hj
end

/-! ### Bytes that an operation stores -/

section
variable {s t : State} {b a n : Nat} {bs : List Byte}

theorem store_of_like (h : ((s.bench b).writeBytes a bs).Like (t.bench b)) :
    (t.bench b).store = Memory.write (s.bench b).store a bs := h.store

theorem storeFrame_of_like (h : ((s.bench b).writeBytes a bs).Like (t.bench b)) : StoreFrame s b t := by
  obtain ⟨sl, lo, cs, e⟩ := h
  exact ⟨_, _, _, _, sl, lo, cs, e⟩

theorem storeOutside_of_like (h : ((s.bench b).writeBytes a bs).Like (t.bench b)) (hn : bs.length = n) :
    StoreOutside s b a n t := fun k hk => by
  rw [store_of_like h, Memory.byte_write_outside _ _ _ _ (by rwa [hn])]

/-- Number j of k-byte numbers stored one behind the other. -/
theorem num_of_like {α : Type} {k j : Nat} {xs : List α} {f : α → Nat}
    (h : ((s.bench b).writeBytes a (xs.flatMap (fun v => leBytes k (f v)))).Like (t.bench b)) (hj : j < xs.length) :
    num t b (a + k * j) k = f xs[j] % 256 ^ k := by
  rw [num, store_of_like h, Memory.readLE, Memory.read_write_flatMap (fun v => length_leBytes k (f v)) _ _ _ hj,
    leNat_leBytes]
/-- Numbers of k bytes that an operation has stored one behind the other. -/
theorem stored_numbers {α : Type} {k : Nat} {xs : List α} {f : α → Nat}
    (h : Goes b s t ((s.bench b).writeBytes a (xs.flatMap (fun v => leBytes k (f v))))) :
    (∀ j, (hj : j < xs.length) → num t b (a + k * j) k = f xs[j] % 256 ^ k) ∧ StoreOutside s b a (k * xs.length) t
      ∧ StoreFrame s b t ∧ OnlyBench b s t :=
  ⟨fun _ hj => num_of_like h.bench hj,
    storeOutside_of_like h.bench (length_flatMap_const (fun _ => length_leBytes _ _) xs), storeFrame_of_like h.bench,
    h.only⟩
end

/-! ### Windows -/

theorem Bench.setWins_form (x : Bench) (n : Nat) (ws : List Window) : ∃ w, x.setWins n ws = { x with wins := w } := by
  induction ws generalizing x n with
  | nil => exact ⟨_, rfl⟩
  | cons v vs ih =>
    obtain ⟨w, e⟩ := ih { x with wins := Tab.set Window.clear x.wins n v } (n + 1)
    exact ⟨w, e⟩

theorem Bench.Like.setWins {x z : Bench} (h : x.Like z) (n : Nat) (ws : List Window) :
    (x.setWins n ws).Like (z.setWins n ws) := by
  induction ws generalizing x z n with
  | nil => exact h
  | cons v vs ih =>
    refine ih ?_ (n + 1)
    obtain ⟨_, _, _, rfl⟩ := h
    exact ⟨_, _, _, rfl⟩

theorem Bench.win_setWins_outside (x : Bench) {n k : Nat} (ws : List Window) (h : k < n ∨ n + ws.length ≤ k) :
    (x.setWins n ws).win k = x.win k := by
  induction ws generalizing x n with
  | nil => rfl
  | cons v vs ih =>
    rw [Bench.setWins, ih _ (by simp at h; omega)]
    exact Tab.get_set_ne _ _ _ (by simp at h; omega)

theorem Bench.win_setWins_inside (x : Bench) (n : Nat) {j : Nat} (ws : List Window) (h : j < ws.length) :
    (x.setWins n ws).win (n + j) = ws[j] := by
  induction ws generalizing x n j with
  | nil => simp at h
  | cons v vs ih =>
    rw [Bench.setWins]
    cases j with
    | zero =>
      rw [Bench.win_setWins_outside _ _ (by omega)]
      exact Tab.get_set_self _ _ _ _
    | succ j =>
      rw [show n + (j + 1) = n + 1 + j by omega, ih _ _ (by simpa using h), List.getElem_cons_succ]

@[simp] theorem Bench.length_getWins (x : Bench) (f n : Nat) : (x.getWins f n).length = n := by simp [Bench.getWins]

@[simp] theorem Bench.getElem_getWins (x : Bench) (f n j : Nat) (h : j < (x.getWins f n).length) :
    (x.getWins f n)[j] = x.win (f + j) := by simp [Bench.getWins]

section
variable {s t : State} {b f n : Nat} {ws : List Window}

theorem winFrame_of_like (h : ((s.bench b).setWins f ws).Like (t.bench b)) (hn : ws.length = n) : WinFrame s b f n t := by
  refine ⟨?_, fun k hk => ?_⟩
  · obtain ⟨w, e⟩ := (s.bench b).setWins_form f ws
    obtain ⟨sl, lo, cs, h⟩ := h
    exact ⟨w, sl, lo, cs, by rw [h, e]⟩
  · rw [h.win, Bench.win_setWins_outside _ _ (by rwa [hn])]

theorem win_of_like {j : Nat} (h : ((s.bench b).setWins f ws).Like (t.bench b)) (hj : j < ws.length) :
    (t.bench b).win (f + j) = ws[j] := by
  rw [h.win, Bench.win_setWins_inside _ _ _ hj]
end

/-- The windows from f on after the term lists ts. -/
def Bench.addedWins (x : Bench) (f : Nat) (ts : List (List Term)) : List Window :=
  (List.range ts.length).map (fun j => ((x.win (f + j)).addTerms (ts.getD j [])).1)

@[simp] theorem Bench.length_addedWins (x : Bench) (f : Nat) (ts : List (List Term)) :
    (x.addedWins f ts).length = ts.length := by simp [Bench.addedWins]

@[simp] theorem Bench.getElem_addedWins (x : Bench) (f j : Nat) (ts : List (List Term)) (h : j < (x.addedWins f ts).length) :
    (x.addedWins f ts)[j] = ((x.win (f + j)).addTerms (ts.getD j [])).1 := by simp [Bench.addedWins]

/-- No term of ts breaks the anchor rule of R75 in the windows from f on. -/
def Bench.Fits (x : Bench) (f : Nat) (ts : List (List Term)) : Prop :=
  ∀ j, j < ts.length → ((x.win (f + j)).addTerms (ts.getD j [])).2 = false

theorem Bench.addAll_fits {x : Bench} {f : Nat} {ts : List (List Term)} (h : x.Fits f ts) :
    addAll (x.getWins f ts.length) ts = some (x.addedWins f ts) := by
  have e : List.zipWith (fun w t => w.addTerms t) (x.getWins f ts.length) ts =
      (List.range ts.length).map (fun j => (x.win (f + j)).addTerms (ts.getD j [])) := by
    apply List.ext_getElem (by simp)
    intro j hj _
    simp only [List.length_zipWith, Bench.length_getWins, Nat.min_self] at hj
    simp [hj]
  have quiet : ((List.range ts.length).map (fun j => (x.win (f + j)).addTerms (ts.getD j []))).any (·.2) = false := by
    simpa [Bench.Fits] using h
  rw [addAll, e, quiet]
  simp [Bench.addedWins]

theorem goes_accumulate {x : Bench} {u : State} {b f : Nat} {ts : List (List Term)} (hu : x.Like (u.bench b))
    (h : x.Fits f ts) : Goes b u (u.accumulate b f ts) (x.setWins f (x.addedWins f ts)) := by
  simp only [State.accumulate, hu.getWins, Bench.addAll_fits h]
  exact goes_setBench (hu.setWins f _)

end Sys2Proof.Machine
end
section
/-! Vector loads, stores, draws and reductions (03_benches.md R545, R55; 02_arithmetic.md R61). -/

namespace Sys2Proof.Machine
open Sys2Proof.Say

section
variable {s : State} {b : BenchId} {i : SeqWords}

theorem ldf_goes (hr : Ready s b (.vec 0x0A) i 0 0) (hc : Clean s b (64 * i.fa 0 16) 2048) :
    Does (.ldf b i) s (fun t => GoesEcc b s t
      ((s.bench b).setVr i.vd (words32 (Memory.read (s.bench b).store (64 * i.fa 0 16) 2048) 512))) :=
  ⟨_, rfl, goesEcc_seq_withOperand hr hc fun _ hu => (goes_setBench (hu.setVr i.vd _)).benchCtr 6 1⟩

theorem stf_goes (hr : Ready s b (.vec 0x0B) i 0 0) :
    Does (.stf b i) s (fun t => Goes b s t ((s.bench b).writeBytes (64 * i.fa 0 16)
      (((s.bench b).vr i.vs1).flatMap (fun v => leBytes 4 v.toNat)))) :=
  ⟨_, rfl, goes_seq hr fun _ hu => by
    simp only [hu.vr]
    exact (goes_setBench (hu.writeBytes _ _)).benchCtr 6 1⟩

theorem vecLdb_goes (hr : Ready s b (.vec 0x0C) i 0 0) (hc : Clean s b (64 * i.fa 0 16) 1024) :
    Does (.vecLdb b i) s (fun t => GoesEcc b s t ((s.bench b).setVr i.vd ((List.range 512).map (fun j =>
      Fp.ofBf16 (fieldLE (Memory.read (s.bench b).store (64 * i.fa 0 16) 1024) (2 * j) 2))))) :=
  ⟨_, rfl, goesEcc_seq_withOperand hr hc fun _ hu => (goes_setBench (hu.setVr i.vd _)).benchCtr 6 1⟩

theorem vecStb_goes (hr : Ready s b (.vec 0x0D) i 0 0) :
    Does (.vecStb b i) s (fun t => Goes b s t ((s.bench b).writeBytes (64 * i.fa 0 16)
      (((s.bench b).vr i.vs1).flatMap (fun v => leBytes 2 (Fp.toBf16 v))))) :=
  ⟨_, rfl, goes_seq hr fun _ hu => by
    simp only [hu.vr]
    exact (goes_setBench (hu.writeBytes _ _)).benchCtr 6 1⟩

/-- The random words of a VDRAW with the record r. -/
def drawWords (i : SeqWords) (r : List Byte) : List W64 :=
  (List.range 512).map (fun l => draw (BitVec.ofNat 64 (fieldLE r 0 8)) (BitVec.ofNat 32 (fieldLE r 8 4))
    (BitVec.ofNat 32 (fieldLE r 12 4)) (i.b + BitVec.ofNat 32 l))

theorem vdraw_goes (hr : Ready s b .vdraw i 0 0) (hc : Clean s b (64 * i.fa 0 16) 16) :
    Does (.vdraw b i) s (fun t =>
      let ds := drawWords i (Memory.read (s.bench b).store (64 * i.fa 0 16) 16)
      GoesEcc b s t (((s.bench b).setVr i.vd (ds.map (fun (d : W64) => d.setWidth 32))).setVr (i.vd + 1)
        (ds.map (fun (d : W64) => (d >>> 32).setWidth 32)))) :=
  ⟨_, rfl, goesEcc_seq_withOperand hr hc fun _ hu => (goes_setBench ((hu.setVr _ _).setVr _ _)).benchCtr 6 1⟩

/-- The terms of a VRED: products of two registers, or with c[23] single values of one. -/
def vredTerms (x : Bench) (i : SeqWords) : List Term :=
  if bitOf i.c.toNat 23 then (x.vr i.vs1).map singleTerm else List.zipWith fp32Term (x.vr i.vs1) (x.vr i.vs2)

theorem vred_goes (hr : Ready s b .vred i 0 0)
    (h : (((s.bench b).win (1024 * i.fc 24 2 + i.fb 0 10)).addTerms (vredTerms (s.bench b) i)).2 = false) :
    Does (.vred b i) s (fun t => Goes b s t ((s.bench b).setWins (1024 * i.fc 24 2 + i.fb 0 10)
      ((s.bench b).addedWins (1024 * i.fc 24 2 + i.fb 0 10) [vredTerms (s.bench b) i]))) :=
  ⟨_, rfl, goes_seq hr fun _ hu => by
    simp only [hu.vr]
    refine (goes_accumulate hu fun j hj => ?_).benchCtr 6 1
    obtain rfl : j = 0 := by simpa using hj
    exact h⟩

/-- The 512 numbers of k bytes that a store of vs1 leaves. -/
theorem stored_lanes {t : State} {r a k : Nat} {f : W32 → Nat} (h1 : Full s b r)
    (h : Goes b s t ((s.bench b).writeBytes a (((s.bench b).vr r).flatMap (fun v => leBytes k (f v))))) :
    (∀ l, l < 512 → num t b (a + k * l) k = f (lane s b r l) % 256 ^ k) ∧ StoreOutside s b a (k * 512) t
      ∧ StoreFrame s b t ∧ OnlyBench b s t := by
  obtain ⟨nums, outside, frame⟩ := stored_numbers h
  refine ⟨fun l hl => ?_, by rwa [h1] at outside, frame⟩
  rw [nums l (by omega)]
  simp [lane, h1, hl]

theorem vecFrame_of_like_two {t : State} {d e : Nat} {v w : List W32}
    (h : (((s.bench b).setVr d v).setVr e w).Like (t.bench b)) : VecFrame s b [d, e] t := by
  refine ⟨?_, fun q hq => ?_⟩
  · obtain ⟨sl, lo, cs, h⟩ := h
    exact ⟨_, sl, lo, cs, h⟩
  · obtain ⟨hd, he⟩ : q ≠ d ∧ q ≠ e := by simpa using hq
    rw [h.vr, Bench.vr_setVr, Bench.vr_setVr, if_neg he, if_neg hd]

end

/-- Settles O2: each form leaves the bench that its clause describes. -/
theorem vectorLoadsStoresAndReductions : Obligations.vector_loads_stores_and_reductions := by
  intro s b i
  refine ⟨fun hr hc => ?ldf, fun hr h1 => ?stf, fun hr hc => ?ldb, fun hr h1 => ?stb, fun hr hc => ?vdraw,
    fun hr h => ?vred⟩
  case ldf =>
    obtain ⟨t, ht, only, bench⟩ := ldf_goes hr hc
    refine ⟨t, ht, fun l hl => ?_, vecFrame_of_like bench, only⟩
    rw [lane_of_like bench, Memory.words32_read _ _ (by decide)]
    simp [hl, num]
  case stf =>
    obtain ⟨t, ht, goes⟩ := stf_goes hr
    obtain ⟨lanes, frame⟩ := stored_lanes h1 goes
    refine ⟨t, ht, fun l hl => ?_, frame⟩
    rw [lanes l hl]
    exact Nat.mod_eq_of_lt (BitVec.isLt _)
  case ldb =>
    obtain ⟨t, ht, only, bench⟩ := vecLdb_goes hr hc
    refine ⟨t, ht, fun l hl => ?_, vecFrame_of_like bench, only⟩
    rw [lane_of_like bench, List.getD_eq_getElem?_getD]
    simp [hl, num, Memory.fieldLE_read _ _ (show 2 * l + 2 ≤ 1024 by omega)]
  case stb =>
    obtain ⟨t, ht, goes⟩ := vecStb_goes hr
    exact ⟨t, ht, stored_lanes h1 goes⟩
  case vdraw =>
    obtain ⟨t, ht, only, bench⟩ := vdraw_goes hr hc
    refine ⟨t, ht, fun l hl => ⟨?low, ?high⟩, vecFrame_of_like_two bench, only⟩
    case low =>
      simp [lane, bench.vr, hl, drawWords, num, Memory.fieldLE_read]
    case high =>
      simp [lane, bench.vr, hl, drawWords, num, Memory.fieldLE_read]
  case vred =>
    obtain ⟨t, ht, only, bench⟩ := vred_goes hr h
    refine ⟨t, ht, ?_, winFrame_of_like bench (by simp), only⟩
    simpa [vredTerms] using win_of_like (j := 0) bench (by simp)

end Sys2Proof.Machine
end
section
/-! Accumulator commands and the results of windows (03_benches.md R73, R74, R77; 02_arithmetic.md R51, R53, R63). -/

namespace Sys2Proof.Machine
open Sys2Proof.Say

section
variable {s : State} {b : BenchId} {i : SeqWords}

/-! ### Commands that change windows -/

theorem aclr_goes (hr : Ready s b .aclr i 0 0) : Does (.aclr b i) s (fun t =>
    Goes b s t ((s.bench b).setWins (rangeStart i) (List.replicate i.winCount Window.clear))) :=
  ⟨_, rfl, goes_seq hr fun _ hu => goes_setBench (hu.setWins _ _)⟩

@[simp] theorem length_suppliedAnchors (m : Memory) (i : SeqWords) : (suppliedAnchors m i).length = i.winCount := by
  unfold suppliedAnchors
  split <;> simp

@[simp] theorem Bench.length_prescans (x : Bench) (f n : Nat) : (x.prescans f n).length = n := by simp [Bench.prescans]

/-- The windows of a range with other anchors. -/
def Bench.anchored (x : Bench) (i : SeqWords) (as : List (BitVec 16)) : List Window :=
  List.zipWith (fun w a => { w with anchor := a }) (x.getWins (rangeStart i) i.winCount) as

theorem Bench.length_anchored (x : Bench) (i : SeqWords) {as : List (BitVec 16)} (h : as.length = i.winCount) :
    (x.anchored i as).length = i.winCount := by simp [Bench.anchored, h]

theorem Bench.getElem_anchored (x : Bench) (i : SeqWords) (as : List (BitVec 16)) (j : Nat)
    (h : j < (x.anchored i as).length) : (x.anchored i as)[j] = { x.win (rangeStart i + j) with anchor := as.getD j 0 } := by
  have hj : j < as.length := by simp [Bench.anchored] at h; omega
  simp [Bench.anchored, hj]

/-- The lines that hold the anchors of an AANC are clean where their bytes are. -/
theorem anchorLines_clean (h : i.fc 23 2 = 2 → Clean s b (64 * i.fa 0 16) (2 * i.winCount)) :
    (s.bench b).operandFault (if i.fc 23 2 = 2 then linesOf (64 * i.fa 0 16) (2 * i.winCount) else []) = none := by
  split
  next e => exact h e
  next => rfl

/-- The anchors of a range after an AANC with split clear. -/
def Bench.raisedAnchors (x : Bench) (i : SeqWords) : List (BitVec 16) :=
  List.zipWith anchorMax (x.prescans (rangeStart i) i.winCount) (suppliedAnchors x.store i)

theorem Bench.length_raisedAnchors (x : Bench) (i : SeqWords) : (x.raisedAnchors i).length = i.winCount := by
  simp [Bench.raisedAnchors]

theorem aanc_goes (hr : Ready s b .aanc i 0 0) (hs : i.split = false)
    (hc : i.fc 23 2 = 2 → Clean s b (64 * i.fa 0 16) (2 * i.winCount)) : Does (.aanc b i) s (fun t => GoesEcc b s t
      ((s.bench b).setWins (rangeStart i) ((s.bench b).anchored i ((s.bench b).raisedAnchors i)))) :=
  ⟨_, rfl, goesEcc_seq_withLines hr (anchorLines_clean hc) fun _ hu => by
    simp only [hs, hu.getWins, hu.prescans, hu.store]
    exact goes_setBench (hu.setWins _ _)⟩

theorem aanc_split_goes (hr : Ready s b .aanc i 0 0) (hs : i.split = true)
    (hc : i.fc 23 2 = 2 → Clean s b (64 * i.fa 0 16) (2 * i.winCount))
    (hp : ∀ j, j < i.winCount → (Tab.get 0x8000#16 (s.bench b).prescan (rangeStart i + j)).toInt ≤
      ((suppliedAnchors (s.bench b).store i).getD j 0).toInt) : Does (.aanc b i) s (fun t => GoesEcc b s t
      ((s.bench b).setWins (rangeStart i) ((s.bench b).anchored i (suppliedAnchors (s.bench b).store i)))) := by
  have quiet : (List.zipWith (fun (p a : BitVec 16) => decide (a.toInt < p.toInt))
      ((s.bench b).prescans (rangeStart i) i.winCount) (suppliedAnchors (s.bench b).store i)).any id = false := by
    rw [List.any_eq_false]
    intro v hv
    obtain ⟨j, hj, rfl⟩ := List.getElem_of_mem hv
    have hj' : j < i.winCount := by simpa using hj
    have := hp j hj'
    simp [Bench.prescans, hj'] at this ⊢
    exact this
  exact ⟨_, rfl, goesEcc_seq_withLines hr (anchorLines_clean hc) fun _ hu => by
    simp only [hs, hu.getWins, hu.prescans, hu.store, quiet]
    exact goes_setBench (hu.setWins _ _)⟩

/-- The windows of a range with the partial records from byte a added. -/
def Bench.importedWins (x : Bench) (i : SeqWords) (a : Nat) : List Window :=
  (List.range i.winCount).map (fun j => (x.win (rangeStart i + j)).addRecord (Memory.read x.store (a + 16 * j) 16))

theorem aimp_goes (hr : Ready s b .aimp i 0 0) (hc : Clean s b (64 * i.fa 0 16) (16 * i.winCount)) :
    Does (.aimp b i) s (fun t => GoesEcc b s t
      ((s.bench b).setWins (rangeStart i) ((s.bench b).importedWins i (64 * i.fa 0 16)))) := by
  have recs : List.zipWith Window.addRecord ((s.bench b).getWins (rangeStart i) i.winCount) ((List.range i.winCount).map
      (fun j => ((Memory.read (s.bench b).store (64 * i.fa 0 16) (16 * i.winCount)).drop (16 * j)).take 16)) =
      (s.bench b).importedWins i (64 * i.fa 0 16) := by
    apply List.ext_getElem (by simp [Bench.importedWins])
    intro j _ hj
    have hj : j < i.winCount := by simpa [Bench.importedWins] using hj
    simp [Bench.importedWins, Memory.take_drop_read _ _ (show 16 * j + 16 ≤ 16 * i.winCount by omega)]
  exact ⟨_, rfl, goesEcc_seq_withOperand hr hc fun _ hu => by
    simp only [hu.getWins, recs]
    exact goes_setBench (hu.setWins _ _)⟩

/-- The terms that an ABIAS adds, one list for each window. -/
def biasTerms (m : Memory) (i : SeqWords) : List (List Term) :=
  (List.range i.winCount).map (fun j => [singleTerm (BitVec.ofNat 32 (Memory.readLE m (64 * i.fa 0 16 + 4 * j) 4))])

theorem biasTerms_getD (m : Memory) {j : Nat} (h : j < i.winCount) :
    (biasTerms m i).getD j [] = [singleTerm (BitVec.ofNat 32 (Memory.readLE m (64 * i.fa 0 16 + 4 * j) 4))] := by
  simp [biasTerms, h]

theorem abias_goes (hr : Ready s b .abias i 0 0) (hc : Clean s b (64 * i.fa 0 16) (4 * i.winCount))
    (h : (s.bench b).Fits (rangeStart i) (biasTerms (s.bench b).store i)) : Does (.abias b i) s (fun t =>
      GoesEcc b s t ((s.bench b).setWins (rangeStart i)
        ((s.bench b).addedWins (rangeStart i) (biasTerms (s.bench b).store i)))) :=
  ⟨_, rfl, goesEcc_seq_withOperand hr hc fun _ hu => by
    rw [Memory.words32_read _ _ (Nat.le_refl _), List.map_map]
    exact goes_accumulate hu h⟩

/-! ### Results of windows -/

theorem awb_goes (hr : Ready s b .awb i 0 0) : Does (.awb b i) s (fun t =>
    Goes b s t ((s.bench b).writeBytes (64 * i.fa 0 16) (((s.bench b).getWins (rangeStart i) i.winCount).flatMap
      (fun w => if i.bf then leBytes 2 (w.result Fp.bf16) else leBytes 4 (w.result Fp.fp32))))) :=
  ⟨_, rfl, goes_seq hr fun _ hu => by
    simp only [hu.getWins]
    exact goes_setBench (hu.writeBytes _ _)⟩

theorem aexp_goes (hr : Ready s b .aexp i 0 0) : Does (.aexp b i) s (fun t =>
    Goes b s t ((s.bench b).writeBytes (64 * i.fa 0 16)
      (((s.bench b).getWins (rangeStart i) i.winCount).flatMap Window.record))) :=
  ⟨_, rfl, goes_seq hr fun _ hu => by
    simp only [hu.getWins]
    exact goes_setBench (hu.writeBytes _ _)⟩

theorem sxch_goes (hr : Ready s b .sxch i 0 0) : Does (.sxch b i) s (fun t =>
    Goes b s t ((s.bench b).writeBytes (64 * i.fa 0 16)
      (((s.bench b).prescans (rangeStart i) i.winCount).flatMap (fun a => leBytes 2 a.toNat)))) :=
  ⟨_, rfl, goes_seq hr fun _ hu => by
    simp only [hu.prescans]
    exact goes_setBench (hu.writeBytes _ _)⟩

/-- The token that an ASAMP samples from the store m (R63, R543). -/
def sampledToken (m : Memory) (i : SeqWords) : W32 :=
  sample ((List.range (i.fc 0 21)).map (fun j => BitVec.ofNat 32 (Memory.readLE m (64 * i.fa 0 16 + 4 * j) 4)))
    (BitVec.ofNat 64 (Memory.readLE m (64 * i.fb 0 16) 8)) (BitVec.ofNat 32 (Memory.readLE m (64 * i.fb 0 16 + 8) 4))
    (BitVec.ofNat 32 (Memory.readLE m (64 * i.fb 0 16 + 12) 4))

theorem asamp_goes (hr : Ready s b .asamp i 0 0)
    (hc : (s.bench b).operandFault (linesOf (64 * i.fa 0 16) (4 * i.fc 0 21) ++ [i.fb 0 16]) = none) :
    Does (.asamp b i) s (fun t => GoesEcc b s t ((s.bench b).writeBytes (64 * i.fb 0 16 + 16)
      (leBytes 4 (sampledToken (s.bench b).store i).toNat))) :=
  ⟨_, rfl, goesEcc_seq_withLines hr hc fun _ hu => by
    simp only [hu.store, Memory.words32_read _ _ (Nat.le_refl _), Memory.fieldLE_read _ _ (show 0 + 8 ≤ 16 by decide),
      Memory.fieldLE_read _ _ (show 8 + 4 ≤ 16 by decide), Memory.fieldLE_read _ _ (show 12 + 4 ≤ 16 by decide)]
    exact goes_setBench (hu.writeBytes _ _)⟩

end

/-- Settles O3: each command leaves the bench that its clause describes. -/
theorem accumulatorCommandsAndWindowResults : Obligations.accumulator_commands_and_window_results := by
  refine ⟨fun s b i => ⟨fun hr => ?aclr, fun hr hs hc => ?aanc, fun hr hs hc hp => ?split, fun hr hc => ?aimp,
    fun hr hc hf => ?abias⟩, fun s b i => ⟨fun hr hb => ?awb, fun hr hb => ?awbBf, fun hr => ?aexp, fun hr => ?sxch,
    fun hr hc => ?asamp⟩⟩
  case aclr =>
    obtain ⟨t, ht, only, bench⟩ := aclr_goes hr
    refine ⟨t, ht, fun j hj => ?_, winFrame_of_like bench (by simp), only⟩
    rw [win_of_like bench (by simpa using hj), List.getElem_replicate]
  case aanc =>
    obtain ⟨t, ht, only, bench⟩ := aanc_goes hr hs hc
    have len := (s.bench b).length_raisedAnchors i
    refine ⟨t, ht, fun j hj => ?_, winFrame_of_like bench (Bench.length_anchored _ _ len), only⟩
    rw [win_of_like bench (by rwa [Bench.length_anchored _ _ len]), Bench.getElem_anchored]
    simp [Bench.raisedAnchors, Bench.prescans, hj]
  case split =>
    obtain ⟨t, ht, only, bench⟩ := aanc_split_goes hr hs hc hp
    have len := length_suppliedAnchors (s.bench b).store i
    refine ⟨t, ht, fun j hj => ?_, winFrame_of_like bench (Bench.length_anchored _ _ len), only⟩
    rw [win_of_like bench (by rwa [Bench.length_anchored _ _ len]), Bench.getElem_anchored]
  case aimp =>
    obtain ⟨t, ht, only, bench⟩ := aimp_goes hr hc
    refine ⟨t, ht, fun j hj => ?_, winFrame_of_like bench (by simp [Bench.importedWins]), only⟩
    rw [win_of_like bench (by simpa [Bench.importedWins] using hj)]
    simp [Bench.importedWins]
  case abias =>
    have fits : (s.bench b).Fits (rangeStart i) (biasTerms (s.bench b).store i) := fun j hj => by
      have hj : j < i.winCount := by simpa [biasTerms] using hj
      rw [biasTerms_getD _ hj]
      exact hf j hj
    obtain ⟨t, ht, only, bench⟩ := abias_goes hr hc fits
    refine ⟨t, ht, fun j hj => ?_, winFrame_of_like bench (by simp [biasTerms]), only⟩
    rw [win_of_like bench (by simpa [biasTerms] using hj), Bench.getElem_addedWins, biasTerms_getD _ hj]
    rfl
  case awb =>
    obtain ⟨t, ht, goes⟩ := awb_goes hr
    simp only [hb] at goes
    obtain ⟨nums, outside, frame⟩ := stored_numbers goes
    refine ⟨t, ht, fun j hj => ?_, by rwa [Bench.length_getWins] at outside, frame⟩
    rw [nums j (by simpa using hj), Bench.getElem_getWins]
    rfl
  case awbBf =>
    obtain ⟨t, ht, goes⟩ := awb_goes hr
    simp only [hb] at goes
    obtain ⟨nums, outside, frame⟩ := stored_numbers goes
    refine ⟨t, ht, fun j hj => ?_, by rwa [Bench.length_getWins] at outside, frame⟩
    rw [nums j (by simpa using hj), Bench.getElem_getWins]
    rfl
  case aexp =>
    obtain ⟨t, ht, only, bench⟩ := aexp_goes hr
    have len (w : Window) : w.record.length = 16 := by simp [Window.record]
    refine ⟨t, ht, fun j hj => ?_, storeOutside_of_like bench ?_, storeFrame_of_like bench, only⟩
    · rw [store_of_like bench, Memory.read_write_flatMap len _ _ _ (by simpa using hj), Bench.getElem_getWins]
    · rw [length_flatMap_const len, Bench.length_getWins]
  case sxch =>
    obtain ⟨t, ht, goes⟩ := sxch_goes hr
    obtain ⟨nums, outside, frame⟩ := stored_numbers goes
    refine ⟨t, ht, fun j hj => ?_, by rwa [Bench.length_prescans] at outside, frame⟩
    rw [nums j (by simpa using hj), Nat.mod_eq_of_lt (show _ < 256 ^ 2 from BitVec.isLt _)]
    simp [Bench.prescans]
  case asamp =>
    obtain ⟨t, ht, only, bench⟩ := asamp_goes hr hc
    refine ⟨t, ht, ?_, storeOutside_of_like bench (length_leBytes _ _), storeFrame_of_like bench, only⟩
    have whole := Memory.read_write_self (s.bench b).store (64 * i.fb 0 16 + 16)
      (leBytes 4 (sampledToken (s.bench b).store i).toNat)
    rw [length_leBytes] at whole
    rw [num, store_of_like bench, Memory.readLE, whole, leNat_leBytes,
      Nat.mod_eq_of_lt (show _ < 256 ^ 4 from BitVec.isLt _)]
    rfl

end Sys2Proof.Machine
end
section
/-! Matrix terms, prescan and quantization (03_benches.md R67 to R72, R77, R83, R544; 02_arithmetic.md R56). -/

namespace Sys2Proof.Machine
open Sys2Proof.Say

/-! ### The cycles that operand A waits for a bank -/

theorem vote_lt {n a b c v : Nat} (ha : a < 2 ^ n) (hb : b < 2 ^ n) (h : vote a b c = some v) : v < 2 ^ n := by
  unfold vote at h
  split at h
  · exact Option.some.inj h ▸ ha
  · split at h
    · exact Option.some.inj h ▸ hb
    · exact absurd h (by simp)

/-- A field reads as a number of its width, also where its copies have lost the vote. -/
theorem Regs.fld_lt (r : Regs) (f : Field) (lost : lostValue r f < 2 ^ f.width) : r.fld f < 2 ^ f.width := by
  have first := bitsOf_lt (r.word f.addr) f.lsb f.width
  have second := bitsOf_lt (Tab.get 0 r.cpB f.addr) f.lsb f.width
  unfold Regs.fld
  cases e : vote (bitsOf (r.word f.addr) f.lsb f.width)
      (bitsOf (r.word f.addr) f.lsb f.width ^^^ bitsOf (Tab.get 0 r.cpB f.addr) f.lsb f.width)
      (bitsOf (r.word f.addr) f.lsb f.width ^^^ bitsOf (Tab.get 0 r.cpC f.addr) f.lsb f.width) with
  | none => simpa [e] using lost
  | some v => simpa [e] using vote_lt first (Nat.xor_lt_two_pow first second) e

theorem State.fld_bncStallCycles_lt (s : State) (b : Nat) :
    s.fld (F.bncStallCycles b) < 2 ^ (F.bncStallCycles b).width := by
  refine Regs.fld_lt _ _ ?_
  have high : 0x200500 < (F.bncStallCycles b).addr := by simp only [F.bncStallCycles]; omega
  have h1 : F.bncStallCycles b ≠ F.secStatusState := by simp [F.bncStallCycles, F.secStatusState]
  have h2 : F.bncStallCycles b ≠ F.secStatusDebug := by simp [F.bncStallCycles, F.secStatusDebug]
  rw [lostValue, if_neg h1, if_neg h2, if_neg (by omega), if_neg (by omega)]
  exact Nat.sub_lt (Nat.two_pow_pos _) Nat.one_pos

/-- From s to t nothing but bench b and the registers at the addresses of as changes. -/
structure OnlyBenchRegs (b : Nat) (as : List Nat) (s t : State) : Prop where
  rest : { t with benches := s.benches, regs := s.regs } = s
  others : ∀ c, c ≠ b → t.bench c = s.bench c
  fields : ∀ g : Field, g.addr ∉ as → t.fld g = s.fld g

namespace OnlyBenchRegs
variable {b : Nat} {as : List Nat} {s t u : State}

theorem trans (h : OnlyBenchRegs b as s t) (g : OnlyBenchRegs b as t u) : OnlyBenchRegs b as s u where
  rest := by
    calc { u with benches := s.benches, regs := s.regs }
        = { ({ u with benches := t.benches, regs := t.regs } : State) with benches := s.benches, regs := s.regs } := rfl
      _ = { t with benches := s.benches, regs := s.regs } := by rw [g.rest]
      _ = s := h.rest
  others c hc := (g.others c hc).trans (h.others c hc)
  fields f hf := (g.fields f hf).trans (h.fields f hf)

theorem of_ecc (h : OnlyBenchEcc b s t) (ha : (F.bncEccCorrected b).addr ∈ as) : OnlyBenchRegs b as s t := by
  obtain ⟨rest, others, fields⟩ := h
  exact ⟨rest, others, fun g hg => fields g (fun e => hg (e ▸ ha))⟩

theorem of_onlyBench (h : OnlyBench b s t) : OnlyBenchRegs b as s t := by
  have hr := onlyBench_regs h
  exact ⟨by rw [← hr]; exact h.1, h.2, fun g _ => by simp only [State.fld, hr]⟩

theorem setFld (s : State) (b v : Nat) {f : Field} (h : f.addr ∈ as) : OnlyBenchRegs b as s (s.setFld f v) :=
  ⟨rfl, fun _ _ => rfl, fun _ hg => State.fld_setFld_addr s v (fun e => hg (e ▸ h))⟩

end OnlyBenchRegs

/-- The state in which an MMA issue reads its operands: with w operand A has waited a cycle for a bank (R83). -/
def State.waits (s : State) (b : Nat) (w : Bool) : State := if w then (s.stalled b).benchCtr b 2 1 else s

theorem State.stalled_only (s : State) (b : Nat) {as : List Nat} (h : (F.bncStallCycles b).addr ∈ as) :
    OnlyBenchRegs b as s (s.stalled b) := by
  unfold State.stalled State.wrapAdd
  exact .setFld s b _ h

theorem State.waits_only (s : State) (b : Nat) (w : Bool) {as : List Nat} (h : (F.bncStallCycles b).addr ∈ as) :
    OnlyBenchRegs b as s (s.waits b w) := by
  unfold State.waits
  split
  · exact (State.stalled_only s b h).trans (.of_onlyBench (onlyBench_benchCtr b 2 1 _))
  · exact .of_onlyBench (onlyBench_refl b s)

theorem State.waits_like (s : State) (b : Nat) (w : Bool) : (s.bench b).Like ((s.waits b w).bench b) := by
  unfold State.waits
  split
  · obtain ⟨cs, e⟩ := (s.stalled b).benchCtr_bench b 2 1
    rw [e, State.stalled, State.wrapAdd_bench]
    exact ⟨_, _, cs, rfl⟩
  · exact Bench.like_refl _

theorem State.benchCtr_fld (s : State) (b sub n : Nat) (g : Field) : (s.benchCtr b sub n).fld g = s.fld g := by
  rcases s.benchCtr_form b sub n with e | ⟨cs, e⟩ <;> rw [e]
  exact State.setBench_fld _ _ _ _

theorem State.stalled_fld (s : State) (b : Nat) : (s.stalled b).fld (F.bncStallCycles b) =
    (s.fld (F.bncStallCycles b) + 1) % 2 ^ (F.bncStallCycles b).width := by
  unfold State.stalled State.wrapAdd
  rw [State.fld_setFld_self, Nat.mod_mod]

theorem State.waits_fld (s : State) (b : Nat) (w : Bool) : (s.waits b w).fld (F.bncStallCycles b) =
    (s.fld (F.bncStallCycles b) + if w then 1 else 0) % 2 ^ (F.bncStallCycles b).width := by
  cases w with
  | false => simp only [State.waits, Bool.false_eq_true, if_false, Nat.add_zero,
      Nat.mod_eq_of_lt (s.fld_bncStallCycles_lt b)]
  | true => simp only [State.waits, if_true, State.benchCtr_fld, State.stalled_fld]

/-! ### MMT and MMS -/

/-- First window of an MMA issue. -/
def mmaFirst (stream : Bool) (i : SeqWords) : Nat := 1024 * i.fc 24 2 + (if stream then 64 * i.fc 26 4 else 0)

/-- An MMA issue whose operands are clean and whose terms keep the anchor rule: the state it reads in, and what it adds. -/
theorem goes_mma {x : Bench} {u : State} {b : Nat} {stream : Bool} {i : SeqWords} (hu : x.Like (u.bench b))
    (hc : x.operandFault (mmaLines stream i) = none) (h : x.Fits (mmaFirst stream i) (mmaTerms x.store stream i)) :
    Goes b ((u.waits b (bankWait (mmaPortA stream i) (mmaPortB stream i))).benchCountRead b (mmaLines stream i))
      (u.mma b stream i)
      (x.setWins (mmaFirst stream i) (x.addedWins (mmaFirst stream i) (mmaTerms x.store stream i))) := by
  have like := hu.trans (u.waits_like b (bankWait (mmaPortA stream i) (mmaPortB stream i)))
  have issue : u.mma b stream i = ((u.waits b (bankWait (mmaPortA stream i) (mmaPortB stream i))).withLines b
      (mmaLines stream i) fun s => ((s.accumulate b (mmaFirst stream i)
        (mmaTerms (s.bench b).store stream i)).benchCtr b 0 1).benchCtr b 1 1) := rfl
  rw [issue, State.withLines_clean _ _ _ _ (by rw [like.operandFault, hc]), State.benchCountRead_bench, like.store]
  exact ((goes_accumulate (by rwa [State.benchCountRead_bench]) h).benchCtr 0 1).benchCtr 1 1

/-- What an MMA issue does to its windows, its stall counter and the rest of the device. -/
theorem mma_does {c : Instr} {s : State} {b : Nat} {op : SeqOp} {stream : Bool} {i : SeqWords}
    (he : exec c s = .next (s.seq b op i 0 0 (fun s => s.mma b stream i))) (hr : Ready s b op i 0 0)
    (hc : (s.bench b).operandFault (mmaLines stream i) = none)
    (h : (s.bench b).Fits (mmaFirst stream i) (mmaTerms (s.bench b).store stream i)) : Does c s (fun t =>
      ((s.bench b).setWins (mmaFirst stream i) ((s.bench b).addedWins (mmaFirst stream i)
        (mmaTerms (s.bench b).store stream i))).Like (t.bench b)
      ∧ t.fld (F.bncStallCycles b) =
        (s.fld (F.bncStallCycles b) + (if bankWait (mmaPortA stream i) (mmaPortB stream i) then 1 else 0))
          % 2 ^ (F.bncStallCycles b).width
      ∧ OnlyBenchRegs b [(F.bncEccCorrected b).addr, (F.bncStallCycles b).addr] s t) := by
  obtain ⟨only, bench⟩ := goes_mma (s.advance_like b (1 + op.ext)) hc h
  have regs := OnlyBenchRegs.of_onlyBench (as := []) only
  refine ⟨_, he, ?_⟩
  rw [State.seq_good hr]
  refine ⟨bench, ?_, ?_⟩
  · have apart : (F.bncStallCycles b).addr ≠ (F.bncEccCorrected b).addr := by
      simp only [F.bncStallCycles, F.bncEccCorrected]
      omega
    rw [regs.fields _ List.not_mem_nil, State.benchCountRead_fld _ _ _ apart, State.waits_fld, State.advance_fld]
  · exact (((OnlyBenchRegs.of_onlyBench (onlyBench_advance b _ s)).trans (State.waits_only _ b _ (by simp))).trans
      (.of_ecc (onlyBenchEcc_benchCountRead b _ _) (by simp))).trans (.of_onlyBench only)

/-! ### SPRE -/

/-- Entry k of the prescan buffer. -/
def Bench.prescanAt (x : Bench) (k : Nat) : BitVec 16 := Tab.get 0x8000#16 x.prescan k

theorem Bench.Like.prescanAt {x z : Bench} (h : x.Like z) (k : Nat) : z.prescanAt k = x.prescanAt k := by
  rw [Bench.prescanAt, h.prescan, Bench.prescanAt]

theorem Bench.setPrescan_form (x : Bench) (n : Nat) (acc : Bool) (vs : List (BitVec 16)) :
    ∃ p, x.setPrescan n acc vs = { x with prescan := p } := by
  induction vs generalizing x n with
  | nil => exact ⟨_, rfl⟩
  | cons v vs ih =>
    rw [Bench.setPrescan]
    obtain ⟨p, e⟩ := ih _ (n + 1)
    exact ⟨p, e⟩

theorem Bench.Like.setPrescan {x z : Bench} (h : x.Like z) (n : Nat) (acc : Bool) (vs : List (BitVec 16)) :
    (x.setPrescan n acc vs).Like (z.setPrescan n acc vs) := by
  induction vs generalizing x z n with
  | nil => exact h
  | cons v vs ih =>
    refine ih ?_ (n + 1)
    obtain ⟨_, _, _, rfl⟩ := h
    exact ⟨_, _, _, rfl⟩

theorem Bench.prescanAt_setPrescan_outside (x : Bench) {n k : Nat} (acc : Bool) (vs : List (BitVec 16))
    (h : k < n ∨ n + vs.length ≤ k) : (x.setPrescan n acc vs).prescanAt k = x.prescanAt k := by
  induction vs generalizing x n with
  | nil => rfl
  | cons v vs ih =>
    rw [Bench.setPrescan, ih _ (n := n + 1) (by simp at h; omega)]
    exact Tab.get_set_ne _ _ _ (by simp at h; omega)

theorem Bench.prescanAt_setPrescan_inside (x : Bench) (n : Nat) {j : Nat} (acc : Bool) (vs : List (BitVec 16))
    (h : j < vs.length) : (x.setPrescan n acc vs).prescanAt (n + j) =
      if acc then anchorMax (x.prescanAt (n + j)) vs[j] else vs[j] := by
  induction vs generalizing x n j with
  | nil => simp at h
  | cons v vs ih =>
    simp only [Bench.setPrescan]
    cases j with
    | zero =>
      rw [Bench.prescanAt_setPrescan_outside _ _ _ (by omega)]
      exact Tab.get_set_self _ _ _ _
    | succ j =>
      have kept (v' : BitVec 16) : Bench.prescanAt { x with prescan := Tab.set 0x8000#16 x.prescan n v' } (n + 1 + j) =
          x.prescanAt (n + 1 + j) := Tab.get_set_ne _ _ _ (by omega)
      rw [show n + (j + 1) = n + 1 + j by omega, ih _ _ (by simpa using h), List.getElem_cons_succ, kept]

@[simp] theorem length_spreResults (m : Memory) (i : SeqWords) (y : Slot) :
    (spreResults m i y).length = (spreWindows i y).2 := by simp [spreResults]

/-- A clean SPRE leaves its results in the prescan buffer; place and prescan buffer alone change in the bench. -/
theorem spre_goes {s : State} {b : BenchId} {i : SeqWords} {y : Slot} (hr : Ready s b .spre i y 0)
    (hc : (s.bench b).operandFault (spreLines i y) = none) : Does (.spre b i y) s (fun t =>
      GoesEcc b s t ((s.bench b).setPrescan (spreWindows i y).1 (bitOf i.c.toNat 31) (spreResults (s.bench b).store i y))
      ∧ ∃ p sl lo, t.bench b = { s.bench b with prescan := p, slot := sl, loop := lo }) := by
  obtain ⟨sl, lo, e⟩ := (s.bench b).advance_form (1 + SeqOp.spre.ext)
  refine ⟨_, rfl, goesEcc_seq_withLines hr hc fun u hu => ?_, ?_⟩
  · simp only [hu.store]
    exact goes_setBench (hu.setPrescan _ _ _)
  · rw [State.seq_withLines_good hr hc]
    simp only [State.benchCountRead_bench, State.advance_bench_self, e, State.setBench_self]
    generalize spreResults _ i y = rs
    obtain ⟨p, e⟩ := Bench.setPrescan_form { s.bench b with slot := sl, loop := lo } (spreWindows i y).1
      (bitOf i.c.toNat 31) rs
    exact ⟨p, sl, lo, e⟩

/-! ### SQNT -/

/-- Block j of 32 values from byte a of a store, quantized to type ty. -/
def quantizedBlock (m : Memory) (a ty j : Nat) : Nat × List Nat :=
  quantBlock ty ((List.range 32).map (fun e => BitVec.ofNat 32 (Memory.readLE m (a + 128 * j + 4 * e) 4)))

/-- The elements of n quantized blocks. -/
def quantizedElems (m : Memory) (a ty n : Nat) : List Byte :=
  packElems (typeBits ty) ((List.range n).flatMap (fun j => (quantizedBlock m a ty j).2))

/-- The scales of n quantized blocks. -/
def quantizedScales (m : Memory) (a ty n : Nat) : List Byte :=
  (List.range n).map (fun j => BitVec.ofNat 8 (quantizedBlock m a ty j).1)

theorem words32_drop_read (m : Memory) (a : Nat) {n o k : Nat} (h : o + 4 * k ≤ n) :
    words32 ((Memory.read m a n).drop o) k =
      (List.range k).map (fun j => BitVec.ofNat 32 (Memory.readLE m (a + o + 4 * j) 4)) := by
  refine List.map_congr_left fun j hj => ?_
  have hj := List.mem_range.mp hj
  rw [fieldLE, List.drop_drop, Memory.take_drop_read _ _ (by omega), Nat.add_assoc, Memory.readLE]

theorem quantizedBlocks_read (m : Memory) (a ty n : Nat) :
    (List.range n).map (fun j => quantBlock ty (words32 ((Memory.read m a (128 * n)).drop (128 * j)) 32)) =
      (List.range n).map (quantizedBlock m a ty) := by
  refine List.map_congr_left fun j hj => ?_
  have hj := List.mem_range.mp hj
  rw [words32_drop_read _ _ (by omega), quantizedBlock]

theorem sqnt_goes {s : State} {b : BenchId} {i : SeqWords} (hr : Ready s b .sqnt i 0 0)
    (hc : Clean s b (64 * i.fa 0 16) (128 * i.fc 4 12)) : Does (.sqnt b i) s (fun t => GoesEcc b s t
      (((s.bench b).writeBytes (64 * i.fb 0 16)
          (quantizedElems (s.bench b).store (64 * i.fa 0 16) (i.fc 0 4) (i.fc 4 12))).writeBytes (64 * i.fc 16 16)
        (quantizedScales (s.bench b).store (64 * i.fa 0 16) (i.fc 0 4) (i.fc 4 12)))) :=
  ⟨_, rfl, goesEcc_seq_withOperand hr hc fun _ hu => by
    simp only [quantizedBlocks_read, List.flatMap_map, List.map_map]
    exact goes_setBench ((hu.writeBytes _ _).writeBytes _ _)⟩

theorem Memory.readLE_one (m : Memory) (a : Nat) : Memory.readLE m a 1 = (Memory.byte m a).toNat := by
  simp [Memory.readLE, Memory.read, leNat]

/-- What two writes, the second over the first, leave of a store. -/
theorem Memory.byte_write_write {m : Memory} {a c : Nat} {as cs : List Byte} :
    (∀ j, (h : j < cs.length) → Memory.byte (Memory.write (Memory.write m a as) c cs) (c + j) = cs[j]) ∧
    (∀ j, (h : j < as.length) → a + j < c ∨ c + cs.length ≤ a + j →
      Memory.byte (Memory.write (Memory.write m a as) c cs) (a + j) = as[j]) ∧
    (∀ k, k < a ∨ a + as.length ≤ k → k < c ∨ c + cs.length ≤ k →
      Memory.byte (Memory.write (Memory.write m a as) c cs) k = Memory.byte m k) := by
  refine ⟨fun j h => Memory.byte_write_inside _ _ _ _ h, fun j h hj => ?_, fun k hk hc => ?_⟩
  · rw [Memory.byte_write_outside _ _ _ _ hj, Memory.byte_write_inside _ _ _ _ h]
  · rw [Memory.byte_write_outside _ _ _ _ hc, Memory.byte_write_outside _ _ _ _ hk]

/-- Settles O4: MMT and MMS by the one rule of an MMA issue, SPRE by its entries, SQNT by its two writes. -/
theorem matrixPrescanAndQuantize : Obligations.matrix_prescan_and_quantize := by
  intro s b i y
  refine ⟨fun stream c op hform hr hc h => ?mma, fun hr hc => ?spre, fun hr hc => ?sqnt⟩
  case mma =>
    have he : exec c s = .next (s.seq b op i 0 0 (fun s => s.mma b stream i)) := by
      obtain ⟨rfl, rfl, rfl⟩ | ⟨rfl, rfl, rfl⟩ := hform <;> rfl
    obtain ⟨t, ht, bench, stall, only⟩ := mma_does he hr hc h
    refine ⟨t, ht, fun j hj => ?_, stall, winFrame_of_like bench (by simp), only.rest, only.others, fun g he hs => ?_⟩
    · exact (win_of_like bench (by simpa using hj)).trans (Bench.getElem_addedWins _ _ _ _ _)
    · exact only.fields g (by simp [he, hs])
  case spre =>
    obtain ⟨t, ht, ⟨only, bench⟩, form⟩ := spre_goes hr hc
    have len := length_spreResults (s.bench b).store i y
    refine ⟨t, ht, fun j hj => ?_, fun k hk => ?_, form, only⟩
    · refine (bench.prescanAt _).trans ((Bench.prescanAt_setPrescan_inside _ _ _ _ (len.symm ▸ hj)).trans ?_)
      rw [← List.getD_eq_getElem _ 0]
      rfl
    · exact (bench.prescanAt _).trans (Bench.prescanAt_setPrescan_outside _ _ _ (len.symm ▸ hk))
  case sqnt =>
    obtain ⟨t, ht, only, bench⟩ := sqnt_goes hr hc
    have scales : (quantizedScales (s.bench b).store (64 * i.fa 0 16) (i.fc 0 4) (i.fc 4 12)).length = i.fc 4 12 := by
      simp [quantizedScales]
    obtain ⟨inScale, inElem, outside⟩ := Memory.byte_write_write (m := (s.bench b).store) (a := 64 * i.fb 0 16)
      (c := 64 * i.fc 16 16) (as := quantizedElems (s.bench b).store (64 * i.fa 0 16) (i.fc 0 4) (i.fc 4 12))
      (cs := quantizedScales (s.bench b).store (64 * i.fa 0 16) (i.fc 0 4) (i.fc 4 12))
    have store := bench.store
    simp only [Bench.writeBytes] at store
    simp only [← store] at inElem outside inScale
    refine ⟨t, ht, fun j hj => ?_, fun k hk hs => ?_, fun k hk hs => outside k hk (by rwa [scales]), ?_, only⟩
    · rw [num, Memory.readLE_one, inScale j (by rwa [scales])]
      simp [quantizedScales, quantizedBlock, num]
    · replace hk : k < (quantizedElems (s.bench b).store (64 * i.fa 0 16) (i.fc 0 4) (i.fc 4 12)).length := hk
      rw [num, Memory.readLE_one, inElem k hk (by rwa [scales]), ← List.getD_eq_getElem _ 0]
      rfl
    · obtain ⟨sl, lo, cs, e⟩ := bench
      exact ⟨_, _, _, _, sl, lo, cs, e⟩

end Sys2Proof.Machine
end
section
/-! What an interrupt at a core leaves: the benches (08_tenon.md R246 to R252). -/

namespace Sys2Proof.Machine

@[simp] theorem State.ite_benches (p : Prop) [Decidable p] (s t : State) :
    (if p then s else t).benches = if p then s.benches else t.benches := apply_ite State.benches p s t

@[simp] theorem State.logCount_benches (s : State) (i n : Nat) : (s.logCount i n).benches = s.benches := rfl
@[simp] theorem State.addFault_benches (s : State) (t : Trouble) : (s.addFault t).benches = s.benches := rfl

@[simp] theorem State.markLine_benches (s : State) (k line : Nat) : (s.markLine k line).benches = s.benches := by
  simp [State.markLine]

theorem State.withDbg_benches (s : State) (d : Dbg) : ({ s with dbg := d } : State).benches = s.benches := rfl

@[simp] theorem State.dbgRecord_benches (s : State) (type sub unit payload : Nat) :
    (s.dbgRecord type sub unit payload).benches = s.benches := by
  unfold State.dbgRecord
  extract_lets k q
  split
  · exact (State.withDbg_benches (s.count F.dbgLostCount 1) _).trans (State.count_benches _ _ _)
  · rfl

@[simp] theorem State.traceRec_benches (s : State) (k sub pc high : Nat) :
    (s.traceRec k sub pc high).benches = s.benches := by
  unfold State.traceRec
  split
  · exact State.dbgRecord_benches _ _ _ _ _
  · rfl

@[simp] theorem State.clusterCtr_benches (s : State) (k sub n : Nat) : (s.clusterCtr k sub n).benches = s.benches := by
  simp [State.clusterCtr]

@[simp] theorem State.setQueue_benches (s : State) (c : Nat) (q : List CpxOp) : (s.setQueue c q).benches = s.benches := rfl

theorem State.foldl_benches {α : Type} {f : State → α → State} (h : ∀ s a, (f s a).benches = s.benches) (xs : List α)
    (s : State) : (xs.foldl f s).benches = s.benches := by
  induction xs generalizing s with
  | nil => rfl
  | cons x xs ih => exact (ih _).trans (h s x)

@[simp] theorem State.notice_benches (s : State) (links : List Nat) (aux value : Nat) :
    (s.notice links aux value).benches = s.benches :=
  State.foldl_benches (fun s j => State.foldl_benches (fun s q => by simp) _ s) _ s

@[simp] theorem State.setHalt_benches (s : State) (h : Halt) : (s.setHalt h).benches = s.benches := by
  unfold State.setHalt
  extract_lets s1 s2
  split <;> rfl

@[simp] theorem State.wake_benches (s : State) (bit : Nat) : (s.wake bit).benches = s.benches := by
  have cause (f : Field) : (s.setFld f 1).benches = s.benches := State.setFld_benches _ _ _
  unfold State.wake
  extract_lets c known s1 m s2
  have h1 : s1.benches = s.benches := cause c
  clear_value s1
  split
  · split
    · exact h1
    · split
      · exact h1
      · split <;> exact h1
  · exact h1

@[simp] theorem State.haltNow_benches (s : State) (t : Trouble) : (s.haltNow t).benches = s.benches := by
  simp [State.haltNow]

@[simp] theorem State.raiseHalt_benches (s : State) (t : Trouble) : (s.raiseHalt t).benches = s.benches := by
  simp [State.raiseHalt]

@[simp] theorem State.markWatcher_benches (s : State) (k : Nat) : (s.markWatcher k).benches = s.benches := by
  simp [State.markWatcher]

@[simp] theorem State.report_benches (s : State) (k : Nat) : (s.report k).benches = s.benches := by
  simp only [State.report, State.ite_benches]
  split
  · simp
  · split
    · simp
    · split <;> simp

@[simp] theorem State.lockup_benches (s : State) (k : Nat) : (s.lockup k).benches = s.benches := by
  simp [State.lockup]

@[simp] theorem State.squash_benches (s : State) (k : Nat) (q : Squash) : (s.squash k q).benches = s.benches := by
  unfold State.squash
  split
  · rfl
  · rw [State.clusterCtr_benches, State.setCluster_benches, State.traceRec_benches, State.wrapAdd_benches,
      State.setCore_benches]

@[simp] theorem State.dropHeld_benches (s : State) (k : Nat) : (s.dropHeld k).benches = s.benches := by
  unfold State.dropHeld
  split <;> simp

@[simp] theorem State.kill_benches (s : State) (k : Nat) (q : Option Squash) : (s.kill k q).benches = s.benches := by
  cases q with
  | some q => rw [State.kill, State.squash_benches, State.dropHeld_benches]
  | none =>
    simp only [State.kill, State.ite_benches]
    split
    · rw [State.dropHeld_benches]
    · rw [State.bumpFree_benches, State.squash_benches, State.dropHeld_benches]

@[simp] theorem State.enterVector_benches (s : State) (k vector : Nat) (resume : W32) (prio : Option Nat)
    (q : Option Squash) : (s.enterVector k vector resume prio q).benches = s.benches := by
  unfold State.enterVector
  extract_lets x
  split
  · rw [State.lockup_benches, State.kill_benches]
  · rw [State.setCore_benches, State.kill_benches, State.traceRec_benches, State.ite_benches, State.bumpFree_benches,
      ite_self]

@[simp] theorem State.pollInterrupt_benches (s : State) (k : Nat) (q : Option Squash) :
    (s.pollInterrupt k q).benches = s.benches := by
  simp only [State.pollInterrupt, State.ite_benches]
  split
  · split <;> simp
  · rfl

/-- An interrupt line of a cluster's control core leaves every bench. -/
@[simp] theorem State.raiseCluster_bench (s : State) (k line c : Nat) : (s.raiseCluster k line).bench c = s.bench c := by
  have h : (s.raiseCluster k line).benches = s.benches := by simp [State.raiseCluster, State.raiseLine]
  rw [State.bench, h, State.bench]

end Sys2Proof.Machine
end
section
/-! What moving the lines of a transfer leaves: in every bench the transfers in flight, the token counter and the stall
(03_benches.md R86 to R89). -/

namespace Sys2Proof.Machine

/-- The parts of a bench by which its mover is followed: transfers in flight, token counter, stall. -/
def Bench.mover (x : Bench) : List Transfer × W32 × Option (Nat × W32) := (x.flight, x.tokens, x.stall)

/-- The movers of the benches are as f says. -/
def State.MoversAre (s : State) (f : Nat → List Transfer × W32 × Option (Nat × W32)) : Prop :=
  ∀ c, (s.bench c).mover = f c

namespace State.MoversAre
variable {s : State} {f : Nat → List Transfer × W32 × Option (Nat × W32)}

theorem of_benches (h : s.MoversAre f) {t : State} (e : t.benches = s.benches) : t.MoversAre f := fun c => by
  rw [State.bench, e]
  exact h c

theorem ite {p : Prop} [Decidable p] {t : State} (hs : s.MoversAre f) (ht : t.MoversAre f) :
    (if p then s else t).MoversAre f := by split <;> assumption

theorem ite_snd {α : Type} {p : Prop} [Decidable p] {x y : α × State} (hx : x.2.MoversAre f) (hy : y.2.MoversAre f) :
    (if p then x else y).2.MoversAre f := by split <;> assumption

theorem foldl {α : Type} {g : State → α → State} (h : s.MoversAre f)
    (hg : ∀ {s : State}, s.MoversAre f → ∀ a, (g s a).MoversAre f) (xs : List α) : (xs.foldl g s).MoversAre f := by
  induction xs generalizing s with
  | nil => exact h
  | cons x xs ih => exact ih (hg h x)

/-- A bench is replaced by one with the same mover. -/
theorem setBench (h : s.MoversAre f) {b : Nat} {x : Bench} (e : x.mover = (s.bench b).mover) :
    (s.setBench b x).MoversAre f := fun c => by
  by_cases hc : c = b
  · rw [hc, State.setBench_self, e, h b]
  · rw [State.setBench_ne _ _ hc, h c]

theorem putLine (h : s.MoversAre f) {b line : Nat} {bytes : List Byte} {bad : Bool} :
    (s.setBench b ((s.bench b).putLine line bytes bad)).MoversAre f := h.setBench rfl

theorem benchCtr (h : s.MoversAre f) {b sub n : Nat} : (s.benchCtr b sub n).MoversAre f := .ite (h.setBench rfl) h

theorem benchCountRead (h : s.MoversAre f) {b : Nat} {ls : List Nat} : (s.benchCountRead b ls).MoversAre f := fun c => by
  rw [State.benchCountRead_bench, h c]

theorem benchMoverLine (h : s.MoversAre f) {b line : Nat} : (s.benchMoverLine b line).2.2.MoversAre f := h.benchCountRead

/-! Memories, links and partitions. -/

theorem count (h : s.MoversAre f) {g : Field} {n : Nat} : (s.count g n).MoversAre f :=
  h.of_benches (State.count_benches _ _ _)
theorem logCount (h : s.MoversAre f) {i n : Nat} : (s.logCount i n).MoversAre f := h.of_benches rfl
theorem countIsolated (h : s.MoversAre f) {v : Nat} : (s.countIsolated v).MoversAre f := h.count
theorem setMemUnit (h : s.MoversAre f) {u : Nat} {x : MemUnit} : (s.setMemUnit u x).MoversAre f := h.of_benches rfl
theorem setLink (h : s.MoversAre f) {j : Nat} {x : Link} : (s.setLink j x).MoversAre f := h.of_benches rfl
theorem sendData (h : s.MoversAre f) {j : Nat} {bytes : List Byte} : (s.sendData j bytes).MoversAre f := h.of_benches rfl
theorem setPart (h : s.MoversAre f) {p : Nat} {x : Part} : (s.setPart p x).MoversAre f := h.of_benches rfl
theorem violateIf (h : s.MoversAre f) {v : Bool} {i : Nat} : (s.violateIf v i).MoversAre f :=
  .ite (.ite h h.count) h
theorem touch (h : s.MoversAre f) {u : Nat} : (s.touch u).MoversAre f :=
  .ite (setMemUnit (h.of_benches (State.setFld_benches _ _ _))) h
theorem keepBefore (h : s.MoversAre f) {u line : Nat} : (s.keepBefore u line).MoversAre f := .ite h.setMemUnit h

theorem countLook (h : s.MoversAre f) {u : Nat} {k : LineLook} : (s.countLook u k).MoversAre f := by
  unfold State.countLook
  extract_lets s1 s2
  have h1 : s1.MoversAre f := .ite h (.ite h.count h.count)
  have h2 : s2.MoversAre f := .ite h1.count h1
  clear_value s2
  exact .ite (setMemUnit (.ite h2.count.logCount h2.count)) h2

theorem readLine (h : s.MoversAre f) {via : Via} {u line : Nat} : (s.readLine via u line).2.2.MoversAre f := by
  unfold State.readLine
  split
  · exact h.countIsolated
  · dsimp only
    split
    · exact h.touch
    · exact h.touch.countLook.setMemUnit

theorem writeLine (h : s.MoversAre f) {via : Via} {u line : Nat} {bytes : List Byte} {bad : Bool} :
    (s.writeLine via u line bytes bad).MoversAre f := by
  unfold State.writeLine
  split
  · exact h.countIsolated
  · exact .ite h.touch.setMemUnit h.touch

/-! One line, and all lines. -/

theorem zeroIn (h : s.MoversAre f) {b : Nat} {toLocal : Bool} {line : Nat} : (s.zeroIn b toLocal line).MoversAre f :=
  .ite h.putLine h

theorem memLine (h : s.MoversAre f) {b : Nat} {who : Option Who} {toLocal : Bool} {line addr : Nat} :
    (s.memLine b who toLocal line addr).2.MoversAre f := by
  unfold State.memLine
  split
  · exact .ite_snd (.ite_snd h.readLine.putLine h.benchMoverLine.keepBefore.writeLine) h.zeroIn
  · exact h.zeroIn

theorem benchLine (h : s.MoversAre f) {src dst srcLine dstLine : Nat} {max : Bool} :
    (s.benchLine src dst srcLine dstLine max).MoversAre f :=
  .ite h.benchMoverLine.benchMoverLine.putLine h.benchMoverLine.putLine

theorem fabricLine (h : s.MoversAre f) {b : Nat} {t : Transfer} {st : Nat × Nat} : (s.fabricLine b t st).2.MoversAre f := by
  refine .ite_snd ?_ h.zeroIn
  split
  · exact h.countIsolated.zeroIn
  · exact .ite h.benchLine h.benchLine

theorem fillSlot (h : s.MoversAre f) {e : LinkSlot} {k : Nat} {bytes : List Byte} : (s.fillSlot e k bytes).MoversAre f :=
  h.foldl (fun h _ => h.setLink) _

theorem sendSlot (h : s.MoversAre f) {e : LinkSlot} : (s.sendSlot e).MoversAre f :=
  h.setLink.foldl (fun h _ => .ite h.sendData h) _

theorem linkLine (h : s.MoversAre f) {b : Nat} {t : Transfer} {st : Nat × Nat} : (s.linkLine b t st).MoversAre f := by
  refine .ite h ?_
  split
  · exact h
  · exact h.countIsolated
  · exact h.benchCountRead.fillSlot

theorem moveLink (h : s.MoversAre f) {b : Nat} {t : Transfer} : (s.moveLink b t).MoversAre f := by
  unfold State.moveLink
  split
  · exact h
  · exact .ite h h.sendSlot

theorem moveLine (h : s.MoversAre f) {b : Nat} {t : Transfer} {st : Nat × Nat} : (s.moveLine b t st).2.MoversAre f :=
  .ite_snd h.linkLine (.ite_snd h.memLine h.fabricLine)

theorem noteMiss (h : s.MoversAre f) {b : Nat} {t : Transfer} {n line : Nat} : (s.noteMiss b t n line).MoversAre f := by
  unfold State.noteMiss
  split
  · exact h
  · exact .ite h.setPart h

theorem moveEach (h : s.MoversAre f) {b : Nat} {t : Transfer} {n : Nat} {sts : List (Nat × Nat)} :
    (s.moveEach b t n sts).2.MoversAre f := by
  induction sts generalizing s n with
  | nil => exact h
  | cons st sts ih => exact ih h.noteMiss.moveLine

theorem moveSome (h : s.MoversAre f) {b : Nat} {t : Transfer} {n : Nat} : (s.moveSome b t n).2.MoversAre f :=
  .ite_snd h h.benchCtr.moveEach.violateIf

theorem moveLines (h : s.MoversAre f) {b : Nat} {t : Transfer} : (s.moveLines b t).MoversAre f :=
  .ite h.moveSome.moveLink h.moveSome

end State.MoversAre

/-- Moving the lines of a transfer leaves the mover of its bench. -/
theorem State.moveLines_mover (s : State) (b : Nat) (t : Transfer) : ((s.moveLines b t).bench b).mover = (s.bench b).mover :=
  State.MoversAre.moveLines (f := fun c => (s.bench c).mover) (fun _ => rfl) b

end Sys2Proof.Machine
end
section
/-! The sequencer's control operations, its stalls, open windows and mover transfers (03_benches.md R86, R87, R95 to R98,
R103, R543, R546). -/

namespace Sys2Proof.Machine
open Sys2Proof.Say

/-! ### Stalls -/

/-- The stall that lasts once the mover, the tokens and the synchronization counters are as in s. -/
def State.stillStalled (s : State) (b : Nat) : Option (Nat × W32) :=
  match (s.bench b).stall with
  | none => none
  | some (c, target) =>
    let counter := if c = 16 then (s.bench b).tokens else Tab.get 0 (s.cluster (clusterOf b)).sync c
    if (c ≠ 17 ∧ notReached target counter) ∨ (c = 17 ∧ 8 ≤ (s.bench b).flight.length) then some (c, target) else none

theorem Bench.eq_with_stall {x : Bench} {v : Option (Nat × W32)} (h : x.stall = v) : x = { x with stall := v } := by
  subst h
  rfl

/-- A stall that has been reached ends, and nothing else changes. -/
theorem State.resume_bench (s : State) (b : Nat) :
    (s.resume b).bench b = { s.bench b with stall := s.stillStalled b } := by
  cases e : (s.bench b).stall with
  | none =>
    simp only [State.resume, State.stillStalled, e]
    exact Bench.eq_with_stall e
  | some p =>
    obtain ⟨c, target⟩ := p
    simp only [State.resume, State.stillStalled, e]
    generalize (if c = 16 then (s.bench b).tokens else Tab.get 0 (s.cluster (clusterOf b)).sync c) = counter
    split
    · exact Bench.eq_with_stall e
    · exact State.setBench_self _ _ _

theorem onlyBench_resume (b : Nat) (s : State) : OnlyBench b s (s.resume b) := by
  unfold State.resume
  extract_lets x
  split
  · exact onlyBench_refl b s
  · extract_lets counter
    split
    · exact onlyBench_refl b s
    · exact onlyBench_setBench b s _

theorem State.stillStalled_none {s : State} {b : Nat} (h : (s.bench b).stall = none) : s.stillStalled b = none := by
  simp [State.stillStalled, h]

/-- A stall of WAITM or SYNC lasts while its target has not been reached (R543). -/
theorem State.stillStalled_counter {s : State} {b c : Nat} {target : W32} (hc : c ≠ 17)
    (h : (s.bench b).stall = some (c, target)) : s.stillStalled b =
      if notReached target (if c = 16 then (s.bench b).tokens else Tab.get 0 (s.cluster (clusterOf b)).sync c) then
        some (c, target) else none := by
  simp [State.stillStalled, h, hc]

/-- A bench takes up a stall on counter c, and keeps it where the target has not been reached. -/
theorem State.resume_stalled (s : State) (b : Nat) {c : Nat} (target : W32) (hc : c ≠ 17) :
    ((s.setBench b { s.bench b with stall := some (c, target) }).resume b).bench b = { s.bench b with
      stall := if notReached target (if c = 16 then (s.bench b).tokens else Tab.get 0 (s.cluster (clusterOf b)).sync c) then
        some (c, target) else none } := by
  rw [State.resume_bench, State.stillStalled_counter (target := target) hc (by rw [State.setBench_self]),
    State.setBench_self]
  rfl

/-- The stall on the ninth transfer ends where fewer than eight are in flight (R87). -/
theorem State.stillStalled_ninth {s : State} {b : Nat} {target : W32} (h : (s.bench b).stall = some (17, target))
    (hf : (s.bench b).flight.length < 8) : s.stillStalled b = none := by
  simp [State.stillStalled, h, hf]

/-- Resuming a cluster leaves a bench that does not stall. -/
theorem State.resumeCluster_bench (s : State) (k : Nat) {b : Nat} (h : (s.bench b).stall = none) :
    (s.resumeCluster k).bench b = s.bench b := by
  unfold State.resumeCluster
  generalize List.range 10 = is
  induction is generalizing s with
  | nil => rfl
  | cons i is ih =>
    have kept : (s.resume (10 * k + i)).bench b = s.bench b := by
      by_cases e : b = 10 * k + i
      · rw [← e, State.resume_bench, State.stillStalled_none h, ← h]
      · exact (onlyBench_resume (10 * k + i) s).2 b e
    exact (ih _ (by rw [kept, h])).trans kept

theorem State.resumeCluster_cluster (s : State) (k c : Nat) : (s.resumeCluster k).cluster c = s.cluster c := by
  unfold State.resumeCluster
  generalize List.range 10 = is
  induction is generalizing s with
  | nil => rfl
  | cons i is ih =>
    exact (ih _).trans (onlyBench_cluster (onlyBench_resume (10 * k + i) s) c)

/-- An addition to a synchronization counter leaves a bench that does not stall. -/
theorem State.addSync_bench (s : State) (k c : Nat) (n : W32) {b : Nat} (h : (s.bench b).stall = none) :
    (s.addSync k c n).bench b = s.bench b :=
  State.resumeCluster_bench _ _ h

theorem State.addSync_sync (s : State) (k c : Nat) (n : W32) :
    Tab.get 0 ((s.addSync k c n).cluster k).sync c = Tab.get 0 (s.cluster k).sync c + n := by
  rw [State.addSync, State.resumeCluster_cluster, State.setCluster_self]
  exact Tab.get_set_self _ _ _ _

theorem Bench.advance_stall (x : Bench) (n : Nat) : (x.advance n).stall = x.stall := by
  obtain ⟨_, _, e⟩ := x.advance_form n
  rw [e]

theorem Bench.advance_tokens (x : Bench) (n : Nat) : (x.advance n).tokens = x.tokens := by
  obtain ⟨_, _, e⟩ := x.advance_form n
  rw [e]

theorem Bench.advance_flight (x : Bench) (n : Nat) : (x.advance n).flight = x.flight := by
  obtain ⟨_, _, e⟩ := x.advance_form n
  rw [e]

theorem State.stall_of_issues {s : State} {b : Nat} (h : s.issues b = true) : (s.bench b).stall = none := by
  simp only [State.issues, Bool.and_eq_true] at h
  simpa using h.2

/-! ### Control operations -/

section
variable {s : State} {b : BenchId} {i : SeqWords}

theorem nop_does (hr : Ready s b .nop i 0 0) : Does (.nop b i) s (fun t =>
    t.bench b = (s.bench b).advance 1 ∧ OnlyBench b s t) := by
  refine ⟨_, rfl, ?_⟩
  rw [State.seq_good hr]
  exact ⟨State.advance_bench_self _ _ _, onlyBench_advance _ _ _⟩

theorem endProg_does (hr : Ready s b .endProg i 0 0) : Does (.endProg b i) s (fun t =>
    t.flag (F.bncStatusRunning b) = false ∧ t.bench b = (s.bench b).advance 1
      ∧ ∀ c, c ≠ (b : Nat) → t.bench c = s.bench c) := by
  refine ⟨_, rfl, ?_⟩
  rw [State.seq_good hr]
  exact ⟨State.flag_setFlag_self _ _ _ Nat.one_pos, State.advance_bench_self _ _ _, fun _ hc => State.advance_other _ _ _ hc⟩

theorem loop_does (hr : Ready s b .loop i 0 0) (hl : (s.bench b).loop = none) : Does (.loop b i) s (fun t =>
    t.bench b = { s.bench b with
      slot := (s.bench b).slot + 1
      loop := some ((s.bench b).slot + 1, (s.bench b).slot + i.fa 0 8, i.fb 0 16) } ∧ OnlyBench b s t) := by
  have next : (s.bench b).advance 1 = { s.bench b with slot := (s.bench b).slot + 1 } := by simp [Bench.advance, hl]
  have last : (s.bench b).slot + 1 + i.fa 0 8 - 1 = (s.bench b).slot + i.fa 0 8 := by omega
  refine ⟨_, rfl, ?_⟩
  rw [hr.2, hl, Option.isNone_none, Bool.and_self, State.issue_good _ _ _ _ hr.1]
  simp only [State.advance_bench_self, next, last]
  exact ⟨State.setBench_self _ _ _, onlyBench_trans (onlyBench_advance _ _ _) (onlyBench_setBench _ _ _)⟩

theorem waitm_does (hr : Ready s b .waitm i 0 0) : Does (.waitm b i) s (fun t =>
    t.bench b = { (s.bench b).advance 1 with
      stall := if notReached i.a (s.bench b).tokens then some (16, i.a) else none } ∧ OnlyBench b s t) := by
  refine ⟨_, rfl, ?_⟩
  rw [State.seq_good hr]
  simp only [State.advance_bench_self]
  refine ⟨?_, onlyBench_trans (onlyBench_advance _ _ _) (onlyBench_trans (onlyBench_setBench _ _ _) (onlyBench_resume _ _))⟩
  have stalled := (s.advance b 1).resume_stalled b i.a (c := 16) (by decide)
  rw [if_pos rfl, State.advance_bench_self, Bench.advance_tokens] at stalled
  exact stalled

theorem sync_does (hr : Ready s b .sync i 0 0) : Does (.sync b i) s (fun t =>
    let v := Tab.get 0 (s.cluster (clusterOf b)).sync (i.fc 0 4) + BitVec.ofNat 32 (i.fb 0 16)
    Tab.get 0 (t.cluster (clusterOf b)).sync (i.fc 0 4) = v
      ∧ t.bench b = { (s.bench b).advance 1 with stall := if notReached i.a v then some (i.fc 0 4, i.a) else none }) := by
  have small : i.fc 0 4 < 2 ^ 4 := Nat.mod_lt _ (by decide)
  have idle : ((s.advance b 1).bench b).stall = none := by
    rw [State.advance_bench_self, Bench.advance_stall, State.stall_of_issues hr.1]
  have bench := (s.advance b 1).addSync_bench (clusterOf b) (i.fc 0 4) (BitVec.ofNat 32 (i.fb 0 16)) idle
  have count := (s.advance b 1).addSync_sync (clusterOf b) (i.fc 0 4) (BitVec.ofNat 32 (i.fb 0 16))
  refine ⟨_, rfl, ?_⟩
  rw [State.seq_good hr]
  simp only [SeqOp.ext, Nat.add_zero]
  generalize (s.advance b 1).addSync (clusterOf b) (i.fc 0 4) (BitVec.ofNat 32 (i.fb 0 16)) = u at bench count ⊢
  refine ⟨?_, ?_⟩
  · rw [onlyBench_cluster (onlyBench_resume _ _), State.setBench_cluster]
    exact count
  · rw [u.resume_stalled b i.a (by omega), if_neg (show i.fc 0 4 ≠ 16 by omega), count, bench, State.advance_bench_self]
    rfl

theorem openWin_does (hr : Ready s b .openWin i 0 0) : Does (.openWin b i) s (fun t =>
    (t.bench b).window = some i.a.toNat ∧ (t.bench b).released = false
      ∧ (t.bench b).slot = ((s.bench b).advance 1).slot) := by
  refine ⟨_, rfl, ?_⟩
  rw [State.seq_good hr]
  simp only [State.raiseCluster_bench, State.setFlag_bench, State.setBench_self, State.advance_bench_self, SeqOp.ext,
    Nat.add_zero, and_self]

theorem openWindowEnd_does (hw : (s.bench b).window.isSome = true) (hr : (s.bench b).released = true) :
    Does (.openWindowEnd b) s (fun t =>
      t.bench b = { s.bench b with window := none, released := false, abandoned := false }
        ∧ t.flag (F.bncStatusOpen b) = false ∧ ∀ c, c ≠ (b : Nat) → t.bench c = s.bench c) := by
  obtain ⟨len, hw⟩ := Option.isSome_iff_exists.mp hw
  refine ⟨_, rfl, ?_⟩
  simp only [hw, hr, if_true, State.setBench_self, State.setFlag_bench]
  refine ⟨trivial, ?_, fun c hc => ?_⟩
  · exact State.flag_setFlag_self _ _ _ Nat.one_pos
  · rw [State.setBench_ne _ _ hc, State.setFlag_bench, State.setBench_ne _ _ hc]

/-! ### Mover transfers -/

section
variable {op : Nat} {x1 x2 : Slot}

theorem State.mov_takes (hr : Ready s b (.mov op) i x1 x2) (hf : (s.bench b).flight.length < 8) :
    (s.mov b op i x1 x2).bench b =
        { (s.bench b).advance 3 with flight := (s.bench b).flight ++ [movShape op i x1 x2] }
      ∧ OnlyBench b s (s.mov b op i x1 x2) := by
  rw [State.mov, if_neg (by omega), State.seq_good hr]
  simp only [State.advance_bench_self, Bench.advance_flight]
  exact ⟨State.setBench_self _ _ _, onlyBench_trans (onlyBench_advance _ _ _) (onlyBench_setBench _ _ _)⟩

theorem State.mov_stalls (hr : Ready s b (.mov op) i x1 x2) (hf : 8 ≤ (s.bench b).flight.length) :
    (s.mov b op i x1 x2).bench b = { s.bench b with stall := some (17, 0) } ∧ OnlyBench b s (s.mov b op i x1 x2) := by
  rw [State.mov, if_pos ⟨hr.1, hf⟩]
  exact ⟨State.setBench_self _ _ _, onlyBench_setBench _ _ _⟩
end

theorem moverTransferDone_does {tr : Transfer} {rest : List Transfer} (hf : (s.bench b).flight = tr :: rest) :
    Does (.moverTransferDone b) s (fun t =>
      (t.bench b).flight = rest ∧ (t.bench b).tokens = (s.bench b).tokens + 1
        ∧ ((s.bench b).stall = some (17, 0) → rest.length < 8 → (t.bench b).stall = none)) := by
  refine ⟨_, rfl, ?_⟩
  simp only [hf]
  have kept := State.moveLines_mover (s.setBench b { s.bench b with flight := rest }) b tr
  generalize State.moveLines _ _ tr = u at kept ⊢
  rw [State.setBench_self] at kept
  obtain ⟨flight, tokens, stall⟩ : (u.bench b).flight = rest ∧ (u.bench b).tokens = (s.bench b).tokens
    ∧ (u.bench b).stall = (s.bench b).stall := by simpa [Bench.mover] using kept
  rw [State.resume_bench, State.setBench_self]
  refine ⟨flight, by rw [← tokens], fun hs hl => ?_⟩
  exact State.stillStalled_ninth (target := 0) (by rw [State.setBench_self, ← hs, ← stall])
    (by rw [State.setBench_self]; simpa [flight] using hl)

end

/-- Settles O5: each operation by its own rule; MOV forms share the two rules of an issue. -/
theorem sequencerControlAndMoverTransfers : Obligations.sequencer_control_and_mover_transfers := by
  refine ⟨fun s b i => ⟨nop_does, endProg_does, loop_does, waitm_does, sync_does, openWin_does, openWindowEnd_does⟩,
    fun s b i x1 x2 => ⟨fun c op hform hr => ?_, fun tr rest => moverTransferDone_does⟩⟩
  have he : exec c s = .next (s.mov b op i x1 x2) := by
    obtain ⟨rfl, rfl⟩ | ⟨rfl, rfl⟩ | ⟨rfl, rfl⟩ | ⟨rfl, rfl⟩ | ⟨rfl, rfl⟩ := hform <;> rfl
  exact ⟨fun hf => ⟨_, he, State.mov_takes hr hf⟩, fun hf => ⟨_, he, State.mov_stalls hr hf⟩⟩

end Sys2Proof.Machine
end
section
/-! The state right after reset (13_registers.md R372; 08_tenon.md R230; 04_cutlists.md R126). -/

namespace Sys2Proof.Machine
open Sys2Proof

/-- A register file that nothing has written reads its reset values: the three copies agree (13_registers.md R372, R373). -/
theorem State.fld_reset (f : Field) : State.reset.fld f = bitsOf (regReset f.addr) f.lsb f.width := by
  simp [State.fld, State.reset, Regs.fld, Regs.word, Tab.get, bitsOf, vote_self]

theorem State.part_reset (p : Nat) : State.reset.part p = Part.init := rfl
theorem State.core_reset (k : Nat) : State.reset.core k = Core.init := rfl

/-- No function has a ring that is not as a reset leaves it, the manager's function included. -/
theorem State.ring_reset (i r : Nat) : State.reset.ring i r = Ring.init := by
  by_cases h : i = 0
  · subst h
    rfl
  · have e : State.reset.fn i = Fn.init := by simp [State.fn, State.reset, HostSide.init, Tab.get, h]
    rw [State.ring, e]
    rfl

/-- Every memory is empty, so in canonical form. -/
theorem State.canonical_reset : State.reset.Canonical :=
  have noQps : ∀ e ∈ State.reset.rma.qps, e.2.Canonical := fun e h => absurd (show e ∈ [] from h) List.not_mem_nil
  ⟨rfl, rfl, rfl, nofun, nofun, nofun, noQps, nofun, nofun⟩

/-- Settles O53: fields read their reset values, and every indexed part of the state reads its initial value. -/
theorem resetLeavesTheStatedValues : Obligations.reset_leaves_the_stated_values := by
  refine ⟨rfl, rfl, State.canonical_reset, State.fld_reset, ?_, rfl, ?_, ?_, rfl, ?_, ?_, ?_, ?_, ?_, rfl, rfl⟩
  case refine_1 => exact (State.fld_reset _).trans (by decide)
  case refine_2 => rw [State.flag, State.fld_reset]; decide
  case refine_3 => rw [State.inPlain, State.flag, State.fld_reset]; decide
  case refine_4 => exact (State.fld_reset _).trans (by decide)
  case refine_5 => exact (State.fld_reset _).trans (by decide)
  case refine_6 => intro p; rw [State.part_reset]; decide
  case refine_7 =>
    intro k
    rw [State.core_reset]
    exact ⟨rfl, rfl, rfl, rfl, rfl, fun _ => ⟨rfl, rfl, rfl⟩⟩
  case refine_8 => intro r q; rw [State.ring_reset]; exact ⟨rfl, rfl⟩

end Sys2Proof.Machine
end
section
/-! PROOFS. What passing time leaves (17_time.md R457 to R468): the clocks, their registers and counts change, and the
Plain tick moves on. -/

namespace Sys2Proof.Machine

/-- A register that passing time writes: of the time block, or a bench's count of stalled cycles. -/
def Clocked (a : Nat) : Prop := a / 0x100000 = 9 ∨ 0x1000000 ≤ a ∧ a % 0x100 = 8

/-- From s to t only clocks, the counts that they drive and the registers that show them change. -/
def State.Elapses (s t : State) : Prop :=
  (∃ no re ti pw lo db, t = { s with now := no, regs := re, tim := ti, pwr := pw, log := lo, dbg := db })
    ∧ ∀ g : Field, ¬ Clocked g.addr → t.fld g = s.fld g

namespace State.Elapses
variable {s t u : State}

theorem refl : s.Elapses s := ⟨⟨_, _, _, _, _, _, rfl⟩, fun _ _ => rfl⟩

theorem trans (h : s.Elapses t) (h' : t.Elapses u) : s.Elapses u := by
  obtain ⟨⟨_, _, _, _, _, _, rfl⟩, hf⟩ := h
  obtain ⟨⟨_, _, _, _, _, _, rfl⟩, hf'⟩ := h'
  exact ⟨⟨_, _, _, _, _, _, rfl⟩, fun g hg => (hf' g hg).trans (hf g hg)⟩

theorem setFld (h : s.Elapses t) {f : Field} (hf : Clocked f.addr) (v : Nat) : s.Elapses (t.setFld f v) :=
  h.trans ⟨⟨_, _, _, _, _, _, rfl⟩, fun _ hg => State.fld_setFld_addr t v (fun e => hg (e ▸ hf))⟩

theorem others (h : s.Elapses t) {no ti pw lo db} :
    s.Elapses { t with now := no, tim := ti, pwr := pw, log := lo, dbg := db } :=
  h.trans ⟨⟨_, _, _, _, _, _, rfl⟩, fun _ _ => rfl⟩

theorem ite {c : Prop} [Decidable c] (h : s.Elapses t) (h' : s.Elapses u) : s.Elapses (if c then t else u) := by
  split
  · exact h
  · exact h'

theorem foldl {α : Type} {f : State → α → State} (hf : ∀ (t : State) a, t.Elapses (f t a)) {l : List α}
    (h : s.Elapses t) :
    s.Elapses (l.foldl f t) := by
  induction l generalizing t with
  | nil => exact h
  | cons a l ih => exact ih (h.trans (hf t a))

theorem passRtc (h : s.Elapses t) (n : Nat) : s.Elapses (t.passRtc n) := h.others.setFld (.inl rfl) _

theorem passDevice (h : s.Elapses t) (n : Nat) : s.Elapses (t.passDevice n) :=
  .ite h (.ite (.ite h.others ((h.others.setFld (.inl rfl) _).setFld (.inl rfl) _))
    ((h.others.setFld (.inl rfl) _).setFld (.inl rfl) _))

theorem passClocks (h : s.Elapses t) (n : Nat) : s.Elapses (t.passClocks n) :=
  .ite (((h.passDevice n).passRtc n).others.setFld (.inl rfl) _) ((h.passDevice n).passRtc n).others

theorem passEnergy (h : s.Elapses t) (n : Nat) : s.Elapses (t.passEnergy n) := .ite h h.others

theorem passStall (h : s.Elapses t) (a n b : Nat) : s.Elapses (t.passStall a n b) := by
  have hc : Clocked (F.bncStallCycles b).addr := .inr (by simp only [F.bncStallCycles]; omega)
  unfold State.passStall
  split
  · exact h
  · exact .ite (.ite (h.setFld hc _).others (h.setFld hc _)) h

end State.Elapses

theorem State.Elapses.keeps {s t : State} (h : s.Elapses t) : t.cores = s.cores ∧ t.plain = s.plain := by
  obtain ⟨⟨_, _, _, _, _, _, rfl⟩, -⟩ := h
  exact ⟨rfl, rfl⟩

/-- n ns pass: the clocks run, the cores count, and the Plain tick moves on with every 4 ns. -/
theorem State.passTime_eq (s : State) (n : Nat) : ∃ t, s.Elapses t ∧ s.passTime n = { t with
    cores := s.cores.map (fun p => (p.1, (p.2.countCycles p.1 s.now n).countWdt n))
    plain := { s.plain with tick := s.plain.tick + ((s.now + n) / 4 - s.now / 4) } } := by
  have h : s.Elapses (((s.passEnergy n).passClocks n).benches.foldl (fun t p => t.passStall s.now n p.1)
      ((s.passEnergy n).passClocks n)) :=
    .foldl (fun _ _ => State.Elapses.refl.passStall ..) ((State.Elapses.refl.passEnergy n).passClocks n)
  obtain ⟨hc, hp⟩ := h.keeps
  refine ⟨_, h, ?_⟩
  unfold State.passTime
  dsimp only
  rw [hc, hp]

/-- A schedule event at tick t: the Plain tick is t or stays where it is past t, and clocks run. -/
theorem State.reachTick_eq (s : State) (t : Nat) : ∃ no re ti pw lo db co,
    s.reachTick t = { s with
      now := no, regs := re, tim := ti, pwr := pw, log := lo, dbg := db, cores := co
      plain := { s.plain with tick := max s.plain.tick t } } := by
  obtain ⟨_, ⟨⟨no, re, ti, pw, lo, db, rfl⟩, -⟩, e⟩ := s.passTime_eq (4 * (t - s.plain.tick))
  have ht : s.plain.tick + ((s.now + 4 * (t - s.plain.tick)) / 4 - s.now / 4) = max s.plain.tick t := by omega
  rw [ht] at e
  exact ⟨no, re, ti, pw, lo, db, _, e⟩

section
variable (s : State) (t : Nat)

@[simp] theorem State.reachTick_run : (s.reachTick t).run = s.run := by
  obtain ⟨_, _, _, _, _, _, _, e⟩ := s.reachTick_eq t
  rw [e]

@[simp] theorem State.reachTick_parts : (s.reachTick t).parts = s.parts := by
  obtain ⟨_, _, _, _, _, _, _, e⟩ := s.reachTick_eq t
  rw [e]

@[simp] theorem State.reachTick_benches : (s.reachTick t).benches = s.benches := by
  obtain ⟨_, _, _, _, _, _, _, e⟩ := s.reachTick_eq t
  rw [e]

@[simp] theorem State.reachTick_links : (s.reachTick t).links = s.links := by
  obtain ⟨_, _, _, _, _, _, _, e⟩ := s.reachTick_eq t
  rw [e]

@[simp] theorem State.reachTick_rcv : (s.reachTick t).rcv = s.rcv := by
  obtain ⟨_, _, _, _, _, _, _, e⟩ := s.reachTick_eq t
  rw [e]

@[simp] theorem State.reachTick_plain : (s.reachTick t).plain = { s.plain with tick := max s.plain.tick t } := by
  obtain ⟨_, _, _, _, _, _, _, e⟩ := s.reachTick_eq t
  rw [e]

theorem State.fld_reachTick {g : Field} (hg : ¬ Clocked g.addr) : (s.reachTick t).fld g = s.fld g := by
  obtain ⟨_, ⟨-, hf⟩, e⟩ := s.passTime_eq (4 * (t - s.plain.tick))
  exact (congrArg (fun x => x.fld g) e).trans (hf g hg)

end

end Sys2Proof.Machine
end
section
/-! PROOFS. What operations leave of the run, the partitions, the Plain and the benches: one lemma for each operation that
changes none of them, in the order of the definitions. -/

namespace Sys2Proof.Machine

/-- The run, the partitions, the Plain and the benches. -/
structure Work where
  run : Run
  parts : Tab Part
  plain : Plain
  benches : Tab Bench

/-- What a state holds of them. -/
def State.work (s : State) : Work := ⟨s.run, s.parts, s.plain, s.benches⟩

/-- P holds of the run, the partitions, the Plain and the benches of s. -/
def State.Has (s : State) (P : Work → Prop) : Prop := P s.work

namespace State.Has
variable {s : State} {P : Work → Prop}

theorem others (h : s.Has P) {pe fc no ou re ho cl co me sw rs li rc se db fw lo pw sh et rm ti mg pi mf sv} :
    State.Has { s with
        pending := pe, freeCtr := fc, now := no, out := ou, regs := re, host := ho, clusters := cl, cores := co
        mems := me, stowed := sw, restores := rs, links := li, rcv := rc, sec := se, dbg := db, fw := fw, log := lo
        pwr := pw, shelf := sh, eth := et, rma := rm, tim := ti, mgmt := mg, pins := pi, mfg := mf, saved := sv } P := h

theorem ite {c : Prop} [Decidable c] {t u : State} (ht : t.Has P) (hu : u.Has P) : (if c then t else u).Has P := by
  split
  · exact ht
  · exact hu

theorem ite_snd {α : Type} {c : Prop} [Decidable c] {p q : α × State} (hp : p.2.Has P) (hq : q.2.Has P) :
    (if c then p else q).2.Has P := by
  split
  · exact hp
  · exact hq

theorem foldl {α : Type} {f : State → α → State} {l : List α} (h : s.Has P)
    (hf : ∀ {t : State}, t.Has P → ∀ a, (f t a).Has P) : (l.foldl f s).Has P := by
  induction l generalizing s with
  | nil => exact h
  | cons a l ih => exact ih (hf h a)

theorem of_snd_eq {α : Type} {p : α × State} {a : α} (h : p.2.Has P) (e : p = (a, s)) : s.Has P := by
  subst e
  exact h

/-! ### Registers, messages, sub-structures, rings and events -/

theorem setFld (h : s.Has P) {f v} : (s.setFld f v).Has P := h
theorem setFlag (h : s.Has P) {f v} : (s.setFlag f v).Has P := h
theorem count (h : s.Has P) {f n} : (s.count f n).Has P := h
theorem wrapAdd (h : s.Has P) {f n} : (s.wrapAdd f n).Has P := h
theorem bumpFree (h : s.Has P) : s.bumpFree.Has P := h
theorem emit (h : s.Has P) {m} : (s.emit m).Has P := h
theorem setCluster (h : s.Has P) {k x} : (s.setCluster k x).Has P := h
theorem setCore (h : s.Has P) {k x} : (s.setCore k x).Has P := h
theorem setMemUnit (h : s.Has P) {u x} : (s.setMemUnit u x).Has P := h
theorem setQp (h : s.Has P) {n x} : (s.setQp n x).Has P := h
theorem setHostMem (h : s.Has P) {m} : (s.setHostMem m).Has P := h
theorem setLink (h : s.Has P) {j x} : (s.setLink j x).Has P := h
theorem setFn (h : s.Has P) {i x} : (s.setFn i x).Has P := h
theorem setRing (h : s.Has P) {i r x} : (s.setRing i r x).Has P := h
theorem markLine (h : s.Has P) {k line} : (s.markLine k line).Has P := .ite h h.setCore

theorem wake (h : s.Has P) {bit} : (s.wake bit).Has P :=
  .ite (.ite h.setFld (.ite h.setFld.setFn.others.emit (.ite h.setFld.setFn.emit h.setFld))) h.setFld

theorem ringPut (h : s.Has P) {i r bytes now} : (s.ringPut i r bytes now).Has P := h.setHostMem.setFld.setRing

theorem reportLost (h : s.Has P) {i r} : (s.reportLost i r).Has P := .ite h h.setRing.ringPut

theorem event (h : s.Has P) {i code subject detail} : (s.event i code subject detail).Has P := by
  unfold State.event
  dsimp only
  split
  · exact .ite h.wake h
  · exact .ite (.ringPut (.reportLost (.ite h.wake h))) (.setRing (.reportLost (.ite h.wake h)))

theorem eventBoth (h : s.Has P) {owner code subject detail} : (s.eventBoth owner code subject detail).Has P := by
  unfold State.eventBoth
  dsimp only
  split
  exacts [h.event, h.event.event]

theorem handOver (h : s.Has P) {i r c} : (s.handOver i r c).Has P := h.setRing

theorem settleReset (h : s.Has P) {i r} : (s.settleReset i r).Has P :=
  .ite h.setFld.setFld.setFld.setFlag.setRing.others h

theorem flush (h : s.Has P) {i r} : (s.flush i r).Has P :=
  .settleReset (.foldl h.setRing (fun h _ => h.handOver))

theorem complete (h : s.Has P) {o status result} : (s.complete o status result).Has P := h.setRing.flush

theorem launch (h : s.Has P) {i r d} : (s.launch i r d).Has P := h.setRing

theorem setRequest (h : s.Has P) {b v} : (s.setRequest b v).Has P := h.others

/-! ### Keys, logs and management -/

theorem useKey (h : s.Has P) {label} : (s.useKey label).Has P :=
  .ite (.others (.ite h h.wrapAdd)) (.others (.ite h h.wrapAdd))

theorem useKeys (h : s.Has P) {labels} : (s.useKeys labels).Has P := .foldl h (fun h _ => h.useKey)

theorem useBound (h : s.Has P) {labels} : (s.useBound labels).Has P := by
  unfold State.useBound
  split
  exacts [h, h.useKeys]

theorem flashWrite (h : s.Has P) {a bs} : (s.flashWrite a bs).Has P :=
  h.others.markLine

theorem logCount (h : s.Has P) {i n} : (s.logCount i n).Has P := h.others

theorem logRing (h : s.Has P) {off size n bs} : (s.logRing off size n bs).Has P :=
  .flashWrite (.ite h.others h)

theorem logEvent (h : s.Has P) {code subject detail} : (s.logEvent code subject detail).Has P :=
  h.logRing.others

theorem logEnergy (h : s.Has P) {n} : (s.logEnergy n).Has P := h.others

theorem alert (h : s.Has P) {body} (hbody : ∀ {t}, t.Has P → (body t).Has P) : (s.alert body).Has P :=
  .ite (hbody h) (hbody h).emit

theorem sendMgmt (h : s.Has P) {bus code bytes} : (s.sendMgmt bus code bytes).Has P := by
  unfold State.sendMgmt
  split
  exacts [.ite (h.alert (fun h => h.others)) h.emit.others, h.emit]

theorem platformEvent (h : s.Has P) {code bytes} : (s.platformEvent code bytes).Has P := by
  unfold State.platformEvent
  split
  exacts [h, h.sendMgmt]

theorem critical (h : s.Has P) {code detail} : (s.critical code detail).Has P :=
  h.event.logEvent.others.platformEvent

/-! ### Memories -/

theorem setGranule (h : s.Has P) {u g x} : (s.setGranule u g x).Has P := h.setMemUnit

theorem countCorrected (h : s.Has P) {u n} : (s.countCorrected u n).Has P := .ite h (.ite h.count h.count)

theorem countUncorrected (h : s.Has P) {u} : (s.countUncorrected u).Has P := .ite h.count.logCount h.count

theorem touch (h : s.Has P) {u} : (s.touch u).Has P := .ite h.setFld.setMemUnit h

theorem countIsolated (h : s.Has P) {v} : (s.countIsolated v).Has P := h.count

theorem countLook (h : s.Has P) {u k} : (s.countLook u k).Has P :=
  .ite (.setMemUnit (.countUncorrected (.ite h.countCorrected.count h.countCorrected))) (.ite h.countCorrected.count
    h.countCorrected)

theorem writeLine (h : s.Has P) {via u line bytes poisoned} : (s.writeLine via u line bytes poisoned).Has P := by
  unfold State.writeLine
  split
  exacts [h.countIsolated, .ite h.touch.setMemUnit h.touch]

theorem mergeLine (h : s.Has P) {via u line o bytes} : (s.mergeLine via u line o bytes).2.Has P := by
  unfold State.mergeLine
  split
  · exact h.countIsolated
  · have hp : State.Has (if isHbm u then
          ((s.touch u).countLook u ((s.touch u).lookLine u line)).count (F.memIntegPoisonWrite (u - 4)) 1
        else ((s.touch u).countCorrected u ((s.touch u).lookLine u line).fixed).count (F.nstEccUncorrected u) 1) P :=
      .ite h.touch.countLook.count h.touch.countCorrected.count
    exact .ite_snd h.touch (.ite_snd hp.setMemUnit h.touch.countLook.setMemUnit)

theorem writeRun (h : s.Has P) {via w fuel a bs} : (s.writeRun via w fuel a bs).2.Has P := by
  induction fuel generalizing s a bs with
  | zero => exact h
  | succ fuel ih =>
    rw [State.writeRun]
    split
    · exact h
    · dsimp only
      split
      · exact ih h
      · exact .ite_snd (ih (.ite_snd h.writeLine h.mergeLine)) (ih h)

theorem devWrite (h : s.Has P) {via w a bs} : (s.devWrite via w a bs).2.Has P := h.writeRun

theorem zeroRange (h : s.Has P) {u off n} : (s.zeroRange u off n).Has P :=
  h.touch.setMemUnit

theorem setGranules (h : s.Has P) {r f} : (s.setGranules r f).Has P := .foldl h (fun h _ => h.setGranule)

theorem holdRegion (h : s.Has P) {p pool keep r} : (s.holdRegion p pool keep r).Has P := h.setGranules

theorem dropRegion (h : s.Has P) {r} : (s.dropRegion r).Has P := h.setGranules

theorem pruneRegs (h : s.Has P) : s.pruneRegs.Has P := h.others

theorem zeroRegion (h : s.Has P) {r} : (s.zeroRegion r).Has P := h.zeroRange

/-! ### The schedule -/

theorem runEnds (h : s.Has P) : s.runEnds.Has P := by
  refine .foldl h (fun h _ => ?_)
  split
  exacts [h, h.event]

theorem detachedEnds (h : s.Has P) : s.detachedEnds.Has P := .ite h.runEnds h

theorem notice (h : s.Has P) {links aux value} : (s.notice links aux value).Has P :=
  .foldl h (fun h _ => .foldl h (fun h _ => .ite h.setLink h.emit))

theorem sendControl (h : s.Has P) {j type content} : (s.sendControl j type content).Has P :=
  .ite h.setLink h.setLink.emit

theorem flushControl (h : s.Has P) {j} : (s.flushControl j).Has P :=
  .foldl h.setLink (fun h _ => h.sendControl)

theorem flood (h : s.Has P) {links type content} : (s.flood links type content).Has P :=
  .foldl h (fun h _ => h.sendControl)

theorem flushNotices (h : s.Has P) {j} : (s.flushNotices j).Has P := .foldl h.setLink (fun h _ => h.emit)

theorem addFault (h : s.Has P) {t'} : (s.addFault t').Has P := h.others

/-! ### Cores -/

theorem dbgRecord (h : s.Has P) {type sub unit payload} : (s.dbgRecord type sub unit payload).Has P :=
  .ite h.count.others h.bumpFree.others

theorem traceRec (h : s.Has P) {k sub pc high} : (s.traceRec k sub pc high).Has P := .ite h.dbgRecord h

theorem clusterCtr (h : s.Has P) {k sub n} : (s.clusterCtr k sub n).Has P := .ite h.others h

theorem markWatcher (h : s.Has P) {k} : (s.markWatcher k).Has P := .ite h.markLine (.ite h h.markLine)

theorem squash (h : s.Has P) {k q} : (s.squash k q).Has P :=
  .ite h h.setCore.wrapAdd.traceRec.setCluster.clusterCtr

theorem setQueue (h : s.Has P) {c q} : (s.setQueue c q).Has P := h.setCluster.setFld.setFld

theorem dropHeld (h : s.Has P) {k} : (s.dropHeld k).Has P := by
  unfold State.dropHeld
  split
  exacts [h, h.setCore.traceRec.setQueue.clusterCtr]

theorem killStream (h : s.Has P) {c} : (s.killStream c).Has P := by
  unfold State.killStream
  split
  exacts [h, h.setCore.traceRec.wrapAdd.bumpFree.setQueue.clusterCtr]

theorem kill (h : s.Has P) {k q} : (s.kill k q).Has P := by
  unfold State.kill
  dsimp only
  split
  exacts [h.dropHeld.squash, .ite h.dropHeld h.dropHeld.squash.bumpFree]

theorem restartCore (h : s.Has P) {k} : (s.restartCore k).Has P :=
  .ite h.setCore.setFlag h.setCore

theorem rewritePoison (h : s.Has P) : s.rewritePoison.Has P :=
  .foldl h (fun h _ => h.setMemUnit)

theorem replayLink (h : s.Has P) {j} : (s.replayLink j).Has P := .setLink (.foldl h (fun h _ => h.emit.emit))

/-! ### Valleys -/

theorem closePasses (h : s.Has P) {v} : (s.closePasses v).Has P := h.setFlag

theorem openPasses (h : s.Has P) {v} : (s.openPasses v).Has P := h.setFlag

theorem powerValley (h : s.Has P) {v on} : (s.powerValley v on).Has P := h.setFlag.setFlag.setFld

theorem gateValley (h : s.Has P) {v} : (s.gateValley v).Has P :=
  .ite (.ite h.powerValley.setFlag.closePasses h.powerValley.setFlag) h

theorem restStack (h : s.Has P) {k} : (s.restStack k).Has P := .ite h.setFlag h

theorem restStacks (h : s.Has P) : s.restStacks.Has P := .foldl h (fun h _ => h.restStack)

theorem gateValleys (h : s.Has P) : s.gateValleys.Has P := .restStacks (.foldl h (fun h _ => h.gateValley))

theorem setSelfRefresh (h : s.Has P) {v} : (s.setSelfRefresh v).Has P := .foldl h (fun h _ => h.setFlag)

theorem leaveLowPower (h : s.Has P) : s.leaveLowPower.Has P :=
  .setFlag (.others (.ite h.setSelfRefresh.restStacks h))

theorem settleLow (h : s.Has P) : s.settleLow.Has P := .ite h.leaveLowPower h

theorem raiseClock (h : s.Has P) {v raised} : (s.raiseClock v raised).Has P :=
  .ite h (.ite h.setFld.bumpFree h.setFld)

theorem setTarget (h : s.Has P) {v mv} : (s.setTarget v mv).Has P :=
  .others (.ite h.setFld h.setFld.raiseClock)

/-! ### Cutlists, pages and the Resource Table -/

theorem loadWindow (h : s.Has P) {c bytes} : (s.loadWindow c bytes).Has P :=
  h.setCore

theorem fillRegion (h : s.Has P) {images r} : (s.fillRegion images r).Has P :=
  .ite h.zeroRegion (.ite h.zeroRegion.devWrite h)

theorem fillList (h : s.Has P) {l} : (s.fillList l).Has P := .foldl h (fun h _ => h.fillRegion)

theorem takeRegion (h : s.Has P) {p roles images r} : (s.takeRegion p roles images r).Has P :=
  h.holdRegion.fillRegion

theorem dropOld (h : s.Has P) {old new} : (s.dropOld old new).Has P :=
  .pruneRegs (.foldl h (fun h _ => .foldl h (fun h _ => .ite h h.zeroRange.setGranule)))

theorem loadWindows (h : s.Has P) {clusters l} : (s.loadWindows clusters l).Has P :=
  .foldl h (fun h _ => h.loadWindow)

theorem takeMemory (h : s.Has P) {p l} : (s.takeMemory p l).Has P :=
  .foldl h.dropOld (fun h _ => h.takeRegion)

theorem wakeStacks (h : s.Has P) {l} : (s.wakeStacks l).Has P := .foldl h (fun h _ => h.setFlag)

theorem moveSlot (h : s.Has P) {u g new} : (s.moveSlot u g new).Has P :=
  .ite h.zeroRange.setGranule h.setGranule

theorem applyCommit (h : s.Has P) {c} : (s.applyCommit c).Has P :=
  .ite (.complete (.foldl h (fun h _ => h.moveSlot))) h.complete

theorem showStretch (h : s.Has P) : s.showStretch.Has P := .ite h.setFld.setFlag h.setFld.setFlag.setFld

theorem rebuildTable (h : s.Has P) : s.rebuildTable.Has P := .ite h.setFld.others.event h

end State.Has

end Sys2Proof.Machine
end
section
/-! PROOFS. What a raised halt, an interrupt line and a bench fault leave: all of the run but its halt and its notices, the
partitions, the Plain and the benches (06_plain.md R192; 08_tenon.md R246 to R250). -/

namespace Sys2Proof.Machine

/-- P holds, and holds whatever halt is then set. -/
def AnyHalt (P : Work → Prop) : Work → Prop :=
  fun w => P w ∧ ∀ x ns, P { w with run := { w.run with halt := some x, noticed := ns } }

namespace State.Has
variable {s : State} {P : Work → Prop}

theorem anyHalt (h : s.Has P) (hp : ∀ w x ns, P w → P { w with run := { w.run with halt := some x, noticed := ns } }) :
    s.Has (AnyHalt P) := ⟨h, fun _ _ => hp _ _ _ h⟩

theorem of_anyHalt (h : s.Has (AnyHalt P)) : s.Has P := h.1

theorem setHalt (h : s.Has (AnyHalt P)) {x} : (s.setHalt x).Has (AnyHalt P) := by
  unfold State.setHalt
  dsimp only
  split
  exacts [⟨h.2 _ _, h.2⟩, ⟨h.2 _ _, h.2⟩]

theorem haltNow (h : s.Has (AnyHalt P)) {x} : (s.haltNow x).Has (AnyHalt P) :=
  .markLine (.wake (.ite h.setHalt.notice h.setHalt))

theorem raiseHalt (h : s.Has (AnyHalt P)) {x} : (s.raiseHalt x).Has (AnyHalt P) := .ite h.haltNow h.addFault

theorem report (h : s.Has (AnyHalt P)) {k} : (s.report k).Has (AnyHalt P) := by
  refine .ite h.markWatcher.addFault (.ite h.markWatcher.addFault ?_)
  split
  exacts [h.markWatcher.raiseHalt, h.markWatcher.addFault]

theorem lockup (h : s.Has (AnyHalt P)) {k} : (s.lockup k).Has (AnyHalt P) :=
  .ite h.setCore.logCount.report.setFlag h.setCore.logCount.report

theorem enterVector (h : s.Has (AnyHalt P)) {k vector resume prio q} :
    (s.enterVector k vector resume prio q).Has (AnyHalt P) := by
  unfold State.enterVector
  extract_lets x
  split
  · exact h.kill.lockup
  · exact .setCore (.kill (.traceRec (.ite h.bumpFree h)))

theorem pollInterrupt (h : s.Has (AnyHalt P)) {k q} : (s.pollInterrupt k q).Has (AnyHalt P) := by
  refine .ite ?_ h
  split
  exacts [h, h.setCore.enterVector]

theorem raiseLine (h : s.Has (AnyHalt P)) {k line q} : (s.raiseLine k line q).Has (AnyHalt P) := h.setCore.pollInterrupt

theorem raiseCluster (h : s.Has (AnyHalt P)) {k line} : (s.raiseCluster k line).Has (AnyHalt P) := h.raiseLine

theorem raiseControl (h : s.Has (AnyHalt P)) {line} : (s.raiseControl line).Has (AnyHalt P) :=
  .foldl h (fun h _ => .ite h.raiseCluster h)

theorem raiseFw (h : s.Has (AnyHalt P)) {k line} : (s.raiseFw k line).Has (AnyHalt P) := .ite h.raiseLine h

theorem benchFault (h : s.Has (AnyHalt P)) {b code lines} : (s.benchFault b code lines).Has (AnyHalt P) := by
  unfold State.benchFault
  dsimp only
  split
  exacts [h.setFld.setFlag.raiseHalt, h.setFld.setFlag.raiseHalt]

theorem faultBench (h : s.Has (AnyHalt P)) {b code lines} : (s.faultBench b code lines).Has (AnyHalt P) :=
  h.benchFault.raiseCluster

theorem differs (h : s.Has (AnyHalt P)) {j} : (s.differs j).Has (AnyHalt P) := h.setLink.raiseHalt

theorem compareSeal (h : s.Has (AnyHalt P)) {j own f} : (s.compareSeal j own f).Has (AnyHalt P) := .ite h h.differs

end State.Has

end Sys2Proof.Machine
end

section
/-! PROOFS. The registers that a raised halt and an interrupt line leave: those of the benches and of power; and what the power
core holds. -/

namespace Sys2Proof.Machine

/-- A register of the power core, or of a bench: no halt and no interrupt writes it. -/
abbrev Quiet (a : Nat) : Prop := a / 0x100000 = 2 ∨ 0x1000000 ≤ a ∧ a % 0x100000 / 0x8000 = 1

theorem quiet_bench (b : Nat) : Quiet (F.bncStatusRunning b).addr := by
  right
  simp only [F.bncStatusRunning]
  omega

theorem not_quiet_cpx (c : Nat) : ¬ Quiet (F.cpxStatusLockup c).addr := by
  simp only [Quiet, F.cpxStatusLockup]
  omega

theorem not_quiet_inflight (c : Nat) : ¬ Quiet (F.cpxStatusInflight c).addr := by
  simp only [Quiet, F.cpxStatusInflight]
  omega

theorem not_quiet_queued (c : Nat) : ¬ Quiet (F.cpxStatusQueued c).addr := by
  simp only [Quiet, F.cpxStatusQueued]
  omega

theorem not_quiet_squash (c : Nat) : ¬ Quiet (F.cpxSquashCycles c).addr := by
  simp only [Quiet, F.cpxSquashCycles]
  omega

theorem not_quiet_wake : ¬ Quiet F.hifWakeCauseRtcAlarm.addr := by simp [Quiet, F.hifWakeCauseRtcAlarm]

theorem not_quiet_plain : ¬ Quiet F.dvtPlainHaltPending.addr := by simp [Quiet, F.dvtPlainHaltPending]

theorem not_quiet_lost : ¬ Quiet F.dbgLostCount.addr := by simp [Quiet, F.dbgLostCount]

/-- The fields of these registers. -/
def Regs.quiet (r : Regs) (g : Field) : Nat := if Quiet g.addr then r.fld g else 0

theorem Regs.quiet_setFld (r : Regs) {f : Field} (hf : ¬ Quiet f.addr) (n : Nat) : (r.setFld f n).quiet = r.quiet := by
  funext g
  unfold Regs.quiet
  split
  · next hg => exact State.fld_setFld_addr { State.reset with regs := r } n (fun e => hf (e ▸ hg))
  · rfl

/-- P holds of the fields of these registers in s, and of what the power core holds. -/
def State.Shows (s : State) (P : (Field → Nat) → Pwr → Prop) : Prop := P s.regs.quiet s.pwr

theorem State.shows_iff (s : State) {g : Field} (hg : Quiet g.addr) (v : Nat) :
    s.Shows (fun q _ => q g = v) ↔ s.fld g = v := by
  simp only [State.Shows, Regs.quiet, if_pos hg, State.fld]

namespace State.Shows
variable {s : State} {P : (Field → Nat) → Pwr → Prop}

theorem ite {c : Prop} [Decidable c] {t u : State} (ht : t.Shows P) (hu : u.Shows P) :
    (if c then t else u).Shows P := by
  split
  · exact ht
  · exact hu

theorem foldl {α : Type} {f : State → α → State} {l : List α} (h : s.Shows P)
    (hf : ∀ {t : State}, t.Shows P → ∀ a, (f t a).Shows P) : (l.foldl f s).Shows P := by
  induction l generalizing s with
  | nil => exact h
  | cons a l ih => exact ih (hf h a)

theorem setFld (h : s.Shows P) {f n} (hf : ¬ Quiet f.addr) : (s.setFld f n).Shows P := by
  unfold State.Shows State.setFld
  rwa [Regs.quiet_setFld _ hf]

theorem setFlag (h : s.Shows P) {f b} (hf : ¬ Quiet f.addr) : (s.setFlag f b).Shows P := h.setFld hf
theorem wrapAdd (h : s.Shows P) {f n} (hf : ¬ Quiet f.addr) : (s.wrapAdd f n).Shows P := h.setFld hf
theorem count (h : s.Shows P) {f n} (hf : ¬ Quiet f.addr) : (s.count f n).Shows P := h.setFld hf
theorem others (h : s.Shows P) {fc ru rc db lo pi} :
    State.Shows { s with freeCtr := fc, run := ru, rcv := rc, dbg := db, log := lo, pins := pi } P := h
theorem bumpFree (h : s.Shows P) : s.bumpFree.Shows P := h
theorem emit (h : s.Shows P) {m} : (s.emit m).Shows P := h
theorem setCluster (h : s.Shows P) {k x} : (s.setCluster k x).Shows P := h
theorem setCore (h : s.Shows P) {k x} : (s.setCore k x).Shows P := h
theorem setLink (h : s.Shows P) {j x} : (s.setLink j x).Shows P := h
theorem setFn (h : s.Shows P) {i x} : (s.setFn i x).Shows P := h
theorem logCount (h : s.Shows P) {i n} : (s.logCount i n).Shows P := h
theorem addFault (h : s.Shows P) {x} : (s.addFault x).Shows P := h
theorem markLine (h : s.Shows P) {k line} : (s.markLine k line).Shows P := .ite h h.setCore

theorem notice (h : s.Shows P) {links aux n} : (s.notice links aux n).Shows P :=
  .foldl h (fun h _ => .foldl h (fun h _ => .ite h.setLink h.emit))

theorem wake (h : s.Shows P) {bit} : (s.wake bit).Shows P := by
  have hw : (s.setFld ⟨F.hifWakeCauseRtcAlarm.addr, bit, 1⟩ 1).Shows P := h.setFld not_quiet_wake
  exact .ite (.ite hw (.ite hw.setFn.others.emit (.ite hw.setFn.emit hw))) hw

theorem setHalt (h : s.Shows P) {x} : (s.setHalt x).Shows P := by
  have hp : (s.setFlag F.dvtPlainHaltPending true).Shows P := h.setFlag not_quiet_plain
  unfold State.setHalt
  dsimp only
  split
  exacts [hp.others, hp.others]

theorem haltNow (h : s.Shows P) {x} : (s.haltNow x).Shows P := .markLine (.wake (.ite h.setHalt.notice h.setHalt))

theorem raiseHalt (h : s.Shows P) {x} : (s.raiseHalt x).Shows P := .ite h.haltNow h.addFault

theorem dbgRecord (h : s.Shows P) {type sub unit payload} : (s.dbgRecord type sub unit payload).Shows P :=
  .ite (h.count not_quiet_lost).others h.bumpFree.others

theorem traceRec (h : s.Shows P) {k sub pc high} : (s.traceRec k sub pc high).Shows P := .ite h.dbgRecord h

theorem clusterCtr (h : s.Shows P) {k sub n} : (s.clusterCtr k sub n).Shows P := .ite h.others h

theorem markWatcher (h : s.Shows P) {k} : (s.markWatcher k).Shows P := .ite h.markLine (.ite h h.markLine)

theorem report (h : s.Shows P) {k} : (s.report k).Shows P := by
  refine .ite h.markWatcher.addFault (.ite h.markWatcher.addFault ?_)
  split
  exacts [h.markWatcher.raiseHalt, h.markWatcher.addFault]

theorem lockup (h : s.Shows P) {k} : (s.lockup k).Shows P :=
  .ite (h.setCore.logCount.report.setFlag (not_quiet_cpx _)) h.setCore.logCount.report

theorem squash (h : s.Shows P) {k q} : (s.squash k q).Shows P :=
  .ite h (h.setCore.wrapAdd (not_quiet_squash _)).traceRec.setCluster.clusterCtr

theorem setQueue (h : s.Shows P) {c q} : (s.setQueue c q).Shows P :=
  (h.setCluster.setFld (not_quiet_inflight c)).setFld (not_quiet_queued c)

theorem dropHeld (h : s.Shows P) {k} : (s.dropHeld k).Shows P := by
  unfold State.dropHeld
  split
  exacts [h, h.setCore.traceRec.setQueue.clusterCtr]

theorem kill (h : s.Shows P) {k q} : (s.kill k q).Shows P := by
  unfold State.kill
  dsimp only
  split
  exacts [h.dropHeld.squash, .ite h.dropHeld h.dropHeld.squash.bumpFree]

theorem enterVector (h : s.Shows P) {k vector resume prio q} : (s.enterVector k vector resume prio q).Shows P := by
  unfold State.enterVector
  extract_lets x
  split
  · exact h.kill.lockup
  · exact .setCore (.kill (.traceRec (.ite h.bumpFree h)))

theorem pollInterrupt (h : s.Shows P) {k q} : (s.pollInterrupt k q).Shows P := by
  refine .ite ?_ h
  split
  exacts [h, h.setCore.enterVector]

theorem raiseLine (h : s.Shows P) {k line q} : (s.raiseLine k line q).Shows P := h.setCore.pollInterrupt

theorem raiseCluster (h : s.Shows P) {k line} : (s.raiseCluster k line).Shows P := h.raiseLine

theorem raiseControl (h : s.Shows P) {line} : (s.raiseControl line).Shows P :=
  .foldl h (fun h _ => .ite h.raiseCluster h)

theorem raiseFw (h : s.Shows P) {k line} : (s.raiseFw k line).Shows P := .ite h.raiseLine h

end State.Shows

end Sys2Proof.Machine
end
section
/-! PROOFS. The events of the schedule (04_cutlists.md R112, R114, R132; 06_plain.md R181, R188). -/

namespace Sys2Proof.Machine

/-- What every step of a fold leaves, the fold leaves. -/
theorem State.foldl_keeps {α β : Type} (π : State → β) {f : State → α → State} (h : ∀ s a, π (f s a) = π s)
    (l : List α)
    (s : State) : π (l.foldl f s) = π s := by
  induction l generalizing s with
  | nil => rfl
  | cons a l ih => exact (ih _).trans (h s a)

theorem State.serviceLinks_reachTick (s : State) (t : Nat) : (s.reachTick t).serviceLinks = s.serviceLinks := by
  have hf (j : Nat) (hj : j < 6) : (s.reachTick t).fld (F.dvtLinkStatusState j) = s.fld (F.dvtLinkStatusState j) :=
    s.fld_reachTick t (by simp only [Clocked, F.dvtLinkStatusState]; omega)
  exact List.filter_congr fun j hj => by rw [hf j (List.mem_range.1 hj)]

theorem State.link_reachTick (s : State) (t j : Nat) : (s.reachTick t).link j = s.link j := by
  simp only [State.link, State.reachTick_links]

theorem State.bench_reachTick (s : State) (t b : Nat) : (s.reachTick t).bench b = s.bench b := by
  simp only [State.bench, State.reachTick_benches]

/-- A command whose next state holds Q does what Q entails. -/
theorem does_of_has {c : Instr} {s t : State} {P : State → Prop} {Q : Work → Prop} (e : exec c s = .next t) (h : t.Has Q)
    (hp : ∀ u : State, u.Has Q → P u) : Say.Does c s P := ⟨t, e, hp t h⟩

/-! ### KERF_SERVICE -/

/-- Both attempts of the replay of flit f of link j (06_plain.md R176). -/
def Link.replays (l : Link) (j : Nat) (f : Nat) : List Out := [.flit j 2 1 f (l.payload f), .flit j 2 2 f (l.payload f)]

theorem State.emit_replays (l : Link) (j : Nat) (fs : List Nat) (s : State) :
    fs.foldl (fun s f => (s.emit (.flit j 2 1 f (l.payload f))).emit (.flit j 2 2 f (l.payload f))) s
      = { s with out := s.out ++ fs.flatMap (l.replays j) } := by
  induction fs generalizing s with
  | nil => simp
  | cons f fs ih => rw [List.foldl_cons, ih]; simp [State.emit, Link.replays]

theorem State.replayLink_eq (s : State) (j : Nat) :
    s.replayLink j = State.setLink { s with out := s.out ++ (s.link j).held.flatMap ((s.link j).replays j) } j
      { s.link j with held := [] } := by
  unfold State.replayLink
  dsimp only
  rw [State.emit_replays]
  rfl

/-- Every held flit of link j is out in both attempts. -/
def State.Replayed (s : State) (j : Nat) (l : Link) : Prop := ∀ f ∈ l.held, ∀ m ∈ l.replays j f, m ∈ s.out

theorem State.Replayed.replayLink {s : State} {j : Nat} {l : Link} (h : s.Replayed j l) (i : Nat) :
    (s.replayLink i).Replayed j l := by
  intro f hf m hm
  rw [State.replayLink_eq]
  exact List.mem_append_left _ (h f hf m hm)

theorem State.replayed_replayLink (s : State) (j : Nat) : (s.replayLink j).Replayed j (s.link j) := by
  intro f hf m hm
  rw [State.replayLink_eq]
  exact List.mem_append_right _ (List.mem_flatMap.2 ⟨f, hf, hm⟩)

theorem State.replayLink_held (s : State) (i j : Nat) (h : i = j ∨ (s.link j).held = []) :
    ((s.replayLink i).link j).held = [] := by
  rw [State.replayLink_eq]
  by_cases e : j = i
  · rw [e, State.setLink_self]
  · rw [State.setLink_ne _ _ e]
    exact h.resolve_left (fun e' => e e'.symm)

theorem State.replayLink_link_ne (s : State) {i j : Nat} (h : j ≠ i) : (s.replayLink i).link j = s.link j := by
  rw [State.replayLink_eq, State.setLink_ne _ _ h]
  rfl

theorem State.replayLinks_link (ls : List Nat) (s : State) {j : Nat} (hj : j ∉ ls) :
    (ls.foldl State.replayLink s).link j = s.link j := by
  induction ls generalizing s with
  | nil => rfl
  | cons i ls ih =>
    rw [List.foldl_cons, ih _ (fun e => hj (List.mem_cons_of_mem i e)),
      State.replayLink_link_ne s (List.ne_of_not_mem_cons hj)]

/-- Every link of a list has replayed what it held, and holds nothing more. -/
theorem State.replayLinks (ls : List Nat) (s : State) {j : Nat} (hj : j ∈ ls) :
    ((ls.foldl State.replayLink s).link j).held = [] ∧ (ls.foldl State.replayLink s).Replayed j (s.link j) := by
  induction ls using List.reverseRecOn with
  | nil => exact absurd hj List.not_mem_nil
  | append_singleton ls i ih =>
    rw [List.foldl_append, List.foldl_cons, List.foldl_nil]
    by_cases h : j ∈ ls
    · obtain ⟨hheld, hout⟩ := ih h
      exact ⟨State.replayLink_held _ _ _ (.inr hheld), hout.replayLink i⟩
    · obtain rfl : j = i := by simpa [h] using hj
      have hr := State.replayed_replayLink (ls.foldl State.replayLink s) j
      rw [State.replayLinks_link ls s h] at hr
      exact ⟨State.replayLink_held _ _ _ (.inl rfl), hr⟩

theorem State.rewritePoison_link (s : State) (j : Nat) : s.rewritePoison.link j = s.link j :=
  State.foldl_keeps (fun s => s.link j)
    (f := fun s k => s.setMemUnit (stackUnit k) (s.memUnit (stackUnit k)).rewritePoison) (fun _ _ => rfl) _ s

theorem State.rewritePoison_out (s : State) : s.rewritePoison.out = s.out :=
  State.foldl_keeps State.out
    (f := fun s k => s.setMemUnit (stackUnit k) (s.memUnit (stackUnit k)).rewritePoison) (fun _ _ => rfl) _ s

theorem State.Replayed.rewritePoison {s : State} {j : Nat} {l : Link} (h : s.Replayed j l) :
    s.rewritePoison.Replayed j l := by
  intro f hf m hm
  rw [State.rewritePoison_out]
  exact h f hf m hm

theorem execKerfService_sealed (s : State) (h : s.run.phase = .sealed) : execKerfService s = .next
    (let u := (s.serviceLinks.foldl State.replayLink (s.reachTick (s.run.since + 12))).rewritePoison
     { u with run := { u.run with phase := .service } }) := by
  rw [execKerfService, if_pos h]
  dsimp only
  rw [State.serviceLinks_reachTick]

theorem kerfService_does (s : State) (h : s.run.phase = .sealed) : Say.Does .kerfService s (fun t =>
    t.run.phase = .service ∧ t.plain.tick = max s.plain.tick (s.run.since + 12)
      ∧ (∀ j ∈ s.serviceLinks, (t.link j).held = []
          ∧ ∀ f ∈ (s.link j).held,
              Out.flit j 2 1 f ((s.link j).payload f) ∈ t.out ∧ Out.flit j 2 2 f ((s.link j).payload f) ∈ t.out)
      ∧ t.benches = s.benches) := by
  have hr : (s.reachTick (s.run.since + 12)).Has (fun w =>
      w.plain.tick = max s.plain.tick (s.run.since + 12) ∧ w.benches = s.benches) :=
    ⟨congrArg Plain.tick (s.reachTick_plain _), s.reachTick_benches _⟩
  have hu := (hr.foldl (f := State.replayLink) (l := s.serviceLinks) fun h _ => h.replayLink).rewritePoison
  have hlinks (j : Nat) (hj : j ∈ s.serviceLinks) :
      ((s.serviceLinks.foldl State.replayLink (s.reachTick (s.run.since + 12))).rewritePoison.link j).held = []
        ∧ (s.serviceLinks.foldl State.replayLink (s.reachTick (s.run.since + 12))).rewritePoison.Replayed j (s.link j) := by
    obtain ⟨hheld, hout⟩ := State.replayLinks s.serviceLinks (s.reachTick (s.run.since + 12)) hj
    rw [State.link_reachTick] at hout
    rw [State.rewritePoison_link]
    exact ⟨hheld, hout.rewritePoison⟩
  refine ⟨_, execKerfService_sealed s h, ?_⟩
  generalize (s.serviceLinks.foldl State.replayLink (s.reachTick (s.run.since + 12))).rewritePoison = u at hu hlinks ⊢
  obtain ⟨htick, hbenches⟩ := hu
  refine ⟨rfl, htick, fun j hj => ?_, hbenches⟩
  obtain ⟨hheld, hout⟩ := hlinks j hj
  exact ⟨hheld, fun f hf => ⟨hout f hf _ List.mem_cons_self, hout f hf _ (List.mem_cons_of_mem _ List.mem_cons_self)⟩⟩

/-! ### KERF_SEAL -/

theorem State.schedule_reachTick (s : State) (t : Nat) : (s.reachTick t).schedule = s.schedule := by
  simp only [State.schedule, State.setParts, State.part, State.reachTick_run, State.reachTick_parts]

theorem State.seal_reachTick (s : State) (t : Nat) : (s.reachTick t).seal = s.seal := by
  simp only [State.seal, State.schedule_reachTick, State.reachTick_run, State.reachTick_plain]

theorem State.Has.sendSeals {s : State} {P : Work → Prop} (h : s.Has P) : s.sendSeals.Has P :=
  .foldl h (fun h _ => h.sendControl.bumpFree.flushNotices)

theorem State.Has.of_reachTick {s : State} {P : Work → Prop} (t : Nat)
    (h : P ⟨s.run, s.parts, { s.plain with tick := max s.plain.tick t }, s.benches⟩) : (s.reachTick t).Has P := by
  rw [State.Has, State.work, State.reachTick_run, State.reachTick_parts, State.reachTick_plain, State.reachTick_benches]
  exact h

/-- Marks with the own seal of kerf k put in. -/
def markOwn (ms : List KerfMark) (k v : Nat) : List KerfMark :=
  ms.map (fun m => if m.kerf = k then { m with own := some v } else m)

theorem find_markOwn (ms : List KerfMark) (k v : Nat) (h : ms.any (fun m => m.kerf == k) = true) :
    ((markOwn ms k v).find? (fun m => m.kerf == k)).bind KerfMark.own = some v := by
  have hk : (fun m : KerfMark => m.kerf == k) ∘ (fun m : KerfMark => if m.kerf = k then { m with own := some v } else m)
      = fun m => m.kerf == k := by
    funext m
    by_cases e : m.kerf = k <;> simp [e]
  obtain ⟨m, hm⟩ := Option.isSome_iff_exists.1 (List.find?_isSome.2 (List.any_eq_true.1 h))
  have hmk : m.kerf = k := by simpa using List.find?_some hm
  rw [markOwn, List.find?_map, hk, hm]
  simp [hmk]

theorem execKerfSeal_drain (s : State) (h : s.run.phase = .drain) : execKerfSeal s = .next
    (let r := s.reachTick (s.run.since + 4)
     let u := if r.inPlain then r.sendSeals else r
     let v := { u with run := { u.run with phase := .sealed }, plain := { u.plain with slew := slewStep u.plain.slew } }
     (List.range 6).foldl (fun s j =>
       ((s.link j).early.partition (fun f => f.kerf.toNat == s.run.kerfs)).1.foldl (fun t f => t.compareSeal j r.seal f)
         (s.setLink j { s.link j with early := ((s.link j).early.partition (fun f => f.kerf.toNat == s.run.kerfs)).2 }))
       (v.markSeal r.seal).endBefore) := by
  rw [execKerfSeal, if_pos h]

theorem kerfSeal_does (s : State) (h : s.run.phase = .drain) : Say.Does .kerfSeal s (fun t =>
    t.run.phase = .sealed ∧ t.plain.tick = max s.plain.tick (s.run.since + 4)
      ∧ ((s.run.marks.any (fun m => m.kerf == s.run.kerfs)) = true → t.sealOf s.run.kerfs = some s.seal)
      ∧ t.plain.slew = slewStep s.plain.slew ∧ t.benches = s.benches) := by
  have hr : (s.reachTick (s.run.since + 4)).Has (fun w => w.run = s.run ∧
      w.plain = { s.plain with tick := max s.plain.tick (s.run.since + 4) } ∧ w.benches = s.benches) :=
    .of_reachTick _ ⟨rfl, rfl, rfl⟩
  have hu := State.Has.ite (c := (s.reachTick (s.run.since + 4)).inPlain = true) hr.sendSeals hr
  have e := execKerfSeal_drain s h
  dsimp only at e
  rw [State.seal_reachTick] at e
  generalize (if (s.reachTick (s.run.since + 4)).inPlain = true then (s.reachTick (s.run.since + 4)).sendSeals
    else s.reachTick (s.run.since + 4)) = u at hu e
  obtain ⟨hrun, hplain, hbenches⟩ : u.run = s.run ∧ u.plain = _ ∧ u.benches = s.benches := hu
  have hv : (State.endBefore (State.markSeal { u with
      run := { u.run with phase := .sealed }, plain := { u.plain with slew := slewStep u.plain.slew } } s.seal)).Has
      (AnyHalt (fun w => w.run.phase = .sealed ∧ w.plain.tick = max s.plain.tick (s.run.since + 4)
        ∧ w.run.marks = markOwn s.run.marks s.run.kerfs s.seal ∧ w.plain.slew = slewStep s.plain.slew
        ∧ w.benches = s.benches)) := by
    have hticks := congrArg Plain.tick hplain
    have hmarks := congrArg (fun r => markOwn r.marks r.kerfs s.seal) hrun
    have hslew := congrArg (fun p => slewStep p.slew) hplain
    exact ⟨⟨rfl, hticks, hmarks, hslew, hbenches⟩, fun _ _ => ⟨rfl, hticks, hmarks, hslew, hbenches⟩⟩
  refine does_of_has e (hv.foldl fun h j => h.setLink.foldl fun h _ => h.compareSeal) fun t ht => ?_
  obtain ⟨⟨hphase, htick, hmarks, hslew, hb⟩, -⟩ := ht
  replace hmarks : t.run.marks = markOwn s.run.marks s.run.kerfs s.seal := hmarks
  refine ⟨hphase, htick, fun hk => ?_, hslew, hb⟩
  rw [State.sealOf, hmarks]
  exact find_markOwn _ _ _ hk

/-! ### KERF_START -/

theorem State.touches_bench {s t : State} (h : t.parts = s.parts) (b : Nat) : t.touches (.bench b) = s.touches (.bench b) := by
  simp only [State.touches, State.clusterPart, State.scheduled, State.runningParts, State.part, h]

theorem State.haltNow_halt (s : State) (x : Trouble) : (s.haltNow x).run.halt.isSome = true := by
  have hs (k) : (s.setHalt ⟨k, s.see x, []⟩).Has (fun w => w.run.halt.isSome = true) := by
    unfold State.setHalt
    dsimp only
    split
    exacts [rfl, rfl]
  exact State.Has.markLine (.wake (.ite (hs _).notice (hs _)))

theorem State.raiseHalt_halt (s : State) (x : Trouble) (h : s.touches x.scope = true) :
    (s.raiseHalt x).run.halt.isSome = true := by
  rw [State.raiseHalt, if_pos h]
  exact s.haltNow_halt x

/-- A run has a halt, whatever halt is then set. -/
theorem State.has_halt {s : State} (h : s.run.halt.isSome = true) : s.Has (AnyHalt (fun w => w.run.halt.isSome = true)) :=
  ⟨h, fun _ _ => rfl⟩

theorem State.halt_of_has {s : State} (h : s.Has (AnyHalt (fun w => w.run.halt.isSome = true))) : s.run.halt.isSome = true :=
  h.of_anyHalt

section
variable (s : State) (b : Nat)

/-- The state that the end of a cut finds at bench b, which still runs: code 1, and the program stops. -/
def State.overrun : State := (s.setFld (F.bncStatusFault b) 1).setFlag (F.bncStatusRunning b) false

theorem State.benchFault_overrun : s.benchFault b 1 [] = (s.overrun b).raiseHalt ⟨0, 0x01, 1, .bench b, 0⟩ := by
  have h3 : ¬ (1 = 3) := by decide
  have h5 : ¬ (1 = 5 ∧ ((s.overrun b).bench b).abandoned = true) := fun h => absurd h.1 (by decide)
  unfold State.benchFault
  dsimp only
  rw [if_neg h3]
  dsimp only
  rw [← State.overrun, if_neg h5]

theorem State.faultBench_overrun : s.faultBench b 1 []
    = ((s.overrun b).raiseHalt ⟨0, 0x01, 1, .bench b, 0⟩).raiseCluster (clusterOf b) 0 := by
  rw [State.faultBench, State.benchFault_overrun]

/-- What a fault with code 1 leaves of bench b's registers is what it writes. -/
theorem State.fld_faultBench {g : Field} (hg : Quiet g.addr) :
    (s.faultBench b 1 []).fld g = (s.overrun b).fld g := by
  rw [← State.shows_iff _ hg, State.faultBench_overrun]
  exact State.Shows.raiseCluster (State.Shows.raiseHalt ((State.shows_iff _ hg _).2 rfl))

theorem State.overrun_parts : (s.overrun b).parts = s.parts := by
  rw [State.overrun, State.setFlag_parts, State.setFld_parts]

theorem State.faultBench_halt (h : s.touches (.bench b) = true) : (s.faultBench b 1 []).run.halt.isSome = true := by
  have ht : (s.overrun b).touches (.bench b) = true := (State.touches_bench (s.overrun_parts b) b).trans h
  rw [State.faultBench_overrun]
  exact State.halt_of_has (State.has_halt ((s.overrun b).raiseHalt_halt ⟨0, 0x01, 1, .bench b, 0⟩ ht)).raiseCluster

theorem State.flag_overrun_running : (s.overrun b).flag (F.bncStatusRunning b) = false :=
  State.flag_setFlag_self _ _ _ Nat.one_pos

theorem State.fld_overrun_fault : (s.overrun b).fld (F.bncStatusFault b) = 1 :=
  (State.fld_setFld_bits _ _ (.inr (by simp [F.bncStatusFault, F.bncStatusRunning]))).trans (State.fld_setFld_self ..)

theorem State.fld_overrun_ne {g : Field} (hg : g.addr ≠ (F.bncStatusRunning b).addr) : (s.overrun b).fld g = s.fld g :=
  (State.fld_setFld_addr _ _ hg).trans (State.fld_setFld_addr _ _ hg)

/-- The end of a cut at bench b: where it still runs its program, it faults. -/
def State.endCut : State := if s.flag (F.bncStatusRunning b) then s.faultBench b 1 [] else s

theorem State.Has.endCut {s : State} {P : Work → Prop} (h : s.Has (AnyHalt P)) (b : Nat) : (s.endCut b).Has (AnyHalt P) :=
  .ite h.faultBench h

theorem State.fld_endCut_ne {g : Field} (hq : Quiet g.addr) (hg : g.addr ≠ (F.bncStatusRunning b).addr) :
    (s.endCut b).fld g = s.fld g := by
  unfold State.endCut
  split
  · rw [State.fld_faultBench s b hq, State.fld_overrun_ne s b hg]
  · rfl

end

theorem bncStatus_addr_inj {a b : Nat} (h : (F.bncStatusRunning a).addr = (F.bncStatusRunning b).addr) : a = b := by
  simp only [F.bncStatusRunning] at h
  omega

/-- The cut has ended at bench b in t: it no longer runs, and has faulted where it ran in s. -/
def State.CutEnded (s t : State) (b : Nat) : Prop :=
  t.flag (F.bncStatusRunning b) = false ∧ (s.flag (F.bncStatusRunning b) = true →
    t.fld (F.bncStatusFault b) = 1 ∧ (s.touches (.bench b) = true → t.run.halt.isSome = true))

theorem State.cutEnded_endCut (s : State) (b : Nat) : s.CutEnded (s.endCut b) b := by
  unfold State.CutEnded State.endCut
  split
  · have hf (g : Field) (hg : g.addr = (F.bncStatusRunning b).addr) := State.fld_faultBench s b (g := g) (hg ▸ quiet_bench b)
    refine ⟨?_, fun _ => ⟨(hf (F.bncStatusFault b) rfl).trans (s.fld_overrun_fault b), s.faultBench_halt b⟩⟩
    exact (congrArg (· != 0) (hf _ rfl)).trans (s.flag_overrun_running b)
  · next h => exact ⟨by simpa using h, fun h' => absurd h' h⟩

/-- What leaves bench b's status and the halt leaves it ended. -/
theorem State.CutEnded.mono {s t u : State} {b : Nat} (h : s.CutEnded t b)
    (hf : ∀ g : Field, g.addr = (F.bncStatusRunning b).addr → u.fld g = t.fld g)
    (hh : t.run.halt.isSome = true → u.run.halt.isSome = true) : s.CutEnded u b := by
  obtain ⟨hrun, hfault⟩ := h
  refine ⟨(congrArg (· != 0) (hf _ rfl)).trans hrun, fun hs => ?_⟩
  obtain ⟨hcode, hhalt⟩ := hfault hs
  exact ⟨(hf (F.bncStatusFault b) rfl).trans hcode, fun ht => hh (hhalt ht)⟩

theorem State.fld_endCuts {g : Field} {b : Nat} (hg : g.addr = (F.bncStatusRunning b).addr) (ls : List Nat) (s : State)
    (hb : b ∉ ls) : (ls.foldl State.endCut s).fld g = s.fld g := by
  induction ls generalizing s with
  | nil => rfl
  | cons i ls ih =>
    have hi : g.addr ≠ (F.bncStatusRunning i).addr :=
      fun e => List.ne_of_not_mem_cons hb (bncStatus_addr_inj (hg.symm.trans e))
    exact (ih _ (List.not_mem_of_not_mem_cons hb)).trans (s.fld_endCut_ne i (hg ▸ quiet_bench b) hi)

theorem State.parts_endCuts (ls : List Nat) (s : State) : (ls.foldl State.endCut s).parts = s.parts :=
  (State.Has.foldl (P := AnyHalt (fun w => w.parts = s.parts)) ⟨rfl, fun _ _ => rfl⟩ (fun h b => h.endCut b)).of_anyHalt

/-- The cut ends at every bench of a list. -/
theorem State.cutEnded_endCuts (ls : List Nat) (s : State) {b : Nat} (hb : b ∈ ls) :
    s.CutEnded (ls.foldl State.endCut s) b := by
  induction ls using List.reverseRecOn with
  | nil => exact absurd hb List.not_mem_nil
  | append_singleton ls i ih =>
    rw [List.foldl_append, List.foldl_cons, List.foldl_nil]
    by_cases hm : b ∈ ls
    · obtain ⟨hrun, -⟩ := ih hm
      by_cases e : b = i
      · subst e
        rw [State.endCut, if_neg (by simp [hrun])]
        exact ih hm
      · exact (ih hm).mono (fun g hg => State.fld_endCut_ne _ i (hg ▸ quiet_bench b)
          (fun ea => e (bncStatus_addr_inj (hg.symm.trans ea)))) (fun h => State.halt_of_has ((State.has_halt h).endCut i))
    · obtain rfl : b = i := by simpa [hm] using hb
      have hf (g : Field) (hg : g.addr = (F.bncStatusRunning b).addr) := State.fld_endCuts hg ls s hm
      have hflag : (ls.foldl State.endCut s).flag (F.bncStatusRunning b) = s.flag (F.bncStatusRunning b) :=
        congrArg (· != 0) (hf _ rfl)
      have ht := State.cutEnded_endCut (ls.foldl State.endCut s) b
      rwa [State.CutEnded, hflag, State.touches_bench (State.parts_endCuts ls s)] at ht

/-! The control flits and notices that wait leave before the benches stop. -/

theorem State.regs_flushNotices (s : State) (j : Nat) : (s.flushNotices j).regs = s.regs :=
  State.foldl_keeps State.regs (f := fun (s : State) (n : Nat × Nat) => s.emit (.flit j 0 n.1 n.2 [])) (fun _ _ => rfl) _ _

theorem State.regs_sendControl (s : State) (j type : Nat) (content : List Byte) :
    (s.sendControl j type content).regs = s.regs := by
  unfold State.sendControl
  split <;> rfl

theorem State.regs_flushControl (s : State) (j : Nat) : (s.flushControl j).regs = s.regs :=
  State.foldl_keeps State.regs (f := fun (s : State) (c : Nat × List Byte) => s.sendControl j c.1 c.2)
    (fun _ _ => State.regs_sendControl ..) _ _

theorem State.runningBenches_congr {s t : State} (hp : t.parts = s.parts)
    (hf : ∀ b, t.flag (F.bncStatusPresent b) = s.flag (F.bncStatusPresent b)) : t.runningBenches = s.runningBenches := by
  simp only [State.runningBenches, State.runningParts, State.part, hp, hf]

/-- A run at KERF_START, with everything of the cut sent. -/
def State.drainFrom (s : State) (at_ : Nat) : State :=
  let r := s.serviceLinks.foldl State.flushNotices s
  let u := ({ r with run := { r.run with phase := .drain, since := at_, drainAt := r.now } } : State).markKerf at_
  u.serviceLinks.foldl State.flushControl u

theorem State.regs_drainFrom (s : State) (at_ : Nat) : (s.drainFrom at_).regs = s.regs :=
  (State.foldl_keeps State.regs State.regs_flushControl _ _).trans
    (State.foldl_keeps State.regs State.regs_flushNotices _ _)

theorem State.Has.drainFrom {s : State} {parts plain benches}
    (h : s.Has (fun w => w.parts = parts ∧ w.plain = plain ∧ w.benches = benches)) (at_ : Nat) :
    (s.drainFrom at_).Has (fun w =>
      w.run.phase = .drain ∧ w.run.since = at_ ∧ w.parts = parts ∧ w.plain = plain ∧ w.benches = benches) := by
  have hr := h.foldl (f := State.flushNotices) (l := s.serviceLinks) (fun h _ => h.flushNotices)
  exact State.Has.foldl ⟨rfl, rfl, hr⟩ (fun h _ => h.flushControl)

theorem not_clocked_bench (b : Nat) : ¬ Clocked (F.bncStatusRunning b).addr := by
  simp only [Clocked, F.bncStatusRunning]
  omega

/-- The interrupt lines of KERF_START leave what benches show. -/
theorem State.fld_raised {s : State} {g : Field} (hg : Quiet g.addr) :
    (((s.raiseControl 4).raiseFw 1 0).raiseFw 2 2).fld g = s.fld g := by
  rw [← State.shows_iff _ hg]
  exact ((State.shows_iff s hg _).2 rfl).raiseControl.raiseFw.raiseFw

theorem execKerfStart_cut (s : State) (l : Cutlist) (h : s.run.phase = .cut) (hl : s.schedule = some l) :
    execKerfStart s = .next
      (let u := (s.reachTick (s.run.since + (l.cutRun s.run.cut).length)).drainFrom (s.run.since + (l.cutRun s.run.cut).length)
       (((u.runningBenches.foldl State.endCut u).raiseControl 4).raiseFw 1 0).raiseFw 2 2) := by
  rw [execKerfStart, h, hl]
  rfl

theorem kerfStart_does (s : State) (l : Cutlist) (h : s.run.phase = .cut) (hl : s.schedule = some l) :
    Say.Does .kerfStart s (fun t =>
      t.run.phase = .drain ∧ t.run.since = s.run.since + (l.cutRun s.run.cut).length
        ∧ t.plain.tick = max s.plain.tick (s.run.since + (l.cutRun s.run.cut).length)
        ∧ (∀ b ∈ s.runningBenches, b < 160 → t.flag (F.bncStatusRunning b) = false)
        ∧ (∀ b ∈ s.runningBenches, b < 160 → s.flag (F.bncStatusRunning b) = true → t.fld (F.bncStatusFault b) = 1
            ∧ (s.touches (.bench b) = true → t.run.halt.isSome = true))
        ∧ t.benches = s.benches) := by
  refine ⟨_, execKerfStart_cut s l h hl, ?_⟩
  generalize s.run.since + (l.cutRun s.run.cut).length = at_
  dsimp only
  have hu : ((s.reachTick at_).drainFrom at_).Has (fun w => w.run.phase = .drain ∧ w.run.since = at_ ∧ w.parts = s.parts
      ∧ w.plain = { s.plain with tick := max s.plain.tick at_ } ∧ w.benches = s.benches) :=
    State.Has.drainFrom (.of_reachTick _ ⟨rfl, rfl, rfl⟩) at_
  have hf (g : Field) (b : Nat) (hg : g.addr = (F.bncStatusRunning b).addr) :
      ((s.reachTick at_).drainFrom at_).fld g = s.fld g := by
    rw [State.fld, State.regs_drainFrom]
    exact s.fld_reachTick at_ (hg ▸ not_clocked_bench b)
  generalize (s.reachTick at_).drainFrom at_ = u at hu hf ⊢
  have hparts : u.parts = s.parts := hu.2.2.1
  rw [State.runningBenches_congr hparts (fun b => congrArg (· != 0) (hf _ b rfl))]
  have hended (b : Nat) (hb : b ∈ s.runningBenches) : s.CutEnded
      ((((s.runningBenches.foldl State.endCut u).raiseControl 4).raiseFw 1 0).raiseFw 2 2) b := by
    have he := State.cutEnded_endCuts s.runningBenches u hb
    have hflag : u.flag (F.bncStatusRunning b) = s.flag (F.bncStatusRunning b) := congrArg (· != 0) (hf _ b rfl)
    rw [State.CutEnded, hflag, State.touches_bench hparts] at he
    exact State.CutEnded.mono he (fun g hg => State.fld_raised (hg ▸ quiet_bench b))
      (fun h => State.halt_of_has (State.has_halt h).raiseControl.raiseFw.raiseFw)
  have he := (hu.anyHalt fun _ _ _ h => h).foldl (f := State.endCut) (l := s.runningBenches) (fun h b => h.endCut b)
  have hw := (he.raiseControl (line := 4)).raiseFw (k := 1) (line := 0) |>.raiseFw (k := 2) (line := 2)
  generalize (((s.runningBenches.foldl State.endCut u).raiseControl 4).raiseFw 1 0).raiseFw 2 2 = t at hended hw ⊢
  obtain ⟨hphase, hsince, -, hplain, hbenches⟩ := hw.of_anyHalt
  exact ⟨hphase, hsince, congrArg Plain.tick hplain, fun b hb _ => (hended b hb).1, fun b hb _ => (hended b hb).2, hbenches⟩

/-! ### CUT_START -/

theorem Bench.entryFor_congr {x y : Bench} (h : y.prog = x.prog) (c : Nat) : y.entryFor c = x.entryFor c := by
  unfold Bench.entryFor
  rw [h]

/-- The programs and the data of bench b are in t as they are in s. -/
def State.DataKept (s t : State) (b : Nat) : Prop :=
  (t.bench b).prog = (s.bench b).prog ∧ (t.bench b).store = (s.bench b).store ∧ (t.bench b).vreg = (s.bench b).vreg
    ∧ (t.bench b).wins = (s.bench b).wins

theorem State.DataKept.trans {s t u : State} {b : Nat} (h : s.DataKept t b) (h' : t.DataKept u b) : s.DataKept u b := by
  obtain ⟨hp, hs, hv, hw⟩ := h
  obtain ⟨hp', hs', hv', hw'⟩ := h'
  exact ⟨hp'.trans hp, hs'.trans hs, hv'.trans hv, hw'.trans hw⟩

theorem State.DataKept.of_bench {s t : State} {b : Nat} (h : t.bench b = s.bench b) : s.DataKept t b := by
  rw [State.DataKept, h]
  exact ⟨rfl, rfl, rfl, rfl⟩

theorem State.dataKept_foldl {α : Type} {f : State → α → State} (b : Nat)
    (hf : ∀ (s : State) a, s.DataKept (f s a) b) (l : List α)
    (s : State) : s.DataKept (l.foldl f s) b := by
  induction l generalizing s with
  | nil => exact .of_bench rfl
  | cons a l ih => exact (hf s a).trans (ih _)

section
variable (s : State) (b : Nat)

/-- A sequencer at a cut start. -/
def Bench.started (x : Bench) (cut : Nat) : Bench := { x with
  slot := (x.entryFor cut).getD 0, loop := none, stall := none, window := none, released := false, abandoned := false
  mute := false }

theorem State.startBench_eq : s.startBench b = (((s.setBench b ((s.bench b).started s.run.cut)).setFlag (F.bncStatusRunning b)
    ((s.bench b).entryFor s.run.cut).isSome).setFlag (F.bncStatusOpen b) false).setFld (F.bncStatusCut b) (s.run.cut % 65536) := rfl

theorem State.startBench_bench (c : Nat) :
    (s.startBench b).bench c = if c = b then (s.bench b).started s.run.cut else s.bench c := by
  rw [State.startBench_eq, State.setFld_bench, State.setFlag_bench, State.setFlag_bench]
  split
  · next h => rw [h, State.setBench_self]
  · next h => rw [State.setBench_ne _ _ h]

theorem State.startBench_run : (s.startBench b).run = s.run := by
  rw [State.startBench_eq, State.setFld_run, State.setFlag_run, State.setFlag_run, State.setBench_run]

theorem State.startBench_plain : (s.startBench b).plain = s.plain := by
  rw [State.startBench_eq, State.setFld_plain, State.setFlag_plain, State.setFlag_plain, State.setBench_plain]

theorem State.startBench_kept (c : Nat) : s.DataKept (s.startBench b) c := by
  rw [State.DataKept, State.startBench_bench]
  split
  · next h => rw [h]; exact ⟨rfl, rfl, rfl, rfl⟩
  · exact ⟨rfl, rfl, rfl, rfl⟩

theorem State.startBench_running :
    (s.startBench b).flag (F.bncStatusRunning b) = ((s.bench b).entryFor s.run.cut).isSome := by
  have hcut : (F.bncStatusRunning b).lsb + (F.bncStatusRunning b).width ≤ (F.bncStatusCut b).lsb := by
    simp [F.bncStatusRunning, F.bncStatusCut]
  have hopen : (F.bncStatusRunning b).lsb + (F.bncStatusRunning b).width ≤ (F.bncStatusOpen b).lsb := by
    simp [F.bncStatusRunning, F.bncStatusOpen]
  rw [State.startBench_eq, State.flag, State.fld_setFld_bits _ _ (.inl hcut), ← State.flag,
    State.flag_setFlag_ne _ _ (.inr (.inl hopen)), State.flag_setFlag_self _ _ _ Nat.one_pos]

theorem State.fld_startBench_ne {g : Field} (hg : g.addr ≠ (F.bncStatusRunning b).addr) :
    (s.startBench b).fld g = s.fld g := by
  rw [State.startBench_eq, State.fld_setFld_addr (f := F.bncStatusCut b) _ _ hg, State.setFlag,
    State.fld_setFld_addr (f := F.bncStatusOpen b) _ _ hg, State.setFlag,
    State.fld_setFld_addr (f := F.bncStatusRunning b) _ _ hg, State.setBench_fld]

end

/-- Bench b has started cut c with the program that its bench in s has for it. -/
def State.Started (s t : State) (c b : Nat) : Prop :=
  (t.bench b).slot = ((s.bench b).entryFor c).getD 0 ∧ (t.bench b).loop = none
    ∧ t.flag (F.bncStatusRunning b) = ((s.bench b).entryFor c).isSome

theorem State.Started.congr {s t u : State} {c b : Nat} (h : s.Started t c b) (hb : u.bench b = t.bench b)
    (hf : u.fld (F.bncStatusRunning b) = t.fld (F.bncStatusRunning b)) : s.Started u c b := by
  rw [State.Started, hb, State.flag, hf]
  exact h

theorem State.started_startBench (s : State) (b : Nat) : s.Started (s.startBench b) s.run.cut b := by
  rw [State.Started, State.startBench_bench, if_pos rfl, State.startBench_running]
  exact ⟨rfl, rfl, rfl⟩

theorem State.run_startBenches (ls : List Nat) (s : State) : (ls.foldl State.startBench s).run = s.run :=
  State.foldl_keeps State.run State.startBench_run ls s

theorem State.started_startBenches (ls : List Nat) (s : State) {b : Nat} (hb : b ∈ ls) :
    s.Started (ls.foldl State.startBench s) s.run.cut b := by
  induction ls using List.reverseRecOn with
  | nil => exact absurd hb List.not_mem_nil
  | append_singleton ls i ih =>
    rw [List.foldl_append, List.foldl_cons, List.foldl_nil]
    by_cases e : b = i
    · subst e
      obtain ⟨hprog, -⟩ := State.dataKept_foldl b (fun s a => s.startBench_kept a b) ls s
      have h := State.started_startBench (ls.foldl State.startBench s) b
      rwa [State.Started, State.run_startBenches, Bench.entryFor_congr hprog] at h
    · have hm : b ∈ ls := by simpa [e] using hb
      exact (ih hm).congr (by rw [State.startBench_bench, if_neg e])
        (State.fld_startBench_ne _ _ (fun ea => e (bncStatus_addr_inj ea)))

theorem State.plain_startBenches (ls : List Nat) (s : State) : (ls.foldl State.startBench s).plain = s.plain :=
  State.foldl_keeps State.plain State.startBench_plain ls s

/-- The links at a cut start. -/
def State.newCuts (s : State) : State := (List.range 6).foldl (fun s j => s.setLink j ((s.link j).newCut s.kerfTick)) s

theorem State.Has.newCuts {s : State} {P : Work → Prop} (h : s.Has P) : s.newCuts.Has P := .foldl h (fun h _ => h.setLink)

theorem State.regs_newCuts (s : State) : s.newCuts.regs = s.regs :=
  State.foldl_keeps State.regs (f := fun s j => s.setLink j ((s.link j).newCut s.kerfTick)) (fun _ _ => rfl) _ _

theorem State.runningBenches_reachTick (s : State) (t : Nat) : (s.reachTick t).runningBenches = s.runningBenches :=
  State.runningBenches_congr (s.reachTick_parts t) fun b => congrArg (· != 0) (s.fld_reachTick t (not_clocked_bench b))

theorem execCutStart_start (s : State) (h : s.run.phase = .start) : execCutStart s = .next
    (let u := (s.runningBenches.foldl State.startBench (s.reachTick s.run.since)).newCuts
     ({ u with run := { u.run with phase := .cut } } : State).raiseControl 3) := by
  rw [execCutStart, if_pos h]
  dsimp only
  rw [State.runningBenches_reachTick]
  rfl

theorem cutStart_does (s : State) (h : s.run.phase = .start) : Say.Does .cutStart s (fun t =>
    t.run.phase = .cut ∧ t.plain.tick = max s.plain.tick s.run.since
      ∧ (∀ b ∈ s.runningBenches, b < 160 → (t.bench b).slot = ((s.bench b).entryFor s.run.cut).getD 0
          ∧ (t.bench b).loop = none ∧ t.flag (F.bncStatusRunning b) = ((s.bench b).entryFor s.run.cut).isSome)
      ∧ (∀ b, (t.bench b).store = (s.bench b).store ∧ (t.bench b).vreg = (s.bench b).vreg
        ∧ (t.bench b).wins = (s.bench b).wins)) := by
  refine ⟨_, execCutStart_start s h, ?_⟩
  dsimp only
  have hstarted (b : Nat) (hb : b ∈ s.runningBenches) :
      s.Started (s.runningBenches.foldl State.startBench (s.reachTick s.run.since)) s.run.cut b := by
    have hs := State.started_startBenches s.runningBenches (s.reachTick s.run.since) hb
    rwa [State.Started, State.bench_reachTick, State.reachTick_run] at hs
  have hkept (b : Nat) : s.DataKept (s.runningBenches.foldl State.startBench (s.reachTick s.run.since)) b :=
    .trans (.of_bench (State.bench_reachTick ..)) (State.dataKept_foldl b (fun s a => s.startBench_kept a b) _ _)
  have htick := congrArg Plain.tick (State.plain_startBenches s.runningBenches (s.reachTick s.run.since))
  rw [State.reachTick_plain] at htick
  generalize s.runningBenches.foldl State.startBench (s.reachTick s.run.since) = u at hstarted hkept htick ⊢
  have hu : u.newCuts.Has (fun w => w.plain = u.plain ∧ w.benches = u.benches) := State.Has.newCuts ⟨rfl, rfl⟩
  have hreg := u.regs_newCuts
  generalize u.newCuts = v at hu hreg ⊢
  have ht : (State.raiseControl { v with run := { v.run with phase := .cut } } 3).Has (AnyHalt (fun w =>
      w.run.phase = .cut ∧ w.plain = u.plain ∧ w.benches = u.benches)) :=
    State.Has.raiseControl ⟨⟨rfl, hu⟩, fun _ _ => ⟨rfl, hu⟩⟩
  have hfld (b : Nat) : (State.raiseControl { v with run := { v.run with phase := .cut } } 3).fld (F.bncStatusRunning b)
      = u.fld (F.bncStatusRunning b) := by
    rw [← State.shows_iff _ (quiet_bench b)]
    refine State.Shows.raiseControl ((State.shows_iff _ (quiet_bench b) _).2 ?_)
    exact congrArg (fun r => r.fld (F.bncStatusRunning b)) hreg
  generalize State.raiseControl { v with run := { v.run with phase := .cut } } 3 = t at ht hfld ⊢
  obtain ⟨hphase, hplain, hbenches⟩ := ht.of_anyHalt
  have hbench (b : Nat) : t.bench b = u.bench b := congrArg (fun m => Tab.get Bench.init m b) hbenches
  refine ⟨hphase, (congrArg Plain.tick hplain).trans htick, fun b hb _ => (hstarted b hb).congr (hbench b) (hfld b), fun b => ?_⟩
  rw [hbench]
  exact (hkept b).2

/-! ### RUN_START -/

/-- A part that each step of a fold writes as f says is as f says. -/
theorem State.part_foldl_setPart {f : Part → Part} {R : Part → Prop} (hR : ∀ x, R (f x)) (ps : List Nat) (s : State)
    {p : Nat} (hp : p ∈ ps) : R ((ps.foldl (fun s p => s.setPart p (f (s.part p))) s).part p) := by
  induction ps using List.reverseRecOn with
  | nil => exact absurd hp List.not_mem_nil
  | append_singleton ps q ih =>
    rw [List.foldl_append, List.foldl_cons, List.foldl_nil]
    by_cases e : p = q
    · rw [e, State.setPart_self]
      exact hR _
    · rw [State.setPart_ne _ _ e]
      exact ih (by simpa [e] using hp)

/-- A run that starts afresh: movers and buffers of its benches (03_benches.md R87; 08_tenon.md R259). -/
def State.clearMovers (s : State) (fresh : Bool) (ps : List Nat) : State :=
  if fresh then
    (ps.flatMap (fun p => maskBenches (s.part p).clusters)).foldl (fun s b =>
      s.setBench b { s.bench b with tokens := 0, prescan := [], entries := [], entryFault := [], flight := [] }) s
  else s

/-- Its synchronization counters. -/
def State.clearSync (s : State) (fresh : Bool) (ps : List Nat) : State :=
  if fresh then
    (ps.flatMap (fun p => maskList 16 (s.part p).clusters)).foldl (fun s c => s.setCluster c { s.cluster c with sync := [] }) s
  else s

/-- Its regions. -/
def State.fillParts (s : State) (fresh : Bool) (ps : List Nat) : State :=
  if fresh then (ps.filterMap (fun p => (s.part p).list)).foldl State.fillList s else s

/-- The stacks that it names leave self-refresh. -/
def State.wakeNamed (s : State) : State :=
  (List.range 12).foldl (fun s k =>
    if s.setParts.any (fun p => ((s.part p).list.map (fun l => bitOf l.stackMask k)).getD false) then
      (s.setFlag (F.memStatusSelfRefresh k) false).setMemUnit (stackUnit k)
        { s.memUnit (stackUnit k) with refreshAt := s.run.firstTick - 30 }
    else s) s

/-- The run goes on from its position, or from the first one. -/
def State.beginRun (s : State) (fresh : Bool) : State :=
  let r := s.run
  { s with
    run := { r with
      phase := .start, since := r.firstTick, resuming := false
      pass := if fresh then 0 else r.pass, cut := if fresh then 0 else r.cut
      kerfs := if fresh then 0 else r.kerfs, epoch := if fresh then 0 else r.epoch
      marks := if fresh then [] else r.marks, ckptAt := if fresh then none else r.ckptAt
      origin := if fresh then some r.firstTick else r.origin.or (some r.firstTick)
      commits := if fresh then r.commits.map (fun (c : PageCommit) => { c with kerf := 0 }) else r.commits }
    pwr := { s.pwr with energy := if fresh then [] else s.pwr.energy, latch := none }
    plain := if fresh then { s.plain with stretch := 0, stretchMax := 0 } else s.plain }

/-- Its links. -/
def State.newRuns (s : State) (fresh : Bool) : State :=
  if fresh then (List.range 6).foldl (fun s j => s.setLink j (s.link j).newRun) s else s

theorem execRunStart_armed (s : State) (h : s.run.phase = .armed) : execRunStart s = .next
    (let r := s.reachTick s.run.firstTick
     let fresh := !r.run.resuming
     let u := ((r.clearMovers fresh r.setParts).clearSync fresh r.setParts).fillParts fresh r.setParts
     let v := r.setParts.foldl (fun s p => s.setPart p { s.part p with state := .running }) u
     (((v.wakeNamed.beginRun fresh).newRuns fresh).setFlag F.dvtPlainRunning true).settleLow) := by
  rw [execRunStart, if_pos h]
  rfl

theorem State.setParts_reachTick (s : State) (t : Nat) : (s.reachTick t).setParts = s.setParts := by
  simp only [State.setParts, State.part, State.reachTick_run, State.reachTick_parts]

/-- The run and the Plain are r and x, and the benches hold what they hold in s. -/
def StartsWith (s : State) (r : Run) (x : Plain) (w : Work) : Prop :=
  w.run = r ∧ w.plain = x ∧ ∀ b, s.DataKept { s with benches := w.benches } b

theorem State.clearMovers_kept (s : State) (fresh : Bool) (ps : List Nat) (b : Nat) :
    s.DataKept (s.clearMovers fresh ps) b := by
  unfold State.clearMovers
  split
  · refine State.dataKept_foldl b (fun s a => ?_) _ s
    by_cases e : b = a
    · rw [State.DataKept, e, State.setBench_self]
      exact ⟨rfl, rfl, rfl, rfl⟩
    · exact .of_bench (State.setBench_ne _ _ e)
  · exact .of_bench rfl

theorem State.clearMovers_run_plain (s : State) (fresh : Bool) (ps : List Nat) :
    (s.clearMovers fresh ps).run = s.run ∧ (s.clearMovers fresh ps).plain = s.plain := by
  unfold State.clearMovers
  split
  · exact ⟨State.foldl_keeps State.run (fun _ _ => State.setBench_run ..) _ _,
      State.foldl_keeps State.plain (fun _ _ => State.setBench_plain ..) _ _⟩
  · exact ⟨rfl, rfl⟩

namespace State.Has
variable {s : State} {P : Work → Prop}

theorem clearSync (h : s.Has P) {fresh ps} : (s.clearSync fresh ps).Has P := .ite (.foldl h (fun h _ => h.setCluster)) h

theorem fillParts (h : s.Has P) {fresh ps} : (s.fillParts fresh ps).Has P := .ite (.foldl h (fun h _ => h.fillList)) h

theorem wakeNamed (h : s.Has P) : s.wakeNamed.Has P := .foldl h (fun h _ => .ite h.setFlag.setMemUnit h)

theorem newRuns (h : s.Has P) {fresh} : (s.newRuns fresh).Has P := .ite (.foldl h (fun h _ => h.setLink)) h

end State.Has

theorem runStart_does (s : State) (h : s.run.phase = .armed) : Say.Does .runStart s (fun t =>
    t.run.phase = .start ∧ t.run.since = s.run.firstTick ∧ t.plain.tick = max s.plain.tick s.run.firstTick
      ∧ (s.run.resuming = false → t.run.pass = 0 ∧ t.run.cut = 0 ∧ t.run.kerfs = 0 ∧ t.run.epoch = 0)
      ∧ (s.run.resuming = true → t.run.pass = s.run.pass ∧ t.run.cut = s.run.cut ∧ t.run.kerfs = s.run.kerfs)
      ∧ (∀ p ∈ s.setParts, (t.part p).state = .running)
      ∧ (∀ b, (t.bench b).store = (s.bench b).store ∧ (t.bench b).vreg = (s.bench b).vreg
        ∧ (t.bench b).wins = (s.bench b).wins)) := by
  refine ⟨_, execRunStart_armed s h, ?_⟩
  dsimp only
  rw [State.setParts_reachTick, State.reachTick_run]
  have hr : (s.reachTick s.run.firstTick).Has (StartsWith s s.run { s.plain with tick := max s.plain.tick s.run.firstTick }) :=
    .of_reachTick _ ⟨rfl, rfl, fun b => .of_bench rfl⟩
  generalize s.reachTick s.run.firstTick = r at hr ⊢
  have hm : (r.clearMovers (!s.run.resuming) s.setParts).Has
      (StartsWith s s.run { s.plain with tick := max s.plain.tick s.run.firstTick }) := by
    obtain ⟨hrun, hplain, hkept⟩ := hr
    obtain ⟨erun, eplain⟩ := r.clearMovers_run_plain (!s.run.resuming) s.setParts
    exact ⟨erun.trans hrun, eplain.trans hplain, fun b => (hkept b).trans (r.clearMovers_kept (!s.run.resuming) s.setParts b)⟩
  have hu := (hm.clearSync (fresh := !s.run.resuming) (ps := s.setParts)).fillParts (fresh := !s.run.resuming) (ps := s.setParts)
  generalize ((r.clearMovers (!s.run.resuming) s.setParts).clearSync (!s.run.resuming) s.setParts).fillParts
    (!s.run.resuming) s.setParts = u at hu ⊢
  have hv : (s.setParts.foldl (fun s p => s.setPart p { s.part p with state := .running }) u).Has (fun w =>
      StartsWith s s.run { s.plain with tick := max s.plain.tick s.run.firstTick } w
        ∧ ∀ p ∈ s.setParts, (Tab.get Part.init w.parts p).state = .running) :=
    ⟨hu.foldl (P := StartsWith s _ _) (fun h _ => h), fun p hp =>
      State.part_foldl_setPart (f := fun x => { x with state := .running }) (R := fun x => x.state = .running)
        (fun _ => rfl) s.setParts u hp⟩
  replace hv := hv.wakeNamed
  generalize (s.setParts.foldl (fun s p => s.setPart p { s.part p with state := .running }) u).wakeNamed = v at hv ⊢
  have hw : (v.beginRun (!s.run.resuming)).Has (fun w => w.run = (v.beginRun (!s.run.resuming)).run
      ∧ w.plain.tick = max s.plain.tick s.run.firstTick
      ∧ (∀ p ∈ s.setParts, (Tab.get Part.init w.parts p).state = .running)
      ∧ ∀ b, s.DataKept { s with benches := w.benches } b) := by
    obtain ⟨⟨-, hplain, hkept⟩, hstates⟩ := hv
    refine ⟨rfl, ?_, hstates, hkept⟩
    have hb : (v.beginRun (!s.run.resuming)).plain.tick = v.plain.tick := by
      unfold State.beginRun
      cases s.run.resuming <;> rfl
    exact hb.trans (congrArg Plain.tick hplain)
  replace hw := ((hw.newRuns (fresh := !s.run.resuming)).setFlag (f := F.dvtPlainRunning) (v := true)).settleLow
  generalize (((v.beginRun (!s.run.resuming)).newRuns (!s.run.resuming)).setFlag F.dvtPlainRunning true).settleLow = t at hw ⊢
  obtain ⟨hrun, htick, hstates, hkept⟩ := hw
  replace hrun : t.run = (v.beginRun (!s.run.resuming)).run := hrun
  have hvrun : v.run = s.run := hv.1.1
  rw [hrun, State.beginRun, hvrun]
  refine ⟨rfl, rfl, htick, fun hf => ?_, fun hf => ?_, hstates, fun b => (hkept b).2⟩
  · rw [hf]; exact ⟨rfl, rfl, rfl, rfl⟩
  · rw [hf]; exact ⟨rfl, rfl, rfl⟩

/-- Settles O6: each event is followed from the tick that it reaches through the steps of its definition. -/
theorem scheduleEventsMoveTheRunOn : Obligations.schedule_events_move_the_run_on := by
  unfold Obligations.schedule_events_move_the_run_on
  exact fun s => ⟨runStart_does s, cutStart_does s, fun l h hl => kerfStart_does s l h hl, kerfSeal_does s, kerfService_does s⟩

end Sys2Proof.Machine
end
section
/-! PROOFS. The operations of a tenant's compute ring (12_rings.md R349): what they check, and what loading, staging and
unloading leave of the partitions (04_cutlists.md R126, R128, R140). -/

namespace Sys2Proof.Machine
open Sys2Proof.Say

/-! ### What every operation checks -/

section
variable {s : State} {i : FnId} {r : RingId} {op : Nat} {d : Desc}

/-- An operation that may start, with a tenant bound and good operands, does what its body says. -/
theorem State.computeOp_starts {good : Desc → Bool} {body : State → OpRef → Desc → State} (hs : Starts s i r 1 op d)
    (hi : (i : Nat) ≠ 0) (hb : s.bound = true) (hg : good d = true) :
    s.computeOp i r op good body = body (s.launch i r d) ⟨i, r, d.num⟩ d := by
  obtain ⟨hnext, hgood, hengine⟩ := hs
  have hsec : s.secState = 3 := by simpa [State.bound] using hb
  have hbound : (s.launch i r d).boundStatus = none := if_pos hsec
  unfold State.computeOp State.withOp
  rw [hnext]
  dsimp only
  rw [if_neg (by simp [hgood, hengine]), hbound]
  dsimp only
  rw [if_pos ⟨hi, hg⟩]

/-- A LOAD or STAGE whose turn has come does the same. -/
theorem State.inLoadTurn_turn {f : State → State} (hs : Starts s i r 1 op d) (ht : s.loadTurn i r d.stamp = true) :
    s.inLoadTurn i r op f = f s := by
  unfold State.inLoadTurn
  rw [hs.1]
  exact if_pos ht

/-- The mask of a member set of the tenant passes its two checks. -/
theorem State.withMask_own {m : Nat} {body : State → State} (ho : OwnSet s i m) :
    (s.launch i r d).withMask ⟨i, r, d.num⟩ m body = body (s.launch i r d) := by
  obtain ⟨howner, hset, -⟩ := ho
  have hfind : (maskList 4 m).find? (fun p => ((s.launch i r d).part p).owner != some (i : Nat)) = none :=
    List.find?_eq_none.2 fun p hp => by
      have h : ((s.launch i r d).part p).owner = some (i : Nat) := howner p hp
      simp [h]
  unfold State.withMask
  rw [hfind]
  exact if_pos hset

end

/-! ### What a commit, a staging and an unloading leave of the partitions -/

theorem State.Has.applyCommits {s : State} {P : Work → Prop} (h : s.Has P) {cs held} : (applyCommits cs held s).2.Has P := by
  induction cs generalizing s held with
  | nil => exact h
  | cons c cs ih =>
    rw [Machine.applyCommits]
    exact .ite_snd (ih h) (ih h.applyCommit)

/-- Page commits that apply are no longer in hand; nothing else of the run changes. -/
theorem State.Has.runCommits {s : State} {P : Work → Prop} (h : s.Has P)
    (hp : ∀ w cs, P w → P { w with run := { w.run with commits := cs } }) : s.runCommits.Has P :=
  hp _ _ h.applyCommits

/-- The partitions are ps. -/
def PartsAre (ps : Tab Part) : Work → Prop := fun w => w.parts = ps

theorem State.has_parts (s : State) : s.Has (PartsAre s.parts) := rfl

namespace State.Has
variable {s : State} {ps : Tab Part}

theorem part (h : s.Has (PartsAre ps)) (p : Nat) : s.part p = Tab.get Part.init ps p :=
  congrArg (fun m => Tab.get Part.init m p) h

theorem loadPrograms (h : s.Has (PartsAre ps)) {clusters l} : (s.loadPrograms clusters l).Has (PartsAre ps) :=
  h.foldl (fun h _ => h)

theorem withRun (h : s.Has (PartsAre ps)) {ru} : State.Has { s with run := ru } (PartsAre ps) := h

theorem dropSets (h : s.Has (PartsAre ps)) {mask} : (s.dropSets mask).Has (PartsAre ps) := by
  refine .ite ?_ (.setFlag (.withRun ?_))
  · split
    exacts [h.others, .ite h.others h.others.withRun.complete]
  · split
    exacts [h.others, .ite h.others h.others.withRun.complete]

theorem bringSet (h : s.Has (PartsAre ps)) {mask} : (s.bringSet mask).Has (PartsAre ps) := .ite h h

end State.Has

/-- A state u with the partitions of s in which partition p is then written. -/
theorem State.part_setPart_of_parts {s u : State} (hu : u.Has (PartsAre s.parts)) (p : Nat) (f : Part → Part) (c : Nat) :
    (u.setPart p (f (u.part p))).part c = if c = p then f (s.part c) else s.part c := by
  have hpart : u.part c = s.part c := hu.part c
  split
  · next e => rw [← e, State.setPart_self, hpart]
  · next e => rw [State.setPart_ne _ _ e, hpart]

/-- A partition that a cutlist has been committed to. -/
def Part.committed (l : Cutlist) (x : Part) : Part :=
  { x with state := .loaded, list := some l, staged := none, retained := [], halted := false }

theorem State.commitList_part (s : State) (l : Cutlist) (p : Nat) :
    (s.commitList l).part p = if p = l.partition then (s.part p).committed l else s.part p :=
  State.part_setPart_of_parts (s.has_parts.wakeStacks.takeMemory.loadPrograms.loadWindows) l.partition (Part.committed l) p

theorem State.stageList_part (s : State) (l : Cutlist) :
    ((s.stageList l).part l.partition).state = .staged ∧ ((s.stageList l).part l.partition).staged = some l := by
  unfold State.stageList
  dsimp only
  rw [State.setPart_self]
  exact ⟨rfl, rfl⟩

/-- A partition that has given up its cutlist. -/
def Part.unloaded (x : Part) : Part :=
  { x with state := .empty, mates := 0, list := none, staged := none, retained := [], halted := false }

/-- A partition whose staging has been given up. -/
def Part.unstaged (x : Part) : Part := { x with state := if x.state = .staged then .running else x.state, staged := none }

theorem State.unstage_part (s : State) (p c : Nat) :
    (s.unstage p).part c = if c = p ∧ (s.part p).staged.isSome then (s.part c).unstaged else s.part c := by
  unfold State.unstage
  split
  · next h => simp [h]
  · next l h =>
    have hz := s.has_parts.foldl (l := l.regions.filter (fun r => r.init != 3)) (f := fun s r => (s.zeroRegion r).dropRegion r)
      (fun h _ => h.zeroRegion.dropRegion)
    have hu {bs} := hz.pruneRegs.foldl (l := bs) (f := fun s b => s.setBench b { s.bench b with staging := [] }) (fun h _ => h)
    simp only [h, Option.isSome_some, and_true]
    exact State.part_setPart_of_parts hu p Part.unstaged c

theorem State.unloadPart_part (s : State) (p c : Nat) :
    (s.unloadPart p).part c = if c = p then (s.part c).unloaded else s.part c := by
  have hd := (s.unstage p).has_parts.dropOld (old := (s.unstage p).heldRegions p) (new := [])
  have hb {bs} := hd.foldl (l := bs) (f := fun s b => s.setBench b { s.bench b with prog := [] }) (fun h _ => h)
  have hw {bs cs} := (hb (bs := bs)).foldl (l := cs) (f := fun s c => s.loadWindow c []) (fun h _ => h.loadWindow)
  refine (State.part_setPart_of_parts hw p Part.unloaded c).trans ?_
  rw [State.unstage_part]
  split
  · split <;> rfl
  · next h => rw [if_neg (fun e => h e.1)]

/-! ### LOAD -/

/-- The containers of a fitted member set are committed. -/
def State.commitSet (s : State) (cs : List (Cont × Nat)) : State :=
  let mask := partMask cs
  let s := (cs.map (fun c => c.1.cutlist)).foldl State.commitList s
  (maskList 4 mask).foldl (fun s p => s.setPart p { s.part p with mates := mask }) (s.dropSets mask)

/-- It becomes the current set where there is none, and its valleys are powered. -/
def State.loadSet (s : State) (cs : List (Cont × Nat)) : State :=
  let s := s.commitSet cs
  let s := if s.run.parts = 0 then s.bringSet (partMask cs) else s
  if s.scheduled then s.gateValleys else s.gateValleys.runCommits

section
variable {commits : Bool} {s : State} {o : OpRef} {d : Desc} (h1 : 1 ≤ d.w0 32 3) (h4 : d.w0 32 3 ≤ 4)
  (hf : s.anyFenced (partMask (s.readMembers (d.le 8 8) (d.w0 32 3))) = false)
include h1 h4 hf

/-- LOAD of a member set that does not fit. -/
theorem State.doLoad_misfit {x : Misfit} (hx : s.fit o.fn false ((s.readMembers (d.le 8 8) (d.w0 32 3)).map Prod.fst)
    ((s.readMembers (d.le 8 8) (d.w0 32 3)).map Prod.snd) s.acceptsLoad = some x) :
    State.doLoad commits s o d = s.complete o x.1 x.2 := by
  unfold State.doLoad
  dsimp only
  rw [if_neg (by omega), if_neg (by simp [hf]), hx]

/-- LOAD of one that fits. -/
theorem State.doLoad_fit (hx : s.fit o.fn false ((s.readMembers (d.le 8 8) (d.w0 32 3)).map Prod.fst)
    ((s.readMembers (d.le 8 8) (d.w0 32 3)).map Prod.snd) s.acceptsLoad = none) :
    State.doLoad commits s o d = if ¬ commits then s.complete o Status.internal 0
      else (s.loadSet (s.readMembers (d.le 8 8) (d.w0 32 3))).complete o Status.ok 0 := by
  unfold State.doLoad
  dsimp only
  rw [if_neg (by omega), if_neg (by simp [hf]), hx]
  rfl

end

theorem State.commitSet_mates (s : State) (cs : List (Cont × Nat)) {p : Nat} (hp : p ∈ maskList 4 (partMask cs)) :
    ((s.commitSet cs).part p).mates = partMask cs :=
  State.part_foldl_setPart (f := fun x => { x with mates := partMask cs }) (R := fun x => x.mates = partMask cs)
    (fun _ => rfl) _ _ hp

theorem State.commitSet_single (s : State) (c : Cont × Nat) :
    ((s.commitSet [c]).part c.1.cutlist.partition).list = some c.1.cutlist
      ∧ ((s.commitSet [c]).part c.1.cutlist.partition).state = .loaded := by
  have hstep (s : State) (p : Nat) :
      (fun s : State => ((s.part c.1.cutlist.partition).list, (s.part c.1.cutlist.partition).state))
        (s.setPart p { s.part p with mates := partMask [c] })
      = ((s.part c.1.cutlist.partition).list, (s.part c.1.cutlist.partition).state) := by
    by_cases e : c.1.cutlist.partition = p
    · dsimp only
      rw [e, State.setPart_self]
    · dsimp only
      rw [State.setPart_ne _ _ e]
  have hd : ((s.commitList c.1.cutlist).dropSets (partMask [c])).part c.1.cutlist.partition
      = (s.part c.1.cutlist.partition).committed c.1.cutlist :=
    ((s.commitList c.1.cutlist).has_parts.dropSets.part _).trans
      ((State.commitList_part ..).trans (if_pos rfl))
  have h := State.foldl_keeps
    (fun s => ((s.part c.1.cutlist.partition).list, (s.part c.1.cutlist.partition).state)) hstep
    (maskList 4 (partMask [c])) ((s.commitList c.1.cutlist).dropSets (partMask [c]))
  rw [hd] at h
  exact ⟨congrArg Prod.fst h, congrArg Prod.snd h⟩

theorem State.loadSet_part (s : State) (cs : List (Cont × Nat)) (p : Nat) : (s.loadSet cs).part p = (s.commitSet cs).part p := by
  have h := (s.commitSet cs).has_parts
  have hb := State.Has.ite (c := (s.commitSet cs).run.parts = 0) (h.bringSet (mask := partMask cs)) h
  exact State.Has.part (.ite hb.gateValleys (hb.gateValleys.runCommits fun _ _ h => h)) p

section
variable {s : State} {i : FnId} {r : RingId} {d : Desc}

theorem execLoad_starts (commits : Bool) (hs : Starts s i r 1 0x01 d) (hi : (i : Nat) ≠ 0) (hb : s.bound = true)
    (ht : s.loadTurn i r d.stamp = true) (hg : d.good 7 allBits 0 0 .none = true) :
    exec (.load i r commits) s = .next (State.doLoad commits (s.launch i r d) ⟨i, r, d.num⟩ d) :=
  congrArg Host.Outcome.next ((State.inLoadTurn_turn hs ht).trans (State.computeOp_starts hs hi hb hg))

/-- The facts of a started LOAD, over the state that the start leaves. -/
theorem load_cases {s1 : State} {cs : List (Cont × Nat)} (h1 : 1 ≤ d.w0 32 3) (h4 : d.w0 32 3 ≤ 4)
    (hcs : s1.readMembers (d.le 8 8) (d.w0 32 3) = cs) (hf : s1.anyFenced (partMask cs) = false) :
    (s1.fit i false (cs.map Prod.fst) (cs.map Prod.snd) s1.acceptsLoad = none →
      State.doLoad true s1 ⟨i, r, d.num⟩ d = (s1.loadSet cs).complete ⟨i, r, d.num⟩ Status.ok 0
        ∧ State.doLoad false s1 ⟨i, r, d.num⟩ d = s1.complete ⟨i, r, d.num⟩ Status.internal 0) ∧
    (∀ commits x, s1.fit i false (cs.map Prod.fst) (cs.map Prod.snd) s1.acceptsLoad = some x →
      State.doLoad commits s1 ⟨i, r, d.num⟩ d = s1.complete ⟨i, r, d.num⟩ x.1 x.2) := by
  subst hcs
  exact ⟨fun hn => ⟨(State.doLoad_fit (o := ⟨i, r, d.num⟩) h1 h4 hf hn).trans (if_neg (by simp)),
    (State.doLoad_fit (o := ⟨i, r, d.num⟩) h1 h4 hf hn).trans (if_pos (by simp))⟩,
    fun _ _ hx => State.doLoad_misfit (o := ⟨i, r, d.num⟩) h1 h4 hf hx⟩

theorem anyFenced_launch (m : Nat) : (s.launch i r d).anyFenced m = s.anyFenced m := by
  simp only [State.anyFenced, State.launch, State.part, State.setRing_parts]

theorem load_does (hi : (i : Nat) ≠ 0) (hb : s.bound = true) (hs : Starts s i r 1 0x01 d) (ht : s.loadTurn i r d.stamp = true)
    (hg : d.good 7 allBits 0 0 .none = true) (h1 : 1 ≤ d.w0 32 3) (h4 : d.w0 32 3 ≤ 4) :
    let s1 := s.launch i r d
    let cs := s1.readMembers (d.le 8 8) (d.w0 32 3)
    s.anyFenced (partMask cs) = false →
      (s1.fit i false (cs.map Prod.fst) (cs.map Prod.snd) s1.acceptsLoad = none →
        Ends (.load i r true) s i r d Status.ok 0 (fun u => (∀ p ∈ maskList 4 (partMask cs), (u.part p).mates = partMask cs)
          ∧ ∀ c, cs = [c] → c.1.cutlist.partition < 4 →
            (u.part c.1.cutlist.partition).list = some c.1.cutlist ∧ (u.part c.1.cutlist.partition).state = .loaded)) ∧
      (s1.fit i false (cs.map Prod.fst) (cs.map Prod.snd) s1.acceptsLoad = none →
        Refuses (.load i r false) s i r d Status.internal 0) ∧
      (∀ commits x, s1.fit i false (cs.map Prod.fst) (cs.map Prod.snd) s1.acceptsLoad = some x →
        Refuses (.load i r commits) s i r d x.1 x.2) := by
  have he (commits : Bool) := execLoad_starts commits hs hi hb ht hg
  have hfe := fun m => anyFenced_launch (s := s) (i := i) (r := r) (d := d) m
  unfold Refuses Ends
  generalize s.launch i r d = s1 at he hfe ⊢
  dsimp only
  intro hf
  obtain ⟨hfit, hmis⟩ := load_cases (i := i) (r := r) h1 h4 rfl ((hfe _).trans hf)
  refine ⟨fun hn => ?_, fun hn => ?_, fun commits x hx => ?_⟩
  · refine ⟨_, (he true).trans (congrArg _ (hfit hn).1), s1.loadSet _, ⟨fun p hp => ?_, fun c hc _ => ?_⟩, rfl⟩
    · rw [State.loadSet_part]
      exact s1.commitSet_mates _ hp
    · rw [State.loadSet_part, hc]
      exact s1.commitSet_single c
  · exact ⟨_, (he false).trans (congrArg _ (hfit hn).2), rfl⟩
  · exact ⟨_, (he commits).trans (congrArg _ (hmis commits x hx)), rfl⟩

end

end Sys2Proof.Machine
end
section
/-! PROOFS. START, STOP and UNLOAD of a member set (04_cutlists.md R126, R132, R133; 12_rings.md R349). -/

namespace Sys2Proof.Machine
open Sys2Proof.Say

/-! ### START -/

theorem startDiff_nil (own : StartRec) : startDiff own [] = none := rfl

/-- The start round of a device that is in no Plain ends as it begins, and fixes the first tick (R187, R188). -/
theorem State.beginRound_alone {s : State} (hp : s.inPlain = false) (hr : s.run.startRecs = []) (resuming : Bool) :
    s.beginRound resuming = { s with run := { s.run with
      phase := .armed, resuming := resuming, readyTick := s.plain.tick
      firstTick := (s.plain.tick + 64 + 4095) / 4096 * 4096, startRecs := [], members := [] } } := by
  have hi {ru : Run} : ¬ State.inPlain { s with run := ru } = true := by
    rw [show State.inPlain { s with run := ru } = s.inPlain from rfl, hp]
    simp
  have hd {ru : Run} : State.diameter { s with run := ru } = 0 := if_neg hi
  unfold State.beginRound
  dsimp only
  rw [if_neg hi]
  unfold State.judgeStart
  dsimp only
  rw [if_neg hi, hr, if_neg (by simp), startDiff_nil]
  dsimp only
  rw [hd]
  rfl

theorem State.bringSet_keeps (s : State) (m : Nat) :
    (s.bringSet m).run.parts = m ∧ (s.bringSet m).run.take = s.run.take ∧ (s.bringSet m).run.startRecs = s.run.startRecs
      ∧ (s.bringSet m).plain = s.plain ∧ (s.bringSet m).parts = s.parts ∧ (s.bringSet m).benches = s.benches
      ∧ (s.bringSet m).regs = s.regs := by
  unfold State.bringSet
  split
  · next h => exact ⟨h, rfl, rfl, rfl, rfl, rfl, rfl⟩
  · next h =>
    have hr : (s.runOf m).parts = m := by
      unfold State.runOf
      rw [if_neg h]
      cases hf : s.stowed.find? (fun r => r.parts == m) with
      | none => rfl
      | some r => simpa using List.find?_some hf
    exact ⟨hr, rfl, rfl, rfl, rfl, rfl, rfl⟩

/-- The set of a START that goes on is the current one, and its run is set up. -/
def State.setUp (s : State) (o : OpRef) (d : Desc) : State :=
  let s := (s.setNeeds o (d.w0 32 4)).bringSet (d.w0 32 4)
  { s with run := { s.run with
    id := d.le 8 8, passes := d.le 16 4, start := some o
    stopCount := none, stops := [], halt := none, reports := [], noticed := [] } }

/-- START of a set that may start, while no checkpoint is being written. -/
theorem State.doStart_starts {s : State} {o : OpRef} {d : Desc} (hw : ∀ body, s.withMask o (d.w0 32 4) body = body s)
    (hf : s.anyFenced (d.w0 32 4) = false) (hp : s.startPending = false) (hr : s.restoring (d.w0 32 4) = false)
    (hn : d.le 16 4 ≠ 0) (hh : (maskList 4 (d.w0 32 4)).any (fun p => (s.part p).halted) = false) (ht : s.run.take = none) :
    State.doStart s o d = (s.setUp o d).beginRound ((maskList 4 (d.w0 32 4)).any (fun p => (s.part p).state == .stopped)) := by
  have htake : (s.setUp o d).run.take = none := (State.bringSet_keeps ..).2.1.trans ht
  unfold State.doStart
  dsimp only
  rw [hw, if_neg (by simp [hf]), if_neg (by simp [hp]), if_neg (by simp [hr, hn]), if_neg (by simp [hh])]
  refine if_neg ?_
  change ¬ (s.setUp o d).run.take.any _ = true
  simp [htake]

theorem State.setUp_keeps (s : State) (o : OpRef) (d : Desc) :
    (s.setUp o d).run.parts = d.w0 32 4 ∧ (s.setUp o d).run.startRecs = s.run.startRecs ∧ (s.setUp o d).plain = s.plain
      ∧ (s.setUp o d).parts = s.parts ∧ (s.setUp o d).benches = s.benches ∧ (s.setUp o d).regs = s.regs := by
  obtain ⟨hparts, -, hrecs, hplain, hps, hbs, hregs⟩ := (s.setNeeds o (d.w0 32 4)).bringSet_keeps (d.w0 32 4)
  exact ⟨hparts, hrecs, hplain, hps, hbs, hregs⟩

theorem State.inPlain_congr {s t : State} (h : t.regs = s.regs) : t.inPlain = s.inPlain := by
  unfold State.inPlain State.flag State.fld
  rw [h]

section
variable {s : State} {i : FnId} {r : RingId} {d : Desc}

theorem start_does (hi : (i : Nat) ≠ 0) (hb : s.bound = true) (hs : Starts s i r 1 0x02 d)
    (hg : d.good 15 allBits 0xFFFFFFFF 0 .none = true) (ho : OwnSet s i (d.w0 32 4)) (hp : s.startPending = false)
    (hr : s.restoring (d.w0 32 4) = false) (hn : d.le 16 4 ≠ 0)
    (hh : (maskList 4 (d.w0 32 4)).any (fun p => (s.part p).halted) = false) (ht : s.run.take = none)
    (hrec : s.run.startRecs = []) (hpl : s.inPlain = false) :
    Does (.start i r) s (fun t =>
      t.run.phase = .armed ∧ t.run.parts = d.w0 32 4 ∧ t.run.id = d.le 8 8 ∧ t.run.passes = d.le 16 4
        ∧ t.run.start = some ⟨i, r, d.num⟩ ∧ t.run.firstTick % 4096 = 0 ∧ s.plain.tick + 64 ≤ t.run.firstTick
        ∧ t.run.resuming = (maskList 4 (d.w0 32 4)).any (fun p => (s.part p).state == .stopped)
        ∧ t.parts = s.parts ∧ t.benches = s.benches) := by
  have he : exec (.start i r) s = .next (State.doStart (s.launch i r d) ⟨i, r, d.num⟩ d) :=
    congrArg Host.Outcome.next (State.computeOp_starts hs hi hb hg)
  have hw := fun body => State.withMask_own (r := r) (d := d) (body := body) ho
  have hkeep : (s.launch i r d).run = s.run ∧ (s.launch i r d).parts = s.parts ∧ (s.launch i r d).plain = s.plain
      ∧ (s.launch i r d).benches = s.benches ∧ (s.launch i r d).regs = s.regs ∧ (s.launch i r d).restores = s.restores :=
    ⟨rfl, rfl, rfl, rfl, rfl, rfl⟩
  unfold Does
  rw [he]
  generalize s.launch i r d = s1 at hw hkeep
  obtain ⟨hrun, hps, hplain, hbs, hregs, hres⟩ := hkeep
  have hpart (p : Nat) : s1.part p = s.part p := congrArg (fun m => Tab.get Part.init m p) hps
  have h1 : State.doStart s1 ⟨i, r, d.num⟩ d = _ := State.doStart_starts hw
    (by simpa only [State.anyFenced, hpart] using ho.2.2)
    (by simpa only [State.startPending, State.resumeWaits, hrun] using hp)
    (by simpa only [State.restoring, hres] using hr) hn (by simpa only [hpart] using hh) (by rw [hrun, ht])
  obtain ⟨hset, hrecs, hplain', hps', hbs', hregs'⟩ := s1.setUp_keeps ⟨i, r, d.num⟩ d
  have hrun' : (s1.setUp ⟨i, r, d.num⟩ d).run.id = d.le 8 8 ∧ (s1.setUp ⟨i, r, d.num⟩ d).run.passes = d.le 16 4
      ∧ (s1.setUp ⟨i, r, d.num⟩ d).run.start = some ⟨i, r, d.num⟩ := ⟨rfl, rfl, rfl⟩
  rw [h1]
  generalize s1.setUp ⟨i, r, d.num⟩ d = u at *
  obtain ⟨hid, hpass, hstart⟩ := hrun'
  refine ⟨_, rfl, ?_⟩
  rw [State.beginRound_alone ((State.inPlain_congr (hregs'.trans hregs)).trans hpl) (by rw [hrecs, hrun, hrec])]
  have htick : u.plain.tick = s.plain.tick := by rw [hplain', hplain]
  refine ⟨rfl, hset, hid, hpass, hstart, Nat.mul_mod_left .., ?_, by simp only [hpart], hps'.trans hps, hbs'.trans hbs⟩
  show s.plain.tick + 64 ≤ (u.plain.tick + 64 + 4095) / 4096 * 4096
  omega

/-! ### STOP -/

/-- A stop that is fetched while no swap is staged (R133). -/
theorem State.fetchStop_noSwap {s : State} (hs : s.run.swap = none) : s.fetchStop = { s with run := { s.run with
    stopCount := some (min (s.run.stopCount.getD (s.nextKerf + s.diameter + 1)) (s.nextKerf + s.diameter + 1)) } } := by
  unfold State.fetchStop
  simp only [hs]
  cases s.run.stopCount with
  | none => simp
  | some n => simp

theorem execStop_starts (hs : Starts s i r 1 0x04 d) (hi : (i : Nat) ≠ 0) (hb : s.bound = true)
    (hg : d.good 15 0 0 0 .none = true) :
    exec (.stop i r) s = .next (State.doStop (s.launch i r d) ⟨i, r, d.num⟩ d) :=
  congrArg Host.Outcome.next (State.computeOp_starts hs hi hb hg)

theorem diameter_launch_setNeeds (o : OpRef) (m : Nat) : ((s.launch i r d).setNeeds o m).diameter = s.diameter := by
  unfold State.diameter State.inPlain State.flag State.fld State.setNeeds State.launch
  rw [State.setRing_regs, State.setRing_regs]

theorem stop_running_does (hi : (i : Nat) ≠ 0) (hb : s.bound = true) (hs : Starts s i r 1 0x04 d)
    (hg : d.good 15 0 0 0 .none = true) (ho : OwnSet s i (d.w0 32 4)) (hst : s.startedSet (d.w0 32 4) = true)
    (hround : s.run.phase ≠ .round) (hidle : s.run.phase ≠ .idle) (hswap : s.run.swap = none) :
    Does (.stop i r) s (fun t => t.run.stops = s.run.stops ++ [⟨i, r, d.num⟩] ∧ t.run.phase = s.run.phase
      ∧ t.run.stopCount = some (min (s.run.stopCount.getD (s.nextKerf + s.diameter + 1)) (s.nextKerf + s.diameter + 1))) := by
  have hst1 : (s.launch i r d).startedSet (d.w0 32 4) = true := hst
  refine ⟨_, execStop_starts hs hi hb hg, ?_⟩
  unfold State.doStop
  dsimp only
  rw [State.withMask_own ho, if_neg (fun h => h.2.elim hround hidle), if_pos hst1,
    State.fetchStop_noSwap (s := (s.launch i r d).setNeeds ⟨i, r, d.num⟩ (d.w0 32 4)) hswap, diameter_launch_setNeeds]
  exact ⟨rfl, rfl, rfl⟩

theorem stop_halted_does (hi : (i : Nat) ≠ 0) (hb : s.bound = true) (hs : Starts s i r 1 0x04 d)
    (hg : d.good 15 0 0 0 .none = true) (ho : OwnSet s i (d.w0 32 4)) (hst : s.startedSet (d.w0 32 4) = false)
    (hh : (maskList 4 (d.w0 32 4)).any (fun p => (s.part p).halted) = true) :
    Refuses (.stop i r) s i r d Status.ok ((s.runOf (d.w0 32 4)).pass + (s.runOf (d.w0 32 4)).cut * 2 ^ 32) := by
  have hst1 : (s.launch i r d).startedSet (d.w0 32 4) = false := hst
  refine ⟨_, execStop_starts hs hi hb hg, ?_⟩
  unfold State.doStop
  dsimp only
  rw [State.withMask_own ho, if_neg (by simp [hst1]), if_neg (by simp [hst1])]
  exact if_pos hh

end

/-! ### UNLOAD -/

theorem State.part_foldl_unloadPart (ps : List Nat) (s : State) {p : Nat} (hp : p ∈ ps) :
    (ps.foldl State.unloadPart s).part p = (s.part p).unloaded := by
  induction ps generalizing s with
  | nil => simp at hp
  | cons q ps ih =>
    rw [List.foldl_cons]
    by_cases hq : p ∈ ps
    · rw [ih _ hq, State.unloadPart_part]
      split <;> rfl
    · have hpq : p = q := (List.mem_cons.1 hp).resolve_right hq
      have hkeep : (ps.foldl State.unloadPart (s.unloadPart q)).part p = (s.unloadPart q).part p := by
        clear ih hp
        generalize s.unloadPart q = t
        induction ps generalizing t with
        | nil => rfl
        | cons c ps ih =>
          rw [List.foldl_cons, ih (fun h => hq (List.mem_cons_of_mem _ h)), State.unloadPart_part,
            if_neg (fun e : p = c => hq (e ▸ List.mem_cons_self))]
      rw [hkeep, State.unloadPart_part, if_pos hpq]

/-- The partitions of a mask are unloaded. -/
def State.unloadSet (s : State) (m : Nat) : State :=
  let s := (((maskList 4 m).foldl State.unloadPart s).dropSets m).gateValleys
  if s.scheduled then s else s.runCommits

theorem State.unloadSet_part (s : State) {m p : Nat} (hp : p ∈ maskList 4 m) :
    (s.unloadSet m).part p = (s.part p).unloaded := by
  have h := ((maskList 4 m).foldl State.unloadPart s).has_parts.dropSets (mask := m)
  exact (State.Has.part (.ite h.gateValleys (h.gateValleys.runCommits fun _ _ h => h)) p).trans
    (State.part_foldl_unloadPart _ _ hp)

section
variable {s : State} {i : FnId} {r : RingId} {d : Desc}

theorem unload_does (hi : (i : Nat) ≠ 0) (hb : s.bound = true) (hs : Starts s i r 1 0x05 d)
    (hg : d.good 15 0 0 0 .none = true) (ho : OwnSet s i (d.w0 32 4)) (hst : s.startedSet (d.w0 32 4) = false)
    (hr : s.restoring (d.w0 32 4) = false) :
    Ends (.unload i r) s i r d Status.ok 0 (fun u => ∀ p ∈ maskList 4 (d.w0 32 4), (u.part p).state = .empty
      ∧ (u.part p).list = none ∧ (u.part p).owner = some (i : Nat)) := by
  have hop : execUnload i r s = .next (State.doUnload (s.launch i r d) ⟨i, r, d.num⟩ d) := by
    unfold execUnload
    rw [hs.1]
    dsimp only
    rw [if_neg (by simp [ho.2.2]), State.computeOp_starts hs hi hb hg]
  have hst1 : (s.launch i r d).startedSet (d.w0 32 4) = false := hst
  have hr1 : (s.launch i r d).restoring (d.w0 32 4) = false := hr
  refine ⟨_, hop, (s.launch i r d).unloadSet (d.w0 32 4), fun p hp => ?_, ?_⟩
  · rw [State.unloadSet_part _ hp]
    exact ⟨rfl, rfl, ho.1 p hp⟩
  · unfold State.doUnload
    dsimp only
    rw [State.withMask_own ho, if_neg (by simp [hst1, hr1])]
    rfl

end

end Sys2Proof.Machine
end
section
/-! PROOFS. STAGE of a successor (04_cutlists.md R140 to R142): the Plain register stays while a cutlist is staged, and what
STAGE completes with. -/

namespace Sys2Proof.Machine
open Sys2Proof.Say

/-- A device address names one of the 16 memory units. -/
theorem devAddr_unit {a u off : Nat} (h : devAddr a = some (u, off)) : u < 16 := by
  unfold devAddr at h
  dsimp only at h
  split at h
  · simp at h
  · next =>
    split at h
    · next hc =>
      simp only [Option.some.injEq, Prod.mk.injEq] at h
      omega
    · split at h
      · next hc =>
        simp only [Option.some.injEq, Prod.mk.injEq, stackUnit] at h
        omega
      · simp at h

/-! ### A device that is in no Plain stays so -/

/-- The device is in no Plain of more than one member. -/
def State.Alone (s : State) : Prop := s.inPlain = false

namespace State.Alone
variable {s : State}

theorem ite {c : Prop} [Decidable c] {t u : State} (ht : t.Alone) (hu : u.Alone) : (if c then t else u).Alone := by
  split
  · exact ht
  · exact hu

theorem ite_snd {α : Type} {c : Prop} [Decidable c] {p q : α × State} (hp : p.2.Alone) (hq : q.2.Alone) :
    (if c then p else q).2.Alone := by
  split
  · exact hp
  · exact hq

theorem foldl {α : Type} {f : State → α → State} {l : List α} (h : s.Alone)
    (hf : ∀ {t : State}, t.Alone → ∀ a ∈ l, (f t a).Alone) :
    (l.foldl f s).Alone := by
  induction l generalizing s with
  | nil => exact h
  | cons a l ih => exact ih (hf h a List.mem_cons_self) fun ht b hb => hf ht b (List.mem_cons_of_mem _ hb)

theorem setFld (h : s.Alone) {f : Field} {n} (hf : f.addr ≠ 0xB00000) : (s.setFld f n).Alone := by
  unfold Alone State.inPlain State.flag at *
  rwa [State.fld_setFld_addr s n (g := F.dvtPlainFormed) hf.symm, State.fld_setFld_addr s n (g := F.dvtPlainPlainSize) hf.symm]

theorem setFlag (h : s.Alone) {f : Field} {b} (hf : f.addr ≠ 0xB00000) : (s.setFlag f b).Alone := h.setFld hf
theorem count (h : s.Alone) {f : Field} {n} (hf : f.addr ≠ 0xB00000) : (s.count f n).Alone := h.setFld hf
theorem setMemUnit (h : s.Alone) {u x} : (s.setMemUnit u x).Alone := h
theorem setGranule (h : s.Alone) {u g x} : (s.setGranule u g x).Alone := h
theorem setBench (h : s.Alone) {b x} : (s.setBench b x).Alone := h
theorem setPart (h : s.Alone) {p x} : (s.setPart p x).Alone := h
theorem logCount (h : s.Alone) {i n} : (s.logCount i n).Alone := h

/-! ### Memories -/

theorem touch (h : s.Alone) {u} : (s.touch u).Alone :=
  .ite (h.setFld (by simp only [F.memStatusSelfRefresh]; omega)).setMemUnit h

theorem countCorrected (h : s.Alone) {u n} : (s.countCorrected u n).Alone :=
  .ite h (.ite (h.count (by simp only [F.memEccCorrected]; omega)) (h.count (by simp only [F.nstEccCorrected]; omega)))

theorem countUncorrected (h : s.Alone) {u} : (s.countUncorrected u).Alone :=
  .ite (h.count (by simp only [F.memEccUncorrected]; omega)).logCount (h.count (by simp only [F.nstEccUncorrected]; omega))

theorem countLook (h : s.Alone) {u k} : (s.countLook u k).Alone := by
  have ht : State.Alone (if k.tagFail then (s.countCorrected u k.fixed).count (F.memIntegTagFail (u - 4)) 1
      else s.countCorrected u k.fixed) :=
    .ite (h.countCorrected.count (by simp only [F.memIntegTagFail]; omega)) h.countCorrected
  exact .ite ht.countUncorrected.setMemUnit ht

/-- A cell on the host's way to a unit that is there counts in a register of the valleys. -/
theorem countIsolated (h : s.Alone) {u v : Nat} (hu : u < 16) (hv : s.cutOff (Via.host.path u) = some v) :
    (s.countIsolated v).Alone := by
  have hmem : v ∈ Via.host.path u := List.mem_of_find?_eq_some hv
  have hlt : v < 40 := by
    simp only [Via.host, Via.path, List.nil_append, List.mem_append, List.mem_singleton, fabricValley, unitDie, unitValley,
      isHbm, decide_eq_true_eq] at hmem
    by_cases h4 : 4 ≤ u
    · simp only [if_pos h4, List.mem_singleton] at hmem
      omega
    · simp only [if_neg h4, List.not_mem_nil, or_false] at hmem
      omega
  exact h.count (by simp only [F.vlyIsoCount]; omega)

theorem writeLine (h : s.Alone) {u line bytes poisoned} (hu : u < 16) : (s.writeLine .host u line bytes poisoned).Alone := by
  unfold State.writeLine
  split
  · next hv => exact h.countIsolated hu hv
  · exact .ite h.touch.setMemUnit h.touch

theorem mergeLine (h : s.Alone) {u line o bytes} (hu : u < 16) : (s.mergeLine .host u line o bytes).2.Alone := by
  unfold State.mergeLine
  split
  · next hv => exact h.countIsolated hu hv
  · have hp : State.Alone (if isHbm u then
          ((s.touch u).countLook u ((s.touch u).lookLine u line)).count (F.memIntegPoisonWrite (u - 4)) 1
        else ((s.touch u).countCorrected u ((s.touch u).lookLine u line).fixed).count (F.nstEccUncorrected u) 1) :=
      .ite (h.touch.countLook.count (by simp only [F.memIntegPoisonWrite]; omega))
        (h.touch.countCorrected.count (by simp only [F.nstEccUncorrected]; omega))
    exact .ite_snd h.touch (.ite_snd hp.setMemUnit h.touch.countLook.setMemUnit)

theorem writeRun (h : s.Alone) {w fuel a bs} : (s.writeRun .host w fuel a bs).2.Alone := by
  induction fuel generalizing s a bs with
  | zero => exact h
  | succ fuel ih =>
    rw [State.writeRun]
    split
    · exact h
    · dsimp only
      split
      · exact ih h
      · next u off hd =>
        have hu := devAddr_unit hd
        refine .ite_snd ?_ (ih h)
        refine ih (.ite_snd ?_ ?_)
        · exact h.writeLine hu
        · exact h.mergeLine hu

theorem zeroRegion (h : s.Alone) {r} : (s.zeroRegion r).Alone := h.touch.setMemUnit

theorem fillRegion (h : s.Alone) {images r} : (s.fillRegion images r).Alone :=
  .ite h.zeroRegion (.ite h.zeroRegion.writeRun h)

theorem holdRegion (h : s.Alone) {p pool keep r} : (s.holdRegion p pool keep r).Alone := .foldl h (fun h _ _ => h.setGranule)

theorem wakeStacks (h : s.Alone) {l} : (s.wakeStacks l).Alone :=
  .foldl h (fun h _ _ => h.setFlag (by simp only [F.memStatusSelfRefresh]; omega))

theorem stageList (h : s.Alone) {l} : (s.stageList l).Alone :=
  .setPart (.foldl (.wakeStacks (.foldl h (fun h _ _ => h.setBench))) (fun h _ _ => h.holdRegion.fillRegion))

/-! ### Valleys -/

theorem setVly (h : s.Alone) {v lsb width n : Nat} (hv : v < 40) : (s.setFld ⟨0x100000 + v * 4, lsb, width⟩ n).Alone :=
  h.setFld (by dsimp only; omega)

theorem powerValley (h : s.Alone) {v on} (hv : v < 40) : (s.powerValley v on).Alone := ((h.setVly hv).setVly hv).setVly hv

theorem gateValley (h : s.Alone) {v} (hv : v < 40) : (s.gateValley v).Alone :=
  .ite (.ite (((h.powerValley hv).setVly hv).setVly hv) ((h.powerValley hv).setVly hv)) h

theorem restStack (h : s.Alone) {k} : (s.restStack k).Alone :=
  .ite (h.setFlag (by simp only [F.memStatusSelfRefresh]; omega)) h

theorem gateValleys (h : s.Alone) : s.gateValleys.Alone :=
  .foldl (.foldl h (fun h _ hv => h.gateValley (List.mem_range.1 hv))) (fun h _ _ => h.restStack)

end State.Alone

/-! ### STAGE -/

/-- A fitted successor lies in the staging halves and waits for its swap point. -/
def State.stageSet (s : State) (cs : List (Cont × Nat)) (o : OpRef) (pass cut : Nat) : State :=
  (((cs.map (fun c => c.1.cutlist)).foldl State.stageList s).gateValleys).noteSwap o pass cut

theorem State.Alone.stageAll {s : State} (h : s.Alone) {ls : List Cutlist} : (ls.foldl State.stageList s).gateValleys.Alone :=
  .gateValleys (.foldl h (fun h _ _ => h.stageList))

theorem State.stageSet_swap (s : State) (cs : List (Cont × Nat)) (o : OpRef) (pass cut : Nat) :
    ∃ no, (s.stageSet cs o pass cut).run.swap = some ⟨o, pass, cut, no, true, none⟩
      ∧ (s.inPlain = false → no = false) := by
  have hal := fun h : s.Alone => h.stageAll (ls := cs.map (fun c => c.1.cutlist))
  unfold State.stageSet
  generalize ((cs.map (fun c => c.1.cutlist)).foldl State.stageList s).gateValleys = u at *
  refine ⟨_, rfl, fun h => ?_⟩
  have hu : u.inPlain = false := hal h
  exact Bool.and_eq_false_imp.2 fun e => absurd (hu.symm.trans e) (by simp)

theorem State.stageSet_single (s : State) (c : Cont × Nat) (o : OpRef) (pass cut : Nat) :
    ((s.stageSet [c] o pass cut).part c.1.cutlist.partition).staged = some c.1.cutlist
      ∧ ((s.stageSet [c] o pass cut).part c.1.cutlist.partition).state = .staged := by
  have h : (s.stageSet [c] o pass cut).part c.1.cutlist.partition = (s.stageList c.1.cutlist).part c.1.cutlist.partition :=
    (s.stageList c.1.cutlist).has_parts.gateValleys.part _
  obtain ⟨hstate, hstaged⟩ := s.stageList_part c.1.cutlist
  rw [h]
  exact ⟨hstaged, hstate⟩

section
variable {commits : Bool} {s : State} {o : OpRef} {d : Desc} (h1 : 1 ≤ d.w0 32 3) (h4 : d.w0 32 3 ≤ 4)
include h1 h4

/-- STAGE of a set that fits, at a good swap point. -/
theorem State.doStage_fit {cs : List (Cont × Nat)} (hcs : s.readMembers (d.le 8 8) (d.w0 32 3) = cs) (hsw : s.run.swap = none)
    (hsch : s.scheduled = true) (hgood : s.goodSwapPoint (d.le 16 4) (d.le 20 4) = true) (hf : s.anyFenced (partMask cs) = false)
    (hx : (s.setNeeds o (partMask cs)).fit o.fn true (cs.map Prod.fst) (cs.map Prod.snd)
      (s.setNeeds o (partMask cs)).acceptsStage = none)
    (hcut : cs.all (fun c => decide (d.le 20 4 < c.1.cutCount)) = true) :
    State.doStage commits s o d = if ¬ commits then (s.setNeeds o (partMask cs)).complete o Status.internal 0
      else (s.setNeeds o (partMask cs)).stageSet cs o (d.le 16 4) (d.le 20 4) := by
  subst hcs
  have hlate : ¬ (s.readMembers (d.le 8 8) (d.w0 32 3)).any (fun c => decide (c.1.cutCount ≤ d.le 20 4)) = true := by
    simp only [List.all_eq_true, List.any_eq_true, decide_eq_true_eq] at hcut ⊢
    rintro ⟨c, hc, hle⟩
    exact absurd (hcut c hc) (by omega)
  unfold State.doStage
  dsimp only
  rw [if_neg (by omega), if_neg (by simp [hsw, hsch, hgood]), if_neg (by simp [hf]), hx]
  dsimp only
  rw [if_neg hlate]
  rfl

/-- STAGE that no running set answers, of a partition that is not the tenant's. -/
theorem State.doStage_notOwned {p : Nat}
    (hno : s.run.swap.isSome = true ∨ s.scheduled = false ∨ s.goodSwapPoint (d.le 16 4) (d.le 20 4) = false)
    (hp : ((s.readMembers (d.le 8 8) (d.w0 32 3)).map (fun c => c.1.part)).find?
      (fun p => (s.part p).owner != some o.fn) = some p) :
    State.doStage commits s o d = s.complete o Status.doesNotFit (noPartition p) := by
  unfold State.doStage
  dsimp only
  rw [if_neg (by omega), if_pos (by simpa using hno), hp]

end

section
variable {s : State} {i : FnId} {r : RingId} {d : Desc}

theorem execStage_starts (commits : Bool) (hs : Starts s i r 1 0x03 d) (hi : (i : Nat) ≠ 0) (hb : s.bound = true)
    (ht : s.loadTurn i r d.stamp = true) (hg : d.good 7 allBits allBits 0 .none = true) :
    exec (.stage i r commits) s = .next (State.doStage commits (s.launch i r d) ⟨i, r, d.num⟩ d) :=
  congrArg Host.Outcome.next ((State.inLoadTurn_turn hs ht).trans (State.computeOp_starts hs hi hb hg))

/-- What STAGE checks of the run and the partitions stays as an operation is launched. -/
theorem launch_stageFacts (pass cut : Nat) :
    (s.launch i r d).run = s.run ∧ (s.launch i r d).scheduled = s.scheduled
      ∧ (s.launch i r d).goodSwapPoint pass cut = s.goodSwapPoint pass cut ∧ (s.launch i r d).inPlain = s.inPlain
      ∧ ∀ p, (s.launch i r d).part p = s.part p :=
  ⟨rfl, rfl, rfl, rfl, fun _ => rfl⟩

theorem stage_does (hi : (i : Nat) ≠ 0) (hb : s.bound = true) (hs : Starts s i r 1 0x03 d) (ht : s.loadTurn i r d.stamp = true)
    (hg : d.good 7 allBits allBits 0 .none = true) (h1 : 1 ≤ d.w0 32 3) (h4 : d.w0 32 3 ≤ 4) (hsw : s.run.swap = none)
    (hsch : s.scheduled = true) (hgood : s.goodSwapPoint (d.le 16 4) (d.le 20 4) = true) :
    let s1 := s.launch i r d
    let cs := s1.readMembers (d.le 8 8) (d.w0 32 3)
    s.anyFenced (partMask cs) = false →
      (let s2 := s1.setNeeds ⟨i, r, d.num⟩ (partMask cs)
       s2.fit i true (cs.map Prod.fst) (cs.map Prod.snd) s2.acceptsStage = none) →
      cs.all (fun c => decide (d.le 20 4 < c.1.cutCount)) = true →
      Does (.stage i r true) s (fun t =>
        (∃ no, t.run.swap = some ⟨⟨i, r, d.num⟩, d.le 16 4, d.le 20 4, no, true, none⟩ ∧ (s.inPlain = false → no = false))
          ∧ ∀ c, cs = [c] → (t.part c.1.cutlist.partition).staged = some c.1.cutlist
            ∧ (t.part c.1.cutlist.partition).state = .staged) ∧
      Does (.stage i r false) s (fun t =>
        t = (s1.setNeeds ⟨i, r, d.num⟩ (partMask cs)).complete ⟨i, r, d.num⟩ Status.internal 0) := by
  have he (commits : Bool) := execStage_starts commits hs hi hb ht hg
  have hfe := fun m => anyFenced_launch (s := s) (i := i) (r := r) (d := d) m
  obtain ⟨hrun, hsched, hpoint, hplain, -⟩ := launch_stageFacts (s := s) (i := i) (r := r) (d := d) (d.le 16 4) (d.le 20 4)
  unfold Does
  generalize s.launch i r d = s1 at *
  dsimp only
  generalize hcs : s1.readMembers (d.le 8 8) (d.w0 32 3) = cs
  intro hf hx hcut
  have hst (commits : Bool) := State.doStage_fit (commits := commits) (o := ⟨i, r, d.num⟩) h1 h4 hcs (by rw [hrun, hsw])
    (hsched.trans hsch) (hpoint.trans hgood) ((hfe _).trans hf) hx hcut
  have hpl : (s1.setNeeds ⟨i, r, d.num⟩ (partMask cs)).inPlain = s1.inPlain := rfl
  generalize s1.setNeeds ⟨i, r, d.num⟩ (partMask cs) = s2 at *
  refine ⟨⟨_, (he true).trans (congrArg _ ((hst true).trans (if_neg (by simp)))), ?_, ?_⟩,
    ⟨_, (he false).trans (congrArg _ ((hst false).trans (if_pos (by simp)))), rfl⟩⟩
  · obtain ⟨no, hswap, hno⟩ := s2.stageSet_swap cs ⟨i, r, d.num⟩ (d.le 16 4) (d.le 20 4)
    exact ⟨no, hswap, fun h => hno ((hpl.trans hplain).trans h)⟩
  · rintro c rfl
    exact s2.stageSet_single c ⟨i, r, d.num⟩ (d.le 16 4) (d.le 20 4)

theorem stage_notOwned_does (commits : Bool) (p : Nat) (hi : (i : Nat) ≠ 0) (hb : s.bound = true) (hs : Starts s i r 1 0x03 d)
    (ht : s.loadTurn i r d.stamp = true) (hg : d.good 7 allBits allBits 0 .none = true)
    (h1 : 1 ≤ d.w0 32 3) (h4 : d.w0 32 3 ≤ 4)
    (hno : s.run.swap.isSome = true ∨ s.scheduled = false ∨ s.goodSwapPoint (d.le 16 4) (d.le 20 4) = false) :
    let s1 := s.launch i r d
    let cs := s1.readMembers (d.le 8 8) (d.w0 32 3)
    (cs.map (fun c => c.1.part)).find? (fun p => (s.part p).owner != some (i : Nat)) = some p →
      Refuses (.stage i r commits) s i r d Status.doesNotFit (noPartition p) := by
  have he := execStage_starts commits hs hi hb ht hg
  obtain ⟨hrun, hsched, hpoint, -, hpart⟩ := launch_stageFacts (s := s) (i := i) (r := r) (d := d) (d.le 16 4) (d.le 20 4)
  unfold Refuses Does
  generalize s.launch i r d = s1 at *
  dsimp only
  intro hp
  exact ⟨_, he.trans (congrArg _ (State.doStage_notOwned (o := ⟨i, r, d.num⟩) h1 h4 (by rwa [hrun, hsched, hpoint])
    (by simpa only [hpart] using hp))), rfl⟩

end

/-! ### The obligation -/

/-- Settles O21: each clause is the theorem about its operation. -/
theorem operationsOnMemberSets : Obligations.operations_on_member_sets := by
  intro s i r d hi hb
  dsimp only
  refine ⟨fun hs ht hg h1 h4 hf => load_does hi hb hs ht hg h1 h4 hf, start_does hi hb, ?_, ?_, stop_running_does hi hb,
    stop_halted_does hi hb, unload_does hi hb⟩
  · exact fun hs ht hg h1 h4 hsw hsch hgood hf hx hcut => stage_does hi hb hs ht hg h1 h4 hsw hsch hgood hf hx hcut
  · exact fun commits p hs ht hg h1 h4 hno hp => stage_notOwned_does commits p hi hb hs ht hg h1 h4 hno hp

end Sys2Proof.Machine
end
section
/-! PROOFS. The deadline of the seals and of the valleys (06_plain.md R194; 19_recovery.md R493). -/

namespace Sys2Proof.Machine

/-! ### What a raised halt holds -/

/-- A halt names a trouble. -/
def Halt.Names (h : Halt) (x : Trouble) : Prop := ∃ y ∈ h.seen :: h.more, y.trouble = x

/-- The run has a halt that names a trouble. -/
def Run.HaltNames (r : Run) (x : Trouble) : Prop := ∃ h, r.halt = some h ∧ h.Names x

theorem Halt.names_merge (first : Halt) (y : Seen) (hy : y.trouble.cause ≠ 0) :
    Halt.Names { first with more := first.more ++ [y].filter (fun x =>
      x.trouble.cause != 0 && !((first.seen :: first.more).map Seen.trouble).contains x.trouble) } y.trouble := by
  by_cases hk : y.trouble ∈ (first.seen :: first.more).map Seen.trouble
  · obtain ⟨z, hz, e⟩ := List.mem_map.1 hk
    exact ⟨z, List.mem_cons.2 ((List.mem_cons.1 hz).imp_right (List.mem_append_left _)), e⟩
  · refine ⟨y, List.mem_cons_of_mem _ (List.mem_append_right _ ?_), rfl⟩
    rw [List.mem_filter, List.contains_eq_mem, decide_eq_false hk]
    simp [hy]

/-- Setting a halt for a trouble leaves one that names it, whatever halt there was (R192). -/
theorem State.setHalt_names (s : State) (k : Nat) (y : Seen) (hy : y.trouble.cause ≠ 0) :
    (s.setHalt ⟨k, y, []⟩).run.HaltNames y.trouble := by
  unfold State.setHalt
  dsimp only
  rw [State.setFlag_run]
  split
  · exact ⟨_, rfl, y, List.mem_cons_self, rfl⟩
  · next old _ =>
    refine ⟨_, rfl, ?_⟩
    split
    · exact ⟨y, List.mem_cons_self, rfl⟩
    · exact old.names_merge y hy

theorem State.setHalt_pending (s : State) (h : Halt) : (s.setHalt h).flag F.dvtPlainHaltPending = true := by
  have hp : (s.setFlag F.dvtPlainHaltPending true).flag F.dvtPlainHaltPending = true := State.flag_setFlag_self _ _ _ Nat.one_pos
  unfold State.setHalt
  generalize s.setFlag F.dvtPlainHaltPending true = u at hp
  dsimp only
  split
  exacts [hp, hp]

/-! ### What the notices of a halt leave -/

/-- A halt is pending, and link j has missed the seals of ks. -/
def State.Missed (s : State) (j : Nat) (ks : List Nat) : Prop := s.flag F.dvtPlainHaltPending = true ∧ (s.link j).missed = ks

namespace State.Missed
variable {s : State} {j : Nat} {ks : List Nat}

theorem ite {c : Prop} [Decidable c] {t u : State} (ht : t.Missed j ks) (hu : u.Missed j ks) :
    (if c then t else u).Missed j ks := by
  split
  · exact ht
  · exact hu

theorem foldl {α : Type} {f : State → α → State} {l : List α} (h : s.Missed j ks)
    (hf : ∀ {t : State}, t.Missed j ks → ∀ a, (f t a).Missed j ks) : (l.foldl f s).Missed j ks := by
  induction l generalizing s with
  | nil => exact h
  | cons a l ih => exact ih (hf h a)

theorem setFld (h : s.Missed j ks) {f : Field} {n} (hf : f.addr ≠ 0xB00000) : (s.setFld f n).Missed j ks := by
  obtain ⟨hp, hm⟩ := h
  refine ⟨?_, hm⟩
  rwa [State.flag, State.fld_setFld_addr s n (g := F.dvtPlainHaltPending) hf.symm]

theorem emit (h : s.Missed j ks) {m} : (s.emit m).Missed j ks := h
theorem setFn (h : s.Missed j ks) {i x} : (s.setFn i x).Missed j ks := h
theorem setCore (h : s.Missed j ks) {k x} : (s.setCore k x).Missed j ks := h
theorem withPins (h : s.Missed j ks) {pi} : State.Missed { s with pins := pi } j ks := h

theorem notice (h : s.Missed j ks) {links aux n} : (s.notice links aux n).Missed j ks := by
  refine .foldl h (fun h i => .foldl h (fun {t} h _ => .ite ?_ h.emit))
  obtain ⟨hp, hm⟩ := h
  refine ⟨hp, ?_⟩
  by_cases e : j = i
  · rw [e, State.setLink_self, ← e]
    exact hm
  · rw [State.setLink_ne _ _ e]
    exact hm

theorem wake (h : s.Missed j ks) {bit} : (s.wake bit).Missed j ks := by
  have hw : (s.setFld ⟨F.hifWakeCauseRtcAlarm.addr, bit, 1⟩ 1).Missed j ks := h.setFld (by simp [F.hifWakeCauseRtcAlarm])
  exact .ite (.ite hw (.ite hw.setFn.withPins.emit (.ite hw.setFn.emit hw))) hw

theorem markLine (h : s.Missed j ks) {k line} : (s.markLine k line).Missed j ks := .ite h h.setCore

end State.Missed

theorem State.setHalt_links (s : State) (h : Halt) : (s.setHalt h).links = s.links := by
  have hl := s.setFlag_links F.dvtPlainHaltPending true
  unfold State.setHalt
  generalize s.setFlag F.dvtPlainHaltPending true = u at hl
  dsimp only
  split
  exacts [hl, hl]

/-- A halt that is raised now is pending and names its trouble (R192). -/
theorem State.haltNow_names (s : State) (x : Trouble) (hx : x.cause ≠ 0) (j : Nat) :
    (s.haltNow x).Missed j (s.link j).missed ∧ (s.haltNow x).run.HaltNames x := by
  have hn := s.setHalt_names (s.kerfAtOrAfter (s.plain.tick + 64 * (s.diameter + 1))) (s.see x) hx
  have hm : (s.setHalt ⟨s.kerfAtOrAfter (s.plain.tick + 64 * (s.diameter + 1)), s.see x, []⟩).Missed j (s.link j).missed :=
    ⟨s.setHalt_pending _, congrArg (fun m => (Tab.get Link.init m j).missed) (s.setHalt_links _)⟩
  unfold State.haltNow
  dsimp only
  generalize s.setHalt ⟨s.kerfAtOrAfter (s.plain.tick + 64 * (s.diameter + 1)), s.see x, []⟩ = u at hn hm ⊢
  have hu : u.Has (fun w => w.run.HaltNames x) := hn
  have h := State.Has.markLine (k := 2) (line := 3) (State.Has.wake (bit := 4) (State.Has.ite (c := u.inPlain = true)
    (hu.notice (links := u.serviceLinks) (aux := 2) (value := s.kerfAtOrAfter (s.plain.tick + 64 * (s.diameter + 1)))) hu))
  exact ⟨.markLine (.wake (.ite hm.notice hm)), h⟩

/-! ### The deadline -/

theorem State.inPlain_reachTick (s : State) (t : Nat) : (s.reachTick t).inPlain = s.inPlain := by
  unfold State.inPlain State.flag
  rw [s.fld_reachTick t (g := F.dvtPlainFormed) (by simp [Clocked, F.dvtPlainFormed]),
    s.fld_reachTick t (g := F.dvtPlainPlainSize) (by simp [Clocked, F.dvtPlainPlainSize])]

theorem State.scheduled_congr {s t : State} (h : t.parts = s.parts) : t.scheduled = s.scheduled := by
  simp only [State.scheduled, State.runningParts, State.part, h]

theorem State.touches_congr {s t : State} (hp : t.parts = s.parts) (hi : t.inPlain = s.inPlain) (sc : Scope) :
    t.touches sc = s.touches sc := by
  simp only [State.touches, State.clusterPart, State.scheduled, State.runningParts, State.part, hp, hi]

/-- What a raised halt keeps, and what it adds. -/
theorem State.raiseHalt_touching (s : State) (x : Trouble) (ht : s.touches x.scope = true) (hx : x.cause ≠ 0) (j : Nat) :
    (s.raiseHalt x).flag F.dvtPlainHaltPending = true ∧ ((s.raiseHalt x).link j).missed = (s.link j).missed
      ∧ (s.raiseHalt x).run.HaltNames x := by
  rw [State.raiseHalt, if_pos ht]
  obtain ⟨⟨hp, hm⟩, hn⟩ := s.haltNow_names x hx j
  exact ⟨hp, hm, hn⟩

theorem State.raiseHalt_apart (s : State) (x : Trouble) (ht : s.touches x.scope = false) :
    s.raiseHalt x = { s with rcv := { s.rcv with faults := s.rcv.faults ++ [s.see x] } } := by
  rw [State.raiseHalt, if_neg (by simp [ht])]
  rfl

/-- Phase, Plain tick and benches, whatever halt is raised. -/
theorem State.raiseHalt_keeps (s : State) (x : Trouble) :
    (s.raiseHalt x).run.phase = s.run.phase ∧ (s.raiseHalt x).plain = s.plain ∧ (s.raiseHalt x).benches = s.benches :=
  State.Has.of_anyHalt (State.Has.raiseHalt
    (P := fun w => w.run.phase = s.run.phase ∧ w.plain = s.plain ∧ w.benches = s.benches)
    ⟨⟨rfl, rfl, rfl⟩, fun _ _ => ⟨rfl, rfl, rfl⟩⟩)

/-- The state in which the seal of kerf k has not come by its deadline d. -/
def State.missSeal (s : State) (j k d : Nat) : State :=
  (s.reachTick d).setLink j { (s.reachTick d).link j with missed := (k :: ((s.reachTick d).link j).missed).take keptMarks }

section
variable (s : State) (j k d : Nat)

theorem State.missSeal_missed : k ∈ ((s.missSeal j k d).link j).missed := by
  rw [State.missSeal, State.setLink_self]
  exact List.mem_cons_self

theorem State.missSeal_keeps : (s.missSeal j k d).run = s.run ∧ (s.missSeal j k d).parts = s.parts
    ∧ (s.missSeal j k d).plain.tick = max s.plain.tick d ∧ (s.missSeal j k d).benches = s.benches
    ∧ (s.missSeal j k d).rcv = s.rcv ∧ (s.missSeal j k d).inPlain = s.inPlain :=
  ⟨s.reachTick_run d, s.reachTick_parts d, congrArg Plain.tick (s.reachTick_plain d), s.reachTick_benches d, s.reachTick_rcv d,
    s.inPlain_reachTick d⟩

end

section
variable (s : State) (j : LinkId) (k d : Nat) (hl : s.serviceLinks.contains (j : Nat) = true) (hi : s.inPlain = true)
  (hd : s.sealDeadline j = some (k, d))
include hl hi hd

theorem execCutDeadlineExpiry_neighbour (hs : s.scheduled = false ∨ s.expiresAt d = true) :
    exec (.cutDeadlineExpiry (.neighbour j)) s
      = .next ((s.missSeal j k d).raiseHalt ((s.reachTick d).peerTrouble 0x03 0xFF j)) := by
  have hc : s.serviceLinks.contains (j : Nat) = true ∧ s.inPlain = true ∧ (¬ s.scheduled = true ∨ s.expiresAt d = true) :=
    ⟨hl, hi, hs.imp_left (by simp)⟩
  change execCutDeadlineExpiry (.neighbour j) s = _
  unfold execCutDeadlineExpiry
  dsimp only
  rw [hd]
  dsimp only
  rw [if_pos hc]
  rfl

theorem deadline_neighbour_does (hs : s.scheduled = true) (he : s.expiresAt d = true) :
    Say.Does (.cutDeadlineExpiry (.neighbour j)) s (fun t =>
      t.flag F.dvtPlainHaltPending = true ∧ t.run.phase = s.run.phase ∧ t.benches = s.benches
        ∧ t.plain.tick = max s.plain.tick d ∧ k ∈ (t.link j).missed
        ∧ ∃ h x, t.run.halt = some h ∧ x ∈ h.seen :: h.more ∧ x.trouble.cause = 0x03 ∧ x.trouble.detail = 0xFF) := by
  refine ⟨_, execCutDeadlineExpiry_neighbour s j k d hl hi hd (.inr he), ?_⟩
  obtain ⟨hrun, hparts, htick, hbenches, -, -⟩ := s.missSeal_keeps j k d
  have hmiss := s.missSeal_missed j k d
  have hx : ((s.reachTick d).peerTrouble 0x03 0xFF j).cause = 0x03
      ∧ ((s.reachTick d).peerTrouble 0x03 0xFF j).detail = 0xFF
      ∧ ∃ m, ((s.reachTick d).peerTrouble 0x03 0xFF j).scope = .peer m := ⟨rfl, rfl, _, rfl⟩
  generalize s.missSeal j k d = u at *
  generalize (s.reachTick d).peerTrouble 0x03 0xFF j = x at hx ⊢
  obtain ⟨hcause, hdetail, m, hscope⟩ := hx
  have ht : u.touches x.scope = true := by
    rw [hscope]
    exact (Bool.and_true _).trans ((State.scheduled_congr hparts).trans hs)
  obtain ⟨hpend, hmissed, h, hh, y, hy, rfl⟩ := u.raiseHalt_touching x ht (by omega) j
  obtain ⟨hphase, hplain, hb⟩ := u.raiseHalt_keeps y.trouble
  refine ⟨hpend, hphase.trans (congrArg Run.phase hrun), hb.trans hbenches, (congrArg Plain.tick hplain).trans htick, ?_,
    h, y, hh, hy, hcause, hdetail⟩
  rw [hmissed]
  exact hmiss

theorem deadline_neighbour_idle_does (hs : s.scheduled = false) : Say.Does (.cutDeadlineExpiry (.neighbour j)) s (fun t =>
    t.run = s.run ∧ t.benches = s.benches ∧ t.plain.tick = max s.plain.tick d ∧ k ∈ (t.link j).missed
      ∧ ∃ x, t.rcv.faults = s.rcv.faults ++ [x] ∧ x.trouble.cause = 0x03 ∧ x.trouble.detail = 0xFF) := by
  refine ⟨_, execCutDeadlineExpiry_neighbour s j k d hl hi hd (.inl hs), ?_⟩
  obtain ⟨hrun, hparts, htick, hbenches, hrcv, -⟩ := s.missSeal_keeps j k d
  have hmiss := s.missSeal_missed j k d
  have hx : ((s.reachTick d).peerTrouble 0x03 0xFF j).cause = 0x03
      ∧ ((s.reachTick d).peerTrouble 0x03 0xFF j).detail = 0xFF := ⟨rfl, rfl⟩
  generalize s.missSeal j k d = u at *
  generalize (s.reachTick d).peerTrouble 0x03 0xFF j = x at hx ⊢
  have ht : u.touches x.scope = false := Bool.and_eq_false_imp.2 fun e =>
    absurd (e.symm.trans ((State.scheduled_congr hparts).trans hs)) (by simp)
  rw [u.raiseHalt_apart x ht]
  refine ⟨hrun, hbenches, htick, hmiss, u.see x, ?_, hx⟩
  rw [hrcv]

end

theorem deadline_valley_does (s : State) (v : Fin 40) (hs : s.scheduled = true) (hk : s.run.phase.inKerf = true)
    (he : s.expiresAt (s.run.since + s.kerfLength - 1) = true) : Say.Does (.cutDeadlineExpiry (.valley v)) s (fun t =>
      t.run.phase = s.run.phase ∧ t.benches = s.benches
        ∧ (s.touches (.valley v) = true → t.flag F.dvtPlainHaltPending = true
          ∧ ∃ h x, t.run.halt = some h ∧ x ∈ h.seen :: h.more ∧ x.trouble.cause = 0x03 ∧ x.trouble.detail = (v : Nat))
        ∧ (s.touches (.valley v) = false → t.run = s.run
          ∧ ∃ x, t.rcv.faults = s.rcv.faults ++ [x] ∧ x.trouble.cause = 0x03 ∧ x.trouble.detail = (v : Nat))) := by
  have e : exec (.cutDeadlineExpiry (.valley v)) s
      = .next ((s.reachTick (s.run.since + s.kerfLength - 1)).raiseHalt ⟨1, 0x03, v, .valley v, 0⟩) :=
    congrArg Host.Outcome.next (if_pos ⟨hs, hk, he⟩)
  refine ⟨_, e, ?_⟩
  have htouch := State.touches_congr (s.reachTick_parts (s.run.since + s.kerfLength - 1))
    (s.inPlain_reachTick (s.run.since + s.kerfLength - 1)) (.valley v)
  have hrun := s.reachTick_run (s.run.since + s.kerfLength - 1)
  have hbenches := s.reachTick_benches (s.run.since + s.kerfLength - 1)
  have hrcv := s.reachTick_rcv (s.run.since + s.kerfLength - 1)
  generalize s.reachTick (s.run.since + s.kerfLength - 1) = u at *
  obtain ⟨hphase, -, hb⟩ := u.raiseHalt_keeps ⟨1, 0x03, v, .valley v, 0⟩
  refine ⟨hphase.trans (congrArg Run.phase hrun), hb.trans hbenches, fun ht => ?_, fun ht => ?_⟩
  · obtain ⟨hpend, -, h, hh, y, hy, hyt⟩ := u.raiseHalt_touching ⟨1, 0x03, v, .valley v, 0⟩ (htouch.trans ht) (by simp) 0
    exact ⟨hpend, h, y, hh, hy, by rw [hyt], by rw [hyt]⟩
  · rw [u.raiseHalt_apart _ (htouch.trans ht)]
    exact ⟨hrun, u.see _, by rw [hrcv], rfl, rfl⟩

end Sys2Proof.Machine
end
section
/-! PROOFS. The stretch latch (06_plain.md R196; 18_power.md R484 to R486). -/

namespace Sys2Proof.Machine

/-! ### The limit cap lies in its field -/

theorem State.fld_pwrLimitLimitCap_lt (s : State) : s.fld F.pwrLimitLimitCap < 2 ^ 11 :=
  Regs.fld_lt _ _ (by
    rw [lostValue, if_neg (by decide), if_neg (by decide), if_neg (by decide), if_neg (by decide)]
    decide)

theorem State.newLimitCap_lt (s : State) (p : PowerSample) : s.newLimitCap p < 2 ^ 11 := by
  have h := s.fld_pwrLimitLimitCap_lt
  unfold State.newLimitCap
  dsimp only
  split
  · omega
  · split <;> omega

/-! ### What the request reads -/

/-- t has the clocks, the position, the power core and the registers of s, but for the power limit. -/
structure SamePower (s t : State) : Prop where
  run : t.run = s.run
  plain : t.plain = s.plain
  pwr : t.pwr = s.pwr
  fld : ∀ g : Field, g.addr ≠ 0x200008 → t.fld g = s.fld g

theorem samePower_setLimit (s : State) (n : Nat) : SamePower s (s.setFld F.pwrLimitLimitCap n) :=
  ⟨s.setFld_run _ _, s.setFld_plain _ _, s.setFld_pwr _ _, fun _ hg => s.fld_setFld_addr n hg⟩

namespace SamePower
variable {s t : State} (h : SamePower s t)
include h

theorem cutEnergy (l : Cutlist) (p : PowerSample) (cut : Nat) : t.cutEnergy l p cut = s.cutEnergy l p cut := by
  have hmean : t.meanTarget = s.meanTarget := by
    have hv : (fun c => t.fld (F.pwrVtargetMv (valleyOf c))) = fun c => s.fld (F.pwrVtargetMv (valleyOf c)) :=
      funext fun c => h.fld _ (by simp only [F.pwrVtargetMv]; omega)
    rw [State.meanTarget, State.meanTarget, hv]
  have hwatts : t.arrayWatts = s.arrayWatts := by
    rw [State.arrayWatts, State.arrayWatts, h.fld F.glbIdVariant (by simp [F.glbIdVariant])]
  rw [State.cutEnergy, State.cutEnergy, h.pwr, hmean, hwatts]

theorem aheadEnergy (l : Cutlist) (p : PowerSample) (n pass cut : Nat) :
    t.aheadEnergy l p n pass cut = s.aheadEnergy l p n pass cut := by
  induction n generalizing pass cut with
  | zero => rfl
  | succ n ih => simp only [State.aheadEnergy, ih, h.cutEnergy]

theorem stretchRequest (l : Cutlist) (p : PowerSample) (cap : Nat) : t.stretchRequest l p cap = s.stretchRequest l p cap := by
  unfold State.stretchRequest State.excess
  simp only [h.aheadEnergy, h.run, h.pwr, h.plain]

theorem anyPast (thresh : Nat → Field) (ht : ∀ n, (thresh n).addr ≠ 0x200008) : t.anyPast thresh = s.anyPast thresh := by
  unfold State.anyPast
  congr 1
  funext n
  rw [h.fld _ (ht n), h.fld (F.tlmSensorValue n) (by simp only [F.tlmSensorValue]; omega)]

end SamePower

/-! ### The latch -/

/-- The request of the latch: the largest while the limiter holds, and otherwise that of R486. -/
def State.latchRequest (s : State) (l : Cutlist) (p : PowerSample) : Nat :=
  if s.anyPast F.tlmThreshCrit || (s.pwr.hold && s.anyPast F.tlmThreshWarn) then 65535
  else s.stretchRequest l p (min (s.fld F.pwrCapWatts) (s.newLimitCap p))

/-- The registers that the latch writes. -/
def State.latchFlds (s : State) (limit req watts limiter : Nat) : State :=
  (((s.setFld F.pwrLimitLimitCap limit).setFld F.pwrLimitRequest req).setFld F.pwrPeriodWatts watts).setFld
    F.pwrStatusLimiter limiter

section
variable (s : State) (limit req watts limiter : Nat)

theorem State.latchFlds_limit : (s.latchFlds limit req watts limiter).fld F.pwrLimitLimitCap = limit % 2 ^ 11 := by
  rw [State.latchFlds, State.fld_setFld_addr _ _ (by decide), State.fld_setFld_addr _ _ (by decide),
    State.fld_setFld_bits _ _ (by decide)]
  exact State.fld_setFld_self ..

theorem State.latchFlds_request : (s.latchFlds limit req watts limiter).fld F.pwrLimitRequest = req % 65536 := by
  rw [State.latchFlds, State.fld_setFld_addr _ _ (by decide), State.fld_setFld_addr _ _ (by decide)]
  exact State.fld_setFld_self ..

theorem State.latchFlds_watts : (s.latchFlds limit req watts limiter).fld F.pwrPeriodWatts = watts % 65536 := by
  rw [State.latchFlds, State.fld_setFld_addr _ _ (by decide)]
  exact State.fld_setFld_self ..

end

/-- The stretch in force shows in registers other than the power limit and the period's mean. -/
theorem State.fld_showStretch (s : State) {g : Field} (hs : g.addr ≠ 0x200000) (hf : g.addr ≠ 0x600000) :
    s.showStretch.fld g = s.fld g := by
  have hu : ((s.setFld F.pwrStatusStretch s.plain.stretch).setFlag F.pwrStatusShelfHeld
      (s.flag F.pwrCapShelfHold && decide (0 < s.plain.stretch))).fld g = s.fld g :=
    (State.fld_setFld_addr _ _ hs).trans (State.fld_setFld_addr _ _ hs)
  unfold State.showStretch
  dsimp only
  split
  · exact hu
  · exact (State.fld_setFld_addr _ _ hf).trans hu

theorem State.showStretch_pwr (s : State) : s.showStretch.pwr = s.pwr := by
  unfold State.showStretch
  dsimp only
  split
  · rw [State.setFlag_pwr, State.setFld_pwr]
  · rw [State.setFld_pwr, State.setFlag_pwr, State.setFld_pwr]

/-- What limits the power, as PWR_STATUS shows it. -/
def limitCode (req cap limit : Nat) : Nat := if req = 0 then 0 else if cap < limit then 1 else if limit < cap then 2 else 3

/-- The registers of s as its latch writes them. -/
def State.latchRegs (s : State) (l : Cutlist) (p : PowerSample) : State :=
  s.latchFlds (s.newLimitCap p) (s.latchRequest l p) p.periodW
    (limitCode (s.latchRequest l p) (s.fld F.pwrCapWatts) (s.newLimitCap p))

/-- A request that is latched at a cap. -/
def State.noteLatch (s : State) (req cap : Nat) (hold : Bool) : State :=
  { s with
    pwr := { s.pwr with latch := some (s.plain.tick, cap), hold := hold }
    plain := { s.plain with stretchMax := max s.plain.stretchMax req } }

/-- The state that a latch leaves before it shows. -/
def State.latched (s : State) (l : Cutlist) (p : PowerSample) : State :=
  (s.latchRegs l p).noteLatch (s.latchRequest l p) (min (s.fld F.pwrCapWatts) (s.newLimitCap p))
    (s.anyPast F.tlmThreshCrit || (s.pwr.hold && s.anyPast F.tlmThreshWarn))

theorem execStretchLatch_drain (s : State) (l : Cutlist) (p : PowerSample) (hl : s.schedule = some l)
    (h : s.run.phase = .drain) (hk : s.run.kerfs % 32 = 0) :
    execStretchLatch p s = .next ((s.latched l p).showStretch.raiseFw 1 2) := by
  have hsame := samePower_setLimit s (s.newLimitCap p)
  unfold execStretchLatch
  rw [hl]
  dsimp only
  rw [if_pos ⟨h, hk⟩, hsame.anyPast _ (fun n => by simp only [F.tlmThreshCrit]; omega),
    hsame.anyPast _ (fun n => by simp only [F.tlmThreshWarn]; omega), hsame.stretchRequest, hsame.pwr,
    hsame.fld F.pwrCapWatts (by decide)]
  unfold State.latched State.noteLatch State.latchRegs State.latchFlds State.latchRequest limitCode
  rfl

/-- What the latch writes, shows and leaves. -/
theorem State.latched_shows (s : State) (l : Cutlist) (p : PowerSample) :
    (s.latched l p).fld F.pwrLimitLimitCap = s.newLimitCap p
      ∧ (s.latched l p).fld F.pwrLimitRequest = s.latchRequest l p % 65536
      ∧ (s.latched l p).fld F.pwrPeriodWatts = p.periodW % 65536
      ∧ (s.latched l p).pwr.latch = some (s.plain.tick, min (s.fld F.pwrCapWatts) (s.newLimitCap p))
      ∧ (s.latched l p).plain = { s.plain with stretchMax := max s.plain.stretchMax (s.latchRequest l p) }
      ∧ (s.latched l p).run = s.run ∧ (s.latched l p).benches = s.benches := by
  have hlimit : (s.latchRegs l p).fld F.pwrLimitLimitCap = s.newLimitCap p :=
    (s.latchFlds_limit ..).trans (Nat.mod_eq_of_lt (s.newLimitCap_lt p))
  have hreq : (s.latchRegs l p).fld F.pwrLimitRequest = s.latchRequest l p % 65536 := s.latchFlds_request ..
  have hwatts : (s.latchRegs l p).fld F.pwrPeriodWatts = p.periodW % 65536 := s.latchFlds_watts ..
  have h0 : s.Has (fun w => w.plain = s.plain ∧ w.run = s.run ∧ w.benches = s.benches) := ⟨rfl, rfl, rfl⟩
  have hwork : (s.latchRegs l p).Has (fun w => w.plain = s.plain ∧ w.run = s.run ∧ w.benches = s.benches) :=
    h0.setFld.setFld.setFld.setFld
  unfold State.latched
  generalize s.latchRegs l p = u at *
  obtain ⟨hplain, hrun, hbenches⟩ := hwork
  replace hplain : u.plain = s.plain := hplain
  refine ⟨hlimit, hreq, hwatts, ?_, ?_, hrun, hbenches⟩
  · rw [← hplain]
    rfl
  · rw [← hplain]
    rfl

theorem State.latchRequest_hot {s : State} (h : s.anyPast F.tlmThreshCrit = true) (l : Cutlist) (p : PowerSample) :
    s.latchRequest l p = 65535 := if_pos (by simp [h])

theorem State.latchRequest_cool {s : State} (hc : s.anyPast F.tlmThreshCrit = false) (hw : s.anyPast F.tlmThreshWarn = false)
    (l : Cutlist) (p : PowerSample) :
    s.latchRequest l p = s.stretchRequest l p (min (s.fld F.pwrCapWatts) (s.newLimitCap p)) := if_neg (by simp [hc, hw])

/-- A latch that shows, and the interrupt that tells of it, leave what was latched. -/
theorem State.showLatch_keeps (u : State) :
    (∀ g : Field, g.addr = 0x200008 ∨ g.addr = 0x200018 → (u.showStretch.raiseFw 1 2).fld g = u.fld g)
      ∧ (u.showStretch.raiseFw 1 2).pwr = u.pwr ∧ (u.showStretch.raiseFw 1 2).plain = u.plain
      ∧ (u.showStretch.raiseFw 1 2).run.phase = u.run.phase ∧ (u.showStretch.raiseFw 1 2).benches = u.benches := by
  have h0 : u.Has (AnyHalt fun w => w.plain = u.plain ∧ w.run.phase = u.run.phase ∧ w.benches = u.benches) :=
    ⟨⟨rfl, rfl, rfl⟩, fun _ _ => ⟨rfl, rfl, rfl⟩⟩
  obtain ⟨hplain, hphase, hbenches⟩ := (h0.showStretch.raiseFw (k := 1) (line := 2)).of_anyHalt
  refine ⟨fun g hg => ?_, State.Shows.raiseFw (s := u.showStretch) (P := fun _ x => x = u.pwr) u.showStretch_pwr,
    hplain, hphase, hbenches⟩
  have hq : Quiet g.addr := .inl (by omega)
  rw [← State.shows_iff _ hq]
  exact ((State.shows_iff _ hq _).2 (u.fld_showStretch (by omega) (by omega))).raiseFw

theorem stretchLatch_does (s : State) (l : Cutlist) (p : PowerSample) (hl : s.schedule = some l) (h : s.run.phase = .drain)
    (hk : s.run.kerfs % 32 = 0) : Say.Does (.stretchLatch p) s (fun t => ∃ req,
      t.fld F.pwrLimitRequest = req % 65536 ∧ t.plain.stretchMax = max s.plain.stretchMax req
        ∧ t.fld F.pwrPeriodWatts = p.periodW % 65536
        ∧ t.pwr.latch = some (s.plain.tick, min (s.fld F.pwrCapWatts) (t.fld F.pwrLimitLimitCap))
        ∧ t.plain.stretch = s.plain.stretch ∧ t.run.phase = s.run.phase
        ∧ (s.anyPast F.tlmThreshCrit = true → req = 65535)
        ∧ (s.anyPast F.tlmThreshCrit = false → s.anyPast F.tlmThreshWarn = false →
            req = s.stretchRequest l p (min (s.fld F.pwrCapWatts) (t.fld F.pwrLimitLimitCap)))
        ∧ t.benches = s.benches) := by
  refine ⟨_, execStretchLatch_drain s l p hl h hk, s.latchRequest l p, ?_⟩
  obtain ⟨hlimit, hreq, hwatts, hlatch, hplain, hrun, hbenches⟩ := s.latched_shows l p
  obtain ⟨hfld, hpwr, hplain', hphase, hbenches'⟩ := (s.latched l p).showLatch_keeps
  rw [hfld F.pwrLimitRequest (.inl rfl), hfld F.pwrLimitLimitCap (.inl rfl), hfld F.pwrPeriodWatts (.inr rfl), hpwr, hplain',
    hphase, hbenches', hlimit, hplain, hrun]
  exact ⟨hreq, rfl, hwatts, hlatch, rfl, rfl, fun hh => State.latchRequest_hot hh l p,
    fun hc hw => State.latchRequest_cool hc hw l p, hbenches⟩

theorem stretchLatch_idle_does (s : State) (l : Cutlist) (p : PowerSample) (hl : s.schedule = some l)
    (h : s.run.phase ≠ .drain) : Say.Does (.stretchLatch p) s (fun t => t = s) := by
  refine ⟨s, ?_, rfl⟩
  change execStretchLatch p s = _
  unfold execStretchLatch
  rw [hl]
  dsimp only
  rw [if_neg (fun hc => h hc.1)]

end Sys2Proof.Machine
end
section
/-! PROOFS. What operations leave of the place of a run: its phase, its kerf count and tick, its member set and the cutlists of
the partitions. One lemma for each operation of the Commit phase that may change other parts of the run, the partitions or the
benches, in the order of the definitions. -/

namespace Sys2Proof.Machine

/-- Where a run is, and what it runs. -/
structure Place where
  phase : RunPhase
  kerfs : Nat
  since : Nat
  mask : Nat
  lists : Nat → Option Cutlist

def Work.place (w : Work) : Place :=
  ⟨w.run.phase, w.run.kerfs, w.run.since, w.run.parts, fun p => (Tab.get Part.init w.parts p).list⟩

/-- Q holds of the place. -/
abbrev AtPlace (Q : Place → Prop) : Work → Prop := AnyHalt (fun w => Q w.place)

/-- A state at the same place. -/
theorem State.Has.keep {s t : State} {Q : Place → Prop} (h : s.Has (AtPlace Q)) (e : t.work.place = s.work.place) :
    t.Has (AtPlace Q) := by
  have hq : Q t.work.place := e ▸ h.of_anyHalt
  exact ⟨hq, fun _ _ => hq⟩

theorem State.Has.atPlace {s : State} {Q : Place → Prop} (h : Q s.work.place) : s.Has (AtPlace Q) := ⟨h, fun _ _ => h⟩

namespace State.Has
variable {s : State} {Q : Place → Prop}

theorem setBench (h : s.Has (AtPlace Q)) {b x} : (s.setBench b x).Has (AtPlace Q) := h.keep rfl

theorem withPlain (h : s.Has (AtPlace Q)) {x : Plain} : State.Has { s with plain := x } (AtPlace Q) := h.keep rfl

/-- A run of which neither the phase, the kerf count and tick nor the member set changes. -/
theorem withRunRest (h : s.Has (AtPlace Q)) {i pn pa cu ep da ma ft og rt st sc sp sw ha cm tk rs ck sr me re hq ns} :
    State.Has { s with run := { s.run with
      id := i, passes := pn, pass := pa, cut := cu, epoch := ep, drainAt := da, marks := ma, firstTick := ft, origin := og
      readyTick := rt, start := st, stopCount := sc, stops := sp, swap := sw, halt := ha, commits := cm, take := tk
      resuming := rs, ckptAt := ck, startRecs := sr, members := me, reports := re, haltSeq := hq, noticed := ns } } (AtPlace Q) :=
  h.keep rfl

/-- A partition that is written with the cutlist that it has. -/
theorem setPart (h : s.Has (AtPlace Q)) {p x} (hx : x.list = (s.part p).list) : (s.setPart p x).Has (AtPlace Q) := by
  have e : (fun q => ((s.setPart p x).part q).list) = fun q => (s.part q).list := by
    funext q
    by_cases hq : q = p
    · rw [hq, State.setPart_self, hx]
    · rw [State.setPart_ne _ _ hq]
  exact h.keep (congrArg (Place.mk s.run.phase s.run.kerfs s.run.since s.run.parts) e)

theorem showError (h : s.Has (AtPlace Q)) : s.showError.Has (AtPlace Q) := h.setFld

theorem approach (h : s.Has (AtPlace Q)) {d} : (s.approach d).Has (AtPlace Q) := h.others.setFlag.setFlag

theorem selectSource (h : s.Has (AtPlace Q)) {c d} : (s.selectSource c d).Has (AtPlace Q) :=
  h.setFld.setFld.others.approach.showError

theorem enterHoldover (h : s.Has (AtPlace Q)) : s.enterHoldover.Has (AtPlace Q) :=
  h.others.setFld.setFld.setFlag.setFlag.showError

theorem reselect (h : s.Has (AtPlace Q)) : s.reselect.Has (AtPlace Q) :=
  .ite h.others (.ite h.others.enterHoldover h.others.selectSource)

theorem linkEvent (h : s.Has (AtPlace Q)) {j} : (s.linkEvent j).Has (AtPlace Q) := h.event

theorem setLinkState (h : s.Has (AtPlace Q)) {j v} : (s.setLinkState j v).Has (AtPlace Q) := .ite h h.setFld.gateValley.linkEvent

theorem dropPlain (h : s.Has (AtPlace Q)) : s.dropPlain.Has (AtPlace Q) := by
  have hl := h.setFlag (f := F.dvtPlainFormed) (v := false) |>.setFlag (f := F.dvtPlainForming) (v := false)
    |>.setFld (f := F.dvtPlainDiameter) (v := 0) |>.setFld (f := F.dvtPlainPlainSize) (v := 0)
    |>.setFld (f := F.dvtPlainMemberIndex) (v := 0)
  exact .gateValley (.withPlain (.foldl hl (fun h _ => .ite h.setLink.setFld h.setLink)))

theorem refuseMuster (h : s.Has (AtPlace Q)) {status result} : (s.refuseMuster status result).Has (AtPlace Q) := by
  unfold State.refuseMuster
  split
  exacts [h.dropPlain, h.dropPlain.complete]

theorem judgeMuster (h : s.Has (AtPlace Q)) : s.judgeMuster.Has (AtPlace Q) := by
  refine .ite h ?_
  split
  · exact h.refuseMuster
  · dsimp only
    split
    · exact .settleLow (.withPlain h.setFlag.setFlag.setFld.setFld)
    · exact .complete (.settleLow (.withPlain h.setFlag.setFlag.setFld.setFld))

theorem takeRecord (h : s.Has (AtPlace Q)) {j r} : (s.takeRecord j r).Has (AtPlace Q) := .ite h h.flood.withPlain

theorem alignLink (h : s.Has (AtPlace Q)) {j} : (s.alignLink j).Has (AtPlace Q) := h.setFld.bumpFree

theorem sendRecord (h : s.Has (AtPlace Q)) : s.sendRecord.Has (AtPlace Q) := by
  have ha := (h.foldl (l := s.serviceLinks) (f := State.alignLink) fun h _ => h.alignLink).useBound
    (labels := fun r => [r.checkLabel])
  exact .ite (.judgeMuster (.foldl (.withPlain ha.flood) (fun h _ => h.takeRecord))) h

theorem unstage (h : s.Has (AtPlace Q)) {p} : (s.unstage p).Has (AtPlace Q) := by
  unfold State.unstage
  split
  · exact h
  · next l _ =>
    have hz := h.foldl (l := l.regions.filter (fun r => r.init != 3)) (f := fun s r => (s.zeroRegion r).dropRegion r)
      (fun h _ => h.zeroRegion.dropRegion)
    exact setPart (.foldl hz.pruneRegs (fun h _ => h.setBench)) rfl

theorem endStage (h : s.Has (AtPlace Q)) {status result} : (s.endStage status result).Has (AtPlace Q) := by
  have hu := (h.foldl (l := allParts) (f := State.unstage) fun h _ => h.unstage).gateValleys
  unfold State.endStage
  dsimp only
  split
  · exact hu
  · exact hu.withRunRest.complete

theorem dropBench (h : s.Has (AtPlace Q)) {b} : (s.dropBench b).Has (AtPlace Q) :=
  h.setFlag.setFlag.setFlag.gateValley.rebuildTable

theorem benchMapOut (h : s.Has (AtPlace Q)) {b} : (s.benchMapOut b).Has (AtPlace Q) :=
  .ite h.setFld (.ite (.ite h (.ite h.setFlag h.dropBench)) (.ite h.setFlag.setFlag.setFlag.gateValley.rebuildTable
    h.setFlag))

theorem dropStack (h : s.Has (AtPlace Q)) {k} : (s.dropStack k).Has (AtPlace Q) :=
  h.setMemUnit.setFlag.setFlag.setFlag.setFlag.setFlag.gateValley.pruneRegs.rebuildTable

theorem firmwareMapOut (h : s.Has (AtPlace Q)) {k} : (s.firmwareMapOut k).Has (AtPlace Q) :=
  .ite h (.ite h.setFld.critical.setFlag h.setFld.critical.dropStack)

theorem stackMapOut (h : s.Has (AtPlace Q)) {k} : (s.stackMapOut k).Has (AtPlace Q) :=
  .ite (.ite h (.ite h.setFlag h.dropStack)) h.setFlag

theorem setShelfState (h : s.Has (AtPlace Q)) {st} : (s.setShelfState st).Has (AtPlace Q) :=
  .ite h (.ite (.critical (.foldl h.setFld (fun h _ => h.event))) (.ite (.critical (.foldl h.setFld (fun h _ =>
    h.event))) (.foldl h.setFld (fun h _ => h.event))))

theorem updateShelf (h : s.Has (AtPlace Q)) : s.updateShelf.Has (AtPlace Q) := .ite h h.setShelfState

theorem shelfStart (h : s.Has (AtPlace Q)) : s.shelfStart.Has (AtPlace Q) := .ite h h.others

theorem peerComplete (h : s.Has (AtPlace Q)) {q slot tag status result} :
    (s.peerComplete q slot tag status result).Has (AtPlace Q) := by
  unfold State.peerComplete
  split
  · exact h
  · dsimp only
    split
    exacts [h, h.others]

theorem endShelf (h : s.Has (AtPlace Q)) {op q slot tag status result} : (s.endShelf op q slot tag status result).Has (AtPlace Q)
    := by
  unfold State.endShelf
  split
  exacts [h.complete, h.peerComplete]

theorem shelfReset (h : s.Has (AtPlace Q)) {q} : (s.shelfReset q).Has (AtPlace Q) :=
  .shelfStart (.foldl h.others (fun h _ => h.endShelf))

theorem enableRing (h : s.Has (AtPlace Q)) {i r} : (s.enableRing i r).Has (AtPlace Q) := by
  refine .ite h (.ite h.setFld (.others ?_))
  split
  exacts [h.setFld.setRing.setFld.others, h.setFld.setRing.setFld]

theorem dropFetched (h : s.Has (AtPlace Q)) {i r status} : (s.dropFetched i r status).Has (AtPlace Q) := h.setRing

theorem detachStart (h : s.Has (AtPlace Q)) {i r} : (s.detachStart i r).Has (AtPlace Q) := by
  unfold State.detachStart
  split
  exacts [.ite h.withRunRest.complete h, h]

theorem dropBufs (h : s.Has (AtPlace Q)) {i r status} : (s.dropBufs i r status).Has (AtPlace Q) :=
  .foldl h.setRing (fun h _ => h.complete)

theorem setPort (h : s.Has (AtPlace Q)) {p x} : (s.setPort p x).Has (AtPlace Q) := h.others

theorem portEvent (h : s.Has (AtPlace Q)) {p} : (s.portEvent p).Has (AtPlace Q) := h.event.raiseFw

theorem dropPort (h : s.Has (AtPlace Q)) {p} : (s.dropPort p).Has (AtPlace Q) := by
  refine .ite (.portEvent (.foldl h.setPort.setFlag.setFld (fun h _ => ?_))) h
  split
  exacts [h.complete, h]

theorem setLanes (h : s.Has (AtPlace Q)) {p lanes} : (s.setLanes p lanes).Has (AtPlace Q) := .ite h h.dropPort.setFld.rebuildTable

theorem applyLanes (h : s.Has (AtPlace Q)) {p} : (s.applyLanes p).Has (AtPlace Q) := h.setLanes

theorem setNode (h : s.Has (AtPlace Q)) {k x} : (s.setNode k x).Has (AtPlace Q) := h.others

theorem applyNode (h : s.Has (AtPlace Q)) {sel f v} : (s.applyNode sel f v).Has (AtPlace Q) :=
  .ite h.setNode (.ite h.setNode (.ite h.setNode (.ite h.setNode (.ite h.setNode (.ite h.setNode h)))))

theorem etxReset (h : s.Has (AtPlace Q)) {i r status} : (s.etxReset i r status).Has (AtPlace Q) :=
  .foldl (.foldl h (fun h _ => h.setPort)) (fun h _ => h.complete)

theorem loseRestore (h : s.Has (AtPlace Q)) {o status} : (s.loseRestore o status).Has (AtPlace Q) := h.others

theorem loseTake (h : s.Has (AtPlace Q)) {status} : (s.loseTake status).Has (AtPlace Q) := h.withRunRest

theorem endWqe (h : s.Has (AtPlace Q)) {w status} : (s.endWqe w status).Has (AtPlace Q) := by
  have ht {c st} : State.Has (if w.kind ≠ 4 then s
      else if c = Status.ok then { s with host := { s.host with far := Memory.write s.host.far w.raddr w.data } }
      else s.loseTake st) (AtPlace Q) := .ite h (.ite h.others h.loseTake)
  refine .ite (.ite ht ht.loseRestore) ?_
  split
  · exact ht.complete
  · exact ht

theorem dropRoce (h : s.Has (AtPlace Q)) {n p} : (s.dropRoce n p).Has (AtPlace Q) := .foldl h (fun h _ => .ite h.setPort h)

theorem qpFail (h : s.Has (AtPlace Q)) {n statusOf} : (s.qpFail n statusOf).Has (AtPlace Q) := by
  unfold State.qpFail
  dsimp only
  split
  · exact .complete (.raiseFw (.dropRoce (.foldl h.setQp.setFld (fun h _ => h.endWqe))))
  · exact .raiseFw (.dropRoce (.foldl h.setQp.setFld (fun h _ => h.endWqe)))

theorem qpError (h : s.Has (AtPlace Q)) {n} : (s.qpError n).Has (AtPlace Q) := h.qpFail

theorem endNsOp (h : s.Has (AtPlace Q)) {ns status} : (s.endNsOp ns status).Has (AtPlace Q) :=
  .foldl h.setFld (fun h _ => h.event)

theorem dropChannel (h : s.Has (AtPlace Q)) {ch} : (s.dropChannel ch).Has (AtPlace Q) :=
  .ite h.setFlag.setFlag.others.gateValley.rebuildTable.updateShelf h

theorem resetKind (h : s.Has (AtPlace Q)) {i r} : (s.resetKind i r).Has (AtPlace Q) := by
  unfold State.resetKind
  split
  · exact h.detachStart
  · split
    exacts [h.shelfReset, h]
  · exact h.etxReset
  · exact h.dropBufs
  · split
    exacts [h.qpError, h]
  · exact h.dropBufs
  · exact h

theorem queueReset (h : s.Has (AtPlace Q)) {i r} : (s.queueReset i r).Has (AtPlace Q) :=
  .ite h (.flush (.ite h.setFld.resetKind.dropFetched h.setFld.dropFetched.resetKind))

theorem showPending (h : s.Has (AtPlace Q)) : s.showPending.Has (AtPlace Q) := h.setFld

theorem askOp (h : s.Has (AtPlace Q)) {block top op result} : (s.askOp block top op result).Has (AtPlace Q) :=
  .ite h (.ite h.setRequest h.setFld)

theorem askShelf (h : s.Has (AtPlace Q)) : s.askShelf.Has (AtPlace Q) := .ite h (.ite h.setRequest.others h.endNsOp)

theorem askFirmware (h : s.Has (AtPlace Q)) : s.askFirmware.Has (AtPlace Q) :=
  .ite h (.ite h.others.setRequest.setFld h.setFld.event)

theorem linkMapOut (h : s.Has (AtPlace Q)) {j} : (s.linkMapOut j).Has (AtPlace Q) :=
  .ite (.ite h (.ite h.setFlag h.setLinkState.gateValley.rebuildTable.sendRecord)) (.ite
    h.setFlag.setLinkState.gateValley.rebuildTable h.setFlag)

theorem channelMapOut (h : s.Has (AtPlace Q)) {c} : (s.channelMapOut c).Has (AtPlace Q) := .ite h.dropChannel h

theorem ringEnable (h : s.Has (AtPlace Q)) {i r} : (s.ringEnable i r).Has (AtPlace Q) :=
  .ite h.enableRing (.ite h.setFlag h.queueReset)

theorem portConfig (h : s.Has (AtPlace Q)) {p} : (s.portConfig p).Has (AtPlace Q) := .gateValleys (.ite h.dropPort h)

theorem ruleCommit (h : s.Has (AtPlace Q)) {p} : (s.ruleCommit p).Has (AtPlace Q) := .ite h.setFlag.setFlag h.setFlag

theorem appliedAt (h : s.Has (AtPlace Q)) {a} : (s.appliedAt a).Has (AtPlace Q) := by
  unfold State.appliedAt
  split
  · exact h.ringEnable
  · refine .ite h (.ite (.ite h.stackMapOut h) (.ite (.ite h.benchMapOut h) (.ite h.askFirmware.raiseFw (.ite
      h.raiseFw (.ite h.askOp (.ite h.askShelf (.ite h.askOp (.ite (.ite h.setRequest.setFlag h.askOp) (.ite
      h.showStretch (.ite h.reselect (.ite h.setFld ?_)))))))))))
    split
    · exact h.channelMapOut
    · split
      · exact h.linkMapOut
      · exact .foldl h (fun h _ => .ite h.applyLanes (.ite h.portConfig (.ite h.ruleCommit h)))

theorem applySets (h : s.Has (AtPlace Q)) {ws} : (s.applySets ws).Has (AtPlace Q) :=
  .foldl (.foldl (.ite h.setFlag h) (fun h _ => h.setFld.applyNode)) (fun h _ => h.appliedAt)

theorem applyGroup (h : s.Has (AtPlace Q)) {g} : (s.applyGroup g).Has (AtPlace Q) :=
  .showPending (.ite h.others.applySets.wrapAdd.setFlag h.others.applySets.wrapAdd)

theorem applyDue (h : s.Has (AtPlace Q)) : s.applyDue.Has (AtPlace Q) := .foldl h (fun h _ => h.applyGroup)

end State.Has

end Sys2Proof.Machine
end
section
/-! PROOFS. A device whose run has ended stays so while recovery serves its faults (19_recovery.md R492 to R504): one lemma for
each operation, in the order in which they call each other. -/

namespace Sys2Proof.Machine

/-- No run goes on. -/
abbrev Idle : Work → Prop := AtPlace (fun p => p.phase = .idle)

theorem State.has_idle {s : State} (h : s.run.phase = .idle) : s.Has Idle := .atPlace h

namespace State.Has
variable {s : State}

theorem anyPart (h : s.Has Idle) {p x} : (s.setPart p x).Has Idle := State.has_idle h.of_anyHalt

theorem showBanks (h : s.Has Idle) : s.showBanks.Has Idle := h.setFld.setFld.setFld

theorem eraseSector (h : s.Has Idle) {b} : (s.eraseSector b).Has Idle := h.others.markLine.showBanks

theorem cutDownload (h : s.Has Idle) : s.cutDownload.Has Idle := .ite h.eraseSector h

theorem fwcDone (h : s.Has Idle) {op status} : (s.fwcDone op status).Has Idle := h.setRequest.setFld.setFld.event

theorem fenceDownload (h : s.Has Idle) : s.fenceDownload.Has Idle := .ite h.cutDownload.fwcDone h

/-- A TAKE that fails with FENCED starts no round. -/
theorem failTake (h : s.Has Idle) : (s.failTake Status.fenced).Has Idle := by
  unfold State.failTake State.endTake
  split
  · exact h
  · refine .ite ?_ h
    split
    · exact h
    · dsimp only
      rw [if_neg (fun hc => hc.2.2.2 rfl)]
      exact h.withRunRest.complete

theorem fencePart (h : s.Has Idle) {v p} : (s.fencePart v p).Has Idle :=
  .ite (.foldl h.anyPart (fun h _ => h.raiseFw)) h.anyPart

theorem setFence (h : s.Has Idle) {v sc} : (s.setFence v sc).Has Idle := by
  unfold State.setFence
  split
  · exact .foldl h (fun h _ => h.fencePart)
  · exact .foldl (.foldl h (fun h _ => h.fencePart)) (fun h _ => h.setFlag)
  · exact h.setFlag
  · exact h.others
  · exact h
  · exact h
  · exact h.others

theorem recoveryEvent (h : s.Has Idle) {bs} : (s.recoveryEvent bs).Has Idle := h.eventBoth

theorem writeRecord (h : s.Has Idle) {l} : (s.writeRecord l).Has Idle :=
  .ite (.logCount (.logEvent (.ite h.others.setFld.recoveryEvent h.others.setFld))) (.ite
    h.others.setFld.recoveryEvent h.others.setFld)

theorem shelfSeq (h : s.Has Idle) {q seq} : (s.shelfSeq q seq).2.Has Idle := .ite_snd h.others (.ite_snd h.count h)

theorem dropFlight (h : s.Has Idle) {o} : (s.dropFlight o).Has Idle := h.setRing.flush

theorem clearBenchStatus (h : s.Has Idle) {b} : (s.clearBenchStatus b).Has Idle := h.setFlag.setFlag.setFld

theorem resetSequencer (h : s.Has Idle) {b} : (s.resetSequencer b).Has Idle := h.setBench.clearBenchStatus

theorem resetBench (h : s.Has Idle) {b} : (s.resetBench b).Has Idle := h.setBench.clearBenchStatus

theorem resetCore (h : s.Has Idle) {k} : (s.resetCore k).Has Idle := .restartCore (.ite h.killStream h)

theorem resetLink (h : s.Has Idle) {j} : (s.resetLink j).Has Idle := .ite h.setLink h.setLink.setLinkState

theorem fenceFetched (h : s.Has Idle) {i r d} : (s.fenceFetched i r d).Has Idle := by
  unfold State.fenceFetched
  extract_lets o t
  have ht : t.Has Idle := h.launch
  split
  · exact ht.complete
  · split
    · next e => exact (ht.shelfSeq.of_snd_eq e).dropFlight
    · next e => exact (ht.shelfSeq.of_snd_eq e).complete

theorem resetEngine (h : s.Has Idle) {kind} : (s.resetEngine kind).Has Idle :=
  .ite (.others (.foldl h (fun h _ => .foldl h (fun h _ => .ite (.foldl h (fun h _ => h.fenceFetched)) h)))) (.foldl
    h (fun h _ => .foldl h (fun h _ => .ite (.foldl h (fun h _ => h.fenceFetched)) h)))

theorem resetCluster (h : s.Has Idle) {c} : (s.resetCluster c).Has Idle :=
  .setCluster (.resetCore (.foldl h (fun h _ => h.resetBench)))

theorem resetValley (h : s.Has Idle) {v} : (s.resetValley v).Has Idle := by
  unfold State.resetValley
  split
  · exact h.resetCluster
  · exact .ite (.foldl h (fun h _ => h.resetLink)) (.ite (.foldl h.resetEngine (fun h _ => h.resetCore)) (.ite
      h.resetEngine (.ite (.foldl h (fun h _ => h.resetEngine)) (.ite h.resetEngine h))))

theorem behindPasses (h : s.Has Idle) {vs reset} (hreset : ∀ {t}, t.Has Idle → (reset t).Has Idle) :
    (s.behindPasses vs reset).Has Idle :=
  .foldl (hreset (.foldl h (fun h _ => h.closePasses))) (fun h _ => h.openPasses)

theorem dropRuns (s : State) : s.dropRuns.Has Idle := State.has_idle rfl

theorem resetParts (h : s.Has Idle) {mask} : (s.resetParts mask).Has Idle :=
  .foldl (.foldl (.foldl h (fun h _ => h.unstage)) (fun h _ => h.resetCluster)) (fun h _ => .ite h.anyPart h)

theorem resetCompute (s : State) : s.resetCompute.Has Idle := .fenceDownload (.gateValleys (.pruneRegs (dropRuns _)))

theorem warmReset (s : State) : s.warmReset.Has Idle := by
  unfold State.warmReset
  extract_lets t kept reset host rcv sec fw shelf tim pins u
  have hu : u.Has Idle := State.has_idle rfl
  clear_value u kept
  exact .setFld (.foldl hu (fun h _ => h.setFld))

theorem showLevel (h : s.Has Idle) {level cause} : (s.showLevel level cause).Has Idle := h.setFlag.setFld.setFld

theorem resetScope (h : s.Has Idle) {level sc} : (s.resetScope level sc).Has Idle := by
  unfold State.resetScope
  split
  · split
    exacts [h.resetSequencer, h.killStream, h]
  · split
    exacts [h.resetBench, h.resetLink, h.resetCore, h.resetValley, h.resetEngine, h]
  · exact h.resetParts
  · exact resetCompute _
  · exact h

theorem closeLevel (h : s.Has Idle) {l} : (s.closeLevel l).Has Idle := h.writeRecord.others.showLevel

theorem finishLevel (h : s.Has Idle) {l} : (s.finishLevel l).Has Idle :=
  (h.behindPasses (fun h => h.resetScope)).setFence.closeLevel

theorem settleLevels (h : s.Has Idle) : s.settleLevels.Has Idle := .foldl h (fun h _ => .ite h.finishLevel h)

theorem startL4 (s : State) {seen escalated prev} : (s.startL4 seen escalated prev).Has Idle :=
  (warmReset _).others.count.showLevel

theorem abandon (h : s.Has Idle) {level sc} : (s.abandon level sc).2.Has Idle :=
  .foldl h (fun h _ => h.setFence.closeLevel)

theorem beginLevel (h : s.Has Idle) {seen level sc escalated prev} : (s.beginLevel seen level sc escalated
    prev).Has Idle := by
  refine .ite (startL4 _) (.settleLevels ?_)
  split
  · exact .ite h.abandon.count.setFence.others.showLevel.failTake h.abandon.count.setFence.others.showLevel
  · exact h.abandon.count.setFence.others.showLevel

theorem requestL5 (h : s.Has Idle) {seen} : (s.requestL5 seen).Has Idle := h.count.writeRecord.critical.emit.others

theorem serve (h : s.Has Idle) {seen} : (s.serve seen).Has Idle := by
  refine .ite h.requestL5 ?_
  split
  · exact h.count
  · split
    exacts [h.beginLevel, h.beginLevel]

theorem serveReports (h : s.Has Idle) : s.serveReports.Has Idle :=
  .settleLevels (.foldl h.others (fun h _ => h.serve))

theorem haltEvents (h : s.Has Idle) {cause} : (s.haltEvents cause).Has Idle := .foldl h (fun h _ => h.eventBoth)

theorem nameCause (h : s.Has Idle) {cause detail m} : (s.nameCause cause detail m).Has Idle := by
  unfold State.nameCause
  dsimp only
  split
  · exact .ite h h.writeRecord
  · exact .recoveryEvent (.ite (.haltEvents (.others (.ite h h.writeRecord))) (.others (.ite h h.writeRecord)))

theorem nameReport (h : s.Has Idle) {report} : (s.nameReport report).Has Idle := .ite h.nameCause h

theorem nameDiverged (h : s.Has Idle) : s.nameDiverged.Has Idle := .ite (.foldl h (fun h _ => .ite h h.nameCause)) h

theorem nameReports (h : s.Has Idle) : s.nameReports.Has Idle :=
  .ite (.nameDiverged (.foldl h (fun h _ => h.nameReport))) h

end State.Has

end Sys2Proof.Machine
end
section
/-! PROOFS. The Commit phase of a kerf (04_cutlists.md R114, R132, R133, R142, R143): what decides how it ends, and the ends of
runs. -/

namespace Sys2Proof.Machine

/-! ### What decides how the phase ends -/

/-- t has the run and the partitions of s, and its stretch; only the note of the last checkpoint may differ. -/
structure SameSchedule (s t : State) : Prop where
  run : ∃ x, t.run = { s.run with ckptAt := x }
  parts : t.parts = s.parts
  stretch : t.plain.stretch = s.plain.stretch

namespace SameSchedule
variable {s t : State} (h : SameSchedule s t)
include h

theorem part (p : Nat) : t.part p = s.part p := congrArg (fun m => Tab.get Part.init m p) h.parts

theorem setParts : t.setParts = s.setParts := by
  obtain ⟨x, hr⟩ := h.run
  simp only [State.setParts, h.part, hr]

theorem schedule : t.schedule = s.schedule := by simp only [State.schedule, h.setParts, h.part]

theorem haltDue : t.haltDue = s.haltDue := by
  obtain ⟨x, hr⟩ := h.run
  rw [State.haltDue, State.haltDue, hr]

theorem swapsNow : t.swapsNow = s.swapsNow := by
  obtain ⟨x, hr⟩ := h.run
  rw [State.swapsNow, State.swapsNow, State.swapKerf, State.swapKerf, State.votesNo, State.votesNo, h.schedule, hr]

theorem takeStops : t.takeStops = s.takeStops := by
  obtain ⟨x, hr⟩ := h.run
  rw [State.takeStops, State.takeStops, h.schedule, h.swapsNow, hr]

theorem runOver : t.runOver = s.runOver := by
  obtain ⟨x, hr⟩ := h.run
  rw [State.runOver, State.runOver, h.schedule, hr]

theorem stopDue : t.stopDue = s.stopDue := by
  obtain ⟨x, hr⟩ := h.run
  rw [State.stopDue, State.stopDue, State.stopPoint, State.stopPoint, h.schedule, h.swapsNow, hr]

theorem nextPos : t.nextPos = s.nextPos := by
  obtain ⟨x, hr⟩ := h.run
  rw [State.nextPos, State.nextPos, h.schedule, hr]

theorem kerfLength : t.kerfLength = s.kerfLength := by
  obtain ⟨x, hr⟩ := h.run
  rw [State.kerfLength, State.kerfLength, h.schedule, h.stretch, hr]

theorem trans {u : State} (h' : SameSchedule t u) : SameSchedule s u := by
  obtain ⟨x, hr⟩ := h.run
  obtain ⟨y, hr'⟩ := h'.run
  exact ⟨⟨y, by rw [hr', hr]⟩, h'.parts.trans h.parts, h'.stretch.trans h.stretch⟩

theorem place : t.work.place = s.work.place := by
  obtain ⟨x, hr⟩ := h.run
  have hr' : t.work.run = { s.run with ckptAt := x } := hr
  have hp : t.work.parts = s.parts := h.parts
  rw [Work.place, hr', hp]
  rfl

end SameSchedule

theorem State.noteCkpt_same (s : State) : SameSchedule s s.noteCkpt := by
  unfold State.noteCkpt
  split
  · exact ⟨⟨_, rfl⟩, rfl, rfl⟩
  · split
    · exact ⟨⟨_, rfl⟩, rfl, rfl⟩
    · exact ⟨⟨_, rfl⟩, rfl, rfl⟩

/-! ### Power, links and counters before it -/

namespace State.Has
variable {s : State} {P : Work → Prop}

theorem addEnergy (h : s.Has P) {p} : (s.addEnergy p).Has P := .others (.logEnergy (.wrapAdd (.foldl h (fun h _ => h.wrapAdd))))

theorem lowerTargets (h : s.Has P) {p} : (s.lowerTargets p).Has P :=
  .foldl h (fun h _ => .ite (.ite h.raiseClock h.setTarget) h.raiseClock)

/-- Counters start again, and only the benches' change. -/
theorem snapshotStep (h : s.Has P) (hp : ∀ w bs, P w → P { w with benches := bs }) : s.snapshotStep.Has P := by
  have hb {t : State} (ht : t.Has P) {b x} : (t.setBench b x).Has P := hp _ _ ht
  exact .ite (.foldl (.foldl h (fun h _ => .others (hb (.foldl h (fun h _ => h.dbgRecord)))))
    (fun h _ => .others (.foldl h (fun h _ => h.dbgRecord)))) h

end State.Has

/-- The steps of KERF_COMMIT before its phase. -/
def State.beforeCommit (s : State) (p : KerfPower) : State :=
  let s := s.reachTick (s.run.since + s.kerfLength - 4)
  let s := (s.addEnergy p).lowerTargets p
  ((List.range 6).foldl (fun s j => s.setLink j ((s.link j).applyCoeff s.run.kerfs)) s).snapshotStep

theorem State.beforeCommit_same (s : State) (p : KerfPower) : SameSchedule s (s.beforeCommit p) := by
  have hr : (s.reachTick (s.run.since + s.kerfLength - 4)).Has (fun w =>
      w.run = s.run ∧ w.parts = s.parts ∧ w.plain.stretch = s.plain.stretch) := .of_reachTick _ ⟨rfl, rfl, rfl⟩
  have hl := (hr.addEnergy (p := p)).lowerTargets (p := p) |>.foldl (l := List.range 6)
    (f := fun s j => s.setLink j ((s.link j).applyCoeff s.run.kerfs)) (fun h _ => h.setLink)
  obtain ⟨hrun, hparts, hstretch⟩ := hl.snapshotStep (fun _ _ h => h)
  exact ⟨⟨_, hrun⟩, hparts, hstretch⟩

theorem execKerfCommit_service (s : State) (p : KerfPower) (h : s.run.phase = .service) :
    exec (.kerfCommit p) s = .next (s.beforeCommit p).commitPhase := congrArg Host.Outcome.next (if_pos h)

/-! ### Swap, page commits and configuration -/

/-- Q holds of the phase, the kerf count and the kerf tick. -/
abbrev AtClock (Q : RunPhase → Nat → Nat → Prop) : Work → Prop := AtPlace (fun p => Q p.phase p.kerfs p.since)

namespace State.Has
variable {s : State}

section
variable {Q : RunPhase → Nat → Nat → Prop}

theorem clockPart (h : s.Has (AtClock Q)) {p x} : (s.setPart p x).Has (AtClock Q) := .atPlace h.of_anyHalt

theorem swapPart (h : s.Has (AtClock Q)) {p} : (s.swapPart p).Has (AtClock Q) := by
  unfold State.swapPart
  split
  · exact h
  · next l _ =>
    have hf := (h.dropOld (old := s.heldRegions p) (new := l.regions)).foldl (l := l.regions.filter (fun r => r.init == 3))
      (f := fun s r => s.holdRegion p (r.isPool l.roles) (r.isPool l.roles && s.wasPool p r) r) (fun h _ => h.holdRegion)
    exact .clockPart (.loadWindows (.foldl (.foldl hf.fillList (fun h _ => h.setBench)) (fun h _ => h.setBench)))

theorem swapStep (h : s.Has (AtClock Q)) : s.swapStep.Has (AtClock Q) := by
  have hp := h.foldl (l := allParts) (f := State.swapPart) fun h _ => h.swapPart
  unfold State.swapStep State.swapKerfDone
  split
  · exact h
  · exact .ite (.ite hp.withRunRest.gateValleys.complete h.endStage) h

end

variable {Q : Place → Prop}

/-- Where no swap takes place, the swap step gives the staging up or leaves it. -/
theorem swapStep_keeps (h : s.Has (AtPlace Q)) (hs : s.swapsNow = false) : s.swapStep.Has (AtPlace Q) := by
  unfold State.swapStep
  split
  · exact h
  · next w hw =>
    split
    · next hk =>
      have hn : ¬ (w.fitted = true ∧ ¬ w.no = true) := fun ⟨hf, hno⟩ => by
        simp [State.swapsNow, State.votesNo, hw, hk, hf, hno] at hs
      unfold State.swapKerfDone
      rw [if_neg hn]
      exact h.endStage
    · exact h

theorem commitSteps (h : s.Has (AtPlace Q)) :
    ((List.range 12).foldl State.firmwareMapOut s.runCommits.applyDue).Has (AtPlace Q) :=
  .foldl (h.runCommits fun _ _ h => h).applyDue (fun h _ => h.firmwareMapOut)

end State.Has

/-- The swap step, page commits, configuration and map-outs of a Commit phase. -/
def State.applyAll (s : State) : State := (List.range 12).foldl State.firmwareMapOut s.swapStep.runCommits.applyDue

theorem State.applyAll_clock (s : State) : s.applyAll.run.phase = s.run.phase ∧ s.applyAll.run.kerfs = s.run.kerfs
    ∧ s.applyAll.run.since = s.run.since := by
  have h : s.Has (AtClock (fun a b c => a = s.run.phase ∧ b = s.run.kerfs ∧ c = s.run.since)) := .atPlace ⟨rfl, rfl, rfl⟩
  have ha : s.applyAll.Has (AtClock (fun a b c => a = s.run.phase ∧ b = s.run.kerfs ∧ c = s.run.since)) :=
    h.swapStep.commitSteps
  generalize s.applyAll = u at ha ⊢
  exact ha.of_anyHalt

theorem State.applyAll_place {s : State} (hs : s.swapsNow = false) : s.applyAll.work.place = s.work.place := by
  have h : s.Has (AtPlace (fun p => p = s.work.place)) := .atPlace rfl
  have ha : s.applyAll.Has (AtPlace (fun p => p = s.work.place)) := (h.swapStep_keeps hs).commitSteps
  generalize s.applyAll = u at ha ⊢
  exact ha.of_anyHalt

theorem State.setParts_of_place {s t : State} (e : t.work.place = s.work.place) : t.setParts = s.setParts := by
  have hm : t.run.parts = s.run.parts := congrArg Place.mask e
  have hl (p : Nat) : (t.part p).list = (s.part p).list := congrFun (congrArg Place.lists e) p
  simp only [State.setParts, hm, hl]

/-! ### The ends of runs -/

namespace State.Has
variable {s : State} {P : Work → Prop}

theorem endStart (h : s.Has P) (hp : ∀ w x, P w → P { w with run := { w.run with start := x } }) {status result} :
    (s.endStart status result).Has P := by
  have hs {x} : State.Has { s with run := { s.run with start := x } } P := hp _ _ h
  unfold State.endStart
  split
  exacts [h, hs.complete]

theorem endStops (h : s.Has P) (hp : ∀ w, P w → P { w with run := { w.run with stops := [], stopCount := none } }) {pos} :
    (s.endStops pos).Has P := by
  have hs : State.Has { s with run := { s.run with stops := [], stopCount := none } } P := hp _ h
  exact .foldl hs (fun h _ => h.complete)

theorem endPendingTake (h : s.Has P) (hp : ∀ w x, P w → P { w with run := { w.run with take := x } }) {status} :
    (s.endPendingTake status).Has P := by
  have ht {x} : State.Has { s with run := { s.run with take := x } } P := hp _ _ h
  unfold State.endPendingTake
  split
  exacts [h, .ite h ht.complete]

end State.Has

theorem State.endStart_none (s : State) (status result : Nat) : (s.endStart status result).run.start = none := by
  unfold State.endStart
  split
  · next h => exact h
  · have hs : State.Has { s with run := { s.run with start := none } } (fun w => w.run.start = none) := rfl
    exact hs.complete

theorem State.endStops_nil (s : State) (pos : Nat) : (s.endStops pos).run.stops = [] := by
  have hs : State.Has { s with run := { s.run with stops := [], stopCount := none } } (fun w => w.run.stops = []) := rfl
  exact State.Has.foldl (f := fun s o => s.complete o Status.ok pos) hs (fun h _ => h.complete)

/-- The partitions ps are in a state. -/
def InState (ps : List Nat) (st : PState) (w : Work) : Prop := ∀ q ∈ ps, (Tab.get Part.init w.parts q).state = st

theorem State.setStates_inState (s : State) (st : PState) (halted : Bool) :
    (s.setStates st halted).Has (InState s.setParts st) := fun _ hq =>
  State.part_foldl_setPart (f := fun x => { x with state := st, halted := halted }) (R := fun x => x.state = st)
    (fun _ => rfl) s.setParts s hq

/-- The run has ended, and the partitions ps are in a state. -/
def Ended (ps : List Nat) (st : PState) (w : Work) : Prop :=
  w.run.phase = .idle ∧ w.run.start = none ∧ w.run.stops = [] ∧ InState ps st w

/-- A set that has stopped, with its START and its STOPs done. -/
def State.endOps (s : State) (status result pos : Nat) : State :=
  ((s.idleRun.endStart status result).endStops pos).endPendingTake Status.queueReset

theorem State.endOps_ended {s : State} {ps : List Nat} {st : PState} (h : s.Has (InState ps st)) (status result pos : Nat) :
    (s.endOps status result pos).Has (Ended ps st) := by
  have hi : s.idleRun.Has (fun w => w.run.phase = .idle ∧ InState ps st w) :=
    State.Has.setFlag (s := { s with run := { s.run with phase := .idle } })
      (P := fun w => w.run.phase = .idle ∧ InState ps st w) ⟨rfl, h⟩
  have hs := hi.endStart (fun _ _ h => h) (status := status) (result := result)
  have hn := s.idleRun.endStart_none status result
  unfold State.endOps
  generalize s.idleRun.endStart status result = u at hs hn ⊢
  have hu : u.Has (fun w => w.run.phase = .idle ∧ w.run.start = none ∧ InState ps st w) := ⟨hs.1, hn, hs.2⟩
  have hu' := hu.endStops (fun _ h => h) (pos := pos)
  have hz := u.endStops_nil pos
  generalize u.endStops pos = v at hu' hz ⊢
  obtain ⟨hphase, hstart, hstates⟩ := hu'
  have hv : v.Has (Ended ps st) := ⟨hphase, hstart, hz, hstates⟩
  exact hv.endPendingTake fun _ _ h => h

/-- The end of the last pass leaves the partitions LOADED (R132). -/
theorem State.endRun_ended (s : State) : s.endRun.Has (Ended s.setParts .loaded) :=
  ((State.endOps_ended (s.setStates_inState .loaded false) _ _ _).runEnds).runCommits fun _ _ h => h

/-- A stop leaves them STOPPED (R133). -/
theorem State.stopRun_ended (s : State) : s.stopRun.Has (Ended s.setParts .stopped) :=
  (State.endOps_ended (s.setStates_inState .stopped false) _ _ _).runEnds

theorem State.stretchStep_ended {s : State} {ps : List Nat} {st : PState} (h : s.Has (Ended ps st)) :
    s.stretchStep.Has (Ended ps st) := by
  have hp {x : Plain} : State.Has { s with plain := x } (Ended ps st) := h
  exact .ite hp.showStretch h

theorem State.stretchStep_clock (s : State) : s.stretchStep.run = s.run := by
  have hp {x : Plain} : State.Has { s with plain := x } (fun w => w.run = s.run) := rfl
  have h : s.stretchStep.Has (fun w => w.run = s.run) := .ite hp.showStretch rfl
  exact h

/-! ### The phase -/

section
variable {s : State} (hh : s.haltDue = false) (ht : s.takeStops = false)
include hh ht

theorem State.commitPhase_goesOn (h : s.swapsNow = true ∨ s.runOver = false ∧ s.stopDue = false) :
    s.commitPhase = s.noteCkpt.applyAll.stretchStep.passOn s.nextPos s.kerfLength := by
  have hsame := s.noteCkpt_same
  unfold State.commitPhase
  dsimp only
  rw [if_neg (by simp [hh]), hsame.takeStops, ht, hsame.stopDue]
  by_cases hs : s.swapsNow = true
  · rw [if_pos hs]
    rfl
  · obtain ⟨ho, hd⟩ := h.resolve_left hs
    rw [if_neg hs, if_neg (by simp), if_neg (by simp [ho]), if_neg (by simp [hd])]
    rfl

theorem State.commitPhase_end (hs : s.swapsNow = false) (ho : s.runOver = true) :
    s.commitPhase = s.noteCkpt.applyAll.endRun.stretchStep.passOn s.nextPos s.kerfLength := by
  have hsame := s.noteCkpt_same
  unfold State.commitPhase
  dsimp only
  rw [if_neg (by simp [hh]), hsame.takeStops, ht, if_neg (by simp [hs]), if_neg (by simp), if_pos ho]
  rfl

theorem State.commitPhase_stop (hs : s.swapsNow = false) (ho : s.runOver = false) (hd : s.stopDue = true) :
    s.commitPhase = s.noteCkpt.applyAll.stopRun.stretchStep.passOn s.nextPos s.kerfLength := by
  have hsame := s.noteCkpt_same
  unfold State.commitPhase
  dsimp only
  rw [if_neg (by simp [hh]), hsame.takeStops, ht, hsame.stopDue, if_neg (by simp [hs]), if_neg (by simp), if_neg (by simp [ho]),
    if_pos hd]
  rfl

end

/-- The partitions of the set are those of the state before the phase. -/
theorem State.applyAll_setParts {s : State} (hs : s.swapsNow = false) : s.noteCkpt.applyAll.setParts = s.setParts := by
  have hsame := s.noteCkpt_same
  exact (State.setParts_of_place (State.applyAll_place (hsame.swapsNow.trans hs))).trans hsame.setParts

end Sys2Proof.Machine
end
section
/-! PROOFS. KERF_COMMIT (04_cutlists.md R114, R132, R133, R142; 19_recovery.md R494), and the obligation on the end of a kerf. -/

namespace Sys2Proof.Machine

/-- An ended run stays ended as the position moves on. -/
theorem State.passOn_ended {u : State} {ps : List Nat} {st : PState} (hu : u.Has (Ended ps st)) (pos : Nat × Nat) (len : Nat) :
    (u.passOn pos len).run.phase = .idle ∧ (u.passOn pos len).run.start = none ∧ (u.passOn pos len).run.stops = []
      ∧ ((u.passOn pos len).run.pass, (u.passOn pos len).run.cut) = pos
      ∧ ∀ q ∈ ps, ((u.passOn pos len).part q).state = st := by
  obtain ⟨hphase, hstart, hstops, hstates⟩ := hu
  exact ⟨if_pos hphase, hstart, hstops, rfl, hstates⟩

/-! ### The next cut -/

section
variable {s : State} {p : KerfPower} (h : s.run.phase = .service) (hh : s.haltDue = false) (ht : s.takeStops = false)
include h hh ht

theorem kerfCommit_goesOn_does (hn : s.swapsNow = true ∨ s.runOver = false ∧ s.stopDue = false) :
    Say.Does (.kerfCommit p) s (fun t => t.run.phase = .start ∧ (t.run.pass, t.run.cut) = s.nextPos
      ∧ t.run.kerfs = s.run.kerfs + 1 ∧ t.run.since = s.run.since + s.kerfLength) := by
  refine ⟨_, execKerfCommit_service s p h, ?_⟩
  have hsame := s.beforeCommit_same p
  generalize s.beforeCommit p = u at hsame ⊢
  rw [State.commitPhase_goesOn (hsame.haltDue.trans hh) (hsame.takeStops.trans ht)
    (by rwa [hsame.swapsNow, hsame.runOver, hsame.stopDue]), hsame.nextPos, hsame.kerfLength]
  have hplace := (hsame.trans u.noteCkpt_same).place
  obtain ⟨hphase, hkerfs, hsince⟩ := u.noteCkpt.applyAll_clock
  have hrun := u.noteCkpt.applyAll.stretchStep_clock
  generalize u.noteCkpt = v at *
  generalize v.applyAll.stretchStep = w at *
  rw [← hrun] at hphase hkerfs hsince
  have hservice : w.run.phase ≠ .idle := by
    rw [hphase, show v.run.phase = .service from (congrArg Place.phase hplace).trans h]
    simp
  refine ⟨if_neg hservice, rfl, ?_, ?_⟩
  · exact congrArg (· + 1) (hkerfs.trans (congrArg Place.kerfs hplace))
  · exact congrArg (· + s.kerfLength) (hsince.trans (congrArg Place.since hplace))

/-! ### The ends of a run -/

theorem kerfCommit_end_does (hs : s.swapsNow = false) (ho : s.runOver = true) : Say.Does (.kerfCommit p) s (fun t =>
    t.run.phase = .idle ∧ t.run.start = none ∧ t.run.stops = [] ∧ ∀ q ∈ s.setParts, (t.part q).state = .loaded) := by
  refine ⟨_, execKerfCommit_service s p h, ?_⟩
  have hsame := s.beforeCommit_same p
  generalize s.beforeCommit p = u at hsame ⊢
  have hus := hsame.swapsNow.trans hs
  rw [State.commitPhase_end (hsame.haltDue.trans hh) (hsame.takeStops.trans ht) hus (hsame.runOver.trans ho)]
  have he := State.stretchStep_ended u.noteCkpt.applyAll.endRun_ended
  rw [State.applyAll_setParts hus, hsame.setParts] at he
  obtain ⟨hphase, hstart, hstops, -, hstates⟩ := State.passOn_ended he u.nextPos u.kerfLength
  exact ⟨hphase, hstart, hstops, hstates⟩

theorem kerfCommit_stop_does (hs : s.swapsNow = false) (ho : s.runOver = false) (hd : s.stopDue = true) :
    Say.Does (.kerfCommit p) s (fun t => t.run.phase = .idle ∧ t.run.start = none ∧ t.run.stops = []
      ∧ (t.run.pass, t.run.cut) = s.nextPos ∧ ∀ q ∈ s.setParts, (t.part q).state = .stopped) := by
  refine ⟨_, execKerfCommit_service s p h, ?_⟩
  have hsame := s.beforeCommit_same p
  generalize s.beforeCommit p = u at hsame ⊢
  have hus := hsame.swapsNow.trans hs
  rw [State.commitPhase_stop (hsame.haltDue.trans hh) (hsame.takeStops.trans ht) hus (hsame.runOver.trans ho)
    (hsame.stopDue.trans hd), hsame.nextPos]
  have he := State.stretchStep_ended u.noteCkpt.applyAll.stopRun_ended
  rw [State.applyAll_setParts hus, hsame.setParts] at he
  exact State.passOn_ended he s.nextPos u.kerfLength

end

/-! ### The halt kerf -/

theorem State.Has.sendHaltReport {s : State} {P : Work → Prop} (h : s.Has P) {cause detail faulting} :
    (s.sendHaltReport cause detail faulting).Has P := h.flood

/-- The Commit phase of the halt kerf ends the run. -/
theorem State.haltRun_idle (s : State) (x : Halt) : (s.haltRun x).Has Idle := by
  unfold State.haltRun
  extract_lets pos named all t stopped idle run halted detached ended told causes sent
  have hphase : stopped.idleRun.run.phase = .idle := congrArg Run.phase (State.setFlag_run ..)
  have hd : detached.Has Idle := (State.has_idle (s := halted) hphase).detachedEnds
  have he : ended.Has Idle := ((hd.endStart fun _ _ h => h).endStops fun _ h => h).endPendingTake fun _ _ h => h
  have ht : told.Has Idle := .ite he he.haltEvents
  have hs : sent.Has Idle := .ite (.foldl ht (fun h _ => h.sendHaltReport)) ht
  exact hs.keep rfl

theorem State.Has.passOn {s : State} (h : s.Has Idle) {pos len} : (s.passOn pos len).Has Idle :=
  State.has_idle (if_pos h.of_anyHalt)

theorem State.commitPhase_halt {s : State} (hh : s.haltDue = true) : s.commitPhase.Has Idle := by
  unfold State.commitPhase
  dsimp only
  rw [if_pos hh]
  split
  · next hn => simp [State.haltDue, hn] at hh
  · next x _ => exact (State.haltRun_idle _ x).passOn.serveReports.nameReports

theorem kerfCommit_halt_does {s : State} {p : KerfPower} (h : s.run.phase = .service) (hh : s.haltDue = true) :
    Say.Does (.kerfCommit p) s (fun t => t.run.phase = .idle) := by
  refine ⟨_, execKerfCommit_service s p h, ?_⟩
  have hsame := s.beforeCommit_same p
  generalize s.beforeCommit p = u at hsame ⊢
  exact (State.commitPhase_halt (hsame.haltDue.trans hh)).of_anyHalt

/-! ### The obligation -/

/-- Settles O7: KERF_COMMIT by how its phase ends, and the deadline and the latch by their definitions. -/
theorem kerfCommitDeadlineAndStretch : Obligations.kerf_commit_deadline_and_stretch := by
  unfold Obligations.kerf_commit_deadline_and_stretch
  refine ⟨fun s p h => ⟨kerfCommit_goesOn_does h, kerfCommit_end_does h, kerfCommit_stop_does h, kerfCommit_halt_does h⟩,
    fun s => ⟨fun j k d hs hl hi hd he => deadline_neighbour_does s j k d hl hi hd hs he,
      fun j k d hs hl hi hd => deadline_neighbour_idle_does s j k d hl hi hd hs, deadline_valley_does s, stretchLatch_does s,
      stretchLatch_idle_does s⟩⟩

end Sys2Proof.Machine
end
section
/-! PROOFS. What no link's operation takes part in: commands that leave the links and the Dovetail registers
(13_registers.md, the DVT block), and the start of a formation on every link (06_plain.md R184 steps 1 and 2). -/

namespace Sys2Proof.Machine

/-! ### Links and Dovetail registers that stay -/

/-- A register of the Dovetail block. -/
def Dovetail (a : Nat) : Prop := a / 0x100000 = 11

theorem dovetail_plain : Dovetail 0xB00000 := rfl

theorem dovetail_linkState {j : Nat} (hj : j < 6) : Dovetail (F.dvtLinkStatusState j).addr := by
  simp only [Dovetail, F.dvtLinkStatusState]
  omega

/-- From s to t no link changes and no register of the Dovetail block. -/
def State.SameLinks (s t : State) : Prop := (∀ g : Field, Dovetail g.addr → t.fld g = s.fld g) ∧ t.links = s.links

namespace State.SameLinks
variable {s t u : State}

theorem refl : s.SameLinks s := ⟨fun _ _ => rfl, rfl⟩

theorem fld (h : s.SameLinks t) {g : Field} (hg : Dovetail g.addr) : t.fld g = s.fld g := h.1 _ hg

theorem flag (h : s.SameLinks t) {g : Field} (hg : Dovetail g.addr) : t.flag g = s.flag g :=
  congrArg (· != 0) (h.fld hg)

theorem link (h : s.SameLinks t) (j : Nat) : t.link j = s.link j := congrArg (fun m => Tab.get Link.init m j) h.2

theorem ite {c : Prop} [Decidable c] (ht : s.SameLinks t) (hu : s.SameLinks u) : s.SameLinks (if c then t else u) := by
  split
  · exact ht
  · exact hu

theorem setFld (h : s.SameLinks t) {f : Field} {n} (hf : ¬ Dovetail f.addr) : s.SameLinks (t.setFld f n) :=
  ⟨fun _ hg => (State.fld_setFld_addr t n (fun e => hf (e ▸ hg))).trans (h.fld hg), h.2⟩

theorem setFlag (h : s.SameLinks t) {f : Field} {b} (hf : ¬ Dovetail f.addr) : s.SameLinks (t.setFlag f b) := h.setFld hf
theorem withPins (h : s.SameLinks t) {pi} : s.SameLinks { t with pins := pi } := h
theorem emit (h : s.SameLinks t) {m} : s.SameLinks (t.emit m) := h
theorem setFn (h : s.SameLinks t) {i x} : s.SameLinks (t.setFn i x) := h
theorem setRing (h : s.SameLinks t) {i r x} : s.SameLinks (t.setRing i r x) := h
theorem setHostMem (h : s.SameLinks t) {m} : s.SameLinks (t.setHostMem m) := h

theorem wake (h : s.SameLinks t) {bit} : s.SameLinks (t.wake bit) := by
  have hw : s.SameLinks (t.setFld ⟨F.hifWakeCauseRtcAlarm.addr, bit, 1⟩ 1) :=
    h.setFld (by simp [Dovetail, F.hifWakeCauseRtcAlarm])
  exact .ite (.ite hw (.ite hw.setFn.withPins.emit (.ite hw.setFn.emit hw))) hw

theorem ringPut (h : s.SameLinks t) {i r bytes now} (hr : r < 256) : s.SameLinks (t.ringPut i r bytes now) := by
  refine .setRing (h.setHostMem.setFld ?_)
  simp only [Dovetail, F.rngHeadCount, ringBase]
  split <;> omega

theorem reportLost (h : s.SameLinks t) {i r} (hr : r < 256) : s.SameLinks (t.reportLost i r) := .ite h (h.setRing.ringPut hr)

theorem event (h : s.SameLinks t) {i code subject detail} : s.SameLinks (t.event i code subject detail) := by
  have hw : s.SameLinks (if i = 0 then t.wake 5 else t) := .ite h.wake h
  unfold State.event
  dsimp only
  split
  · exact hw
  · next r hr =>
    have h256 : r < 256 := List.mem_range.1 (List.mem_of_find?_eq_some hr)
    exact .ite ((hw.reportLost h256).ringPut h256) (hw.reportLost h256).setRing

theorem setVly (h : s.SameLinks t) {v lsb width n : Nat} (hv : v < 40) :
    s.SameLinks (t.setFld ⟨0x100000 + v * 4, lsb, width⟩ n) :=
  h.setFld (by simp only [Dovetail]; omega)

theorem powerValley (h : s.SameLinks t) {v on} (hv : v < 40) : s.SameLinks (t.powerValley v on) :=
  ((h.setVly hv).setVly hv).setVly hv

theorem gateValley (h : s.SameLinks t) {v} (hv : v < 40) : s.SameLinks (t.gateValley v) :=
  .ite (.ite (((h.powerValley hv).setVly hv).setVly hv) ((h.powerValley hv).setVly hv)) h

theorem linkEvent (h : s.SameLinks t) {j} : s.SameLinks (t.linkEvent j) := h.event

end State.SameLinks

/-! ### A link changes its state -/

theorem linkState_addr_ne {j k : Nat} (h : k ≠ j) : (F.dvtLinkStatusState k).addr ≠ (F.dvtLinkStatusState j).addr := by
  simp only [F.dvtLinkStatusState]
  omega

theorem plain_addr_ne (j : Nat) : 0xB00000 ≠ (F.dvtLinkStatusState j).addr := by
  simp only [F.dvtLinkStatusState]
  omega

section
variable (s : State) (j v : Nat)

theorem State.setLinkState_links : (s.setLinkState j v).links = s.links := by
  unfold State.setLinkState
  split
  · rfl
  · exact ((State.SameLinks.refl.gateValley (by omega)).linkEvent).2

theorem State.fld_setLinkState_addr {g : Field} (hd : Dovetail g.addr) (hg : g.addr ≠ (F.dvtLinkStatusState j).addr) :
    (s.setLinkState j v).fld g = s.fld g := by
  unfold State.setLinkState
  split
  · rfl
  · exact (((State.SameLinks.refl.gateValley (by omega)).linkEvent).fld hd).trans (State.fld_setFld_addr s v hg)

theorem State.fld_setLinkState_self (hj : j < 6) (hv : v < 8) : (s.setLinkState j v).fld (F.dvtLinkStatusState j) = v := by
  unfold State.setLinkState
  split
  · assumption
  · rw [((State.SameLinks.refl.gateValley (by omega)).linkEvent).fld (dovetail_linkState hj), State.fld_setFld_self]
    exact Nat.mod_eq_of_lt hv

end

/-! ### A control flit leaves -/

theorem State.sendControl_answered (s : State) (j type : Nat) (content : List Byte) :
    ((s.sendControl j type content).link j).answered = (s.link j).answered := by
  unfold State.sendControl
  split
  · rw [State.setLink_self]
  · dsimp only
    rw [State.emit_link, State.setLink_self]

theorem State.sendControl_link_ne (s : State) {j k : Nat} (type : Nat) (content : List Byte) (h : k ≠ j) :
    (s.sendControl j type content).link k = s.link k := by
  unfold State.sendControl
  split
  · exact State.setLink_ne _ _ h
  · exact State.setLink_ne _ _ h

/-! ### A link begins formation -/

/-- A link before its formation: it knows what training has found, and no peer has answered. -/
def State.freshLink (s : State) (j : Nat) : State :=
  s.setLink j { Link.init with failTimes := (s.link j).failTimes, trained := (s.link j).trained, coeff := (s.link j).coeff }

/-- What a link's formation begins with: an identity, training, or nothing. -/
theorem State.formLink_cases (s : State) (j : Nat) :
    s.formLink j = s.freshLink j ∨ s.formLink j = (s.freshLink j).sendIdentity j
      ∨ s.fld (F.dvtLinkStatusState j) ≠ 5 ∧ s.formLink j = (s.freshLink j).setLinkState j 1 := by
  unfold State.formLink
  dsimp only
  split
  · split
    · exact .inr (.inl rfl)
    · exact .inl rfl
  · split
    · exact .inl rfl
    · next h => exact .inr (.inr ⟨h, rfl⟩)

section
variable (s : State) (j : Nat)

theorem State.fld_formLink_addr {g : Field} (hd : Dovetail g.addr) (hg : g.addr ≠ (F.dvtLinkStatusState j).addr) :
    (s.formLink j).fld g = s.fld g := by
  rcases s.formLink_cases j with e | e | ⟨-, e⟩
  · rw [e]
    rfl
  · rw [e]
    exact congrArg (fun r : Regs => r.fld g) (State.regs_sendControl ..)
  · rw [e, State.fld_setLinkState_addr _ _ _ hd hg]
    rfl

/-- No link is mapped out or brought back as formation begins. -/
theorem State.formLink_mappedOut {k : Nat} (hk : k < 6) :
    ((s.formLink j).fld (F.dvtLinkStatusState k) = 5) = (s.fld (F.dvtLinkStatusState k) = 5) := by
  by_cases hkj : k = j
  · subst hkj
    rcases s.formLink_cases k with e | e | ⟨hne, e⟩
    · rw [e]
      rfl
    · rw [e]
      exact congrArg (fun r : Regs => r.fld (F.dvtLinkStatusState k) = 5) (State.regs_sendControl ..)
    · rw [e, State.fld_setLinkState_self _ _ _ hk (by omega)]
      simp [hne]
  · rw [State.fld_formLink_addr s j (dovetail_linkState hk) (linkState_addr_ne hkj)]

theorem State.formLink_answered (k : Nat) : ((s.formLink j).link k).answered = if k = j then false else (s.link k).answered := by
  have hfresh : ((s.freshLink j).link k).answered = if k = j then false else (s.link k).answered := by
    unfold State.freshLink
    split
    · next h => rw [h, State.setLink_self]; rfl
    · next h => rw [State.setLink_ne _ _ h]
  rcases s.formLink_cases j with e | e | ⟨-, e⟩
  · rw [e, hfresh]
  · rw [e, ← hfresh]
    by_cases hkj : k = j
    · rw [hkj]
      exact State.sendControl_answered ..
    · exact congrArg Link.answered (State.sendControl_link_ne _ _ _ hkj)
  · rw [e, ← hfresh]
    exact congrArg (fun m => (Tab.get Link.init m k).answered) (State.setLinkState_links ..)

end

theorem State.Has.formLink {s : State} {P : Work → Prop} (h : s.Has P) {j} : (s.formLink j).Has P :=
  .ite (.ite h.setLink.sendControl h.setLink) (.ite h.setLink (.ite h.setLink (h.setLink.setFld.gateValley.event)))

/-! ### Every link of the device begins formation -/

/-- Formation begins on the six links. -/
def State.formLinks (s : State) : State := (List.range 6).foldl State.formLink s

theorem State.fld_formLinks (s : State) {g : Field} (hg : g.addr = 0xB00000) : s.formLinks.fld g = s.fld g :=
  State.foldl_keeps (fun s => s.fld g)
    (fun s j => s.fld_formLink_addr j (hg ▸ dovetail_plain) (hg ▸ plain_addr_ne j)) _ s

theorem State.formLinks_mappedOut (s : State) {j : Nat} (hj : j < 6) :
    (s.formLinks.fld (F.dvtLinkStatusState j) = 5) = (s.fld (F.dvtLinkStatusState j) = 5) :=
  State.foldl_keeps (fun s => s.fld (F.dvtLinkStatusState j) = 5) (fun s k => s.formLink_mappedOut k hj) _ s

theorem State.foldl_formLink_answered (ls : List Nat) (s : State) {j : Nat} (hj : j ∈ ls ∨ (s.link j).answered = false) :
    ((ls.foldl State.formLink s).link j).answered = false := by
  induction ls generalizing s with
  | nil => exact hj.resolve_left List.not_mem_nil
  | cons a ls ih =>
    refine ih (s.formLink a) ?_
    rw [State.formLink_answered, List.mem_cons] at *
    by_cases ha : j = a
    · exact .inr (if_pos ha)
    · rw [if_neg ha]
      exact hj.imp_left (·.resolve_left ha)

theorem State.formLinks_answered (s : State) {j : Nat} (hj : j < 6) : (s.formLinks.link j).answered = false :=
  State.foldl_formLink_answered _ s (.inl (List.mem_range.2 hj))

theorem State.Has.formLinks {s : State} {P : Work → Prop} (h : s.Has P) : s.formLinks.Has P := .foldl h fun h _ => h.formLink

end Sys2Proof.Machine
end
section
/-! PROOFS. MUSTER and DISSOLVE (06_plain.md R183, R184): the registers, the Plain and the partitions that they leave. -/

namespace Sys2Proof.Machine
open Sys2Proof.Say

/-! ### MUSTER -/

theorem lt_six_of_mem_usedLinks {x y z j : Nat} (h : j ∈ usedLinks x y z) : j < 6 := by
  have hj : j ∈ [0, 1] ∨ j ∈ [2, 3] ∨ j ∈ [4, 5] := by
    simp only [usedLinks, List.mem_append, List.mem_ite_nil_right, or_assoc] at h
    exact h.imp And.right (Or.imp And.right And.right)
  simp only [List.mem_cons, List.not_mem_nil, or_false] at hj
  omega

/-- While a link of the formation has not been answered the member's record waits (R184 step 4). -/
theorem State.sendRecord_waits {s : State} {j : Nat} (hj : j ∈ s.formingLinks) (ha : (s.link j).answered = false) :
    s.sendRecord = s := by
  refine if_neg fun h => ?_
  have hall := List.all_eq_true.1 h.2.1 j hj
  simp [ha] at hall

/-- The Plain of a formation that a descriptor asks for. -/
def State.musterPlain (s : State) (o : OpRef) (d : Desc) : Plain :=
  { Plain.init with
    tick := s.plain.tick, formation := d.le 8 8, dimX := d.le 20 1, dimY := d.le 21 1, dimZ := d.le 22 1
    deadline := s.now + d.le 24 4 * 1000000, op := some o }

/-- The formation is noted, before a link begins it. -/
def State.beginMuster (s : State) (o : OpRef) (d : Desc) : State :=
  let s := (({ s with plain := s.musterPlain o d } : State).setFlag F.dvtPlainForming true).gateValley 34
  (s.setFld F.dvtPlainPlainSize (d.le 16 2)).setFld F.dvtPlainMemberIndex (d.le 18 2)

/-- The Plain is x and the partitions are ps. -/
def PlainAndParts (x : Plain) (ps : Tab Part) : Work → Prop := fun w => w.plain = x ∧ w.parts = ps

theorem State.has_plainAndParts {s : State} {x : Plain} {ps : Tab Part} :
    s.Has (PlainAndParts x ps) ↔ s.plain = x ∧ s.parts = ps := Iff.rfl

theorem State.has_withPlain (s : State) (x : Plain) : State.Has { s with plain := x } (PlainAndParts x s.parts) :=
  State.has_plainAndParts.2 ⟨rfl, rfl⟩

/-- The operands of a MUSTER are in range (R165, R183). -/
structure GoodMuster (d : Desc) : Prop where
  two_le_size : 2 ≤ d.le 16 2
  size_le : d.le 16 2 ≤ 512
  member_lt : d.le 18 2 < d.le 16 2
  shape : d.le 20 1 * d.le 21 1 * d.le 22 1 = d.le 16 2
  x_le : d.le 20 1 ≤ 16
  y_le : d.le 21 1 ≤ 16
  z_le : d.le 22 1 ≤ 16
  one_le_ms : 1 ≤ d.le 24 4
  ms_le : d.le 24 4 ≤ 60000

theorem State.doMuster_good {s : State} {o : OpRef} {d : Desc} (ho : s.ownsAny o.fn = true) (hi : s.plainIdle = true)
    (hf : s.flag F.dvtPlainFormed = false) (hd : GoodMuster d) :
    State.doMuster s o d = (s.beginMuster o d).formLinks.sendRecord := by
  obtain ⟨h2, h512, hm, hshape, hx, hy, hz, h1, hms⟩ := hd
  unfold State.doMuster
  dsimp only
  rw [if_neg (by simp [ho]), if_neg (by simp [hi, hf, hshape]; omega)]
  rfl

section
variable (s : State) (o : OpRef) {d : Desc}

theorem State.beginMuster_forming : (s.beginMuster o d).flag F.dvtPlainForming = true := by
  unfold State.beginMuster State.flag
  dsimp only
  rw [State.fld_setFld_bits _ _ (.inl (by decide)), State.fld_setFld_bits _ _ (.inl (by decide))]
  exact ((State.SameLinks.refl.gateValley (by omega)).flag dovetail_plain).trans (State.flag_setFlag_self _ _ _ Nat.one_pos)

theorem State.beginMuster_member (hd : GoodMuster d) : (s.beginMuster o d).fld F.dvtPlainPlainSize = d.le 16 2
    ∧ (s.beginMuster o d).fld F.dvtPlainMemberIndex = d.le 18 2 := by
  have hsize : d.le 16 2 < 2 ^ 10 := hd.size_le.trans_lt (by decide)
  unfold State.beginMuster
  dsimp only
  rw [State.fld_setFld_bits _ _ (.inl (by decide)), State.fld_setFld_self, State.fld_setFld_self]
  exact ⟨Nat.mod_eq_of_lt hsize, Nat.mod_eq_of_lt (hd.member_lt.trans hsize)⟩

theorem State.beginMuster_linkState {j : Nat} (hj : j < 6) :
    (s.beginMuster o d).fld (F.dvtLinkStatusState j) = s.fld (F.dvtLinkStatusState j) := by
  have hne := (plain_addr_ne j).symm
  unfold State.beginMuster
  dsimp only
  rw [State.fld_setFld_addr _ _ hne, State.fld_setFld_addr _ _ hne,
    (State.SameLinks.refl.gateValley (by omega)).fld (dovetail_linkState hj)]
  exact State.fld_setFld_addr _ _ hne

theorem State.beginMuster_has : (s.beginMuster o d).Has (PlainAndParts (s.musterPlain o d) s.parts) :=
  (s.has_withPlain _).setFlag.gateValley.setFld.setFld

/-- A formation over a link that is not mapped out waits for its peers. -/
theorem State.formLinks_wait
    (hlink : ∃ j ∈ usedLinks (d.le 20 1) (d.le 21 1) (d.le 22 1), s.fld (F.dvtLinkStatusState j) ≠ 5) :
    (s.beginMuster o d).formLinks.sendRecord = (s.beginMuster o d).formLinks := by
  obtain ⟨j, hj, h5⟩ := hlink
  have h6 := lt_six_of_mem_usedLinks hj
  obtain ⟨hplain, -⟩ := State.has_plainAndParts.1 (s.beginMuster_has o (d := d)).formLinks
  refine State.sendRecord_waits (j := j) ?_ (State.formLinks_answered _ h6)
  have hstate : ¬ (s.beginMuster o d).formLinks.fld (F.dvtLinkStatusState j) = 5 := by
    rwa [State.formLinks_mappedOut _ h6, State.beginMuster_linkState s o h6]
  unfold State.formingLinks
  rw [hplain, List.mem_filter]
  exact ⟨hj, by simpa using hstate⟩

end

section
variable {s : State} {i : FnId} {r : RingId} {d : Desc}

theorem muster_does (hi : (i : Nat) ≠ 0) (hb : s.bound = true) (hs : Starts s i r 1 0x06 d)
    (hg : d.good 0 allBits 0xFFFFFFFFFFFFFF 0xFFFFFFFF .none = true) (ho : s.ownsAny i = true) (hidle : s.plainIdle = true)
    (hf : s.flag F.dvtPlainFormed = false) (hd : GoodMuster d)
    (hlink : ∃ j ∈ usedLinks (d.le 20 1) (d.le 21 1) (d.le 22 1), s.fld (F.dvtLinkStatusState j) ≠ 5) :
    Does (.muster i r) s (fun t =>
      t.flag F.dvtPlainForming = true ∧ t.fld F.dvtPlainPlainSize = d.le 16 2 ∧ t.fld F.dvtPlainMemberIndex = d.le 18 2
        ∧ t.plain.formation = d.le 8 8 ∧ t.plain.dimX = d.le 20 1 ∧ t.plain.dimY = d.le 21 1 ∧ t.plain.dimZ = d.le 22 1
        ∧ t.plain.deadline = s.now + d.le 24 4 * 1000000 ∧ t.plain.op = some ⟨i, r, d.num⟩ ∧ t.plain.tick = s.plain.tick
        ∧ t.parts = s.parts) := by
  have he : exec (.muster i r) s = .next (State.doMuster (s.launch i r d) ⟨i, r, d.num⟩ d) :=
    congrArg Host.Outcome.next (State.computeOp_starts hs hi hb hg)
  have hdo := State.doMuster_good (s := s.launch i r d) (o := ⟨i, r, d.num⟩) ho hidle hf hd
  rw [State.formLinks_wait (s.launch i r d) _ hlink] at hdo
  refine ⟨_, he.trans (congrArg _ hdo), ?_⟩
  have hflag := (s.launch i r d).beginMuster_forming ⟨i, r, d.num⟩ (d := d)
  obtain ⟨hsize, hmember⟩ := (s.launch i r d).beginMuster_member ⟨i, r, d.num⟩ hd
  obtain ⟨hplain, hparts⟩ := State.has_plainAndParts.1 ((s.launch i r d).beginMuster_has ⟨i, r, d.num⟩ (d := d)).formLinks
  refine ⟨?_, ?_, ?_, ?_⟩
  · rw [State.flag, State.fld_formLinks _ rfl]
    exact hflag
  · rw [State.fld_formLinks _ rfl, hsize]
  · rw [State.fld_formLinks _ rfl, hmember]
  · rw [hplain]
    exact ⟨rfl, rfl, rfl, rfl, rfl, rfl, rfl, hparts⟩

end

/-! ### DISSOLVE -/

/-- The Plain's register shows no Plain. -/
def State.clearPlain (s : State) : State :=
  let s := (s.setFlag F.dvtPlainFormed false).setFlag F.dvtPlainForming false
  ((s.setFld F.dvtPlainDiameter 0).setFld F.dvtPlainPlainSize 0).setFld F.dvtPlainMemberIndex 0

/-- A link leaves the Plain. -/
def State.leavePlain (s : State) (j : Nat) : State :=
  let s := s.setLink j { s.link j with
    answered := false, seals := [], control := [], diverged := false, early := [], notices := [], coeffReq := [] }
  if s.fld (F.dvtLinkStatusState j) = 3 then s.setFld (F.dvtLinkStatusState j) 2 else s

theorem State.fld_withPlain (s : State) (x : Plain) (g : Field) : ({ s with plain := x } : State).fld g = s.fld g := rfl

/-- Every link leaves the Plain, whose register is clear. -/
def State.leaveLinks (s : State) : State := (List.range 6).foldl State.leavePlain s.clearPlain

theorem State.dropPlain_eq (s : State) :
    s.dropPlain = ({ s.leaveLinks with plain := { Plain.init with tick := s.leaveLinks.plain.tick } } : State).gateValley 34 := rfl

theorem State.fld_leavePlain (s : State) (j : Nat) {g : Field} (hg : g.addr = 0xB00000) : (s.leavePlain j).fld g = s.fld g := by
  unfold State.leavePlain
  dsimp only
  split
  · rw [State.fld_setFld_addr _ _ (hg ▸ plain_addr_ne j), State.setLink_fld]
  · rw [State.setLink_fld]

theorem State.fld_dropPlain (s : State) {g : Field} (hg : g.addr = 0xB00000) : s.dropPlain.fld g = s.clearPlain.fld g := by
  have hlinks : s.leaveLinks.fld g = s.clearPlain.fld g :=
    State.foldl_keeps (fun s => s.fld g) (fun s j => s.fld_leavePlain j hg) _ s.clearPlain
  rw [State.dropPlain_eq, (State.SameLinks.refl.gateValley (by omega)).fld (hg ▸ dovetail_plain), State.fld_withPlain, hlinks]

theorem State.clearPlain_flags (s : State) :
    s.clearPlain.flag F.dvtPlainFormed = false ∧ s.clearPlain.flag F.dvtPlainForming = false := by
  have hlater {u : State} {g : Field} (hg : g.lsb + g.width ≤ 4) :
      (((u.setFld F.dvtPlainDiameter 0).setFld F.dvtPlainPlainSize 0).setFld F.dvtPlainMemberIndex 0).flag g = u.flag g := by
    unfold State.flag
    rw [State.fld_setFld_bits _ _ (.inl (hg.trans (by decide))), State.fld_setFld_bits _ _ (.inl (hg.trans (by decide))),
      State.fld_setFld_bits _ _ (.inl hg)]
  unfold State.clearPlain
  dsimp only
  rw [hlater (by decide), hlater (by decide), State.flag_setFlag_ne _ _ (.inr (.inl (by decide)))]
  exact ⟨State.flag_setFlag_self _ _ _ Nat.one_pos, State.flag_setFlag_self _ _ _ Nat.one_pos⟩

theorem State.Has.leaveLinks {s : State} {P : Work → Prop} (h : s.Has P) : s.leaveLinks.Has P :=
  .foldl h.setFlag.setFlag.setFld.setFld.setFld fun h _ => .ite h.setLink.setFld h.setLink

/-- Of the Plain its tick stays, and the partitions do. -/
theorem State.dropPlain_has (s : State) : s.dropPlain.Has (PlainAndParts { Plain.init with tick := s.plain.tick } s.parts) := by
  have hlinks : s.leaveLinks.Has (PlainAndParts s.plain s.parts) := State.Has.leaveLinks (State.has_plainAndParts.2 ⟨rfl, rfl⟩)
  obtain ⟨hplain, hparts⟩ := State.has_plainAndParts.1 hlinks
  rw [← hplain, ← hparts, State.dropPlain_eq]
  exact (s.leaveLinks.has_withPlain _).gateValley

/-- The Plain ends, if there is one. -/
def State.dissolve (s : State) : State := if s.flag F.dvtPlainFormed then s.dropPlain else s

theorem State.dissolve_ends {s : State} (hi : s.plainIdle = true) :
    s.dissolve.flag F.dvtPlainFormed = false ∧ s.dissolve.flag F.dvtPlainForming = false
      ∧ s.dissolve.plain.tick = s.plain.tick ∧ s.dissolve.parts = s.parts := by
  unfold State.dissolve
  split
  · unfold State.flag
    rw [State.fld_dropPlain s rfl, State.fld_dropPlain s rfl]
    obtain ⟨hformed, hforming⟩ := s.clearPlain_flags
    obtain ⟨hplain, hparts⟩ := State.has_plainAndParts.1 s.dropPlain_has
    exact ⟨hformed, hforming, by rw [hplain], hparts⟩
  · next hf =>
    have hforming : s.flag F.dvtPlainForming = false := by simpa using (Bool.and_eq_true_iff.1 hi).2
    exact ⟨by simpa using hf, hforming, rfl, rfl⟩

section
variable {s : State} {i : FnId} {r : RingId} {d : Desc}

theorem State.doDissolve_good {o : OpRef} (ho : s.ownsAny o.fn = true) (hi : s.plainIdle = true) :
    State.doDissolve s o d = s.dissolve.complete o Status.ok 0 := by
  unfold State.doDissolve
  rw [if_neg (by simp [ho]), if_neg (by simp [hi])]
  rfl

theorem dissolve_does (hi : (i : Nat) ≠ 0) (hb : s.bound = true) (hs : Starts s i r 1 0x07 d) (hg : d.good 0 0 0 0 .none = true)
    (ho : s.ownsAny i = true) (hidle : s.plainIdle = true) :
    Ends (.dissolve i r) s i r d Status.ok 0 (fun u => u.flag F.dvtPlainFormed = false ∧ u.flag F.dvtPlainForming = false
      ∧ u.plain.tick = s.plain.tick ∧ u.parts = s.parts) := by
  have he : exec (.dissolve i r) s = .next (State.doDissolve (s.launch i r d) ⟨i, r, d.num⟩ d) :=
    congrArg Host.Outcome.next (State.computeOp_starts hs hi hb hg)
  exact ⟨_, he.trans (congrArg _ (State.doDissolve_good ho hidle)), _, State.dissolve_ends (s := s.launch i r d) hidle, rfl⟩

end

end Sys2Proof.Machine
end
section
/-! PROOFS. PAGE_COMMIT (05_roles.md R160, R161): a commit that applies, and one that is noted. -/

namespace Sys2Proof.Machine
open Sys2Proof.Say

/-! ### What a commit that applies leaves -/

/-- From s to t no memory changes. -/
def State.SameMems (s t : State) : Prop := t.mems = s.mems

namespace State.SameMems
variable {s t u : State}

theorem refl : s.SameMems s := rfl

theorem ite {c : Prop} [Decidable c] (ht : s.SameMems t) (hu : s.SameMems u) : s.SameMems (if c then t else u) := by
  split
  · exact ht
  · exact hu

theorem setFld (h : s.SameMems t) {f n} : s.SameMems (t.setFld f n) := h
theorem setFlag (h : s.SameMems t) {f b} : s.SameMems (t.setFlag f b) := h
theorem setRing (h : s.SameMems t) {i r x} : s.SameMems (t.setRing i r x) := h
theorem withHost (h : s.SameMems t) {ho} : s.SameMems { t with host := ho } := h
theorem handOver (h : s.SameMems t) {i r c} : s.SameMems (t.handOver i r c) := h

theorem foldl {α : Type} {f : State → α → State} {l : List α} (h : s.SameMems t)
    (hf : ∀ {u : State}, s.SameMems u → ∀ a, s.SameMems (f u a)) : s.SameMems (l.foldl f t) := by
  induction l generalizing t with
  | nil => exact h
  | cons a l ih => exact ih (hf h a)

theorem settleReset (h : s.SameMems t) {i r} : s.SameMems (t.settleReset i r) :=
  .ite h.setFld.setFld.setFld.setFlag.setRing.withHost h

theorem flush (h : s.SameMems t) {i r} : s.SameMems (t.flush i r) := .settleReset (.foldl h.setRing (fun h _ => h.handOver))

theorem complete (h : s.SameMems t) {o status result} : s.SameMems (t.complete o status result) := h.setRing.flush

theorem memUnit (h : s.SameMems t) (u : Nat) : t.memUnit u = s.memUnit u := congrArg (fun m => Tab.get MemUnit.init m u) h

end State.SameMems

theorem State.granule_setGranule (s : State) (u g k : Nat) (x : Granule) :
    (s.setGranule u g x).granule u k = if k = g then x else s.granule u k := by
  unfold State.setGranule State.granule
  dsimp only
  rw [State.setMemUnit_self, Tab.get_set]

theorem State.setGranule_bytes (s : State) (u g : Nat) (x : Granule) :
    ((s.setGranule u g x).memUnit u).bytes = (s.memUnit u).bytes := by
  unfold State.setGranule
  dsimp only
  rw [State.setMemUnit_self]

/-- A slot that does not become FREE changes its state alone (R160, R161). -/
theorem State.moveSlot_held (s : State) (u g : Nat) {new : Nat} (h : new ≠ 0) :
    s.moveSlot u g new = s.setGranule u g { s.granule u g with pstate := new } := if_neg h

section
variable (u : Nat) {new : Nat} (h : new ≠ 0)
include h

theorem State.foldl_moveSlot_pstate (gs : List Nat) (s : State) {k : Nat} (hk : k ∈ gs ∨ (s.granule u k).pstate = new) :
    ((gs.foldl (fun s g => s.moveSlot u g new) s).granule u k).pstate = new := by
  induction gs generalizing s with
  | nil => exact hk.resolve_left List.not_mem_nil
  | cons g gs ih =>
    refine ih (s.moveSlot u g new) ?_
    rw [State.moveSlot_held s u g h, State.granule_setGranule]
    by_cases hg : k = g
    · exact .inr (by rw [if_pos hg])
    · rw [if_neg hg]
      exact hk.imp_left fun hm => (List.mem_cons.1 hm).resolve_left hg

theorem State.foldl_moveSlot_bytes (gs : List Nat) (s : State) :
    ((gs.foldl (fun s g => s.moveSlot u g new) s).memUnit u).bytes = (s.memUnit u).bytes :=
  State.foldl_keeps (fun s => (s.memUnit u).bytes) (fun s g => by rw [State.moveSlot_held s u g h, State.setGranule_bytes]) gs s

end

/-- The slots of a commit change their state. -/
def State.moveSlots (s : State) (c : PageCommit) : State := c.granules.foldl (fun s g => s.moveSlot c.unit g c.target) s

/-- A commit to READY of slots that are all FILLING applies, and what the slots hold stays (R160). -/
theorem State.applyCommit_ready {s : State} {c : PageCommit} (ht : c.target = 2)
    (hg : ∀ g ∈ c.granules, (s.granule c.unit g).pool = true ∧ (s.granule c.unit g).pstate = 1) :
    (∀ g ∈ c.granules, ((s.applyCommit c).granule c.unit g).pstate = 2)
      ∧ ((s.applyCommit c).memUnit c.unit).bytes = (s.memUnit c.unit).bytes := by
  have hall : c.granules.all (fun g => (s.granule c.unit g).pool && goodMove (s.granule c.unit g).pstate c.target) = true := by
    refine List.all_eq_true.2 fun g hm => ?_
    obtain ⟨hpool, hstate⟩ := hg g hm
    rw [hpool, hstate, ht]
    rfl
  have happly : s.applyCommit c = (s.moveSlots c).complete c.op Status.ok 0 := if_pos hall
  have hunit : (s.applyCommit c).memUnit c.unit = (s.moveSlots c).memUnit c.unit := by
    rw [happly]
    exact State.SameMems.refl.complete.memUnit c.unit
  have h0 : c.target ≠ 0 := by omega
  refine ⟨fun g hm => ?_, ?_⟩
  · unfold State.granule
    rw [hunit]
    exact (State.foldl_moveSlot_pstate c.unit h0 c.granules s (.inl hm)).trans ht
  · rw [hunit]
    exact State.foldl_moveSlot_bytes c.unit h0 c.granules s

/-- No commit to READY waits where no kerfs occur and its partition is LOADED. -/
theorem State.commitWaits_ready {s : State} {c : PageCommit} (hs : s.scheduled = false) (ht : c.target = 2)
    (hp : (s.part c.part).state = .loaded) : s.commitWaits c = false := by
  simp [State.commitWaits, State.waitsRewrite, hs, ht, hp]

/-- The only commit in hand applies where it need not wait. -/
theorem State.runCommits_single {s : State} {c : PageCommit} (hc : s.run.commits = [c]) (hw : s.commitWaits c = false) :
    s.runCommits = { s.applyCommit c with run := { (s.applyCommit c).run with commits := [] } } := by
  have h : applyCommits [c] [] s = ([], s.applyCommit c) := by
    rw [applyCommits]
    exact if_neg (by simp [hw])
  unfold State.runCommits
  rw [hc, h]

/-! ### What the operation does -/

/-- A commit is noted. -/
def State.noteCommit (s : State) (c : PageCommit) : State :=
  let s := s.setNeeds c.op (2 ^ c.part)
  { s with run := { s.run with commits := s.run.commits ++ [c] } }

/-- A commit to READY that is noted while no other is in hand applies at once, where no kerfs occur (R160). -/
theorem State.noteCommit_applies {s : State} {c : PageCommit} (hs : s.scheduled = false) (hc : s.run.commits = [])
    (ht : c.target = 2) (hp : (s.part c.part).state = .loaded)
    (hg : ∀ g ∈ c.granules, (s.granule c.unit g).pool = true ∧ (s.granule c.unit g).pstate = 1) :
    (∀ g ∈ c.granules, ((s.noteCommit c).runCommits.granule c.unit g).pstate = 2)
      ∧ (s.noteCommit c).runCommits.run.commits = []
      ∧ ((s.noteCommit c).runCommits.memUnit c.unit).bytes = (s.memUnit c.unit).bytes := by
  have hnoted : (s.noteCommit c).run.commits = [c] := congrArg (· ++ [c]) hc
  have hsch : (s.noteCommit c).scheduled = false := (State.scheduled_congr rfl).trans hs
  rw [State.runCommits_single hnoted (State.commitWaits_ready hsch ht hp)]
  obtain ⟨hready, hbytes⟩ := State.applyCommit_ready (s := s.noteCommit c) ht hg
  exact ⟨hready, rfl, hbytes⟩

/-- The commit that a descriptor asks for of pool region g. -/
def Desc.pageCommit (d : Desc) (o : OpRef) (g : Region) (kerf : Nat) : PageCommit :=
  ⟨o, d.w0 32 2, g.memUnit, g.addr / 65536 + d.le 16 4, d.le 20 4, d.w0 36 2, kerf⟩

/-- The partition of a PAGE_COMMIT may have it, and its slots are some of pool region g (R160). -/
structure GoodCommit (s : State) (i : Nat) (d : Desc) (l : Cutlist) (g : Region) : Prop where
  owner : (s.part (d.w0 32 2)).owner = some i
  fenced : (s.part (d.w0 32 2)).fenced = false
  list : (s.part (d.w0 32 2)).list = some l
  role : bitOf l.roles 2 = true
  pool : s.poolRegion (d.w0 32 2) (d.le 8 2) = some g
  target : d.w0 36 2 ≠ 3
  count : d.le 20 4 ≠ 0
  fits : d.le 16 4 + d.le 20 4 ≤ g.size / 65536

theorem State.doPageCommit_good {s : State} {o : OpRef} {d : Desc} {l : Cutlist} {g : Region} (h : GoodCommit s o.fn d l g) :
    State.doPageCommit s o d = if s.scheduled then s.noteCommit (d.pageCommit o g s.nextKerf)
      else (s.noteCommit (d.pageCommit o g s.nextKerf)).runCommits := by
  unfold State.doPageCommit
  dsimp only
  rw [if_neg (by simp [h.count, h.target]), if_neg (by simp [h.owner]), if_neg (by simp [h.fenced]), h.list]
  dsimp only
  rw [if_neg (by simp [h.role]), h.pool]
  dsimp only
  rw [if_neg (by have := h.fits; omega)]
  rfl

section
variable {s : State} {i : FnId} {r : RingId} {d : Desc} {l : Cutlist} {g : Region}

theorem execPageCommit_good (hi : (i : Nat) ≠ 0) (hb : s.bound = true) (hs : Starts s i r 1 0x08 d)
    (hg : d.good 0x33 0xFFFF allBits 0 .none = true) (h : GoodCommit s i d l g) :
    exec (.pageCommit i r) s = .next (if s.scheduled then (s.launch i r d).noteCommit (d.pageCommit ⟨i, r, d.num⟩ g s.nextKerf)
      else ((s.launch i r d).noteCommit (d.pageCommit ⟨i, r, d.num⟩ g s.nextKerf)).runCommits) := by
  have hl : GoodCommit (s.launch i r d) i d l g := ⟨h.owner, h.fenced, h.list, h.role, h.pool, h.target, h.count, h.fits⟩
  exact congrArg Host.Outcome.next ((State.computeOp_starts hs hi hb hg).trans (State.doPageCommit_good (o := ⟨i, r, d.num⟩) hl))

theorem pageCommit_noted_does (hi : (i : Nat) ≠ 0) (hb : s.bound = true) (hs : Starts s i r 1 0x08 d)
    (hg : d.good 0x33 0xFFFF allBits 0 .none = true) (h : GoodCommit s i d l g) (hsch : s.scheduled = true) :
    Does (.pageCommit i r) s (fun t =>
      t.run.commits = s.run.commits ++ [d.pageCommit ⟨i, r, d.num⟩ g s.nextKerf] ∧ t.mems = s.mems) :=
  ⟨_, (execPageCommit_good hi hb hs hg h).trans (congrArg _ (if_pos hsch)), rfl, rfl⟩

theorem pageCommit_applied_does (hi : (i : Nat) ≠ 0) (hb : s.bound = true) (hs : Starts s i r 1 0x08 d)
    (hg : d.good 0x33 0xFFFF allBits 0 .none = true) (h : GoodCommit s i d l g) (hsch : s.scheduled = false)
    (hc : s.run.commits = []) (ht : d.w0 36 2 = 2) (hst : (s.part (d.w0 32 2)).state = .loaded)
    (hslots : ∀ k, k < d.le 20 4 → (s.granule g.memUnit (g.addr / 65536 + d.le 16 4 + k)).pool = true
      ∧ (s.granule g.memUnit (g.addr / 65536 + d.le 16 4 + k)).pstate = 1) :
    Does (.pageCommit i r) s (fun t =>
      (∀ k, k < d.le 20 4 → (t.granule g.memUnit (g.addr / 65536 + d.le 16 4 + k)).pstate = 2) ∧ t.run.commits = []
        ∧ (t.memUnit g.memUnit).bytes = (s.memUnit g.memUnit).bytes) := by
  have hmem {k} : k ∈ (d.pageCommit ⟨i, r, d.num⟩ g s.nextKerf).granules
      ↔ ∃ j < d.le 20 4, g.addr / 65536 + d.le 16 4 + j = k := by
    simp [PageCommit.granules, Desc.pageCommit]
  have hfilling : ∀ k ∈ (d.pageCommit ⟨i, r, d.num⟩ g s.nextKerf).granules, (s.granule g.memUnit k).pool = true
      ∧ (s.granule g.memUnit k).pstate = 1 := fun k hk => by
    obtain ⟨j, hj, rfl⟩ := hmem.1 hk
    exact hslots j hj
  obtain ⟨hready, hcommits, hbytes⟩ := State.noteCommit_applies (s := s.launch i r d)
    (c := d.pageCommit ⟨i, r, d.num⟩ g s.nextKerf) hsch hc ht hst hfilling
  exact ⟨_, (execPageCommit_good hi hb hs hg h).trans (congrArg _ (if_neg (by simp [hsch]))),
    fun k hk => hready _ (hmem.2 ⟨k, hk, rfl⟩), hcommits, hbytes⟩

end

end Sys2Proof.Machine
end
section
/-! PROOFS. The operations of a compute ring without a tenant, and those on the manager's ring (10_tenancy.md R286;
12_rings.md R334, R349); and the obligation on formation and pages. -/

namespace Sys2Proof.Machine
open Sys2Proof.Say

/-! ### The check of the binding -/

section
variable {s : State} {i : FnId} {r : RingId} {op : Nat} {d : Desc} {good : Desc → Bool} {body : State → OpRef → Desc → State}

/-- The body of an operation that may start runs on the state that its launch leaves. -/
theorem State.withOp_starts {kind : Nat} {f : State → OpRef → Desc → State} (hs : Starts s i r kind op d) :
    s.withOp i r kind op f = f (s.launch i r d) ⟨i, r, d.num⟩ d := by
  obtain ⟨hnext, hgood, hengine⟩ := hs
  unfold State.withOp
  rw [hnext]
  exact if_neg (by simp [hgood, hengine])

theorem State.computeOp_unbound (hs : Starts s i r 1 op d) {st : Nat} (hst : s.boundStatus = some st) :
    s.computeOp i r op good body = (s.launch i r d).complete ⟨i, r, d.num⟩ st 0 := by
  unfold State.computeOp
  rw [State.withOp_starts hs, show (s.launch i r d).boundStatus = some st from hst]

theorem State.computeOp_manager (hs : Starts s i r 1 op d) (hb : s.bound = true) (hi : (i : Nat) = 0) :
    s.computeOp i r op good body = (s.launch i r d).complete ⟨i, r, d.num⟩ Status.badDescriptor 0 := by
  have hsec : s.secState = 3 := by simpa [State.bound] using hb
  have hbound : (s.launch i r d).boundStatus = none := if_pos hsec
  unfold State.computeOp
  rw [State.withOp_starts hs, hbound]
  exact if_neg fun h => h.1 hi

/-- The command of an operation of a compute ring, with its opcode (R349). -/
abbrev ComputeCommand (i : FnId) (r : RingId) (commits : Bool) (c : Instr) (op : Nat) : Prop :=
  (c = .load i r commits ∧ op = 0x01) ∨ (c = .start i r ∧ op = 0x02) ∨ (c = .stage i r commits ∧ op = 0x03)
    ∨ (c = .stop i r ∧ op = 0x04) ∨ (c = .unload i r ∧ op = 0x05) ∨ (c = .muster i r ∧ op = 0x06)
    ∨ (c = .dissolve i r ∧ op = 0x07) ∨ (c = .pageCommit i r ∧ op = 0x08)

/-- UNLOAD waits for a fence only while a tenant is bound (R499). -/
theorem execUnload_unbound (hs : Starts s i r 1 0x05 d) (hb : s.bound = false) :
    execUnload i r s = .next (s.computeOp i r 0x05 (fun d => d.good 15 0 0 0 .none) State.doUnload) := by
  unfold execUnload
  rw [hs.1]
  exact congrArg _ (if_neg (by simp [hb]))

/-- A command whose turn has come, and that no fence holds, makes the checks that every operation makes. -/
theorem exec_computeCommand {commits : Bool} {c : Instr} (hc : ComputeCommand i r commits c op) (hs : Starts s i r 1 op d)
    (ht : op = 0x01 ∨ op = 0x03 → s.loadTurn i r d.stamp = true) (hu : c = .unload i r → s.bound = false) :
    ∃ good body, exec c s = .next (s.computeOp i r op good body) := by
  rcases hc with ⟨rfl, rfl⟩ | ⟨rfl, rfl⟩ | ⟨rfl, rfl⟩ | ⟨rfl, rfl⟩ | ⟨rfl, rfl⟩ | ⟨rfl, rfl⟩ | ⟨rfl, rfl⟩ | ⟨rfl, rfl⟩
  · exact ⟨_, _, congrArg Host.Outcome.next (State.inLoadTurn_turn hs (ht (.inl rfl)))⟩
  · exact ⟨_, _, rfl⟩
  · exact ⟨_, _, congrArg Host.Outcome.next (State.inLoadTurn_turn hs (ht (.inr rfl)))⟩
  · exact ⟨_, _, rfl⟩
  · exact ⟨_, _, execUnload_unbound hs (hu rfl)⟩
  · exact ⟨_, _, rfl⟩
  · exact ⟨_, _, rfl⟩
  · exact ⟨_, _, rfl⟩

theorem computeCommand_unbound_refuses {commits : Bool} {c : Instr} (hc : ComputeCommand i r commits c op)
    (hs : Starts s i r 1 op d) (ht : op = 0x01 ∨ op = 0x03 → s.loadTurn i r d.stamp = true) (hb : s.bound = false)
    {st : Nat} (hst : s.boundStatus = some st) : Refuses c s i r d st 0 := by
  obtain ⟨good, body, he⟩ := exec_computeCommand hc hs ht fun _ => hb
  exact ⟨_, he, State.computeOp_unbound hs hst⟩

theorem computeCommand_manager_refuses {commits : Bool} {c : Instr} (hc : ComputeCommand i r commits c op)
    (hs : Starts s i r 1 op d) (ht : op = 0x01 ∨ op = 0x03 → s.loadTurn i r d.stamp = true) (hb : s.bound = true)
    (hi : (i : Nat) = 0) (hu : c ≠ .unload i r) : Refuses c s i r d Status.badDescriptor 0 := by
  obtain ⟨good, body, he⟩ := exec_computeCommand hc hs ht fun h => absurd h hu
  exact ⟨_, he, State.computeOp_manager hs hb hi⟩

end

theorem State.boundStatus_notBound {s : State} (hb : s.bound = false) (h4 : s.secState ≠ 4) :
    s.boundStatus = some Status.notBound :=
  (if_neg (by simpa [State.bound] using hb)).trans (if_neg h4)

theorem State.boundStatus_unbinding {s : State} (h4 : s.secState = 4) : s.boundStatus = some Status.fenced :=
  (if_neg (by omega)).trans (if_pos h4)

/-! ### The obligation -/

/-- Settles O22: the theorem about each operation, and the check of the binding that all of them make. -/
theorem formationAndPageOperations : Obligations.formation_and_page_operations := by
  intro s i r d
  refine ⟨?_, dissolve_does, ?_, ?_⟩
  · intro hi hb hs hg ho hidle hf h2 h512 hm hshape hx hy hz h1 hms hlink
    exact muster_does hi hb hs hg ho hidle hf ⟨h2, h512, hm, hshape, hx, hy, hz, h1, hms⟩ hlink
  · rintro p l g hi hb hs hg rfl howner hfenced hlist hrole hpool htarget hcount hfits
    have h : GoodCommit s i d l g := ⟨howner, hfenced, hlist, hrole, hpool, htarget, hcount, hfits⟩
    exact ⟨pageCommit_noted_does hi hb hs hg h, pageCommit_applied_does hi hb hs hg h⟩
  · intro c op commits hc hs ht
    refine ⟨fun hb h4 => computeCommand_unbound_refuses hc hs ht hb (State.boundStatus_notBound hb h4), fun h4 => ?_,
      fun hb hi hu => computeCommand_manager_refuses hc hs ht hb hi hu⟩
    exact computeCommand_unbound_refuses hc hs ht (by simp [State.bound, h4]) (State.boundStatus_unbinding h4)

end Sys2Proof.Machine
end
section
/-! PROOFS. Released flits (06_plain.md R172, R175): a receive slot whose bench number names no bench of the device. -/

namespace Sys2Proof.Machine

/-- A cutlist with one slot table, whose one receive slot names bench 20971760 on link 2. A slot entry holds its bench as a bare
number, of 8 bits where it comes from a container (04_cutlists.md R121). The fabric valley of this one is 2621474. -/
def strayList : Cutlist :=
  { roles := 0, partition := 0, ckptCapable := false, plainSize := 1, memberIndex := 0, diameter := 0, cutCount := 1,
    loopStart := 0, clusterMask := 0, stackMask := 0, linkMask := 4, hash := [], family := [], drawing := [],
    cutRunHash := [], runs := [⟨1, 400, 16, 0, 0, false, false, false, false, 0⟩], benches := []
    tables := [[⟨113, 1, 2, true, 0, 20971760, 0, 320, 0⟩]], regions := [], memslots := [], windows := [], exchange := []
    images := [] }

/-- A cut of it on link 2 in service, with V34 open and that fabric valley isolated. -/
def strayCut : State :=
  let s := (State.reset.setFld (F.dvtLinkStatusState 2) 3).setFlag (F.vlyStateIsolated 34) false
  { s.setFlag (F.vlyStateIsolated 2621474) true with
    parts := [(0, { Part.init with list := some strayList })], run := { Run.init with parts := 1, phase := .cut } }

theorem strayCut_streams : strayCut.streams 2 = true := by decide +kernel

/-- A flit without a corrected codeword is released, and the link's count of corrected codewords goes from 0 to 1. -/
theorem strayCut_flitRelease : strayCut.fld (F.dvtLinkFecCorrected 2) = 0
    ∧ ∃ t, exec (.flitRelease 2 0 [] false) strayCut = .next t ∧ t.fld (F.dvtLinkFecCorrected 2) = 1 :=
  ⟨by decide +kernel, _, rfl, by decide +kernel⟩

/-- Refutes O8: its first clause says of every state that a released flit leaves the count of corrected codewords where none
was corrected. In strayCut the flit's slot names a bench that the device does not have. The bytes are discarded behind an
isolated valley that it does not have either, and the count of that valley is the link's count of corrected codewords. The
clause lacks the premise that the slots of the cut name benches of the device, those below 160. -/
theorem not_flitsAndLinkFailures : ¬ Obligations.flits_and_link_failures := by
  unfold Obligations.flits_and_link_failures
  intro h
  obtain ⟨hrelease, -⟩ := h strayCut 2 0 [] false
  obtain ⟨t, ht, -, hcount, -⟩ := hrelease strayCut_streams
  obtain ⟨hzero, u, hu, hone⟩ := strayCut_flitRelease
  obtain rfl : u = t := Host.Outcome.next.inj (hu.symm.trans ht)
  have hsame : u.fld (F.dvtLinkFecCorrected 2) = (strayCut.fld (F.dvtLinkFecCorrected 2) + 0) % 2 ^ 32 := hcount
  rw [hone, hzero] at hsame
  exact absurd hsame (by decide)

end Sys2Proof.Machine
end

section
/-! PROOFS. What notices and raised halts leave of the links, the messages and the Dovetail registers (06_plain.md R169, R192). -/

namespace Sys2Proof.Machine

/-- From s to t messages leave, links get notices to take along, and of the Dovetail registers only the Plain's changes. -/
structure State.Signals (s t : State) : Prop where
  out : s.out <+: t.out
  links : ∀ k, ∃ ns, t.link k = { s.link k with notices := (s.link k).notices ++ ns }
  regs : ∀ g : Field, Dovetail g.addr → g.addr ≠ 0xB00000 → t.fld g = s.fld g

namespace State.Signals
variable {s t u : State}

theorem refl : s.Signals s := ⟨List.prefix_refl _, fun _ => ⟨[], by rw [List.append_nil]⟩, fun _ _ _ => rfl⟩

theorem trans (h : s.Signals t) (h' : t.Signals u) : s.Signals u := by
  refine ⟨h.out.trans h'.out, fun k => ?_, fun g hd hg => (h'.regs g hd hg).trans (h.regs g hd hg)⟩
  obtain ⟨ns, e⟩ := h.links k
  obtain ⟨ns', e'⟩ := h'.links k
  exact ⟨ns ++ ns', by rw [e', e, List.append_assoc]⟩

theorem ite {c : Prop} [Decidable c] (ht : s.Signals t) (hu : s.Signals u) : s.Signals (if c then t else u) := by
  split
  · exact ht
  · exact hu

theorem foldl {α : Type} {f : State → α → State} {l : List α} (h : s.Signals t)
    (hf : ∀ {u : State}, s.Signals u → ∀ a, s.Signals (f u a)) : s.Signals (l.foldl f t) := by
  induction l generalizing t with
  | nil => exact h
  | cons a l ih => exact ih (hf h a)

theorem setFld (h : s.Signals t) {f : Field} {n} (hf : ¬ Dovetail f.addr ∨ f.addr = 0xB00000) : s.Signals (t.setFld f n) :=
  h.trans ⟨List.prefix_refl _, refl.links, fun _ hd hg =>
    State.fld_setFld_addr t n fun e => hf.elim (fun hf => hf (e ▸ hd)) (fun hf => hg (e.trans hf))⟩

theorem others (h : s.Signals t) {ru rc pi} : s.Signals { t with run := ru, rcv := rc, pins := pi } := ⟨h.out, h.links, h.regs⟩
theorem setFn (h : s.Signals t) {i x} : s.Signals (t.setFn i x) := ⟨h.out, h.links, h.regs⟩
theorem setCore (h : s.Signals t) {k x} : s.Signals (t.setCore k x) := ⟨h.out, h.links, h.regs⟩

theorem emit (h : s.Signals t) {m} : s.Signals (t.emit m) := ⟨h.out.trans (List.prefix_append _ _), h.links, h.regs⟩

theorem addNotice (h : s.Signals t) {j n} :
    s.Signals (t.setLink j { t.link j with notices := (t.link j).notices ++ [n] }) := by
  refine h.trans ⟨List.prefix_refl _, fun k => ?_, fun _ _ _ => rfl⟩
  by_cases e : k = j
  · exact ⟨[n], by rw [e, State.setLink_self]⟩
  · exact ⟨[], by rw [State.setLink_ne _ _ e, List.append_nil]⟩

theorem notice (h : s.Signals t) {links aux n} : s.Signals (t.notice links aux n) :=
  .foldl h fun h _ => .foldl h fun h _ => .ite h.addNotice h.emit

theorem wake (h : s.Signals t) {bit} : s.Signals (t.wake bit) := by
  have hw : s.Signals (t.setFld ⟨F.hifWakeCauseRtcAlarm.addr, bit, 1⟩ 1) :=
    h.setFld (.inl (by simp [Dovetail, F.hifWakeCauseRtcAlarm]))
  exact .ite (.ite hw (.ite hw.setFn.others.emit (.ite hw.setFn.emit hw))) hw

theorem markLine (h : s.Signals t) {k line} : s.Signals (t.markLine k line) := .ite h h.setCore

theorem setHalt (h : s.Signals t) {x} : s.Signals (t.setHalt x) := by
  have hp : s.Signals (t.setFlag F.dvtPlainHaltPending true) := h.setFld (.inr rfl)
  unfold State.setHalt
  dsimp only
  split
  exacts [hp.others, hp.others]

theorem haltNow (h : s.Signals t) {x} : s.Signals (t.haltNow x) := .markLine (.wake (.ite h.setHalt.notice h.setHalt))

theorem raiseHalt (h : s.Signals t) {x} : s.Signals (t.raiseHalt x) := .ite h.haltNow h.others

end State.Signals

/-! ### Where a notice goes -/

/-- The run of t is that of s but for its halt and its notices, and the partitions, the Plain and the benches are those of s. -/
def State.Halts (s t : State) : Prop :=
  (∃ h ns, t.run = { s.run with halt := h, noticed := ns }) ∧ t.parts = s.parts ∧ t.plain = s.plain ∧ t.benches = s.benches

theorem State.halts_refl (s : State) : s.Has (AnyHalt fun w => (∃ h ns, w.run = { s.run with halt := h, noticed := ns })
    ∧ w.parts = s.parts ∧ w.plain = s.plain ∧ w.benches = s.benches) :=
  ⟨⟨⟨_, _, rfl⟩, rfl, rfl, rfl⟩, fun _ _ => ⟨⟨_, _, rfl⟩, rfl, rfl, rfl⟩⟩

theorem State.halts_setHalt (s : State) (x : Halt) : s.Halts (s.setHalt x) := s.halts_refl.setHalt.of_anyHalt

theorem State.halts_raiseHalt (s : State) (x : Trouble) : s.Halts (s.raiseHalt x) := s.halts_refl.raiseHalt.of_anyHalt

theorem State.inPlain_setHalt (s : State) (x : Halt) : (s.setHalt x).inPlain = s.inPlain := by
  have hf {g : Field} (hg : g.lsb + g.width ≤ 3 ∨ 4 ≤ g.lsb) : (s.setFlag F.dvtPlainHaltPending true).fld g = s.fld g :=
    State.fld_setFld_bits _ _ hg
  have hp : (s.setFlag F.dvtPlainHaltPending true).inPlain = s.inPlain := by
    unfold State.inPlain State.flag
    rw [hf (.inl (by decide)), hf (.inr (by decide))]
  refine Eq.trans ?_ hp
  unfold State.setHalt
  dsimp only
  split <;> rfl

/-- Which of the next flits of a link are due depends neither on halts nor on notices. -/
theorem State.flitDue_congr {s t : State} (h : s.Halts t) (hi : t.inPlain = s.inPlain)
    (hl : ∀ k, (t.link k).filled = (s.link k).filled) (j q : Nat) : t.flitDue j q = s.flitDue j q := by
  obtain ⟨⟨_, _, hrun⟩, hparts, hplain, -⟩ := h
  simp only [State.flitDue, State.schedule, State.setParts, State.part, State.flitSlots, State.txSlots, hparts, hrun, hplain,
    hi, hl]

theorem State.Signals.filled {s t : State} (h : s.Signals t) (k : Nat) : (t.link k).filled = (s.link k).filled := by
  obtain ⟨ns, e⟩ := h.links k
  rw [e]

theorem State.flitDue_setHalt (s : State) (x : Halt) (j q : Nat) : (s.setHalt x).flitDue j q = s.flitDue j q :=
  State.flitDue_congr (s.halts_setHalt x) (s.inPlain_setHalt x) (State.Signals.refl.setHalt (x := x)).filled j q

/-- A notice is on its way in the next flits of link k also after further signals. -/
theorem State.Signals.noted {s t u : State} (h : t.Signals u) {k aux v : Nat} (hn : Say.Noted s t k aux v) :
    Say.Noted s u k aux v := by
  intro q hq
  have hq' := hn q hq
  obtain ⟨ns, e⟩ := h.links k
  split
  · next hd =>
    rw [if_pos hd] at hq'
    rw [e]
    exact List.mem_append_left _ hq'
  · next hd =>
    rw [if_neg hd] at hq'
    exact h.out.subset hq'

/-- From s to t notices alone have gone out. -/
def State.Tells (s t : State) : Prop := (∃ ls os, t = { s with links := ls, out := os }) ∧ s.Signals t

namespace State.Tells
variable {s t u : State}

theorem trans (h : s.Tells t) (h' : t.Tells u) : s.Tells u := by
  obtain ⟨⟨ls, os, rfl⟩, hs⟩ := h
  obtain ⟨⟨ls', os', rfl⟩, hs'⟩ := h'
  exact ⟨⟨ls', os', rfl⟩, hs.trans hs'⟩

theorem flitDue (h : s.Tells t) (j q : Nat) : t.flitDue j q = s.flitDue j q := by
  obtain ⟨⟨ls, os, e⟩, hs⟩ := h
  have hh : s.Halts t := e ▸ ⟨⟨_, _, rfl⟩, rfl, rfl, rfl⟩
  have hi : t.inPlain = s.inPlain := e ▸ rfl
  exact State.flitDue_congr hh hi hs.filled j q

end State.Tells

section
variable (s : State) (j aux v : Nat)

/-- A notice goes out with the flit q places ahead on link j. -/
def State.noticeAt (q : Nat) : State :=
  if s.flitDue j q then s.setLink j { s.link j with notices := (s.link j).notices ++ [(aux, v % 65536)] }
  else s.emit (.flit j 0 aux (v % 65536) [])

/-- A notice goes out on link j. -/
def State.noticeLink : State := (s.noticeAt j aux v 0).noticeAt j aux v 1

theorem State.notice_eq (ls : List Nat) : s.notice ls aux v = ls.foldl (fun s j => s.noticeLink j aux v) s := rfl

theorem State.tells_noticeAt (q : Nat) : s.Tells (s.noticeAt j aux v q) := by
  refine ⟨?_, .ite State.Signals.refl.addNotice State.Signals.refl.emit⟩
  unfold State.noticeAt
  split
  exacts [⟨_, _, rfl⟩, ⟨_, _, rfl⟩]

theorem State.tells_noticeLink : s.Tells (s.noticeLink j aux v) := (s.tells_noticeAt j aux v 0).trans (State.tells_noticeAt ..)

theorem State.noticeAt_says (q : Nat) : if s.flitDue j q then (aux, v % 65536) ∈ ((s.noticeAt j aux v q).link j).notices
    else Out.flit j 0 aux (v % 65536) [] ∈ (s.noticeAt j aux v q).out := by
  unfold State.noticeAt
  split
  · rw [State.setLink_self]
    exact List.mem_append_right _ List.mem_cons_self
  · exact List.mem_append_right _ List.mem_cons_self

theorem State.noted_noticeLink : Say.Noted s (s.noticeLink j aux v) j aux (v % 65536) := by
  have h0 := s.noticeAt_says j aux v 0
  have h1 := (s.noticeAt j aux v 0).noticeAt_says j aux v 1
  rw [(s.tells_noticeAt j aux v 0).flitDue] at h1
  obtain ⟨ns, e⟩ := (State.tells_noticeAt (s.noticeAt j aux v 0) j aux v 1).2.links j
  have ho := (State.tells_noticeAt (s.noticeAt j aux v 0) j aux v 1).2.out
  intro q hq
  obtain rfl | rfl : q = 0 ∨ q = 1 := by omega
  · split
    · next hd =>
      rw [if_pos hd] at h0
      unfold State.noticeLink
      rw [e]
      exact List.mem_append_left _ h0
    · next hd =>
      rw [if_neg hd] at h0
      exact ho.subset h0
  · exact h1

end

theorem State.tells_notice (s : State) (ls : List Nat) (aux v : Nat) : s.Tells (s.notice ls aux v) := by
  rw [State.notice_eq]
  induction ls using List.reverseRecOn with
  | nil => exact ⟨⟨_, _, rfl⟩, .refl⟩
  | append_singleton ls i ih =>
    rw [List.foldl_append]
    exact ih.trans (State.tells_noticeLink ..)

/-- A notice on a list of links is on its way in the next two flits of each. -/
theorem State.noted_notice (s : State) (ls : List Nat) (aux v : Nat) {k : Nat} (hk : k ∈ ls) :
    Say.Noted s (s.notice ls aux v) k aux (v % 65536) := by
  rw [State.notice_eq]
  induction ls using List.reverseRecOn with
  | nil => exact absurd hk List.not_mem_nil
  | append_singleton ls i ih =>
    rw [List.foldl_append, List.foldl_cons, List.foldl_nil]
    have ht := s.tells_notice ls aux v
    rw [State.notice_eq] at ht
    by_cases hm : k ∈ ls
    · exact (State.tells_noticeLink ..).2.noted (ih hm)
    · obtain rfl : k = i := by simpa [hm] using hk
      intro q hq
      rw [← ht.flitDue]
      exact State.noted_noticeLink _ k aux v q hq

end Sys2Proof.Machine
end

section
/-! PROOFS. Seal flits (06_plain.md R171, R181, R191): what a link notes of one, and how it is judged. -/

namespace Sys2Proof.Machine
open Sys2Proof.Say

/-! ### Corrected codewords (R175) -/

theorem dovetail_link {j o : Nat} (hj : j < 6) (ho : o < 0x40) : Dovetail (0xB00100 + o + j * 0x40) := by
  simp only [Dovetail]
  omega

theorem State.fld_dvtLinkFecCorrected_lt (s : State) {j : Nat} (hj : j < 6) : s.fld (F.dvtLinkFecCorrected j) < 2 ^ 32 := by
  have h1 : F.dvtLinkFecCorrected j ≠ F.secStatusState := fun e => by
    have := congrArg Field.width e
    simp [F.dvtLinkFecCorrected, F.secStatusState] at this
  have h2 : F.dvtLinkFecCorrected j ≠ F.secStatusDebug := fun e => by
    have := congrArg Field.width e
    simp [F.dvtLinkFecCorrected, F.secStatusDebug] at this
  refine Regs.fld_lt _ (F.dvtLinkFecCorrected j) ?_
  rw [lostValue, if_neg h1, if_neg h2, if_neg (by simp only [F.dvtLinkFecCorrected]; omega),
    if_neg (by simp only [F.dvtLinkFecCorrected]; omega)]
  exact Nat.sub_lt (Nat.two_pow_pos _) Nat.one_pos

section
variable (s : State) (j : Nat) (fixed : Bool)

theorem State.countFixed_form : ∃ re, s.countFixed j fixed = { s with regs := re } := by
  cases fixed
  exacts [⟨s.regs, rfl⟩, ⟨_, rfl⟩]

theorem State.fld_countFixed_self (hj : j < 6) : (s.countFixed j fixed).fld (F.dvtLinkFecCorrected j)
    = (s.fld (F.dvtLinkFecCorrected j) + (if fixed then 1 else 0)) % 2 ^ 32 := by
  cases fixed
  · exact (Nat.mod_eq_of_lt (s.fld_dvtLinkFecCorrected_lt hj)).symm
  · exact (State.fld_setFld_self ..).trans (Nat.mod_mod _ _)

theorem State.fld_countFixed_ne {g : Field} (hg : g.addr ≠ (F.dvtLinkFecCorrected j).addr) :
    (s.countFixed j fixed).fld g = s.fld g := by
  cases fixed
  exacts [rfl, State.fld_setFld_addr _ _ hg]

end

theorem State.serviceLinks_congr {s t : State} (h : ∀ k, k < 6 → t.fld (F.dvtLinkStatusState k) = s.fld (F.dvtLinkStatusState k)) :
    t.serviceLinks = s.serviceLinks :=
  List.filter_congr fun k hk => by rw [h k (List.mem_range.1 hk)]

theorem State.inPlain_congr_fld {s t : State} (h : ∀ g : Field, g.addr = 0xB00000 → t.fld g = s.fld g) : t.inPlain = s.inPlain := by
  unfold State.inPlain State.flag
  rw [h F.dvtPlainFormed rfl, h F.dvtPlainPlainSize rfl]

theorem State.serviceLinks_countFixed (s : State) (j : Nat) (fixed : Bool) :
    (s.countFixed j fixed).serviceLinks = s.serviceLinks :=
  State.serviceLinks_congr fun k _ => s.fld_countFixed_ne j fixed (by
    simp only [F.dvtLinkStatusState, F.dvtLinkFecCorrected]; omega)

theorem State.inPlain_countFixed (s : State) (j : Nat) (fixed : Bool) : (s.countFixed j fixed).inPlain = s.inPlain :=
  State.inPlain_congr_fld fun g hg => s.fld_countFixed_ne j fixed (by rw [hg]; simp only [F.dvtLinkFecCorrected]; omega)

theorem State.voteKerf_countFixed (s : State) (j : Nat) (fixed : Bool) : (s.countFixed j fixed).voteKerf = s.voteKerf := by
  have hd : (s.countFixed j fixed).diameter = s.diameter := by
    unfold State.diameter
    rw [s.inPlain_countFixed, s.fld_countFixed_ne j fixed (by simp only [F.dvtPlainDiameter, F.dvtLinkFecCorrected]; omega)]
  obtain ⟨re, e⟩ := s.countFixed_form j fixed
  have hk : (s.countFixed j fixed).swapKerf = s.swapKerf := by
    rw [e]
    rfl
  rw [State.voteKerf, hd, hk, State.voteKerf]

/-! ### A seal is judged (R191) -/

/-- What judging a neighbour leaves: of the run all but its halt and its notices, the partitions, the Plain and the benches;
of link j all but its notices, its mark and the seals that wait; of the Dovetail registers all but the Plain's. A halt
and a mark stay. -/
structure State.Judged (s t : State) (j : Nat) : Prop where
  halts : s.Halts t
  halt : s.run.halt.isSome = true → t.run.halt.isSome = true
  link : ∃ ns d es, t.link j = { s.link j with notices := ns, diverged := d, early := es } ∧ ((s.link j).diverged = true → d = true)
  regs : ∀ g : Field, Dovetail g.addr → g.addr ≠ 0xB00000 → t.fld g = s.fld g

theorem State.Judged.refl (s : State) (j : Nat) : s.Judged s j :=
  ⟨⟨⟨_, _, rfl⟩, rfl, rfl, rfl⟩, id, ⟨_, _, _, rfl, id⟩, fun _ _ _ => rfl⟩

section
variable (s : State) (j : Nat)

theorem State.differs_link : ∃ ns, (s.differs j).link j = { s.link j with diverged := true, notices := ns } := by
  obtain ⟨ns, e⟩ := (State.Signals.refl.raiseHalt (s := s.setLink j { s.link j with diverged := true })
    (x := s.peerTrouble 0x04 0 j)).links j
  rw [State.setLink_self] at e
  exact ⟨_, e⟩

theorem State.judged_differs : s.Judged (s.differs j) j := by
  obtain ⟨ns, e⟩ := s.differs_link j
  refine ⟨(s.setLink j { s.link j with diverged := true }).halts_raiseHalt _, fun h => ?_, ⟨ns, true, _, e, fun _ => rfl⟩,
    (State.Signals.refl.raiseHalt (s := s.setLink j { s.link j with diverged := true }) (x := s.peerTrouble 0x04 0 j)).regs⟩
  exact State.halt_of_has (State.has_halt h).differs

theorem State.differs_diverged : ((s.differs j).link j).diverged = true := by
  obtain ⟨ns, e⟩ := s.differs_link j
  rw [e]

/-- A neighbour that differs raises a halt where work is scheduled (19_recovery.md R493). -/
theorem State.differs_halt (h : s.scheduled = true) : (s.differs j).run.halt.isSome = true :=
  State.raiseHalt_halt _ _ ((Bool.and_true _).trans h)

end

/-- A seal flit is compared with the member's own seal, or waits for it. -/
def State.judgeSeal (s : State) (j : Nat) (f : SealFlit) : State :=
  match s.sealOf f.kerf.toNat with
  | some own => s.compareSeal j own f
  | none =>
    if s.scheduled ∧ s.run.kerfs ≤ f.kerf.toNat then s.setLink j { s.link j with early := (s.link j).early ++ [f] } else s

section
variable {s : State} {j : Nat} {f : SealFlit}

theorem State.judgeSeal_equal (h : s.sealOf f.kerf.toNat = some f.sealVal.toNat) : s.judgeSeal j f = s := by
  rw [State.judgeSeal, h]
  exact if_pos rfl

theorem State.judgeSeal_differs {own : Nat} (h : s.sealOf f.kerf.toNat = some own) (hne : f.sealVal.toNat ≠ own) :
    s.judgeSeal j f = s.differs j := by
  rw [State.judgeSeal, h]
  exact if_neg hne

theorem State.judgeSeal_early (h : s.sealOf f.kerf.toNat = none) (hs : s.scheduled = true) (hk : s.run.kerfs ≤ f.kerf.toNat) :
    s.judgeSeal j f = s.setLink j { s.link j with early := (s.link j).early ++ [f] } := by
  rw [State.judgeSeal, h]
  exact if_pos ⟨hs, hk⟩

theorem State.judgeSeal_unjudged (h : s.sealOf f.kerf.toNat = none) : (s.judgeSeal j f).run = s.run := by
  rw [State.judgeSeal, h]
  dsimp only
  split <;> rfl

theorem State.judged_judgeSeal : s.Judged (s.judgeSeal j f) j := by
  unfold State.judgeSeal State.compareSeal
  split
  · split
    · exact .refl s j
    · exact s.judged_differs j
  · split
    · exact ⟨⟨⟨_, _, rfl⟩, rfl, rfl, rfl⟩, id, ⟨_, _, _, State.setLink_self .., id⟩, fun _ _ _ => rfl⟩
    · exact .refl s j

end

/-! ### A seal is noted -/

/-- What a link notes of a seal flit (R171, R181). -/
def Link.noteSeal (l : Link) (f : SealFlit) : Link := { l with
  seals := (f.kerf.toNat :: l.seals).take (2 * keptMarks), rHere := f.arrival - 256, rPeer := f.rPeer
  coeffReq := if f.coeff = 0 then l.coeffReq else l.coeffReq ++ [(f.kerf.toNat + 1, f.coeff)] }

/-- A seal flit is noted, and where a run is scheduled its running values are merged. -/
def State.noteSeal (s : State) (j : Nat) (f : SealFlit) : State :=
  let s := s.setLink j ((s.link j).noteSeal f)
  if s.scheduled then s.mergeSeal f else s

section
variable (s : State) (f : SealFlit)

/-- The running stretch of the flit's period is taken in (R196). -/
def State.mergeStretch : State :=
  if f.kerf.toNat / 32 = s.run.kerfs / 32 then
    { s with plain := { s.plain with stretchMax := max s.plain.stretchMax f.stretch.toNat } }
  else s

/-- The flit's vote is taken in (R141). -/
def State.mergeVote : State :=
  match s.run.swap, s.voteKerf with
  | some w, some k =>
    if f.vote.map BitVec.toNat ≠ s.swapVote ∧ k ≤ f.kerf.toNat then
      { s with run := { s.run with swap := some { w with no := true } } }
    else s
  | _, _ => s

/-- The flit's stop count is taken in (R133). -/
def State.mergeStop : State :=
  match f.stopCount with
  | none => s
  | some n => if n.toNat < s.run.stopCount.getD (2 ^ 64 - 1) then { s with run := { s.run with stopCount := some n.toNat } } else s

theorem State.mergeSeal_eq : s.mergeSeal f = ((s.mergeStretch f).mergeVote f).mergeStop f := rfl

theorem State.mergeStretch_form : ∃ st, s.mergeStretch f = { s with plain := { s.plain with stretchMax := st } }
    ∧ (f.kerf.toNat / 32 = s.run.kerfs / 32 → st = max s.plain.stretchMax f.stretch.toNat) := by
  unfold State.mergeStretch
  split
  · exact ⟨_, rfl, fun _ => rfl⟩
  · next h => exact ⟨_, rfl, fun h' => absurd h' h⟩

/-- A vote for another successor, at or after the kerf at which the vote closes, is a no. -/
theorem State.mergeVote_form : ∃ sw, s.mergeVote f = { s with run := { s.run with swap := sw } }
    ∧ ∀ w k, s.run.swap = some w → s.voteKerf = some k → k ≤ f.kerf.toNat → f.vote.map BitVec.toNat ≠ s.swapVote →
        sw.map Swap.no = some true := by
  unfold State.mergeVote
  split
  · next w k hw hk =>
    split
    · exact ⟨_, rfl, fun _ _ _ _ _ _ => rfl⟩
    · next h =>
      refine ⟨s.run.swap, rfl, fun w' k' _ hk' hle hne => absurd ⟨hne, ?_⟩ h⟩
      rwa [Option.some.inj (hk.symm.trans hk')]
  · next h => exact ⟨s.run.swap, rfl, fun w k hw hk => absurd hk (h w k hw)⟩

theorem State.mergeStop_form : ∃ n, s.mergeStop f = { s with run := { s.run with stopCount := n } } := by
  unfold State.mergeStop
  split
  · exact ⟨_, rfl⟩
  · split <;> exact ⟨_, rfl⟩

theorem State.mergeSeal_form : ∃ st sw n,
    s.mergeSeal f = { s with plain := { s.plain with stretchMax := st }, run := { s.run with swap := sw, stopCount := n } }
      ∧ (f.kerf.toNat / 32 = s.run.kerfs / 32 → st = max s.plain.stretchMax f.stretch.toNat)
      ∧ ∀ w k, s.run.swap = some w → s.voteKerf = some k → k ≤ f.kerf.toNat → f.vote.map BitVec.toNat ≠ s.swapVote →
          sw.map Swap.no = some true := by
  obtain ⟨st, e1, hst⟩ := s.mergeStretch_form f
  obtain ⟨sw, e2, hsw⟩ := State.mergeVote_form { s with plain := { s.plain with stretchMax := st } } f
  obtain ⟨n, e3⟩ := State.mergeStop_form
    { s with plain := { s.plain with stretchMax := st }, run := { s.run with swap := sw } } f
  refine ⟨st, sw, n, ?_, hst, hsw⟩
  rw [State.mergeSeal_eq, e1, e2, e3]

end

end Sys2Proof.Machine
end

section
/-! PROOFS. SEAL_FLIT_RECEIVED (06_plain.md R171, R181, R182, R191). -/

namespace Sys2Proof.Machine
open Sys2Proof.Say

section
variable (s : State) (j : Nat) (f : SealFlit)

theorem State.noteSeal_form : ∃ st sw n,
    s.noteSeal j f = { s.setLink j ((s.link j).noteSeal f) with
      plain := { s.plain with stretchMax := st }, run := { s.run with swap := sw, stopCount := n } }
      ∧ (s.scheduled = true → f.kerf.toNat / 32 = s.run.kerfs / 32 → st = max s.plain.stretchMax f.stretch.toNat)
      ∧ ∀ w k, s.scheduled = true → s.run.swap = some w → s.voteKerf = some k → k ≤ f.kerf.toNat →
          f.vote.map BitVec.toNat ≠ s.swapVote → sw.map Swap.no = some true := by
  by_cases h : s.scheduled = true
  · obtain ⟨st, sw, n, e, hst, hsw⟩ := (s.setLink j ((s.link j).noteSeal f)).mergeSeal_form f
    exact ⟨st, sw, n, (if_pos h).trans e, fun _ => hst, fun w k _ => hsw w k⟩
  · exact ⟨_, _, _, if_neg h, fun h' => absurd h' h, fun _ _ h' => absurd h' h⟩

/-- A seal flit is noted and judged. -/
def State.takeSeal : State := (s.noteSeal j f).judgeSeal j f

/-- What taking a seal flit of link j leaves, and what it takes over. -/
structure State.SealTaken (t : State) : Prop where
  link : ∃ ns d es, t.link j = { (s.link j).noteSeal f with notices := ns, diverged := d, early := es }
    ∧ ((s.link j).diverged = true → d = true)
  phase : t.run.phase = s.run.phase
  benches : t.benches = s.benches
  plain : ∃ st, t.plain = { s.plain with stretchMax := st }
    ∧ (s.scheduled = true → f.kerf.toNat / 32 = s.run.kerfs / 32 → st = max s.plain.stretchMax f.stretch.toNat)
  swap : ∀ w k, s.scheduled = true → s.run.swap = some w → s.voteKerf = some k → k ≤ f.kerf.toNat →
    f.vote.map BitVec.toNat ≠ s.swapVote → t.run.swap.map Swap.no = some true
  halt : s.run.halt.isSome = true → t.run.halt.isSome = true
  regs : ∀ g : Field, Dovetail g.addr → g.addr ≠ 0xB00000 → t.fld g = s.fld g

theorem State.sealTaken_takeSeal : s.SealTaken j f (s.takeSeal j f) := by
  obtain ⟨st, sw, n, e, hst, hsw⟩ := s.noteSeal_form j f
  have hj := State.judged_judgeSeal (s := s.noteSeal j f) (j := j) (f := f)
  unfold State.takeSeal
  generalize (s.noteSeal j f).judgeSeal j f = t at hj ⊢
  rw [e] at hj
  obtain ⟨⟨⟨h, ns, hrun⟩, -, hplain, hbenches⟩, hhalt, ⟨ns', d, es, hlink, hd⟩, hregs⟩ := hj
  have hself : State.link { s.setLink j ((s.link j).noteSeal f) with
      plain := { s.plain with stretchMax := st }, run := { s.run with swap := sw, stopCount := n } } j
      = (s.link j).noteSeal f := State.setLink_self ..
  rw [hself] at hlink hd
  refine ⟨⟨ns', d, es, hlink, hd⟩, by rw [hrun], hbenches, ⟨st, hplain, hst⟩, fun w k hs hw hk hle hne => ?_, hhalt, hregs⟩
  rw [hrun]
  exact hsw w k hs hw hk hle hne

variable {s j f}

theorem State.sealOf_noteSeal (k : Nat) : (s.noteSeal j f).sealOf k = s.sealOf k := by
  obtain ⟨st, sw, n, e, -⟩ := s.noteSeal_form j f
  rw [e]
  rfl

theorem State.scheduled_noteSeal : (s.noteSeal j f).scheduled = s.scheduled := by
  obtain ⟨st, sw, n, e, -⟩ := s.noteSeal_form j f
  rw [e]
  rfl

theorem State.link_noteSeal : (s.noteSeal j f).link j = (s.link j).noteSeal f := by
  obtain ⟨st, sw, n, e, -⟩ := s.noteSeal_form j f
  rw [e]
  exact State.setLink_self ..

theorem State.halt_noteSeal : (s.noteSeal j f).run.halt = s.run.halt ∧ (s.noteSeal j f).run.kerfs = s.run.kerfs := by
  obtain ⟨st, sw, n, e, -⟩ := s.noteSeal_form j f
  rw [e]
  exact ⟨rfl, rfl⟩

/-- A seal equal to the member's own raises nothing. -/
theorem State.takeSeal_equal (h : s.sealOf f.kerf.toNat = some f.sealVal.toNat) :
    (s.takeSeal j f).run.halt = s.run.halt ∧ ((s.takeSeal j f).link j).diverged = (s.link j).diverged := by
  rw [State.takeSeal, State.judgeSeal_equal ((State.sealOf_noteSeal _).trans h), State.link_noteSeal]
  exact ⟨State.halt_noteSeal.1, rfl⟩

/-- One that differs raises DIVERGE. -/
theorem State.takeSeal_differs {own : Nat} (h : s.sealOf f.kerf.toNat = some own) (hne : f.sealVal.toNat ≠ own) :
    ((s.takeSeal j f).link j).diverged = true ∧ (s.scheduled = true → (s.takeSeal j f).run.halt.isSome = true) := by
  rw [State.takeSeal, State.judgeSeal_differs ((State.sealOf_noteSeal _).trans h) hne]
  exact ⟨State.differs_diverged .., fun hs => State.differs_halt _ _ (State.scheduled_noteSeal.trans hs)⟩

/-- One that comes before the member's own waits. -/
theorem State.takeSeal_unjudged (h : s.sealOf f.kerf.toNat = none) : (s.takeSeal j f).run.halt = s.run.halt
    ∧ (s.scheduled = true → s.run.kerfs ≤ f.kerf.toNat → ((s.takeSeal j f).link j).early = (s.link j).early ++ [f]) := by
  have hn : (s.noteSeal j f).sealOf f.kerf.toNat = none := (State.sealOf_noteSeal _).trans h
  refine ⟨(congrArg Run.halt (State.judgeSeal_unjudged hn)).trans State.halt_noteSeal.1, fun hs hk => ?_⟩
  have hk' : (s.noteSeal j f).run.kerfs ≤ f.kerf.toNat := State.halt_noteSeal.2.trans_le hk
  rw [State.takeSeal, State.judgeSeal_early hn (State.scheduled_noteSeal.trans hs) hk', State.setLink_self, State.link_noteSeal]
  rfl

end

theorem execSealFlitReceived_takeSeal {s : State} {j : LinkId} (hl : s.serviceLinks.contains (j : Nat) = true)
    (hi : s.inPlain = true) (f : SealFlit) :
    exec (.sealFlitReceived j f) s = .next ((if ((s.countFixed j f.fixed).link j).seals.isEmpty then s.countFixed j f.fixed
      else (s.countFixed j f.fixed).takeOffset j f).takeSeal j f) := by
  refine congrArg Host.Outcome.next ((if_pos ⟨?_, ?_⟩).trans rfl)
  · rw [State.serviceLinks_countFixed, hl]
  · rw [State.inPlain_countFixed, hi]

/-! ### The first seal of a link -/

section
variable {s : State} {j : LinkId} (hl : s.serviceLinks.contains (j : Nat) = true) (hi : s.inPlain = true) (f : SealFlit)
include hl hi

theorem sealFlitReceived_first_does (hseals : (s.link j).seals = []) : Does (.sealFlitReceived j f) s (fun t =>
    (t.link j).seals = [f.kerf.toNat]
      ∧ t.fld (F.dvtLinkFecCorrected j) = (s.fld (F.dvtLinkFecCorrected j) + (if f.fixed then 1 else 0)) % 2 ^ 32
      ∧ (∀ w k, s.scheduled = true → s.run.swap = some w → s.voteKerf = some k → k ≤ f.kerf.toNat →
          f.vote.map BitVec.toNat ≠ s.swapVote → t.run.swap.map Swap.no = some true)
      ∧ (t.link j).rHere = f.arrival - 256 ∧ (t.link j).rPeer = f.rPeer
      ∧ (f.coeff ≠ 0 → (t.link j).coeffReq = (s.link j).coeffReq ++ [(f.kerf.toNat + 1, f.coeff)])
      ∧ (t.link j).coeff = (s.link j).coeff
      ∧ (s.scheduled = true → f.kerf.toNat / 32 = s.run.kerfs / 32 → t.plain.stretchMax = max s.plain.stretchMax f.stretch.toNat)
      ∧ t.run.phase = s.run.phase ∧ t.benches = s.benches
      ∧ (∀ own, s.sealOf f.kerf.toNat = some own →
          (f.sealVal.toNat = own → t.run.halt = s.run.halt ∧ (t.link j).diverged = (s.link j).diverged)
          ∧ (f.sealVal.toNat ≠ own → (t.link j).diverged = true ∧ (s.scheduled = true → t.run.halt.isSome = true)))
      ∧ (s.sealOf f.kerf.toNat = none → t.run.halt = s.run.halt
          ∧ (s.scheduled = true → s.run.kerfs ≤ f.kerf.toNat → (t.link j).early = (s.link j).early ++ [f]))) := by
  have hex := execSealFlitReceived_takeSeal hl hi f
  have hfec := s.fld_countFixed_self j f.fixed j.isLt
  obtain ⟨re, e⟩ := s.countFixed_form j f.fixed
  have hvote := s.voteKerf_countFixed j f.fixed
  rw [e] at hex hfec hvote
  have hempty : (State.link { s with regs := re } j).seals.isEmpty = true := List.isEmpty_iff.2 hseals
  rw [if_pos hempty] at hex
  refine ⟨_, hex, ?_⟩
  obtain ⟨⟨ns, d, es, hlink, -⟩, hphase, hbenches, ⟨st, hplain, hst⟩, hswap, -, hregs⟩ :=
    State.sealTaken_takeSeal { s with regs := re } j f
  have hequal := State.takeSeal_equal (s := { s with regs := re }) (j := j) (f := f)
  have hdiffers (own) := State.takeSeal_differs (s := { s with regs := re }) (j := j) (f := f) (own := own)
  have hwait := State.takeSeal_unjudged (s := { s with regs := re }) (j := j) (f := f)
  generalize State.takeSeal { s with regs := re } j f = t at *
  have hcoeff : f.coeff ≠ 0 → (t.link j).coeffReq = (s.link j).coeffReq ++ [(f.kerf.toNat + 1, f.coeff)] := fun hf => by
    rw [hlink]
    exact if_neg hf
  rw [hvote] at hswap
  refine ⟨?_, ?_, hswap, ?_, ?_, hcoeff, ?_, ?_, hphase, hbenches, fun own ho => ⟨fun heq => hequal (heq ▸ ho), hdiffers own ho⟩, hwait⟩
  · rw [hlink]
    exact congrArg (fun l => (f.kerf.toNat :: l).take (2 * keptMarks)) hseals
  · exact (hregs _ (dovetail_link (o := 8) j.isLt (by omega)) (by simp only [F.dvtLinkFecCorrected]; omega)).trans hfec
  · rw [hlink]
    rfl
  · rw [hlink]
    rfl
  · rw [hlink]
    rfl
  · rw [hplain]
    exact hst

/-! ### The later ones -/

end

/-! ### The later ones -/

section
variable (s : State) (j : LinkId) (f : SealFlit)

/-- An offset from the parent is what the tick phase is slewed by, and the accumulated offset grows by it (R182). -/
def State.slewBy (theta : Int) : State :=
  let off := f.offset + theta
  if s.plain.parent = some (j : Nat) then
    ({ s with plain := { s.plain with slew := theta, offset := off } }).setFld F.dbgAlignOffset (unsigned 32 off)
  else s

theorem State.setFld_slewBy_form (g : Field) (n : Nat) (theta : Int) : ∃ re sl off,
    (s.setFld g n).slewBy j f theta = { s with regs := re, plain := { s.plain with slew := sl, offset := off } }
      ∧ (s.plain.parent = some (j : Nat) → sl = theta ∧ off = f.offset + theta) := by
  by_cases h : s.plain.parent = some (j : Nat)
  · exact ⟨_, _, _, if_pos h, fun _ => ⟨rfl, rfl⟩⟩
  · exact ⟨_, _, _, if_neg h, fun h' => absurd h' h⟩

theorem State.fld_slewBy (theta : Int) {g : Field} (hg : g.addr ≠ F.dbgAlignOffset.addr) :
    (s.slewBy j f theta).fld g = s.fld g := by
  unfold State.slewBy
  dsimp only
  split
  · exact State.fld_setFld_addr _ _ hg
  · rfl

/-- The peer's offset is stored, and taken from the parent (R181, R182). -/
def State.storeOffset (theta : Int) : State := (s.setFld (F.dvtLinkOffsetTheta j) (unsigned 32 theta)).slewBy j f theta

/-- Beyond 2 ticks the offset raises DIVERGE. -/
theorem State.takeOffset_eq : s.takeOffset j f =
    if 128 < ((s.link j).rHere - f.rPeer) / 2 ∨ ((s.link j).rHere - f.rPeer) / 2 < -128
    then (s.storeOffset j f (((s.link j).rHere - f.rPeer) / 2)).differs j
    else s.storeOffset j f (((s.link j).rHere - f.rPeer) / 2) := rfl

theorem unsigned_lt (w : Nat) (v : Int) : unsigned w v < 2 ^ w := by
  have hp : (0 : Int) < 2 ^ w := by positivity
  have h := Int.emod_lt_of_pos v hp
  have h0 := Int.emod_nonneg v hp.ne'
  unfold unsigned
  zify
  rwa [Int.toNat_of_nonneg h0]

theorem State.fld_storeOffset (theta : Int) :
    (s.storeOffset j f theta).fld (F.dvtLinkOffsetTheta j) = unsigned 32 theta := by
  have haddr : (F.dvtLinkOffsetTheta j).addr ≠ F.dbgAlignOffset.addr := by
    simp only [F.dvtLinkOffsetTheta, F.dbgAlignOffset]
    omega
  rw [State.storeOffset, State.fld_slewBy _ _ _ _ haddr, State.fld_setFld_self]
  exact Nat.mod_eq_of_lt (unsigned_lt 32 theta)

/-- What taking an offset leaves and stores. -/
structure State.OffsetTaken (theta : Int) (t : State) : Prop where
  stored : t.fld (F.dvtLinkOffsetTheta j) = unsigned 32 theta
  benches : t.benches = s.benches
  slewed : s.plain.parent = some (j : Nat) → t.plain.slew = theta ∧ t.plain.offset = f.offset + theta
  diverges : 128 < theta ∨ theta < -128 → (t.link j).diverged = true ∧ (s.scheduled = true → t.run.halt.isSome = true)

theorem State.offsetTaken_takeOffset : s.OffsetTaken j f (((s.link j).rHere - f.rPeer) / 2) (s.takeOffset j f) := by
  rw [State.takeOffset_eq]
  generalize ((s.link j).rHere - f.rPeer) / 2 = theta
  have hfld := s.fld_storeOffset j f theta
  obtain ⟨re, sl, off, e, hslew⟩ : ∃ re sl off, s.storeOffset j f theta = _ ∧ _ := s.setFld_slewBy_form j f _ _ theta
  rw [e] at hfld ⊢
  split
  · obtain ⟨⟨-, -, hplain, hbenches⟩, -, -, hregs⟩ :=
      State.judged_differs { s with regs := re, plain := { s.plain with slew := sl, offset := off } } j
    have hdiv := State.differs_diverged { s with regs := re, plain := { s.plain with slew := sl, offset := off } } j
    have hhalt := State.differs_halt { s with regs := re, plain := { s.plain with slew := sl, offset := off } } j
    refine ⟨(hregs _ (dovetail_link (o := 16) j.isLt (by omega)) ?_).trans hfld, hbenches, fun h => ?_, fun _ => ⟨hdiv, hhalt⟩⟩
    · simp only [F.dvtLinkOffsetTheta]
      omega
    · rw [hplain]
      exact hslew h
  · next h => exact ⟨hfld, rfl, hslew, fun h' => absurd h' h⟩

end

section
variable {s : State} {j : LinkId} (hl : s.serviceLinks.contains (j : Nat) = true) (hi : s.inPlain = true) (f : SealFlit)
include hl hi

theorem sealFlitReceived_later_does (hseals : (s.link j).seals ≠ []) : Does (.sealFlitReceived j f) s (fun t =>
    let theta := ((s.link j).rHere - f.rPeer) / 2
    t.fld (F.dvtLinkOffsetTheta j) = unsigned 32 theta ∧ f.kerf.toNat ∈ (t.link j).seals
      ∧ (s.plain.parent = some (j : Nat) → t.plain.slew = theta ∧ t.plain.offset = f.offset + theta)
      ∧ ((128 < theta ∨ theta < -128) → (t.link j).diverged = true ∧ (s.scheduled = true → t.run.halt.isSome = true))
      ∧ t.benches = s.benches) := by
  have hex := execSealFlitReceived_takeSeal hl hi f
  obtain ⟨re, e⟩ := s.countFixed_form j f.fixed
  rw [e] at hex
  have hempty : (State.link { s with regs := re } j).seals.isEmpty ≠ true := fun h => hseals (List.isEmpty_iff.1 h)
  rw [if_neg hempty] at hex
  refine ⟨_, hex, ?_⟩
  have hoff : s.OffsetTaken j f (((s.link j).rHere - f.rPeer) / 2) (State.takeOffset { s with regs := re } j f) :=
    let ⟨h1, h2, h3, h4⟩ := State.offsetTaken_takeOffset { s with regs := re } j f
    ⟨h1, h2, h3, h4⟩
  generalize State.takeOffset { s with regs := re } j f = u at hoff ⊢
  generalize ((s.link j).rHere - f.rPeer) / 2 = theta at hoff ⊢
  obtain ⟨hstored, hbenches, hslew, hdiv⟩ := hoff
  obtain ⟨⟨ns, d, es, hlink, hd⟩, -, hbenches', ⟨st, hplain, -⟩, -, hhalt, hregs⟩ := u.sealTaken_takeSeal j f
  refine ⟨(hregs _ (dovetail_link (o := 16) j.isLt (by omega)) ?_).trans hstored, ?_, fun h => ?_, fun h => ?_,
    hbenches'.trans hbenches⟩
  · simp only [F.dvtLinkOffsetTheta]
    omega
  · rw [hlink]
    exact List.mem_cons_self
  · rw [hplain]
    exact hslew h
  · rw [hlink]
    exact ⟨hd (hdiv h).1, fun hs => hhalt ((hdiv h).2 hs)⟩

end

end Sys2Proof.Machine
end

section
/-! PROOFS. HALT_NOTICE_RECEIVED (06_plain.md R192) and CHECKPOINT_NOTICE_RECEIVED (20_checkpoint.md R511). -/

namespace Sys2Proof.Machine
open Sys2Proof.Say

theorem State.serviceLinks_of_signals {s t : State} (h : s.Signals t) : t.serviceLinks = s.serviceLinks :=
  State.serviceLinks_congr fun k hk => h.regs _ (dovetail_linkState hk) (plain_addr_ne k).symm

/-- Every link in service but j takes part in a forwarding from j. -/
theorem State.mem_others {s : State} {j k : Nat} (hk : k ∈ s.serviceLinks) (hne : k ≠ j) :
    k ∈ s.serviceLinks.filter (· != j) :=
  List.mem_filter.2 ⟨hk, bne_iff_ne.2 hne⟩

/-! ### A halt kerf is adopted -/

section
variable (s : State) (x : Halt)

/-- A halt with an earlier kerf than the one that is set is adopted. -/
theorem State.setHalt_kerf_earlier (h : ∀ old, s.run.halt = some old → x.kerf < old.kerf) :
    (s.setHalt x).run.halt.map Halt.kerf = some x.kerf := by
  have hf : (s.setFlag F.dvtPlainHaltPending true).run = s.run := rfl
  unfold State.setHalt
  generalize s.setFlag F.dvtPlainHaltPending true = u at hf
  dsimp only
  split
  · rfl
  · next old ho =>
    rw [if_pos (h old (hf ▸ ho))]
    rfl

/-- The earliest halt kerf stays. -/
theorem State.setHalt_kerf_later {old : Halt} (ho : s.run.halt = some old) (hle : old.kerf ≤ x.kerf) :
    (s.setHalt x).run.halt.map Halt.kerf = some old.kerf := by
  have hf : (s.setFlag F.dvtPlainHaltPending true).run = s.run := rfl
  unfold State.setHalt
  generalize s.setFlag F.dvtPlainHaltPending true = u at hf
  dsimp only
  rw [hf, ho]
  dsimp only
  rw [if_neg (Nat.not_lt.2 hle)]
  rfl

end

/-- A halt notice of kerf k from link j is adopted and forwarded (R192). -/
def State.adoptHalt (s : State) (j k : Nat) : State :=
  let s := s.setHalt ⟨k, s.see ⟨0, 0, 0, .nothing, 0⟩, []⟩
  (s.notice (s.serviceLinks.filter (· != j)) 2 k).wake 4

section
variable (s : State) (j k : Nat)

theorem State.notice_wake_run (ls : List Nat) (aux v bit : Nat) : ((s.notice ls aux v).wake bit).run = s.run :=
  State.Has.wake (P := fun w => w.run = s.run) (State.Has.notice (P := fun w => w.run = s.run) (s := s) rfl)

theorem State.adoptHalt_run : (s.adoptHalt j k).run = (s.setHalt ⟨k, s.see ⟨0, 0, 0, .nothing, 0⟩, []⟩).run :=
  State.notice_wake_run ..

theorem State.adoptHalt_benches : (s.adoptHalt j k).benches = s.benches :=
  State.Has.wake (P := fun w => w.benches = _) (State.Has.notice (P := fun w => w.benches = _) (s.halts_setHalt _).2.2.2)

theorem State.adoptHalt_pending : (s.adoptHalt j k).flag F.dvtPlainHaltPending = true :=
  (State.Missed.wake (State.Missed.notice (j := 0) ⟨s.setHalt_pending _, rfl⟩)).1

theorem State.adoptHalt_noted {i : Nat} (hi : i ∈ s.serviceLinks) (hne : i ≠ j) :
    Noted s (s.adoptHalt j k) i 2 (k % 65536) := by
  have hu := State.Signals.refl.setHalt (s := s) (x := ⟨k, s.see ⟨0, 0, 0, .nothing, 0⟩, []⟩)
  have hm := State.mem_others (State.serviceLinks_of_signals hu ▸ hi) hne
  have hn := (s.setHalt ⟨k, s.see ⟨0, 0, 0, .nothing, 0⟩, []⟩).noted_notice _ 2 k hm
  intro q hq
  rw [← s.flitDue_setHalt]
  exact (State.Signals.refl.wake.noted hn) q hq

end

section
variable {s : State} {j : LinkId} (hl : s.serviceLinks.contains (j : Nat) = true) (hi : s.inPlain = true) {v : BitVec 16}
include hl hi

theorem exec_haltNoticeReceived_new (hs : s.scheduled = true) (hn : s.run.noticed.contains (2, s.kerfOf16 v.toNat) = false) :
    exec (.haltNoticeReceived j v false) s = .next (s.adoptHalt j (s.kerfOf16 v.toNat)) :=
  congrArg Host.Outcome.next ((if_pos ⟨hl, hi, hs⟩).trans (if_pos (Bool.not_eq_true _ ▸ hn)))

theorem haltNoticeReceived_earlier_does (hs : s.scheduled = true)
    (hn : s.run.noticed.contains (2, s.kerfOf16 v.toNat) = false)
    (hh : ∀ h, s.run.halt = some h → s.kerfOf16 v.toNat < h.kerf) : Does (.haltNoticeReceived j v false) s (fun t =>
      t.run.halt.map Halt.kerf = some (s.kerfOf16 v.toNat) ∧ t.flag F.dvtPlainHaltPending = true
        ∧ (∀ k ∈ s.serviceLinks, k ≠ (j : Nat) → Noted s t k 2 (s.kerfOf16 v.toNat % 65536)) ∧ t.benches = s.benches) := by
  refine ⟨_, exec_haltNoticeReceived_new hl hi hs hn, ?_, s.adoptHalt_pending .., fun k => s.adoptHalt_noted _ _,
    s.adoptHalt_benches ..⟩
  rw [State.adoptHalt_run]
  exact s.setHalt_kerf_earlier _ hh

theorem haltNoticeReceived_later_does {h : Halt} (hs : s.scheduled = true)
    (hn : s.run.noticed.contains (2, s.kerfOf16 v.toNat) = false) (hh : s.run.halt = some h)
    (hle : h.kerf ≤ s.kerfOf16 v.toNat) : Does (.haltNoticeReceived j v false) s (fun t =>
      t.run.halt.map Halt.kerf = some h.kerf
        ∧ (∀ k ∈ s.serviceLinks, k ≠ (j : Nat) → Noted s t k 2 (s.kerfOf16 v.toNat % 65536)) ∧ t.benches = s.benches) := by
  refine ⟨_, exec_haltNoticeReceived_new hl hi hs hn, ?_, fun k => s.adoptHalt_noted _ _, s.adoptHalt_benches ..⟩
  rw [State.adoptHalt_run]
  exact s.setHalt_kerf_later _ hh hle

omit hl hi in
theorem haltNoticeReceived_known_does (hn : s.run.noticed.contains (2, s.kerfOf16 v.toNat) = true) :
    Does (.haltNoticeReceived j v false) s (fun t => t = s) := by
  refine ⟨_, rfl, ?_⟩
  by_cases h : s.serviceLinks.contains (j : Nat) = true ∧ s.inPlain = true ∧ s.scheduled = true
  · exact (if_pos h).trans (if_neg (not_not_intro hn))
  · exact if_neg h

end

/-! ### A stop kerf is adopted -/

/-- A checkpoint notice of kerf k from link j is noted and forwarded (R511). -/
def State.passCheckpoint (s : State) (j k : Nat) : State :=
  let s := { s with run := { s.run with noticed := (3, k) :: s.run.noticed } }
  s.notice (s.serviceLinks.filter (· != j)) 3 k

/-- What a pending TAKE makes of it (R512). -/
def State.adoptStop (s : State) (j k : Nat) : State :=
  match s.run.take with
  | some t =>
    if t.trigger ≠ 0 ∨ t.stopped.isSome then s.raiseHalt (s.peerTrouble 0x04 0 j)
    else { s with run := { s.run with take := some { t with stopKerf := some ((t.stopKerf.map (min k)).getD k) } } }
  | none => s.raiseHalt (s.peerTrouble 0x04 0 j)

section
variable (s : State) (j k : Nat)

theorem State.passCheckpoint_form : ∃ ls os,
    s.passCheckpoint j k = { s with run := { s.run with noticed := (3, k) :: s.run.noticed }, links := ls, out := os } :=
  (State.tells_notice ..).1

theorem State.passCheckpoint_noted {i : Nat} (hi : i ∈ s.serviceLinks) (hne : i ≠ j) :
    Noted s (s.passCheckpoint j k) i 3 (k % 65536) :=
  State.noted_notice { s with run := { s.run with noticed := (3, k) :: s.run.noticed } } _ 3 k (State.mem_others hi hne)

end

section
variable {s : State} {j : LinkId} (hl : s.serviceLinks.contains (j : Nat) = true) (hi : s.inPlain = true) {v : BitVec 16}
include hl hi

theorem exec_checkpointNoticeReceived_new (hs : s.scheduled = true)
    (hn : s.run.noticed.contains (3, s.kerfOf16 v.toNat) = false) : exec (.checkpointNoticeReceived j v false) s
      = .next ((s.passCheckpoint j (s.kerfOf16 v.toNat)).adoptStop j (s.kerfOf16 v.toNat)) :=
  congrArg Host.Outcome.next (if_pos ⟨hl, hi, hs, Bool.not_eq_true _ ▸ hn⟩)

theorem checkpointNoticeReceived_take_does {k : Take} (hs : s.scheduled = true) (htake : s.run.take = some k)
    (htrigger : k.trigger = 0) (hstopped : k.stopped = none) (hn : s.run.noticed.contains (3, s.kerfOf16 v.toNat) = false)
    (hk : ∀ h, k.stopKerf = some h → s.kerfOf16 v.toNat < h) : Does (.checkpointNoticeReceived j v false) s (fun t =>
      t.run = { s.run with noticed := (3, s.kerfOf16 v.toNat) :: s.run.noticed, take := some { k with stopKerf := some (s.kerfOf16 v.toNat) } }
        ∧ (∀ l ∈ s.serviceLinks, l ≠ (j : Nat) → Noted s t l 3 (s.kerfOf16 v.toNat % 65536))
        ∧ { t with run := s.run, out := s.out, links := s.links } = s) := by
  refine ⟨_, exec_checkpointNoticeReceived_new hl hi hs hn, ?_⟩
  have hnoted (i) := s.passCheckpoint_noted (i := i) (j : Nat) (s.kerfOf16 v.toNat)
  obtain ⟨ls, os, e⟩ := s.passCheckpoint_form j (s.kerfOf16 v.toNat)
  rw [e] at hnoted ⊢
  have hstop : (k.stopKerf.map (min (s.kerfOf16 v.toNat))).getD (s.kerfOf16 v.toNat) = s.kerfOf16 v.toNat := by
    cases hks : k.stopKerf with
    | none => rfl
    | some h => exact Nat.min_eq_left (hk h hks).le
  have hno : ¬ (k.trigger ≠ 0 ∨ k.stopped.isSome = true) := by simp [htrigger, hstopped]
  unfold State.adoptStop
  dsimp only
  rw [htake]
  dsimp only
  rw [if_neg hno, hstop]
  exact ⟨rfl, fun i hi hne => hnoted i hi hne, rfl⟩

/-- Where no TAKE is pending a checkpoint notice raises a halt (R512). -/
theorem checkpointNoticeReceived_noTake_does (hs : s.scheduled = true)
    (hn : s.run.noticed.contains (3, s.kerfOf16 v.toNat) = false) (htake : s.run.take = none) :
    Does (.checkpointNoticeReceived j v false) s (fun t =>
      t.run.halt.isSome = true ∧ t.flag F.dvtPlainHaltPending = true
        ∧ ∀ l ∈ s.serviceLinks, l ≠ (j : Nat) → Noted s t l 3 (s.kerfOf16 v.toNat % 65536)) := by
  refine ⟨_, exec_checkpointNoticeReceived_new hl hi hs hn, ?_⟩
  have hnoted (i) := s.passCheckpoint_noted (i := i) (j : Nat) (s.kerfOf16 v.toNat)
  obtain ⟨ls, os, e⟩ := s.passCheckpoint_form j (s.kerfOf16 v.toNat)
  have hu : (s.passCheckpoint j (s.kerfOf16 v.toNat)).run.take = none
      ∧ (s.passCheckpoint j (s.kerfOf16 v.toNat)).scheduled = true := by
    rw [e]
    exact ⟨htake, hs⟩
  generalize s.passCheckpoint j (s.kerfOf16 v.toNat) = u at hnoted hu ⊢
  have htouch : u.touches (u.peerTrouble 0x04 0 j).scope = true := (Bool.and_true _).trans hu.2
  have hstop : u.adoptStop j (s.kerfOf16 v.toNat) = u.raiseHalt (u.peerTrouble 0x04 0 j) := by
    rw [State.adoptStop, hu.1]
  rw [hstop]
  exact ⟨State.raiseHalt_halt _ _ htouch, (State.raiseHalt_touching _ _ htouch (by simp [State.peerTrouble]) 0).1,
    fun i hi hne => State.Signals.refl.raiseHalt.noted (hnoted i hi hne)⟩

omit hl hi in
theorem checkpointNoticeReceived_known_does (hn : s.run.noticed.contains (3, s.kerfOf16 v.toNat) = true) :
    Does (.checkpointNoticeReceived j v false) s (fun t => t = s) :=
  ⟨_, rfl, if_neg fun ⟨_, _, _, h⟩ => h hn⟩

end

/-! ### Control flits count their corrected codewords (R175) -/

theorem State.countFixed_true (s : State) (j : Nat) :
    s.countFixed j true = (s.wrapAdd (F.dvtLinkFecCorrected j) 1).countFixed j false :=
  (if_pos rfl).trans (if_neg Bool.false_ne_true).symm

/-- What a start record does once its codeword is counted (R187). -/
def State.takeStart (s : State) (j : LinkId) (record : StartRec) : State :=
  if (s.run.phase = .round ∨ s.run.phase = .idle) ∧ s.inPlain ∧ s.serviceLinks.contains j
      ∧ record.member.toNat ≠ s.fld F.dvtPlainMemberIndex ∧ ¬ s.run.startRecs.contains record then
    let s := s.flood (s.serviceLinks.filter (· != (j : Nat))) FlitType.start (startBytes record)
    let s := { s with run := { s.run with
      startRecs := s.run.startRecs.filter (fun r => r.member != record.member) ++ [record] } }
    if s.run.phase = .round then s.judgeStart else s
  else s

theorem execStartRecord_takeStart (j : LinkId) (record : StartRec) (fixed : Bool) (s : State) :
    execStartRecord j record fixed s = .next ((s.countFixed j fixed).takeStart j record) := rfl

section
variable (j : LinkId) (s : State)

theorem execLossNoticeReceived_fixed v :
    execLossNoticeReceived j v true s = execLossNoticeReceived j v false (s.wrapAdd (F.dvtLinkFecCorrected j) 1) := by
  unfold execLossNoticeReceived
  rw [s.countFixed_true j]

theorem execHaltNoticeReceived_fixed v :
    execHaltNoticeReceived j v true s = execHaltNoticeReceived j v false (s.wrapAdd (F.dvtLinkFecCorrected j) 1) := by
  unfold execHaltNoticeReceived
  rw [s.countFixed_true j]

theorem execCheckpointNoticeReceived_fixed v :
    execCheckpointNoticeReceived j v true s = execCheckpointNoticeReceived j v false (s.wrapAdd (F.dvtLinkFecCorrected j) 1) := by
  unfold execCheckpointNoticeReceived
  rw [s.countFixed_true j]

theorem execLinkIdentity_fixed g m q :
    execLinkIdentity j g m q true s = execLinkIdentity j g m q false (s.wrapAdd (F.dvtLinkFecCorrected j) 1) := by
  unfold execLinkIdentity
  rw [s.countFixed_true j]

theorem execMusterRecord_fixed r :
    execMusterRecord j r true s = execMusterRecord j r false (s.wrapAdd (F.dvtLinkFecCorrected j) 1) := by
  unfold execMusterRecord
  rw [s.countFixed_true j]

theorem execStartRecord_fixed r :
    execStartRecord j r true s = execStartRecord j r false (s.wrapAdd (F.dvtLinkFecCorrected j) 1) := by
  rw [execStartRecord_takeStart, execStartRecord_takeStart, s.countFixed_true j]

theorem execHaltReport_fixed r :
    execHaltReport j r true s = execHaltReport j r false (s.wrapAdd (F.dvtLinkFecCorrected j) 1) := by
  unfold execHaltReport
  rw [s.countFixed_true j]

end

theorem controlFlit_corrected (s : State) (j : LinkId) :
    let u := s.wrapAdd (F.dvtLinkFecCorrected j) 1
    (∀ v, exec (.lossNoticeReceived j v true) s = exec (.lossNoticeReceived j v false) u)
      ∧ (∀ v, exec (.haltNoticeReceived j v true) s = exec (.haltNoticeReceived j v false) u)
      ∧ (∀ v, exec (.checkpointNoticeReceived j v true) s = exec (.checkpointNoticeReceived j v false) u)
      ∧ (∀ g m q, exec (.linkIdentity j g m q true) s = exec (.linkIdentity j g m q false) u)
      ∧ (∀ r, exec (.musterRecord j r true) s = exec (.musterRecord j r false) u)
      ∧ (∀ r, exec (.startRecord j r true) s = exec (.startRecord j r false) u)
      ∧ (∀ r, exec (.haltReport j r true) s = exec (.haltReport j r false) u) :=
  ⟨fun _ => execLossNoticeReceived_fixed .., fun _ => execHaltNoticeReceived_fixed ..,
    fun _ => execCheckpointNoticeReceived_fixed .., fun _ _ _ => execLinkIdentity_fixed .., fun _ => execMusterRecord_fixed ..,
    fun _ => execStartRecord_fixed .., fun _ => execHaltReport_fixed ..⟩

end Sys2Proof.Machine
end

section
/-! PROOFS. What control flits leave, and what is on its way (06_plain.md R170). -/

namespace Sys2Proof.Machine

/-- From s to t control flits alone have left, or wait on their links. -/
structure State.Sends (s t : State) : Prop where
  form : ∃ ls os, t = { s with links := ls, out := os }
  out : s.out <+: t.out
  links : ∀ k, ∃ ns cs, t.link k = { s.link k with notices := ns, control := (s.link k).control ++ cs }

namespace State.Sends
variable {s t u : State}

theorem refl : s.Sends s := ⟨⟨_, _, rfl⟩, List.prefix_refl _, fun _ => ⟨_, [], by rw [List.append_nil]⟩⟩

theorem trans (h : s.Sends t) (h' : t.Sends u) : s.Sends u := by
  refine ⟨?_, h.out.trans h'.out, fun k => ?_⟩
  · obtain ⟨ls, os, rfl⟩ := h.form
    obtain ⟨ls', os', rfl⟩ := h'.form
    exact ⟨ls', os', rfl⟩
  · obtain ⟨ns, cs, e⟩ := h.links k
    obtain ⟨ns', cs', e'⟩ := h'.links k
    exact ⟨ns', cs ++ cs', by rw [e', e, List.append_assoc]⟩

theorem run (h : s.Sends t) : t.run = s.run := by
  obtain ⟨ls, os, rfl⟩ := h.form
  rfl

theorem setLink {j : Nat} {l : Link} (h : ∃ ns cs, l = { s.link j with notices := ns, control := (s.link j).control ++ cs }) :
    s.Sends (s.setLink j l) := by
  refine ⟨⟨_, _, rfl⟩, List.prefix_refl _, fun k => ?_⟩
  by_cases e : k = j
  · rw [e, State.setLink_self]
    exact h
  · exact ⟨_, [], by rw [State.setLink_ne _ _ e, List.append_nil]⟩

theorem emit {m : Out} : s.Sends (s.emit m) := ⟨⟨_, _, rfl⟩, List.prefix_append _ _, refl.links⟩

end State.Sends

section
variable (s : State) (j type : Nat) (content : List Byte)

/-- Within a cut of a run a control flit waits. -/
theorem State.sendControl_cut (h : s.run.phase = .cut) : s.sendControl j type content
    = s.setLink j { s.link j with control := (s.link j).control ++ [(type, content)] } := if_pos h

/-- Else it leaves, and takes a notice along. -/
theorem State.sendControl_leaves (h : s.run.phase ≠ .cut) : ∃ aux v, s.sendControl j type content
    = (s.setLink j { s.link j with notices := (s.link j).notices.drop 1 }).emit (.control j type aux v content) :=
  ⟨_, _, if_neg h⟩

theorem State.sends_sendControl : s.Sends (s.sendControl j type content) := by
  by_cases h : s.run.phase = .cut
  · rw [State.sendControl_cut _ _ _ _ h]
    exact .setLink ⟨_, _, rfl⟩
  · obtain ⟨aux, v, e⟩ := s.sendControl_leaves j type content h
    rw [e]
    exact (State.Sends.setLink ⟨_, [], by rw [List.append_nil]⟩).trans .emit

theorem State.flood_append (ls : List Nat) :
    s.flood (ls ++ [j]) type content = (s.flood ls type content).sendControl j type content :=
  List.foldl_append

theorem State.sends_flood (ls : List Nat) : s.Sends (s.flood ls type content) := by
  induction ls using List.reverseRecOn with
  | nil => exact .refl
  | append_singleton ls i ih =>
    rw [State.flood_append]
    exact ih.trans (State.sends_sendControl ..)

variable {s j}

/-- Outside a cut the flit leaves on each link of the list. -/
theorem State.flood_leaves {ls : List Nat} (h : s.run.phase ≠ .cut) (hj : j ∈ ls) :
    ∃ aux v, Out.control j type aux v content ∈ (s.flood ls type content).out := by
  induction ls using List.reverseRecOn with
  | nil => exact absurd hj List.not_mem_nil
  | append_singleton ls i ih =>
    rw [State.flood_append]
    by_cases hm : j ∈ ls
    · obtain ⟨aux, v, ho⟩ := ih hm
      exact ⟨aux, v, (State.sends_sendControl ..).out.subset ho⟩
    · obtain rfl : j = i := by simpa [hm] using hj
      obtain ⟨aux, v, e⟩ := (s.flood ls type content).sendControl_leaves j type content
        (by rwa [(s.sends_flood type content ls).run])
      exact ⟨aux, v, e ▸ List.mem_append_right _ List.mem_cons_self⟩

/-- Within a cut it waits on each. -/
theorem State.flood_waits {ls : List Nat} (h : s.run.phase = .cut) (hj : j ∈ ls) :
    (type, content) ∈ ((s.flood ls type content).link j).control := by
  induction ls using List.reverseRecOn with
  | nil => exact absurd hj List.not_mem_nil
  | append_singleton ls i ih =>
    rw [State.flood_append]
    by_cases hm : j ∈ ls
    · obtain ⟨ns, cs, e⟩ := ((s.flood ls type content).sends_sendControl i type content).links j
      rw [e]
      exact List.mem_append_left _ (ih hm)
    · obtain rfl : j = i := by simpa [hm] using hj
      rw [State.sendControl_cut _ _ _ _ ((congrArg Run.phase (s.sends_flood type content ls).run).trans h), State.setLink_self]
      exact List.mem_append_right _ List.mem_cons_self

end

end Sys2Proof.Machine
end

section
/-! PROOFS. HALT_REPORT (06_plain.md R193): how a report is kept, and the recovery record that names its cause. -/

namespace Sys2Proof.Machine
open Sys2Proof.Say

/-! ### Events -/

/-- From s to t events alone have gone out: registers, host memory and its rings, pins and messages. -/
def State.Posts (s t : State) : Prop := ∃ re ho pi os, t = { s with regs := re, host := ho, pins := pi, out := s.out ++ os }

namespace State.Posts
variable {s t u : State}

theorem refl : s.Posts s := ⟨_, _, _, [], by rw [List.append_nil]⟩

theorem trans (h : s.Posts t) (h' : t.Posts u) : s.Posts u := by
  obtain ⟨re, ho, pi, os, rfl⟩ := h
  obtain ⟨re', ho', pi', os', rfl⟩ := h'
  exact ⟨re', ho', pi', os ++ os', by rw [List.append_assoc]⟩

theorem ite {c : Prop} [Decidable c] (ht : s.Posts t) (hu : s.Posts u) : s.Posts (if c then t else u) := by
  split
  · exact ht
  · exact hu

theorem foldl {α : Type} {f : State → α → State} {l : List α} (h : s.Posts t)
    (hf : ∀ {u : State}, s.Posts u → ∀ a, s.Posts (f u a)) : s.Posts (l.foldl f t) := by
  induction l generalizing t with
  | nil => exact h
  | cons a l ih => exact ih (hf h a)

theorem others (h : s.Posts t) {re ho pi} : s.Posts { t with regs := re, host := ho, pins := pi } := by
  obtain ⟨_, _, _, os, rfl⟩ := h
  exact ⟨re, ho, pi, os, rfl⟩

theorem setFld (h : s.Posts t) {f : Field} {n} : s.Posts (t.setFld f n) := h.others
theorem setFn (h : s.Posts t) {i x} : s.Posts (t.setFn i x) := h.others
theorem setRing (h : s.Posts t) {i r x} : s.Posts (t.setRing i r x) := h.others
theorem emit (h : s.Posts t) {m} : s.Posts (t.emit m) := h.trans ⟨_, _, _, [m], rfl⟩

theorem wake (h : s.Posts t) {bit} : s.Posts (t.wake bit) := by
  have hw : s.Posts (t.setFld ⟨F.hifWakeCauseRtcAlarm.addr, bit, 1⟩ 1) := h.setFld
  exact .ite (.ite hw (.ite hw.setFn.others.emit (.ite hw.setFn.emit hw))) hw

theorem ringPut (h : s.Posts t) {i r bytes now} : s.Posts (t.ringPut i r bytes now) := .setRing (.setFld h.others)

theorem reportLost (h : s.Posts t) {i r} : s.Posts (t.reportLost i r) := .ite h h.setRing.ringPut

theorem event (h : s.Posts t) {i code subject detail} : s.Posts (t.event i code subject detail) := by
  have hw : s.Posts (if i = 0 then t.wake 5 else t) := .ite h.wake h
  unfold State.event
  dsimp only
  split
  · exact hw
  · exact .ite hw.reportLost.ringPut hw.reportLost.setRing

theorem eventBoth (h : s.Posts t) {owner code subject detail} : s.Posts (t.eventBoth owner code subject detail) := by
  unfold State.eventBoth
  dsimp only
  split
  exacts [h.event, h.event.event]

theorem recoveryEvent (h : s.Posts t) {bs} : s.Posts (t.recoveryEvent bs) := h.eventBoth

theorem haltEvents (h : s.Posts t) {cause} : s.Posts (t.haltEvents cause) := .foldl h fun h _ => h.eventBoth

theorem rcv (h : s.Posts t) : t.rcv = s.rcv := by
  obtain ⟨_, _, _, _, rfl⟩ := h
  rfl

/-- Two changes of what recovery holds, with the events of both. -/
theorem withRcv {rc rc'} (h : State.Posts { s with rcv := rc } t) (h' : State.Posts { t with rcv := rc' } u) :
    State.Posts { s with rcv := rc' } u := by
  obtain ⟨re, ho, pi, os, rfl⟩ := h
  exact State.Posts.trans ⟨re, ho, pi, os, rfl⟩ h'

end State.Posts

/-! ### The bytes of a record (R500) -/

/-- A number written between two runs of bytes is read back. -/
theorem fieldLE_append_leBytes {a b : List Byte} {n v o : Nat} (h : a.length = o) :
    fieldLE (a ++ (leBytes n v ++ b)) o n = v % 256 ^ n := by
  subst h
  rw [fieldLE, List.drop_left, List.take_left' (length_leBytes n v), leNat_leBytes]

section
variable (s : State) (l : Level) (seq : Nat)

theorem State.length_recordBytes : (s.recordBytes l seq).length = 128 := by
  have h : ((l.hash ++ List.replicate 48 0).take 48 : List Byte).length = 48 := by simp
  unfold State.recordBytes
  generalize ((l.hash ++ List.replicate 48 0).take 48) = hash at h
  simp only [List.length_append, length_leBytes, h]

theorem State.recordBytes_seq : fieldLE (s.recordBytes l seq) 0 4 = seq % 2 ^ 32 := by
  unfold State.recordBytes
  simp only [List.append_assoc]
  exact fieldLE_append_leBytes (a := []) rfl

theorem State.recordBytes_cause : fieldLE (s.recordBytes l seq) 5 1 = l.seen.trouble.cause % 256 := by
  unfold State.recordBytes
  simp only [List.append_assoc]
  rw [← List.append_assoc]
  exact fieldLE_append_leBytes (by simp)

end

section
variable (s : State) (cause detail m : Nat) {bs : List Byte}

/-- A record that names a member's cause says so. -/
theorem State.putCause_fields (h : bs.length = 128) : fieldLE (s.putCause cause detail m bs) 5 1 = cause % 256
    ∧ fieldLE (s.putCause cause detail m bs) 6 1 = detail % 256 ∧ fieldLE (s.putCause cause detail m bs) 0x24 4 = m % 2 ^ 32 := by
  have h7 : (bytesAt bs 7 29).length = 29 := by simp [bytesAt, h]
  have h5 : (bs.take 5).length = 5 := by simp [h]
  unfold State.putCause
  generalize (if m = s.fld F.dvtPlainMemberIndex then bytesAt bs 0x30 48 else s.memberHash m (fieldLE bs 0x12 1)) = hash
  simp only [List.append_assoc]
  refine ⟨fieldLE_append_leBytes h5, ?_, ?_⟩
  · rw [← List.append_assoc]
    exact fieldLE_append_leBytes (by simp [h5])
  · rw [← List.append_assoc, ← List.append_assoc, ← List.append_assoc]
    exact fieldLE_append_leBytes (by simp [h5, h7])

end

/-! ### A cause is named -/

/-- The level 0 record of a halt that names no cause yet. -/
def State.haltLevel (s : State) : Level :=
  s.newLevel 0 { s.see ⟨0, 0, 0, .nothing, 0⟩ with haltKerf := some (s.run.kerfs - 1), haltAt := s.run.drainAt } .nothing false 0

section
variable (s : State) (cause detail m : Nat)

/-- Where no record waits for the cause, one of its own is written. -/
def State.openFor : State := if s.rcv.records.any (fun r => s.openRecord cause r.1) then s else s.writeRecord s.haltLevel

/-- The record that waits for the cause takes it. -/
def State.fillRecord (known : Bool) : State :=
  match s.rcv.records.findIdx? (fun r => s.openRecord cause r.1) with
  | none => s
  | some k =>
    let old := (s.rcv.records.map Prod.fst).getD k []
    let bs := s.putCause cause detail m old
    let s := { s with rcv := { s.rcv with records := s.rcv.records.modify k (fun r => (bs, r.2)) } }
    (if known ∧ fieldLE old 5 1 = 0 then s.haltEvents cause else s).recoveryEvent bs

theorem State.nameCause_eq : s.nameCause cause detail m
    = (s.openFor cause).fillRecord cause detail m (s.rcv.records.any (fun r => s.openRecord cause r.1)) := rfl

/-- The new record's bytes. -/
def State.haltRecord : List Byte := s.recordBytes s.haltLevel (s.rcv.seq + 1)

/-- A record that names no cause is written without events. -/
theorem State.writeRecord_haltLevel : s.writeRecord s.haltLevel = State.setFld { s with rcv := { s.rcv with
    seq := s.rcv.seq + 1, records := ((s.haltRecord, s.haltLevel.cap) :: s.rcv.records).take 16 } }
    F.rcvStatusSeq ((s.rcv.seq + 1) % 65536) := by
  have hcause : fieldLE s.haltRecord 5 1 = 0 := s.recordBytes_cause s.haltLevel _
  have hnamed : ¬ recordNamed s.haltRecord = true := by simp [recordNamed, hcause]
  have hlevel : ¬ 3 ≤ s.haltLevel.level := Nat.not_succ_le_zero 2
  unfold State.writeRecord
  rw [if_neg hlevel]
  exact if_neg hnamed

theorem State.openFor_posts : ∃ rc, State.Posts { s with rcv := rc } (s.openFor cause)
    ∧ ((∀ x ∈ s.rcv.records, x.1.length = 128) → ∀ x ∈ rc.records, x.1.length = 128)
    ∧ (s.run.haltSeq ≤ s.rcv.seq → s.rcv.seq + 1 < 2 ^ 32 → ∃ x ∈ rc.records, s.openRecord cause x.1 = true) := by
  unfold State.openFor
  split
  · next h => exact ⟨s.rcv, .refl, id, fun _ _ => List.any_eq_true.1 h⟩
  · rw [State.writeRecord_haltLevel]
    refine ⟨_, State.Posts.refl.setFld, fun hlen x hx => ?_, fun hseq hlt => ⟨_, List.mem_cons_self, ?_⟩⟩
    · obtain rfl | hx := List.mem_cons.1 (List.mem_of_mem_take hx)
      · exact s.length_recordBytes _ _
      · exact hlen x hx
    · have hs : fieldLE s.haltRecord 0 4 = s.rcv.seq + 1 := (s.recordBytes_seq _ _).trans (Nat.mod_eq_of_lt hlt)
      have hc : fieldLE s.haltRecord 5 1 = 0 := s.recordBytes_cause s.haltLevel _
      simp only [State.openRecord, hs, hc, Bool.and_eq_true, decide_eq_true_eq, beq_self_eq_true, Bool.true_or, and_true]
      omega

theorem State.fillRecord_posts (known : Bool) : ∃ rc, State.Posts { s with rcv := rc } (s.fillRecord cause detail m known)
    ∧ ((∀ x ∈ s.rcv.records, x.1.length = 128) → (∃ x ∈ s.rcv.records, s.openRecord cause x.1 = true) → ∃ x ∈ rc.records,
        fieldLE x.1 5 1 = cause % 256 ∧ fieldLE x.1 6 1 = detail % 256 ∧ fieldLE x.1 0x24 4 = m % 2 ^ 32) := by
  unfold State.fillRecord
  split
  · next h =>
    refine ⟨s.rcv, .refl, fun _ ⟨x, hx, ho⟩ => ?_⟩
    exact absurd ho (by simpa using List.findIdx?_eq_none_iff.1 h x hx)
  · next k h =>
    refine ⟨_, (State.Posts.ite State.Posts.refl.haltEvents .refl).recoveryEvent, fun hlen _ => ?_⟩
    obtain ⟨hk, -⟩ := List.findIdx?_eq_some_iff_getElem.1 h
    have hold : (s.rcv.records.map Prod.fst).getD k [] = s.rcv.records[k].1 := by simp [hk]
    rw [hold]
    refine ⟨(s.putCause cause detail m s.rcv.records[k].1, s.rcv.records[k].2), ?_,
      s.putCause_fields cause detail m (hlen _ (List.getElem_mem hk))⟩
    exact List.mem_iff_getElem.2 ⟨k, by simpa using hk, by simp⟩

/-- Naming a cause posts events and writes a record with it (R193, R502). -/
theorem State.nameCause_posts : ∃ rc, State.Posts { s with rcv := rc } (s.nameCause cause detail m)
    ∧ ((∀ x ∈ s.rcv.records, x.1.length = 128) → s.run.haltSeq ≤ s.rcv.seq → s.rcv.seq + 1 < 2 ^ 32 → ∃ x ∈ rc.records,
        fieldLE x.1 5 1 = cause % 256 ∧ fieldLE x.1 6 1 = detail % 256 ∧ fieldLE x.1 0x24 4 = m % 2 ^ 32) := by
  rw [State.nameCause_eq]
  obtain ⟨rc, hopen, hlen, hex⟩ := s.openFor_posts cause
  generalize s.openFor cause = u at hopen ⊢
  obtain ⟨rc', hfill, hnamed⟩ := u.fillRecord_posts cause detail m (s.rcv.records.any (fun r => s.openRecord cause r.1))
  refine ⟨rc', hopen.withRcv hfill, fun h128 hseq hlt => hnamed ?_ ?_⟩
  · rw [hopen.rcv]
    exact hlen h128
  · obtain ⟨re, ho, pi, os, rfl⟩ := hopen
    exact hex hseq hlt

end

section
variable (s : State) (r : HaltRep)

/-- A report that names its cause, and for DIVERGE a member that qualifies as faulting, is named (R193). -/
theorem State.nameReport_posts : ∃ rc, State.Posts { s with rcv := rc } (s.nameReport r)
    ∧ (r.cause ≠ 0 → r.cause ≠ 4 ∨ r.faulting = true → (∀ x ∈ s.rcv.records, x.1.length = 128) →
        s.run.haltSeq ≤ s.rcv.seq → s.rcv.seq + 1 < 2 ^ 32 → ∃ x ∈ rc.records,
          fieldLE x.1 5 1 = r.cause.toNat ∧ fieldLE x.1 6 1 = r.detail.toNat ∧ fieldLE x.1 0x24 4 = r.member.toNat) := by
  unfold State.nameReport
  dsimp only
  split
  · obtain ⟨rc, hp, hn⟩ := s.nameCause_posts r.cause.toNat r.detail.toNat r.member.toNat
    refine ⟨rc, hp, fun _ _ hlen hseq hlt => ?_⟩
    obtain ⟨x, hx, hc, hd, hm⟩ := hn hlen hseq hlt
    exact ⟨x, hx, by rw [hc, Nat.mod_eq_of_lt r.cause.isLt], by rw [hd, Nat.mod_eq_of_lt r.detail.isLt],
      by rw [hm, Nat.mod_eq_of_lt (r.member.isLt.trans (by norm_num))]⟩
  · next h =>
    refine ⟨s.rcv, .refl, fun hc hf => absurd ⟨fun e => hc (BitVec.eq_of_toNat_eq e), ?_⟩ h⟩
    exact hf.imp_left fun hc e => hc (BitVec.eq_of_toNat_eq e)

/-- Members that no record names yet are named. -/
theorem State.nameMembers_posts (ms : List Nat) : ∃ rc, State.Posts { s with rcv := rc }
    (ms.foldl (fun s m => if s.divergeNamed m then s else s.nameCause 0x04 0 m) s) := by
  induction ms using List.reverseRecOn with
  | nil => exact ⟨s.rcv, .refl⟩
  | append_singleton ms m ih =>
    obtain ⟨rc, h⟩ := ih
    rw [List.foldl_append, List.foldl_cons, List.foldl_nil]
    split
    · exact ⟨rc, h⟩
    · obtain ⟨rc', h', -⟩ := State.nameCause_posts _ 0x04 0 m
      exact ⟨rc', h.withRcv h'⟩

theorem State.nameDiverged_posts : ∃ rc, State.Posts { s with rcv := rc } s.nameDiverged := by
  unfold State.nameDiverged
  split
  · exact s.nameMembers_posts _
  · exact ⟨s.rcv, .refl⟩

variable {s}

/-- Where a report of DIVERGE names a faulting member, no other is named. -/
theorem State.nameDiverged_faulting {r : HaltRep} (hr : r ∈ s.run.reports) (hc : r.cause = 4) (hf : r.faulting = true) :
    s.nameDiverged = s := by
  have hnone : s.noneQualifies = false := by
    simp only [State.noneQualifies, Bool.and_eq_false_iff, List.all_eq_false]
    exact .inl (.inr ⟨r, hr, by simp [hc, hf]⟩)
  rw [State.nameDiverged, hnone, if_neg Bool.false_ne_true]

/-- Where no member has reported DIVERGE, this one included, none is named. -/
theorem State.nameDiverged_none (hr : ∀ q ∈ s.run.reports, q.cause ≠ 4) (hd : ∀ k, k < 6 → (s.link k).diverged = false) :
    s.nameDiverged = s := by
  have hsaw : s.run.reports.filter (fun q => q.cause.toNat == 0x04) = [] := List.filter_eq_nil_iff.2 fun q hq h =>
    hr q hq (BitVec.eq_of_toNat_eq (beq_iff_eq.1 h))
  have hown : ¬ (List.range 6).any (fun l => (s.link l).diverged) = true := by
    rw [List.any_eq_true]
    rintro ⟨k, hk, h⟩
    exact Bool.false_ne_true ((hd k (List.mem_range.1 hk)).symm.trans h)
  unfold State.nameDiverged
  dsimp only
  rw [hsaw, if_neg hown]
  exact ite_self _

/-- A report that names its cause is the only one to be named where no other member has reported DIVERGE. -/
theorem State.nameDiverged_nameReport {r : HaltRep} (hr : r ∈ s.run.reports) (hc : r.cause ≠ 4 ∨ r.faulting = true)
    (hothers : ∀ q ∈ s.run.reports, q = r ∨ q.cause ≠ 4) (hd : ∀ k, k < 6 → (s.link k).diverged = false) :
    (s.nameReport r).nameDiverged = s.nameReport r := by
  obtain ⟨rc, ⟨re, ho, pi, os, e⟩, -⟩ := s.nameReport_posts r
  rw [e]
  by_cases h4 : r.cause = 4
  · exact State.nameDiverged_faulting hr h4 (hc.resolve_left (not_not_intro h4))
  · exact State.nameDiverged_none (fun q hq => (hothers q hq).elim (fun e => e ▸ h4) id) hd

end

/-- A report is forwarded and kept (R193). -/
def State.keepReport (s : State) (j : Nat) (r : HaltRep) : State :=
  let s := s.flood (s.serviceLinks.filter (· != j)) FlitType.haltReport (haltBytes r)
  { s with run := { s.run with reports := s.run.reports ++ [r] } }

section
variable (s : State) (j : LinkId) (r : HaltRep)

/-- What it says is named at once, or at this member's own halt kerf. -/
theorem exec_haltReport_new (hl : s.serviceLinks.contains (j : Nat) = true) (hi : s.inPlain = true)
    (hn : s.run.reports.contains r = false) : exec (.haltReport j r false) s = .next
      (if (s.keepReport j r).run.halt.isSome then s.keepReport j r else ((s.keepReport j r).nameReport r).nameDiverged) :=
  congrArg Host.Outcome.next (if_pos ⟨hl, hi, Bool.not_eq_true _ ▸ hn⟩)

theorem State.keepReport_form : ∃ ls os,
    s.keepReport j r = { s with run := { s.run with reports := s.run.reports ++ [r] }, links := ls, out := os }
      ∧ (s.run.phase ≠ .cut → ∀ k ∈ s.serviceLinks, k ≠ (j : Nat) →
          ∃ aux v, Out.control k FlitType.haltReport aux v (haltBytes r) ∈ os)
      ∧ ∀ k, (s.run.phase = .cut → k ∈ s.serviceLinks → k ≠ (j : Nat) →
            (FlitType.haltReport, haltBytes r) ∈ (Tab.get Link.init ls k).control)
          ∧ (Tab.get Link.init ls k).diverged = (s.link k).diverged := by
  have hleaves {k} := s.flood_leaves FlitType.haltReport (haltBytes r) (j := k) (ls := s.serviceLinks.filter (· != (j : Nat)))
  have hwaits {k} := s.flood_waits FlitType.haltReport (haltBytes r) (j := k) (ls := s.serviceLinks.filter (· != (j : Nat)))
  obtain ⟨⟨ls, os, e⟩, -, hlinks⟩ := s.sends_flood FlitType.haltReport (haltBytes r) (s.serviceLinks.filter (· != (j : Nat)))
  unfold State.keepReport
  rw [e] at hleaves hwaits hlinks ⊢
  refine ⟨ls, os, rfl, fun hp k hk hne => hleaves hp (State.mem_others hk hne),
    fun k => ⟨fun hp hk hne => hwaits hp (State.mem_others hk hne), ?_⟩⟩
  obtain ⟨ns, cs, e'⟩ := hlinks k
  exact (congrArg Link.diverged e').trans rfl

end

theorem haltReport_does {s : State} {j : LinkId} (hl : s.serviceLinks.contains (j : Nat) = true) (hi : s.inPlain = true)
    {r : HaltRep} (hn : s.run.reports.contains r = false) : Does (.haltReport j r false) s (fun t =>
      t.run = { s.run with reports := s.run.reports ++ [r] } ∧ t.benches = s.benches ∧ t.mems = s.mems ∧ t.parts = s.parts
        ∧ (s.run.phase ≠ .cut → ∀ k ∈ s.serviceLinks, k ≠ (j : Nat) →
            ∃ aux v, Out.control k FlitType.haltReport aux v (haltBytes r) ∈ t.out)
        ∧ (s.run.phase = .cut → ∀ k ∈ s.serviceLinks, k ≠ (j : Nat) →
            (FlitType.haltReport, haltBytes r) ∈ (t.link k).control)
        ∧ (s.run.halt = none → r.cause ≠ 0 → (r.cause ≠ 4 ∨ r.faulting = true) → (∀ x ∈ s.rcv.records, x.1.length = 128) →
            (∀ q ∈ s.run.reports, q.cause ≠ 4) → (∀ k, k < 6 → (s.link k).diverged = false) →
            s.run.haltSeq ≤ s.rcv.seq → s.rcv.seq + 1 < 2 ^ 32 → ∃ x ∈ t.rcv.records,
              fieldLE x.1 5 1 = r.cause.toNat ∧ fieldLE x.1 6 1 = r.detail.toNat ∧ fieldLE x.1 0x24 4 = r.member.toNat)) := by
  refine ⟨_, exec_haltReport_new s j r hl hi hn, ?_⟩
  obtain ⟨ls, os, e, hleaves, hlinks⟩ := s.keepReport_form j r
  rw [e]
  split
  · next h => exact ⟨rfl, rfl, rfl, rfl, hleaves, fun hp k => (hlinks k).1 hp, fun hh => absurd h (by simp [hh])⟩
  · generalize hu : ({ s with run := { s.run with reports := s.run.reports ++ [r] }, links := ls, out := os } : State) = u
    obtain ⟨rc, hreport, hnamed⟩ := u.nameReport_posts r
    obtain ⟨rc', hdiv⟩ := (u.nameReport r).nameDiverged_posts
    have hrecord : r.cause ≠ 0 → (r.cause ≠ 4 ∨ r.faulting = true) → (∀ x ∈ s.rcv.records, x.1.length = 128) →
        (∀ q ∈ s.run.reports, q.cause ≠ 4) → (∀ k, k < 6 → (s.link k).diverged = false) →
        s.run.haltSeq ≤ s.rcv.seq → s.rcv.seq + 1 < 2 ^ 32 → ∃ x ∈ (u.nameReport r).nameDiverged.rcv.records,
          fieldLE x.1 5 1 = r.cause.toNat ∧ fieldLE x.1 6 1 = r.detail.toNat ∧ fieldLE x.1 0x24 4 = r.member.toNat := by
      intro h0 hc hlen hr hd hseq hlt
      have hquiet : (u.nameReport r).nameDiverged = u.nameReport r := by
        rw [← hu]
        refine State.nameDiverged_nameReport (List.mem_append_right _ List.mem_cons_self) hc (fun q hq => ?_)
          fun k hk => (hlinks k).2.trans (hd k hk)
        obtain hq | hq := List.mem_append.1 hq
        · exact .inr (hr q hq)
        · exact .inl (List.mem_singleton.1 hq)
      rw [hquiet, hreport.rcv]
      rw [← hu] at hnamed
      exact hnamed h0 hc hlen hseq hlt
    obtain ⟨re, ho, pi, os', e'⟩ := hreport.withRcv hdiv
    rw [e'] at hrecord ⊢
    rw [← hu] at hrecord ⊢
    refine ⟨rfl, rfl, rfl, rfl, fun hp k hk hne => ?_, fun hp k => (hlinks k).1 hp, fun _ => hrecord⟩
    obtain ⟨aux, v, ho⟩ := hleaves hp k hk hne
    exact ⟨aux, v, List.mem_append_left _ ho⟩

end Sys2Proof.Machine
end

section
/-! PROOFS. Seals, halt notices, checkpoint notices and halt reports (06_plain.md R171, R181, R191 to R193; 20_checkpoint.md
R511). -/

namespace Sys2Proof.Machine

/-- Settles O9: each kind of control flit by its own lemma. -/
theorem sealsNoticesAndReports : Obligations.seals_notices_and_reports := by
  unfold Obligations.seals_notices_and_reports
  intro s j hl hi
  refine ⟨sealFlitReceived_first_does hl hi, sealFlitReceived_later_does hl hi,
    fun _ => haltNoticeReceived_earlier_does hl hi, fun _ _ => haltNoticeReceived_later_does hl hi,
    fun _ => haltNoticeReceived_known_does, fun _ _ => checkpointNoticeReceived_take_does hl hi,
    fun _ => checkpointNoticeReceived_noTake_does hl hi, fun _ => checkpointNoticeReceived_known_does,
    controlFlit_corrected s j, fun _ => haltReport_does hl hi⟩

end Sys2Proof.Machine
end

section
/-! PROOFS. MUSTER_RECORD and START_RECORD (06_plain.md R184, R186 to R188). -/

namespace Sys2Proof.Machine
open Sys2Proof.Say

/-! ### Muster records -/

section
variable {s : State} {j : LinkId} {r : List Byte}

/-- While records are missing, they are kept. -/
theorem State.judgeMuster_waits (h : s.plain.records.length < s.fld F.dvtPlainPlainSize) : s.judgeMuster = s := if_pos h

theorem exec_musterRecord_forming (hf : s.flag F.dvtPlainForming = true) (hr : r.length = 256) :
    exec (.musterRecord j r false) s = .next (if s.plain.records = [] then
        { s with plain := { s.plain with early := s.plain.early ++ [((j : Nat), r)] } }
      else if s.plain.records.contains r then s else (s.takeRecord j r).judgeMuster) := by
  have hpad : (r ++ List.replicate 256 0).take 256 = r := List.take_left' hr
  refine congrArg Host.Outcome.next ((if_pos hf).trans ?_)
  rw [hpad]
  rfl

/-- A new record is forwarded on every other link and kept (R184 step 4). -/
theorem musterRecord_new_does (hr : r.length = 256) (hf : s.flag F.dvtPlainForming = true) (hown : s.plain.records ≠ [])
    (hn : s.plain.records.contains r = false) (hlen : s.plain.records.length + 1 < s.fld F.dvtPlainPlainSize) :
    Does (.musterRecord j r false) s (fun t => t.plain = { s.plain with records := s.plain.records ++ [r] }
      ∧ { t with plain := s.plain, out := s.out, links := s.links } = s
      ∧ (s.run.phase ≠ .cut → ∀ k ∈ s.serviceLinks, k ≠ (j : Nat) → ∃ aux v, Out.control k FlitType.muster aux v r ∈ t.out)) := by
  have hn' : ¬ s.plain.records.contains r = true := Bool.not_eq_true _ ▸ hn
  have hex := exec_musterRecord_forming (j := j) hf hr
  rw [if_neg hown, if_neg hn', State.takeRecord, if_neg hn'] at hex
  have hleaves {k} := s.flood_leaves FlitType.muster r (j := k) (ls := s.serviceLinks.filter (· != (j : Nat)))
  obtain ⟨⟨ls, os, e⟩, -, -⟩ := s.sends_flood FlitType.muster r (s.serviceLinks.filter (· != (j : Nat)))
  rw [e] at hex hleaves
  rw [State.judgeMuster_waits ((List.length_append).trans_lt hlen)] at hex
  exact ⟨_, hex, rfl, rfl, fun hp k hk hne => hleaves hp (State.mem_others hk hne)⟩

/-- One that comes before the member's own waits (log 19). -/
theorem musterRecord_early_does (hr : r.length = 256) (hf : s.flag F.dvtPlainForming = true) (hown : s.plain.records = []) :
    Does (.musterRecord j r false) s (fun t =>
      t.plain = { s.plain with early := s.plain.early ++ [((j : Nat), r)] } ∧ { t with plain := s.plain } = s) := by
  have hex := exec_musterRecord_forming (j := j) hf hr
  rw [if_pos hown] at hex
  exact ⟨_, hex, rfl, rfl⟩

/-- One that comes while no formation runs is discarded. -/
theorem musterRecord_notForming_does (hf : s.flag F.dvtPlainForming = false) :
    Does (.musterRecord j r false) s (fun t => t = s) :=
  ⟨_, rfl, if_neg (Bool.not_eq_true _ ▸ hf)⟩

end

/-! ### Start records -/

/-- The start records with r, which takes the place of its member's earlier one. -/
def State.recordsWith (s : State) (r : StartRec) : List StartRec :=
  s.run.startRecs.filter (fun q => q.member != r.member) ++ [r]

/-- A start record is forwarded and kept (R187). -/
def State.keepStart (s : State) (j : Nat) (r : StartRec) : State :=
  let s := s.flood (s.serviceLinks.filter (· != j)) FlitType.start (startBytes r)
  { s with run := { s.run with startRecs := s.run.startRecs.filter (fun q => q.member != r.member) ++ [r] } }

theorem State.keepStart_form (s : State) (j : Nat) (r : StartRec) : ∃ ls os,
    s.keepStart j r = { s with run := { s.run with startRecs := s.recordsWith r }, links := ls, out := os } := by
  obtain ⟨⟨ls, os, e⟩, -, -⟩ := s.sends_flood FlitType.start (startBytes r) (s.serviceLinks.filter (· != j))
  unfold State.keepStart
  rw [e]
  exact ⟨ls, os, rfl⟩

section
variable {s : State} {j : LinkId} {r : StartRec} (hi : s.inPlain = true) (hl : s.serviceLinks.contains (j : Nat) = true)
  (hm : r.member.toNat ≠ s.fld F.dvtPlainMemberIndex) (hn : s.run.startRecs.contains r = false)
include hi hl hm hn

theorem exec_startRecord_new (hp : s.run.phase = .round ∨ s.run.phase = .idle) : exec (.startRecord j r false) s
    = .next (if (s.keepStart j r).run.phase = .round then (s.keepStart j r).judgeStart else s.keepStart j r) :=
  congrArg Host.Outcome.next (if_pos ⟨hp, hi, hl, hm, Bool.not_eq_true _ ▸ hn⟩)

/-- Where no round runs it waits (log 19). -/
theorem startRecord_idle_does (hp : s.run.phase = .idle) : Does (.startRecord j r false) s (fun t =>
    t.run = { s.run with startRecs := s.run.startRecs.filter (fun q => q.member != r.member) ++ [r] }
      ∧ { t with run := s.run, out := s.out, links := s.links } = s) := by
  have hex := exec_startRecord_new hi hl hm hn (.inr hp)
  obtain ⟨ls, os, e⟩ := s.keepStart_form j r
  rw [e] at hex
  have hround : ¬ s.run.phase = .round := by rw [hp]; decide
  exact ⟨_, hex.trans (congrArg Host.Outcome.next (if_neg hround)), rfl, rfl⟩

end

/-! ### The end of the start round -/

/-- The tick at which every member is ready, as far as the records say. -/
def State.readyOf (s : State) (rs : List StartRec) : Nat := rs.foldl (fun m r => max m r.ready.toNat) s.run.readyTick

theorem le_foldl_max (rs : List StartRec) (n : Nat) : n ≤ rs.foldl (fun m r => max m r.ready.toNat) n := by
  induction rs generalizing n with
  | nil => exact le_rfl
  | cons r rs ih => exact (le_max_left _ _).trans (ih _)

theorem State.readyTick_le_readyOf (s : State) (rs : List StartRec) : s.run.readyTick ≤ s.readyOf rs := le_foldl_max rs _

theorem State.ready_le_readyOf (s : State) (rs : List StartRec) (r : StartRec) : r.ready.toNat ≤ s.readyOf (rs ++ [r]) := by
  rw [State.readyOf, List.foldl_append, List.foldl_cons, List.foldl_nil]
  exact le_max_right _ _

/-- The first cut's start tick (R188): after the largest ready tick and the way round the Plain, rounded up. -/
def State.startTick (s : State) (rs : List StartRec) : Nat := (s.readyOf rs + 64 * (s.diameter + 1) + 4095) / 4096 * 4096

theorem State.startTick_mod (s : State) (rs : List StartRec) : s.startTick rs % 4096 = 0 := Nat.mul_mod_left _ _

theorem State.le_startTick (s : State) (rs : List StartRec) {n : Nat} (h : n ≤ s.readyOf rs) :
    n + 64 * (s.diameter + 1) ≤ s.startTick rs := by
  unfold State.startTick
  omega

/-- A round that has heard of every member and finds no difference fixes the start tick (R187, R188). -/
theorem State.judgeStart_agrees {s : State} (hi : s.inPlain = true) (hlen : s.fld F.dvtPlainPlainSize ≤ s.run.startRecs.length + 1)
    (hd : startDiff s.startRecord s.run.startRecs = none) : s.judgeStart = { s with run := { s.run with
      phase := .armed, firstTick := s.startTick s.run.startRecs, startRecs := [], members := s.run.startRecs } } := by
  unfold State.judgeStart
  dsimp only
  rw [if_pos hi, if_neg (Nat.not_lt.2 hlen), hd]
  rfl

theorem startRecord_round_does {s : State} {j : LinkId} {r : StartRec} (hp : s.run.phase = .round) (hi : s.inPlain = true)
    (hl : s.serviceLinks.contains (j : Nat) = true) (hm : r.member.toNat ≠ s.fld F.dvtPlainMemberIndex)
    (hn : s.run.startRecs.contains r = false)
    (hlen : (s.run.startRecs.filter (fun q => q.member != r.member)).length + 2 = s.fld F.dvtPlainPlainSize)
    (hd : startDiff s.startRecord (s.run.startRecs.filter (fun q => q.member != r.member) ++ [r]) = none) :
    Does (.startRecord j r false) s (fun t =>
      t.run.phase = .armed ∧ t.run.firstTick % 4096 = 0 ∧ t.run.start = s.run.start
        ∧ s.run.readyTick + 64 * (s.diameter + 1) ≤ t.run.firstTick ∧ r.ready.toNat + 64 * (s.diameter + 1) ≤ t.run.firstTick
        ∧ t.run.members = s.run.startRecs.filter (fun q => q.member != r.member) ++ [r]
        ∧ { t with run := s.run, out := s.out, links := s.links } = s) := by
  have hex := exec_startRecord_new hi hl hm hn (.inl hp)
  obtain ⟨ls, os, e⟩ := s.keepStart_form j r
  rw [e] at hex
  have hround : s.fld F.dvtPlainPlainSize ≤ (s.recordsWith r).length + 1 := by
    rw [State.recordsWith, List.length_append]
    exact hlen.ge
  have hjudge := State.judgeStart_agrees
    (s := { s with run := { s.run with startRecs := s.recordsWith r }, links := ls, out := os }) hi hround hd
  refine ⟨_, hex.trans (congrArg Host.Outcome.next ((if_pos hp).trans hjudge)), rfl, s.startTick_mod _, rfl,
    s.le_startTick _ (s.readyTick_le_readyOf _), s.le_startTick _ (s.ready_le_readyOf _ r), rfl, rfl⟩

end Sys2Proof.Machine
end

section
/-! PROOFS. What a refused formation leaves, and MUSTER_TIMEOUT (06_plain.md R184). -/

namespace Sys2Proof.Machine
open Sys2Proof.Say

/-! ### The first register of a block -/

/-- From s to t no link changes, and no register that is the first of 64 bytes, as DVT_PLAIN and each DVT_LINK_STATUS are. -/
def State.SameHeads (s t : State) : Prop := (∀ g : Field, g.addr % 0x40 = 0 → t.fld g = s.fld g) ∧ t.links = s.links

namespace State.SameHeads
variable {s t u : State}

theorem refl : s.SameHeads s := ⟨fun _ _ => rfl, rfl⟩

theorem fld (h : s.SameHeads t) {g : Field} (hg : g.addr % 0x40 = 0) : t.fld g = s.fld g := h.1 g hg

theorem link (h : s.SameHeads t) (j : Nat) : t.link j = s.link j := congrArg (fun m => Tab.get Link.init m j) h.2

theorem flag (h : s.SameHeads t) {g : Field} (hg : g.addr % 0x40 = 0) : t.flag g = s.flag g := congrArg (· != 0) (h.fld hg)

theorem ite {c : Prop} [Decidable c] (ht : s.SameHeads t) (hu : s.SameHeads u) : s.SameHeads (if c then t else u) := by
  split
  · exact ht
  · exact hu

theorem foldl {α : Type} {f : State → α → State} {l : List α} (h : s.SameHeads t)
    (hf : ∀ {u : State}, s.SameHeads u → ∀ a, s.SameHeads (f u a)) : s.SameHeads (l.foldl f t) := by
  induction l generalizing t with
  | nil => exact h
  | cons a l ih => exact ih (hf h a)

theorem setFld (h : s.SameHeads t) {f : Field} {n} (hf : f.addr % 0x40 ≠ 0) : s.SameHeads (t.setFld f n) :=
  ⟨fun _ hg => (State.fld_setFld_addr t n (fun e => hf (e ▸ hg))).trans (h.fld hg), h.2⟩

theorem withHost (h : s.SameHeads t) {ho} : s.SameHeads { t with host := ho } := h
theorem withSec (h : s.SameHeads t) {se} : s.SameHeads { t with sec := se } := h
theorem bumpFree (h : s.SameHeads t) : s.SameHeads t.bumpFree := h

theorem settleReset (h : s.SameHeads t) {i r} : s.SameHeads (t.settleReset i r) := by
  have hring {o : Nat} (ho : o % 0x40 ≠ 0) : (ringBase i r + o) % 0x40 ≠ 0 := by
    unfold ringBase
    split <;> omega
  exact .ite ((((h.setFld (hring (o := 0x18) (by omega))).setFld (hring (o := 0x1C) (by omega))).setFld
    (hring (o := 0x14) (by omega))).setFld (hring (o := 0x10) (by omega))).withHost.withHost h

theorem complete (h : s.SameHeads t) {o status result} : s.SameHeads (t.complete o status result) :=
  .settleReset (.foldl h.withHost.withHost fun h _ => h.withHost)

theorem alignLink (h : s.SameHeads t) {j} : s.SameHeads (t.alignLink j) :=
  .bumpFree (h.setFld (by simp only [F.dvtLinkOffsetTheta]; omega))

theorem useKey (h : s.SameHeads t) {label} : s.SameHeads (t.useKey label) := by
  have hmiss {c : Prop} [Decidable c] : s.SameHeads (if c then t else t.wrapAdd F.cphKeymissMisses 1) :=
    .ite h (h.setFld (by decide))
  exact .ite hmiss.withSec hmiss.withSec

theorem useBound (h : s.SameHeads t) {labels} : s.SameHeads (t.useBound labels) := by
  unfold State.useBound
  split
  · exact h
  · exact .foldl h fun h _ => h.useKey

end State.SameHeads

theorem linkState_head (j : Nat) : (F.dvtLinkStatusState j).addr % 0x40 = 0 := by
  simp only [F.dvtLinkStatusState]
  omega

/-! ### No Plain -/

theorem State.clearPlain_size (s : State) : s.clearPlain.fld F.dvtPlainPlainSize = 0 := by
  unfold State.clearPlain
  dsimp only
  rw [State.fld_setFld_bits _ _ (.inl (by decide)), State.fld_setFld_self]
  rfl

theorem State.fld_leavePlain_ne (s : State) {j k : Nat} (h : k ≠ j) :
    (s.leavePlain j).fld (F.dvtLinkStatusState k) = s.fld (F.dvtLinkStatusState k) := by
  unfold State.leavePlain
  dsimp only
  split
  · rw [State.fld_setFld_addr _ _ (linkState_addr_ne h), State.setLink_fld]
  · rw [State.setLink_fld]

theorem State.leavePlain_apart (s : State) (j : Nat) : (s.leavePlain j).fld (F.dvtLinkStatusState j) ≠ 3 := by
  unfold State.leavePlain
  dsimp only
  split
  · rw [State.fld_setFld_self]
    exact Nat.ne_of_beq_eq_false rfl
  · assumption

/-- A link that has left the Plain is in service no more. -/
theorem State.foldl_leavePlain_apart (ls : List Nat) (s : State) {k : Nat} (hk : k ∈ ls) :
    (ls.foldl State.leavePlain s).fld (F.dvtLinkStatusState k) ≠ 3 := by
  induction ls using List.reverseRecOn with
  | nil => exact absurd hk List.not_mem_nil
  | append_singleton ls j ih =>
    rw [List.foldl_append, List.foldl_cons, List.foldl_nil]
    by_cases h : k = j
    · rw [h]
      exact State.leavePlain_apart _ j
    · rw [State.fld_leavePlain_ne _ h]
      exact ih ((List.mem_append.1 hk).resolve_right fun hj => h (List.mem_singleton.1 hj))

theorem State.dropPlain_apart (s : State) {k : Nat} (hk : k < 6) : s.dropPlain.fld (F.dvtLinkStatusState k) ≠ 3 := by
  rw [State.dropPlain_eq, (State.SameLinks.refl.gateValley (by omega)).fld (dovetail_linkState hk), State.fld_withPlain]
  exact State.foldl_leavePlain_apart _ _ (List.mem_range.2 hk)

/-! ### The time base stays -/

/-- From s to t no time passes. -/
def State.SameNow (s t : State) : Prop := t.now = s.now

namespace State.SameNow
variable {s t u : State}

theorem refl : s.SameNow s := rfl

theorem ite {c : Prop} [Decidable c] (ht : s.SameNow t) (hu : s.SameNow u) : s.SameNow (if c then t else u) := by
  split
  · exact ht
  · exact hu

theorem foldl {α : Type} {f : State → α → State} {l : List α} (h : s.SameNow t)
    (hf : ∀ {u : State}, s.SameNow u → ∀ a, s.SameNow (f u a)) : s.SameNow (l.foldl f t) := by
  induction l generalizing t with
  | nil => exact h
  | cons a l ih => exact ih (hf h a)

theorem setFld (h : s.SameNow t) {f n} : s.SameNow (t.setFld f n) := h
theorem setLink (h : s.SameNow t) {j x} : s.SameNow (t.setLink j x) := h
theorem setRing (h : s.SameNow t) {i r x} : s.SameNow (t.setRing i r x) := h
theorem others (h : s.SameNow t) {ho pl pw ti lo db} :
    s.SameNow { t with host := ho, plain := pl, pwr := pw, tim := ti, log := lo, dbg := db } := h
theorem logEnergy (h : s.SameNow t) {n} : s.SameNow (t.logEnergy n) := h

theorem gateValley (h : s.SameNow t) {v} : s.SameNow (t.gateValley v) :=
  .ite (.ite h.setFld.setFld.setFld.setFld.setFld h.setFld.setFld.setFld.setFld) h

theorem leavePlain (h : s.SameNow t) {j} : s.SameNow (t.leavePlain j) := .ite h.setLink.setFld h.setLink

theorem leaveLinks (h : s.SameNow t) : s.SameNow t.leaveLinks :=
  .foldl h.setFld.setFld.setFld.setFld.setFld fun h _ => h.leavePlain

theorem dropPlain (h : s.SameNow t) : s.SameNow t.dropPlain := h.leaveLinks.others.gateValley

theorem settleReset (h : s.SameNow t) {i r} : s.SameNow (t.settleReset i r) :=
  .ite h.setFld.setFld.setFld.setFld.setRing.others h

theorem complete (h : s.SameNow t) {o status result} : s.SameNow (t.complete o status result) :=
  .settleReset (.foldl h.setRing.setRing fun h _ => h.setRing)

theorem passDevice (h : s.SameNow t) {n} : s.SameNow (t.passDevice n) :=
  .ite h (.ite (.ite h.others h.others.setFld.setFld) h.others.setFld.setFld)

theorem passRtc (h : s.SameNow t) {n} : s.SameNow (t.passRtc n) := h.others.setFld

theorem passEnergy (h : s.SameNow t) {n} : s.SameNow (t.passEnergy n) := .ite h h.others.logEnergy

theorem passStall (h : s.SameNow t) {a n b} : s.SameNow (t.passStall a n b) := by
  unfold State.passStall
  split
  · exact h
  · exact .ite (.ite h.setFld.others h.setFld) h

end State.SameNow

/-! ### A refusal -/

/-- What a refused formation leaves of the Plain. -/
structure State.Refused (s t : State) : Prop where
  forming : t.flag F.dvtPlainForming = false
  formed : t.flag F.dvtPlainFormed = false
  size : t.fld F.dvtPlainPlainSize = 0
  apart : ∀ k : LinkId, t.fld (F.dvtLinkStatusState k) ≠ 3
  plain : t.plain = { Plain.init with tick := s.plain.tick }
  now : t.now = s.now

theorem State.refused_dropPlain (s : State) : s.Refused s.dropPlain := by
  obtain ⟨hformed, hforming⟩ := s.clearPlain_flags
  obtain ⟨hplain, -⟩ := State.has_plainAndParts.1 s.dropPlain_has
  refine ⟨?_, ?_, ?_, fun k => s.dropPlain_apart k.isLt, hplain, State.SameNow.refl.dropPlain⟩
  · rw [State.flag, State.fld_dropPlain s rfl]
    exact hforming
  · rw [State.flag, State.fld_dropPlain s rfl]
    exact hformed
  · rw [State.fld_dropPlain s rfl, State.clearPlain_size]

theorem State.Refused.complete {s t : State} (h : s.Refused t) (o : OpRef) (status result : Nat) :
    s.Refused (t.complete o status result) := by
  obtain ⟨hforming, hformed, hsize, hapart, hplain, hnow⟩ := h
  have hheads := State.SameHeads.refl.complete (s := t) (o := o) (status := status) (result := result)
  have hwork : (t.complete o status result).Has (fun w => w.plain = t.plain) := State.Has.complete (P := fun w => w.plain = t.plain) rfl
  exact ⟨(hheads.flag rfl).trans hforming, (hheads.flag rfl).trans hformed, (hheads.fld rfl).trans hsize,
    fun k => (hheads.fld (linkState_head k)).trans_ne (hapart k), hwork.trans hplain, State.SameNow.refl.complete.trans hnow⟩

theorem State.refused_refuseMuster (s : State) (status result : Nat) : s.Refused (s.refuseMuster status result) := by
  unfold State.refuseMuster
  split
  · exact s.refused_dropPlain
  · exact s.refused_dropPlain.complete _ _ _

/-! ### MUSTER_TIMEOUT -/

theorem State.passClocks_now (s : State) (n : Nat) : (s.passClocks n).now = s.now + n := by
  have h : ((s.passDevice n).passRtc n).now + n = s.now + n :=
    congrArg (· + n) (State.SameNow.refl.passDevice.passRtc (n := n))
  unfold State.passClocks
  dsimp only
  split
  exacts [h, h]

/-- n ns later. -/
theorem State.passTime_now (s : State) (n : Nat) : (s.passTime n).now = s.now + n := by
  have hclocks : ((s.passEnergy n).passClocks n).SameNow (s.passTime n) :=
    State.SameNow.foldl (t := (s.passEnergy n).passClocks n) .refl fun h _ => h.passStall
  have henergy : s.SameNow (s.passEnergy n) := State.SameNow.refl.passEnergy
  calc (s.passTime n).now = ((s.passEnergy n).passClocks n).now := hclocks
    _ = (s.passEnergy n).now + n := State.passClocks_now ..
    _ = s.now + n := congrArg (· + n) henergy

theorem State.le_passTime_tick (s : State) (n : Nat) : s.plain.tick ≤ (s.passTime n).plain.tick := by
  obtain ⟨t, -, e⟩ := s.passTime_eq n
  rw [e]
  exact Nat.le_add_right _ _

/-- A Muster that runs out of time is refused at its deadline. -/
theorem musterTimeout_refuses {s : State} (hf : s.flag F.dvtPlainForming = true) :
    Does .musterTimeout s (fun t => (s.passTime (s.plain.deadline - s.now)).Refused t) := by
  refine ⟨_, congrArg Host.Outcome.next (if_pos hf), ?_⟩
  dsimp only
  split
  exacts [State.refused_refuseMuster .., State.refused_refuseMuster ..]

theorem musterTimeout_does {s : State} (hf : s.flag F.dvtPlainForming = true) : Does .musterTimeout s (fun t =>
    t.flag F.dvtPlainForming = false ∧ t.flag F.dvtPlainFormed = false ∧ t.fld F.dvtPlainPlainSize = 0
      ∧ (∀ k : LinkId, t.fld (F.dvtLinkStatusState k) ≠ 3) ∧ t.plain.op = none ∧ s.plain.tick ≤ t.plain.tick
      ∧ s.plain.deadline ≤ t.now) := by
  obtain ⟨t, hex, hforming, hformed, hsize, hapart, hplain, hnow⟩ := musterTimeout_refuses hf
  refine ⟨t, hex, hforming, hformed, hsize, hapart, ?_, ?_, ?_⟩
  · rw [hplain]
    rfl
  · rw [hplain]
    exact s.le_passTime_tick _
  · rw [hnow, State.passTime_now]
    omega

end Sys2Proof.Machine
end

section
/-! PROOFS. LINK_IDENTITY (06_plain.md R184, R186): the peer of a link is admitted, or the formation refused. -/

namespace Sys2Proof.Machine
open Sys2Proof.Say

theorem State.Has.changeLink {s : State} {P : Work → Prop} (h : s.Has P) {j v} : (s.setLinkState j v).Has P :=
  .ite h h.setFld.gateValley.event

/-- A change of a link's state leaves the other bits of its register. -/
theorem State.fld_setLinkState_bits (s : State) (j v : Nat) {g : Field} (hd : Dovetail g.addr) (hg : 3 ≤ g.lsb) :
    (s.setLinkState j v).fld g = s.fld g := by
  unfold State.setLinkState
  split
  · rfl
  · exact ((State.SameLinks.refl.gateValley (by omega)).linkEvent.fld hd).trans (State.fld_setFld_bits s v (.inr hg))

theorem State.has_work (s : State) : s.Has (fun w => w = s.work) := rfl

theorem State.Has.work_eq {s t : State} (h : t.Has (fun w => w = s.work)) : t.work = s.work := h

section
variable {s t : State} (h : t.work = s.work)
include h

theorem State.plain_of_work : t.plain = s.plain := congrArg Work.plain h
theorem State.run_of_work : t.run = s.run := congrArg Work.run h
theorem State.benches_of_work : t.benches = s.benches := congrArg Work.benches h

end

/-! ### A peer is admitted -/

/-- The peer of link j has answered. -/
def State.answerLink (s : State) (j : Nat) : State := s.setLink j { s.link j with answered := true }

/-- The member on link j is noted, and the link is in service (R184 step 2). -/
def State.admitPeer (s : State) (j m : Nat) : State :=
  ((s.setFld (F.dvtLinkStatusPeerMember j) m).answerLink j).setLinkState j 3

theorem State.answerLink_link (s : State) (j k : Nat) :
    (s.answerLink j).link k = if k = j then { s.link j with answered := true } else s.link k := by
  split
  · next h =>
    rw [h]
    exact State.setLink_self ..
  · next h => exact State.setLink_ne _ _ h

theorem State.answerLink_fld (s : State) (j : Nat) (g : Field) : (s.answerLink j).fld g = s.fld g := rfl

section
variable (s : State) (j m : Nat)

theorem State.admitPeer_link (k : Nat) :
    (s.admitPeer j m).link k = if k = j then { s.link j with answered := true } else s.link k := by
  have hlink (u : State) : (u.setLinkState j 3).link k = u.link k :=
    congrArg (fun ls => Tab.get Link.init ls k) (u.setLinkState_links j 3)
  rw [State.admitPeer, hlink, State.answerLink_link, State.setFld_link, State.setFld_link]

theorem State.admitPeer_state (hj : j < 6) : (s.admitPeer j m).fld (F.dvtLinkStatusState j) = 3 :=
  State.fld_setLinkState_self _ _ _ hj (by omega)

theorem State.admitPeer_member (hj : j < 6) : (s.admitPeer j m).fld (F.dvtLinkStatusPeerMember j) = m % 1024 := by
  have hd : Dovetail (F.dvtLinkStatusPeerMember j).addr := dovetail_linkState hj
  have hb : 3 ≤ (F.dvtLinkStatusPeerMember j).lsb := by simp only [F.dvtLinkStatusPeerMember]; omega
  rw [State.admitPeer, State.fld_setLinkState_bits _ _ _ hd hb, State.answerLink_fld, State.fld_setFld_self]
  rfl

theorem State.fld_admitPeer {g : Field} (hd : Dovetail g.addr) (hg : g.addr ≠ (F.dvtLinkStatusState j).addr) :
    (s.admitPeer j m).fld g = s.fld g := by
  rw [State.admitPeer, State.fld_setLinkState_addr _ _ _ hd hg, State.answerLink_fld]
  exact State.fld_setFld_addr _ _ hg

theorem State.Has.admitPeer {s : State} {P : Work → Prop} (h : s.Has P) {j m} : (s.admitPeer j m).Has P :=
  h.setFld.setLink.changeLink

theorem State.admitPeer_work : (s.admitPeer j m).work = s.work :=
  s.has_work.admitPeer.work_eq

variable {s j}

/-- The links of the formation stay. -/
theorem State.formingLinks_admitPeer (hj : j < 6) (h2 : s.fld (F.dvtLinkStatusState j) = 2) :
    (s.admitPeer j m).formingLinks = s.formingLinks := by
  have hplain : (s.admitPeer j m).plain = s.plain := State.plain_of_work (s.admitPeer_work j m)
  unfold State.formingLinks
  rw [hplain]
  refine List.filter_congr fun k hk => ?_
  by_cases hkj : k = j
  · rw [hkj, s.admitPeer_state j m hj, h2]
    rfl
  · rw [s.fld_admitPeer j m (dovetail_linkState (lt_six_of_mem_usedLinks hk)) (linkState_addr_ne hkj)]

/-- A link in service stays so. -/
theorem State.serviceLinks_admitPeer (h2 : s.fld (F.dvtLinkStatusState j) = 2) {k : Nat} (hk : k ∈ s.serviceLinks) :
    k ∈ (s.admitPeer j m).serviceLinks := by
  obtain ⟨h6, h3⟩ := List.mem_filter.1 hk
  refine List.mem_filter.2 ⟨h6, ?_⟩
  have hkj : k ≠ j := by
    rintro rfl
    rw [h2] at h3
    exact absurd h3 (by decide)
  rwa [s.fld_admitPeer j m (dovetail_linkState (List.mem_range.1 h6)) (linkState_addr_ne hkj)]

end

/-! ### The member's own record goes out -/

/-- Ticks are aligned on every link in service, and the key of the record's label is used (R184 step 3). -/
def State.alignTicks (s : State) : State := (s.serviceLinks.foldl State.alignLink s).useBound (fun r => [r.checkLabel])

/-- The member's own record leaves as the first one. -/
def State.sendOwn (s : State) (r : List Byte) : State :=
  let s := s.flood s.serviceLinks FlitType.muster r
  { s with plain := { s.plain with records := [r], early := [] } }

theorem State.sendRecord_all {s : State} (hf : s.flag F.dvtPlainForming = true)
    (ha : s.formingLinks.all (fun j => (s.link j).answered) = true) (hr : s.plain.records = []) :
    s.sendRecord = (s.alignTicks.plain.early.foldl (fun s p => s.takeRecord p.1 p.2)
      (s.alignTicks.sendOwn s.alignTicks.musterRecord)).judgeMuster := if_pos ⟨hf, ha, hr⟩

section
variable (s : State)

theorem State.alignTicks_heads : s.SameHeads s.alignTicks :=
  State.SameHeads.useBound (.foldl .refl fun h _ => h.alignLink)

theorem State.alignTicks_work : s.alignTicks.work = s.work :=
  (State.Has.useBound (.foldl s.has_work fun h _ => h.setFld.others)).work_eq

end

theorem State.sendOwn_form (s : State) (r : List Byte) : ∃ ls os,
    s.sendOwn r = { s with plain := { s.plain with records := [r], early := [] }, links := ls, out := os }
      ∧ (s.run.phase ≠ .cut → ∀ k ∈ s.serviceLinks, ∃ aux v, Out.control k FlitType.muster aux v r ∈ os)
      ∧ ∀ k, (Tab.get Link.init ls k).answered = (s.link k).answered := by
  have hleaves {k} := s.flood_leaves FlitType.muster r (j := k) (ls := s.serviceLinks)
  obtain ⟨⟨ls, os, e⟩, -, hlinks⟩ := s.sends_flood FlitType.muster r s.serviceLinks
  unfold State.sendOwn
  rw [e] at hleaves hlinks ⊢
  refine ⟨ls, os, rfl, fun hp k hk => hleaves hp hk, fun k => ?_⟩
  obtain ⟨ns, cs, e'⟩ := hlinks k
  exact (congrArg Link.answered e').trans rfl

/-- What the member's own record leaves where no other has come. -/
theorem State.sendRecord_first {s : State} (hf : s.flag F.dvtPlainForming = true)
    (ha : s.formingLinks.all (fun j => (s.link j).answered) = true) (hr : s.plain.records = []) (he : s.plain.early = [])
    (hsize : 1 < s.fld F.dvtPlainPlainSize) (hp : s.run.phase ≠ .cut) :
    (∀ g : Field, g.addr % 0x40 = 0 → s.sendRecord.fld g = s.fld g) ∧ s.sendRecord.benches = s.benches
      ∧ (∀ k, (s.sendRecord.link k).answered = (s.link k).answered)
      ∧ ∃ r, s.sendRecord.plain = { s.plain with records := [r] }
        ∧ ∀ k ∈ s.serviceLinks, ∃ aux v, Out.control k FlitType.muster aux v r ∈ s.sendRecord.out := by
  rw [State.sendRecord_all hf ha hr]
  have hheads := s.alignTicks_heads
  have hwork := s.alignTicks_work
  generalize s.alignTicks = u at hheads hwork ⊢
  have hplain := State.plain_of_work hwork
  have hbenches := State.benches_of_work hwork
  have hservice : u.serviceLinks = s.serviceLinks := State.serviceLinks_congr fun k _ => hheads.fld (linkState_head k)
  obtain ⟨ls, os, e, hleaves, hanswered⟩ := u.sendOwn_form u.musterRecord
  have hjudge : (u.sendOwn u.musterRecord).judgeMuster = u.sendOwn u.musterRecord := State.judgeMuster_waits (by
    rw [e]
    exact hsize.trans_eq (hheads.fld (g := F.dvtPlainPlainSize) rfl).symm)
  rw [hplain, he, List.foldl_nil, hjudge, e]
  refine ⟨fun g => hheads.1 g, hbenches, fun k => (hanswered k).trans (congrArg Link.answered (hheads.link k)), u.musterRecord, ?_, ?_⟩
  · dsimp only
    rw [hplain, ← he]
  · rw [← hservice]
    exact hleaves (by rwa [State.run_of_work hwork])

/-! ### LINK_IDENTITY -/

section
variable {s : State} {j : LinkId} {g : W64} {m : BitVec 16} {q : BitVec 3} (hf : s.flag F.dvtPlainForming = true)
  (hform : s.formingLinks.contains (j : Nat) = true) (h2 : s.fld (F.dvtLinkStatusState j) = 2)
include hf hform h2

/-- An identity of another formation refuses this one (log 19). -/
theorem linkIdentity_wrongFormation_does (hg : g.toNat ≠ s.plain.formation) : Does (.linkIdentity j g m q false) s (fun t =>
    t.flag F.dvtPlainForming = false ∧ t.flag F.dvtPlainFormed = false ∧ t.fld F.dvtPlainPlainSize = 0) := by
  refine ⟨_, congrArg Host.Outcome.next ((if_pos ⟨hf, hform, h2⟩).trans (if_pos hg)), ?_⟩
  obtain ⟨hforming, hformed, hsize, -⟩ := State.refused_refuseMuster s Status.versionMismatch (0x01 + j * 256 + m.toNat * 65536)
  exact ⟨hforming, hformed, hsize⟩

variable (hg : g.toNat = s.plain.formation)
  (hm : m.toNat = neighbour s.plain.dimX s.plain.dimY s.plain.dimZ (s.fld F.dvtPlainMemberIndex) j) (hq : q.toNat = peerOf j)
include hg hm hq

theorem exec_linkIdentity_peer : exec (.linkIdentity j g m q false) s = .next (s.admitPeer j m.toNat).sendRecord := by
  refine congrArg Host.Outcome.next ((if_pos ⟨hf, hform, h2⟩).trans ((if_neg (not_not_intro hg)).trans (if_neg ?_)))
  rintro (h | h)
  exacts [h hm, h hq]

/-- While another link waits for its peer the member's own record does. -/
theorem linkIdentity_waits_does (hwait : (s.formingLinks.any (fun k => k != j && !(s.link k).answered)) = true) :
    Does (.linkIdentity j g m q false) s (fun t =>
      (t.link j).answered = true ∧ t.fld (F.dvtLinkStatusState j) = 3 ∧ t.fld (F.dvtLinkStatusPeerMember j) = m.toNat % 1024
        ∧ t.plain = s.plain ∧ t.benches = s.benches) := by
  obtain ⟨k, hk, hw⟩ := List.any_eq_true.1 hwait
  obtain ⟨hkj, ha⟩ := Bool.and_eq_true_iff.1 hw
  have hex := exec_linkIdentity_peer hf hform h2 hg hm hq
  have hk' : k ∈ (s.admitPeer j m.toNat).formingLinks := by rwa [State.formingLinks_admitPeer _ j.isLt h2]
  have ha' : ((s.admitPeer j m.toNat).link k).answered = false := by
    rw [State.admitPeer_link, if_neg (bne_iff_ne.1 hkj)]
    simpa using ha
  rw [State.sendRecord_waits hk' ha'] at hex
  have hwork := s.admitPeer_work j m.toNat
  refine ⟨_, hex, ?_, s.admitPeer_state j _ j.isLt, s.admitPeer_member j _ j.isLt, State.plain_of_work hwork,
    State.benches_of_work hwork⟩
  rw [State.admitPeer_link, if_pos rfl]

/-- The last peer's answer sends it out. -/
theorem linkIdentity_last_does (hlast : (s.formingLinks.any (fun k => k != j && !(s.link k).answered)) = false)
    (hr : s.plain.records = []) (he : s.plain.early = []) (hsize : 1 < s.fld F.dvtPlainPlainSize) (hp : s.run.phase ≠ .cut) :
    Does (.linkIdentity j g m q false) s (fun t =>
      (t.link j).answered = true ∧ t.fld (F.dvtLinkStatusState j) = 3 ∧ t.benches = s.benches
        ∧ ∃ r, t.plain = { s.plain with records := [r] }
          ∧ ∀ k ∈ s.serviceLinks, ∃ aux v, Out.control k FlitType.muster aux v r ∈ t.out) := by
  have hex := exec_linkIdentity_peer hf hform h2 hg hm hq
  have hwork := s.admitPeer_work j m.toNat
  have hplain := State.plain_of_work hwork
  have hregs {g : Field} (hg : g.addr = 0xB00000) : (s.admitPeer j m.toNat).fld g = s.fld g :=
    s.fld_admitPeer _ _ (hg ▸ dovetail_plain) (hg ▸ plain_addr_ne j)
  have hself : ((s.admitPeer j m.toNat).link j).answered = true := by rw [State.admitPeer_link, if_pos rfl]
  have hall : (s.admitPeer j m.toNat).formingLinks.all (fun k => ((s.admitPeer j m.toNat).link k).answered) = true := by
    rw [State.formingLinks_admitPeer _ j.isLt h2, List.all_eq_true]
    intro k hk
    by_cases hkj : k = j
    · rw [hkj, hself]
    · rw [State.admitPeer_link, if_neg hkj]
      simpa [hkj] using List.any_eq_false.1 hlast k hk
  have hservice {k : Nat} (hk : k ∈ s.serviceLinks) := State.serviceLinks_admitPeer m.toNat h2 hk
  have hstate := s.admitPeer_state j m.toNat j.isLt
  generalize s.admitPeer j m.toNat = u at *
  obtain ⟨hheads, hbenches, hanswered, r, hrecords, hleaves⟩ := State.sendRecord_first (s := u)
    ((congrArg (· != 0) (hregs rfl)).trans hf) hall (hplain ▸ hr) (hplain ▸ he) (hsize.trans_eq (hregs rfl).symm)
    (by rwa [State.run_of_work hwork])
  exact ⟨_, hex, (hanswered j).trans hself, (hheads _ (linkState_head j)).trans hstate,
    hbenches.trans (State.benches_of_work hwork), r, hplain ▸ hrecords, fun k hk => hleaves k (hservice hk)⟩

end

end Sys2Proof.Machine
end
section
/-! PROOFS. Formation of a Plain and the start round (06_plain.md R184, R186 to R188). -/

namespace Sys2Proof.Machine

/-- Settles O10: each event by its own lemma. -/
theorem formationAndStartRound : Obligations.formation_and_start_round := by
  unfold Obligations.formation_and_start_round
  intro s j
  exact ⟨fun _ _ _ => linkIdentity_waits_does, fun _ _ _ => linkIdentity_last_does, fun _ _ _ => linkIdentity_wrongFormation_does,
    fun _ => musterRecord_new_does, fun _ => musterRecord_early_does, fun _ => musterRecord_notForming_does,
    fun _ => startRecord_round_does, fun _ hp hi hl hm hn => startRecord_idle_does hi hl hm hn hp, musterTimeout_does⟩

end Sys2Proof.Machine
end

section
/-! PROOFS. Accesses to device memory (07_memory.md R203): one that reaches nothing, and the memory units that a write leaves. -/

namespace Sys2Proof.Machine

/-! ### An access that reaches nothing -/

/-- The lines that are left bound what is left of a run after the k bytes of its first line. -/
theorem restOfRun_le {fuel a n k : Nat} (hk : k = min n (64 - a % 64)) (h : n ≤ 64 * (fuel + 1) - a % 64) :
    n - k ≤ 64 * fuel - (a + k) % 64 := by omega

/-- The lines that devRead and devWrite allow for suffice for n bytes. -/
theorem run_le_fuel (a n : Nat) : n ≤ 64 * (n / 64 + 2) - a % 64 := by omega

/-- No byte of the run of n bytes from address a is served. -/
def State.Unreached (s : State) (w : Who) (write : Bool) (a n : Nat) : Prop :=
  ∀ k u off, k < n → devAddr (a + k) = some (u, off) → s.mayReach w write u (off / 65536) = false

namespace State.Unreached
variable {s : State} {w : Who} {write : Bool} {a n : Nat}

theorem first (h : s.Unreached w write a n) (hn : n ≠ 0) {u off : Nat} (hd : devAddr a = some (u, off)) :
    s.mayReach w write u (off / 65536) = false := h 0 u off (Nat.pos_of_ne_zero hn) hd

theorem rest (h : s.Unreached w write a n) (k : Nat) : s.Unreached w write (a + k) (n - k) :=
  fun j u off hj hd => h (k + j) u off (by omega) (by rwa [← Nat.add_assoc])

end State.Unreached

section
variable {s t : State} {via : Via} {w : Who} {fuel a k : Nat} {m : Met}

/-- A run whose first line is not served reads zeros there and goes on, with a violation. -/
theorem State.readRun_miss {n : Nat} {bs : List Byte} (hn : n ≠ 0) (hk : k = min n (64 - a % 64))
    (h : ∀ u off, devAddr a = some (u, off) → s.mayReach w false u (off / 65536) = false)
    (hr : s.readRun via w fuel (a + k) (n - k) = (bs, m, t)) :
    s.readRun via w (fuel + 1) a n = (List.replicate k 0 ++ bs, { m with violated := true }, t) := by
  rw [State.readRun, if_neg hn]
  dsimp only
  rw [← hk, hr]
  cases hd : devAddr a with
  | none => rfl
  | some p => exact if_neg (by simp [h p.1 p.2 hd])

/-- A run whose first line is not served discards the bytes for it and goes on, with a violation. -/
theorem State.writeRun_miss {bs : List Byte} (hn : bs ≠ []) (hk : k = min bs.length (64 - a % 64))
    (h : ∀ u off, devAddr a = some (u, off) → s.mayReach w true u (off / 65536) = false)
    (hr : s.writeRun via w fuel (a + k) (bs.drop k) = (m, t)) :
    s.writeRun via w (fuel + 1) a bs = ({ m with violated := true }, t) := by
  rw [State.writeRun, if_neg hn]
  dsimp only
  rw [← hk, hr]
  cases hd : devAddr a with
  | none => rfl
  | some p => exact if_neg (by simp [h p.1 p.2 hd])

theorem State.readRun_unreached {n : Nat} (hf : n ≤ 64 * fuel - a % 64) (h : s.Unreached w false a n) :
    s.readRun via w fuel a n = (List.replicate n 0, ⟨decide (0 < n), false⟩, s) := by
  induction fuel generalizing a n with
  | zero =>
    obtain rfl : n = 0 := by omega
    rfl
  | succ fuel ih =>
    by_cases hn : n = 0
    · rw [State.readRun, if_pos hn, hn]
      rfl
    · obtain ⟨k, hk⟩ : ∃ k, k = min n (64 - a % 64) := ⟨_, rfl⟩
      have hlen : k + (n - k) = n := by omega
      rw [State.readRun_miss hn hk (fun _ _ => h.first hn) (ih (restOfRun_le hk hf) (h.rest k)),
        List.replicate_append_replicate, hlen, decide_eq_true (Nat.pos_of_ne_zero hn)]

theorem State.writeRun_unreached {bs : List Byte} (hf : bs.length ≤ 64 * fuel - a % 64) (h : s.Unreached w true a bs.length) :
    s.writeRun via w fuel a bs = (⟨decide (0 < bs.length), false⟩, s) := by
  induction fuel generalizing a bs with
  | zero =>
    obtain rfl : bs = [] := List.length_eq_zero_iff.1 (by omega)
    rfl
  | succ fuel ih =>
    by_cases hn : bs = []
    · rw [State.writeRun, if_pos hn, hn]
      rfl
    · obtain ⟨k, hk⟩ : ∃ k, k = min bs.length (64 - a % 64) := ⟨_, rfl⟩
      have hlen : (bs.drop k).length = bs.length - k := List.length_drop
      have hpos := List.length_pos_iff.2 hn
      rw [State.writeRun_miss hn hk (fun _ _ => h.first hpos.ne')
        (ih (hlen ▸ restOfRun_le hk hf) (hlen ▸ h.rest k)), decide_eq_true hpos]

end

/-! ### What a write leaves -/

/-- From s to t no granule changes, and of the memory units only some of those that p names. -/
structure State.WritesIn (p : Nat → Prop) (s t : State) : Prop where
  gran : ∀ v, (t.memUnit v).gran = (s.memUnit v).gran
  others : ∀ v, ¬ p v → t.memUnit v = s.memUnit v

namespace State.WritesIn
variable {p : Nat → Prop} {s t : State}

theorem refl : s.WritesIn p s := ⟨fun _ => rfl, fun _ _ => rfl⟩

theorem ite {c : Prop} [Decidable c] {u : State} (ht : s.WritesIn p t) (hu : s.WritesIn p u) :
    s.WritesIn p (if c then t else u) := by
  split
  · exact ht
  · exact hu

theorem ite_snd {α : Type} {c : Prop} [Decidable c] {x y : α × State} (hx : s.WritesIn p x.2) (hy : s.WritesIn p y.2) :
    s.WritesIn p (if c then x else y).2 := by
  split
  · exact hx
  · exact hy

theorem setFld (h : s.WritesIn p t) {f n} : s.WritesIn p (t.setFld f n) := ⟨h.gran, h.others⟩
theorem count (h : s.WritesIn p t) {f n} : s.WritesIn p (t.count f n) := h.setFld
theorem logCount (h : s.WritesIn p t) {i n} : s.WritesIn p (t.logCount i n) := ⟨h.gran, h.others⟩
theorem countCorrected (h : s.WritesIn p t) {u n} : s.WritesIn p (t.countCorrected u n) := .ite h (.ite h.count h.count)
theorem countUncorrected (h : s.WritesIn p t) {u} : s.WritesIn p (t.countUncorrected u) := .ite h.count.logCount h.count

theorem setMemUnit (h : s.WritesIn p t) {u : Nat} (hu : p u) {x : MemUnit} (hx : x.gran = (t.memUnit u).gran) :
    s.WritesIn p (t.setMemUnit u x) := by
  refine ⟨fun v => ?_, fun v hv => ?_⟩
  · by_cases hvu : v = u
    · rw [hvu, State.setMemUnit_self, hx, h.gran]
    · rw [State.setMemUnit_ne _ _ hvu, h.gran]
  · have hvu : v ≠ u := fun e => hv (e ▸ hu)
    rw [State.setMemUnit_ne _ _ hvu, h.others v hv]

section
variable {u : Nat} (hu : p u)
include hu

theorem touch (h : s.WritesIn p t) : s.WritesIn p (t.touch u) := .ite (h.setFld.setMemUnit hu rfl) h

theorem countLook (h : s.WritesIn p t) {k} : s.WritesIn p (t.countLook u k) :=
  .ite (.setMemUnit (.countUncorrected (.ite h.countCorrected.count h.countCorrected)) hu rfl)
    (.ite h.countCorrected.count h.countCorrected)

theorem writeLine (h : s.WritesIn p t) {via line bytes poisoned} : s.WritesIn p (t.writeLine via u line bytes poisoned) := by
  unfold State.writeLine
  split
  · exact h.count
  · exact .ite ((h.touch hu).setMemUnit hu rfl) (h.touch hu)

theorem mergeLine (h : s.WritesIn p t) {via line o bytes} : s.WritesIn p (t.mergeLine via u line o bytes).2 := by
  unfold State.mergeLine
  split
  · exact h.count
  · have hread := h.touch hu
    have hlook := hread.countLook hu (k := (t.touch u).lookLine u line)
    exact .ite_snd hread (.ite_snd (.setMemUnit (.ite hlook.count hread.countCorrected.count) hu rfl) (hlook.setMemUnit hu rfl))

end

/-- A run writes in the units that its addresses name. -/
theorem writeRun (h : s.WritesIn p t) {via w fuel a} {bs : List Byte}
    (hp : ∀ k v off, k < bs.length → devAddr (a + k) = some (v, off) → p v) :
    s.WritesIn p (t.writeRun via w fuel a bs).2 := by
  induction fuel generalizing t a bs with
  | zero => exact h
  | succ fuel ih =>
    by_cases hn : bs = []
    · rwa [State.writeRun, if_pos hn]
    · have hrest : ∀ k v off, k < (bs.drop (min bs.length (64 - a % 64))).length →
          devAddr (a + min bs.length (64 - a % 64) + k) = some (v, off) → p v := fun k v off hk hd =>
        hp (min bs.length (64 - a % 64) + k) v off (by rw [List.length_drop] at hk; omega) (by rwa [← Nat.add_assoc])
      rw [State.writeRun, if_neg hn]
      dsimp only
      split
      · exact ih h hrest
      · next u off hd =>
        have hu : p u := hp 0 u off (List.length_pos_iff.2 hn) hd
        exact .ite_snd (ih (.ite_snd (h.writeLine hu) (h.mergeLine hu)) hrest) (ih h hrest)

end State.WritesIn

/-- Settles O56: what is not served is passed over line by line, and a line that is served changes its unit alone. -/
theorem accessesWithoutReachChangeNothing : Obligations.accesses_without_reach_change_nothing := by
  unfold Obligations.accesses_without_reach_change_nothing
  intro s via w a n bs
  refine ⟨State.readRun_unreached (run_le_fuel a n), State.writeRun_unreached (run_le_fuel a bs.length), ?_, ?_⟩
  · exact (State.WritesIn.refl.writeRun (p := fun _ => True) fun _ _ _ _ _ => trivial).gran
  · exact fun u hu => (State.WritesIn.refl.writeRun (p := (· ≠ u)) hu).others u (not_not_intro rfl)

end Sys2Proof.Machine
end

section
/-! PROOFS. A stack interface failure (07_memory.md R228) under a stopped set with a staged successor. -/

namespace Sys2Proof.Machine

/-- A cutlist of partition 0 with these regions, and no work. -/
def idleList (regions : List Region) : Cutlist :=
  { roles := 0, partition := 0, ckptCapable := true, plainSize := 1, memberIndex := 0, diameter := 0, cutCount := 1,
    loopStart := 0, clusterMask := 0, stackMask := 1, linkMask := 0, hash := [], family := [], drawing := [],
    cutRunHash := [], runs := [], benches := [], tables := [], regions := regions, memslots := [], windows := [],
    exchange := [], images := [] }

/-- Partition 0 is STOPPED, and its staged successor holds one granule of stack 0 and one of die 0's near store, where a byte
lies. A set that stops for a checkpoint before its swap kerf keeps its successor staged so (State.stopForTake). -/
def stoppedStaging : State :=
  { State.reset.setFlag (F.memStatusPresent 0) true with
    parts := [(0, { Part.init with
      state := .stopped, list := some (idleList [])
      staged := some (idleList [⟨1, true, 0, 0, 0, 65536⟩, ⟨2, false, 0, 0, 0, 65536⟩]) })]
    mems := [(0, { MemUnit.init with bytes := [(0, 1)] })] }

theorem stoppedStaging_meets : stoppedStaging.flag (F.memStatusPresent 0) = true
    ∧ stoppedStaging.rcv.faults = [] ∧ stoppedStaging.rcv.levels = [] ∧ stoppedStaging.rcv.done = [] := by
  decide +kernel

/-- Stack 0 fails, and the byte in the near store is gone. -/
theorem stoppedStaging_fails : Memory.byte (stoppedStaging.memUnit 0).bytes 0 = 1
    ∧ ∃ t, exec (.stackInterfaceFailure 0) stoppedStaging = .next t ∧ Memory.byte (t.memUnit 0).bytes 0 = 0 :=
  ⟨by decide +kernel, _, rfl, by decide +kernel⟩

/-- Refutes O11: its clause on an interface failure says that no other memory unit changes where no partition with a region on
the stack runs and recovery is at rest. In stoppedStaging the failure is then served at once by an L2 of partition 0, which
gives up the staged successor and zeroizes its regions (04_cutlists.md R142), the one in die 0's near store too. The clause
lacks at least the premise that no partition with a region on the stack holds a staged cutlist. -/
theorem not_memoryEventsAndMapOuts : ¬ Obligations.memory_events_and_map_outs := by
  unfold Obligations.memory_events_and_map_outs
  rintro ⟨-, hout⟩
  obtain ⟨hfailure, -⟩ := hout stoppedStaging 0 0 0
  obtain ⟨hpresent, hrest⟩ := stoppedStaging_meets
  obtain ⟨t, ht, -, -, -, hothers⟩ := hfailure hpresent (.inr (.inr hrest))
  obtain ⟨hone, u, hu, hzero⟩ := stoppedStaging_fails
  obtain rfl : u = t := Host.Outcome.next.inj (hu.symm.trans ht)
  rw [hothers 0 (by decide), hone] at hzero
  exact absurd hzero (by decide)

end Sys2Proof.Machine
end
section
/-! PROOFS. What a kill, an exception and a report leave of the cores, the benches and the memory units (08_tenon.md R246 to
R248, R264, R265). -/

namespace Sys2Proof.Machine

/-- From s to t core k counts squashed operations, no other core, no bench and no memory unit changes, and no time passes. -/
def State.Squashes (k : Nat) (s t : State) : Prop :=
  (∃ n, t.core k = { s.core k with cpxsq := n }) ∧ (∀ j, j ≠ k → t.core j = s.core j) ∧ t.benches = s.benches
    ∧ t.mems = s.mems ∧ t.now = s.now

namespace State.Squashes
variable {k : Nat} {s t : State}

theorem refl : s.Squashes k s := ⟨⟨_, rfl⟩, fun _ _ => rfl, rfl, rfl, rfl⟩

theorem ite {c : Prop} [Decidable c] {u : State} (ht : s.Squashes k t) (hu : s.Squashes k u) :
    s.Squashes k (if c then t else u) := by
  split
  exacts [ht, hu]

/-- What is beside the cores, the benches and the memory units may change. -/
theorem others (h : s.Squashes k t) {re cl db fr} :
    s.Squashes k { t with regs := re, clusters := cl, dbg := db, freeCtr := fr } := h

theorem setCluster (h : s.Squashes k t) {c x} : s.Squashes k (t.setCluster c x) := h
theorem setFld (h : s.Squashes k t) {f v} : s.Squashes k (t.setFld f v) := h
theorem wrapAdd (h : s.Squashes k t) {f n} : s.Squashes k (t.wrapAdd f n) := h.setFld
theorem bumpFree (h : s.Squashes k t) : s.Squashes k t.bumpFree := h
theorem setQueue (h : s.Squashes k t) {c q} : s.Squashes k (t.setQueue c q) := h
theorem clusterCtr (h : s.Squashes k t) {c sub n} : s.Squashes k (t.clusterCtr c sub n) := .ite h.others h
theorem dbgRecord (h : s.Squashes k t) {type sub unit payload} : s.Squashes k (t.dbgRecord type sub unit payload) :=
  .ite h.setFld.others h.bumpFree.others
theorem traceRec (h : s.Squashes k t) {i sub pc high} : s.Squashes k (t.traceRec i sub pc high) := .ite h.dbgRecord h

theorem countSquashed (h : s.Squashes k t) {n} : s.Squashes k (t.setCore k { t.core k with cpxsq := n }) := by
  obtain ⟨⟨m, hcore⟩, hothers, hrest⟩ := h
  refine ⟨⟨n, ?_⟩, fun j hj => (State.setCore_ne _ _ hj).trans (hothers j hj), hrest⟩
  rw [State.setCore_self, hcore]

theorem squash (h : s.Squashes k t) {q} : s.Squashes k (t.squash k q) :=
  .ite h h.countSquashed.wrapAdd.traceRec.setCluster.clusterCtr

theorem dropHeld (h : s.Squashes k t) : s.Squashes k (t.dropHeld k) := by
  unfold State.dropHeld
  split
  exacts [h, h.countSquashed.traceRec.setQueue.clusterCtr]

theorem kill (h : s.Squashes k t) {q} : s.Squashes k (t.kill k q) := by
  unfold State.kill
  dsimp only
  split
  exacts [h.dropHeld.squash, .ite h.dropHeld h.dropHeld.squash.bumpFree]

end State.Squashes

/-! ### Reports (R247, R492) -/

section
variable (s : State)

theorem State.markLine_core {k line j : Nat} (h : j ≠ k) : (s.markLine k line).core j = s.core j := by
  unfold State.markLine
  dsimp only
  split
  exacts [rfl, State.setCore_ne _ _ h]

theorem State.notice_cores (links : List Nat) (aux value : Nat) : (s.notice links aux value).cores = s.cores := by
  rw [State.notice_eq]
  induction links generalizing s with
  | nil => rfl
  | cons j links ih =>
    have hat (s : State) (q : Nat) : (s.noticeAt j aux value q).cores = s.cores := by
      unfold State.noticeAt
      split <;> rfl
    exact (ih _).trans ((hat _ 1).trans (hat s 0))

theorem State.setHalt_cores (h : Halt) : (s.setHalt h).cores = s.cores := by
  unfold State.setHalt
  dsimp only
  split <;> rfl

theorem State.wake_cores (bit : Nat) : (s.wake bit).cores = s.cores := by
  unfold State.wake
  dsimp only
  split
  · split
    · rfl
    · split
      · rfl
      · split <;> rfl
  · rfl

/-- A raised halt asserts a line of the scheduler core, and no other core notes it. -/
theorem State.raiseHalt_core (x : Trouble) {j : Nat} (h : j ≠ 2) : (s.raiseHalt x).core j = s.core j := by
  unfold State.raiseHalt
  split
  · unfold State.haltNow
    rw [State.markLine_core _ h, State.core, State.wake_cores, State.core]
    split
    · rw [State.notice_cores, State.setHalt_cores]
    · rw [State.setHalt_cores]
  · rfl

/-- Another core watches core k. -/
theorem State.markWatcher_core (k : Nat) : (s.markWatcher k).core k = s.core k := by
  unfold State.markWatcher
  split
  · exact s.markLine_core (by omega)
  · split
    exacts [rfl, s.markLine_core ‹_›]

/-- The report of a core leaves the core itself. -/
theorem State.report_core (k : Nat) : (s.report k).core k = s.core k := by
  unfold State.report
  dsimp only
  split
  · exact s.markWatcher_core k
  · split
    · exact s.markWatcher_core k
    · split
      · rw [State.raiseHalt_core _ _ (by omega), State.markWatcher_core]
      · exact s.markWatcher_core k

/-- A core in lockup stays in it (R247). -/
theorem State.lockup_core (k : Nat) : ((s.lockup k).core k).lockup = true := by
  have hlogged : ((((s.setCore k { s.core k with lockup := true }).logCount 7 1).report k).core k).lockup = true := by
    rw [State.report_core]
    exact congrArg Core.lockup (State.setCore_self s k _)
  unfold State.lockup
  dsimp only
  split <;> exact hlogged

end

end Sys2Proof.Machine
end
section
/-! PROOFS. The accesses of a core to its tightly coupled memory, pushes, and the entry into a vector (08_tenon.md R234, R245,
R246, R255). -/

namespace Sys2Proof.Machine
open Sys2Proof.Say

/-! ### Accesses to the tightly coupled memory -/

theorem spaceOf_tcm {a : Nat} (h : a < 0x20000) : spaceOf a = .tcm := if_pos h

section
variable {x : Core}

theorem Core.store_tcm {a : Nat} {bs : List Byte} (h : spaceOf a = .tcm) : x.store a bs = { x with
    tcm := Memory.write x.tcm a bs
    tcmUe := x.tcmUe.filter (fun w => !decide (a ≤ 8 * w ∧ 8 * w + 8 ≤ a + bs.length)) } := by
  unfold Core.store
  rw [h]

theorem Core.access_write {r : Bool} {a n : Nat} (hn : a % n = 0) (ha : a < 0x20000) (h : x.allowed 1 a = true) :
    x.access true r a n = none := by
  simp [Core.access, hn, h, spaceOf_tcm ha]

/-- A word that may be read and whose code is good. -/
theorem Core.access_word {r : Bool} {a : Nat} (hn : a % 4 = 0) (ha : a < 0x20000) (h : x.allowed 0 a = true)
    (hue : x.tcmUe.contains (a / 8) = false) : x.access false r a 4 = none := by
  simp only [List.contains_eq_mem, decide_eq_false_iff_not] at hue
  simp [Core.access, hn, h, spaceOf_tcm ha, ceilDiv, hue]

/-- The MPU looks at its regions, at CFG and at the mode (R256). -/
theorem Core.allowed_congr {y : Core} (hc : y.cfg = x.cfg) (hb : y.mpuBase = x.mpuBase) (hl : y.mpuLim = x.mpuLim)
    (hp : y.bit Sw.priv = x.bit Sw.priv) (kind a : Nat) : y.allowed kind a = x.allowed kind a := by
  have hon : y.mpuOn = x.mpuOn := by rw [Core.mpuOn, Core.protect, hc, Core.mpuOn, Core.protect]
  have hregion : y.region a = x.region a := by rw [Core.region, hb, hl, Core.region]
  rw [Core.allowed, hon, hregion, hl, hc, hp, Core.allowed]

/-! ### Pushes (R245) -/

/-- The core after a push that meets no fault. -/
def Core.pushed (x : Core) (v : W32) : Core := (x.store ((x.pr 7).toNat - 4) (leBytes 4 v.toNat)).setP 7 (x.pr 7 - 4)

theorem toNat_sub_four {p : W32} (h : 4 ≤ p.toNat) : (p - 4).toNat = p.toNat - 4 := by
  rw [BitVec.toNat_sub_of_le (by bv_omega)]
  rfl

/-- A word fits below P7. -/
structure Core.Fits (x : Core) : Prop where
  aligned : (x.pr 7).toNat % 4 = 0
  room : 4 ≤ (x.pr 7).toNat
  inside : (x.pr 7).toNat ≤ 0x20000
  limit : x.splim.toNat ≤ (x.pr 7).toNat - 4
  writes : ∀ a, a < 0x20000 → x.allowed 1 a = true

theorem Core.push_fits (h : x.Fits) (v : W32) : x.push v = .ok (x.pushed v) := by
  obtain ⟨hal, hroom, hin, hlim, hw⟩ := h
  have ha := toNat_sub_four hroom
  have hl : ¬ (x.pr 7 - 4 < x.splim ∨ (x.pr 7).toNat < 4) := by
    rw [BitVec.lt_def, ha]
    omega
  have hacc : x.access true false ((x.pr 7).toNat - 4) 4 = none :=
    Core.access_write (by omega) (by omega) (hw _ (by omega))
  simp only [Core.push, ha, hal, hl, hacc]
  rfl

/-- What a push leaves: the word lies below P7, which has gone down by 4. -/
theorem Core.pushed_eq (h : x.Fits) (v : W32) : ∃ ue, x.pushed v = { x with
    p := Tab.set 0 x.p 7 (x.pr 7 - 4)
    tcm := Memory.write x.tcm ((x.pr 7).toNat - 4) (leBytes 4 v.toNat)
    tcmUe := ue } ∧ ∀ w ∈ ue, w ∈ x.tcmUe := by
  have hin := h.inside
  have hroom := h.room
  rw [Core.pushed, Core.store_tcm (spaceOf_tcm (by omega))]
  exact ⟨_, rfl, fun w hw => List.mem_of_mem_filter hw⟩

end

theorem readLE_write_word (m : Memory) (a : Nat) (v : W32) :
    Memory.readLE (Memory.write m a (leBytes 4 v.toNat)) a 4 = v.toNat := by
  have h := Memory.read_write_self m a (leBytes 4 v.toNat)
  rw [length_leBytes] at h
  rw [Memory.readLE, h, leNat_leBytes]
  exact Nat.mod_eq_of_lt v.isLt

theorem readLE_write_outside (m : Memory) {a b n : Nat} {bs : List Byte} (h : b + n ≤ a ∨ a + bs.length ≤ b) :
    Memory.readLE (Memory.write m a bs) b n = Memory.readLE m b n := by
  rw [Memory.readLE, Memory.read_write_outside _ _ _ _ _ h, Memory.readLE]

/-! ### The entry (R246) -/

/-- SW with plev written. -/
def withPlev (w : W32) (p : Nat) : W32 := (w &&& ~~~0xF00#32) ||| (BitVec.ofNat 32 p <<< 8)

/-- SW after an entry: of an exception, or of an interrupt with its priority. -/
def entrySw (w : W32) (prio : Option Nat) : W32 :=
  let u := swSet (swSet (swSet w Sw.priv true) Sw.rp false) Sw.rn false
  match prio with
  | some p => withPlev u p
  | none => swSet u Sw.ie false

theorem getLsbD_swSet (w : W32) {i j : Nat} (hi : i < 32) (v : Bool) :
    (swSet w i v).getLsbD j = if j = i then v else w.getLsbD j := by
  unfold swSet
  have hone : ((1#32) <<< i).getLsbD j = decide (j = i) := by
    simp only [BitVec.getLsbD_shiftLeft, BitVec.getLsbD_one]
    grind
  split <;> simp only [BitVec.getLsbD_or, BitVec.getLsbD_and, BitVec.getLsbD_not, hone]
  · grind
  · by_cases hj : j < 32 <;> grind

theorem getLsbD_plevMask (j : Nat) : (0xF00#32).getLsbD j = decide (8 ≤ j ∧ j < 12) := by
  by_cases hj : j < 32
  · have hall : ∀ i : Fin 32, (0xF00#32).getLsbD i = decide (8 ≤ i.val ∧ i.val < 12) := by decide
    exact hall ⟨j, hj⟩
  · rw [BitVec.getLsbD_of_ge _ _ (by omega), eq_comm, decide_eq_false_iff_not]
    omega

theorem getLsbD_withPlev (w : W32) {p : Nat} (hp : p < 16) (j : Nat) :
    (withPlev w p).getLsbD j = if 8 ≤ j ∧ j < 12 then p.testBit (j - 8) else w.getLsbD j := by
  have hbit : (BitVec.ofNat 32 p <<< 8).getLsbD j = (decide (8 ≤ j ∧ j < 12) && p.testBit (j - 8)) := by
    rw [BitVec.getLsbD_shiftLeft, BitVec.getLsbD_ofNat]
    by_cases hj : j < 12
    · grind
    · rw [Nat.testBit_lt_two_pow (lt_of_lt_of_le hp (Nat.pow_le_pow_right (n := 2) (by decide) (by omega : 4 ≤ j - 8)))]
      simp
  rw [withPlev, BitVec.getLsbD_or, BitVec.getLsbD_and, BitVec.getLsbD_not, getLsbD_plevMask, hbit]
  by_cases hj : j < 32
  · split <;> simp [*]
  · rw [BitVec.getLsbD_of_ge _ _ (by omega), if_neg (by omega)]
    simp [show ¬ j < 12 by omega]

/-- What an entry leaves in SW: priv set, rp and rn clear (R246). -/
theorem entrySw_bits (w : W32) {prio : Option Nat} (hp : ∀ p, prio = some p → p < 16) :
    (entrySw w prio).getLsbD Sw.priv = true ∧ (entrySw w prio).getLsbD Sw.rp = false
      ∧ (entrySw w prio).getLsbD Sw.rn = false := by
  cases prio with
  | none =>
    simp only [entrySw, getLsbD_swSet _ (show Sw.priv < 32 by decide), getLsbD_swSet _ (show Sw.rp < 32 by decide),
      getLsbD_swSet _ (show Sw.rn < 32 by decide), getLsbD_swSet _ (show Sw.ie < 32 by decide)]
    simp [Sw.priv, Sw.rp, Sw.rn, Sw.ie]
  | some p =>
    simp only [entrySw, getLsbD_withPlev _ (hp p rfl), getLsbD_swSet _ (show Sw.priv < 32 by decide),
      getLsbD_swSet _ (show Sw.rp < 32 by decide), getLsbD_swSet _ (show Sw.rn < 32 by decide)]
    simp [Sw.priv, Sw.rp, Sw.rn]

/-- An exception clears ie. -/
theorem entrySw_ie (w : W32) : (entrySw w none).getLsbD Sw.ie = false := by
  rw [entrySw, getLsbD_swSet _ (by decide), if_pos rfl]

/-- An interrupt sets plev to its priority. -/
theorem entrySw_plev (w : W32) {p : Nat} (hp : p < 16) : bitsOf (entrySw w (some p)).toNat 8 4 = p := by
  refine Nat.eq_of_testBit_eq fun i => ?_
  have hbit := getLsbD_withPlev (swSet (swSet (swSet w Sw.priv true) Sw.rp false) Sw.rn false) hp (8 + i)
  rw [BitVec.getLsbD] at hbit
  rw [bitsOf, Nat.testBit_mod_two_pow, Nat.testBit_div_two_pow, Nat.add_comm, entrySw]
  by_cases hi : i < 4
  · rw [hbit, if_pos (by omega), Nat.add_sub_cancel_left, decide_eq_true hi, Bool.true_and]
  · rw [decide_eq_false hi, Bool.false_and, Nat.testBit_lt_two_pow]
    exact lt_of_lt_of_le hp (Nat.pow_le_pow_right (n := 2) (by decide) (by omega : 4 ≤ i))

/-- A core with a frame on its stack at the entry into a vector, before it reads the vector. -/
def Core.vectored (x : Core) (vector : Nat) (prio : Option Nat) : Core := { x with
  sw := entrySw x.sw prio, fcause := if prio.isSome then BitVec.ofNat 32 vector else x.fcause, waiting := false
  fresh := none }

section
variable {x y z : Core} {vector : Nat} {resume : W32} {prio : Option Nat}

/-- Two pushes and the word of the vector make an entry. -/
theorem Core.enter_of_pushes (hy : x.push resume = .ok y) (hz : y.push x.sw = .ok z) {answer : W32}
    (hacc : (z.vectored vector prio).access false false (z.vectorAt vector) 4 = none)
    (htcm : spaceOf (z.vectorAt vector) = .tcm) : x.enter vector resume prio answer = some { z.vectored vector prio with
      pc := BitVec.ofNat 32 (Memory.readLE z.tcm (z.vectorAt vector) 4) &&& ~~~3#32 } := by
  have hword : ∀ w : Core, w = z.vectored vector prio →
      (match w.access false false (w.vectorAt vector) 4 with
        | some _ => none
        | none => some { w with pc :=
            (if spaceOf (w.vectorAt vector) = .window then answer
              else BitVec.ofNat 32 (Memory.readLE w.tcm (w.vectorAt vector) 4)) &&& ~~~3#32 })
        = some { z.vectored vector prio with
            pc := BitVec.ofNat 32 (Memory.readLE z.tcm (z.vectorAt vector) 4) &&& ~~~3#32 } := by
    rintro _ rfl
    have hat : (z.vectored vector prio).vectorAt vector = z.vectorAt vector := rfl
    rw [hat, hacc, htcm]
    rfl
  rw [Core.enter, hy]
  dsimp only
  rw [hz]
  cases prio <;> exact hword _ rfl

/-- The core with its frame on the stack. -/
theorem Core.frame_eq (hfirst : x.Fits) (hsecond : (x.pushed resume).Fits) :
    ∃ ue, (x.pushed resume).pushed x.sw = { x with
      p := Tab.set 0 (Tab.set 0 x.p 7 (x.pr 7 - 4)) 7 (x.pr 7 - 8)
      tcm := Memory.write (Memory.write x.tcm ((x.pr 7).toNat - 4) (leBytes 4 resume.toNat)) ((x.pr 7).toNat - 8)
        (leBytes 4 x.sw.toNat)
      tcmUe := ue } ∧ ∀ w ∈ ue, w ∈ x.tcmUe := by
  obtain ⟨ue, hpushed, hsub⟩ := Core.pushed_eq hfirst resume
  obtain ⟨ue', hpushed', hsub'⟩ := Core.pushed_eq hsecond x.sw
  have hpr : (x.pushed resume).pr 7 = x.pr 7 - 4 := by
    rw [hpushed]
    exact Tab.get_set_self _ _ _ _
  have hlow : x.pr 7 - 4 - 4 = x.pr 7 - 8 := by bv_omega
  rw [hpr, toNat_sub_four hfirst.room, hlow, hpushed, Nat.sub_sub] at hpushed'
  rw [hpushed] at hsub'
  rw [hpushed]
  exact ⟨ue', hpushed', fun w hw => hsub w (hsub' w hw)⟩

/-- Both words of the frame fit. -/
theorem Core.fits_of_entryFits (h : EntryFits x vector) : x.Fits ∧ (x.pushed resume).Fits := by
  obtain ⟨hreach, hal, hroom, htop, hlim, -⟩ := h
  have hwrites : ∀ a, a < 0x20000 → x.allowed 1 a = true := fun a ha => (hreach 1 a (by decide) ha).1
  have hfirst : x.Fits := ⟨hal, by omega, htop, by omega, hwrites⟩
  obtain ⟨ue, hpushed, -⟩ := Core.pushed_eq hfirst resume
  have hpr : (x.pushed resume).pr 7 = x.pr 7 - 4 := by
    rw [hpushed]
    exact Tab.get_set_self _ _ _ _
  have hsp : ((x.pushed resume).pr 7).toNat = (x.pr 7).toNat - 4 := by rw [hpr, toNat_sub_four hfirst.room]
  refine ⟨hfirst, by omega, by omega, by omega, ?_, ?_⟩
  · rw [hsp, hpushed]
    show x.splim.toNat ≤ _
    omega
  · rw [hpushed]
    exact hwrites

/-- An entry whose frame and vector fit meets no fault, and what it leaves. -/
theorem Core.enter_fits (h : EntryFits x vector) (resume answer : W32) (hp : ∀ p, prio = some p → p < 16) :
    ∃ y, x.enter vector resume prio answer = some y ∧ Entered x vector resume y ∧ ∃ p m ue pc, y = { x with
      p := p, tcm := m, tcmUe := ue, pc := pc, sw := entrySw x.sw prio
      fcause := if prio.isSome then BitVec.ofNat 32 vector else x.fcause, waiting := false, fresh := none } := by
  obtain ⟨hfirst, hsecond⟩ := Core.fits_of_entryFits (resume := resume) h
  obtain ⟨ue, hframe, hsub⟩ := Core.frame_eq hfirst hsecond
  obtain ⟨hpriv, hrp, hrn⟩ := entrySw_bits x.sw hp
  obtain ⟨hreach, hal, hroom, htop, hlim, hval, hvin, hapart, hue⟩ := h
  have hacc : (((x.pushed resume).pushed x.sw).vectored vector prio).access false false (x.vectorAt vector) 4 = none := by
    have hx : (x.setBit Sw.priv true).bit Sw.priv = true := by
      rw [Core.bit, Core.setBit, getLsbD_swSet _ (by decide), if_pos rfl]
    rw [hframe]
    refine Core.access_word hval (by rw [Core.vectorAt]; omega) ?_ ?_
    · refine (Core.allowed_congr ?_ ?_ ?_ ?_ 0 _).trans (hreach 0 (x.vectorAt vector) (by decide) ?_).2
      exacts [rfl, rfl, rfl, hpriv.trans hx.symm, by rw [Core.vectorAt]; omega]
    · simp only [List.contains_eq_mem, decide_eq_false_iff_not] at hue ⊢
      exact fun hw => hue (hsub _ hw)
  have hat : ((x.pushed resume).pushed x.sw).vectorAt vector = x.vectorAt vector := by
    rw [hframe]
    rfl
  have henter := Core.enter_of_pushes (answer := answer) (Core.push_fits hfirst resume) (Core.push_fits hsecond x.sw)
    (by rw [hat]; exact hacc) (by rw [hat]; exact spaceOf_tcm (by rw [Core.vectorAt]; omega))
  rw [hat, hframe] at henter
  refine ⟨_, henter, ⟨Tab.get_set_self _ _ _ _, ?_, ?_, hpriv, hrp, hrn, ?_, rfl, rfl, ?_, ?_⟩, _, _, _, _, rfl⟩
  · exact (readLE_write_outside _ (by rw [length_leBytes]; omega)).trans (readLE_write_word _ _ _)
  · exact readLE_write_word _ _ _
  · rw [Core.vectorAt, readLE_write_outside _ (by rw [length_leBytes]; omega),
      readLE_write_outside _ (by rw [length_leBytes]; omega)]
  · exact fun q hq => (Tab.get_set_ne _ _ _ hq).trans (Tab.get_set_ne _ _ _ hq)
  · intro a ha
    exact (Memory.byte_write_outside _ _ _ _ (by rw [length_leBytes]; omega)).trans
      (Memory.byte_write_outside _ _ _ _ (by rw [length_leBytes]; omega))

end

end Sys2Proof.Machine
end
section
/-! PROOFS. Exceptions of a core: what taking one leaves, and the statement of it (08_tenon.md R246, R248;
09_firmware.md R277). -/

namespace Sys2Proof.Machine
open Sys2Proof.Say

/-- Where the entry meets no fault the core has entered, and nothing else changes but what a kill counts. -/
theorem State.enterVector_entered {s : State} {k vector : Nat} {resume : W32} {prio : Option Nat} {q : Option Squash}
    {x y : Core} (hx : s.core k = x) (h : x.enter vector resume prio (s.freeBits 32) = some y) :
    let t := s.enterVector k vector resume prio q
    (∃ n, t.core k = { y with cpxsq := n }) ∧ (∀ j, j ≠ k → t.core j = s.core j) ∧ t.benches = s.benches
      ∧ t.mems = s.mems ∧ t.now = s.now := by
  subst hx
  have hkilled : s.Squashes k (((if spaceOf ((s.core k).vectorAt vector) = .window then s.bumpFree else s).traceRec k 2
      (s.core k).pc.toNat vector).kill k q) := .kill (.traceRec (.ite State.Squashes.refl.bumpFree .refl))
  obtain ⟨-, hothers, hrest⟩ := hkilled
  unfold State.enterVector
  dsimp only
  rw [h]
  exact ⟨⟨_, State.setCore_self _ _ _⟩, fun j hj => (State.setCore_ne _ _ hj).trans (hothers j hj), hrest⟩

/-! ### Abandoned routines -/

theorem routineOver_refl (s : State) : RoutineOver s s := fun _ => ⟨_, rfl⟩

theorem routineOver_of_benches {s t u : State} (h : RoutineOver s t) (hu : u.benches = t.benches) : RoutineOver s u := by
  intro b
  obtain ⟨a, ha⟩ := h b
  exact ⟨a, by rw [State.bench, hu]; exact ha⟩

theorem routineOver_since {s t u : State} (hs : t.benches = s.benches) (h : RoutineOver t u) : RoutineOver s u := by
  intro b
  obtain ⟨a, ha⟩ := h b
  exact ⟨a, by rw [ha, State.bench, hs, State.bench]⟩

theorem routineOver_abandon {s t : State} (h : RoutineOver s t) (b : Nat) :
    RoutineOver s (t.setBench b { t.bench b with abandoned := true }) := by
  intro c
  obtain ⟨a, ha⟩ := h c
  rw [State.setBench_get]
  split
  · subst c
    exact ⟨true, by rw [ha]⟩
  · exact ⟨a, ha⟩

theorem State.abandonRoutine_keeps (s : State) (k : Nat) : (s.abandonRoutine k).cores = s.cores
    ∧ (s.abandonRoutine k).mems = s.mems ∧ (s.abandonRoutine k).now = s.now ∧ RoutineOver s (s.abandonRoutine k) := by
  have hfold : ∀ (l : List Nat) (t : State), t.cores = s.cores ∧ t.mems = s.mems ∧ t.now = s.now ∧ RoutineOver s t →
      let u := l.foldl (fun s i =>
        let b := 10 * (k - 5) + i
        if (s.bench b).window.isSome ∧ ¬ (s.bench b).released then s.setBench b { s.bench b with abandoned := true } else s) t
      u.cores = s.cores ∧ u.mems = s.mems ∧ u.now = s.now ∧ RoutineOver s u := by
    intro l
    induction l with
    | nil => exact fun t h => h
    | cons i l ih =>
      rintro t ⟨hc, hm, hn, ho⟩
      refine ih _ ?_
      dsimp only
      split
      exacts [⟨hc, hm, hn, routineOver_abandon ho _⟩, ⟨hc, hm, hn, ho⟩]
  unfold State.abandonRoutine
  split
  exacts [hfold _ s ⟨rfl, rfl, rfl, routineOver_refl s⟩, ⟨rfl, rfl, rfl, routineOver_refl s⟩]

/-! ### Synchronous exceptions -/

/-- From s to t core k takes exception f with a resume PC. -/
structure State.Takes (s : State) (k : Nat) (f : CoreFault) (resume : W32) (t : State) : Prop where
  entered : Entered (s.core k) f.vector resume (t.core k)
  ie : (t.core k).bit Sw.ie = false
  fcause : (t.core k).fcause = BitVec.ofNat 32 (f.vector + f.detail * 256)
  faddr : ∀ a, f.addr = some a → (t.core k).faddr = BitVec.ofNat 32 a
  watchdog : (t.core k).wdtFirst = (s.core k).wdtFirst ∧ (t.core k).wdtLeft = (s.core k).wdtLeft
  others : ∀ j, j ≠ k → t.core j = s.core j
  routine : RoutineOver s t
  mems : t.mems = s.mems
  now : t.now = s.now

/-- The core with FCAUSE and FADDR of a fault (R248). -/
def Core.caused (x : Core) (f : CoreFault) : Core := { x with
  fcause := BitVec.ofNat 32 (f.vector + f.detail * 256)
  faddr := match f.addr with
    | some a => BitVec.ofNat 32 a
    | none => x.faddr }

theorem State.abandonRoutine_core (s : State) (k j : Nat) : (s.abandonRoutine k).core j = s.core j := by
  obtain ⟨hcores, -⟩ := s.abandonRoutine_keeps k
  rw [State.core, hcores, State.core]

theorem State.takeException_eq (s : State) (k : Nat) (f : CoreFault) (resume : W32) (q : Option Squash) :
    s.takeException k f resume q
      = ((s.abandonRoutine k).setCore k ((s.core k).caused f)).enterVector k f.vector resume none q := by
  unfold State.takeException
  dsimp only
  rw [State.abandonRoutine_core]
  rfl

/-- An entry whose frame and vector fit is taken. -/
theorem State.takeException_takes {s : State} {k : Nat} {f : CoreFault} (h : EntryFits (s.core k) f.vector) (resume : W32)
    (q : Option Squash) : s.Takes k f resume (s.takeException k f resume q) := by
  obtain ⟨-, hmems, hnow, hroutine⟩ := s.abandonRoutine_keeps k
  have hx : ((s.abandonRoutine k).setCore k ((s.core k).caused f)).core k = (s.core k).caused f := State.setCore_self _ _ _
  rw [State.takeException_eq]
  obtain ⟨y, henter, hentered, p, m, ue, pc, rfl⟩ := Core.enter_fits (x := (s.core k).caused f) (prio := none) h resume
    (((s.abandonRoutine k).setCore k ((s.core k).caused f)).freeBits 32) (by simp)
  obtain ⟨⟨n, ht⟩, hothers, hbenches, hm, hn⟩ := State.enterVector_entered (q := q) hx henter
  constructor
  · rw [ht]
    exact hentered
  · rw [ht]
    exact entrySw_ie _
  · rw [ht]
    rfl
  · intro a ha
    rw [ht]
    show ((s.core k).caused f).faddr = _
    rw [Core.caused, ha]
  · rw [ht]
    exact ⟨rfl, rfl⟩
  · exact fun j hj => (hothers j hj).trans ((State.setCore_ne _ _ hj).trans (s.abandonRoutine_core k j))
  · exact routineOver_of_benches hroutine hbenches
  · exact hm.trans hmems
  · exact hn.trans hnow

/-- A command that is an exception of core k in a state with the same cores, benches and memory units raises it. -/
theorem raises_of_takeException {c : Instr} {s u : State} {k : Nat} {f : CoreFault} {resume : W32} {q : Option Squash}
    (hc : exec c s = .next (u.takeException k f resume q)) (hcores : u.cores = s.cores) (hbenches : u.benches = s.benches)
    (hmems : u.mems = s.mems) : Raises c s k f resume := by
  intro hfits
  have hcore (j : Nat) : u.core j = s.core j := by rw [State.core, hcores, State.core]
  have htakes := State.takeException_takes (s := u) (k := k) (f := f) (by rwa [hcore]) resume q
  obtain ⟨hentered, hie, hcause, haddr, -, hothers, hroutine, hm, -⟩ := htakes
  rw [hcore] at hentered
  exact ⟨_, hc, hentered, hie, hcause, haddr, fun j hj => (hothers j hj).trans (hcore j), routineOver_since hbenches hroutine,
    hm.trans hmems⟩

end Sys2Proof.Machine
end

section
/-! PROOFS. One instruction of a core: what it does where the core is free, by what its body gives (08_tenon.md R242, R249,
R253). -/

namespace Sys2Proof.Machine
open Sys2Proof.Say

/-! ### Retirement -/

/-- No line is taken where none that waits is enabled, or interrupts are off (R249). -/
theorem Core.bestLine_none {x : Core} (h : x.bit Sw.ie = false ∨ x.ien &&& x.ipend = 0) : x.bestLine = none := by
  have hq (j : Nat) : x.qualifies j = false := by
    rcases h with h | h
    · simp [Core.qualifies, h]
    · have hj : (x.ien &&& x.ipend).getLsbD j = false := by rw [h]; simp
      rw [BitVec.getLsbD_and] at hj
      rw [Core.qualifies, Bool.and_comm (x.ipend.getLsbD j), hj]
      rfl
  unfold Core.bestLine
  simp only [hq, Bool.false_eq_true, if_false]
  exact List.foldl_fixed' (fun _ => rfl) _

theorem State.pollInterrupt_none {s : State} {k : Nat} {q : Option Squash} {x : Core} (hx : s.core k = x)
    (h : x.bit Sw.ie = false ∨ x.ien &&& x.ipend = 0) : s.pollInterrupt k q = s := by
  unfold State.pollInterrupt
  dsimp only
  rw [hx, Core.bestLine_none h]
  exact ite_self _

theorem State.pollInterrupt_quiet {s : State} {k : Nat} {q : Option Squash} (h : (s.core k).ipend = 0) :
    s.pollInterrupt k q = s := State.pollInterrupt_none rfl (.inr (by simp [h]))

theorem State.syncRec_untraced {s : State} {k : Nat} (h : s.traced k = false) : s.syncRec k = s := by
  unfold State.syncRec
  dsimp only
  rw [h]
  rfl

/-- A core traced or not stays so while registers of the clusters are written (R528). -/
theorem State.traced_setFld (s : State) {f : Field} (h : 0x1000000 ≤ f.addr) (v k : Nat) :
    (s.setFld f v).traced k = s.traced k := by
  have hfld (g : Field) (hg : g.addr < 0x1000000) : (s.setFld f v).fld g = s.fld g := s.fld_setFld_addr v (by omega)
  have hflag (g : Field) (hg : g.addr < 0x1000000) : (s.setFld f v).flag g = s.flag g := by
    rw [State.flag, hfld g hg, State.flag]
  rw [State.traced, State.hasRight, hflag _ (by decide), hflag _ (by decide), hfld _ (by decide), hfld _ (by decide),
    State.traced, State.hasRight]

theorem State.traceRec_untraced {s : State} {k sub pc high : Nat} (h : s.traced k = false) :
    s.traceRec k sub pc high = s := by
  rw [State.traceRec, h]
  rfl

theorem State.traced_clusterCtr (s : State) (c sub n k : Nat) : (s.clusterCtr c sub n).traced k = s.traced k := by
  unfold State.clusterCtr
  split <;> rfl

theorem State.traced_setQueue (s : State) (c k : Nat) (q : List CpxOp) : (s.setQueue c q).traced k = s.traced k := by
  unfold State.setQueue
  rw [State.traced_setFld _ (by simp only [F.cpxStatusQueued]; omega),
    State.traced_setFld _ (by simp only [F.cpxStatusInflight]; omega)]
  rfl

/-- The core after the retirement of an instruction that it began as old: a repeat counts LC down or ends (R253), and the PC
passes on. -/
def Core.passed (x old : Core) (after : W32) : Core :=
  let y := { x with retired := x.retired + 1, fresh := if old.bit Sw.rp then none else x.fresh }
  if old.bit Sw.rp && decide (1 < old.lc.toNat) then { y with lc := old.lc - 1 }
  else if old.bit Sw.rp then { (y.setBit Sw.rp false).setBit Sw.rn false with lc := 0, pc := after &&& ~~~3#32 }
  else { y with pc := after &&& ~~~3#32 }

section
variable {x old : Core} {after : W32}

theorem Core.passed_outside_repeat (h : old.bit Sw.rp = false) : x.passed old after = Gone x after := by
  simp [Core.passed, h, Gone]

theorem Core.passed_again (h : old.bit Sw.rp = true) (hl : 1 < old.lc.toNat) :
    x.passed old after = { x with retired := x.retired + 1, fresh := none, lc := old.lc - 1 } := by
  simp [Core.passed, h, hl]

theorem Core.passed_last (h : old.bit Sw.rp = true) (hl : old.lc = 1) :
    x.passed old after = { (x.setBit Sw.rp false).setBit Sw.rn false with
      retired := x.retired + 1, fresh := none, lc := 0, pc := after &&& ~~~3#32 } := by
  simp [Core.passed, h, hl, Core.setBit]

theorem Core.passed_wdtPend : (x.passed old after).wdtPend = x.wdtPend := by
  unfold Core.passed
  dsimp only
  split
  · rfl
  · split <;> rfl

theorem Core.passed_ipend : (x.passed old after).ipend = x.ipend := by
  unfold Core.passed
  dsimp only
  split
  · rfl
  · split <;> rfl

end

/-- What happens at the boundary behind an instruction that core k began as old and left as x (R242, R528). -/
def State.atBoundary (s : State) (k : Nat) (old x : Core) : State :=
  let s := if decide (4096 ≤ x.retired) || (old.bit Sw.priv && !x.bit Sw.priv) then s.syncRec k else s
  let s := if x.wdtPend && !(x.bit Sw.rp && x.bit Sw.rn) && x.fresh.isNone then s.expire k none else s
  s.pollInterrupt k

/-- With no event waiting and no trace nothing happens there. -/
theorem State.atBoundary_quiet {s : State} {k : Nat} {old x : Core} (hx : s.core k = x) (hw : x.wdtPend = false)
    (hi : x.ipend = 0) (ht : s.traced k = false) : s.atBoundary k old x = s := by
  unfold State.atBoundary
  rw [State.syncRec_untraced ht, ite_self, hw]
  exact State.pollInterrupt_quiet (by rw [← hi, ← hx]; rfl)

theorem State.retire_eq (t : State) (k len : Nat) (old : Core) (next : Option W32) : t.retire k len old next
      = (t.setCore k ((t.core k).passed old (next.getD (old.pc + BitVec.ofNat 32 len)))).atBoundary k old
        ((t.core k).passed old (next.getD (old.pc + BitVec.ofNat 32 len))) := rfl

/-- With no event waiting and no trace, retirement changes the core alone. -/
theorem State.retire_quiet {t : State} {k len : Nat} {old : Core} {next : Option W32} (hw : (t.core k).wdtPend = false)
    (hi : (t.core k).ipend = 0) (ht : t.traced k = false) : t.retire k len old next
      = t.setCore k ((t.core k).passed old (next.getD (old.pc + BitVec.ofNat 32 len))) := by
  rw [State.retire_eq]
  exact State.atBoundary_quiet (State.setCore_self _ _ _) (Core.passed_wdtPend.trans hw) (Core.passed_ipend.trans hi) ht

/-! ### The way of an instruction -/

section
variable {s t : State} {k n : Nat} {rep single : Bool} {body : State → Core → Did} {f : CoreFault} {next : Option W32}

/-- What the body gives is what happens. -/
def State.finish (s : State) (k n : Nat) : Did → State
  | .done t next => t.retire k n (s.core k) next
  | .fault f => s.takeException k f (s.core k).pc
  | .faultIn t f => t.takeException k f (s.core k).pc
  | .wait => s
  | .waitIn t => t

/-- A core that issues executes an instruction that it can fetch, and that a repeat admits (R252, R254). -/
theorem State.instr_issues (hal : (s.core k).alive = true) (hwait : (s.core k).waiting = false)
    (hskip : (s.core k).skip = false) (hlc : (s.core k).bit Sw.rp = true → (s.core k).lc ≠ 0)
    (hfetch : (s.core k).fetchFault n = none)
    (hrep : (s.core k).bit Sw.rp = true → rep = true ∧ ((s.core k).bit Sw.rn = true → single = true)) :
    s.instr k n rep single body = s.finish k n (body s (s.core k)) := by
  have hnolc : ((s.core k).bit Sw.rp && (s.core k).lc == 0) = false := by
    cases h : (s.core k).bit Sw.rp <;> simp_all
  have hadmit : ((s.core k).bit Sw.rp && (!rep || ((s.core k).bit Sw.rn && !single))) = false := by
    cases h : (s.core k).bit Sw.rp <;> simp_all
  unfold State.instr
  dsimp only
  rw [hal, hwait, hskip, hnolc, hfetch, hadmit]
  cases body s (s.core k) <;> rfl

theorem State.instr_free (h : Free s k n) : s.instr k n rep single body = s.finish k n (body s (s.core k)) := by
  obtain ⟨hal, hwait, hskip, hrp, -, -, hfetch, -⟩ := h
  exact State.instr_issues hal hwait hskip (fun e => absurd (hrp.symm.trans e) (by decide)) hfetch
    (fun e => absurd (hrp.symm.trans e) (by decide))

/-! ### What a free core does -/

theorem onlyCore_setCore (s : State) (k : Nat) (y : Core) : OnlyCore k s (s.setCore k y) :=
  ⟨rfl, fun _ hj => State.setCore_ne _ _ hj⟩

theorem onlyCore_setCore_setCore (s : State) (k : Nat) (y z : Core) : OnlyCore k s ((s.setCore k y).setCore k z) :=
  ⟨rfl, fun _ hj => (State.setCore_ne _ _ hj).trans (State.setCore_ne _ _ hj)⟩

/-- The retirement of a free core. -/
theorem State.retire_free (h : Free s k n) (hw : (t.core k).wdtPend = (s.core k).wdtPend)
    (hi : (t.core k).ipend = (s.core k).ipend) (ht : t.traced k = s.traced k) : t.retire k n (s.core k) next
      = t.setCore k (Gone (t.core k) (next.getD ((s.core k).pc + BitVec.ofNat 32 n))) := by
  obtain ⟨-, -, -, hrp, hwdt, hipend, -, htr⟩ := h
  rw [State.retire_quiet (hw.trans hwdt) (hi.trans hipend) (ht.trans htr), Core.passed_outside_repeat hrp]

variable {c : Instr} {y : Core}

/-- What holds after the retirement holds after the command. -/
theorem does_of_done {P : State → Prop} (hc : exec c s = .next (s.instr k n rep single body)) (hfree : Free s k n)
    (hb : body s (s.core k) = .done t next) (h : P (t.retire k n (s.core k) next)) : Does c s P := by
  rw [State.instr_free hfree, hb, State.finish] at hc
  exact ⟨_, hc, h⟩

/-- A free core goes over to y, and on to where the instruction leads. -/
theorem does_gone (hc : exec c s = .next (s.instr k n rep single body)) (hfree : Free s k n)
    (hb : body s (s.core k) = .done (s.setCore k y) next) (hw : y.wdtPend = (s.core k).wdtPend)
    (hi : y.ipend = (s.core k).ipend) : Does c s (fun t =>
      t.core k = Gone y (next.getD ((s.core k).pc + BitVec.ofNat 32 n)) ∧ OnlyCore k s t) := by
  have hy : (s.setCore k y).core k = y := State.setCore_self _ _ _
  refine does_of_done hc hfree hb ?_
  rw [State.retire_free (t := s.setCore k y) hfree (by rw [hy, hw]) (by rw [hy, hi]) rfl, hy]
  exact ⟨State.setCore_self _ _ _, onlyCore_setCore_setCore s k _ _⟩

/-- The same for an instruction that draws a free value. -/
theorem does_gone_bumpFree (hc : exec c s = .next (s.instr k n rep single body)) (hfree : Free s k n)
    (hb : body s (s.core k) = .done (s.setCore k y).bumpFree next) (hw : y.wdtPend = (s.core k).wdtPend)
    (hi : y.ipend = (s.core k).ipend) : Does c s (fun t =>
      t.core k = Gone y (next.getD ((s.core k).pc + BitVec.ofNat 32 n))
        ∧ { t with cores := s.cores, freeCtr := s.freeCtr } = s ∧ ∀ j, j ≠ k → t.core j = s.core j) := by
  have hy : (s.setCore k y).bumpFree.core k = y := State.setCore_self _ _ _
  refine does_of_done hc hfree hb ?_
  rw [State.retire_free (t := (s.setCore k y).bumpFree) hfree (by rw [hy, hw]) (by rw [hy, hi]) rfl, hy]
  exact ⟨State.setCore_self _ _ _, rfl, fun j hj => (State.setCore_ne _ _ hj).trans (State.setCore_ne _ _ hj)⟩

theorem coreGoes_of_done (hc : exec c s = .next (s.instr k n rep single body))
    (hb : body s (s.core k) = .done (s.setCore k y) none) (hw : y.wdtPend = (s.core k).wdtPend)
    (hi : y.ipend = (s.core k).ipend) : CoreGoes c s k n y := fun hfree => does_gone hc hfree hb hw hi

/-- An instruction whose body changes only the core, to one with the same events waiting. -/
theorem coreGoes_of_plain {g : Core → Core} (hc : exec c s = .next (s.plainInstr k n g)) (hg : g (s.core k) = y)
    (hw : y.wdtPend = (s.core k).wdtPend) (hi : y.ipend = (s.core k).ipend) : CoreGoes c s k n y := by
  subst hg
  exact coreGoes_of_done hc rfl hw hi

/-- An instruction that faults raises its fault at its own address. -/
theorem raises_of_fault (hc : exec c s = .next (s.instr k n rep single body)) (hfree : Free s k n)
    (hb : body s (s.core k) = .fault f) : Raises c s k f (s.core k).pc := by
  rw [State.instr_free hfree, hb] at hc
  exact raises_of_takeException hc rfl rfl rfl

/-- The same for a fault that a CPX instruction meets at its retire. -/
theorem raises_of_faultIn (hc : exec c s = .next (s.instr k n rep single body)) (hfree : Free s k n)
    (hb : body s (s.core k) = .faultIn t f) (hcores : t.cores = s.cores) (hbenches : t.benches = s.benches)
    (hmems : t.mems = s.mems) : Raises c s k f (s.core k).pc := by
  rw [State.instr_free hfree, hb] at hc
  exact raises_of_takeException hc hcores hbenches hmems

end

end Sys2Proof.Machine
end
section
/-! PROOFS. The ALU, immediates and shifts of a core (08_tenon.md R236 to R238). -/

namespace Sys2Proof.Machine
open Sys2Proof.Say

/-! ### Results -/

theorem addWith_eq (x y : W32) (cin : Bool) : addWith x y cin
    = (x + y + BitVec.ofNat 32 (if cin then 1 else 0), decide (2 ^ 32 ≤ x.toNat + y.toNat + if cin then 1 else 0),
        x.msb == y.msb && (x + y + BitVec.ofNat 32 (if cin then 1 else 0)).msb != x.msb) := by
  simp [addWith, BitVec.ofNat_add]

theorem subWith_eq (x y : W32) (bin : Bool) : subWith x y bin
    = (x - y - BitVec.ofNat 32 (if bin then 1 else 0), decide (x.toNat < y.toNat + if bin then 1 else 0),
        x.msb != y.msb && (x - y - BitVec.ofNat 32 (if bin then 1 else 0)).msb != x.msb) := by
  cases bin <;> rfl

section
variable (u v : W32) (c : Bool)

theorem aluEval_add : aluEval .add u v c
    = (u + v, some (decide (2 ^ 32 ≤ u.toNat + v.toNat), u.msb == v.msb && (u + v).msb != u.msb)) := by
  simp [aluEval, addWith_eq]

theorem aluEval_addc : aluEval .addc u v c = (u + v + BitVec.ofNat 32 (if c then 1 else 0),
    some (decide (2 ^ 32 ≤ u.toNat + v.toNat + if c then 1 else 0),
      u.msb == v.msb && (u + v + BitVec.ofNat 32 (if c then 1 else 0)).msb != u.msb)) := by
  simp only [aluEval, addWith_eq]

theorem aluEval_sub : aluEval .sub u v c
    = (u - v, some (decide (u.toNat < v.toNat), u.msb != v.msb && (u - v).msb != u.msb)) := by
  simp [aluEval, subWith_eq]

theorem aluEval_subc : aluEval .subc u v c = (u - v - BitVec.ofNat 32 (if c then 1 else 0),
    some (decide (u.toNat < v.toNat + if c then 1 else 0),
      u.msb != v.msb && (u - v - BitVec.ofNat 32 (if c then 1 else 0)).msb != u.msb)) := by
  simp only [aluEval, subWith_eq]

theorem aluEval_cmp : aluEval .cmp u v c = aluEval .sub u v c := rfl

theorem aluEval_neg : aluEval .neg u v c = (-u, some (decide (0 < u.toNat), u.msb && (-u).msb)) := by
  simp [aluEval, subWith_eq]

theorem aluEval_mul : aluEval .mul u v c = (BitVec.ofNat 32 (u.toNat * v.toNat), none) := by
  simp [aluEval, BitVec.ofNat_mul]

theorem aluEval_divu :
    aluEval .divu u v c = (if v = 0 then 0xFFFFFFFF#32 else BitVec.ofNat 32 (u.toNat / v.toNat), none) := by
  have h : u / v = BitVec.ofNat 32 (u.toNat / v.toNat) := BitVec.eq_of_toNat_eq (by
    simp [Nat.mod_eq_of_lt (lt_of_le_of_lt (Nat.div_le_self _ _) u.isLt)])
  rw [aluEval, h]

theorem aluEval_remu :
    aluEval .remu u v c = (if v = 0 then u else BitVec.ofNat 32 (u.toNat % v.toNat), none) := by
  have h : u % v = BitVec.ofNat 32 (u.toNat % v.toNat) := BitVec.eq_of_toNat_eq (by
    simp [Nat.mod_eq_of_lt (lt_of_le_of_lt (Nat.mod_le _ _) u.isLt)])
  rw [aluEval, h]

/-- u is at most v, in the order of the signed values or of the unsigned ones. -/
def AtMost (signed : Bool) (u v : W32) : Prop := if signed then u.toInt ≤ v.toInt else u ≤ v

theorem atMost_refl (signed : Bool) (u : W32) : AtMost signed u u := by
  cases signed
  exacts [le_refl u.toNat, le_refl u.toInt]

theorem atMost_both {signed : Bool} {u v u' v' : W32} (h : AtMost signed u v) (h' : AtMost signed u' v') :
    if signed then u.toInt ≤ v.toInt ∧ u'.toInt ≤ v'.toInt else u ≤ v ∧ u' ≤ v' := by
  cases signed
  exacts [⟨h, h'⟩, ⟨h, h'⟩]

/-- MIN and MAX compare in the order that the open choice names (log 11). -/
theorem minMaxLt_iff (u v : W32) : minMaxLt u v = true ↔ ¬ AtMost Config.minMaxSigned v u := by
  cases h : Config.minMaxSigned
  · simp [minMaxLt, AtMost, h, BitVec.ult, BitVec.le_def]
  · simp [minMaxLt, AtMost, h, BitVec.slt]

theorem atMost_of_minMaxLt (h : minMaxLt u v = true) : AtMost Config.minMaxSigned u v := by
  have hnot := (minMaxLt_iff u v).mp h
  cases hs : Config.minMaxSigned
  · rw [hs] at hnot
    exact Nat.le_of_not_le hnot
  · rw [hs] at hnot
    exact Int.le_of_not_le hnot

theorem atMost_of_not_minMaxLt (h : ¬ minMaxLt u v = true) : AtMost Config.minMaxSigned v u :=
  not_not.mp (mt (minMaxLt_iff u v).mpr h)

/-- The order that MIN and MAX go by is one of the two (log 11). -/
theorem aluEval_min : ∃ r, aluEval .min u v c = (r, none) ∧ (r = u ∨ r = v)
    ∧ ∃ signed : Bool, if signed then r.toInt ≤ u.toInt ∧ r.toInt ≤ v.toInt else r ≤ u ∧ r ≤ v := by
  refine ⟨_, rfl, ite_eq_or_eq .., Config.minMaxSigned, ?_⟩
  by_cases hlt : minMaxLt u v = true
  · rw [if_pos hlt]
    exact atMost_both (atMost_refl _ u) (atMost_of_minMaxLt _ _ hlt)
  · rw [if_neg hlt]
    exact atMost_both (atMost_of_not_minMaxLt _ _ hlt) (atMost_refl _ v)

theorem aluEval_max : ∃ r, aluEval .max u v c = (r, none) ∧ (r = u ∨ r = v)
    ∧ ∃ signed : Bool, if signed then u.toInt ≤ r.toInt ∧ v.toInt ≤ r.toInt else u ≤ r ∧ v ≤ r := by
  refine ⟨_, rfl, (ite_eq_or_eq ..).symm, Config.minMaxSigned, ?_⟩
  by_cases hlt : minMaxLt u v = true
  · rw [if_pos hlt]
    exact atMost_both (atMost_of_minMaxLt _ _ hlt) (atMost_refl _ v)
  · rw [if_neg hlt]
    exact atMost_both (atMost_refl _ u) (atMost_of_not_minMaxLt _ _ hlt)

/-- The rounding of a signed division is one of the two (log 11). -/
theorem aluEval_divs : ∃ r, aluEval .divs u v c = (r, none) ∧ (v = 0 → r = 0xFFFFFFFF#32)
    ∧ (v ≠ 0 → r = BitVec.ofInt 32 (u.toInt.tdiv v.toInt) ∨ r = BitVec.ofInt 32 (u.toInt.fdiv v.toInt)) := by
  refine ⟨_, rfl, fun h => if_pos h, fun h => ?_⟩
  rw [divSigned, if_neg h]
  cases Config.divFloor
  exacts [.inl rfl, .inr rfl]

theorem aluEval_rems : ∃ r, aluEval .rems u v c = (r, none) ∧ (v = 0 → r = u)
    ∧ (v ≠ 0 → r = BitVec.ofInt 32 (u.toInt.tmod v.toInt) ∨ r = BitVec.ofInt 32 (u.toInt.fmod v.toInt)) := by
  refine ⟨_, rfl, fun h => if_pos h, fun h => ?_⟩
  rw [remSigned, if_neg h]
  cases Config.divFloor
  exacts [.inl rfl, .inr rfl]

end

/-! ### What an operation writes -/

/-- An instruction that puts r in Gd and leaves SW, or gives it the flags of r. -/
theorem aluRow_of_goes {c : Instr} {s : State} {k n gd : Nat} {r sw : W32} {cv : Option (Bool × Bool)}
    (h : CoreGoes c s k n { (s.core k).setG gd r with sw := sw })
    (hsw : sw = (s.core k).sw ∨ ∃ p, (∀ q, cv = some q → p = q) ∧ sw = ((s.core k).setFlags r p).sw) :
    AluRow c s k n gd r cv := by
  intro hfree
  obtain ⟨t, ht, hcore, honly⟩ := h hfree
  exact ⟨t, ht, ⟨sw, hcore, hsw⟩, honly⟩

/-- An operation whose carry and overflow are defined may be stated without them. -/
theorem aluRow_none {c : Instr} {s : State} {k n gd : Nat} {r : W32} {cv : Option (Bool × Bool)}
    (h : AluRow c s k n gd r cv) : AluRow c s k n gd r none := by
  intro hfree
  obtain ⟨t, ht, ⟨sw, hcore, hsw⟩, honly⟩ := h hfree
  refine ⟨t, ht, ⟨sw, hcore, hsw.imp_right ?_⟩, honly⟩
  rintro ⟨p, -, hp⟩
  exact ⟨p, by simp, hp⟩

/-- An operation other than a comparison writes Gd and may set the flags. -/
theorem Core.alu_eq (x : Core) {op : AluOp} (hop : op ≠ .cmp) (gd : Nat) (u v : W32) :
    let e := aluEval op u v (x.bit Sw.c)
    ∃ sw, x.alu op gd u v = { x.setG gd e.1 with sw := sw }
      ∧ (sw = x.sw ∨ ∃ p, (∀ q, e.2 = some q → p = q) ∧ sw = (x.setFlags e.1 p).sw) := by
  unfold Core.alu
  dsimp only
  rw [if_neg hop]
  split
  · refine ⟨_, rfl, .inr ⟨_, ?_, rfl⟩⟩
    rintro q hq
    rw [hq]
    rfl
  · exact ⟨_, rfl, .inl rfl⟩

section
variable {c : Instr} {s : State} {k n gd : Nat} {single : Bool} {op : AluOp} {u v r : W32} {cv : Option (Bool × Bool)}

/-- The row of an operation, from its result. -/
theorem aluRow_of_alu {g : Core → Core}
    (hc : exec c s = .next (s.instr k n true single (fun s x => .done (s.setCore k (g x)) none)))
    (hg : g (s.core k) = (s.core k).alu op gd u v) (hop : op ≠ .cmp) (he : aluEval op u v ((s.core k).bit Sw.c) = (r, cv)) :
    AluRow c s k n gd r cv := by
  obtain ⟨sw, halu, hsw⟩ := (s.core k).alu_eq hop gd u v
  rw [he] at halu hsw
  refine aluRow_of_goes (coreGoes_of_done hc ?_ rfl rfl) hsw
  rw [hg, halu]

/-- A comparison writes the flags alone (R237). -/
theorem coreGoes_of_cmp {g : Core → Core}
    (hc : exec c s = .next (s.instr k n true single (fun s x => .done (s.setCore k (g x)) none)))
    (hg : g (s.core k) = (s.core k).alu .cmp gd u v) : CoreGoes c s k n
      ((s.core k).setFlags (u - v) (decide (u.toNat < v.toNat), u.msb != v.msb && (u - v).msb != u.msb)) := by
  refine coreGoes_of_done hc ?_ rfl rfl
  have he := aluEval_cmp u v ((s.core k).bit Sw.c)
  rw [aluEval_sub] at he
  rw [hg, Core.alu, he]
  rfl

/-- A shift class result goes to Gd (R236). -/
theorem aluRow_of_shift {num : Nat} {a b : W32} {g : Core → Core} (hc : exec c s = .next (s.plainInstr k n g))
    (hg : g (s.core k) = (s.core k).shiftResult num gd a b r) : AluRow c s k n gd r none := by
  unfold Core.shiftResult at hg
  dsimp only at hg
  split at hg
  · exact aluRow_of_goes (coreGoes_of_plain hc hg rfl rfl) (.inr ⟨_, by simp, rfl⟩)
  · exact aluRow_of_goes (coreGoes_of_plain hc hg rfl rfl) (.inl rfl)

/-- An operation on two general registers. -/
theorem aluRow_of_aluOp {k : Nat} {d a b : Gn} {op : AluOp} (hc : exec c s = .next (s.aluOp k op d a b)) (hop : op ≠ .cmp)
    (he : aluEval op ((s.core k).gr a.toNat) ((s.core k).gr b.toNat) ((s.core k).bit Sw.c) = (r, cv)) :
    AluRow c s k 4 d.toNat r cv :=
  aluRow_of_alu (g := fun x => x.alu op d.toNat (x.gr a.toNat) (x.gr b.toNat)) hc rfl hop he

end

/-- An operation with an immediate operand. -/
theorem aluRow_immediate (s : State) (k : CoreId) (d a : Gn) {op : AluOp} (hop : op ≠ .cmp) (i : Imm) {r : W32}
    {cv : Option (Bool × Bool)} (he : aluEval op ((s.core k).gr a.toNat) (immValue i).2 ((s.core k).bit Sw.c) = (r, cv)) :
    AluRow (.aluImmediate k (some op) d a i) s k (immValue i).1 d.toNat r cv :=
  aluRow_of_alu (g := fun x => x.alu op d.toNat (x.gr a.toNat) (immValue i).2) rfl rfl hop he

theorem aluRow_movi (s : State) (k : CoreId) (d : Gn) (i : Imm) :
    AluRow (.movi k d i) s k (immValue i).1 d.toNat (immValue i).2 none :=
  aluRow_of_alu (op := .mov) (u := (immValue i).2) (v := 0) (g := fun x => x.alu .mov d.toNat (immValue i).2 0) rfl rfl
    (by decide) rfl

/-- imm14 with its top bit clear is the operand itself. -/
theorem immValue_short {i : BitVec 14} (h : i.msb = false) : immValue (.short i) = (4, i.zeroExtend 32) := by
  simp [immValue, h]

/-- What a bit field extract or insert gives is open (log 11). -/
theorem aluRow_bitField {c : Instr} {s : State} {k num gd : Nat} {a b r : Core → W32}
    (hc : exec c s = .next (s.plainInstr k 4 (fun x => x.shiftResult num gd (a x) (b x) (r x)))) :
    AluRow c s k 4 gd (r (s.core k)) none := aluRow_of_shift hc rfl

theorem exec_bitFieldExtract (s : State) (k : CoreId) (f : ShiftFields) : exec (.bitFieldExtract k f) s
    = .next (s.plainInstr k 4 (fun x => x.shiftResult 37 f.gd.toNat (x.gr f.gs.toNat) (x.amount f)
        (Config.bitFieldExtract (x.gr f.gs.toNat) (x.amount f) f.low))) := rfl

theorem exec_bitFieldInsert (s : State) (k : CoreId) (f : ShiftFields) : exec (.bitFieldInsert k f) s
    = .next (s.plainInstr k 4 (fun x => x.shiftResult 38 f.gd.toNat (x.gr f.gs.toNat) (x.amount f)
        (Config.bitFieldInsert (x.gr f.gd.toNat) (x.gr f.gs.toNat) (x.amount f) f.low))) := rfl

theorem aluRow_shiftOp {c : Instr} {s : State} {k : Nat} {f : ShiftFields} {op : ShiftOp}
    (hc : exec c s = .next (s.shiftOp k op f)) :
    let x := s.core k
    let n := x.amount f
    AluRow c s k 4 f.gd.toNat
      (if n.toNat < 32 then op.eval (x.gr f.gs.toNat) n.toNat else Config.wideShift op.num (x.gr f.gs.toNat) n) none :=
  aluRow_of_shift hc rfl

theorem Core.amount_toNat (x : Core) (f : ShiftFields) :
    (x.amount f).toNat = if f.byReg then (x.gr f.gn.toNat).toNat else f.amount.toNat := by
  unfold Core.amount
  split
  · rfl
  · exact BitVec.toNat_setWidth_of_le (by decide)

theorem aluRow_shiftOp_narrow {c : Instr} {s : State} {k : Nat} {f : ShiftFields} {op : ShiftOp} {n : Nat}
    (hn : n = if f.byReg then ((s.core k).gr f.gn.toNat).toNat else f.amount.toNat) (hlt : n < 32)
    (hc : exec c s = .next (s.shiftOp k op f)) :
    AluRow c s k 4 f.gd.toNat (op.eval ((s.core k).gr f.gs.toNat) n) none := by
  have h := aluRow_shiftOp hc
  dsimp only at h
  rwa [Core.amount_toNat, ← hn, if_pos hlt] at h

/-- A comparison of pointers writes the flags of their difference alone (R237). -/
theorem coreGoes_pcmp (s : State) (k : CoreId) (pd ps : Pn) : let p := (s.core k).pr pd.toNat
    let q := (s.core k).pr ps.toNat
    CoreGoes (.pcmp k pd ps) s k 4
      ((s.core k).setFlags (p - q) (decide (p.toNat < q.toNat), p.msb != q.msb && (p - q).msb != p.msb)) :=
  coreGoes_of_plain rfl (by simp [subWith_eq]) rfl rfl

/-- Settles O12: each operation is its result under the one row rule of its class. -/
theorem aluOperationsAndShiftsWriteOneRegister : Obligations.alu_operations_and_shifts_write_one_register := by
  unfold Obligations.alu_operations_and_shifts_write_one_register
  refine ⟨?_, ?_⟩
  · intro s k d a b pd ps x u v c
    obtain ⟨rmin, emin, hmin⟩ := aluEval_min u v (x.bit Sw.c)
    obtain ⟨rmax, emax, hmax⟩ := aluEval_max u v (x.bit Sw.c)
    obtain ⟨rdiv, ediv, hdiv⟩ := aluEval_divs u v (x.bit Sw.c)
    obtain ⟨rrem, erem, hrem⟩ := aluEval_rems u v (x.bit Sw.c)
    refine ⟨aluRow_of_aluOp rfl (by decide) (aluEval_add u v _), aluRow_of_aluOp rfl (by decide) (aluEval_addc u v _),
      aluRow_of_aluOp rfl (by decide) (aluEval_sub u v _), aluRow_of_aluOp rfl (by decide) (aluEval_subc u v _),
      aluRow_of_aluOp rfl (by decide) rfl, aluRow_of_aluOp rfl (by decide) rfl, aluRow_of_aluOp rfl (by decide) rfl,
      aluRow_of_aluOp rfl (by decide) rfl, aluRow_of_aluOp rfl (by decide) (aluEval_neg u v _),
      aluRow_of_aluOp rfl (by decide) rfl, aluRow_of_aluOp rfl (by decide) (aluEval_mul u v _),
      ⟨rmin, hmin.1, hmin.2, aluRow_of_aluOp rfl (by decide) emin⟩,
      ⟨rmax, hmax.1, hmax.2, aluRow_of_aluOp rfl (by decide) emax⟩,
      ⟨rdiv, hdiv.1, hdiv.2, aluRow_of_aluOp rfl (by decide) ediv⟩,
      aluRow_of_aluOp rfl (by decide) (aluEval_divu u v _),
      ⟨rrem, hrem.1, hrem.2, aluRow_of_aluOp rfl (by decide) erem⟩,
      aluRow_of_aluOp rfl (by decide) (aluEval_remu u v _), ⟨_, aluRow_of_aluOp rfl (by decide) rfl⟩,
      ⟨_, aluRow_of_aluOp rfl (by decide) rfl⟩,
      coreGoes_of_cmp (g := fun x => x.alu .cmp d.toNat (x.gr a.toNat) (x.gr b.toNat)) rfl rfl, coreGoes_pcmp s k pd ps,
      fun i => aluRow_immediate s k d a (by decide) (.long i) (aluEval_add u i _), fun i hi => ?_,
      fun i => aluRow_movi s k d (.long i), fun i hi => ?_, fun i => ⟨_, aluRow_movi s k d (.short i)⟩,
      fun op i hop => aluRow_none (aluRow_immediate s k d a hop i rfl),
      fun i => coreGoes_of_cmp (g := fun x => x.alu .cmp d.toNat (x.gr a.toNat) i) rfl rfl,
      fun i hfree => raises_of_fault rfl hfree rfl⟩
    · have h := aluRow_immediate s k d a (op := .and) (by decide) (.short i) rfl
      rwa [immValue_short hi] at h
    · have h := aluRow_movi s k d (.short i)
      rwa [immValue_short hi] at h
  · intro s k f x v n g
    refine ⟨fun hn => ⟨aluRow_shiftOp_narrow (op := .shl) rfl hn rfl, aluRow_shiftOp_narrow (op := .shr) rfl hn rfl,
      aluRow_shiftOp_narrow (op := .sar) rfl hn rfl, aluRow_shiftOp_narrow (op := .rol) rfl hn rfl,
      aluRow_shiftOp_narrow (op := .ror) rfl hn rfl⟩, ?_⟩
    rintro c (rfl | rfl | rfl | rfl | rfl | rfl | rfl)
    exacts [⟨_, aluRow_shiftOp rfl⟩, ⟨_, aluRow_shiftOp rfl⟩, ⟨_, aluRow_shiftOp rfl⟩, ⟨_, aluRow_shiftOp rfl⟩,
      ⟨_, aluRow_shiftOp rfl⟩, ⟨_, aluRow_bitField (exec_bitFieldExtract s k f)⟩, ⟨_, aluRow_bitField (exec_bitFieldInsert s k f)⟩]

/-- Settles O59: the row rule of each operation, whatever its operands, and its result in the corners. -/
theorem divisionRaisesNoException : Obligations.division_raises_no_exception := by
  unfold Obligations.division_raises_no_exception
  intro s k d a b x u v
  refine ⟨?_, fun hv => ?_, fun hu hv => ?_⟩
  · simp only [List.mem_cons, List.not_mem_nil, or_false]
    rintro c (rfl | rfl | rfl | rfl) <;> exact ⟨_, aluRow_of_aluOp rfl (by decide) rfl⟩
  · have hdivs : aluEval .divs u v (x.bit Sw.c) = (0xFFFFFFFF#32, none) := by rw [hv]; rfl
    have hdivu : aluEval .divu u v (x.bit Sw.c) = (0xFFFFFFFF#32, none) := by rw [hv]; rfl
    have hrems : aluEval .rems u v (x.bit Sw.c) = (u, none) := by rw [hv]; rfl
    have hremu : aluEval .remu u v (x.bit Sw.c) = (u, none) := by rw [hv]; rfl
    exact ⟨aluRow_of_aluOp rfl (by decide) hdivs, aluRow_of_aluOp rfl (by decide) hdivu,
      aluRow_of_aluOp rfl (by decide) hrems, aluRow_of_aluOp rfl (by decide) hremu⟩
  · obtain ⟨q, eq, -, hq⟩ := aluEval_divs u v (x.bit Sw.c)
    obtain ⟨r, er, -, hr⟩ := aluEval_rems u v (x.bit Sw.c)
    have hne : v ≠ 0 := by rw [hv]; decide
    have hq' : q = 0x80000000#32 := by
      rcases hq hne with h | h <;> rw [h, hu, hv] <;> decide
    have hr' : r = 0 := by
      rcases hr hne with h | h <;> rw [h, hu, hv] <;> decide
    rw [hq'] at eq
    rw [hr'] at er
    exact ⟨aluRow_of_aluOp rfl (by decide) eq, aluRow_of_aluOp rfl (by decide) er⟩

end Sys2Proof.Machine
end
section
/-! PROOFS. Accumulators and pointer arithmetic of a core (08_tenon.md R229, R236, R240, R241). -/

namespace Sys2Proof.Machine
open Sys2Proof.Say

theorem product_unsigned (a b : W32) : product true a b = BitVec.ofInt 72 ((a.toNat * b.toNat : Nat) : Int) := by
  rw [product, if_pos rfl, BitVec.ofInt_natCast]

/-- MVC's shift rounds down (R241). -/
theorem toInt_sshiftRight_eq_div (c : BitVec 72) (n : Nat) : (c.sshiftRight n).toInt = c.toInt / 2 ^ n := by
  rw [BitVec.toInt_sshiftRight, Int.shiftRight_eq_div_pow]
  norm_cast

/-- MVC clamps with SW.sat alone, above and below (R241). -/
theorem mvcValue_fits {sat : Bool} {c : BitVec 72} {n : Nat} {v : Int} (hv : v = c.toInt / 2 ^ n)
    (h : sat = false ∨ (-2 ^ 31 ≤ v ∧ v < 2 ^ 31)) : mvcValue sat c n = (BitVec.ofInt 32 v, false) := by
  rw [mvcValue, toInt_sshiftRight_eq_div, ← hv, if_neg, if_neg]
  all_goals
    rintro ⟨hs, hlt⟩
    rcases h with h | h
    · exact absurd (h.symm.trans hs) (by decide)
    · omega

theorem mvcValue_above {sat : Bool} {c : BitVec 72} {n : Nat} {v : Int} (hv : v = c.toInt / 2 ^ n) (hs : sat = true)
    (h : 2 ^ 31 ≤ v) :
    mvcValue sat c n = (0x7FFFFFFF#32, true) := by
  rw [mvcValue, toInt_sshiftRight_eq_div, ← hv, if_neg (by omega), if_pos ⟨hs, by omega⟩]

theorem mvcValue_below {sat : Bool} {c : BitVec 72} {n : Nat} {v : Int} (hv : v = c.toInt / 2 ^ n) (hs : sat = true)
    (h : v < -2 ^ 31) :
    mvcValue sat c n = (0x80000000#32, true) := by
  rw [mvcValue, toInt_sshiftRight_eq_div, ← hv, if_pos ⟨hs, by omega⟩]

/-- What MVC leaves, from its value. -/
theorem coreGoes_mvc {s : State} {k : CoreId} {g : Gn} {c : Cn} {sh : BitVec 6} {v : W32} {clamped : Bool}
    (h : mvcValue ((s.core k).bit Sw.sat) ((s.core k).cr c.toNat) sh.toNat = (v, clamped)) : CoreGoes (.mvc k g c sh) s k 4
      (if clamped then ((s.core k).setG g.toNat v).setBit Sw.sv true else (s.core k).setG g.toNat v) := by
  refine coreGoes_of_plain rfl ?_ ?_ ?_
  · dsimp only
    rw [h]
  · split <;> rfl
  · split <;> rfl

/-- What a multiplication into an accumulator adds or takes away. -/
theorem coreGoes_accOp {i : Instr} {s : State} {k : Nat} {unsigned sub : Bool} {c : Cn} {a b : Gn} {y : BitVec 72}
    (hi : exec i s = .next (s.accOp k unsigned sub c a b))
    (hy : (if sub then (s.core k).cr c.toNat - product unsigned ((s.core k).gr a.toNat) ((s.core k).gr b.toNat)
      else (s.core k).cr c.toNat + product unsigned ((s.core k).gr a.toNat) ((s.core k).gr b.toNat)) = y) :
    CoreGoes i s k 4 ((s.core k).setC c.toNat y) := by
  subst hy
  exact coreGoes_of_plain hi rfl rfl rfl

theorem add_ofInt (x : BitVec 72) (p : Int) : x + BitVec.ofInt 72 p = BitVec.ofInt 72 (x.toInt + p) := by
  rw [BitVec.ofInt_add, BitVec.ofInt_toInt]

theorem sub_ofInt (x : BitVec 72) (p : Int) : x - BitVec.ofInt 72 p = BitVec.ofInt 72 (x.toInt - p) := by
  rw [Int.sub_eq_add_neg, BitVec.ofInt_add, BitVec.ofInt_toInt, BitVec.ofInt_neg, ← BitVec.sub_eq_add_neg]

/-- PADR's second operand, short or long. -/
def padrValue : Disp → Nat × W32
  | .short v => (4, if v.msb then Config.wideImm12 v else v.zeroExtend 32)
  | .long v => (8, v)

theorem coreGoes_padr (s : State) (k : CoreId) (pd ps : Pn) (i : Disp) : CoreGoes (.padr k pd ps i) s k (padrValue i).1
    ((s.core k).setP pd.toNat ((s.core k).pr ps.toNat + (padrValue i).2)) := by
  cases i <;> exact coreGoes_of_plain rfl rfl rfl rfl

/-- Settles O14: each instruction is the write that its clause names. -/
theorem accumulatorInstructionsAndPointerArithmetic : Obligations.accumulator_instructions_and_pointer_arithmetic := by
  unfold Obligations.accumulator_instructions_and_pointer_arithmetic
  refine ⟨?_, ?_⟩
  · intro s k c c2 a b sh x acc ps pu
    have hu : product true (x.gr a.toNat) (x.gr b.toNat) = BitVec.ofInt 72 pu := product_unsigned _ _
    refine ⟨coreGoes_accOp rfl (add_ofInt acc ps), coreGoes_accOp rfl (sub_ofInt acc ps),
      coreGoes_accOp rfl ((congrArg (acc + ·) hu).trans (add_ofInt acc pu)),
      coreGoes_accOp rfl ((congrArg (acc - ·) hu).trans (sub_ofInt acc pu)), coreGoes_of_plain rfl rfl rfl rfl,
      coreGoes_of_plain rfl (congrArg (x.setC c.toNat) hu) rfl rfl, coreGoes_of_plain rfl rfl rfl rfl,
      coreGoes_of_plain rfl rfl rfl rfl, coreGoes_of_plain rfl rfl rfl rfl, fun h => ?_, fun hs h => ?_, fun hs h => ?_⟩
    · exact coreGoes_mvc (mvcValue_fits rfl h)
    · exact coreGoes_mvc (mvcValue_above rfl hs h)
    · exact coreGoes_mvc (mvcValue_below rfl hs h)
  · intro s k pd ps g x
    refine ⟨fun i => coreGoes_padr s k pd ps (.long i), fun i hi => ?_, fun i => ⟨_, coreGoes_padr s k pd ps (.short i)⟩,
      coreGoes_of_plain rfl rfl rfl rfl, coreGoes_of_plain rfl rfl rfl rfl, coreGoes_of_plain rfl rfl rfl rfl,
      coreGoes_of_plain rfl rfl rfl rfl, coreGoes_of_plain rfl rfl rfl rfl⟩
    have h := coreGoes_padr s k pd ps (.short i)
    rwa [padrValue, hi] at h

end Sys2Proof.Machine
end
section
/-! PROOFS. Loads and stores of a core (08_tenon.md R234, R235, R244; 09_firmware.md R276). -/

namespace Sys2Proof.Machine
open Sys2Proof.Say

/-! ### Values -/

theorem leNat_lt (bs : List Byte) : leNat bs < 256 ^ bs.length := by
  induction bs with
  | nil => simp [leNat]
  | cons b bs ih =>
    have hb := b.isLt
    rw [leNat, List.length_cons, pow_succ]
    omega

theorem readLE_lt (m : Memory) (a n : Nat) : Memory.readLE m a n < 256 ^ n := by
  have h := leNat_lt (Memory.read m a n)
  rwa [Memory.length_read] at h

theorem readLE_write_self (m : Memory) (a n v : Nat) : Memory.readLE (Memory.write m a (leBytes n v)) a n = v % 256 ^ n := by
  have h := Memory.read_write_self m a (leBytes n v)
  rw [length_leBytes] at h
  rw [Memory.readLE, h, leNat_leBytes]

theorem ofInt_signed_byte (v : Nat) : BitVec.ofInt 32 (signed 8 v) = (BitVec.ofNat 8 v).signExtend 32 := by
  rw [BitVec.signExtend, BitVec.toInt_eq_toNat_cond, BitVec.toNat_ofNat, signed]
  congr 1
  split <;> split <;> omega

theorem ofInt_signed_half (v : Nat) : BitVec.ofInt 32 (signed 16 v) = (BitVec.ofNat 16 v).signExtend 32 := by
  rw [BitVec.signExtend, BitVec.toInt_eq_toNat_cond, BitVec.toNat_ofNat, signed]
  congr 1
  split <;> split <;> omega

theorem ofNat_zeroExtend {w v : Nat} (hw : w ≤ 32) (h : v < 2 ^ w) :
    BitVec.ofNat 32 v = (BitVec.ofNat w v).zeroExtend 32 := by
  refine BitVec.eq_of_toNat_eq ?_
  rw [BitVec.zeroExtend, BitVec.toNat_setWidth_of_le hw, BitVec.toNat_ofNat, BitVec.toNat_ofNat, Nat.mod_eq_of_lt h,
    Nat.mod_eq_of_lt (lt_of_lt_of_le h (Nat.pow_le_pow_right (by decide) hw))]

/-! ### Loads -/

section
variable {c : Instr} {s : State} {k : CoreId} {n : Nat} {m : MemOp}

/-- A load by what it does with the value: put on every value of n bytes, and put leaves the events that wait. -/
theorem loadRow_of_loadOp {put put' : Core → Nat → Core} (hc : exec c s = .next (s.loadOp k n m put))
    (hput : ∀ x v, v < 256 ^ n → put x v = put' x v)
    (hev : ∀ x v, (put x v).wdtPend = x.wdtPend ∧ (put x v).ipend = x.ipend) : LoadRow c s k n m put' := by
  intro a p haddr hacc
  have hacc' (hfree : Free s k (memLen m)) :
      (s.core k).access false ((s.core k).bit Sw.rp && (s.core k).bit Sw.rn) a.toNat n = none := by
    obtain ⟨-, -, -, hrp, -⟩ := hfree
    rwa [hrp, Bool.false_and]
  refine ⟨fun hspace hfree => ?_, fun hspace hreach hfree => ?_, fun hspace hreach hfree => ?_⟩
  · obtain ⟨hw, hi⟩ := hev ((s.core k).setP m.pn.toNat p) (Memory.readLE (s.core k).tcm a.toNat n)
    refine (hput _ _ (readLE_lt _ _ _)) ▸ does_gone (next := none) hc hfree ?_ hw hi
    simp only [haddr, hacc' hfree, hspace]
  · obtain ⟨hw, hi⟩ := hev ((s.core k).setP m.pn.toNat p) (s.freeBits (8 * n)).toNat
    have hbits : (s.freeBits (8 * n)).toNat < 256 ^ n := by
      have h := (s.freeBits (8 * n)).isLt
      rwa [pow_mul] at h
    have hbody := does_gone_bumpFree (next := none) hc hfree (by simp only [haddr, hacc' hfree, hspace, hreach, if_true]) hw hi
    obtain ⟨t, ht, hcore, hothers⟩ := hbody
    exact ⟨t, ht, ⟨_, (hput _ _ hbits) ▸ hcore⟩, hothers⟩
  · refine raises_of_fault hc hfree ?_
    simp only [haddr, hacc' hfree, hspace, hreach]
    rfl

/-! ### Stores -/

/-- What a store of n bytes of v leaves of a core, where the window reaches what reach says. -/
def Core.stored (x : Core) (reach : Bool) (a n v : Nat) : Core :=
  if spaceOf a = .window ∧ ¬ reach then x else x.store a (leBytes n v)

/-- A store changes the memory, or what is posted, and no register. -/
theorem Core.stored_eq (x : Core) (reach : Bool) (a n v : Nat) :
    ∃ mem po ue, x.stored reach a n v = { x with tcm := mem, posted := po, tcmUe := ue } := by
  unfold Core.stored
  split
  · exact ⟨_, _, _, rfl⟩
  · unfold Core.store
    split <;> exact ⟨_, _, _, rfl⟩

theorem Core.stored_tcm {x : Core} {reach : Bool} {a n v : Nat} (h : spaceOf a = .tcm) :
    (x.stored reach a n v).tcm = Memory.write x.tcm a (leBytes n v) ∧ (x.stored reach a n v).posted = x.posted := by
  rw [Core.stored, if_neg (by simp [h]), Core.store_tcm h]
  exact ⟨rfl, rfl⟩

theorem Core.stored_window {x : Core} {reach : Bool} {a n v : Nat} (h : spaceOf a = .window) :
    (x.stored reach a n v).tcm = x.tcm
      ∧ (x.stored reach a n v).posted = x.posted ++ if reach = true then [(a, leBytes n v)] else [] := by
  cases reach <;> simp [Core.stored, Core.store, h]

/-- A store by the register that it reads. -/
theorem storeRow_of_storeOp {get : Core → Nat} {v : Nat} (hc : exec c s = .next (s.storeOp k n m get))
    (hv : get (s.core k) = v) : StoreRow c s k n m v := by
  intro a p haddr hacc hfree
  have hacc' : (s.core k).access true ((s.core k).bit Sw.rp && (s.core k).bit Sw.rn) a.toNat n = none := by
    obtain ⟨-, -, -, hrp, -⟩ := hfree
    rwa [hrp, Bool.false_and]
  obtain ⟨mem, po, ue, hy⟩ := (s.core k).stored_eq (Config.windowReach (min k 5) a.toNat) a.toNat n v
  have hdoes := does_gone (y := ((s.core k).stored (Config.windowReach (min k 5) a.toNat) a.toNat n v).setP m.pn.toNat p)
    (next := none) hc hfree (by simp only [haddr, hacc', hv]; rfl) (by rw [hy]; rfl) (by rw [hy]; rfl)
  obtain ⟨t, ht, hcore, honly⟩ := hdoes
  refine ⟨t, ht, honly, ?_, ?_, ?_, ?_, ?_, fun q hq => ?_, fun hspace => ?_, fun hspace => ?_⟩
  · rw [hcore]
    exact Tab.get_set_self _ _ _ _
  · rw [hcore, hy]
    rfl
  · rw [hcore, hy]
    rfl
  · rw [hcore, hy]
    rfl
  · rw [hcore]
    rfl
  · rw [hcore, hy]
    exact Tab.get_set_ne _ _ _ hq
  · obtain ⟨htcm, hposted⟩ := Core.stored_tcm (x := s.core k) (reach := Config.windowReach (min k 5) a.toNat) (n := n)
      (v := v) hspace
    have htcm' : (t.core k).tcm = Memory.write (s.core k).tcm a.toNat (leBytes n v) := by
      rw [hcore]
      exact htcm
    refine ⟨by rw [htcm', readLE_write_self], by rw [hcore]; exact hposted, fun i hi => ?_⟩
    rw [htcm', Memory.byte_write_outside _ _ _ _ (by rwa [length_leBytes])]
  · rw [hcore]
    exact Core.stored_window hspace

end

/-- Settles O13: each load by its value, each store by its register, and the two faults by the access that meets them. -/
theorem loadsAndStores : Obligations.loads_and_stores := by
  unfold Obligations.loads_and_stores
  intro s k g p c m x
  refine ⟨loadRow_of_loadOp rfl (fun y v _ => by rw [ofInt_signed_byte]) (fun _ _ => ⟨rfl, rfl⟩),
    loadRow_of_loadOp rfl (fun y v hv => by rw [ofNat_zeroExtend (w := 8) (by decide) hv]) (fun _ _ => ⟨rfl, rfl⟩),
    loadRow_of_loadOp rfl (fun y v _ => by rw [ofInt_signed_half]) (fun _ _ => ⟨rfl, rfl⟩),
    loadRow_of_loadOp rfl (fun y v hv => by rw [ofNat_zeroExtend (w := 16) (by decide) hv]) (fun _ _ => ⟨rfl, rfl⟩),
    loadRow_of_loadOp rfl (fun _ _ _ => rfl) (fun _ _ => ⟨rfl, rfl⟩),
    loadRow_of_loadOp rfl (fun _ _ _ => rfl) (fun _ _ => ⟨rfl, rfl⟩),
    loadRow_of_loadOp rfl (fun _ _ _ => rfl) (fun _ _ => ⟨rfl, rfl⟩),
    storeRow_of_storeOp rfl rfl, storeRow_of_storeOp rfl rfl, storeRow_of_storeOp rfl rfl, storeRow_of_storeOp rfl rfl,
    storeRow_of_storeOp rfl rfl, fun a q f haddr hacc hfree => ?_, fun a q f haddr hacc hfree => ?_⟩
  all_goals
    refine raises_of_fault rfl hfree ?_
    obtain ⟨-, -, -, hrp, -⟩ := hfree
    simp only [x] at haddr hacc
    simp only [haddr, hrp, Bool.false_and, hacc]

end Sys2Proof.Machine
end
section
/-! PROOFS. Branches, jumps, calls and returns of a core (08_tenon.md R237, R243, R245, R264, R265). -/

namespace Sys2Proof.Machine
open Sys2Proof.Say

section
variable {s t : State} {k n : Nat}

/-- Core k is not traced. -/
def State.Untraced (s : State) (k : Nat) : Prop := s.traced k = false

theorem untraced_of_free {s : State} {k n : Nat} (h : Free s k n) : s.Untraced k := by
  obtain ⟨-, -, -, -, -, -, -, htr⟩ := h
  exact htr

namespace State.Untraced

theorem setCore (h : s.Untraced k) {j x} : (s.setCore j x).Untraced k := h
theorem setCluster (h : s.Untraced k) {c x} : (s.setCluster c x).Untraced k := h

theorem wrapAdd (h : s.Untraced k) {f v} (hf : 0x1000000 ≤ f.addr) : (s.wrapAdd f v).Untraced k :=
  (State.traced_setFld s hf _ k).trans h

theorem traceRec (h : s.Untraced k) {sub pc high} : (s.traceRec k sub pc high).Untraced k := by
  rw [State.traceRec_untraced h]
  exact h

theorem clusterCtr (h : s.Untraced k) {c sub n} : (s.clusterCtr c sub n).Untraced k :=
  (s.traced_clusterCtr c sub n k).trans h

theorem squash (h : s.Untraced k) {q} : (s.squash k q).Untraced k := by
  unfold State.squash
  split
  · exact h
  · exact (h.setCore.wrapAdd (by simp only [F.cpxSquashCycles]; omega)).traceRec.setCluster.clusterCtr

end State.Untraced

/-- A free core retires an instruction that has taken it to y and may have squashed operations. -/
theorem State.retire_squashed (h : Free s k n) {y : Core} {next : Option W32} (hcore : ∃ m, t.core k = { y with cpxsq := m })
    (hothers : ∀ j, j ≠ k → t.core j = s.core j) (ht : t.Untraced k) (hw : y.wdtPend = (s.core k).wdtPend)
    (hi : y.ipend = (s.core k).ipend) :
    (∃ m, (t.retire k n (s.core k) next).core k
        = Gone { y with cpxsq := m } (next.getD ((s.core k).pc + BitVec.ofNat 32 n)))
      ∧ ∀ j, j ≠ k → (t.retire k n (s.core k) next).core j = s.core j := by
  obtain ⟨m, hcore⟩ := hcore
  obtain ⟨-, -, -, hrp, hwdt, hipend, -, -⟩ := h
  rw [State.retire_quiet (by rw [hcore, ← hwdt, ← hw]) (by rw [hcore, ← hipend, ← hi]) ht, Core.passed_outside_repeat hrp,
    hcore]
  exact ⟨⟨m, State.setCore_self _ _ _⟩, fun j hj => (State.setCore_ne _ _ hj).trans (hothers j hj)⟩

end

/-- A free core executes a branch: only the PC and the counts of a squash change (R243). -/
theorem does_branch {s : State} {k : CoreId} {c : BitVec 4} {off : BitVec 24} {q : Squash} {taken : Bool}
    (hcond : (s.core k).cond c.toNat = some taken) (hfree : Free s k 4) : Does (.branch k c off q) s (fun t =>
      (∃ m, t.core k = Gone { s.core k with cpxsq := m }
        (if taken then (s.core k).pc + off.signExtend 32 * 4 else (s.core k).pc + 4))
      ∧ ∀ j, j ≠ (k : Nat) → t.core j = s.core j) := by
  have htr : s.Untraced k := untraced_of_free hfree
  have hnext : (if taken then some ((s.core k).pc + off.signExtend 32 * 4) else none).getD ((s.core k).pc + BitVec.ofNat 32 4)
      = if taken then (s.core k).pc + off.signExtend 32 * 4 else (s.core k).pc + 4 := by
    cases taken <;> rfl
  refine does_of_done rfl hfree (by simp only [hcond, State.traceRec_untraced htr]; rfl) ?_
  rw [← hnext]
  split
  · exact State.retire_squashed hfree ⟨_, rfl⟩ (fun _ _ => rfl) htr rfl rfl
  · obtain ⟨hcore, hothers, -⟩ := (State.Squashes.refl (s := s)).squash (k := k) (q := q)
    exact State.retire_squashed hfree hcore hothers htr.squash rfl rfl

/-- A free core that only goes elsewhere. -/
theorem does_jump {s : State} {k n : Nat} {c : Instr} {rep single : Bool} {body : State → Core → Did} {target : W32}
    (hc : exec c s = .next (s.instr k n rep single body)) (hfree : Free s k n)
    (hb : body s (s.core k) = .done s (some target)) : Does c s (fun t =>
      t.core k = Gone (s.core k) target ∧ OnlyCore k s t) := by
  refine does_of_done hc hfree hb ?_
  rw [State.retire_free (t := s) hfree rfl rfl rfl]
  exact ⟨State.setCore_self _ _ _, onlyCore_setCore s k _⟩

/-! ### Calls and returns -/

theorem does_callTo {s : State} {k n : Nat} {c : Instr} {target : Core → W32} (hc : exec c s = .next (s.callTo k n target))
    (hfree : Free s k n) (hfits : (s.core k).Fits) : Does c s (fun t =>
      t.core k = Gone ((s.core k).pushed ((s.core k).pc + BitVec.ofNat 32 n)) (target (s.core k)) ∧ OnlyCore k s t) := by
  obtain ⟨ue, hy, -⟩ := Core.pushed_eq hfits ((s.core k).pc + BitVec.ofNat 32 n)
  refine does_gone (next := some _) hc hfree ?_ (by rw [hy]) (by rw [hy])
  simp only [Core.push_fits hfits]

theorem State.popWord_tcm {s : State} {x : Core} {a : W32} (hn : a.toNat % 4 = 0) (ha : a.toNat < 0x20000)
    (hr : x.allowed 0 a.toNat = true) (hue : x.tcmUe.contains (a.toNat / 8) = false) :
    s.popWord x a = .ok (BitVec.ofNat 32 (Memory.readLE x.tcm a.toNat 4), s) := by
  rw [State.popWord, Core.access_word hn ha hr hue, spaceOf_tcm ha]

/-- Settles O15: each transfer of control by what it does to the core. -/
theorem controlFlow : Obligations.control_flow := by
  unfold Obligations.control_flow
  intro s k p q x
  refine ⟨fun c off taken hcond hfree => ?_, fun off hfree => ?_, fun off hfree => ?_, fun hfree => ?_, ?_,
    fun hfree hreach hal hin hue => ?_⟩
  · obtain ⟨t, ht, ⟨m, hcore⟩, hothers⟩ := does_branch (off := off) (q := q) hcond hfree
    refine ⟨t, ht, ?_, ?_, ?_, ?_, ?_, hothers⟩ <;> rw [hcore] <;> rfl
  · exact raises_of_fault rfl hfree rfl
  · exact does_jump rfl hfree rfl
  · exact does_jump rfl hfree rfl
  · rintro off n target c hc hfree hreach hal hroom hin hlim
    have hfits : x.Fits := ⟨hal, hroom, hin, hlim, fun a ha => (hreach 1 a (by decide) ha).1⟩
    have hdoes : Does c s (fun t => t.core k = Gone (x.pushed (x.pc + BitVec.ofNat 32 n)) target ∧ OnlyCore k s t) := by
      rcases hc with ⟨rfl, rfl, rfl⟩ | ⟨rfl, rfl, rfl⟩
      · exact does_callTo (target := fun x => x.pc + (targetValue off).2 * 4) rfl hfree hfits
      · exact does_callTo (target := fun x => x.pr p.toNat) rfl hfree hfits
    obtain ⟨t, ht, hcore, honly⟩ := hdoes
    obtain ⟨ue, hy, -⟩ := Core.pushed_eq hfits (x.pc + BitVec.ofNat 32 n)
    rw [hy] at hcore
    refine ⟨t, ht, ?_, ?_, ?_, fun a ha => ?_, ?_, ?_, fun r hr => ?_, honly⟩ <;> rw [hcore]
    · rfl
    · exact Tab.get_set_self _ _ _ _
    · exact readLE_write_word _ _ _
    · exact Memory.byte_write_outside _ _ _ _ (by rw [length_leBytes]; omega)
    · rfl
    · rfl
    · exact Tab.get_set_ne _ _ _ hr
  · have hpop : s.popWord (s.core k) ((s.core k).pr 7) = _ := State.popWord_tcm (s := s) hal hin (hreach 0 _ (by decide) hin).1 hue
    exact does_gone (next := some _) rfl hfree (by simp only [hpop]; rfl) rfl rfl

end Sys2Proof.Machine
end
section
/-! PROOFS. System registers, privilege, TRAP, RETI, HALT and the watchdog's kick (08_tenon.md R232, R239, R246, R258). -/

namespace Sys2Proof.Machine
open Sys2Proof.Say

section
variable {s : State} {k : CoreId} {g : Gn} {n : BitVec 10}

/-- What the mode may not do raises PRIVILEGE (R239). -/
theorem raises_privilege {c : Instr} {rep single : Bool} {body : State → Core → Did}
    (hc : exec c s = .next (s.instr k 4 rep single body)) (hfree : Free s k 4) (hb : body s (s.core k) = .fault privilege) :
    Raises c s k (CoreFault.plain 2) (s.core k).pc := raises_of_fault hc hfree hb

/-! ### MFS and MTS -/

/-- MTS is an ordinary instruction but where kernel mode kicks the watchdog with another value (R258). -/
theorem exec_mts (h : n ≠ 0x41 ∨ (s.core k).gr g.toNat = 0xA5C3 ∨ (s.core k).bit Sw.priv = false) :
    exec (.mts k g n) s = .next (s.instr k 4 false false (fun u x =>
      if !x.bit Sw.priv && n != 0 then .fault privilege
      else if n = 0x41 then
        .done (u.setCore k (if (s.core k).gr g.toNat = 0xA5C3 then
          { x with wdtLeft := x.wdtLoad.toNat * 1000, wdtFirst := false } else x)) none
      else .done (u.setCore k (x.setSysReg n.toNat ((s.core k).gr g.toNat))) none)) := by
  have hordinary : ¬ (n = 0x41 ∧ (s.core k).gr g.toNat ≠ 0xA5C3 ∧ (s.core k).alive ∧ (s.core k).bit Sw.priv
      ∧ ¬ (s.core k).waiting ∧ ¬ (s.core k).skip ∧ ¬ (s.core k).bit Sw.rp ∧ ((s.core k).fetchFault 4).isNone) := by
    rintro ⟨hn, hv, -, hp, -⟩
    rcases h with h | h | h
    · exact h hn
    · exact hv h
    · exact absurd (h.symm.trans hp) (by decide)
  exact congrArg Host.Outcome.next (if_neg hordinary)

/-- No system register holds what waits at a core but ipend, which is RO. -/
theorem Core.setSysReg_events (x : Core) (n : Nat) (v : W32) :
    (x.setSysReg n v).wdtPend = x.wdtPend ∧ (x.setSysReg n v).ipend = x.ipend := by
  unfold Core.setSysReg
  dsimp only
  split
  · split
    · exact ⟨rfl, rfl⟩
    · split <;> exact ⟨rfl, rfl⟩
  · split
    · exact ⟨rfl, rfl⟩
    · cases x.cfg.getLsbD 3 <;> split <;> exact ⟨rfl, rfl⟩

theorem coreGoes_mts (hp : (s.core k).bit Sw.priv = true) (hn : n ≠ 0x41) :
    CoreGoes (.mts k g n) s k 4 ((s.core k).setSysReg n.toNat ((s.core k).gr g.toNat)) := by
  obtain ⟨hw, hi⟩ := (s.core k).setSysReg_events n.toNat ((s.core k).gr g.toNat)
  refine coreGoes_of_done (exec_mts (.inl hn)) ?_ hw hi
  simp only [hp, Bool.not_true, Bool.false_and, Bool.false_eq_true, if_false, hn]

/-- MTS to SW: kernel mode writes it, component mode bits [5:0] alone (R232). -/
theorem coreGoes_mts_sw : CoreGoes (.mts k g 0) s k 4 { s.core k with
    sw := if (s.core k).bit Sw.priv then (s.core k).gr g.toNat &&& swMask
      else ((s.core k).sw &&& ~~~0x3F#32) ||| ((s.core k).gr g.toNat &&& 0x3F#32) } := by
  refine coreGoes_of_done (exec_mts (.inl (by decide))) ?_ rfl rfl
  simp only [bne_self_eq_false, Bool.and_false, Bool.false_eq_true, if_false]
  rfl

/-- The kick of the right value (R258). -/
theorem coreGoes_kick (hp : (s.core k).bit Sw.priv = true) (hv : (s.core k).gr g.toNat = 0xA5C3) :
    CoreGoes (.mts k g 0x41) s k 4
      { s.core k with wdtLeft := (s.core k).wdtLoad.toNat * 1000, wdtFirst := false } := by
  refine coreGoes_of_done (exec_mts (.inr (.inl hv))) ?_ rfl rfl
  simp only [hp, hv, Bool.not_true, Bool.false_and, Bool.false_eq_true, if_false, if_true]

/-- The kick of another value resets the core (R258). -/
theorem does_wrongKick (hp : (s.core k).bit Sw.priv = true) (hv : (s.core k).gr g.toNat ≠ 0xA5C3) (hfree : Free s k 4) :
    Does (.mts k g 0x41) s (fun t =>
      t.core k = (s.core k).restarted (Tab.get [] s.fw.cache k) (Tab.get 0 s.fw.wdt k)) := by
  obtain ⟨hal, hwait, hskip, hrp, -, -, hfetch, -⟩ := hfree
  have hkick : (0x41 : BitVec 10) = 0x41 ∧ (s.core k).gr g.toNat ≠ 0xA5C3 ∧ (s.core k).alive ∧ (s.core k).bit Sw.priv
      ∧ ¬ (s.core k).waiting ∧ ¬ (s.core k).skip ∧ ¬ (s.core k).bit Sw.rp ∧ ((s.core k).fetchFault 4).isNone := by
    exact ⟨rfl, hv, by simp [hal, hp, hwait, hskip, hrp, hfetch]⟩
  refine ⟨_, congrArg Host.Outcome.next (if_pos hkick), (State.report_core _ _).trans ?_⟩
  unfold State.restartCore
  dsimp only
  split
  · exact (State.setFlag_core _ _ _ _).trans (State.setCore_self _ _ _)
  · exact State.setCore_self _ _ _

theorem coreGoes_mfs {v : W32} (hp : (s.core k).bit Sw.priv = true ∨ openSysReg n.toNat = true)
    (hv : (s.core k).sysReg k n.toNat = some v) : CoreGoes (.mfs k g n) s k 4 ((s.core k).setG g.toNat v) := by
  refine coreGoes_of_done rfl ?_ rfl rfl
  have hmay : (!(s.core k).bit Sw.priv && !openSysReg n.toNat) = false := by
    rcases hp with hp | hp <;> simp [hp]
  simp only [hmay, hv, Bool.false_eq_true, if_false]

/-! ### TRAP and RETI -/

/-- A free core takes TRAP as an exception behind it. -/
theorem exec_trap (q : Squash) (hfree : Free s k 4) : exec (.trap k q) s
    = .next (s.takeException k (.plain 8) ((s.core k).pc + 4) (some q)) := by
  obtain ⟨hal, hwait, hskip, hrp, -, -, hfetch, -⟩ := hfree
  have htaken : ((s.core k).alive && !(s.core k).waiting && !(s.core k).skip && !(s.core k).bit Sw.rp
      && ((s.core k).fetchFault 4).isNone) = true := by
    simp [hal, hwait, hskip, hrp, hfetch]
  exact congrArg Host.Outcome.next (if_pos htaken)

theorem State.enterVector_none {s : State} {k vector : Nat} {resume : W32} {prio : Option Nat} {q : Option Squash} {x : Core}
    (hx : s.core k = x) (h : x.enter vector resume prio (s.freeBits 32) = none) :
    s.enterVector k vector resume prio q = (s.kill k q).lockup k := by
  unfold State.enterVector
  dsimp only
  rw [hx, h]

/-- Without room for a frame the core locks up (R247). -/
theorem State.takeException_misaligned {s : State} {k : Nat} (f : CoreFault) (resume : W32) (q : Option Squash)
    (h : ((s.core k).pr 7).toNat % 4 ≠ 0) : ((s.takeException k f resume q).core k).lockup = true
      ∧ RoutineOver s (s.takeException k f resume q) := by
  obtain ⟨-, -, -, hroutine⟩ := s.abandonRoutine_keeps k
  have hpush : ((s.core k).caused f).push resume = .error ⟨3, some ((s.core k).pr 7).toNat, 0⟩ := if_pos h
  have henter (answer : W32) : ((s.core k).caused f).enter f.vector resume none answer = none := by
    rw [Core.enter, hpush]
  rw [State.takeException_eq]
  refine ⟨?_, routineOver_of_benches hroutine (State.enterVector_benches _ _ _ _ _ _)⟩
  rw [State.enterVector_none (State.setCore_self _ _ _) (henter _)]
  exact State.lockup_core _ _

/-- The core after RETI's two reads: P7 is up by 8 and SW is the word of the frame (R246). -/
def Core.returned (x : Core) (sw : W32) : Core := { (x.setP 7 (x.pr 7 + 8)) with sw := sw &&& swMask }

/-- RETI in kernel mode, with both words of the frame readable. -/
theorem does_reti {q : Squash} (hp : (s.core k).bit Sw.priv = true) (hfree : Free s k 4) (hreach : Reachable (s.core k))
    (hal : ((s.core k).pr 7).toNat % 4 = 0) (hin : ((s.core k).pr 7).toNat + 8 ≤ 0x20000)
    (hlow : (s.core k).tcmUe.contains (((s.core k).pr 7).toNat / 8) = false)
    (hhigh : (s.core k).tcmUe.contains ((((s.core k).pr 7).toNat + 4) / 8) = false) : Does (.reti k q) s (fun t =>
      (∃ m, t.core k = Gone
        { (s.core k).returned (BitVec.ofNat 32 (Memory.readLE (s.core k).tcm ((s.core k).pr 7).toNat 4)) with cpxsq := m }
        (BitVec.ofNat 32 (Memory.readLE (s.core k).tcm (((s.core k).pr 7).toNat + 4) 4)))
      ∧ ∀ j, j ≠ (k : Nat) → t.core j = s.core j) := by
  have hup : ((s.core k).pr 7 + 4).toNat = ((s.core k).pr 7).toNat + 4 := by bv_omega
  have hfirst := State.popWord_tcm (s := s) hal (by omega) (hreach 0 _ (by decide) (by omega)).1 hlow
  have hsecond := State.popWord_tcm (s := s) (x := s.core k) (a := (s.core k).pr 7 + 4) (by omega) (by omega)
    (hreach 0 _ (by decide) (by omega)).1 (by rwa [hup])
  have htr : s.Untraced k := untraced_of_free hfree
  rw [hup] at hsecond
  generalize BitVec.ofNat 32 (Memory.readLE (s.core k).tcm ((s.core k).pr 7).toNat 4) = sw at hfirst ⊢
  generalize BitVec.ofNat 32 (Memory.readLE (s.core k).tcm (((s.core k).pr 7).toNat + 4) 4) = pc at hsecond ⊢
  have hsquashed : (s.setCore k ((s.core k).returned sw)).Squashes k
      (((s.setCore k ((s.core k).returned sw)).traceRec k 3 (s.core k).pc.toNat 0).squash k q) :=
    State.Squashes.refl.traceRec.squash
  obtain ⟨hcore, hothers, -⟩ := hsquashed
  rw [State.setCore_self] at hcore
  have hret := State.retire_squashed (next := some pc) hfree hcore
    (fun j hj => (hothers j hj).trans (State.setCore_ne _ _ hj)) htr.setCore.traceRec.squash rfl rfl
  refine does_of_done rfl hfree ?_ hret
  simp only [hp, Bool.not_true, Bool.false_eq_true, if_false, hfirst, hsecond, Core.returned]

end

/-- Settles O16: each instruction in the mode that may execute it, and PRIVILEGE in the other. -/
theorem systemRegistersAndPrivilege : Obligations.system_registers_and_privilege := by
  unfold Obligations.system_registers_and_privilege
  intro s k g n q
  dsimp only
  refine ⟨fun v hp hv => coreGoes_mfs hp hv, fun hp hn hfree => ?_, fun hn hp hfree => ?_, fun hp hn _ => coreGoes_mts hp hn,
    fun hfree => ?_, fun hp hn hfree => ?_, fun hp hv => coreGoes_kick hp hv, fun hp hv hfree => does_wrongKick hp hv hfree,
    fun hfree => ?_, fun hfree hal => ?_, fun hp hfree => ?_, fun hp hfree hreach hal hin hlow hhigh => ?_, fun hp => ?_,
    fun hp hfree => ?_⟩
  · refine raises_privilege rfl hfree ?_
    simp only [hp, hn]
    rfl
  · obtain ⟨t, ht, hcore, hrest, -⟩ := does_gone_bumpFree (c := .mfs k g n) (next := none)
      (y := (s.core k).setG g.toNat (s.freeBits 32)) rfl hfree
      (by simp only [hp, hn]; rfl) rfl rfl
    exact ⟨t, ht, ⟨_, hcore⟩, hrest⟩
  · obtain ⟨t, ht, hcore, honly⟩ := coreGoes_mts_sw (g := g) hfree
    refine ⟨t, ht, ?_, ?_, ?_, ?_, honly⟩ <;> rw [hcore] <;> rfl
  · refine raises_privilege (exec_mts (.inr (.inr hp))) hfree ?_
    simp only [hp, bne_iff_ne.mpr hn]
    rfl
  · exact raises_of_takeException (exec_trap q hfree) rfl rfl rfl
  · obtain ⟨hlockup, hroutine⟩ := State.takeException_misaligned (.plain 8) ((s.core k).pc + 4) (some q) hal
    exact ⟨_, exec_trap q hfree, hlockup, hroutine⟩
  · refine raises_privilege rfl hfree ?_
    simp only [hp]
    rfl
  · obtain ⟨t, ht, ⟨m, hcore⟩, hothers⟩ := does_reti (q := q) hp hfree hreach hal hin hlow hhigh
    refine ⟨t, ht, ?_, ?_, ?_, ?_, ?_, hothers⟩ <;> rw [hcore]
    · rfl
    · rfl
    · exact Tab.get_set_self _ _ _ _
    · rfl
    · rfl
  · refine coreGoes_of_done rfl ?_ rfl rfl
    simp only [hp]
    rfl
  · refine raises_privilege rfl hfree ?_
    simp only [hp]
    rfl

theorem getLsbD_flagsMask (i : Nat) : (0x3F#32).getLsbD i = decide (i < 6) := by
  by_cases hi : i < 32
  · have hall : ∀ j : Fin 32, (0x3F#32).getLsbD j = decide (j.val < 6) := by decide
    exact hall ⟨i, hi⟩
  · rw [BitVec.getLsbD_of_ge _ _ (by omega), eq_comm, decide_eq_false_iff_not]
    omega

/-- Settles O60: the write of SW in component mode, bit by bit. -/
theorem componentModeChangesSixBitsOfSw : Obligations.component_mode_changes_six_bits_of_sw := by
  unfold Obligations.component_mode_changes_six_bits_of_sw
  intro s k g hp hfree
  obtain ⟨t, ht, hcore, honly⟩ := coreGoes_mts_sw (g := g) hfree
  rw [hp] at hcore
  have hsw (i : Nat) : (t.core k).sw.getLsbD i
      = if i < 6 then ((s.core k).gr g.toNat).getLsbD i else (s.core k).sw.getLsbD i := by
    rw [hcore]
    show (((s.core k).sw &&& ~~~0x3F#32) ||| ((s.core k).gr g.toNat &&& 0x3F#32)).getLsbD i = _
    rw [BitVec.getLsbD_or, BitVec.getLsbD_and, BitVec.getLsbD_not, BitVec.getLsbD_and, getLsbD_flagsMask]
    by_cases hi : i < 32
    · split <;> simp [*]
    · rw [BitVec.getLsbD_of_ge _ _ (by omega), BitVec.getLsbD_of_ge _ _ (by omega)]
      simp
  refine ⟨t, ht, fun i hi => ?_, fun i hi => ?_, ?_, ?_, ?_, ?_, ?_, ?_, honly⟩
  · rw [hsw, if_pos hi]
  · rw [hsw, if_neg (by omega)]
  all_goals
    rw [hcore]
    rfl

end Sys2Proof.Machine
end
section
/-! PROOFS. FENCE, WAIT and the repeat prefixes (08_tenon.md R244, R251 to R254). -/

namespace Sys2Proof.Machine
open Sys2Proof.Say

section
variable {s : State} {k : CoreId}

/-- REP, REPG or REPN that starts a repeat of n iterations. -/
theorem coreGoes_startRepeat {c : Instr} {n : Nat} {rn rep single : Bool} {body : State → Core → Did}
    (hc : exec c s = .next (s.instr k 4 rep single body))
    (hb : body s (s.core k) = .done (s.setCore k ((s.core k).startRepeat n rn)) none) :
    CoreGoes c s k 4 ((s.core k).startRepeat n rn) := coreGoes_of_done hc hb rfl rfl

/-- SW.rp and SW.rn say that a repeat is under way, and of which kind. -/
theorem Core.startRepeat_bits (x : Core) (n : Nat) (rn : Bool) :
    (x.startRepeat n rn).bit Sw.rp = true ∧ (x.startRepeat n rn).bit Sw.rn = rn := by
  have hrp : (swSet (swSet x.sw Sw.rp true) Sw.rn rn).getLsbD Sw.rp = true := by
    rw [getLsbD_swSet _ (by decide), if_neg (by decide), getLsbD_swSet _ (by decide), if_pos rfl]
  have hrn : (swSet (swSet x.sw Sw.rp true) Sw.rn rn).getLsbD Sw.rn = rn := by
    rw [getLsbD_swSet _ (by decide), if_pos rfl]
  exact ⟨hrp, hrn⟩

/-- The last iteration clears SW.rp (R253). -/
theorem getLsbD_rp_repeatOver (w : W32) : (swSet (swSet w Sw.rp false) Sw.rn false).getLsbD Sw.rp = false := by
  rw [getLsbD_swSet _ (by decide), if_neg (by decide), getLsbD_swSet _ (by decide), if_pos rfl]

/-- An admitted instruction of a repeat that changes the core alone: the core passes on as the count says (R253). -/
theorem does_repeated {c : Instr} {n : Nat} {g : Core → Core} (hc : exec c s = .next (s.plainInstr k n g))
    (hal : (s.core k).alive = true) (hwait : (s.core k).waiting = false) (hskip : (s.core k).skip = false)
    (hlc : (s.core k).lc ≠ 0) (hw : (s.core k).wdtPend = false) (hi : (s.core k).ipend = 0)
    (hfetch : (s.core k).fetchFault n = none) (ht : s.traced k = false)
    (hev : (g (s.core k)).wdtPend = (s.core k).wdtPend ∧ (g (s.core k)).ipend = (s.core k).ipend) : Does c s (fun t =>
      t.core k = (g (s.core k)).passed (s.core k) ((s.core k).pc + BitVec.ofNat 32 n) ∧ OnlyCore k s t) := by
  have hissues := State.instr_issues (rep := true) (single := true)
    (body := fun s x => .done (s.setCore k (g x)) none) hal hwait hskip (fun _ => hlc) hfetch (fun _ => ⟨rfl, fun _ => rfl⟩)
  have hy : (s.setCore k (g (s.core k))).core k = g (s.core k) := State.setCore_self _ _ _
  rw [State.plainInstr, hissues, State.finish,
    State.retire_quiet (t := s.setCore k (g (s.core k))) (by rw [hy, hev.1, hw]) (by rw [hy, hev.2, hi]) ht, hy] at hc
  exact ⟨_, hc, State.setCore_self _ _ _, onlyCore_setCore_setCore s k _ _⟩

end

/-- Settles O17: REP, REPG and REPN by the repeat that each starts, and a repeated PGET by the count that it leaves. -/
theorem fencesWaitsAndRepeats : Obligations.fences_waits_and_repeats := by
  unfold Obligations.fences_waits_and_repeats
  intro s k g n
  dsimp only
  refine ⟨coreGoes_of_done rfl rfl rfl rfl, coreGoes_of_done rfl rfl rfl rfl, ?_, fun _ hz => ?_, fun hfree => ?_, ?_, ?_⟩
  · intro rn count c hc hfree
    have hstart : CoreGoes c s k 4 ((s.core k).startRepeat count rn) := by
      rcases hc with ⟨rfl, hn, rfl, rfl⟩ | ⟨rfl, hn, h64, rfl, rfl⟩ | ⟨rfl, rfl, hn, rfl⟩
      · exact coreGoes_startRepeat rfl (if_neg hn)
      · exact coreGoes_startRepeat rfl (if_neg (not_or.mpr ⟨hn, by omega⟩))
      · exact coreGoes_startRepeat rfl (by simp only [hn, if_false])
    obtain ⟨hrp, hrn⟩ := (s.core k).startRepeat_bits count rn
    obtain ⟨t, ht, hcore, honly⟩ := hstart hfree
    refine ⟨t, ht, ?_, ?_, ?_, ?_, ?_, honly⟩ <;> rw [hcore]
    · exact hrp
    · exact hrn
    · rfl
    · rfl
    · rfl
  · exact coreGoes_of_done rfl (by simp only [hz, if_true]) rfl rfl
  · exact raises_of_fault rfl hfree rfl
  · intro hal hwait hskip hrp _ hlc hw hi hfetch htr
    obtain ⟨t, ht, hcore, honly⟩ := does_repeated (c := .pget k 0 g) rfl hal hwait hskip (by rintro h; simp [h] at hlc)
      hw hi hfetch htr ⟨rfl, rfl⟩
    rw [Core.passed_again hrp hlc] at hcore
    refine ⟨t, ht, ?_, ?_, ?_, ?_, honly⟩ <;> rw [hcore]
    · rfl
    · exact hrp
    · exact Tab.get_set_self _ _ _ _
  · intro hal hwait hskip hrp _ hlc hw hi hfetch htr
    obtain ⟨t, ht, hcore, honly⟩ := does_repeated (c := .pget k 0 g) rfl hal hwait hskip (by rw [hlc]; decide) hw hi hfetch htr
      ⟨rfl, rfl⟩
    rw [Core.passed_last hrp hlc] at hcore
    refine ⟨t, ht, ?_, ?_, ?_, ?_, honly⟩ <;> rw [hcore]
    · rfl
    · exact getLsbD_rp_repeatOver _
    · exact Tab.get_set_self _ _ _ _

end Sys2Proof.Machine
end
section
/-! PROOFS. Interrupts, the watchdog and accesses without an answer (08_tenon.md R233, R246, R249, R258). -/

namespace Sys2Proof.Machine
open Sys2Proof.Say

/-! ### Time at a core -/

theorem Tab.get_map {α : Type} {d : α} {f : Nat → α → α} {k : Nat} (hf : f k d = d) (m : Tab α) :
    Tab.get d (m.map (fun p => (p.1, f p.1 p.2))) k = f k (Tab.get d m k) := by
  induction m with
  | nil => exact hf.symm
  | cons p m ih =>
    obtain ⟨j, v⟩ := p
    simp only [List.map_cons, Tab.get]
    split
    · subst k
      rfl
    · exact ih

/-- Passing time counts the cycles and the watchdog of every core. -/
theorem State.passTime_core (s : State) (n k : Nat) :
    (s.passTime n).core k = ((s.core k).countCycles k s.now n).countWdt n := by
  obtain ⟨t, -, e⟩ := s.passTime_eq n
  rw [e]
  exact Tab.get_map (d := Core.init) (f := fun k x => (x.countCycles k s.now n).countWdt n) rfl s.cores

theorem State.passTime_benches (s : State) (n : Nat) : (s.passTime n).benches = s.benches := by
  obtain ⟨t, ⟨⟨_, _, _, _, _, _, rfl⟩, -⟩, e⟩ := s.passTime_eq n
  rw [e]

/-- Core y is x but for clocks, the watchdog and interrupt lines that wait. -/
def Core.Ticked (x y : Core) : Prop := ∃ cy wl wf wp ip,
  y = { x with cycle := cy, wdtLeft := wl, wdtFirst := wf, wdtPend := wp, ipend := ip }

namespace Core.Ticked
variable {x y : Core}

theorem counted (x : Core) (k t n : Nat) : x.Ticked ((x.countCycles k t n).countWdt n) := by
  unfold Core.countWdt Core.countCycles
  split <;> split <;> exact ⟨_, _, _, _, _, rfl⟩

theorem entryFits (h : x.Ticked y) {v : Nat} (hx : EntryFits x v) : EntryFits y v := by
  obtain ⟨_, _, _, _, _, rfl⟩ := h
  exact hx

theorem entered (h : x.Ticked y) {v : Nat} {r : W32} {z : Core} (hz : Entered y v r z) : Entered x v r z := by
  obtain ⟨_, _, _, _, _, rfl⟩ := h
  exact hz

end Core.Ticked

/-! ### The watchdog (R258) -/

/-- A log record may assert a line of the NOR controller's core, and leaves the rest of the cores (09_firmware.md R276). -/
theorem State.logEvent_core (s : State) (code subject : Nat) (detail : List Byte) (k : Nat) :
    ∃ ip, (s.logEvent code subject detail).core k = { s.core k with ipend := ip } := by
  have hmark (u : State) (hu : u.cores = s.cores) : ∃ ip, (u.markLine 0 3).core k = { s.core k with ipend := ip } := by
    have hcore : u.core k = s.core k := by rw [State.core, hu, State.core]
    unfold State.markLine
    dsimp only
    split
    · exact ⟨_, hcore⟩
    · rw [State.setCore_get]
      split
      · subst k
        exact ⟨_, by rw [hcore]⟩
      · exact ⟨_, hcore⟩
  unfold State.logEvent State.logRing State.flashWrite
  dsimp only
  split
  · exact hmark _ rfl
  · exact hmark _ rfl

theorem State.logEvent_benches (s : State) (code subject : Nat) (detail : List Byte) :
    (s.logEvent code subject detail).benches = s.benches :=
  State.Has.logEvent (s := s) (P := fun w => w.benches = s.benches) rfl

theorem State.logEvent_now (s : State) (code subject : Nat) (detail : List Byte) :
    (s.logEvent code subject detail).now = s.now := by
  have hmark (u : State) : (u.markLine 0 3).now = u.now := by
    unfold State.markLine
    dsimp only
    split <;> rfl
  unfold State.logEvent State.logRing State.flashWrite
  dsimp only
  split <;> exact hmark _

/-- The first expiry raises WDT and reloads the count. -/
theorem State.expire_first {s : State} {k : Nat} {q : Option Squash} (hfirst : (s.core k).wdtFirst = false)
    (hfits : EntryFits (s.core k) 10) : let t := s.expire k q
    Entered (s.core k) 10 (s.core k).pc (t.core k) ∧ (t.core k).wdtFirst = true
      ∧ (t.core k).wdtLeft = (s.core k).wdtLoad.toNat * 1000 ∧ (t.core k).fcause = 10#32
      ∧ (t.core k).bit Sw.ie = false ∧ RoutineOver s t ∧ t.now = s.now := by
  let x := s.core k
  let u := s.setCore k { x with wdtFirst := true, wdtLeft := x.wdtLoad.toNat * 1000, wdtPend := false }
  let v := (u.logEvent 0x0106 k (leBytes 4 x.pc.toNat)).logCount 6 1
  have he : s.expire k q = v.takeException k (.plain 10) x.pc q := if_neg (by rw [hfirst]; decide)
  obtain ⟨ip, hv⟩ := u.logEvent_core 0x0106 k (leBytes 4 x.pc.toNat) k
  rw [State.setCore_self] at hv
  have hcore : v.core k = { x with wdtFirst := true, wdtLeft := x.wdtLoad.toNat * 1000, wdtPend := false, ipend := ip } := hv
  have hticked : x.Ticked (v.core k) := ⟨_, _, _, _, _, hcore⟩
  have htakes := State.takeException_takes (s := v) (k := k) (f := .plain 10) (hticked.entryFits hfits) x.pc q
  obtain ⟨hwf, hwl⟩ := htakes.watchdog
  rw [he]
  refine ⟨hticked.entered htakes.entered, ?_, ?_, htakes.fcause, htakes.ie, ?_, ?_⟩
  · rw [hwf, hcore]
  · rw [hwl, hcore]
  · exact routineOver_since (u.logEvent_benches 0x0106 k (leBytes 4 x.pc.toNat)) htakes.routine
  · exact htakes.now.trans (u.logEvent_now 0x0106 k (leBytes 4 x.pc.toNat))

/-- A watchdog that counts expires when what is left has passed. -/
theorem exec_wdtExpiry {s : State} {k : CoreId} {q : Squash} (h : (s.core k).wdtCounts = true) :
    exec (.wdtExpiry k q) s = .next (
      let u := s.passTime (s.core k).wdtLeft
      if ((u.core k).bit Sw.rp && (u.core k).bit Sw.rn) || (u.core k).skip || (u.core k).fresh.isSome then
        u.setCore k { u.core k with wdtPend := true }
      else u.expire k (some q)) := congrArg Host.Outcome.next (if_pos h)

theorem State.ticked_passTime (s : State) (k n : Nat) : (s.core k).Ticked ((s.passTime n).core k) := by
  rw [State.passTime_core]
  exact .counted _ _ _ _

/-- Passing time leaves the stage of the watchdog, its load and the PC. -/
theorem State.passTime_watchdog (s : State) (k n : Nat) : ((s.passTime n).core k).wdtFirst = (s.core k).wdtFirst
    ∧ ((s.passTime n).core k).wdtLoad = (s.core k).wdtLoad ∧ ((s.passTime n).core k).pc = (s.core k).pc := by
  rw [State.passTime_core]
  unfold Core.countWdt Core.countCycles
  split <;> split <;> exact ⟨rfl, rfl, rfl⟩

/-- What an expiry waits for does not change while time passes. -/
theorem Core.Ticked.waits {x y : Core} (h : x.Ticked y) : ((y.bit Sw.rp && y.bit Sw.rn) || y.skip || y.fresh.isSome)
    = ((x.bit Sw.rp && x.bit Sw.rn) || x.skip || x.fresh.isSome) := by
  obtain ⟨_, _, _, _, _, rfl⟩ := h
  rfl

/-! ### Interrupts (R249) -/

theorem getLsbD_line {l : Nat} (hl : l < 32) (j : Nat) : ((1#32) <<< l).getLsbD j = decide (j = l) := by
  simp only [BitVec.getLsbD_shiftLeft, BitVec.getLsbD_one]
  grind

/-- Where one line alone qualifies it is the best. -/
theorem Core.bestLine_of_single {x : Core} {l : Nat} (hl : l < 32) (hq : ∀ j, x.qualifies j = decide (j = l)) :
    x.bestLine = some l := by
  have hfold (ls : List Nat) (best : Option Nat) (hbest : best = none ∨ best = some l) :
      ls.foldl (fun best j => if x.qualifies j then
        (match best with
          | none => some j
          | some b => if x.prio b < x.prio j then some j else some b) else best) best
        = if best = some l ∨ l ∈ ls then some l else none := by
    induction ls generalizing best with
    | nil => rcases hbest with rfl | rfl <;> simp
    | cons j ls ih =>
      rw [List.foldl_cons, hq]
      by_cases hj : j = l
      · subst j
        rcases hbest with rfl | rfl <;> simp [ih]
      · simp [hj, ih best hbest, Ne.symm hj]
  exact (hfold (List.range 32) none (.inl rfl)).trans (if_pos (.inr (List.mem_range.mpr hl)))

/-- A line that is enabled, of higher priority than plev and alone is taken. -/
theorem Core.bestLine_alone {x : Core} {l : Nat} (hl : l < 32) (hp : x.ipend = 1#32 <<< l) (hen : x.ien.getLsbD l = true)
    (hie : x.bit Sw.ie = true) (hprio : x.plev < x.prio l) : x.bestLine = some l := by
  refine Core.bestLine_of_single hl fun j => ?_
  rw [Core.qualifies, hp, getLsbD_line hl, hie]
  by_cases hj : j = l
  · subst j
    simp [hen, hprio]
  · simp [hj]

theorem prio_lt (x : Core) (l : Nat) : x.prio l < 16 := bitsOf_lt _ _ 4

/-- What taking a line leaves (R246, R249). -/
theorem State.pollInterrupt_takes {s : State} {k l : Nat} {q : Option Squash} {x : Core} (hx : s.core k = x)
    (hb : x.boundary = true) (hbest : x.bestLine = some l) (hfits : EntryFits x (16 + l)) : let t := s.pollInterrupt k q
    Entered x (16 + l) x.pc (t.core k) ∧ (t.core k).ipend = x.ipend &&& ~~~(1#32 <<< l) ∧ (t.core k).plev = x.prio l
      ∧ (t.core k).waiting = false ∧ (t.core k).fcause = BitVec.ofNat 32 (16 + l) ∧ ∀ j, j ≠ k → t.core j = s.core j := by
  subst hx
  have he : s.pollInterrupt k q
      = (s.setCore k { s.core k with ipend := (s.core k).ipend &&& ~~~(1#32 <<< l) }).enterVector k (16 + l) (s.core k).pc
        (some ((s.core k).prio l)) q := by
    unfold State.pollInterrupt
    dsimp only
    rw [hb, hbest]
    rfl
  obtain ⟨y, henter, hentered, p, m, ue, pc, rfl⟩ := Core.enter_fits
    (x := { s.core k with ipend := (s.core k).ipend &&& ~~~(1#32 <<< l) }) hfits (s.core k).pc
    ((s.setCore k { s.core k with ipend := (s.core k).ipend &&& ~~~(1#32 <<< l) }).freeBits 32)
    (prio := some ((s.core k).prio l)) (by rintro _ ⟨⟩; exact prio_lt _ _)
  obtain ⟨⟨n, ht⟩, hothers, -⟩ := State.enterVector_entered (q := q) (State.setCore_self s k _) henter
  rw [he]
  refine ⟨?_, ?_, ?_, ?_, ?_, fun j hj => (hothers j hj).trans (State.setCore_ne _ _ hj)⟩ <;> rw [ht]
  · exact hentered
  · exact entrySw_plev _ (prio_lt _ _)
  · rfl

/-- Settles O18: each event by what it leaves of the core. -/
theorem coreEvents : Obligations.core_events := by
  unfold Obligations.core_events
  intro s k q
  dsimp only
  refine ⟨fun line hno => ?_, fun line hline hb hoff => ?_, fun line hline hb hpend hie hen hprio hfits => ?_,
    fun hcounts hwaits => ?_, fun hcounts hrepeat hskip hfresh hfirst hfits => ?_, fun a hal hskip hspace => ?_⟩
  · exact ⟨_, congrArg Host.Outcome.next (if_neg (by simpa using hno)), rfl⟩
  · refine ⟨_, congrArg Host.Outcome.next (if_pos (by simpa using hline)), ?_⟩
    have hnone := State.pollInterrupt_none (q := some q) (State.setCore_self s k
      { s.core k with ipend := (s.core k).ipend ||| (1#32 <<< line.toNat) }) hoff
    rw [State.raiseLine, hnone]
    exact ⟨State.setCore_self _ _ _, onlyCore_setCore s k _⟩
  · refine ⟨_, congrArg Host.Outcome.next (if_pos (by simpa using hline)), ?_⟩
    have hx := State.setCore_self s k { s.core k with ipend := (s.core k).ipend ||| (1#32 <<< line.toNat) }
    have halone : (s.core k).ipend ||| (1#32 <<< line.toNat) = 1#32 <<< line.toNat := by simp [hpend]
    obtain ⟨hentered, hclear, hplev, hwait, hcause, hothers⟩ := State.pollInterrupt_takes (q := some q) hx hb
      (Core.bestLine_alone line.isLt halone hen hie hprio) hfits
    refine ⟨hentered, hclear.trans ?_, hplev, hwait, hcause, fun j hj => (hothers j hj).trans (State.setCore_ne _ _ hj)⟩
    show ((s.core k).ipend ||| _) &&& _ = _
    rw [halone, BitVec.and_not_self]
  · have hholds : (((s.core k).bit Sw.rp && (s.core k).bit Sw.rn) || (s.core k).skip || (s.core k).fresh.isSome) = true := by
      rcases hwaits with ⟨hrp, hrn⟩ | hskip | hfresh
      · simp [hrp, hrn]
      · simp [hskip]
      · simp [hfresh]
    have he := (exec_wdtExpiry (q := q) hcounts).trans (congrArg Host.Outcome.next
      (if_pos ((s.ticked_passTime k _).waits.trans hholds)))
    exact ⟨_, he, State.setCore_self _ _ _, onlyCore_setCore _ k _, s.passTime_now _⟩
  · have hticked := s.ticked_passTime k (s.core k).wdtLeft
    have hgoes : (((s.core k).bit Sw.rp && (s.core k).bit Sw.rn) || (s.core k).skip || (s.core k).fresh.isSome) ≠ true := by
      rcases hrepeat with h | h <;> simp [h, hskip, hfresh]
    have he := (exec_wdtExpiry (q := q) hcounts).trans (congrArg Host.Outcome.next
      (if_neg (hticked.waits ▸ hgoes)))
    obtain ⟨hwf, hload, hpc⟩ := s.passTime_watchdog k (s.core k).wdtLeft
    obtain ⟨hentered, hf, hleft, hcause, hie, hroutine, hnow⟩ := State.expire_first (q := some q) (hwf.trans hfirst)
      (hticked.entryFits hfits)
    rw [hload] at hleft
    rw [hpc] at hentered
    exact ⟨_, he, hnow.trans (s.passTime_now _), hticked.entered hentered, hf, hleft, hcause, hie,
      routineOver_since (s.passTime_benches _) hroutine⟩
  · refine raises_of_takeException (q := some q) (congrArg Host.Outcome.next (if_pos ?_)) rfl rfl rfl
    simp [hal, hskip, hspace]

end Sys2Proof.Machine
end
section
/-! PROOFS. How an operation joins the queue of its cluster's coprocessor (08_tenon.md R259 to R263). -/

namespace Sys2Proof.Machine
open Sys2Proof.Say

/-! ### The queue -/

section
variable (s : State) (c : Nat)

theorem State.clusterCtr_cluster (k sub n d : Nat) : (s.clusterCtr k sub n).cluster d = s.cluster d := by
  unfold State.clusterCtr
  split <;> rfl

theorem State.clusterCtr_core (k sub n j : Nat) : (s.clusterCtr k sub n).core j = s.core j := by
  unfold State.clusterCtr
  split <;> rfl

theorem State.spendTag_self : (s.spendTag c).cluster c
    = { s.cluster c with nextTag := ((s.cluster c).nextTag + 1) % 64 } := State.setCluster_self _ _ _

theorem State.setQueue_self (q : List CpxOp) : (s.setQueue c q).cluster c = { s.cluster c with queue := q } :=
  State.setCluster_self s c _

theorem State.setQueue_ne (q : List CpxOp) {d : Nat} (h : d ≠ c) : (s.setQueue c q).cluster d = s.cluster d :=
  State.setCluster_ne s _ h

end

/-! ### The checks (R261 to R263) -/

section
variable {s : State} {c : Nat} {f : CpxFields} {count : Nat} {good : Bool} {runs : List (Nat × Nat)} {benches : List Nat}

/-- Operands past G15 are ILLEGAL before anything else is looked at. -/
theorem State.cpxCheck_past (h : 16 < f.dn.toNat + count) (onBench : Bool) :
    s.cpxCheck c onBench f count good runs benches = some illegal := by
  simp [State.cpxCheck, h]

/-- An operation on a bench that is there. -/
theorem State.cpxCheck_bench (hu : f.unit.toNat < 10) (hp : s.flag (F.bncStatusPresent (10 * c + f.unit.toNat)) = true)
    (hgood : good = true) (hn : f.dn.toNat + count ≤ 16) (hruns : ∀ p ∈ runs, p.1 + p.2 ≤ 65536) :
    s.cpxCheck c true f count good runs [] = none := by
  have hr : runs.any (fun p => decide (65536 < p.1 + p.2)) = false := by
    rw [List.any_eq_false]
    intro p hmem
    simpa using hruns p hmem
  simp only [State.cpxCheck, hgood, hp, hr]
  simp [Nat.not_lt.mpr hn, show f.unit.toNat ≠ 15 by omega, Nat.not_le.mpr hu]

/-- An operation of the mover or on a counter. -/
theorem State.cpxCheck_cluster (hu : f.unit.toNat = 15) (hn : f.dn.toNat + count ≤ 16)
    (hbenches : ∀ i ∈ benches, i < 10 ∧ s.flag (F.bncStatusPresent (10 * c + i)) = true)
    (hruns : ∀ p ∈ runs, p.1 + p.2 ≤ 65536) : s.cpxCheck c false f count true runs benches = none := by
  have hr : runs.any (fun p => decide (65536 < p.1 + p.2)) = false := by
    rw [List.any_eq_false]
    intro p hmem
    simpa using hruns p hmem
  have hb : benches.any (fun i => decide (10 ≤ i) || !s.flag (F.bncStatusPresent (10 * c + i))) = false := by
    rw [List.any_eq_false]
    intro i hmem
    obtain ⟨hlt, hpres⟩ := hbenches i hmem
    simp [hpres, hlt]
  simp only [State.cpxCheck, hu, hb, hr]
  simp [Nat.not_lt.mpr hn]

/-- One that names a bench that is not there is ABSENT. -/
theorem State.cpxCheck_absent (hu : f.unit.toNat = 15) (hn : f.dn.toNat + count ≤ 16)
    (hbenches : ∃ i ∈ benches, ¬ (i < 10 ∧ s.flag (F.bncStatusPresent (10 * c + i)) = true)) :
    s.cpxCheck c false f count true runs benches = some (cpxFault 1) := by
  have hb : benches.any (fun i => decide (10 ≤ i) || !s.flag (F.bncStatusPresent (10 * c + i))) = true := by
    obtain ⟨i, hmem, hi⟩ := hbenches
    refine List.any_eq_true.mpr ⟨i, hmem, ?_⟩
    by_cases hlt : i < 10
    · simp_all
    · simp [Nat.not_lt.mp hlt]
  simp only [State.cpxCheck, hu, hb]
  simp [Nat.not_lt.mpr hn]

/-- One whose lines pass the end of a store is LENGTH. -/
theorem State.cpxCheck_length (hu : f.unit.toNat = 15) (hn : f.dn.toNat + count ≤ 16)
    (hbenches : ∀ i ∈ benches, i < 10 ∧ s.flag (F.bncStatusPresent (10 * c + i)) = true)
    (hruns : ∃ p ∈ runs, 65536 < p.1 + p.2) : s.cpxCheck c false f count true runs benches = some (cpxFault 4) := by
  have hr : runs.any (fun p => decide (65536 < p.1 + p.2)) = true := by
    obtain ⟨p, hmem, hp⟩ := hruns
    exact List.any_eq_true.mpr ⟨p, hmem, by simpa using hp⟩
  have hb : benches.any (fun i => decide (10 ≤ i) || !s.flag (F.bncStatusPresent (10 * c + i))) = false := by
    rw [List.any_eq_false]
    intro i hmem
    obtain ⟨hlt, hpres⟩ := hbenches i hmem
    simp [hpres, hlt]
  simp only [State.cpxCheck, hu, hb, hr]
  simp [Nat.not_lt.mpr hn]

end

/-! ### Acceptance -/

/-- A CPX operation is past D and W: its tag is spent and it is counted (R262). -/
def State.passGate (s : State) (c : Nat) : State := (s.spendTag c).clusterCtr c 9 1

section
variable (s : State) (c : Nat)

theorem State.passGate_core (j : Nat) : (s.passGate c).core j = s.core j := (s.spendTag c).clusterCtr_core _ _ _ j

theorem State.passGate_self : (s.passGate c).cluster c
    = { s.cluster c with nextTag := ((s.cluster c).nextTag + 1) % 64 } :=
  ((s.spendTag c).clusterCtr_cluster _ _ _ c).trans (s.spendTag_self c)

theorem State.passGate_queue : ((s.passGate c).cluster c).queue = (s.cluster c).queue := by rw [State.passGate_self]

theorem State.passGate_ne {d : Nat} (h : d ≠ c) : (s.passGate c).cluster d = s.cluster d :=
  ((s.spendTag c).clusterCtr_cluster _ _ _ d).trans (State.setCluster_ne s _ h)

theorem State.passGate_benches : (s.passGate c).benches = s.benches := State.clusterCtr_benches _ _ _ _

theorem State.passGate_traced (k : Nat) : (s.passGate c).traced k = s.traced k := State.traced_clusterCtr _ _ _ _ _

end

/-- The operation that a CPX instruction of core k stands for, with its operands and the tag that it spends (R260, R262). -/
def State.cpxOp (s : State) (k kind : Nat) (f : CpxFields) (count : Nat) : CpxOp :=
  ⟨kind, f.unit.toNat, f.entry.toNat, f.entry2.toNat, f.sub.toNat, f.notify, (s.cluster (k - 5)).nextTag,
    (List.range count).map (fun j => (s.core k).gr (f.dn.toNat + j))⟩

/-- Operation o of core k past the gate and at the end of its queue. -/
def State.join (s : State) (k : Nat) (o : CpxOp) : State :=
  (s.passGate (k - 5)).setQueue (k - 5) ((s.cluster (k - 5)).queue ++ [o])

section
variable (s : State) (k : Nat) (o : CpxOp)

theorem State.join_core (j : Nat) : (s.join k o).core j = s.core j := s.passGate_core (k - 5) j
theorem State.join_benches : (s.join k o).benches = s.benches := s.passGate_benches (k - 5)

theorem State.join_self : (s.join k o).cluster (k - 5) = { s.cluster (k - 5) with
    nextTag := ((s.cluster (k - 5)).nextTag + 1) % 64, queue := (s.cluster (k - 5)).queue ++ [o] } := by
  rw [State.join, State.setQueue_self, State.passGate_self]

theorem State.join_ne {d : Nat} (h : d ≠ k - 5) : (s.join k o).cluster d = s.cluster d :=
  ((s.passGate (k - 5)).setQueue_ne (k - 5) _ h).trans (s.passGate_ne (k - 5) h)

theorem State.join_traced : (s.join k o).traced k = s.traced k :=
  ((s.passGate (k - 5)).traced_setQueue _ _ _).trans (s.passGate_traced (k - 5) k)

end

/-- Operation o of core k stands at the end of the queue of cluster k - 5 with its tag spent, and the core goes on. -/
def Joined (s : State) (k : Nat) (o : CpxOp) (t : State) : Prop :=
  (t.cluster (k - 5)).queue = (s.cluster (k - 5)).queue ++ [o]
    ∧ (t.cluster (k - 5)).nextTag = ((s.cluster (k - 5)).nextTag + 1) % 64
    ∧ t.core k = Gone (s.core k) ((s.core k).pc + 4) ∧ t.benches = s.benches
    ∧ (∀ j, j ≠ k → t.core j = s.core j) ∧ ∀ d, d ≠ k - 5 → t.cluster d = s.cluster d

theorem joined_join (s : State) (k : Nat) (o : CpxOp) :
    Joined s k o ((s.join k o).setCore k (Gone (s.core k) ((s.core k).pc + 4))) :=
  have hself := s.join_self k o
  ⟨congrArg Cluster.queue hself, congrArg Cluster.nextTag hself, State.setCore_self _ _ _, s.join_benches k o,
    fun j hj => (State.setCore_ne _ _ hj).trans (s.join_core k o j), fun _ hd => s.join_ne k o hd⟩

section
variable {s : State} {k : CoreId} {f : CpxFields} {i : Instr} {kind count : Nat} {onBench good : Bool}
  {runs : List W32 → List (Nat × Nat)} {benches : List W32 → List Nat} {entries : List Nat}

/-- A CPX instruction whose checks find nothing joins the queue. -/
theorem does_cpx (hc : exec i s = .next (s.cpx k kind f count onBench good runs benches entries)) (hfree : Free s k 4)
    (h5 : 5 ≤ (k : Nat)) (hq : (s.cluster (k - 5)).queue.length < 16)
    (hcheck : s.cpxCheck (k - 5) onBench f count good (runs ((s.core k).cpxArgs f.dn.toNat count))
      (benches ((s.core k).cpxArgs f.dn.toNat count)) = none)
    (hwaits : entries.any ((s.cluster (k - 5)).writesEntry f.unit.toNat) = false)
    (hbad : (if onBench then entries.findSome? (s.entryBad (10 * (k - 5) + f.unit.toNat)) else none) = none) :
    Does i s (Joined s k (s.cpxOp k kind f count)) := by
  have htr : (s.spendTag (k - 5)).Untraced k := untraced_of_free hfree
  refine does_of_done (t := s.join k (s.cpxOp k kind f count)) (next := none) hc hfree ?_ ?_
  · simp only [if_neg (Nat.not_lt.mpr h5), State.cpxGate, hcheck, hwaits, hbad, Nat.not_le.mpr hq, if_false,
      State.traceRec_untraced htr, Bool.false_eq_true, reduceCtorEq]
    rfl
  · rw [State.retire_free (t := s.join k (s.cpxOp k kind f count)) hfree (by rw [State.join_core]) (by rw [State.join_core])
      (State.join_traced _ _ _), State.join_core]
    exact joined_join s k _

/-- Operands past G15 (R261). -/
theorem raises_of_past (hc : exec i s = .next (s.cpx k kind f count onBench good runs benches entries)) (hfree : Free s k 4)
    (h5 : 5 ≤ (k : Nat)) (hpast : 16 < f.dn.toNat + count) : Raises i s k (CoreFault.plain 1) (s.core k).pc := by
  refine raises_of_fault hc hfree ?_
  simp only [if_neg (Nat.not_lt.mpr h5), State.cpxGate, State.cpxCheck_past hpast]
  rfl

/-- A fault that an accepted operation meets at its retire (R263). -/
theorem raises_of_cpxFault {n : Nat} (hc : exec i s = .next (s.cpx k kind f count onBench good runs benches entries))
    (hfree : Free s k 4) (h5 : 5 ≤ (k : Nat)) (hq : (s.cluster (k - 5)).queue.length < 16)
    (hcheck : s.cpxCheck (k - 5) onBench f count good (runs ((s.core k).cpxArgs f.dn.toNat count))
      (benches ((s.core k).cpxArgs f.dn.toNat count)) = some (cpxFault n)) : Raises i s k (cpxFault n) (s.core k).pc := by
  refine raises_of_faultIn (t := s.spendTag (k - 5)) hc hfree ?_ rfl rfl rfl
  have hlegal : some (cpxFault n) ≠ some illegal := by simp [cpxFault, illegal, CoreFault.plain]
  simp only [if_neg (Nat.not_lt.mpr h5), State.cpxGate, hcheck, if_neg hlegal, Nat.not_le.mpr hq, if_false]

end

/-! ### CRD and CWAIT (R262) -/

section
variable {s : State} {k : Nat} {x : Core} {kind : Nat} {f : CpxFields} {waits : Bool} {bad : Option Nat}
  {body : State → Did}

/-- One that has not waited and need not goes on past the gate. -/
theorem State.cpxHold_goes (hhere : (s.cluster (k - 5)).queue.any CpxOp.holds = false)
    (hq : (s.cluster (k - 5)).queue.length < 16) (htr : s.Untraced k) :
    s.cpxHold k x kind f none false none body = body (s.passGate (k - 5)) := by
  have hspent : (s.spendTag (k - 5)).traced k = false := htr
  simp only [State.cpxHold, hhere, reduceCtorEq, Bool.false_eq_true, not_false_eq_true, true_and, if_false, Nat.not_le.mpr hq,
    State.traceRec_untraced hspent, State.passGate]

/-- One that has waited leaves the queue as it goes on. -/
theorem State.cpxHold_leaves (hhere : (s.cluster (k - 5)).queue.any CpxOp.holds = true) (htr : s.Untraced k) :
    s.cpxHold k x kind f none false none body = body ((s.setQueue (k - 5)
      ((s.cluster (k - 5)).queue.filter (fun o => !o.holds))).clusterCtr (k - 5) 9 1) := by
  have hleft : (s.setQueue (k - 5) ((s.cluster (k - 5)).queue.filter (fun o => !o.holds))).traced k = false :=
    (s.traced_setQueue _ k _).trans htr
  simp only [State.cpxHold, hhere, reduceCtorEq, not_true_eq_false, false_and, if_false, if_true, Bool.false_eq_true,
    State.traceRec_untraced hleft]

/-- One that has to wait takes its place in the queue. -/
theorem State.cpxHold_queues (hhere : (s.cluster (k - 5)).queue.any CpxOp.holds = false)
    (hq : (s.cluster (k - 5)).queue.length < 16) : s.cpxHold k x kind f none true bad body
      = .waitIn ((s.spendTag (k - 5)).setQueue (k - 5) ((s.cluster (k - 5)).queue ++ [s.cpxOp k kind f 0])) := by
  simp only [State.cpxHold, hhere, reduceCtorEq, Bool.false_eq_true, not_false_eq_true, true_and, if_false, Nat.not_le.mpr hq,
    if_true]
  rfl

/-- One that has its place and still has to wait changes nothing. -/
theorem State.cpxHold_waits (hhere : (s.cluster (k - 5)).queue.any CpxOp.holds = true) :
    s.cpxHold k x kind f none true bad body = .wait := by
  simp only [State.cpxHold, hhere, reduceCtorEq, not_true_eq_false, false_and, if_false, if_true]

end

theorem State.entryBad_none {s : State} {b e : Nat} (h : Tab.get 0 (s.bench b).entryFault e = 0) : s.entryBad b e = none :=
  if_pos h

section
variable {s : State} {k : CoreId} {f : CpxFields}

/-- CRD reads a lane of its entry in an open window (R261). -/
theorem does_crd (hfree : Free s k 4) (h5 : 5 ≤ (k : Nat)) (hq : (s.cluster (k - 5)).queue.length < 16)
    (hu : f.unit.toNat < 10) (hp : s.flag (F.bncStatusPresent (10 * (k - 5) + f.unit.toNat)) = true)
    (hsub : f.sub.toNat < 16) (he2 : f.entry2 = 0) (hhere : (s.cluster (k - 5)).queue.any CpxOp.holds = false)
    (hw : (s.cluster (k - 5)).writesEntry f.unit.toNat f.entry.toNat = false)
    (ho : s.flag (F.bncStatusOpen (10 * (k - 5) + f.unit.toNat)) = true)
    (hbad : Tab.get 0 (s.bench (10 * (k - 5) + f.unit.toNat)).entryFault f.entry.toNat = 0) (hn : f.notify = false) :
    Does (.crd k f) s (fun t =>
      t.core k = Gone ((s.core k).setG f.sub.toNat (((s.bench (10 * (k - 5) + f.unit.toNat)).entry f.entry.toNat).getD
          (((s.core k).gr (f.dn.toNat + 0)).toNat % 512) 0)) ((s.core k).pc + 4)
        ∧ (t.cluster (k - 5)).queue = (s.cluster (k - 5)).queue ∧ t.benches = s.benches) := by
  let y := (s.core k).setG (f.sub.toNat % 16) (((s.bench (10 * (k - 5) + f.unit.toNat)).entry f.entry.toNat).getD
    (((s.core k).gr f.dn.toNat).toNat % 512) 0)
  have hcheck : s.cpxCheck (k - 5) true f 1 (decide (f.sub.toNat < 16) && f.entry2 == 0) [] [] = none :=
    State.cpxCheck_bench hu hp (by simp [hsub, he2]) (by have := f.dn.isLt; omega) (by simp)
  have hbench : (s.passGate (k - 5)).bench = s.bench := by
    funext b
    rw [State.bench, State.passGate_benches, State.bench]
  refine does_of_done (t := (s.passGate (k - 5)).setCore k y) (next := none) rfl hfree ?_ ?_
  · simp only [if_neg (Nat.not_lt.mpr h5), hcheck, hw, ho, State.entryBad_none hbad, Bool.not_true, Bool.or_false,
      State.cpxHold_goes hhere hq (untraced_of_free hfree), hn, hbench, Bool.false_eq_true, if_false]
    rfl
  · have hcore : ((s.passGate (k - 5)).setCore k y).core k = y := State.setCore_self _ _ _
    rw [State.retire_free (t := (s.passGate (k - 5)).setCore k y) hfree (by rw [hcore]; rfl) (by rw [hcore]; rfl)
      (s.passGate_traced _ k), hcore]
    refine ⟨?_, s.passGate_queue (k - 5), s.passGate_benches (k - 5)⟩
    rw [State.setCore_self]
    simp only [y, Nat.mod_eq_of_lt hsub]
    rfl

/-- A CWAIT that finds what it waits for goes on, and leaves the queue if it has waited in it (R261, R262). -/
theorem does_cwait {t : State} (hfree : Free s k 4) (h5 : 5 ≤ (k : Nat)) (hu : f.unit.toNat < 10)
    (hcheck : s.cpxCheck (k - 5) true f 0 true [] [] = none)
    (ho : s.flag (F.bncStatusOpen (10 * (k - 5) + f.unit.toNat)) = true)
    (hbusy : (s.cluster (k - 5)).busy f.unit.toNat = false)
    (hbad : Tab.get 0 (s.bench (10 * (k - 5) + f.unit.toNat)).entryFault f.entry.toNat = 0) (hn : f.notify = false)
    (hgo : ∀ body, s.cpxHold k (s.core k) CpxKind.cwait f none false none body = body t)
    (hcore : t.core k = s.core k) (htr : t.traced k = s.traced k) :
    Does (.cwait k f) s (fun r => r.core k = Gone (s.core k) ((s.core k).pc + 4)
      ∧ (r.cluster (k - 5)).queue = (t.cluster (k - 5)).queue ∧ r.benches = t.benches) := by
  refine does_of_done (t := t) (next := none) rfl hfree ?_ ?_
  · simp only [if_neg (Nat.not_lt.mpr h5), hu, decide_true, hcheck, hbusy, ho, State.entryBad_none hbad, Bool.not_true,
      Bool.and_false, Bool.or_false, if_true, hgo, hn, Bool.false_eq_true, if_false]
  · rw [State.retire_free hfree (by rw [hcore]) (by rw [hcore]) htr, hcore]
    exact ⟨State.setCore_self _ _ _, rfl, rfl⟩

/-- What holds where a CWAIT has to wait. -/
theorem does_cwait_waits {P : State → Prop} (hfree : Free s k 4) (h5 : 5 ≤ (k : Nat)) (hu : f.unit.toNat < 10)
    (hcheck : s.cpxCheck (k - 5) true f 0 true [] [] = none)
    (hwait : (s.cluster (k - 5)).busy f.unit.toNat = true ∨ s.flag (F.bncStatusOpen (10 * (k - 5) + f.unit.toNat)) = false)
    (h : ∀ bad body, P (s.finish k 4 (s.cpxHold k (s.core k) CpxKind.cwait f none true bad body))) :
    Does (.cwait k f) s P := by
  refine ⟨_, rfl, ?_⟩
  have hw : ((s.cluster (k - 5)).busy f.unit.toNat
      || (decide (f.unit.toNat < 10) && !s.flag (F.bncStatusOpen (10 * (k - 5) + f.unit.toNat)))) = true := by
    simpa [hu] using hwait
  rw [State.instr_free hfree]
  simp only [if_neg (Nat.not_lt.mpr h5), hw]
  simp only [hu, decide_true, hcheck]
  exact h _ _

end

/-! ### The statement -/

section
variable {s : State} {k : CoreId} {f : CpxFields}

/-- The clauses of the operations of a bench. -/
theorem does_cpx_bench {i : Instr} {kind count : Nat} {good : Bool} {runs : List W32 → List (Nat × Nat)}
    (hfree : Free s k 4) (h5 : 5 ≤ (k : Nat)) (hq : (s.cluster (k - 5)).queue.length < 16) (hu : f.unit.toNat < 10)
    (hp : s.flag (F.bncStatusPresent (10 * (k - 5) + f.unit.toNat)) = true)
    (hc : exec i s = .next (s.cpx k kind f count true good runs (fun _ => []) [])) (hgood : good = true)
    (hruns : ∀ p ∈ runs ((s.core k).cpxArgs f.dn.toNat count), p.1 + p.2 ≤ 65536) (hn : f.dn.toNat + count ≤ 16) :
    Does i s (Joined s k (s.cpxOp k kind f count)) :=
  does_cpx hc hfree h5 hq (State.cpxCheck_bench hu hp hgood hn hruns) rfl rfl

/-- The clauses of the operations of the cluster. -/
theorem does_cpx_cluster {i : Instr} {kind count : Nat} {runs : List W32 → List (Nat × Nat)} {benches : List W32 → List Nat}
    (hfree : Free s k 4) (h5 : 5 ≤ (k : Nat)) (hq : (s.cluster (k - 5)).queue.length < 16) (hu : f.unit.toNat = 15)
    (hc : exec i s = .next (s.cpx k kind f count false true runs benches []))
    (hbenches : ∀ b ∈ benches ((s.core k).cpxArgs f.dn.toNat count),
      b < 10 ∧ s.flag (F.bncStatusPresent (10 * (k - 5) + b)) = true)
    (hruns : ∀ p ∈ runs ((s.core k).cpxArgs f.dn.toNat count), p.1 + p.2 ≤ 65536) (hn : f.dn.toNat + count ≤ 16) :
    Does i s (Joined s k (s.cpxOp k kind f count)) :=
  does_cpx hc hfree h5 hq (State.cpxCheck_cluster hu hn hbenches hruns) rfl rfl

end

/-- A unit that no operation names has none outstanding. -/
theorem Cluster.busy_of_idle {x : Cluster} {u : Nat} (h : x.queue.any (fun o => o.unit == u) = false) : x.busy u = false := by
  rw [List.any_eq_false] at h
  rw [Cluster.busy, List.any_eq_false]
  intro o hmem hbusy
  exact h o hmem (Bool.and_elim_left hbusy)

/-- Where no CRD or CWAIT waits, every operation that names a unit keeps it busy. -/
theorem Cluster.busy_of_named {x : Cluster} {u : Nat} (hholds : x.queue.any CpxOp.holds = false)
    (h : x.queue.any (fun o => o.unit == u) = true) : x.busy u = true := by
  rw [List.any_eq_false] at hholds
  obtain ⟨o, hmem, hunit⟩ := List.any_eq_true.mp h
  exact List.any_eq_true.mpr ⟨o, hmem, by simp [hunit, hholds o hmem]⟩

/-- An operation of the cluster on a bench that is not there, or past the end of a store (R263). -/
theorem raises_cpx_absent {s : State} {k : CoreId} {f : CpxFields} {i : Instr} {kind count : Nat}
    {runs : List W32 → List (Nat × Nat)} {benches : List W32 → List Nat}
    (hfree : Free s k 4) (h5 : 5 ≤ (k : Nat)) (hq : (s.cluster (k - 5)).queue.length < 16) (hu : f.unit.toNat = 15)
    (hc : exec i s = .next (s.cpx k kind f count false true runs benches []))
    (hbenches : ∃ b ∈ benches ((s.core k).cpxArgs f.dn.toNat count),
      ¬ (b < 10 ∧ s.flag (F.bncStatusPresent (10 * (k - 5) + b)) = true)) (hn : f.dn.toNat + count ≤ 16) :
    Raises i s k (cpxFault 1) (s.core k).pc :=
  raises_of_cpxFault hc hfree h5 hq (State.cpxCheck_absent hu hn hbenches)

/-- Settles O19: an operation whose checks find nothing joins the queue past the gate, CRD and CWAIT wait in it for what
they name, and the checks come in the order that the faults need. -/
theorem coprocessorOperationsJoinTheQueue : Obligations.coprocessor_operations_join_the_queue := by
  intro s k f x c u b q arg joins hfree h5 hq
  refine ⟨?_, fun hu hp => ?_, fun hu => ?_⟩
  · rintro i count (⟨rfl, rfl⟩ | ⟨rfl, rfl⟩ | ⟨rfl, rfl⟩ | ⟨rfl, rfl⟩ | ⟨rfl, rfl⟩ | ⟨rfl, rfl⟩
      | ⟨rfl, rfl⟩ | ⟨rfl, rfl⟩ | ⟨rfl, rfl⟩) hpast <;> exact raises_of_past rfl hfree h5 hpast
  · have hcheck : s.cpxCheck (k - 5) true f 0 true [] [] = none :=
      State.cpxCheck_bench hu hp rfl (by have := f.dn.isLt; omega) (by simp)
    have hseq : s.traced k = false := untraced_of_free hfree
    refine ⟨fun h1 h32 hlines => ?_, fun hgood => ?_, fun hsub => ?_, fun hne => ?_, fun hcount hlines => ?_, ?_,
      fun h1 h32 hlines hw hbad hn => ?_, ?_, fun hsub he2 hhere hw ho hbad hn => ?_, fun hidle hhere ho hbad hn => ?_,
      fun hhere hwait => ?_, fun hhere hbusy => ?_, fun hhere hbusy ho hbad hn => ?_⟩
    case refine_1 =>
      exact does_cpx_bench hfree h5 hq hu hp rfl (by simp [goodLines, h1, h32]) (List.forall_mem_singleton.mpr hlines)
    case refine_2 => exact does_cpx_bench hfree h5 hq hu hp rfl hgood (by simp)
    case refine_3 => exact does_cpx_bench hfree h5 hq hu hp rfl (by simpa using hsub) (by simp)
    case refine_4 => exact does_cpx_bench hfree h5 hq hu hp rfl (by simpa using hne) (by simp)
    case refine_5 =>
      have hsmall : (if (arg 1).toNat ≤ 2 ^ 20 then 0 else 65537) + 0 ≤ 65536 := by
        rw [if_pos hcount]
        decide
      exact does_cpx_bench hfree h5 hq hu hp rfl rfl
        (List.forall_mem_cons.mpr ⟨hlines, List.forall_mem_singleton.mpr hsmall⟩)
    case refine_6 => exact does_cpx_bench hfree h5 hq hu hp rfl rfl (by simp)
    case refine_7 =>
      have hnobad : s.entryBad (10 * (k - 5) + f.unit.toNat) f.entry.toNat = none := State.entryBad_none hbad
      exact does_cpx rfl hfree h5 hq (State.cpxCheck_bench hu hp (by simp [goodLines, h1, h32]) hn
        (List.forall_mem_singleton.mpr hlines)) (by simpa using hw) (by simp [hnobad])
    case refine_8 => exact does_cpx_bench hfree h5 hq hu hp rfl rfl (by simp)
    case refine_9 => exact does_crd hfree h5 hq hu hp hsub he2 hhere hw ho hbad hn
    case refine_10 =>
      obtain ⟨t, ht, hgone, hqueue, hbenches⟩ := does_cwait hfree h5 hu hcheck ho (Cluster.busy_of_idle hidle) hbad hn
        (fun _ => State.cpxHold_goes hhere hq hseq) (s.passGate_core _ k) (s.passGate_traced _ k)
      exact ⟨t, ht, hgone, hqueue.trans (s.passGate_queue _), hbenches.trans (s.passGate_benches _)⟩
    case refine_11 =>
      refine does_cwait_waits hfree h5 hu hcheck (hwait.imp (Cluster.busy_of_named hhere) id) (fun bad body => ?_)
      rw [State.cpxHold_queues hhere hq]
      have hself := (s.spendTag (k - 5)).setQueue_self (k - 5) (q ++ [s.cpxOp k CpxKind.cwait f 0])
      rw [State.spendTag_self] at hself
      exact ⟨congrArg Cluster.queue hself, congrArg Cluster.nextTag hself, rfl, rfl⟩
    case refine_12 =>
      refine does_cwait_waits hfree h5 hu hcheck (.inl hbusy) (fun bad body => ?_)
      rw [State.cpxHold_waits hhere]
      rfl
    case refine_13 =>
      obtain ⟨t, ht, hgone, hqueue, hbenches⟩ := does_cwait hfree h5 hu hcheck ho hbusy hbad hn
        (fun _ => State.cpxHold_leaves hhere hseq) (State.clusterCtr_core _ _ _ _ _)
        ((State.traced_clusterCtr _ _ _ _ _).trans (s.traced_setQueue _ k _))
      refine ⟨t, ht, hgone, hqueue.trans ?_, hbenches.trans ?_⟩
      · rw [State.clusterCtr_cluster, State.setQueue_self]
      · exact State.clusterCtr_benches _ _ _ _
  · refine ⟨fun h0 hp0 h1 hp1 l0 l1 => ?_, fun hn => ⟨fun hgone => ?_, fun h0 h1 hlong => ?_⟩, fun hthere => ?_,
      fun e he hgone hn => ?_, ?_⟩
    case refine_1 =>
      exact does_cpx_cluster hfree h5 hq hu rfl
        (List.forall_mem_cons.mpr ⟨⟨h0, hp0⟩, List.forall_mem_singleton.mpr ⟨h1, hp1⟩⟩)
        (List.forall_mem_cons.mpr ⟨l0, List.forall_mem_singleton.mpr l1⟩)
    case refine_2 =>
      refine raises_cpx_absent hfree h5 hq hu rfl ?_ hn
      rcases not_and_or.mp hgone with h | h
      · exact List.exists_mem_cons_of _ h
      · exact List.exists_mem_cons_of_exists (List.exists_mem_cons_of _ h)
    case refine_3 =>
      refine raises_of_cpxFault rfl hfree h5 hq (State.cpxCheck_length hu hn
        (List.forall_mem_cons.mpr ⟨h0, List.forall_mem_singleton.mpr h1⟩) ?_)
      rcases hlong with h | h
      · exact List.exists_mem_cons_of _ h
      · exact List.exists_mem_cons_of_exists (List.exists_mem_cons_of _ h)
    case refine_4 =>
      have hargs : (s.core k).cpxArgs f.dn.toNat 1 = [arg 0] := rfl
      refine does_cpx_cluster hfree h5 hq hu rfl ?_ ?_ <;> rw [hargs] <;>
        cases he : s.exchangeOf (k - 5) (arg 0).toNat <;> simp only [List.getD_cons_zero, he]
      · simp
      · obtain ⟨hp, -, -⟩ := hthere _ he
        exact List.forall_mem_singleton.mpr ⟨Nat.mod_lt _ (by decide), hp⟩
      · simp
      · obtain ⟨-, hchoice, hroute⟩ := hthere _ he
        exact List.forall_mem_cons.mpr ⟨hchoice, List.forall_mem_singleton.mpr hroute⟩
    case refine_5 =>
      have hargs : (s.core k).cpxArgs f.dn.toNat 1 = [arg 0] := rfl
      refine raises_cpx_absent hfree h5 hq hu rfl ?_ hn
      simp only [hargs, List.getD_cons_zero, show s.exchangeOf (k - 5) (arg 0).toNat = some e from he]
      exact ⟨_, List.mem_singleton_self _, fun h => absurd (hgone.symm.trans h.2) (by decide)⟩
    case refine_6 => exact does_cpx_cluster hfree h5 hq hu rfl (by simp) (by simp)

end Sys2Proof.Machine
end
section
/-! PROOFS. Why a completed operation's queue need not be the rest of it: its notice may interrupt a core that waits in the
same queue (08_tenon.md R249, R250, R264). -/

namespace Sys2Proof.Machine
open Sys2Proof.Say

/-! ### What a kill leaves of the queue (R264) -/

section
variable (s : State) (k c : Nat)

theorem State.dbgRecord_clusters (type sub unit payload : Nat) : (s.dbgRecord type sub unit payload).clusters = s.clusters := by
  unfold State.dbgRecord
  dsimp only
  split
  · exact State.count_clusters s F.dbgLostCount 1
  · rfl

theorem State.setCluster_queue {d : Nat} {x : Cluster} (h : x.queue = (s.cluster d).queue) :
    ((s.setCluster d x).cluster c).queue = (s.cluster c).queue := by
  rw [State.setCluster_get]
  split
  · next hcd => rw [h, hcd]
  · rfl

theorem State.traceRec_cluster (sub pc high : Nat) : (s.traceRec k sub pc high).cluster c = s.cluster c := by
  unfold State.traceRec
  split
  · rw [State.cluster, State.dbgRecord_clusters, State.cluster]
  · rfl

theorem State.setQueue_queue (q : List CpxOp) : ((s.setQueue c q).cluster c).queue = q := by rw [State.setQueue_self]

/-- A squash spends tags and leaves the queue. -/
theorem State.squash_queue (q : Squash) : ((s.squash k q).cluster c).queue = (s.cluster c).queue := by
  unfold State.squash
  split
  · rfl
  · dsimp only
    rw [State.clusterCtr_cluster, State.setCluster_queue _ _ (by rw [State.traceRec_cluster]), State.traceRec_cluster,
      State.cluster, State.wrapAdd_clusters, State.setCore_clusters, State.cluster]

/-- A CRD or CWAIT that waits leaves the queue of its own core. -/
theorem State.dropHeld_queue (h : 5 ≤ k) :
    ((s.dropHeld k).cluster (k - 5)).queue = (s.cluster (k - 5)).queue.filter (fun o => !o.holds) := by
  unfold State.dropHeld
  rw [if_neg (Nat.not_lt.mpr h)]
  split
  · next hnone =>
    refine (List.filter_eq_self.mpr fun o hmem => ?_).symm
    simpa using List.find?_eq_none.mp hnone o hmem
  · next o _ =>
    dsimp only
    rw [State.clusterCtr_cluster, State.setQueue_queue, State.traceRec_cluster]
    rfl

theorem State.kill_queue (h : 5 ≤ k) (q : Option Squash) :
    ((s.kill k q).cluster (k - 5)).queue = (s.cluster (k - 5)).queue.filter (fun o => !o.holds) := by
  rw [← s.dropHeld_queue k h]
  unfold State.kill
  dsimp only
  split
  · exact State.squash_queue _ _ _ _
  · rw [if_neg (Nat.not_lt.mpr h)]
    exact State.squash_queue _ _ _ _

end

/-- A control core that is entered at a vector leaves no CRD or CWAIT in its queue. -/
theorem State.enterVector_queue {s : State} {k vector : Nat} {resume : W32} {prio : Option Nat} {q : Option Squash} {y : Core}
    (h5 : 5 ≤ k) (h : (s.core k).enter vector resume prio (s.freeBits 32) = some y) :
    ((s.enterVector k vector resume prio q).cluster (k - 5)).queue
      = (s.cluster (k - 5)).queue.filter (fun o => !o.holds) := by
  unfold State.enterVector
  dsimp only
  rw [h]
  refine (State.kill_queue _ k h5 q).trans ?_
  rw [State.traceRec_cluster]
  split <;> rfl

/-- A line that is taken kills a CRD or CWAIT that waits. -/
theorem State.raiseLine_queue {s : State} {k l line : Nat} {x : Core} (h5 : 5 ≤ k)
    (hx : { s.core k with ipend := (s.core k).ipend ||| (1#32 <<< line) } = x) (hb : x.boundary = true)
    (hbest : x.bestLine = some l) (hfits : EntryFits x (16 + l)) :
    ((s.raiseLine k line).cluster (k - 5)).queue = (s.cluster (k - 5)).queue.filter (fun o => !o.holds) := by
  let t := s.setCore k x
  have hcore : t.core k = x := State.setCore_self _ _ _
  have he : s.raiseLine k line = (t.setCore k { x with ipend := x.ipend &&& ~~~(1#32 <<< l) }).enterVector k (16 + l) x.pc
      (some (x.prio l)) none := by
    unfold State.raiseLine State.pollInterrupt
    dsimp only
    rw [hx, hcore, hb, hbest]
    rfl
  have hfits' : EntryFits { x with ipend := x.ipend &&& ~~~(1#32 <<< l) } (16 + l) := hfits
  obtain ⟨y, henter, -⟩ := Core.enter_fits hfits' x.pc
    ((t.setCore k { x with ipend := x.ipend &&& ~~~(1#32 <<< l) }).freeBits 32) (prio := some (x.prio l))
    (by rintro _ ⟨⟩; exact prio_lt _ _)
  rw [he]
  refine State.enterVector_queue h5 (y := y) ?_
  rw [State.setCore_self]
  exact henter

/-- The oldest operation of an open bench leaves the queue, does what it does, and gives its notice (R259, R262). -/
theorem cpxOpComplete_oldest {s : State} {c : ClusterId} {u : BitVec 4} {o : CpxOp} {rest : List CpxOp}
    (hq : (s.cluster c).queue = o :: rest) (hu : o.unit = u.toNat) (hholds : o.holds = false) (hbench : o.unit < 10)
    (hopen : s.flag (F.bncStatusOpen (10 * c + o.unit)) = true) : exec (.cpxOpComplete c u) s
      = .next (if o.notify then ((s.setQueue c rest).runBenchOp c o).raiseCluster c 2
        else (s.setQueue c rest).runBenchOp c o) := by
  have hfirst : (o :: rest).findIdx? (fun o => o.unit == u.toNat && !o.holds) = some 0 := by
    simp [List.findIdx?_cons, hu, hholds]
  have hgoes : ¬ (o.unit < 10 ∧ ¬ s.flag (F.bncStatusOpen (10 * c + o.unit)) = true) := fun h => h.2 hopen
  show execCpxOpComplete c u s = _
  unfold execCpxOpComplete
  dsimp only
  rw [hq, hfirst]
  dsimp only [List.getElem?_cons_zero]
  rw [if_neg hgoes, if_pos hbench]
  rfl

/-! ### A state where it is so -/

/-- A core outside the MPU reaches all of its memory. -/
theorem reachable_of_unprotected {x : Core} (h : x.mpuOn = false) (hk : (x.setBit Sw.priv true).mpuOn = false) : Reachable x :=
  fun _ _ _ _ => by simp [Core.allowed, h, hk]

/-- A control core in kernel mode that takes line 2 at priority 1 and has room for a frame. -/
def listeningCore : Core :=
  { Core.init with held := false, cfg := 1, p := [(7, 0x20000)], sw := 0xC0, ien := 4, ipri := [(0, 0x100)] }

/-- A CWR of bench 0 that raises line 2 when it completes, and the CWAIT that waits for it. -/
def notifyingCwr : CpxOp := ⟨CpxKind.cwr, 0, 0, 0, 0, true, 0, [0, 0]⟩
def waitingCwait : CpxOp := ⟨CpxKind.cwait, 0, 0, 0, 0, false, 1, []⟩

/-- Bench 0's window is open, and cluster 0's core waits for the CWR with its interrupts enabled. -/
def waitingForNotice : State :=
  { State.reset.setFlag (F.bncStatusOpen 0) true with
    clusters := [(0, { Cluster.init with queue := [notifyingCwr, waitingCwait] })]
    cores := [(5, listeningCore)] }

/-- The core with line 2 pending. -/
def noticedCore : Core := { listeningCore with ipend := 4 }

theorem noticedCore_takes : noticedCore.boundary = true ∧ noticedCore.bestLine = some 2 ∧ EntryFits noticedCore 18 := by
  exact ⟨by decide +kernel, by decide +kernel, reachable_of_unprotected (by decide +kernel) (by decide +kernel),
    by decide +kernel⟩

theorem waitingForNotice_meets : waitingForNotice.flag (F.bncStatusOpen 0) = true
    ∧ (waitingForNotice.cluster 0).queue = [notifyingCwr, waitingCwait] := by
  decide +kernel

/-- The CWR has written its lane and left the queue, and its notice is still to come. -/
def cwrWritten : State := (waitingForNotice.setQueue 0 [waitingCwait]).runBenchOp 0 notifyingCwr

theorem waitingForNotice_next :
    exec (.cpxOpComplete 0 0) waitingForNotice = .next (cwrWritten.raiseCluster ((0 : ClusterId) : Nat) 2) := by
  obtain ⟨hopen, hqueue⟩ := waitingForNotice_meets
  have hbench : 10 * ((0 : ClusterId) : Nat) + notifyingCwr.unit = 0 := by decide
  rw [cpxOpComplete_oldest (c := 0) (u := 0) (o := notifyingCwr) (rest := [waitingCwait]) hqueue (by decide) (by decide)
    (by decide) (by rw [hbench]; exact hopen), if_pos (by decide)]
  rfl

/-- The CWR completes, and the CWAIT is gone with the instruction that waited. -/
theorem waitingForNotice_completes :
    ∃ t, exec (.cpxOpComplete 0 0) waitingForNotice = .next t ∧ (t.cluster 0).queue = [] := by
  obtain ⟨hb, hbest, hfits⟩ := noticedCore_takes
  have hcore : { cwrWritten.core 5 with ipend := (cwrWritten.core 5).ipend ||| (1#32 <<< 2) } = noticedCore := by decide +kernel
  refine ⟨_, waitingForNotice_next, (State.raiseLine_queue (by decide) hcore hb hbest hfits).trans ?_⟩
  decide +kernel

/-- Refutes O20: its first clause says that the rest of the queue stays. In waitingForNotice the oldest operation is a CWR
with notify, and behind it stands the CWAIT of the core, which takes interrupts; the notice (R259) interrupts the core, and
the CWAIT that waits is killed with its instruction and leaves the queue (R264). The clause lacks at least the premise
that the operation does not notify, or that no CRD or CWAIT waits. -/
theorem not_coprocessorOperationsComplete : ¬ Obligations.coprocessor_operations_complete := by
  intro hall
  obtain ⟨hopen, hqueue⟩ := waitingForNotice_meets
  obtain ⟨hbench, -⟩ := hall waitingForNotice 0 0 notifyingCwr [waitingCwait] hqueue rfl rfl
  obtain ⟨t, ht, hrest, -⟩ := hbench (by decide) hopen
  obtain ⟨u, hu, hempty⟩ := waitingForNotice_completes
  obtain rfl : u = t := Host.Outcome.next.inj (hu.symm.trans ht)
  exact absurd (hempty.symm.trans hrest) (by decide)

end Sys2Proof.Machine
end
